-- ==== Sys2Proof/Word.lean ====
section
/-! DEFINITION. The widths the manual uses (R28, R42, R155) and the one shape of sparse storage.
Every large store of the engine (DRAM, scratchpad lines, accumulator words, tables) is a list of
key and value pairs in one canonical form: keys strictly rising, and no entry equal to what an
unlisted key reads as. -/

namespace Sys2Proof

/-- One byte of any memory. -/
abbrev Byte := BitVec 8

/-- A BF16 encoding, or any other 16-bit field. -/
abbrev Half := BitVec 16

/-- A 32-bit register, scalar register or FP32 encoding. -/
abbrev Word := BitVec 32

/-- A 64-bit field of a packet, descriptor or record. -/
abbrev Dword := BitVec 64

/-- Sparse storage by key. The operations that keep its canonical form stand in Machine/Ops.lean. -/
abbrev SMap (α : Type) := List (Nat × α)

/-- Sparse bytes by address: the form in which every byte-addressed memory is held. -/
abbrev Memory := List (Nat × Byte)

end Sys2Proof
end

