-- ==== Sys2Proof/Syntax.lean ====
section
/-! DEFINITION. The commands and events that change the engine: the operands they carry and, last, the one
inductive of them, a constructor for each row of spec/opcode_table.json. -/

namespace Sys2Proof

/-- A physical core position (R25, R30): die 0 to 15, column 0 to 7, physical row 0 to 16. -/
structure CorePos where
  die : Nat
  col : Nat
  row : Nat
  deriving DecidableEq, Repr

/-- What the hardware checks of a core report while an instruction runs (R110, R640): nothing, a corrected single-bit
error, an uncorrectable error, or a parity or residue error of the core's own logic. -/
inductive HwEvent where
  | none
  | eccCorrected
  | eccUncorrectable
  | logicError
  deriving DecidableEq, Repr

/-- The operand fields of one instruction word below its opcode (R155). -/
structure TileWord where
  f1 : BitVec 4
  f2 : BitVec 4
  f3 : BitVec 4
  f4 : BitVec 4
  md : BitVec 8
  imm : BitVec 32
  deriving DecidableEq, Repr

/-- One issue of an instruction by a core's sequencer (R149): the core, the fetched word's fields, and what the
core's checks report. -/
structure TileOp where
  core : CorePos
  w : TileWord
  hw : HwEvent
  deriving DecidableEq, Repr

/-- A command in flight: its queue block (0 ADMIN, 1 + p the TENANT block of partition p, 9 MGMT, 10 DEBUG) and its
number among that block's fetches. -/
structure CmdRef where
  block : Nat
  id : Nat
  deriving DecidableEq, Repr

/-- A register that REG_WRITE names: a BAR0 offset of a function (0 for PF0, k for VFk), or an offset in a core's slot
(R30): its registers and its program memory window; or an address of the control space that firmware writes (R28, R32). -/
inductive RegAddr where
  | bar0 (fn : Nat) (off : Nat)
  | core (pos : CorePos) (off : Nat)
  | control (addr : Nat)
  deriving DecidableEq, Repr

/-- Bytes the host stores in its own memory before it writes a doorbell (R426). -/
structure HostWrite where
  addr : Nat
  data : List Byte
  deriving DecidableEq, Repr

/-- What the host's IOMMU does from now on with the requests of a function to a range of its addresses (R33): the function is
0 for PF0 and k + 1 for VFk's partition k. With `swap` the range is the function's swap area, whose host addresses the manual
does not give (R273). -/
structure HostGrant where
  fn : Nat
  swap : Bool
  base : Nat
  size : Nat
  refuse : Bool
  deriving DecidableEq, Repr

/-- Symbols in error of one DRAM read and of its one retry, and the lanes that fail (R332, R333). -/
structure SymErr where
  symbols : Nat
  retry : Nat
  lanes : List Nat
  deriving DecidableEq, Repr

/-- An error met in the codeword of an engine address (R333). -/
structure DramErr where
  addr : Nat
  err : SymErr
  deriving DecidableEq, Repr

/-- How the read of a flash unit went when its first decode failed (R352). -/
inductive UnitOutcome where
  | ladder
  | rebuild
  | lost
  deriving DecidableEq, Repr

/-- A flash unit whose first decode failed. -/
structure UnitErr where
  unit : Nat
  outcome : UnitOutcome
  deriving DecidableEq, Repr

/-- What the checks of the array and of the accumulator memory report while a pass completes (R99, R101, R110): nothing; an
error in an accumulator word that an ADD or SUB pass reads, corrected or not; group sums of one row that an error in a data cell
or a stationary register has changed; an error in the checksum column or comparator that one comparison sees; a residue error,
with the number of rows whose comparisons had been decided by then. -/
inductive PassCheck where
  | ok
  | eccCorrected
  | eccUncorrectable
  | dataError (row : Nat) (group : Nat) (sums : List Word)
  | checkError (row : Nat) (group : Nat)
  | residue (decided : Nat)
  deriving DecidableEq, Repr

/-- An error that SEC-DED meets in a word of a core's SPAD or accumulator memory while a DMA engine reads it (R110). -/
structure EccErr where
  core : CorePos
  uncorrectable : Bool
  deriving DecidableEq, Repr

/-- A unit whose drain limit can expire (R471): a partition (R457), a context (R474), a submission ring (R420), a capture
stream (R491), a decode area (R514), a SOLSTICE request under cancel (R625), a span port (R401). -/
inductive DrainUnit where
  | partition (p : Nat)
  | context (p : Nat) (ctx : Nat)
  | ring (blk : Nat) (ring : Nat)
  | stream (n : Nat)
  | decodeArea (p : Nat) (ctx : Nat)
  | boost
  | spanPort (n : Nat)
  deriving DecidableEq, Repr

/-- A report of a suspected unit (R657): event code and UNIT, the reporting core's die and column (none for a station
that is not a core), severity, partition and DETAIL of the event. -/
structure Report where
  code : Nat
  unit : Nat
  reporter : Option (Nat × Nat)
  sev : Nat
  part : Nat
  detail : Nat
  deriving DecidableEq, Repr

/-- Boundary-scan instructions (R538, R700). -/
inductive JtagIr where
  | bypass
  | idcode
  | samplePreload
  | extest
  | clamp
  | highz
  deriving DecidableEq, Repr

/-- The commands and events of the block: one constructor for each row of spec/opcode_table.json, in its order. -/
inductive Instr where
  | bar0BadAccess (write : Bool) (len : Nat)
  | mirrorWrite (part : Nat)
  | regWrite (at_ : RegAddr) (val : Word)
  | sqTailWrite (blk : Nat) (ring : Nat) (val : Word) (mem : List HostWrite) (iommu : List HostGrant)
  | cqHeadWrite (blk : Nat) (ring : Nat) (val : Word)
  | sqEnable (blk : Nat) (ring : Nat) (val : Word)
  | sqDisable (blk : Nat) (ring : Nat)
  | cqEnable (blk : Nat) (ring : Nat) (val : Word)
  | cqDisable (blk : Nat) (ring : Nat)
  | clrCounts (blk : Nat)
  | stwReset
  | clrLost
  | evtConsWrite (val : Word)
  | timebaseLoRead (dt : Nat)
  | steppedClear
  | trippedClear
  | clkoutCtrlWrite (n : Nat) (val : Word)
  | apertureRead (off : Nat) (len : Nat) (errs : List DramErr)
  | apertureWrite (off : Nat) (data : List Byte)
  | clrRbw (core : CorePos)
  | clrWritten (core : CorePos)
  | zeroAll (core : CorePos)
  | zeroingDone (core : CorePos)
  | clrStat (core : CorePos)
  | clrCheck (core : CorePos)
  | go (core : CorePos) (val : Word)
  | bankPwrWrite (core : CorePos) (val : Word)
  | bankWakeEnd (core : CorePos) (bank : Nat)
  | bankScrubEnd (core : CorePos) (bank : Nat)
  | bankPowerOff (core : CorePos) (bank : Nat)
  | packetFetch (blk : Nat) (ring : Nat)
  | cqHeldRecordWrite (blk : Nat) (ring : Nat)
  | cqIrqDelayExpiry (blk : Nat) (ring : Nat)
  | commandTimeout (c : CmdRef)
  | seqBusyResume (c : CmdRef)
  | opPartCreate (c : CmdRef)
  | opPartDestroy (c : CmdRef)
  | opPartDisable (c : CmdRef)
  | opPartStat (c : CmdRef)
  | opCtxCreate (c : CmdRef)
  | opCtxDestroy (c : CmdRef)
  | opQuotaSet (c : CmdRef)
  | opQuotaStat (c : CmdRef)
  | opCmdAbort (c : CmdRef)
  | opPlanLoad (c : CmdRef)
  | planInstall (part : Nat) (ctx : Nat)
  | opWeightLoad (c : CmdRef)
  | opPoolBind (c : CmdRef) (errs : List UnitErr)
  | opTensorStat (c : CmdRef)
  | opRun (c : CmdRef)
  | opRoll (c : CmdRef)
  | opFork (c : CmdRef)
  | opTrainStep (c : CmdRef)
  | opSeqCreate (c : CmdRef)
  | opSeqRelease (c : CmdRef)
  | opSeqThaw (c : CmdRef)
  | opKvStat (c : CmdRef)
  | opRegionCreate (c : CmdRef)
  | opRegionDestroy (c : CmdRef)
  | opMemClass (c : CmdRef)
  | opMemCopy (c : CmdRef)
  | opStoreCreate (c : CmdRef)
  | opStoreDestroy (c : CmdRef)
  | opStoreAttach (c : CmdRef)
  | opStoreWrite (c : CmdRef)
  | opStoreRead (c : CmdRef) (errs : List UnitErr)
  | opStoreTrim (c : CmdRef)
  | opStoreStat (c : CmdRef)
  | opJpegDecode (c : CmdRef)
  | opDcacheConfig (c : CmdRef)
  | opLsfRead (c : CmdRef)
  | opLsfWrite (c : CmdRef)
  | opCapAssign (c : CmdRef)
  | opCapConfig (c : CmdRef)
  | opCapStart (c : CmdRef)
  | opCapStop (c : CmdRef)
  | opHarvest (c : CmdRef)
  | opInventory (c : CmdRef)
  | opSensorRead (c : CmdRef)
  | opEventRead (c : CmdRef)
  | opFwStage (c : CmdRef) (slotBad : Bool)
  | opFwActivate (c : CmdRef)
  | opBoost (c : CmdRef)
  | opReset (c : CmdRef)
  | opLcAdvance (c : CmdRef) (bad : Option Nat)
  | opKeyProvision (c : CmdRef) (fuseBad : Bool)
  | opDebugUnlock (c : CmdRef) (nonce : List Byte)
  | opConfidential (c : CmdRef)
  | opPlanKey (c : CmdRef)
  | opSpanConfig (c : CmdRef)
  | opSpanRoute (c : CmdRef)
  | opSpanWindow (c : CmdRef)
  | opCollGroup (c : CmdRef)
  | opSpanStat (c : CmdRef)
  | stepDispatch (c : CmdRef)
  | planChangeStep (part : Nat)
  | dispatchCommit (core : CorePos)
  | granuleCommit (c : CmdRef)
  | expertPoint (c : CmdRef) (errs : List UnitErr)
  | quantumExpiry (part : Nat)
  | switchPoint (part : Nat)
  | switchSaveDone (part : Nat)
  | switchRestoreDone (part : Nat) (us : Nat)
  | drainLimitExpiry (u : DrainUnit)
  | tNop (op : TileOp)
  | tEnd (op : TileOp)
  | tJmp (op : TileOp)
  | tBr (op : TileOp)
  | tLoop (op : TileOp)
  | tTrap (op : TileOp)
  | tMovi (op : TileOp)
  | tAdd (op : TileOp)
  | tAddi (op : TileOp)
  | tSub (op : TileOp)
  | tMul (op : TileOp)
  | tAnd (op : TileOp)
  | tOr (op : TileOp)
  | tShl (op : TileOp)
  | tShr (op : TileOp)
  | tLdx (op : TileOp)
  | tStx (op : TileOp)
  | tRdc (op : TileOp)
  | tLds (op : TileOp)
  | loadReady (core : CorePos)
  | tSwp (op : TileOp)
  | tPass (op : TileOp)
  | tTpass (op : TileOp)
  | passComplete (core : CorePos) (chk : PassCheck)
  | arrayRampDown (core : CorePos)
  | arrayGated (core : CorePos)
  | tFlush (op : TileOp)
  | tAclr (op : TileOp)
  | tVld (op : TileOp)
  | tVst (op : TileOp)
  | gbIdleFlush (core : CorePos) (line : Nat)
  | tVlda (op : TileOp)
  | tVsta (op : TileOp)
  | tVadd (op : TileOp)
  | tVsub (op : TileOp)
  | tVmul (op : TileOp)
  | tVfma (op : TileOp)
  | tVmax (op : TileOp)
  | tVmin (op : TileOp)
  | tVcvt (op : TileOp)
  | tVsplit (op : TileOp)
  | tVred (op : TileOp)
  | tQnt (op : TileOp)
  | tSfn (op : TileOp)
  | tStbl (op : TileOp)
  | tSmp (op : TileOp)
  | tSrow (op : TileOp)
  | tSsmx (op : TileOp)
  | tStld (op : TileOp)
  | tStst (op : TileOp)
  | tSstep (op : TileOp)
  | tSout (op : TileOp)
  | tDmaq (op : TileOp)
  | dmaDescriptorStart (core : CorePos) (eng : Nat) (errs : List DramErr) (ecc : List EccErr)
  | dmaComplete (core : CorePos) (eng : Nat)
  | dmaDeadlineExpiry (core : CorePos) (eng : Nat) (stack : Nat) (chan : Nat)
  | tNbx (op : TileOp)
  | nbBeatArrival (core : CorePos) (port : Nat) (parityBad : Bool)
  | tWait (op : TileOp)
  | tCset (op : TileOp)
  | tFence (op : TileOp)
  | tBar (op : TileOp)
  | barRelease (part : Nat) (group : Nat)
  | tEvt (op : TileOp)
  | watchdogExpiry (core : CorePos)
  | coreFaultRecovery (die : Nat) (faults : List (Nat × Nat)) (sourceBad : Bool)
  | selfTestDone (core : CorePos) (pass : Bool)
  | gapTestTimer (die : Nat)
  | coreReset (core : CorePos)
  | marshalCoalesceClose (die : Nat) (code : Nat) (unit : Nat)
  | faultReport (r : Report)
  | stewardCoalesceClose (code : Nat) (unit : Nat)
  | conductorTakeover (core : Nat) (testPass : Bool)
  | marshalRestart (die : Nat) (testPass : Bool)
  | hubHalfLoss (half : Bool)
  | hubHalfRestored (half : Bool)
  | linkRetryExcess (die : Nat) (link : Nat) (bridge : Bool)
  | patrolScrubRead (stack : Nat) (chan : Nat) (codeword : Nat) (err : SymErr)
  | sparingCopyDone (stack : Nat) (chan : Nat)
  | allocationScrubDone (part : Nat) (region : Nat)
  | flashWriteDone (pair : Nat) (programBad : Bool)
  | stripeCloseTimer (pair : Nat) (chan : Nat)
  | mapCheckpoint (pair : Nat)
  | relocationDone (pair : Nat) (chan : Nat) (sb : Nat) (badBlocks : List Nat)
  | staticLevelling (pair : Nat) (chan : Nat)
  | flitReceive (port : Nat) (flit : List Byte) (uncorrectable : Bool) (corrected : Nat)
  | nakReceive (port : Nat) (seq : Nat)
  | laneFailing (port : Nat) (lane : Nat)
  | laneSpareRequest (port : Nat) (lane : Nat)
  | portTrainingDone (port : Nat) (lanes : Nat) (peerEngine : Nat) (peerPort : Nat) (room : Nat)
  | portRetryTimer (port : Nat)
  | spanPacketArrival (port : Nat) (pkt : List Byte)
  | spanLocalCompletion (port : Nat) (pkt : List Byte)
  | collectiveComplete (part : Nat) (group : Nat)
  | spanTimeout (core : CorePos) (req : Nat)
  | csiFrameStart (port : Nat) (vc : Nat) (fn : Nat) (corrected : Bool) (dt : Nat)
  | csiLongPacket (port : Nat) (vc : Nat) (dt : Nat) (codes : List Nat) (crcBad : Bool) (corrected : Bool) (backlog : Bool)
  | csiOtherPacket (port : Nat) (vc : Nat) (corrected : Bool)
  | csiFrameEnd (port : Nat) (vc : Nat) (corrected : Bool)
  | frameTimeout (stream : Nat)
  | pipelineExit (stream : Nat) (dt : Nat)
  | tsyncEdge (dt : Nat)
  | tsyncLost (dt : Nat)
  | refFailure (pll : Nat) (refB : Bool)
  | refGood (pll : Nat) (refB : Bool)
  | switchoverLock (pll : Nat)
  | coastStep (pll : Nat)
  | pllLockLoss (die : Nat)
  | sensorSample (sensor : Nat) (val : Word) (outside : Bool) (dt : Nat)
  | throttleStep
  | throttleRecovery
  | solsticeRampStep (dt : Nat)
  | stepdownStep (dt : Nat)
  | wearBinWrite (dt : Nat) (newHour : Bool)
  | tripComparator (sensor : Nat)
  | lockstepMismatch (testPass : Bool)
  | stewardWatchdog
  | stewardRestartDone (dt : Nat)
  | logWrite
  | fwTrialTimer (kind : Nat)
  | conductorLoaded (core : Nat)
  | equinoxHandover (part : Nat)
  | marshalActivation (die : Nat)
  | setEndpointId (op : Nat) (eid : Nat)
  | getEndpointId
  | getMctpVersionSupport (ty : Nat)
  | getMessageTypeSupport
  | mgmtCommandPacket (debug : Bool) (packet : List Byte)
  | getTid
  | getPldmVersion (ty : Nat)
  | getPldmTypes
  | getPldmCommands (ty : Nat)
  | getPdrRepositoryInfo
  | getPdr (record : Nat)
  | getSensorReading (sensor : Nat)
  | pollForPlatformEventMessage (ack : Bool)
  | pldmUnsupported (ty : Nat) (cmd : Nat)
  | queryDeviceIdentifiers
  | getFirmwareParameters
  | requestUpdate
  | passComponentTable (comps : List Nat)
  | updateComponent (comp : Nat) (size : Nat)
  | requestFirmwareDataResponse (off : Nat) (data : List Byte)
  | transferComplete (result : Nat)
  | verifyComplete
  | applyComplete (slotBad : Bool)
  | activateFirmware
  | getStatus
  | cancelUpdateComponent
  | cancelUpdate
  | spdmGetVersion
  | spdmGetCapabilities (version : Nat)
  | negotiateAlgorithms (offersAll : Bool)
  | getDigests
  | getCertificate (slot : Nat) (off : Nat) (len : Nat)
  | challenge (slot : Nat) (nonce : List Byte)
  | getMeasurements (index : Nat)
  | keyExchange (slot : Nat)
  | finish (session : Nat) (verified : Bool)
  | heartbeat (session : Nat)
  | keyUpdate (session : Nat)
  | endSession (session : Nat)
  | ideKmKeyProg (session : Nat) (stream : Nat) (set : Nat)
  | kSetGo (session : Nat) (stream : Nat) (set : Nat)
  | tdispGetVersion (session : Nat)
  | tdispGetCapabilities (session : Nat)
  | lockInterfaceRequest (session : Nat) (part : Nat) (stream : Nat)
  | getDeviceInterfaceReport (session : Nat) (part : Nat)
  | getDeviceInterfaceState (session : Nat) (part : Nat)
  | startInterfaceRequest (session : Nat) (part : Nat)
  | stopInterfaceRequest (session : Nat) (part : Nat)
  | ideIntegrityFailure (stream : Nat)
  | debugSessionExpiry
  | challengeExpiry
  | jtagInstruction (ir : JtagIr)
  | jtagTrst
  | flashEraseDone
  | v3p3AuxGood (spi : List Byte)
  | v3p3AuxLost
  | romBootRetry (spi : List Byte)
  | pwrEnAssert (fuseBad : Bool)
  | vin48Good (refA : Bool) (refB : Bool) (failed : List CorePos) (conductors : List Nat)
  | vin48StartTimeout
  | vin48Retry
  | vin48Lost
  | dramTrained (failed : List (Nat × Nat))
  | flashMapRebuilt (rebuilt : Bool)
  | readySet (ms : Nat)
  | sysResetNRelease (lowUs : Nat)
  | pciePerstNFall
  | pciePerstNRise
  | warmReset (spi : List Byte) (dt : Nat) (refA : Bool) (refB : Bool) (failed : List CorePos) (conductors : List Nat) (fuseBad : Bool)
  | coldReset (spi : List Byte)
  | i3cSetdasa (static : Nat) (addr : Nat)
  | i3cEntdaa (addr : Nat)
  | sysResetNAssert
  | hostPortL0 (wide : Bool)
  | hostLinkDown
  | sriovEnable (on : Bool)
  | pageSetZeroingDone (part : Nat) (ctx : Nat) (page : Nat)
  | channelResetDone (stack : Nat) (chan : Nat) (answers : Bool)
  | solsticeDurationExpiry
  | firmwareFault (kind : Nat)
  deriving DecidableEq, Repr

end Sys2Proof
end

