-- ==== Sys2Proof/Config.lean ====
section
/-! DEFINITION. What one engine fixes and the manual does not state: opaque constants, so that a claim
holds whatever their value is. -/

namespace Sys2Proof.Config

/-- A fresh free value: the step applies it to a counter of the state and advances the counter.
DESIGN CHOICE, notes/assumptions/2.md. -/
opaque freeWord : Nat → Word

/-- The read-only store of the special function units (R206): word i of ROM table t (0 to 63) and of ROM micro-program f
(0 to 0x17), of generation 2 (true) or 3. The manual says what the store holds and does not print it. DESIGN CHOICE,
notes/assumptions/3.md. -/
opaque romTableWord : Bool → Nat → Nat → Word
opaque romMicroWord : Bool → Nat → Nat → Word

/-- Posts that a die marshal's event queue holds beyond one (R175): the manual gives no depth. DESIGN CHOICE,
notes/assumptions/33.md. -/
opaque eventQueueMore : Nat

/-- SEVERITY of an event code, for the codes of R578 and R651 that have none stated. DESIGN CHOICE,
notes/assumptions/2.md. -/
opaque eventSeverity : Nat → Nat

/-- DETAIL [3:0] of event 0x0905 for a cause of a Steward-only reset (R591): the manual lists the causes and gives them no
codes. The argument is the cause's place in R591's list. DESIGN CHOICE, notes/assumptions/2.md. -/
opaque stewardCause : Nat → BitVec 4

/-- Event code of a refused pipeline write: R500 has the Steward log its address, and R578 lists no code for it. DESIGN
CHOICE, notes/assumptions/2.md. -/
opaque pipelineRefusalCode : Nat

/-- Event code of a firmware access to control space that is refused, and of a write to the ROM window: R28 and R206 raise a
Steward event, and R578 lists no code for it. DESIGN CHOICE, notes/assumptions/2.md. -/
opaque controlRefusalCode : Nat

/-- Event code of a write to the swap area that the host refused: R273 has the Steward log it, and R578 lists no code for it.
DESIGN CHOICE, notes/assumptions/2.md. -/
opaque swapRefusalCode : Nat

/-- Parity symbol i of a span port's RS(112,104) codeword (R378): the manual gives neither the field's polynomial nor the
code's. DESIGN CHOICE, notes/assumptions/14.md. -/
opaque rsParity : List Byte → Nat → Byte

/-- The digest of a collective group's block (R396), whose function the manual does not give. DESIGN CHOICE,
notes/assumptions/14.md. -/
opaque groupDigest : List Byte → Dword

/-- SHA-384 as the manual uses it by name (R540, R548, R551, R585). PRESUMED, notes/assumptions/4.md. -/
opaque sha384 : List Byte → List Byte

/-- ECDSA P-384 verification of a signature (x, y, r, s) over a digest, and whether a point lies on P-384 (R540, R547,
R549, R550, R585). PRESUMED, notes/assumptions/4.md. -/
opaque ecdsaVerify : Nat → Nat → Nat → Nat → List Byte → Bool
opaque onP384 : Nat → Nat → Bool

/-- HMAC-SHA-384 under the module's log key (R537, R581): the MAC as a number of 384 bits. PRESUMED,
notes/assumptions/4.md. -/
opaque logMac : List Byte → Nat

/-- The certificate chain of slot 0 (R537, R559) and a signature by the alias key (R559), which both follow the digest of the
running Steward firmware, and measurement 1, the digest of the hub ROM (R560). PRESUMED, notes/assumptions/4.md. -/
opaque certChain : List Byte → List Byte
opaque aliasSign : List Byte → List Byte → List Byte
opaque romDigest : List Byte

/-- Whether the module is fused for long service (R6, R8). -/
opaque longService : Bool

/-- ENG_REV.GRADE (R6, R8): 0x0 or 0x1. -/
def grade : BitVec 4 := if longService then 1 else 0

/-- Identity fused at manufacture (R37, R534): serial number, and the two Ecfer key hashes. -/
opaque serial : Dword
opaque erkHash : List Byte
opaque edkHash : List Byte

end Sys2Proof.Config
end

