-- ==== Sys2Proof/Machine/Mem.lean ====
section
/-! DEFINITION. Operations on sparse storage: read and write of one key, and of runs of bytes, all of which keep
the canonical form (keys strictly rising, no entry equal to what an unlisted key reads as). -/

namespace Sys2Proof.Machine

/-- Read a key; an unlisted key reads as the default. -/
def SMap.get {α : Type} (d : α) : SMap α → Nat → α
  | [], _ => d
  | (k, v) :: m, a => if k = a then v else SMap.get d m a

/-- Remove a key. -/
def SMap.erase {α : Type} : SMap α → Nat → SMap α
  | [], _ => []
  | (k, v) :: m, a => if k = a then m else (k, v) :: SMap.erase m a

/-- Insert or replace a key, keeping keys rising. -/
def SMap.put {α : Type} : SMap α → Nat → α → SMap α
  | [], a, x => [(a, x)]
  | (k, v) :: m, a, x =>
    if a < k then (a, x) :: (k, v) :: m
    else if a = k then (a, x) :: m
    else (k, v) :: SMap.put m a x

/-- Write a key; writing the default removes the entry. -/
def SMap.set {α : Type} [DecidableEq α] (d : α) (m : SMap α) (a : Nat) (x : α) : SMap α :=
  if x = d then SMap.erase m a else SMap.put m a x

/-- Keep the keys outside [a, a + n): those keys read as the default afterwards. -/
def SMap.clearRange {α : Type} (m : SMap α) (a n : Nat) : SMap α :=
  m.filter (fun p => decide (p.1 < a ∨ a + n ≤ p.1))

/-- Write consecutive keys from a upward. -/
def SMap.setRange {α : Type} [DecidableEq α] (d : α) (m : SMap α) : Nat → List α → SMap α
  | _, [] => m
  | a, x :: xs => SMap.setRange d (SMap.set d m a x) (a + 1) xs

/-- Read n consecutive keys from a upward. -/
def SMap.getRange {α : Type} (d : α) (m : SMap α) (a n : Nat) : List α := (List.range n).map (fun i => SMap.get d m (a + i))

/-- Keys strictly rising from a lower bound. -/
def SMap.risingFrom {α : Type} : Nat → SMap α → Bool
  | _, [] => true
  | lo, (k, _) :: m => decide (lo ≤ k) && SMap.risingFrom (k + 1) m

/-- The canonical form. -/
def SMap.wf {α : Type} [DecidableEq α] (d : α) (m : SMap α) : Bool :=
  SMap.risingFrom 0 m && m.all (fun p => decide (p.2 ≠ d))

/-- Read one byte; an unlisted byte reads zero. -/
def Memory.byte (m : Memory) (a : Nat) : Byte := SMap.get 0#8 m a

/-- Write one byte. -/
def Memory.setByte (m : Memory) (a : Nat) (b : Byte) : Memory := SMap.set 0#8 m a b

/-- The n bytes from address a upward. -/
def Memory.read (m : Memory) (a n : Nat) : List Byte := (List.range n).map (fun i => Memory.byte m (a + i))

/-- Write bytes from address a upward. -/
def Memory.write (m : Memory) : Nat → List Byte → Memory
  | _, [] => m
  | a, b :: bs => Memory.write (Memory.setByte m a b) (a + 1) bs

/-- Zero the n bytes from address a upward. -/
def Memory.zero (m : Memory) (a n : Nat) : Memory := SMap.clearRange m a n

/-- Move a run of n bytes within one memory without listing its zero bytes. -/
def Memory.copyFrom (src : Memory) (a n : Nat) (dst : Memory) (b : Nat) : Memory :=
  (src.filter (fun p => decide (a ≤ p.1 ∧ p.1 < a + n))).foldl
    (fun m p => Memory.setByte m (b + (p.1 - a)) p.2) (Memory.zero dst b n)

/-- The canonical form of a byte memory. -/
def Memory.wf (m : Memory) : Bool := SMap.wf 0#8 m

/-- Little-endian value of a list of bytes. -/
def leNat : List Byte → Nat
  | [] => 0
  | b :: bs => b.toNat + 256 * leNat bs

/-- The n little-endian bytes of a value. -/
def leBytes : Nat → Nat → List Byte
  | 0, _ => []
  | n + 1, v => BitVec.ofNat 8 v :: leBytes n (v / 256)

/-- A little-endian field of w bytes at an offset of a byte list; bytes beyond the end read zero. -/
def field (bs : List Byte) (off w : Nat) : Nat := leNat ((List.range w).map (fun i => bs.getD (off + i) 0))

/-- Bits [hi:lo] of a value. -/
def bitsOf (v hi lo : Nat) : Nat := (v / 2 ^ lo) % 2 ^ (hi + 1 - lo)

/-- One bit of a value. -/
def bitOf (v i : Nat) : Bool := (v / 2 ^ i) % 2 == 1

end Sys2Proof.Machine
end

