-- ==== Sys2Proof/Machine/ChipState.lean ====
section
/-! DEFINITION. State outside the partitions: DRAM channels and flash (chapter 11), span ports (chapter 12), capture
ports and streams (chapter 15), clocks (chapter 19), power (chapter 20), die marshals and conductors (chapters 18, 21). -/

namespace Sys2Proof.Machine

/-! ### DRAM channels -/

/-- One logged correction of a channel (R333, R338): time base, codeword, failing lanes. -/
structure EccLog where
  time : Nat
  codeword : Nat
  lanes : List Nat
  deriving DecidableEq, Repr

/-- One DRAM channel (R333, R337 to R339, R655, R676). -/
structure Chan where
  ceCount : Nat
  retryOk : Nat
  log : List EccLog
  /-- The spare channel that serves it, 32 or 33, once copying is complete; `past` holds the spares that served it before and
  are retired. -/
  spare : Option Nat
  past : List Nat
  /-- The spare being written while the sparing copy runs, with the copy pointer's codeword. -/
  copying : Option Nat
  /-- A sparing trigger waits for the Steward (R567). -/
  spareDue : Bool
  retired : Bool
  /-- The channel answers requests. -/
  answers : Bool
  /-- A controller reset is in progress; how many resets have been made since it last answered. -/
  resetting : Bool
  resets : Nat
  /-- It failed training and no spare channel was free (R676). -/
  unusable : Bool
  deriving DecidableEq, Repr

/-- A cached translation (R256): the partition for which it was read, the engine address of the table entry, and the entry. -/
structure Xlat where
  part : Nat
  addr : Nat
  entry : Nat
  deriving DecidableEq, Repr

/-- The symbols in error that the next read of an undisturbed codeword meets. -/
def SymErr.clean : SymErr := { symbols := 0, retry := 0, lanes := [] }

/-- The DRAM tier and host memory (R28, R33, R334, R337, R346). `poison` and `latent` are keyed by codeword of a channel:
(stack * 34 + channel) * 2^25 + offset / 64; `latent` holds the symbols in error that stand in a codeword until a read meets
them (R332, R333). `fwLoss` is the engine address, with the poisoned flag, of the first codeword that a conductor access lost
(R334), until the command it works for has ended, and whether the access was a write. `hostRefused` holds, by requester (0 for PF0, k + 1 for the
function of partition k), the host address ranges whose accesses the host refuses (R33), and `swapRefused` the requesters whose
swap area it refuses (R273). -/
structure MemState where
  dram : Memory
  poison : SMap Bool
  latent : SMap SymErr
  fwLoss : Option (Nat × Bool)
  chans : SMap Chan
  scrubPeriodH : Nat
  hostMem : Memory
  hostRefused : List (Nat × Nat × Nat)
  swapRefused : List Nat
  /-- The second-level translation cache of each stack's base die (R256). -/
  xlat2 : SMap (List Xlat)
  deriving DecidableEq, Repr

/-! ### Flash -/

/-- Use of a superblock (R356 to R358). -/
inductive SbUse where
  | free
  | opened
  | full
  deriving DecidableEq, Repr

/-- One superblock of a flash channel (R356 to R358): the next slot to program, erases of its blocks, reads and stripe
rebuilds by block, retired blocks. Slot 16 i + b is page i of block b. -/
structure Superblock where
  use : SbUse
  fill : Nat
  erases : Nat
  reads : SMap Nat
  rebuilds : SMap Nat
  retired : List Nat
  /-- Relocation scheduled (R357). -/
  relocating : Bool
  deriving DecidableEq, Repr

/-- One of the four flash channels of a die pair. -/
structure FlashChan where
  sbs : SMap Superblock
  opened : Option Nat
  wear80 : Bool
  wear95 : Bool
  capLoss : Bool
  deriving DecidableEq, Repr

/-- A unit still to be written (R354): store handle, unit, the engine address of its bytes, and the command (block, id)
that writes it. -/
structure FlashJob where
  store : Nat
  unit : Nat
  addr : Nat
  block : Nat
  cmd : Nat
  deriving DecidableEq, Repr

/-- One map entry (R353): the unit's store and number, channel of the pair, superblock and slot. -/
structure MapEntry where
  store : Nat
  unit : Nat
  chan : Nat
  sb : Nat
  slot : Nat
  deriving DecidableEq, Repr

/-- A journal record (R353): the new entry of a store's unit, or none where it becomes unwritten. -/
structure MapRec where
  store : Nat
  unit : Nat
  entry : Option MapEntry
  deriving DecidableEq, Repr

/-- Flash of one die pair (R353, R356, R362): `map` is the map in the DRAM reserve, `journal` and `checkpoint` what flash holds
of it. -/
structure FlashPair where
  chans : SMap FlashChan
  next : Nat
  map : List MapEntry
  jobs : List FlashJob
  journal : List MapRec
  checkpoint : List MapEntry
  readRetries : Word
  rebuilds : Half
  losses : Half
  disturbReloc : Half
  /-- The map in DRAM waits for a rebuild (R336). -/
  mapLost : Bool
  deriving DecidableEq, Repr

/-- One store (R360, R361, R683). `pairs` are the die pairs its units lie over. -/
structure Store where
  handle : Nat
  part : Option Nat
  ctx : Option Nat
  persistent : Bool
  units : Nat
  pairs : List Nat
  data : Memory
  written : SMap Bool
  /-- Its key still exists (R537, R544). -/
  keyed : Bool
  deriving DecidableEq, Repr

/-- The flash tier. -/
structure FlashState where
  stores : List Store
  nextHandle : Nat
  pairs : SMap FlashPair
  rdLimit : Nat
  erasing : Bool
  mapsReady : Bool
  /-- Flash stacks (0 FS0, 1 FS1) whose programs are paused by temperature (R630). -/
  paused : List Nat
  deriving DecidableEq, Repr

/-! ### Span ports -/

/-- State of a span port (R381). -/
inductive PortState where
  | disabled
  | training
  | up
  | narrow
  | draining
  | down
  deriving DecidableEq, Repr

/-- Lanes of one direction of a span port (R377, R380): the data lane whose data the spare carries, and the data lanes found
failing. -/
structure LaneSide where
  retired : Option Nat
  failing : List Nat
  deriving DecidableEq, Repr

/-- One span port (R377 to R382, R400). -/
structure SpanPort where
  state : PortState
  enabled : Bool
  /-- DATA flits given a number so far; SEQ is this number modulo 4,096. -/
  txNo : Nat
  rxSeq : BitVec 12
  /-- A NAK has been sent and flits are discarded until the expected one comes again (R379). -/
  discarding : Bool
  /-- Unacknowledged DATA flits by their number (R379). -/
  replay : List (Nat × List Byte)
  /-- Payloads of DATA flits, by number, that wait for credit or for room in the replay buffer (R378, R379). -/
  waiting : List (Nat × List Byte)
  /-- Flits given to the link, newest last, DATA flits by their number. -/
  sent : List (Option Nat × List Byte)
  /-- Flits the peer's receive buffer has room for. -/
  credit : Nat
  /-- Flits received in order whose credit has not been returned. -/
  owed : Nat
  /-- Bytes of a packet that goes on in the next DATA flit, and the packets that have arrived and are not yet performed. -/
  rest : List Byte
  inbox : List (List Byte)
  tx : LaneSide
  rx : LaneSide
  /-- RETIRED_LANE (R400). -/
  retiredLane : Nat
  /-- A LINK request for the spare is outstanding, naming the lane. -/
  request : Option Nat
  lanes : Nat
  corrSymbols : Word
  rejected : Word
  retrains : Half
  deniedIn : Half
  dupDropped : Half
  forwarded : Nat
  peerEngine : Nat
  peerPort : Nat
  deriving DecidableEq, Repr

/-- A DATA flit that carries bytes of an operation: its port and number, and the place of those bytes in its payload. -/
structure OpFlit where
  port : Nat
  no : Nat
  start : Nat
  bytes : Nat
  deriving DecidableEq, Repr

/-- An operation a collective engine has issued and that is not locally complete (R387, R389, R391, R394). OP 9 is a segment
that a collective sends, and `cmd` names the command of an operation that the conductor issues (R283, R285). -/
structure SpanOp where
  core : Nat
  cmd : Option (Nat × Nat)
  part : Nat
  lpos : Nat
  op : Nat
  lsem : Nat
  dispatch : Nat
  req : Nat
  engine : Nat
  dstPart : Nat
  window : Nat
  offset : Nat
  arg : Nat
  length : Nat
  dstOff : Nat
  data : List Byte
  port : Nat
  /-- Bytes acknowledged or returned so far, and whether all of it is. -/
  got : Nat
  acked : Bool
  flits : List OpFlit
  deriving DecidableEq, Repr

/-- A local part of a collective (R396): part index, core, completion counter, destination offset, and request identity. -/
structure CollJoin where
  idx : Nat
  core : Nat
  lsem : Nat
  dst : Nat
  req : Nat
  deriving DecidableEq, Repr

/-- A collective in progress (R396 to R399): its operation (0 until a local part has issued it), the local parts that have
issued it, the bytes held by (part index) * 65536 + segment, where a folded segment stands under part index P, and the
identities of the remote parts that have given theirs: part index and REQ_ID (R391). -/
structure CollRun where
  part : Nat
  group : Nat
  op : Nat
  ty : Nat
  redop : Nat
  length : Nat
  joins : List CollJoin
  ids : List (Nat × Nat)
  data : SMap (Option (List Byte))
  sent : Bool
  finished : Bool
  deriving DecidableEq, Repr

/-- What has come of a survivor that another engine holds (R285): destination partition, group, generation and rank of the
survivor, and its bytes so far. -/
structure Survivor where
  part : Nat
  group : Nat
  gen : Nat
  rank : Nat
  data : List Byte
  deriving DecidableEq, Repr

/-- The span ports, identity and operations of the engine (R383, R386, R391). -/
structure SpanState where
  engineId : Nat
  timeoutUs : Nat
  ports : SMap SpanPort
  ops : List SpanOp
  /-- Duplicate filter by source and destination partition, or group: latest dispatch number, highest request number, and the
  offset that its next packet has. -/
  seen : SMap (Nat × Nat × Nat)
  colls : List CollRun
  survivors : List Survivor
  deriving DecidableEq, Repr

/-! ### Capture -/

/-- State of a stream (R483). -/
inductive StreamState where
  | unassigned
  | assigned
  | configured
  | running
  | draining
  | faulted
  deriving DecidableEq, Repr

/-- A stream's configuration (R484). -/
structure CapCfg where
  dt : Nat
  cfa : Nat
  cfaOut : Bool
  gradient : Bool
  nrEn : Bool
  lscEn : Bool
  width : Nat
  height : Nat
  timeoutUs : Nat
  staleUs : Nat
  outBase : Nat
  bufStride : Nat
  nbuf : Nat
  statDepth : Nat
  rowPitch : Nat
  deriving DecidableEq, Repr

/-- A frame in the pipeline (R489, R492, R498). -/
structure CapFrame where
  num : Word
  csiFn : Half
  paramGen : Half
  sofTime : Nat
  buf : Option Nat
  params : List Byte
  lines : List (List Nat)
  badLine : Bool
  formatErr : Bool
  truncated : Bool
  overrun : Bool
  aborted : Bool
  ended : Bool
  /-- Something else has written its claimed buffer: what it delivers is undefined (R490). -/
  spoiled : Bool
  deriving DecidableEq, Repr

/-- Counters of a stream (R512). -/
structure CapCounts where
  started : Word
  delivered : Word
  ringFull : Half
  stale : Half
  truncated : Half
  formatErr : Half
  crcErr : Half
  overrun : Half
  aborted : Half
  statLost : Half
  hdrCorrected : Half
  deriving DecidableEq, Repr

/-- One capture stream (R483 to R512). -/
structure Stream where
  state : StreamState
  part : Option Nat
  ctx : Option Nat
  cfg : CapCfg
  params : List Byte
  paramsNext : Option (List Byte)
  gen : Half
  genInUse : Half
  nextBuf : Nat
  frames : List CapFrame
  frameNum : Word
  refValid : Bool
  ref : List Word
  ring : List (List Byte)
  counts : CapCounts
  /-- Records lost since the previous OP_HARVEST (R511). -/
  lostSince : Nat
  signalLost : Bool
  /-- The OP_CAP_STOP (block, id) that waits for the stream to drain. -/
  stopBy : Option (Nat × Nat)
  deriving DecidableEq, Repr

/-- Link settings and telemetry counts of a capture port (R480 to R482). -/
structure CapPort where
  lanes : Nat
  laneMap : Nat
  pol : Nat
  maxRate : Nat
  discards : Nat
  corrections : Nat
  deriving DecidableEq, Repr

/-- The two capture ports and 32 streams. -/
structure CapState where
  ports : SMap CapPort
  streams : SMap Stream
  deriving DecidableEq, Repr

/-! ### Clocks -/

/-- Where a group of PLLs stands with its references (R600 to R603). -/
inductive CoastPhase where
  | locked
  | holdover
  | entering
  | coasting
  | exiting
  deriving DecidableEq, Repr

/-- Reference monitor and coasting of one group of PLLs: a compute die, the hub, a base die, or the span ports (R600,
R602 to R604, R609, R611). `steps` counts factors of 0.96 taken from the plan's frequencies. -/
structure PllUnit where
  refA : Bool
  refB : Bool
  sel : Bool
  phase : CoastPhase
  steps : Nat
  cause : Nat
  /-- A PLL lost lock with a good reference: it does not relock before a reset (R604). -/
  lockLost : Bool
  aFails : BitVec 6
  bFails : BitVec 6
  deriving DecidableEq, Repr

/-- Clock settings of one compute die (R596, R598, R611): column and fabric codes of the plan in force, and the
frequencies in MHz that the PLLs have reached. -/
structure DieClk where
  plan : Nat
  colCodes : List Nat
  fabCode : Nat
  fastEw : Nat
  fastNs : Nat
  sscDepth : Nat
  sscRate : Nat
  sscCols : Nat
  colMhz : List Nat
  fabMhz : Nat
  changing : Bool
  deriving DecidableEq, Repr

/-- The clock state of the module. -/
structure ClkState where
  dies : SMap DieClk
  /-- PLL groups: 0 to 15 compute dies, 16 hub, 17 to 22 base dies, 23 span. -/
  plls : SMap PllUnit
  clkout0 : Word
  clkout1 : Word
  deriving DecidableEq, Repr

/-! ### Power -/

/-- Input power state of the module (R613). -/
inductive ModState where
  | off
  | aux
  | run
  | tripped
  deriving DecidableEq, Repr

/-- State of SOLSTICE (R620). -/
inductive SolState where
  | off
  | ramp
  | active
  | stepdown
  | draining
  deriving DecidableEq, Repr

/-- SOLSTICE (R620 to R628). -/
structure Solstice where
  state : SolState
  k : Nat
  level : Nat
  dies : List Nat
  maxMs : Nat
  lastEnd : Nat
  highest : Nat
  reservedMs : Nat
  remainBefore : Nat
  chargedNs : Nat
  activeNs : Nat
  /-- The step-down runs one step per 10 µs (R622). -/
  hard : Bool
  /-- The OP_BOOST request (block, id) not yet completed, and the cancels that wait. -/
  request : Option (Nat × Nat)
  cancels : List (Nat × Nat × Nat)
  /-- Time base at which the latest step-down ended. -/
  endedAt : Option Nat
  /-- The steps go on as throttle steps on every die until the module is inside the envelope (R622). -/
  tail : Bool
  deriving DecidableEq, Repr

/-- The power controller and the wear budget (R615 to R638). -/
structure PwrState where
  /-- Throttle steps in effect on each die (g = 0.96 to that power). -/
  steps : SMap Nat
  /-- Module input power samples, 10 µs each, newest first, in FP32 W (R618, R621). -/
  window : List Word
  sol : Solstice
  /-- Hourly bins, current first: operating and boost time in ns (R626); and the copy in flash (R628). -/
  bins : List (Nat × Nat)
  binsFlash : List (Nat × Nat)
  tripped : Bool
  tripSensor : BitVec 16
  /-- THERMTRIP_N is driven low (R632, R634). -/
  thermtripLow : Bool
  deriving DecidableEq, Repr

/-! ### Die marshals, conductors and hub halves -/

/-- A coalescing entry (R658, R659): code and unit of the suspected unit, reports counted, reporters' column bits; and
for the Steward's table the primary event's other fields. -/
structure CoalEntry where
  code : Nat
  unit : Nat
  count : Nat
  reporters : Nat
  sev : Nat
  part : Nat
  detail : Nat
  deriving DecidableEq, Repr

/-- One compute die and its marshal (R129, R369, R373, R614, R645, R651, R662, R664). -/
structure Die where
  /-- Gap row of each column. -/
  gaps : List Nat
  /-- Retired cores, as column and physical row. -/
  retired : List (Nat × Nat)
  /-- Cores under self-test, as column and physical row. -/
  testing : List (Nat × Nat)
  /-- Cores mapped out, with the time base of each. -/
  mapped : List (Nat × Nat × Nat)
  coal : List CoalEntry
  lastShared : Option Nat
  mismatches : List Nat
  single : Bool
  marshalDead : Bool
  newFw : Bool
  parked : Bool
  short : Bool
  /-- Retired bridge links and mesh lanes, by link number. -/
  linksOut : List Nat
  /-- Posts of tile programs that the marshal has received (R175): tag, value and logical position, newest first. -/
  events : List (Nat × Word × Nat)
  /-- How many of them stand in the marshal's event queue. -/
  evtQueued : Nat
  /-- The page translation cache of the die (R256). -/
  xlat : List Xlat
  deriving DecidableEq, Repr

/-- One conductor core (R20, R588, R663). -/
structure Conductor where
  inService : Bool
  loading : Bool
  newFw : Bool
  deriving DecidableEq, Repr

/-- The hub halves and their conductor cores (R20). -/
structure HubState where
  aOk : Bool
  bOk : Bool
  conductors : SMap Conductor
  /-- The spare conductor core of each half (R20, R588, R663). -/
  spareA : Nat
  spareB : Nat
  /-- Core-fault recoveries since the cold reset (R665). -/
  recoveries : Half
  deriving DecidableEq, Repr

/-- A channel in service. -/
def Chan.reset : Chan :=
  { ceCount := 0, retryOk := 0, log := [], spare := none, past := [], copying := none, spareDue := false, retired := false, answers := true,
    resetting := false, resets := 0, unusable := false }

/-- Memory after reset: every codeword zero and none poisoned (R346); SCRUB_PERIOD 24 h (R337); host memory as the
model holds it before the host writes (notes/assumptions/12.md). -/
def MemState.reset : MemState :=
  { dram := [], poison := [], latent := [], fwLoss := none, chans := [], scrubPeriodH := 24, hostMem := [],
    hostRefused := [], swapRefused := [], xlat2 := [] }

/-- A free, never-erased superblock. -/
def Superblock.fresh : Superblock :=
  { use := .free, fill := 0, erases := 0, reads := [], rebuilds := [], retired := [], relocating := false }

/-- An unused flash channel. -/
def FlashChan.fresh : FlashChan := { sbs := [], opened := none, wear80 := false, wear95 := false, capLoss := false }

/-- A die pair's flash with nothing written. -/
def FlashPair.fresh : FlashPair :=
  { chans := [], next := 0, map := [], jobs := [], journal := [], checkpoint := [], readRetries := 0, rebuilds := 0,
    losses := 0, disturbReloc := 0, mapLost := false }

/-- Flash after reset: no store; RD_LIMIT 200,000 (R357). -/
def FlashState.reset : FlashState :=
  { stores := [], nextHandle := 1, pairs := [], rdLimit := 200000, erasing := false, mapsReady := false,
    paused := [] }

/-- Lanes of which none is failing. -/
def LaneSide.whole : LaneSide := { retired := none, failing := [] }

/-- A span port after reset: DISABLED, the Reset column of R400. -/
def SpanPort.reset : SpanPort :=
  { state := .disabled, enabled := false, txNo := 0, rxSeq := 0, discarding := false, replay := [], waiting := [],
    sent := [], credit := 0, owed := 0, rest := [], inbox := [], tx := LaneSide.whole, rx := LaneSide.whole, retiredLane := 0,
    request := none, lanes := 0, corrSymbols := 0, rejected := 0, retrains := 0,
    deniedIn := 0, dupDropped := 0, forwarded := 0, peerEngine := 0, peerPort := 0 }

/-- Span state of a module that never received OP_SPAN_CONFIG (R678); SPAN_TIMEOUT 1,000 µs (R386). -/
def SpanState.reset : SpanState :=
  { engineId := 0xFFE, timeoutUs := 1000, ports := [], ops := [], seen := [], colls := [], survivors := [] }

/-- No configuration. -/
def CapCfg.none : CapCfg :=
  { dt := 0, cfa := 0, cfaOut := false, gradient := false, nrEn := false, lscEn := false, width := 0, height := 0,
    timeoutUs := 0, staleUs := 0, outBase := 0, bufStride := 0, nbuf := 0, statDepth := 0, rowPitch := 0 }

/-- Counters at zero (R491, R512). -/
def CapCounts.zero : CapCounts :=
  { started := 0, delivered := 0, ringFull := 0, stale := 0, truncated := 0, formatErr := 0, crcErr := 0, overrun := 0,
    aborted := 0, statLost := 0, hdrCorrected := 0 }

/-- An UNASSIGNED stream (R483, R512). -/
def Stream.reset : Stream :=
  { state := .unassigned, part := none, ctx := none, cfg := CapCfg.none, params := [], paramsNext := none, gen := 0,
    genInUse := 0, nextBuf := 0, frames := [], frameNum := 0, refValid := false, ref := [], ring := [],
    counts := CapCounts.zero, lostSince := 0, signalLost := false, stopBy := none }

/-- A capture port with no link settings. -/
def CapPort.reset : CapPort := { lanes := 0, laneMap := 0, pol := 0, maxRate := 0, discards := 0, corrections := 0 }

/-- The capture block after reset. -/
def CapState.reset : CapState := { ports := [], streams := [] }

/-- A PLL group that has not locked: the Reset column of R609 and R611. -/
def PllUnit.reset : PllUnit :=
  { refA := false, refB := false, sel := false, phase := .locked, steps := 0, cause := 0, lockLost := false, aFails := 0,
    bFails := 0 }

/-- Die clocks after reset (R611, R675): codes 0x10, column PLLs at 400 MHz, fabric at 1,600 MHz. -/
def DieClk.reset : DieClk :=
  { plan := 0, colCodes := List.replicate 8 16, fabCode := 16, fastEw := 0, fastNs := 0, sscDepth := 0, sscRate := 0,
    sscCols := 0, colMhz := List.replicate 8 400, fabMhz := 1600, changing := false }

/-- Clocks after reset (R609 to R611). -/
def ClkState.reset : ClkState := { dies := [], plls := [], clkout0 := 0x80000000#32, clkout1 := 0 }

/-- SOLSTICE after reset (R635). -/
def Solstice.reset : Solstice :=
  { state := .off, k := 0, level := 0, dies := [], maxMs := 0, lastEnd := 0, highest := 0, reservedMs := 0,
    remainBefore := 0, chargedNs := 0, activeNs := 0, hard := false, request := none, cancels := [], endedAt := none, tail := false }

/-- Power after reset (R635 to R638). -/
def PwrState.reset : PwrState :=
  { steps := [], window := [], sol := Solstice.reset, bins := [], binsFlash := [], tripped := false, tripSensor := 0,
    thermtripLow := false }

/-- A die before its partition exists: parked, every gap at row 16 (notes/assumptions/1.md). -/
def Die.reset : Die :=
  { gaps := List.replicate 8 16, retired := [], testing := [], mapped := [], coal := [], lastShared := none,
    mismatches := [], single := false, marshalDead := false, newFw := false, parked := true,
    short := false, linksOut := [], events := [], evtQueued := 0, xlat := [] }

/-- A conductor core holding the committed firmware. -/
def Conductor.reset : Conductor := { inService := true, loading := false, newFw := false }

/-- Hub halves before start-up (R38: HUB_A_OK and HUB_B_OK reset to 0). -/
def HubState.reset : HubState := { aOk := false, bOk := false, conductors := [], spareA := 8, spareB := 9, recoveries := 0 }

end Sys2Proof.Machine
end

