-- ==== Sys2Proof/Machine/CoreState.lean ====
section
/-! DEFINITION. The state of one compute core (chapters 3 to 6 and 9): array, scratchpad, accumulator memory,
gather buffer, neighbour ports, DMA engines, sequencer, special function slots and state file. -/

namespace Sys2Proof.Machine

/-- State of one SPAD bank (R116, R145). -/
inductive BankState where
  | off
  | waking
  | scrub
  | on
  deriving DecidableEq, Repr

/-- State of the core sequencer (R185). -/
inductive SeqState where
  | idle
  | running
  | waiting
  | faulted
  deriving DecidableEq, Repr

/-- Clock state of the array (R95, R103). -/
inductive ArrayMode where
  | gated
  | rampUp
  | full
  | rampDown
  deriving DecidableEq, Repr

/-- One gather-buffer entry (R119): the line and its valid bytes by offset; oldest allocation first in the list. -/
structure GbEntry where
  line : Nat
  data : Memory
  deriving DecidableEq, Repr

/-- One stationary tile (R75, R82, R135): the mode, the grid slot with the levels the load saw, and the image bytes. -/
structure Tile where
  mode : Nat
  grid : Nat
  levels : List Half
  scaled : Bool
  image : List Byte
  deriving DecidableEq, Repr

/-- One row of a pass in one group: the 64 group sums before scaling (R80), and the checking sums C and A in units of
2^-298, none where an activation or a weight that enters them is not finite (R98, R100). -/
structure GroupRow where
  sums : List Word
  check : Option (Int × Nat)
  deriving DecidableEq, Repr

/-- A pass that has entered and is not complete (R74, R76 to R81): its first accumulator row and accumulate mode, its
streams and start position, the cursor slot it occupies, the scales of its feet by group, and its rows by group. -/
structure Flight where
  firstRow : Nat
  acc : Nat
  streams : List (Nat × Nat)
  start : Nat
  slot : Option Nat
  scales : List (List Half)
  rows : List (List GroupRow)
  deriving DecidableEq, Repr

/-- The matrix array of one core (R73, R87, R103 to R105). `used` tells that a GO or an array instruction has followed the
core reset: SHADOW_READY, with reset value 0, shows the pending loads from then on. `token` is set while a swap token may be
in the array (R83): the number of completions of earlier passes that say nothing of it. -/
structure ArrayState where
  used : Bool
  token : Option Nat
  mode : ArrayMode
  active : Option Tile
  shadow : Option Tile
  loading : Option Tile
  flights : List Flight
  idleHold : BitVec 12
  csSkip : BitVec 12
  csMismatch : BitVec 12
  resMismatch : BitVec 8
  deriving DecidableEq, Repr

/-- A validated DMA descriptor after its patches (R132, R133, R173). -/
structure Desc where
  mode : Nat
  toExt : Bool
  bulk : Bool
  remote : Bool
  elem : Nat
  sem : Nat
  spad : Nat
  ext : Nat
  params : List Nat
  aux : Nat
  /-- Number among the dispatch's outward descriptors (R642); meaningful when toExt is set. -/
  outNo : Nat
  /-- PC of the DMAQ that queued it (R182). -/
  pc : Nat
  deriving DecidableEq, Repr

/-- What an outward move carries (R138, R179): the SPAD offset it was read at, the engine address it goes to, its bytes. -/
structure Departure where
  off : Nat
  dest : Nat
  data : List Byte
  deriving DecidableEq, Repr

/-- One DMA engine (R132, R148). `active` is set while the head of the queue is moving data; `arriving` holds what the move
will have written to SPAD when it completes, as offsets with bytes (R138, R139), `leaving` what it will have delivered
outside (R179), and `raced` the SPAD ranges of the move that another writer touched since its start (R139, R179);
`expiries` counts the deadline expiries of the request in flight, and `held` is the DRAM channel that holds it after the
second (R655). -/
structure DmaEngine where
  queue : List Desc
  active : Bool
  arriving : List (Nat × List Byte)
  leaving : List Departure
  raced : List (Nat × Nat)
  expiries : Nat
  held : Option Nat
  done : BitVec 16
  lastFault : BitVec 8
  deriving DecidableEq, Repr

/-- One 64-byte neighbour beat (R126, R174): source and destination offset, bytes (none for an empty mask), last of its
exchange, and whether its source was written before it left (R127). -/
structure Beat where
  src : Nat
  dst : Nat
  data : List Byte
  last : Bool
  raced : Bool
  deriving DecidableEq, Repr

/-- One neighbour port (R126): the inbound queue of 16 beats, and the beats of this core's exchanges not yet sent. -/
structure NbPort where
  inbound : List Beat
  outbound : List Beat
  deriving DecidableEq, Repr

/-- An active hardware loop (R160): counter index, first body address, end address. -/
structure LoopRec where
  ctr : Nat
  first : Nat
  last : Nat
  deriving DecidableEq, Repr

/-- QNT contributions the core holds until the dispatch commits (R170). -/
structure QstatDelta where
  index : Nat
  sat : Nat
  nan : Bool
  invalid : Bool
  e4m3 : Bool
  deriving DecidableEq, Repr

/-- What the die marshal recorded of the failed run of a dispatch that is being replayed (R642, R646): the outward
actions already done, the barrier generations already reached, whether a watchdog expiry ended the failed run, and the core
that was mapped out for it (R654). -/
structure ReplayRec where
  active : Bool
  dmaDone : List Nat
  evtDone : Nat
  bars : List Nat
  wdog : Bool
  mapped : Option Nat
  deriving DecidableEq, Repr

/-- A span operation a dispatch has issued and that has not reached local completion (R153, R389): its tag, the SPAD ranges
it sends and receives as offset and length, and whether a write has met them meanwhile, which leaves the bytes sent or received
open (R392). -/
structure SpanWait where
  tag : Nat
  opId : Nat
  src : Nat × Nat
  dst : Nat × Nat
  racedSrc : Bool
  racedDst : Bool
  deriving DecidableEq, Repr

/-- The sequencer and its registers (R154, R185 to R190). -/
structure SeqRegs where
  state : SeqState
  pc : Nat
  x : SMap Word
  v : SMap Word
  lc : SMap Word
  loops : List LoopRec
  sem : SMap (BitVec 16)
  arv : SMap (BitVec 16)
  snt : SMap (BitVec 16)
  args : SMap Word
  wdog : Word
  faultCode : BitVec 8
  faultUnit : BitVec 4
  faultPc : BitVec 13
  faultArg : Word
  /-- The barrier group the sequencer holds at, after arriving (R175). -/
  atBar : Option Nat
  deriving DecidableEq, Repr

/-- Local memories of a core (R106, R111 to R118, R292, R642). -/
structure CoreMem where
  spad : Memory
  spadWritten : SMap Bool
  spadSelf : SMap Bool
  acc : SMap Word
  accWritten : SMap Bool
  accSelf : SMap Bool
  stateFile : SMap Word
  stateLoaded : SMap Bool
  gb : List GbEntry
  prog : SMap Dword
  /-- SFU slots: images of loaded tables and micro-programs; an unlisted slot is empty (R196, R200). -/
  tables : SMap (List Byte)
  micros : SMap (List Byte)
  deriving DecidableEq, Repr

/-- Bank power and diagnostic registers of a core (R142 to R148, R311). -/
structure CoreRegs where
  bankPwr : BitVec 16
  /-- A BANK_PWR write made while a program runs: it has its effect when the program ends (R117). -/
  bankPwrNext : Option (BitVec 16)
  banks : SMap BankState
  zeroing : Bool
  nbParErr : BitVec 8
  eccCorr : BitVec 8
  eccUncorr : BitVec 8
  spadRbw : BitVec 16
  accRbw : BitVec 16
  stateRbw : BitVec 16
  nbCtrl : BitVec 11
  deriving DecidableEq, Repr

/-- Counts of outward actions since GO (R642), and what the die marshal wrote with the program (R170, R177, R242). -/
structure CoreRun where
  nDmaOut : Nat
  nEvt : Nat
  /-- Span requests issued (R391). -/
  nSpan : Nat
  nNbx : SMap Nat
  sntAtGo : SMap (BitVec 16)
  barAtGo : SMap Nat
  dmaDone : List Nat
  qstat : List QstatDelta
  qstatCount : Nat
  grids : SMap (List Half)
  gen2 : Bool
  /-- Barrier groups 0 to 7 that the plan defines. -/
  barGroups : List Nat
  /-- Arrivals of this core at each barrier group (R177). -/
  barCount : SMap Nat
  replay : ReplayRec
  spanWaits : List SpanWait
  /-- A core fault stopped the sequencer (R102). -/
  frozen : Bool
  /-- A beat it received failed its parity: its dispatch is replayed with the sender's (R653). -/
  hit : Bool
  /-- The core serves a confidential context (R146). -/
  confidential : Bool
  /-- A save image has been restored and no dispatch has followed: the first one keeps the banks of the image (R463). -/
  restored : Bool
  /-- The dispatch number of the run (R391, R642). -/
  dispatch : Nat
  deriving DecidableEq, Repr

/-- One physical core. -/
structure Core where
  seq : SeqRegs
  mem : CoreMem
  regs : CoreRegs
  arr : ArrayState
  dma0 : DmaEngine
  dma1 : DmaEngine
  ports : SMap NbPort
  run : CoreRun
  deriving DecidableEq, Repr

/-- A DMA engine after a core reset (R148). -/
def DmaEngine.reset : DmaEngine :=
  { queue := [], active := false, arriving := [], leaving := [], raced := [], expiries := 0, held := none, done := 0, lastFault := 0 }

/-- An engine that gives up its queue and the move in progress (R182 step 2); its counts stay. -/
def DmaEngine.dropWork (e : DmaEngine) : DmaEngine := { DmaEngine.reset with done := e.done, lastFault := e.lastFault }

/-- An idle neighbour port. -/
def NbPort.idle : NbPort := { inbound := [], outbound := [] }

/-- Sequencer registers after a core reset: the Reset column of R185 to R190; X, V and LC registers, for which the
spec states values only at GO (R152), are zero (DESIGN CHOICE, notes/assumptions/1.md). -/
def SeqRegs.reset : SeqRegs :=
  { state := .idle, pc := 0, x := [], v := [], lc := [], loops := [], sem := [], arv := [], snt := [], args := [],
    wdog := 0x01000000#32, faultCode := 0, faultUnit := 0, faultPc := 0, faultArg := 0, atBar := none }

/-- Local memories after a core reset: nothing written, no slot loaded (R114, R116, R196, R292); program memory
zero (DESIGN CHOICE, notes/assumptions/1.md). -/
def CoreMem.reset : CoreMem :=
  { spad := [], spadWritten := [], spadSelf := [], acc := [], accWritten := [], accSelf := [], stateFile := [],
    stateLoaded := [], gb := [], prog := [], tables := [], micros := [] }

/-- The Reset column of R142 to R147 and R311. -/
def CoreRegs.reset : CoreRegs :=
  { bankPwr := 0, bankPwrNext := none, banks := [], zeroing := false, nbParErr := 0, eccCorr := 0, eccUncorr := 0,
    spadRbw := 0, accRbw := 0, stateRbw := 0, nbCtrl := 0 }

/-- The array after a core reset: empty, clock-gated, IDLE_HOLD 0x100 (R87, R103 to R105). -/
def ArrayState.reset : ArrayState :=
  { used := false, token := none, mode := .gated, active := none, shadow := none, loading := none, flights := [], idleHold := 0x100#12,
    csSkip := 0, csMismatch := 0, resMismatch := 0 }

/-- No replay in progress. -/
def ReplayRec.none : ReplayRec := { active := false, dmaDone := [], evtDone := 0, bars := [], wdog := false, mapped := Option.none }

/-- A core that has run nothing. -/
def CoreRun.reset : CoreRun :=
  { nDmaOut := 0, nEvt := 0, nSpan := 0, nNbx := [], sntAtGo := [], barAtGo := [], dmaDone := [], qstat := [], qstatCount := 0, grids := [],
    gen2 := false, barGroups := [], barCount := [], replay := ReplayRec.none, spanWaits := [], frozen := false, hit := false,
    confidential := false, restored := false, dispatch := 0 }

/-- One core after a core reset (R87, R105, R141, R185). -/
def Core.reset : Core :=
  { seq := SeqRegs.reset, mem := CoreMem.reset, regs := CoreRegs.reset, arr := ArrayState.reset,
    dma0 := DmaEngine.reset, dma1 := DmaEngine.reset, ports := [], run := CoreRun.reset }

end Sys2Proof.Machine
end

