-- ==== Sys2Proof/Machine/HubState.lean ====
section
/-! DEFINITION. Hub state: queue blocks and commands in flight (chapter 13), partitions and contexts (chapter 14),
plans (chapter 7), sequences, page sets and the page tree (chapters 8 and 9), regions and quotas (chapter 11). -/

namespace Sys2Proof.Machine

/-! ### Queue blocks -/

/-- State of a submission or completion ring (R412, R413). -/
inductive RingState where
  | disabled
  | enabled
  | draining
  | error
  deriving DecidableEq, Repr

/-- Submission-ring registers (R410 to R416). -/
structure SqRegs where
  base : BitVec 48
  loc : Bool
  sizeLog2 : BitVec 5
  state : RingState
  cfgErr : Bool
  tail : BitVec 16
  head : BitVec 16
  expectSeq : Word
  doorbellErr : BitVec 8
  deriving DecidableEq, Repr

/-- A completion record that waits for space in its ring (R430), or for the ring to leave ERROR (R432): the command
it completes (none for the record of R427), its 32 bytes, and whether it raises no interrupt. -/
structure HeldRec where
  cmd : Option Nat
  bytes : List Byte
  noIrq : Bool
  deriving DecidableEq, Repr

/-- Completion-ring registers (R410, R411, R413 to R417), the held records (R430) and the pending count (R431). -/
structure CqRegs where
  base : BitVec 48
  loc : Bool
  sizeLog2 : BitVec 5
  state : RingState
  cfgErr : Bool
  irqEn : Bool
  vector : BitVec 3
  head : BitVec 16
  tail : BitVec 16
  phase : Bool
  delay : BitVec 16
  count : BitVec 16
  pendingIrq : Nat
  held : List HeldRec
  deriving DecidableEq, Repr

/-- One ring pair (R405). -/
structure Ring where
  sq : SqRegs
  cq : CqRegs
  deriving DecidableEq, Repr

/-- Where a command in flight stands (R434 to R437): copied; validated and waiting at a rule that makes it wait;
started; ended with its record held. -/
inductive CmdPhase where
  | copied
  | waiting
  | started
  | ended
  deriving DecidableEq, Repr

/-- Recoveries that affected a command (R649). -/
structure Recov where
  count : Nat
  core : Bool
  dram : Bool
  conductor : Bool
  marshal : Bool
  deriving DecidableEq, Repr

/-- One step still to be dispatched: its number among the command's steps, the entry, the step's index in it and the loop
indices (R233), and its commit granule (R467). -/
structure StepInst where
  no : Nat
  entry : Nat
  step : Nat
  idx : List Nat
  granule : Nat
  deriving DecidableEq, Repr

/-- A sequence an execution command writes (R447, R448). -/
structure SeqBind where
  handle : Nat
  added : Nat
  tokAddr : Nat
  /-- Positions covered by tree hits (R264). -/
  skip : Nat
  hits : List Nat
  oldNode : Option Nat
  /-- Tokens read from TOK_ADDR. -/
  tokens : List Word
  deriving DecidableEq, Repr

/-- What a running roll holds (R276 to R287). -/
structure RollRun where
  parent : Nat
  forkPos : Nat
  gen : Nat
  frame : Nat
  /-- The sequence of each slot of this engine; 0, which no sequence has, once pruning has released it. -/
  slots : List Nat
  /-- A frame has begun and is not committed. -/
  open_ : Bool
  /-- The frame's tokens and KV writes are committed and the value entry runs, or has run. -/
  valuing : Bool
  copies : Nat
  /-- Scores of the latest scoring frame, by slot. -/
  scores : List Word
  rounds : Nat
  /-- The round's survivors have been sent where their children live, and the pruned slots released (R285). -/
  shipped : Bool
  /-- The collective group of a roll with peers. -/
  group : Option Nat
  deriving DecidableEq, Repr

/-- One expert's residency (R363, R364): its slot, and its latest request. -/
structure ExpertSlot where
  expert : Nat
  slot : Nat
  lastReq : Nat
  deriving DecidableEq, Repr

/-- Expert residency and its memory before the first expert point of a granule (R468): experts, ranges, their bytes. -/
structure ExpertUndo where
  granule : Nat
  experts : List ExpertSlot
  ranges : List (Nat × Nat)
  bytes : Memory
  deriving DecidableEq, Repr

/-- Progress of an execution command (R233, R467). -/
structure ExecRun where
  todo : List StepInst
  /-- Logical cores that still have to receive the step at the head of `todo`. -/
  stepLeft : List (Nat × Nat × Nat)
  binds : List SeqBind
  roll : Option RollRun
  /-- Expert cache point reached and not yet served (R364): the step instance's number and the point. -/
  atPoint : Option (Nat × Nat)
  /-- The granule of the step that reached it. -/
  pointGranule : Nat
  /-- Residency before the expert points of granules that are not committed (R468), earliest first. -/
  expertUndo : List ExpertUndo
  /-- Steps made so far, which numbers the next ones. -/
  nextNo : Nat
  /-- Granules of the command. -/
  total : Nat
  /-- QSTAT contributions of committed dispatches, by granule (R68, R69). -/
  qstat : List (Nat × QstatDelta)
  /-- QSTAT records its committed granules have written (R69). -/
  touched : List Nat
  committedPositions : Nat
  committedHits : Nat
  deriving DecidableEq, Repr

/-- One command in flight (R434): its number among the block's fetches, its ring, the packet as copied, SQ_HEAD after
the copy, its phase, granules committed, and progress. -/
structure Cmd where
  id : Nat
  ring : Nat
  packet : List Byte
  sqHead : BitVec 16
  phase : CmdPhase
  /-- Time base at which the command started (R437). -/
  startAt : Option Nat
  /-- Copied before its partition or context began to drain: it runs on (R457, R470, R474). -/
  accepted : Bool
  granules : Nat
  recov : Recov
  flashUnwritten : Bool
  exec : Option ExecRun
  /-- Units or granules moved so far by a copy or store command. -/
  progress : Nat
  /-- Staging bytes reserved (R515). -/
  staged : Nat
  /-- Commands this abort must see end, and how many it has ended (R438). -/
  abortTargets : List Nat
  abortCount : Nat
  /-- It ends at its next commit boundary to free page sets (R272 step 3). -/
  preempted : Bool
  deriving DecidableEq, Repr

/-- One queue block (R405 to R409), or the single-command port of MGMT or DEBUG (R440). -/
structure QBlock where
  rings : SMap Ring
  denied : BitVec 16
  defTimeout : Word
  turn : Nat
  cmds : List Cmd
  nextId : Nat
  deriving DecidableEq, Repr

/-! ### Plans, sequences and page sets -/

/-- An installed plan (R242): the engine address of the copy, and the copy itself. -/
structure PlanInst where
  base : Nat
  image : List Byte
  deriving DecidableEq, Repr

/-- Weights loaded by a manifest (R450, R469, R551): tensor index with its offset in the weight area, the area's base,
the distance of the two copies, and which copy is committed. -/
structure Weights where
  base : Nat
  wx : Nat
  size : Nat
  offsets : List (Nat × Nat)
  second : Bool
  deriving DecidableEq, Repr

/-- State of a sequence (R246). -/
inductive SeqStatus where
  | idle
  | busy
  | swapped
  deriving DecidableEq, Repr

/-- What the host swap area holds of a swapped sequence (R273, R309): its own pages' bytes by block and its state. -/
structure SwapImage where
  pages : List (Nat × List Memory)
  state : Memory
  deriving DecidableEq, Repr

/-- One sequence (R246, R255, R304). `pages` is the page number of each block, none where the entry is none. -/
structure Sequence where
  handle : Nat
  length : Nat
  status : SeqStatus
  priority : Nat
  domain : Dword
  pages : List (Option Nat)
  /-- LIST mode: offset and capacity in the list area, in entries. -/
  listOff : Nat
  listCap : Nat
  /-- RANGE mode: VBASE and VN. -/
  range : Option (Nat × Nat)
  node : Option Nat
  offTree : Bool
  /-- Tokens of its positions, of which keys of blocks are formed (R260, R265). -/
  tokens : List Word
  /-- The dormant parent of a running roll (R280). -/
  dormant : Bool
  live : Option Nat
  liveSecond : Bool
  /-- Recency of the latest write, for R272. -/
  writtenAt : Nat
  swap : Option SwapImage
  deriving DecidableEq, Repr

/-- One page-tree node, named by its page number (R261). -/
structure TreeNode where
  page : Nat
  key : Dword
  parent : Option Nat
  tokens : List Word
  ckpt : Bool
  deriving DecidableEq, Repr

/-- KV state of a context (R249 to R267, R289, R303, R714). -/
structure KvState where
  np : Nat
  /-- Pools: tensor index, base address, page bytes. -/
  pools : List (Nat × Nat × Nat)
  ctlBase : Nat
  statePool : Nat
  liveBase : Nat
  liveCount : Nat
  sb : Nat
  sbx : Nat
  seqs : List Sequence
  tree : List TreeNode
  freePages : List Nat
  zeroing : List Nat
  freeLive : List Nat
  /-- Keepers: page number and handle (R270, R280). -/
  keepers : List (Nat × Nat)
  clock : Nat
  prefixHits : Word
  prefixMisses : Word
  collisions : BitVec 16
  insertSkipped : BitVec 16
  cowCopies : Word
  swapOut : BitVec 16
  thawIn : BitVec 16
  deriving DecidableEq, Repr

/-- Quota record (R366). -/
structure Quota where
  dram : Nat
  kv : Nat
  flash : Nat
  swap : Nat
  deriving DecidableEq, Repr

/-- One entry of the decode cache (R523): its key, the compressed length, and the decoded sample as BF16 planes. -/
structure DcEntry where
  dataset : Nat
  index : Nat
  color : Bool
  len : Nat
  width : Nat
  height : Nat
  precision : Nat
  planes : List (List Half)
  /-- Where its bytes lie in the cache's firmware region: offsets and lengths. -/
  room : List (Nat × Nat)
  deriving DecidableEq, Repr

/-- Decode area of a context (R513, R514): sizes, and the cache with its least recently used entry first. -/
structure DecodeArea where
  cacheBytes : Nat
  stageBytes : Nat
  cacheBase : Nat
  entries : List DcEntry
  deriving DecidableEq, Repr

/-- A latent-stream slot (R527 to R530): the accepted container header, the reference store with its oldest frame
first, the last INDEX seen, and whether a delta has been skipped since the last decoded key frame. -/
structure LsfSlot where
  tokBits : Nat
  height : Nat
  width : Nat
  vocab : Nat
  store : List (Nat × List Nat)
  lastIndex : Option Nat
  skipping : Bool
  /-- Firmware region of the reference store (R528). -/
  base : Nat
  deriving DecidableEq, Repr

/-- State of a context (R460). -/
inductive CtxState where
  | idle
  | ready
  | current
  | switching
  | destroying
  deriving DecidableEq, Repr

/-- One context (R459, R460). -/
structure Context where
  state : CtxState
  quantumUs : Nat
  quota : Quota
  plan : Option PlanInst
  /-- A validated copy that waits for its command boundary (R242), with the command that loads it. -/
  staged : Option PlanInst
  stagedBy : Option Nat
  weights : Option Weights
  qstat : SMap Dword
  kv : Option KvState
  pool : Option (Nat × Nat)
  expertBase : Nat
  experts : List ExpertSlot
  expertClock : Nat
  /-- The save area holds an image (R463, R476). -/
  savedValid : Bool
  saveBase : Nat
  decode : Option DecodeArea
  /-- The OP_DCACHE_CONFIG (id of the partition's block) that waits for the area to drain (R514). -/
  dcacheBy : Option Nat
  /-- The OP_CTX_DESTROY (block, id) in progress (R474). -/
  destroyedBy : Option (Nat × Nat)
  lsf : SMap (Option LsfSlot)
  deriving DecidableEq, Repr

/-! ### Partitions -/

/-- State of a partition (R457, R458). -/
inductive PartState where
  | active
  | draining
  | disabled
  | destroying
  deriving DecidableEq, Repr

/-- A software region descriptor (R341, R342). -/
structure Region where
  mode : Nat
  stack : Nat
  chan : Nat
  owner : Option Nat
  base : Nat
  size : Nat
  coff : Nat
  /-- The allocation scrub has completed: the region is reachable (R342, R347). -/
  ready : Bool
  /-- The OP_REGION_CREATE (block, id) that waits for the scrub. -/
  by_ : Option (Nat × Nat)
  deriving DecidableEq, Repr

/-- What a firmware region holds (R341). -/
inductive FwKind where
  | plan
  | save
  | pool
  | kvControl
  | live
  | experts
  | weights
  | decode
  | qstat
  | capture
  deriving DecidableEq, Repr

/-- A firmware region (R341): its kind, its context (or stream), its range and its channel offset; FINE mode. -/
structure FwRegion where
  kind : FwKind
  owner : Nat
  base : Nat
  size : Nat
  coff : Nat
  deriving DecidableEq, Repr

/-- Steps of a context switch (R462, R465). -/
inductive SwitchPhase where
  | decided
  | saving
  | restoring
  | restored
  deriving DecidableEq, Repr

/-- A switch that has been decided (R461). -/
structure SwitchRec where
  outgoing : Option Nat
  incoming : Nat
  phase : SwitchPhase
  deriving DecidableEq, Repr

/-- A dispatch a die marshal has started and not committed (R642, R643): its number, logical position, the command that
issued it (block and id), entry and arguments. -/
structure DispatchRec where
  no : Nat
  pos : Nat × Nat × Nat
  block : Nat
  cmd : Nat
  entryPc : Nat
  args : List Word
  ended : Bool
  /-- The step instance and the granule it belongs to. -/
  inst : Nat
  granule : Nat
  deriving DecidableEq, Repr

/-- A plan-signing key (R549). -/
structure PlanKey where
  keyId : Nat
  x : Nat
  y : Nat
  deriving DecidableEq, Repr

/-- State of a confidential partition's device interface (R557). -/
inductive TdiState where
  | unlocked
  | locked
  | run
  | error
  deriving DecidableEq, Repr

/-- A span route entry (R383, R386). -/
structure Route where
  dest : Nat
  forward : Bool
  mask : Nat
  deriving DecidableEq, Repr

/-- A span window (R385, R386). -/
structure Window where
  spad : Bool
  perm : Nat
  bulk : Bool
  srcEngine : Nat
  srcMask : Nat
  srcParts : Nat
  target : Nat
  base : Nat
  size : Nat
  deriving DecidableEq, Repr

/-- A collective group (R396): parts per engine, and its members as ENGINE_ID and partition. -/
structure Group where
  ppe : Nat
  members : List (Nat × Nat)
  /-- The digest of the block that defined it, and whether a member's digest differs: collectives of the group then fail
  (R396). -/
  digest : Dword
  mismatch : Bool
  deriving DecidableEq, Repr

/-- Plan keys and device interface of a partition (R549, R553 to R557). -/
structure PartSec where
  keys : SMap (Option PlanKey)
  tdi : TdiState
  ideStream : Option Nat
  deriving DecidableEq, Repr

/-- Span configuration of a partition (R383 to R386, R396). -/
structure PartSpan where
  routes : SMap (Option Route)
  windows : SMap (Option Window)
  groups : SMap (Option Group)
  /-- Digests that members have sent, by group, engine and partition (R396). -/
  digests : SMap (Option Dword)
  deriving DecidableEq, Repr

/-- One partition (R454 to R458). -/
structure Partition where
  state : PartState
  pairMask : BitVec 8
  maxCtx : Nat
  drainUs : Nat
  quantumUs : Nat
  quota : Quota
  confidential : Bool
  sec : PartSec
  span : PartSpan
  conductor : Nat
  crossed : Bool
  /-- Placed on a conductor core; a partition left without one takes no command (R20, R663). -/
  served : Bool
  /-- It lost its conductor core with a hub half and no other took it: it waits for that half (R20). -/
  lostHalf : Bool
  current : Option Nat
  /-- The latest current context, where the search for the next one starts (R461). -/
  lastCurrent : Nat
  switch : Option SwitchRec
  /-- From a switch point until the incoming context's first dispatch (R466). -/
  awaitFirst : Bool
  ctxs : SMap (Option Context)
  lastHandle : Option Nat
  regions : SMap (Option Region)
  fw : List FwRegion
  ucap : BitVec 4
  dispatches : List DispatchRec
  /-- Dispatches given to each logical core so far (R391). -/
  nextDispatch : SMap Nat
  switches : Word
  switchMaxUs : Word
  lastSwitchUs : Word
  teardowns : Word
  disableAborts : Word
  /-- The ADMIN commands, by id, that wait for it to be drained: OP_PART_DISABLE, and OP_PART_DESTROY (R472, R475). -/
  drainedBy : Option Nat
  destroyedBy : Option Nat
  /-- Commands ended with ST_ABORTED_BY_DISABLE in the current drain (R472). -/
  drainAborts : Nat
  clockPlan : Nat
  /-- Clock plan the current dispatches need, not yet reached (R598). -/
  planChange : Option Nat
  deriving DecidableEq, Repr

/-- Submission ring at reset: the Reset column of R410 to R416. -/
def SqRegs.reset : SqRegs :=
  { base := 0, loc := false, sizeLog2 := 7, state := .disabled, cfgErr := false, tail := 0, head := 0, expectSeq := 0,
    doorbellErr := 0 }

/-- Completion ring at reset: the Reset column of R410, R411, R413 to R417. -/
def CqRegs.reset : CqRegs :=
  { base := 0, loc := false, sizeLog2 := 6, state := .disabled, cfgErr := false, irqEn := false, vector := 0, head := 0,
    tail := 0, phase := true, delay := 0, count := 1, pendingIrq := 0, held := [] }

/-- A ring pair at reset. -/
def Ring.reset : Ring := { sq := SqRegs.reset, cq := CqRegs.reset }

/-- A queue block at reset (R407, R409). -/
def QBlock.reset : QBlock :=
  { rings := [], denied := 0, defTimeout := 0x00989680#32, turn := 0, cmds := [], nextId := 0 }

/-- No recovery has affected the command. -/
def Recov.none : Recov := { count := 0, core := false, dram := false, conductor := false, marshal := false }

/-- A new context (R459, R460): no plan, no weights, never current. -/
def Context.new (quantum : Nat) (q : Quota) (saveBase : Nat) : Context :=
  { state := .idle, quantumUs := quantum, quota := q, plan := none, staged := none, stagedBy := none,
    weights := none, qstat := [], kv := none, pool := none, expertBase := 0, experts := [], expertClock := 0,
    savedValid := false, saveBase := saveBase, decode := none, dcacheBy := none,
    destroyedBy := none, lsf := [] }

end Sys2Proof.Machine
end

