-- ==== Sys2Proof/Machine/StewardState.lean ====
section
/-! DEFINITION. State of the Steward and of security: fuses, keys, sessions and IDE (chapter 17), sensors, events, log and
firmware (chapter 18), management ports (chapters 18 and 23), start-up and reset (chapter 22), host registers (chapters
1, 13, 15) and the engine time base (R502). -/

namespace Sys2Proof.Machine

/-! ### Security -/

/-- Fuses that commands program (R534). The fused identity and the Ecfer key hashes are constants of Config. -/
structure Fuses where
  lc : BitVec 4
  owner : SMap (Option Nat)
  ownerRevoke : BitVec 4
  mediaKill : Bool
  svnSteward : Nat
  svnConductor : Nat
  svnMarshal : Nat
  deriving DecidableEq, Repr

/-- A debug challenge that has been issued and not answered (R547). -/
structure DebugChallenge where
  nonce : List Byte
  level : Nat
  lcState : Nat
  issuedAt : Nat
  deriving DecidableEq, Repr

/-- Handshake state of an SPDM session (R559). -/
inductive SessPhase where
  | handshake
  | secured
  deriving DecidableEq, Repr

/-- One SPDM session: its number, phase, and how often its keys have been updated (R559). -/
structure SpdmSession where
  id : Nat
  phase : SessPhase
  epoch : Nat
  deriving DecidableEq, Repr

/-- One IDE stream, link (0) or selective (1 to 8): key sets programmed, the set in use once it is secure (R555). -/
structure IdeStream where
  keyed0 : Bool
  keyed1 : Bool
  active : Option Nat
  deriving DecidableEq, Repr

/-- Security state (R534 to R560). -/
structure SecState where
  fuses : Fuses
  lastAuthSeq : Nat
  erasePending : Bool
  /-- An erasure has begun and its steps before the last are not all done (R545). -/
  eraseDue : Bool
  challenge : Option DebugChallenge
  /-- Open debug session: level, and when it opened (R547). -/
  debugSession : Option (Nat × Nat)
  /-- SPDM connection: version negotiated, capabilities given, algorithms fixed. -/
  spdmVersion : Bool
  spdmCaps : Bool
  spdmAlgs : Bool
  sessions : List SpdmSession
  nextSession : Nat
  ide : SMap IdeStream
  deriving DecidableEq, Repr

/-! ### Sensors, events and the log -/

/-- State of a sensor (R574, R575, R630). -/
inductive SensorState where
  | normal
  | warning
  | critical
  | failed
  deriving DecidableEq, Repr

/-- One sensor (R573 to R575): latest reading, highest reading, time base of the sample, samples in a row that differed
from both neighbours, and the readings a 100 ms mean is taken over (R554). -/
structure Sensor where
  value : Word
  max : Option Word
  at_ : Nat
  state : SensorState
  outliers : Nat
  recent : List Word
  deriving DecidableEq, Repr

/-- One event record (R577). -/
structure EventRec where
  seq : Nat
  time : Nat
  code : Nat
  sev : Nat
  redacted : Bool
  part : Nat
  unit : Nat
  detail : Nat
  count : Nat
  tag : Nat
  reporters : Nat
  addr : Nat
  deriving DecidableEq, Repr

/-- One entry of the persistent log (R581). -/
structure LogEntry where
  ev : EventRec
  boot : Nat
  mac : Nat
  deriving DecidableEq, Repr

/-- A Steward coalescing entry (R659): the primary event and what has been gathered. -/
structure StwCoal where
  first : EventRec
  count : Nat
  reporters : Nat
  deriving DecidableEq, Repr

/-- The Steward (R565 to R582). -/
structure Steward where
  running : Bool
  single : Bool
  resetting : Bool
  resets : BitVec 8
  lastCause : Nat
  evtLost : BitVec 16
  evtCons : Word
  irqEn : Bool
  minSev : BitVec 3
  nextSeq : Nat
  /-- The SEQ bound recorded in flash (R579). -/
  seqBound : Nat
  /-- Events that wait for the Steward to run (R567); their SEQ is given when they are recorded. -/
  waiting : List EventRec
  ring : List EventRec
  logQueue : List EventRec
  log : List LogEntry
  coal : List StwCoal
  sensors : SMap Sensor
  bootCount : Nat
  /-- Time base of each lockstep mismatch (R566). -/
  mismatches : List Nat
  degradedLast : Bool
  thermLast : Bool
  deriving DecidableEq, Repr

/-! ### Firmware -/

/-- State of a firmware kind (R584). -/
inductive FwPhase where
  | committed
  | staged
  | trial
  deriving DecidableEq, Repr

/-- The two slots of one kind of firmware (R584, R587): image bytes (empty for an empty slot), which slot is COMMITTED,
and what the other holds. -/
structure FwKindState where
  slotA : List Byte
  slotB : List Byte
  committedB : Bool
  phase : FwPhase
  /-- Activated through PLDM: committed by the 60 s timer (R586). -/
  byPldm : Bool
  trialAt : Nat
  deriving DecidableEq, Repr

/-- A firmware change in progress (R588 to R590): kind, whether it reverts, units still to be done (partitions for
conductors, dies for marshals), and the ADMIN command, by id, that asked for it. -/
structure FwChange where
  kind : Nat
  revert : Bool
  todo : List Nat
  cmd : Option Nat
  deriving DecidableEq, Repr

/-- All firmware. -/
structure FwState where
  kinds : SMap FwKindState
  change : Option FwChange
  deriving DecidableEq, Repr

/-! ### Management ports -/

/-- PLDM firmware-update state (DSP0267). -/
inductive PldmUpd where
  | idle
  | learn
  | ready
  | download
  | verify
  | apply
  | activate
  deriving DecidableEq, Repr

/-- MGMT, I3C and JTAG (R576, R586, R700, R702). -/
structure MgmtState where
  eid : Nat
  i3cAddr : Option Nat
  upd : PldmUpd
  table : List Nat
  comp : Option Nat
  compSize : Nat
  data : List Byte
  applied : List Nat
  /-- Status of the latest verification and application: the status code and DETAIL of R585. -/
  verifyCode : Nat
  applyCode : Nat
  /-- SEQ from which PollForPlatformEventMessage goes on (R576). -/
  pollSeq : Nat
  jtagIr : Nat
  deriving DecidableEq, Repr

/-! ### Start-up, reset and the host's view -/

/-- Where start-up stands (R670, R671, R672, R682). -/
inductive BootPhase where
  | off
  | romRetry
  | recovery
  | aux
  | waitVin
  | waitRetry
  | gaveUp
  | rails
  | dram
  | maps
  | ready
  | held
  | tripped
  deriving DecidableEq, Repr

/-- Start-up, reset and supplies (R668 to R687). -/
structure StartState where
  phase : BootPhase
  auxGood : Bool
  vin48 : Bool
  pwrEn : Bool
  attempts : Nat
  perstHigh : Bool
  railsUp : Bool
  cause : Nat
  bootSrc : Nat
  altSlot : Bool
  tripSeen : Bool
  mapRebuilt : Bool
  eraseResumed : Bool
  newRetired : Nat
  startMs : Nat
  /-- A reset that has been asked for and not begun: cold, and its RESET_CAUSE code. -/
  pendingReset : Option (Bool × Nat)
  /-- SYS_RESET_N is low. -/
  sysResetLow : Bool
  /-- PCIE_PERST_N has fallen in a warm reset, which waits for its rise (R682, R713). -/
  perstWait : Bool
  /-- The start under way is a warm one. -/
  warm : Bool
  /-- A fuse of R544 did not program at this start-up (R545). -/
  fuseFailed : Bool
  deriving DecidableEq, Repr

/-- Registers of the host view that no other unit holds (R38, R39, R505 to R507, R35). -/
structure HostRegs where
  apertureBase : BitVec 9
  /-- log2 of the BAR2 size. -/
  barLog2 : Nat
  timeHiLatch : Word
  linkWidth : BitVec 4
  sriov : Bool
  /-- The port has reached L0. -/
  linkUp : Bool
  /-- MSI-X messages sent, newest first: function (0 for PF0, k for VFk) and entry. -/
  msix : List (Nat × Nat)
  /-- Words of the MSI-X tables, keyed function * 1024 + word (R34, R41, R431). -/
  msixTable : SMap Word
  /-- Bytes that the latest read or management request returned. -/
  reply : List Byte
  deriving DecidableEq, Repr

/-- The engine time base and TSYNC (R502 to R507). `rate` is the rate adjustment in parts per 10^9. -/
structure TimeState where
  now : Nat
  ctrlEn : Bool
  periodMs : BitVec 10
  locked : Bool
  lost : Bool
  stepped : Bool
  lastErr : BitVec 24
  rate : Int
  deriving DecidableEq, Repr

/-- Fuses of a module as manufactured (R534; notes/assumptions/1.md). -/
def Fuses.reset : Fuses :=
  { lc := 0, owner := [], ownerRevoke := 0, mediaKill := false, svnSteward := 0, svnConductor := 0, svnMarshal := 0 }

/-- No key, no session (R536). -/
def SecState.reset : SecState :=
  { fuses := Fuses.reset, lastAuthSeq := 0, erasePending := false, eraseDue := false, challenge := none,
    debugSession := none, spdmVersion := false, spdmCaps := false, spdmAlgs := false, sessions := [], nextSession := 1,
    ide := [] }

/-- An unkeyed IDE stream. -/
def IdeStream.reset : IdeStream := { keyed0 := false, keyed1 := false, active := none }

/-- A sensor that has not been sampled. -/
def Sensor.reset : Sensor := { value := 0, max := none, at_ := 0, state := .normal, outliers := 0, recent := [] }

/-- The Steward before it runs: the Reset column of R569 to R572. -/
def Steward.reset : Steward :=
  { running := false, single := false, resetting := false, resets := 0, lastCause := 0, evtLost := 0, evtCons := 0,
    irqEn := false, minSev := 2, nextSeq := 0, seqBound := 0, waiting := [], ring := [], logQueue := [], log := [], coal := [],
    sensors := [], bootCount := 0, mismatches := [], degradedLast := false, thermLast := false }

/-- A firmware kind with no image in either slot. -/
def FwKindState.reset : FwKindState :=
  { slotA := [], slotB := [], committedB := false, phase := .committed, byPldm := false, trialAt := 0 }

/-- No firmware stored, no change in progress (notes/assumptions/1.md). -/
def FwState.reset : FwState := { kinds := [], change := none }

/-- Management ports after reset: no endpoint ID, no dynamic address, no update; the TAP holds IDCODE (R700,
notes/assumptions/27.md). -/
def MgmtState.reset : MgmtState :=
  { eid := 0, i3cAddr := none, upd := .idle, table := [], comp := none, compSize := 0, data := [],
    applied := [], verifyCode := 0, applyCode := 0, pollSeq := 0, jtagIr := 1 }

/-- Before the first supply rises (R669, R670). -/
def StartState.reset : StartState :=
  { phase := .off, auxGood := false, vin48 := false, pwrEn := false, attempts := 0, perstHigh := false, railsUp := false,
    cause := 0, bootSrc := 0, altSlot := false, tripSeen := false, mapRebuilt := false, eraseResumed := false,
    newRetired := 0, startMs := 0, pendingReset := none, sysResetLow := false, perstWait := false, warm := false, fuseFailed := false }

/-- Host registers at the Reset column of R38, R39 and R505; BAR2 is 64 GiB. -/
def HostRegs.reset : HostRegs :=
  { apertureBase := 0, barLog2 := 36, timeHiLatch := 0, linkWidth := 0, sriov := false, linkUp := false, msix := [],
    msixTable := [], reply := [] }

/-- The time base at 0; TSYNC_CTRL and TSYNC_STAT at the Reset column of R506 and R507. -/
def TimeState.reset : TimeState :=
  { now := 0, ctrlEn := false, periodMs := 0x3E8, locked := false, lost := false, stepped := false, lastErr := 0, rate := 0 }

end Sys2Proof.Machine
end

