-- ==== Sys2Proof/Machine/State.lean ====
section
/-! DEFINITION. The state of the whole module and its value at reset, and the two inductives in which a command can
end other than in a next state. -/

namespace Sys2Proof.Machine

/-- Reasons for which a command ends the run. -/
inductive Fault where
  /-- VIN48 was applied while PWR_EN is deasserted: R668 calls the behaviour of the module undefined and gives no effect.
  Raised by vin48Good alone. Safe: the run stops. -/
  | supplyOutOfOrder
  deriving DecidableEq, Repr

/-- Reasons for which a command is not run. -/
inductive Refusal where
  /-- A row of the table that has no meaning yet. Raised by an arm of exec. Safe: the run stops. -/
  | notModelled (mnemonic : String)
  deriving DecidableEq, Repr

/-- The module: start-up and supplies, host registers, queue blocks, DRAM and host memory, partitions, physical cores
(keyed (die * 8 + column) * 32 + physical row), die marshals, hub halves, flash, span ports, capture, security, the
Steward, firmware, clocks, power, management ports, the time base; the model's own count of free values taken
(notes/assumptions/2.md); and the commands that wait, first in, first out. -/
structure State where
  start : StartState
  host : HostRegs
  blocks : SMap QBlock
  mem : MemState
  parts : SMap (Option Partition)
  cores : SMap Core
  dies : SMap Die
  hub : HubState
  flash : FlashState
  span : SpanState
  cap : CapState
  sec : SecState
  stw : Steward
  fw : FwState
  clk : ClkState
  pwr : PwrState
  mgmt : MgmtState
  tb : TimeState
  freeCtr : Nat
  pending : List Instr
  deriving DecidableEq, Repr

/-- The module at the origin of R670: no supply good, every register at its Reset value, fuses as manufactured, memories
empty, and no command waiting. -/
def State.reset : State :=
  { start := StartState.reset, host := HostRegs.reset, blocks := [], mem := MemState.reset, parts := [], cores := [],
    dies := [], hub := HubState.reset, flash := FlashState.reset, span := SpanState.reset, cap := CapState.reset,
    sec := SecState.reset, stw := Steward.reset, fw := FwState.reset, clk := ClkState.reset, pwr := PwrState.reset,
    mgmt := MgmtState.reset, tb := TimeState.reset, freeCtr := 0, pending := [] }

end Sys2Proof.Machine
end

