-- ==== Sys2Proof/Machine/Ops.lean ====
section
/-! DEFINITION. The named operations over the whole state that meanings share: access to cores, dies, partitions and
contexts, the translation of positions, the passing of time, free values, the event ring and interrupts. -/

namespace Sys2Proof.Machine

/-- Stop-free end of a meaning. -/
abbrev Out := Host.Outcome State Fault Refusal

/-! ### Sorting -/

/-- Merge a list whose first element is x and whose rest is merged by `f` into a second list. -/
def mergeStep {α : Type} (le : α → α → Bool) (x : α) (xs : List α) (f : List α → List α) : List α → List α
  | [] => x :: xs
  | y :: ys => if le x y then x :: f (y :: ys) else y :: mergeStep le x xs f ys

/-- Merge two sorted lists; where neither goes before the other, the first list's elements do. -/
def mergeBy {α : Type} (le : α → α → Bool) : List α → List α → List α
  | [], ys => ys
  | x :: xs, ys => mergeStep le x xs (mergeBy le xs) ys

/-- Sort a list of at most 2^n elements, keeping the order of equals. -/
def sortUpTo {α : Type} (le : α → α → Bool) : Nat → List α → List α
  | 0, l => l
  | n + 1, l =>
    if l.length < 2 then l
    else mergeBy le (sortUpTo le n (l.take ((l.length + 1) / 2))) (sortUpTo le n (l.drop ((l.length + 1) / 2)))

/-- Sort a list, keeping the order of equals. -/
def sortBy {α : Type} (le : α → α → Bool) (l : List α) : List α := sortUpTo le (Nat.log2 l.length + 1) l

/-! ### Free values and time -/

/-- Take a free word (notes/assumptions/2.md). -/
def State.takeFree (s : State) : Word × State := (Config.freeWord s.freeCtr, { s with freeCtr := s.freeCtr + 1 })

/-- Take n free words. -/
def State.takeFrees : Nat → State → List Word × State
  | 0, s => ([], s)
  | n + 1, s =>
    let (ws, s') := State.takeFrees n (s.takeFree).2
    ((s.takeFree).1 :: ws, s')

/-- Whether a PLL group runs from its coast oscillator, entry and exit included (R602, R603). -/
def PllUnit.coastingAny (u : PllUnit) : Bool :=
  match u.phase with
  | .entering | .coasting | .exiting => true
  | .locked | .holdover => false

/-- PLL group of the state. -/
def State.pll (s : State) (n : Nat) : PllUnit := SMap.get PllUnit.reset s.clk.plls n

/-- Replace a PLL group. -/
def State.setPll (s : State) (n : Nat) (u : PllUnit) : State :=
  { s with clk := { s.clk with plls := SMap.set PllUnit.reset s.clk.plls n u } }

/-- Boost time is charged while some die of the boost set is at boost voltage and not coasting (R627). -/
def State.boostCharged (s : State) : Bool :=
  (s.pwr.sol.state != .off) && s.pwr.sol.dies.any (fun d => !(s.pll d).coastingAny)

/-- A frequency after n factors of 0.96 (R603, R618). -/
def slowed (f n : Nat) : Nat := f * 24 ^ n / 25 ^ n

/-- Frequency of a column in MHz where it does not coast (R616): 50 MHz steps of SOLSTICE above the plan's frequency, at most
1,200 MHz; or the throttled frequency on the 50 MHz grid. -/
def State.colMhz (s : State) (d c : Nat) : Nat :=
  let fc := min ((SMap.get DieClk.reset s.clk.dies d).colMhz.getD c 400) 1200
  if 0 < s.pwr.sol.k ∧ s.pwr.sol.dies.contains d = true then fc + 50 * s.pwr.sol.k
  else max 400 (slowed fc (SMap.get 0 s.pwr.steps d) / 50 * 50)

/-- Effective frequency of a column in Hz (R602, R603, R616): the coast frequency, or a frequency on the way to or from it,
while the die coasts. Spread spectrum is left aside. -/
def State.colHz (s : State) (d c : Nat) : Nat :=
  let u := s.pll d
  let f := s.colMhz d c * 1000000
  match u.phase with
  | .locked | .holdover => f
  | .coasting => 400000000
  | .entering | .exiting => max 400000000 (slowed f u.steps)

/-- Add operating and boost time to the current wear bin (R626). -/
def addBin (bins : List (Nat × Nat)) (op boost : Nat) : List (Nat × Nat) :=
  match bins with
  | [] => [(op, boost)]
  | (o, b) :: rest => (o + op, b + boost) :: rest

/-- `dt` nanoseconds of the engine time base pass (R502): the count rises, and with it operating time and, while boost
time is charged, the episode's time (R626, R627). -/
def State.tick (s : State) (dt : Nat) : State :=
  let run := if s.start.railsUp then dt else 0
  let bo := if s.boostCharged then dt else 0
  let sol := { s.pwr.sol with
    chargedNs := s.pwr.sol.chargedNs + bo
    activeNs := if s.pwr.sol.state = .active then s.pwr.sol.activeNs + bo else s.pwr.sol.activeNs }
  { s with
    tb := { s.tb with now := s.tb.now + dt }
    pwr := { s.pwr with sol := sol, bins := addBin s.pwr.bins run 0 } }

/-! ### Dies, cores, positions -/

/-- Key of a physical core. -/
def CorePos.key (p : CorePos) : Nat := (p.die * 8 + p.col) * 32 + p.row

/-- Position of a key. -/
def CorePos.ofKey (k : Nat) : CorePos := { die := k / 256, col := k / 32 % 8, row := k % 32 }

/-- A core of the state. -/
def State.core (s : State) (k : Nat) : Core := SMap.get Core.reset s.cores k

/-- Replace a core. -/
def State.setCore (s : State) (k : Nat) (c : Core) : State := { s with cores := SMap.set Core.reset s.cores k c }

/-- Change a core. -/
def State.updCore (s : State) (k : Nat) (f : Core → Core) : State := s.setCore k (f (s.core k))

/-- A die of the state. -/
def State.die (s : State) (d : Nat) : Die := SMap.get Die.reset s.dies d

/-- Replace a die. -/
def State.setDie (s : State) (d : Nat) (x : Die) : State := { s with dies := SMap.set Die.reset s.dies d x }

/-- Change a die. -/
def State.updDie (s : State) (d : Nat) (f : Die → Die) : State := s.setDie d (f (s.die d))

/-- Gap row of a column (R129, R645). -/
def State.gap (s : State) (d c : Nat) : Nat := (s.die d).gaps.getD c 16

/-- Physical row of a logical row (R25, R645). -/
def physRow (gap r : Nat) : Nat := if r < gap then r else r + 1

/-- Logical row of a physical row; the gap holds none. -/
def logRow (gap f : Nat) : Option Nat := if f = gap then none else if f < gap then some f else some (f - 1)

/-- Key of the core at a logical position of a physical die. -/
def State.coreAt (s : State) (d c r : Nat) : Nat := (d * 8 + c) * 32 + physRow (s.gap d c) r

/-! ### Partitions and contexts -/

/-- A partition, if it exists. -/
def State.part (s : State) (p : Nat) : Option Partition := SMap.get none s.parts p

/-- Replace or remove a partition. -/
def State.setPart (s : State) (p : Nat) (x : Option Partition) : State := { s with parts := SMap.set none s.parts p x }

/-- Change an existing partition. -/
def State.updPart (s : State) (p : Nat) (f : Partition → Partition) : State :=
  match s.part p with
  | none => s
  | some x => s.setPart p (some (f x))

/-- A context of a partition, if it exists. -/
def Partition.ctx (x : Partition) (c : Nat) : Option Context := SMap.get none x.ctxs c

/-- Replace or remove a context. -/
def Partition.setCtx (x : Partition) (c : Nat) (k : Option Context) : Partition :=
  { x with ctxs := SMap.set none x.ctxs c k }

/-- A context of the state. -/
def State.ctx (s : State) (p c : Nat) : Option Context := (s.part p).bind (fun x => x.ctx c)

/-- Change an existing context. -/
def State.updCtx (s : State) (p c : Nat) (f : Context → Context) : State :=
  s.updPart p (fun x => match x.ctx c with
    | none => x
    | some k => x.setCtx c (some (f k)))

/-- Change the KV state of a context that has one. -/
def State.updKv (s : State) (p c : Nat) (f : KvState → KvState) : State :=
  s.updCtx p c (fun k => match k.kv with
    | none => k
    | some v => { k with kv := some (f v) })

/-- Numbers of the bits set in a mask of n bits, ascending. -/
def bitsSet (mask n : Nat) : List Nat := (List.range n).filter (fun i => bitOf mask i)

/-- Physical dies of a pair mask in logical order (R454). -/
def pairDies (mask : Nat) : List Nat := (bitsSet mask 8).flatMap (fun k => [2 * k, 2 * k + 1])

/-- Physical dies of a partition in logical order. -/
def Partition.dies (x : Partition) : List Nat := pairDies x.pairMask.toNat

/-- The partition that owns a die. -/
def State.partOfDie (s : State) (d : Nat) : Option Nat :=
  (List.range 8).find? (fun p => match s.part p with
    | none => false
    | some x => bitOf x.pairMask.toNat (d / 2))

/-- Every physical core key of a die. -/
def dieKeys (d : Nat) : List Nat :=
  (List.range 8).flatMap (fun c => (List.range 17).map (fun r => (d * 8 + c) * 32 + r))

/-- Keys of the cores of a partition's logical positions. -/
def State.partKeys (s : State) (x : Partition) : List Nat :=
  x.dies.flatMap (fun d => (List.range 8).flatMap (fun c => (List.range 16).map (fun r => s.coreAt d c r)))

/-- Change every core of a list. -/
def State.updCores (s : State) (ks : List Nat) (f : Core → Core) : State := ks.foldl (fun t k => t.updCore k f) s

/-- Logical position, within its partition, of the core at a key: logical die, column and row (R25). -/
def State.logicalPos (s : State) (x : Partition) (k : Nat) : Option (Nat × Nat × Nat) :=
  let d := k / 256
  let c := k / 32 % 8
  match x.dies.idxOf? d, logRow (s.gap d c) (k % 32) with
  | some i, some r => some (i, c, r)
  | _, _ => none

/-! ### Status of the module -/

/-- Code of the life-cycle state (R38, R534). -/
def lcCode (lc : BitVec 4) : Nat :=
  if lc.getLsbD 3 then 5 else if lc.getLsbD 2 then 4 else if lc.getLsbD 1 then 3 else if lc.getLsbD 0 then 2 else 1

/-- The life-cycle code in force. -/
def State.lcState (s : State) : Nat := lcCode s.sec.fuses.lc

/-- A confidential partition. -/
def State.confidential (s : State) (p : Nat) : Bool :=
  match s.part p with
  | none => false
  | some x => x.confidential

/-- Spare channels of a stack that are spent: one that a channel uses, copies to or has used, or that failed training (R338,
R339, R676). -/
def State.sparesUsed (s : State) (stack : Nat) : List Nat :=
  let of (c : Nat) : Chan := SMap.get Chan.reset s.mem.chans (stack * 34 + c)
  ((List.range 32).flatMap (fun c => (of c).past ++ (of c).spare.toList ++ (of c).copying.toList) ++
    [32, 33].filter (fun k => (of k).unusable)).dedup

/-- Columns of a die whose gap core works (R651, R665): neither retired nor under test. -/
def State.gapWorks (s : State) (d c : Nat) : Bool :=
  let x := s.die d
  let g := s.gap d c
  !(x.retired.contains (c, g)) && !(x.testing.contains (c, g))

/-- Columns of the module whose gap core works (R665). -/
def State.sparesFree (s : State) : Nat :=
  ((List.range 128).filter (fun i => s.gapWorks (i / 8) (i % 8))).length

/-- The Steward runs on one processor: the other is retired, or its hub half is lost (R566). -/
def State.stewardSingle (s : State) : Bool := s.stw.single || s.hub.aOk != s.hub.bOk

/-- GLB_STATUS.DEGRADED: some unit has used its last spare (R38, R339, R358, R566, R651). -/
def State.degraded (s : State) : Bool :=
  (List.range 128).any (fun i => (s.die (i / 8)).retired.contains (i % 8, s.gap (i / 8) (i % 8)))
    || (List.range 6).any (fun k => decide (2 ≤ (s.sparesUsed k).length))
    || s.stewardSingle
    || (List.range 8).any (fun p => (List.range 4).any (fun c =>
      (SMap.get FlashChan.fresh (SMap.get FlashPair.fresh s.flash.pairs p).chans c).capLoss))

/-- Whether a sensor state is WARNING or above; a failed sensor is neither. -/
def SensorState.warns : SensorState → Bool
  | .warning | .critical => true
  | .normal | .failed => false

/-- GLB_STATUS.THERM_WARN (R630). -/
def State.thermWarn (s : State) : Bool := s.stw.sensors.any (fun p => p.2.state.warns)

/-! ### Interrupts and events -/

/-- Send an MSI-X message of a function (0 for PF0, k for VFk). -/
def State.sendMsix (s : State) (fn entry : Nat) : State := { s with host := { s.host with msix := (fn, entry) :: s.host.msix } }

/-- GLB_STATUS.EVENT_PENDING (R571). -/
def State.eventPending (s : State) : Bool := s.stw.evtCons != BitVec.ofNat 32 s.stw.nextSeq

/-- A SEQ stands at or above the consumer index (R571, R580), compared modulo 2^32. -/
def seqAtOrAbove (seq : Nat) (cons : Word) : Bool := decide ((BitVec.ofNat 32 seq - cons).toNat < 2 ^ 31)

/-- Severity at which an event enters the persistent log (R581). -/
def logSeverity : Nat := 1

/-- Number an event and enter it in the ring and, by severity, in the queue for the log; signal entry 72 (R572, R577,
R579, R580, R581, R592). -/
def State.enterEvent (s : State) (e : EventRec) : State :=
  let st := s.stw
  let bound := if st.nextSeq = st.seqBound then st.seqBound + 65536 else st.seqBound
  let e := { e with seq := st.nextSeq, time := s.tb.now }
  let old := st.ring.filter (fun x => x.seq % 4096 == e.seq % 4096)
  let lost := old.any (fun x => seqAtOrAbove x.seq st.evtCons)
  let q := if e.sev < logSeverity then st.logQueue
    else if st.logQueue.length < 1024 ∨ 3 ≤ e.sev then st.logQueue ++ [e] else st.logQueue
  let was := s.eventPending
  let s1 := { s with stw := { st with
    nextSeq := st.nextSeq + 1
    seqBound := bound
    ring := st.ring.filter (fun x => x.seq % 4096 != e.seq % 4096) ++ [e]
    evtLost := if lost ∧ st.evtLost ≠ 0xFFFF#16 then st.evtLost + 1 else st.evtLost
    logQueue := q } }
  if st.irqEn ∧ (!was ∨ st.minSev.toNat ≤ e.sev) then s1.sendMsix 0 72 else s1

/-- Fields withheld for a confidential partition (R554, R577). -/
def State.redact (s : State) (e : EventRec) : EventRec :=
  if e.part < 8 ∧ s.confidential e.part then
    { e with redacted := true, tag := 0, detail := 0, addr := 0, reporters := 0 }
  else e

/-- Record an event, or hold it until the Steward runs (R567). -/
def State.record (s : State) (e : EventRec) : State :=
  let e := s.redact e
  if s.stw.running then s.enterEvent e
  else { s with stw := { s.stw with waiting := s.stw.waiting ++ [e] } }

/-- SEVERITY of an event code (R577, R578): 2 for 0x0305 (R660), otherwise a constant of the module, one of five values
(notes/assumptions/2.md). -/
def severityOf (code : Nat) : Nat := if code = 0x0305 then 2 else Config.eventSeverity code % 5

/-- An event with no command, no unit and no address. -/
def EventRec.plain (code : Nat) : EventRec :=
  { seq := 0, time := 0, code := code, sev := severityOf code, redacted := false, part := 0xF, unit := 0, detail := 0, count := 1,
    tag := 0, reporters := 0, addr := 0 }

/-- Record a plain event. -/
def State.event (s : State) (code : Nat) : State := s.record (EventRec.plain code)

/-- UNIT of a core (R578). -/
def coreUnit (d c r : Nat) : Nat := d * 2 ^ 28 + c * 2 ^ 25 + r * 2 ^ 20

/-- UNIT of a DRAM channel (R578). -/
def chanUnit (stack chan : Nat) : Nat := stack * 2 ^ 28 + chan * 2 ^ 22

/-- UNIT of a flash channel (R578). -/
def flashUnit (stack chan : Nat) : Nat := stack * 2 ^ 28 + chan * 2 ^ 24

/-- UNIT of a span port and lane (R578). -/
def portUnit (port lane : Nat) : Nat := port * 2 ^ 27 + lane * 2 ^ 23

/-- Signal entry 73 when THERM_WARN or DEGRADED rises (R572). -/
def State.noteStatus (s : State) : State :=
  let d := s.degraded
  let w := s.thermWarn
  let rise := (d && !s.stw.degradedLast) || (w && !s.stw.thermLast)
  let s1 := { s with stw := { s.stw with degradedLast := d, thermLast := w } }
  if rise ∧ s.stw.irqEn then s1.sendMsix 0 73 else s1

/-- The bytes a read or a request returned. -/
def State.answer (s : State) (bs : List Byte) : State := { s with host := { s.host with reply := bs } }

/-! ### The flash map (R353) -/

/-- The 4-byte form of a map entry (R353): its physical unit within the pair's four channels in [25:0], WRITTEN in [31]. DESIGN
CHOICE for the numbering of physical units, notes/assumptions/18.md. -/
def MapEntry.word (m : MapEntry) : Nat := 2 ^ 31 + (m.chan * 2560 + m.sb) * 4096 + m.slot

/-- A map after a journal record. -/
def journalled (map : List MapEntry) (r : MapRec) : List MapEntry :=
  map.filter (fun m => !(m.store == r.store && m.unit == r.unit)) ++ r.entry.toList

/-- A map entry changes, and the journal records it (R353). -/
def FlashPair.change (x : FlashPair) (store unit : Nat) (entry : Option MapEntry) : FlashPair :=
  let r : MapRec := { store := store, unit := unit, entry := entry }
  { x with map := journalled x.map r, journal := x.journal ++ [r] }

/-- The map that the last checkpoint and the journal give (R353). -/
def FlashPair.remade (x : FlashPair) : List MapEntry := x.journal.foldl journalled x.checkpoint

end Sys2Proof.Machine
end

