-- ==== Sys2Proof/Machine/Dram.lean ====
section
/-! DEFINITION. DRAM channels: the place of an address in the channels (R331, R344, R345), the outcome of a read with symbols in
error (R332 to R334), poison, and the start of channel sparing (R338 to R340). -/

namespace Sys2Proof.Machine

/-! ### Places (R331, R344, R345) -/

/-- Bytes of the slice of a die pair (R331). -/
def sliceBytes : Nat := 0xC00000000

/-- A range of the DRAM address space that is backed: a software or firmware region. -/
structure Backing where
  mode : Nat
  stack : Nat
  chan : Nat
  base : Nat
  size : Nat
  coff : Nat
  deriving DecidableEq, Repr

/-- Channel numbers of a partition, ascending (R344). -/
def Partition.chans (x : Partition) : List Nat :=
  (bitsSet x.pairMask.toNat 8).flatMap (fun k => [4 * k, 4 * k + 1, 4 * k + 2, 4 * k + 3])

/-- The row hash of HASH spreading (R345). -/
def rowHash (r : Nat) : Nat := (Nat.xor (Nat.xor r (r / 2 ^ 7)) (Nat.xor (r / 2 ^ 14) (r / 2 ^ 21))) % 128

/-- Channel count of a spreading mode (R344). -/
def modeChans (mode nc : Nat) : Nat := if mode = 2 then 1 else if mode = 1 then nc else 6 * nc

/-- Stack, channel and channel offset of an engine address inside a backing (R345). -/
def locate (cs : List Nat) (b : Backing) (addr : Nat) : Nat × Nat × Nat :=
  let a := addr - b.base
  if b.mode = 2 then (b.stack, b.chan, b.coff + a)
  else
    let q := a / 256
    let byte := a % 256
    let nc := cs.length
    if b.mode = 1 then (b.stack, cs.getD (q % nc) 0, b.coff + (q / nc) * 256 + byte)
    else
      let n := 6 * nc
      let r := q / n
      let i := if b.mode = 3 then (q % n + rowHash r) % n else q % n
      (i % 6, cs.getD (i / 6) 0, b.coff + r * 256 + byte)

/-- Backing of a software region. -/
def Region.backing (r : Region) : Backing :=
  { mode := r.mode, stack := r.stack, chan := r.chan, base := r.base, size := r.size, coff := r.coff }

/-- Backing of a firmware region: FINE. -/
def FwRegion.backing (r : FwRegion) : Backing :=
  { mode := 0, stack := 0, chan := 0, base := r.base, size := r.size, coff := r.coff }

/-- Bytes a region takes in each of its channels, rounded up to 64 KiB (R341). -/
def extent (size n : Nat) : Nat := (size + n * 0x10000 - 1) / (n * 0x10000) * 0x10000

/-- Channels of a backing. -/
def Backing.chans (b : Backing) (cs : List Nat) : List (Nat × Nat) :=
  if b.mode = 2 then [(b.stack, b.chan)]
  else if b.mode = 1 then cs.map (fun c => (b.stack, c))
  else (List.range 6).flatMap (fun st => cs.map (fun c => (st, c)))

/-- Every backing of a partition. -/
def Partition.backings (x : Partition) : List Backing :=
  x.regions.filterMap (fun p => p.2.map Region.backing) ++ x.fw.map FwRegion.backing

/-- The partition whose window holds a DRAM address (R331). -/
def State.sliceOwner (s : State) (a : Nat) : Option Nat := s.partOfDie (2 * (a / sliceBytes))

/-- The engine address of a channel offset inside a backing: the converse of `locate`. -/
def unlocate (cs : List Nat) (b : Backing) (stack chan off : Nat) : Option Nat :=
  let byte := off % 256
  let r := (off - b.coff) / 256
  let a? : Option Nat :=
    if off < b.coff then none
    else if b.mode = 2 then (if stack = b.stack ∧ chan = b.chan then some (off - b.coff) else none)
    else match cs.idxOf? chan with
      | none => none
      | some j =>
        let n := 6 * cs.length
        if b.mode = 1 then (if stack = b.stack then some ((r * cs.length + j) * 256 + byte) else none)
        else if b.mode = 3 then some ((r * n + (j * 6 + stack + n - rowHash r % n) % n) * 256 + byte)
        else some ((r * n + (j * 6 + stack)) * 256 + byte)
  match a? with
  | none => none
  | some a => if a < b.size then some (b.base + a) else none

/-- Stack, channel and codeword of a DRAM address that some region of the partition in whose window it lies backs. -/
def State.cellAt (s : State) (a : Nat) : Option (Nat × Nat × Nat) :=
  match (s.sliceOwner a).bind s.part with
  | none => none
  | some x => (x.backings.find? (fun b => decide (b.base ≤ a ∧ a < b.base + b.size))).map (fun b =>
      let q := locate x.chans b a
      (q.1, q.2.1, q.2.2 / 64))

/-- The engine address of a codeword of a channel, where a region is backed there. -/
def State.addrOf (s : State) (stack chan codeword : Nat) : Option Nat :=
  match s.partOfDie (2 * (chan / 4)) with
  | none => none
  | some p => match s.part p with
    | none => none
    | some x => x.backings.findSome? (fun b => unlocate x.chans b stack chan (codeword * 64))

/-! ### Channels -/

/-- Key of a channel. -/
def chanKey (stack chan : Nat) : Nat := stack * 34 + chan

/-- A channel of the state. -/
def State.chan (s : State) (stack chan : Nat) : Chan := SMap.get Chan.reset s.mem.chans (chanKey stack chan)

/-- Replace a channel. -/
def State.setChan (s : State) (stack chan : Nat) (c : Chan) : State :=
  { s with mem := { s.mem with chans := SMap.set Chan.reset s.mem.chans (chanKey stack chan) c } }

/-- Key of a codeword of a channel in the poison map. -/
def poisonKey (stack chan codeword : Nat) : Nat := chanKey stack chan * 2 ^ 25 + codeword

/-- Whether a codeword is poisoned. -/
def State.poisoned (s : State) (stack chan codeword : Nat) : Bool :=
  SMap.get false s.mem.poison (poisonKey stack chan codeword)

/-- Poison a codeword or clear its poison. -/
def State.setPoison (s : State) (stack chan codeword : Nat) (b : Bool) : State :=
  { s with mem := { s.mem with poison := SMap.set false s.mem.poison (poisonKey stack chan codeword) b } }

/-- Symbols in error that stand in a codeword. -/
def State.latentErr (s : State) (stack chan codeword : Nat) : SymErr :=
  SMap.get SymErr.clean s.mem.latent (poisonKey stack chan codeword)

/-- Put symbols in error into a codeword, or take them out. -/
def State.setLatent (s : State) (stack chan codeword : Nat) (e : SymErr) : State :=
  { s with mem := { s.mem with latent := SMap.set SymErr.clean s.mem.latent (poisonKey stack chan codeword) e } }

/-- Symbols in error that have arisen since the last command, by the engine address of their codewords. Where no region backs an
address, nothing reads it. -/
def State.strike (s : State) (errs : List DramErr) : State :=
  errs.foldl (fun t e => match t.cellAt e.addr with
    | none => t
    | some (st, ch, k) => t.setLatent st ch k e.err) s

/-- Assign a spare channel and start the mirrored copy (R338); without a free spare the channel stays in service under
correction and the trigger is logged (R339). A channel whose copy already runs starts no other; while the Steward does
not run, the trigger waits (R567). -/
def State.startSparing (s : State) (stack chan : Nat) : State :=
  let c := s.chan stack chan
  if c.copying.isSome then s
  else if !s.stw.running then s.setChan stack chan { c with spareDue := true }
  else
    let used := s.sparesUsed stack
    match [32, 33].find? (fun k => !used.contains k) with
    | some k => (s.setChan stack chan { c with copying := some k, spareDue := false }).noteStatus
    | none => s.record { EventRec.plain 0x0304 with unit := chanUnit stack chan }

/-- The Steward resets the controller of a channel that does not answer (R655); while it does not run, the reset waits. -/
def State.startChanReset (s : State) (stack chan : Nat) : State :=
  let c := s.chan stack chan
  if c.resetting ∨ !s.stw.running then s else s.setChan stack chan { c with resetting := true }

/-- Nanoseconds of one second and of 24 hours. -/
def secondNs : Nat := 1000000000
def dayNs : Nat := 86400 * secondNs

/-- A sparing trigger holds on the log of corrections: one lane in 16 or more distinct codewords within 1 s, or 4,096
corrected codewords within 24 h (R338). -/
def spareTrigger (now : Nat) (log : List EccLog) : Bool :=
  let recent := log.filter (fun e => decide (now ≤ e.time + secondNs))
  decide (4096 ≤ log.length)
    || (List.range 72).any (fun l =>
      decide (16 ≤ (((recent.filter (fun e => e.lanes.contains l)).map EccLog.codeword).dedup).length))

/-- Count a corrected codeword, log its failing lanes, and start sparing on a trigger (R333, R338). -/
def State.countCorrected (s : State) (stack chan codeword : Nat) (lanes : List Nat) (retried : Bool) : State :=
  let c := s.chan stack chan
  let log := { time := s.tb.now, codeword := codeword, lanes := lanes } ::
    c.log.filter (fun e => decide (s.tb.now ≤ e.time + dayNs))
  let s1 := s.setChan stack chan { c with
    ceCount := c.ceCount + 1
    retryOk := c.retryOk + (if retried then 1 else 0)
    log := log }
  if spareTrigger s.tb.now log then s1.startSparing stack chan else s1

/-- An uncorrectable read: the codeword is written back poisoned, the Steward logs the read and the poison write, and
sparing starts (R334, R336, R338). -/
def State.uncorrectable (s : State) (stack chan codeword addr : Nat) : State :=
  let s1 := s.setPoison stack chan codeword true
  let e := { EventRec.plain 0x0301 with unit := chanUnit stack chan, addr := addr }
  let s2 := (s1.record e).record { e with code := 0x0302, sev := severityOf 0x0302 }
  s2.startSparing stack chan

/-- Outcome of one codeword read. -/
inductive CodewordRead where
  | delivered
  | lost (wasPoisoned : Bool)
  deriving DecidableEq, Repr

/-- Symbols beyond the code's reach: the outcome is open (R332), so a free value decides whether the read is detected as
uncorrectable or delivers free data (notes/assumptions/2.md). -/
def State.beyondCode (s : State) (stack chan codeword : Nat) : CodewordRead × State :=
  let (w, s1) := s.takeFree
  let at_ := s.addrOf stack chan codeword
  if w.getLsbD 0 then (.lost false, s1.uncorrectable stack chan codeword (at_.getD 0))
  else match at_ with
    | none => (.delivered, s1)
    | some a =>
      let (ws, s2) := s1.takeFrees 16
      (.delivered, { s2 with mem := { s2.mem with dram := Memory.write s2.mem.dram a (ws.flatMap (fun w => leBytes 4 w.toNat)) } })

/-- Read one codeword of a channel: the symbols in error that stand in it are met now (R333, R334). Every uncorrectable read is
logged, that of a poisoned codeword among them (R336). -/
def State.readCodeword (s : State) (stack chan codeword : Nat) : CodewordRead × State :=
  let err := s.latentErr stack chan codeword
  let addr := (s.addrOf stack chan codeword).getD 0
  let s0 := s.setLatent stack chan codeword SymErr.clean
  if s.poisoned stack chan codeword then
    (.lost true, s0.record { EventRec.plain 0x0301 with unit := chanUnit stack chan, addr := addr })
  else if err.symbols = 0 then (.delivered, s0)
  else if err.symbols ≤ 3 then (.delivered, s0.countCorrected stack chan codeword err.lanes false)
  else if err.symbols ≤ 5 then
    if err.retry = 0 then
      let c := s.chan stack chan
      (.delivered, s0.setChan stack chan { c with retryOk := c.retryOk + 1 })
    else if err.retry ≤ 3 then (.delivered, s0.countCorrected stack chan codeword err.lanes true)
    else (.lost false, s0.uncorrectable stack chan codeword addr)
  else s0.beyondCode stack chan codeword

/-- A write of all or part of a codeword (R334, R335): of a whole one it clears poison and errors; a part is merged by a read,
and is discarded where the codeword is poisoned or the merging read is uncorrectable. Answers whether the write is made. -/
def State.mergeCodeword (s : State) (stack chan codeword : Nat) (whole : Bool) : Bool × State :=
  if whole then (true, (s.setPoison stack chan codeword false).setLatent stack chan codeword SymErr.clean)
  else if !s.poisoned stack chan codeword && s.latentErr stack chan codeword == SymErr.clean then (true, s)
  else if s.poisoned stack chan codeword then
    (false, s.record { EventRec.plain 0x0302 with unit := chanUnit stack chan, addr := (s.addrOf stack chan codeword).getD 0 })
  else match s.readCodeword stack chan codeword with
    | (.delivered, s1) => (true, s1)
    | (.lost _, s1) =>
      (false, s1.record { EventRec.plain 0x0302 with unit := chanUnit stack chan, addr := (s.addrOf stack chan codeword).getD 0 })

/-! ### Firmware accesses (R334, R347) -/

/-- Codewords of a range of engine addresses that satisfy a condition on their channel keys, by engine address: a walk over the
keys of a map and not over the range. -/
def State.marked {α : Type} (s : State) (m : SMap α) (a n : Nat) : List Nat :=
  m.filterMap (fun p => (s.addrOf (p.1 / 2 ^ 25 / 34) (p.1 / 2 ^ 25 % 34) (p.1 % 2 ^ 25)).bind (fun d =>
    if d < a + n ∧ a < d + 64 then some d else none))

/-- What a firmware write of [a, a + n) does to poison and standing errors: whole codewords are clean afterwards; parts of
codewords are merged, and the codewords in which the write is discarded are answered. -/
def State.fwMerge (s : State) (a n : Nat) : List Nat × State :=
  (s.marked s.mem.poison a n ++ s.marked s.mem.latent a n).foldl (fun (r : List Nat × State) d =>
    match r.2.cellAt d with
    | none => r
    | some (st, ch, k) =>
      let q := r.2.mergeCodeword st ch k (decide (a ≤ d ∧ d + 64 ≤ a + n))
      (if q.1 then r.1 else d :: r.1, q.2)) ([], s)

/-- Note the first codeword that a conductor access lost, for the command the conductor works for (R334). -/
def State.noteLoss (s : State) (detail : Nat) (write : Bool) : State :=
  { s with mem := { s.mem with fwLoss := s.mem.fwLoss.orElse (fun _ => some (detail, write)) } }

/-- The noted loss, which is noted no longer. -/
def State.takeLoss (s : State) : Option (Nat × Bool) × State := (s.mem.fwLoss, { s with mem := { s.mem with fwLoss := none } })

/-- What a lost access leaves in the channel and in the log, whatever else its command would have done (R334, R336). -/
def State.suffer (s : State) (loss : Nat × Bool) : State :=
  let d := loss.1 % 2 ^ 48
  match s.cellAt d with
  | none => s
  | some (st, ch, k) =>
    let e := { EventRec.plain (if loss.2 then 0x0302 else 0x0301) with unit := chanUnit st ch, addr := d }
    if bitOf loss.1 48 then s.record e else (s.setLatent st ch k SymErr.clean).uncorrectable st ch k d

/-- A firmware write of [a, a + n): what the range holds, except the codewords in which the write is discarded. -/
def State.fwWrite (s : State) (a n : Nat) (f : Memory → Memory) : State :=
  let r := s.fwMerge a n
  let t := r.1.foldl (fun v d => v.noteLoss (d + 2 ^ 48) true) r.2
  { t with mem := { t.mem with dram := r.1.foldl (fun m d => Memory.copyFrom s.mem.dram d 64 m d) (f r.2.mem.dram) } }

/-- What firmware does for no command, from s to t: its lost accesses are logged where they occur and end nothing
(notes/assumptions/2.md). -/
def State.aside (s t : State) : State := { t with mem := { t.mem with fwLoss := s.mem.fwLoss } }

/-- Zero a range of DRAM that firmware holds. -/
def State.zeroDram (s : State) (a n : Nat) : State := s.fwWrite a n (fun m => Memory.zero m a n)

/-- Firmware writes bytes to DRAM it holds. -/
def State.putDram (s : State) (a : Nat) (bs : List Byte) : State := s.fwWrite a bs.length (fun m => Memory.write m a bs)

/-- Write bytes to ranges of DRAM in turn. -/
def State.fillRanges (s : State) : List (Nat × Nat) → List Byte → State
  | [], _ => s
  | a :: as, bs => (s.putDram a.1 (bs.take a.2)).fillRanges as (bs.drop a.2)

/-- A conductor read of [a, a + n): errors that stand there are met, and the first codeword that is not delivered is noted for
the command the conductor works for (R334). -/
def State.fwRead (s : State) (a n : Nat) : State :=
  (s.marked s.mem.latent a n ++ s.marked s.mem.poison a n).foldl (fun t d =>
    match t.cellAt d with
    | none => t
    | some (st, ch, k) => match t.readCodeword st ch k with
      | (.delivered, t1) => t1
      | (.lost p, t1) => t1.noteLoss (d + (if p then 2 ^ 48 else 0)) false) s

/-- The conductor copies n bytes of DRAM. -/
def State.copyDram (s : State) (src dst n : Nat) : State :=
  let s1 := s.fwRead src n
  s1.fwWrite dst n (fun m => Memory.copyFrom s1.mem.dram src n m dst)

end Sys2Proof.Machine
end

