-- ==== Sys2Proof/Machine/Spad.lean ====
section
/-! DEFINITION. Storage of one core: banks and written bits (R107 to R118), the gather buffer (R119 to R123),
accumulator rows (R124, R113), scalar and vector registers (R154) and program faults (R181). -/

namespace Sys2Proof.Machine.Cu

/-- Bytes of one SPAD (R106). -/
def spadBytes : Nat := 0x400000

/-- How an instruction of a core ends: with the core it leaves, held by an interlock, or with a program fault that
names its code, its unit (R181, R188) and its argument (R189). -/
inductive Res where
  | done (c : Core)
  | held
  | fault (code unit arg : Nat)
  deriving DecidableEq, Repr

/-! ### Fault codes and units (R181, R188) -/

def fIllegal : Nat := 0x01
def fPcEnd : Nat := 0x02
def fLoopNest : Nat := 0x03
def fAccRange : Nat := 0x04
def fStreamRange : Nat := 0x05
def fTileEmpty : Nat := 0x06
def fTileAlign : Nat := 0x07
def fGridSlot : Nat := 0x08
def fSpadRange : Nat := 0x09
def fBankOff : Nat := 0x0A
def fStateRange : Nat := 0x0B
def fDmaDesc : Nat := 0x0C
def fNbEdge : Nat := 0x0D
def fNbAlign : Nat := 0x0E
def fUser : Nat := 0x0F
def fSeqHang : Nat := 0x10
def fPassMode : Nat := 0x11

def uSeq : Nat := 0
def uArray : Nat := 1
def uAcc : Nat := 2
def uVector : Nat := 3
def uSfu : Nat := 4
def uState : Nat := 5
def uDma0 : Nat := 6
def uDma1 : Nat := 7
def uNb : Nat := 8

/-! ### Scalar and vector registers -/

/-- Scalar register i; X0 reads zero (R154). -/
def x (c : Core) (i : BitVec 4) : Word := if i = 0 then 0 else SMap.get 0#32 c.seq.x i.toNat

/-- Write a scalar register; a write to X0 is discarded (R154). -/
def setX (c : Core) (i : BitVec 4) (w : Word) : Core :=
  if i = 0 then c else { c with seq := { c.seq with x := SMap.set 0#32 c.seq.x i.toNat w } }

/-- The 64 words of a vector register. -/
def v (c : Core) (i : BitVec 4) : List Word := SMap.getRange 0#32 c.seq.v (i.toNat * 64) 64

/-- Write consecutive words of a vector register from word k upward. -/
def setVFrom (c : Core) (i : BitVec 4) (k : Nat) (ws : List Word) : Core :=
  { c with seq := { c.seq with v := SMap.setRange 0#32 c.seq.v (i.toNat * 64 + k) ws } }

/-- Write all 64 words of a vector register. -/
def setV (c : Core) (i : BitVec 4) (ws : List Word) : Core := setVFrom c i 0 (ws.take 64)

/-- The 128 BF16 lanes of a list of words (R154). -/
def halves (ws : List Word) : List Half :=
  ws.flatMap (fun w => [w.extractLsb' 0 16, w.extractLsb' 16 16])

/-- Words from BF16 lanes. -/
def ofHalves : List Half → List Word
  | a :: b :: hs => (b ++ a) :: ofHalves hs
  | [a] => [0#16 ++ a]
  | [] => []

/-- Little-endian bytes of words. -/
def bytesOf (ws : List Word) : List Byte := ws.flatMap (fun w => leBytes 4 w.toNat)

/-- Words from little-endian bytes. -/
def wordsOf (bs : List Byte) (n : Nat) : List Word :=
  (List.range n).map (fun i => BitVec.ofNat 32 (field bs (4 * i) 4))

/-! ### Banks -/

/-- State of bank b. -/
def bank (c : Core) (b : Nat) : BankState := SMap.get .off c.regs.banks b

/-- Set the state of bank b. -/
def setBank (c : Core) (b : Nat) (st : BankState) : Core :=
  { c with regs := { c.regs with banks := SMap.set .off c.regs.banks b st } }

/-- Whether an access to n bytes at an offset may proceed (R116): it is a fault at an OFF bank, held at a bank that
is waking or being scrubbed. -/
inductive Access where
  | ok
  | held
  | off
  deriving DecidableEq, Repr

/-- The banks an access touches, judged together (R116). -/
def access (c : Core) (off n : Nat) : Access :=
  if n = 0 then .ok
  else
    let b0 := off / 0x40000
    let bs := (List.range ((off + n - 1) / 0x40000 + 1 - b0)).map (fun i => bank c (b0 + i))
    if bs.any (fun s => s == .off) then .off
    else if bs.all (fun s => s == .on) then .ok
    else .held

/-- Run an access-dependent action: SPAD_BANK_OFF, a hold, or the action (R116). -/
def withAccess (c : Core) (off n unit : Nat) (k : Res) : Res :=
  match access c off n with
  | .ok => k
  | .held => .held
  | .off => .fault fBankOff unit 0

/-! ### Lines and written bits -/

/-- Whether a SPAD line is written (R111). -/
def lineWritten (c : Core) (l : Nat) : Bool := SMap.get false c.mem.spadWritten l

/-- One SPAD byte as a read of the bank delivers it: zero from a never-written line (R111). -/
def spadByte (c : Core) (a : Nat) : Byte :=
  if lineWritten c (a / 256) then Memory.byte c.mem.spad a else 0#8

/-- The lines of n bytes at an offset. -/
def linesOf (off n : Nat) : List Nat :=
  if n = 0 then [] else (List.range ((off + n - 1) / 256 + 1 - off / 256)).map (fun i => off / 256 + i)

/-- A 16-bit count that saturates (R146). -/
def sat16 (w : BitVec 16) (n : Nat) : BitVec 16 := BitVec.ofNat 16 (min (w.toNat + n) 0xFFFF)

/-- Count reads of never-written lines (R111); no count while the core serves a confidential context (R146). -/
def countSpadRbw (c : Core) (n : Nat) : Core :=
  if c.run.confidential then c else { c with regs := { c.regs with spadRbw := sat16 c.regs.spadRbw n } }

/-- Count reads of never-written accumulator rows (R113, R146). -/
def countAccRbw (c : Core) (n : Nat) : Core :=
  if c.run.confidential then c else { c with regs := { c.regs with accRbw := sat16 c.regs.accRbw n } }

/-- A read of n bytes by the bank, with its count (R111). -/
def bankRead (c : Core) (off n : Nat) : List Byte × Core :=
  ((List.range n).map (fun i => spadByte c (off + i)),
   countSpadRbw c ((linesOf off n).filter (fun l => !lineWritten c l)).length)

/-- Prepare a line for a write: the first write zeroes the rest of the line and sets the written bit (R112); the
self-written bit follows the writer (R642). -/
def openLine (own : Bool) (c : Core) (l : Nat) : Core :=
  { c with mem := { c.mem with
      spad := if lineWritten c l then c.mem.spad else Memory.zero c.mem.spad (l * 256) 256
      spadWritten := SMap.set false c.mem.spadWritten l true
      spadSelf := SMap.set false c.mem.spadSelf l own } }

/-- Whether n bytes at an offset overlap m bytes at another. -/
def overlaps (a n b m : Nat) : Bool := decide (a < b + m ∧ b < a + n)

/-- Whether a move of an engine reads or writes SPAD bytes of a range. -/
def touches (e : DmaEngine) (off n : Nat) : Bool :=
  e.arriving.any (fun a => overlaps off n a.1 a.2.length) || e.leaving.any (fun d => overlaps off n d.off d.data.length)

/-- A write into a range that an engine's move touches races with it (R139, R179). -/
def noteRace (off n : Nat) (e : DmaEngine) : DmaEngine := if touches e off n then { e with raced := (off, n) :: e.raced } else e

/-- A write into the source of beats that have not left makes them carry old or new bytes (R127). -/
def noteBeats (off n : Nat) (p : NbPort) : NbPort :=
  { p with outbound := p.outbound.map (fun b => if overlaps off n b.src b.data.length then { b with raced := true } else b) }

/-- A write into what a span operation sends or receives leaves those bytes open (R392). -/
def noteSpan (off n : Nat) (w : SpanWait) : SpanWait :=
  { w with
    racedSrc := w.racedSrc || overlaps off n w.src.1 w.src.2
    racedDst := w.racedDst || overlaps off n w.dst.1 w.dst.2 }

/-- What a SPAD write of n bytes at an offset does to the moves, exchanges and span operations in progress (R127, R139, R179,
R392). -/
def noteWrite (c : Core) (off n : Nat) : Core :=
  { c with
    dma0 := noteRace off n c.dma0
    dma1 := noteRace off n c.dma1
    ports := c.ports.map (fun p => (p.1, noteBeats off n p.2))
    run := { c.run with spanWaits := c.run.spanWaits.map (noteSpan off n) } }

/-- A write of bytes by a bank (R112). -/
def bankWrite (c : Core) (own : Bool) (off : Nat) (bs : List Byte) : Core :=
  let c1 := (linesOf off bs.length).foldl (openLine own) (noteWrite c off bs.length)
  { c1 with mem := { c1.mem with spad := Memory.write c1.mem.spad off bs } }

/-! ### Gather buffer -/

/-- Flush one entry: one masked write to its line (R120). -/
def flushEntry (c : Core) (e : GbEntry) : Core :=
  let c1 := openLine true (e.data.foldl (fun d p => noteWrite d (e.line * 256 + p.1) 1) c) e.line
  { c1 with mem := { c1.mem with
      spad := e.data.foldl (fun m p => Memory.setByte m (e.line * 256 + p.1) p.2) c1.mem.spad
      gb := c1.mem.gb.filter (fun f => f.line != e.line) } }

/-- Flush every entry whose line satisfies a condition, oldest first. -/
def flushWhere (c : Core) (p : Nat → Bool) : Core :=
  (c.mem.gb.filter (fun e => p e.line)).foldl flushEntry c

/-- Flush every entry (R120, Fenced). -/
def flushAll (c : Core) : Core := flushWhere c (fun _ => true)

/-- Another port requests n bytes at an offset: entries of those lines are flushed first (R120, Snooped). -/
def snoop (c : Core) (off n : Nat) : Core :=
  flushWhere c (fun l => decide (off / 256 ≤ l ∧ l * 256 < off + n))

/-- Whether an entry of the buffer holds a key among its valid bytes. -/
def gbValid (e : GbEntry) (a : Nat) : Bool := e.data.any (fun p => p.1 == a % 256)

/-- The value an entry holds for a byte. -/
def gbByte (e : GbEntry) (a : Nat) : Byte := SMap.get 0#8 e.data (a % 256)

/-- A narrow read of one aligned 32-byte part (R121), without the count of R111. -/
def narrowPart (c : Core) (off : Nat) : List Byte × Core :=
  match c.mem.gb.find? (fun e => e.line == off / 256) with
  | some e =>
    if (List.range 32).all (fun i => gbValid e (off + i)) then
      ((List.range 32).map (fun i => gbByte e (off + i)), c)
    else (fun d => ((List.range 32).map (fun i => spadByte d (off + i)), d)) (flushEntry c e)
  | none => ((List.range 32).map (fun i => spadByte c (off + i)), c)

/-- Merge bytes into an entry; later bytes overwrite (R119). Valid bytes are listed even when zero. -/
def gbMerge (d : Memory) (a : Nat) (bs : List Byte) : Memory :=
  (bs.zipIdx).foldl (fun m p => SMap.put m ((a + p.2) % 256) p.1) d

/-- Flush an entry that has become complete (R120, Complete). -/
def flushIfFull (c : Core) (e : GbEntry) : Core := if e.data.length = 256 then flushEntry c e else c

/-- Merge the bytes of a narrow write into an entry, found, free or taken from the oldest (R119). -/
def narrowMerge (c : Core) (off : Nat) (bs : List Byte) : Core :=
  match c.mem.gb.find? (fun e => e.line == off / 256) with
  | some e =>
    let e' : GbEntry := { e with data := gbMerge e.data off bs }
    let c1 := { c with mem := { c.mem with gb := c.mem.gb.map (fun f => if f.line == e.line then e' else f) } }
    flushIfFull c1 e'
  | none =>
    let c0 :=
      if c.mem.gb.length < 8 then c
      else match c.mem.gb with
        | old :: _ => flushEntry c old
        | [] => c
    let e' : GbEntry := { line := off / 256, data := gbMerge [] off bs }
    flushIfFull { c0 with mem := { c0.mem with gb := c0.mem.gb ++ [e'] } } e'

/-- A narrow write of bytes inside one line (R119). -/
def narrowWrite (c : Core) (off : Nat) (bs : List Byte) : Core := narrowMerge (noteWrite c off bs.length) off bs

/-- Consecutive 32-byte parts, without the count of R111. -/
def narrowParts (c : Core) : Nat → Nat → List Byte × Core
  | _, 0 => ([], c)
  | off, k + 1 =>
    let r := narrowPart c off
    let q := narrowParts r.2 (off + 32) k
    (r.1 ++ q.1, q.2)

/-- Whether an entry of the buffer holds a line. -/
def gbHolds (c : Core) (l : Nat) : Bool := c.mem.gb.any (fun e => e.line == l)

/-- Never-written lines that a narrow access of n bytes reads from their bank: a line that an entry holds is served by the
entry, or written by its flush before the read (R111, R121). -/
def narrowUnwritten (c : Core) (off n : Nat) : Nat :=
  ((linesOf off n).filter (fun l => !lineWritten c l && !gbHolds c l)).length

/-- A narrow access of consecutive 32-byte parts (R167, R199): each never-written line counts once (R111). -/
def narrowReads (c : Core) (off k : Nat) : List Byte × Core :=
  let r := narrowParts c off k
  (r.1, countSpadRbw r.2 (narrowUnwritten c off (32 * k)))

/-- Narrow writes of consecutive 32-byte parts. -/
def narrowWrites (c : Core) : Nat → Nat → List Byte → Core
  | _, 0, _ => c
  | off, k + 1, bs => narrowWrites (narrowWrite c off (bs.take 32)) (off + 32) k (bs.drop 32)

/-- A read of any width by a port other than the gather buffer (R111, R120). -/
def wideRead (c : Core) (off n : Nat) : List Byte × Core := bankRead (snoop c off n) off n

/-- A write of any width by a port other than the gather buffer (R112, R120). -/
def wideWrite (c : Core) (own : Bool) (off : Nat) (bs : List Byte) : Core :=
  bankWrite (snoop c off bs.length) own off bs

/-! ### Accumulator memory -/

/-- Whether an accumulator row is written (R113). -/
def rowWritten (c : Core) (r : Nat) : Bool := SMap.get false c.mem.accWritten r

/-- The 64 values of a row as a read delivers them: +0.0 from a never-written row (R113). -/
def rowValues (c : Core) (r : Nat) : List Word :=
  if rowWritten c r then SMap.getRange 0#32 c.mem.acc (r * 64) 64 else List.replicate 64 0#32

/-- Read a row, with its count (R113). -/
def rowRead (c : Core) (r : Nat) : List Word × Core :=
  (rowValues c r, countAccRbw c (if rowWritten c r then 0 else 1))

/-- Write a row and set its written bit (R113, R642). -/
def rowWrite (c : Core) (r : Nat) (ws : List Word) : Core :=
  { c with mem := { c.mem with
      acc := SMap.setRange 0#32 (SMap.clearRange c.mem.acc (r * 64) 64) (r * 64) (ws.take 64)
      accWritten := SMap.set false c.mem.accWritten r true
      accSelf := SMap.set false c.mem.accSelf r true } }

/-- Whether a pass in flight still owes its write of a row (R178). -/
def rowBusy (c : Core) (r : Nat) : Bool :=
  c.arr.flights.any (fun f => decide (f.firstRow ≤ r ∧ r < f.firstRow + f.rows.length))

/-! ### Program counter and loops -/

/-- After the instruction at `pc`: the next address, and the loops that remain, when every loop that ends at `pc`
has been counted down (R160). -/
def loopEnd (lc : SMap Word) (pc : Nat) : List LoopRec → Nat × List LoopRec × SMap Word
  | [] => (pc + 1, [], lc)
  | l :: ls =>
    if l.last = pc then
      let n := SMap.get 0#32 lc l.ctr - 1
      let lc' := SMap.set 0#32 lc l.ctr n
      if n = 0 then loopEnd lc' pc ls else (l.first, l :: ls, lc')
    else (pc + 1, l :: ls, lc)

/-- Continue at the word after address `at'`, counting down the loops that end there (R160). Passing word 0x1FFF
without a branch is PC_END, and the instruction there then leaves no effect (DESIGN CHOICE, notes/assumptions/33.md). -/
def continueFrom (c : Core) (at' : Nat) : Res :=
  let r := loopEnd c.seq.lc at' c.seq.loops
  if r.1 > 0x1FFF then .fault fPcEnd uSeq 0
  else .done { c with seq := { c.seq with pc := r.1, loops := r.2.1, lc := r.2.2 } }

/-- The instruction has been performed: go on to the next one. -/
def next (c : Core) : Res := continueFrom c c.seq.pc

/-- A taken branch: every loop whose body the target leaves ends (R160). The innermost loop stands first. A branch taken
from the last word of a body to a word of that body goes there and counts no loop (DESIGN CHOICE, notes/assumptions/33.md). -/
def jump (c : Core) (target : Nat) : Core :=
  { c with seq := { c.seq with
      pc := target
      loops := c.seq.loops.dropWhile (fun l => !(decide (l.first ≤ target ∧ target ≤ l.last))) } }

/-! ### Emptying and fault recording -/

/-- Empty the array's stationary content: both copies, grid levels and foot scales (R87). -/
def emptyArray (c : Core) : Core :=
  { c with arr := { c.arr with active := none, shadow := none, loading := none } }

/-- Record a program fault at a PC and abandon the units' queued and in-flight work, gather-buffer entries among it (R182
steps 1 to 3). Of an argument wider than 32 bits the register holds the low 32 (DESIGN CHOICE, notes/assumptions/33.md). -/
def recordFault (c : Core) (pc code unit arg : Nat) : Core :=
  { c with
    seq := { c.seq with
      state := .faulted
      faultCode := BitVec.ofNat 8 code
      faultUnit := BitVec.ofNat 4 unit
      faultPc := BitVec.ofNat 13 pc
      faultArg := BitVec.ofNat 32 arg
      atBar := none }
    mem := { c.mem with gb := [] }
    arr := { c.arr with loading := none, flights := [], token := none }
    dma0 := c.dma0.dropWork
    dma1 := c.dma1.dropWork
    ports := c.ports.map (fun p => (p.1, { p.2 with outbound := [] }))
    run := { c.run with qstat := [], spanWaits := [] } }

end Sys2Proof.Machine.Cu
end

