-- ==== Sys2Proof/Machine/Access.lean ====
section
/-! DEFINITION. The engine address space (R28 to R33): what an address names for whom, region coverage (R29, R341),
the place of an address in the channels (R344, R345), reads and writes, and the placing of regions (R342, R347). -/

namespace Sys2Proof.Machine

/-- Who makes an access: on behalf of which partition and context (none for the engine itself), and the core whose DMA engine
makes it, if one does. -/
structure Who where
  part : Option Nat
  ctx : Option Nat
  core : Option Nat := none
  deriving DecidableEq, Repr

/-- The requester of a host access (R33): the function of the partition, numbered from 1, or PF0. -/
def Who.requester (w : Who) : Nat := match w.part with
  | none => 0
  | some p => p + 1

/-- Address map constants (R28, R331). -/
def windowBase : Nat := 0x008000000000
def windowEnd : Nat := 0x008800000000
def hostBase : Nat := 0x100000000000

/-- What an engine address names (R28, R30, R31). Control space and unassigned ranges are refused. -/
inductive Place where
  | dram
  | window (key off : Nat)
  | host (addr : Nat)
  | refused
  deriving DecidableEq, Repr

/-- The place of an engine address. The program memory window and the core registers of a slot are refused like unassigned
ranges, with the same status (DESIGN CHOICE, notes/assumptions/9.md). -/
def place (a : Nat) : Place :=
  if a < 0x6000000000 then .dram
  else if windowBase ≤ a ∧ a < windowEnd then
    let r := a - windowBase
    if r / 2 ^ 23 % 32 ≤ 16 ∧ r % 2 ^ 23 < 0x450000 then .window (r / 2 ^ 23) (r % 2 ^ 23) else .refused
  else if hostBase ≤ a ∧ a < 2 ^ 48 then .host (a - hostBase)
  else .refused

/-- Firmware regions that accesses of the partition reach: those a plan names by address. Plan areas, save areas, decode
areas and QSTAT records are reached by firmware alone (R464, R548; DEDUCED, notes/assumptions/9.md); of the KV control area only PAGE list fetches
read (R254), which Machine/Dma.lean makes. -/
def FwKind.byProgram : FwKind → Bool
  | .pool | .live | .experts | .weights => true
  | .kvControl | .plan | .save | .decode | .qstat | .capture => false

/-- Every software region of a partition whose scrub has completed. -/
def Partition.every (x : Partition) : List Backing :=
  x.regions.filterMap (fun q => match q.2 with
    | none => none
    | some r => if r.ready then some r.backing else none)

/-- Every backing an access for a context of the partition reaches, or one for none of its contexts (R29; DEDUCED,
notes/assumptions/9.md): every software region, whose owner decides charges and destruction and not reach, and what plans name
by address, of that context alone (R248). -/
def Partition.reach (x : Partition) (ctx : Option Nat) : List Backing :=
  x.every ++ x.fw.filterMap (fun f => if f.kind.byProgram && ctx.all (fun c => c == f.owner) then some f.backing else none)

/-- Partition and backings of an access to a DRAM address. The engine's own commands, which belong to no partition, reach
the software regions of every partition that is not confidential (DESIGN CHOICE, notes/assumptions/9.md). -/
def State.reach (s : State) (w : Who) (a : Nat) : Option (Partition × List Backing) :=
  match w.part with
  | some p => (s.part p).map (fun x => (x, x.reach w.ctx))
  | none =>
    match s.sliceOwner a with
    | none => none
    | some p => match s.part p with
      | none => none
      | some x =>
        if x.confidential then none else some (x, x.every)

/-- The backing that covers a DRAM address. -/
def State.cover (s : State) (w : Who) (a : Nat) : Option (Partition × Backing) :=
  match s.reach w a with
  | none => none
  | some (x, bs) => (bs.find? (fun b => decide (b.base ≤ a ∧ a < b.base + b.size))).map (fun b => (x, b))

/-- First DRAM address of [a, e) that no region covers; the search passes from region to region. -/
def State.uncovered (s : State) (w : Who) : Nat → Nat → Nat → Option Nat
  | 0, a, e => if a < e then some a else none
  | n + 1, a, e =>
    if e ≤ a then none
    else if 0x6000000000 ≤ a then some a
    else match s.cover w a with
      | none => some a
      | some (_, b) => s.uncovered w n (b.base + b.size) e

/-- A host address range the host refuses to a requester, or one beyond 240 TiB (R33). -/
def State.hostRefuses (s : State) (fn a n : Nat) : Bool :=
  decide (0xF00000000000 < a + n) || s.mem.hostRefused.any (fun r => r.1 == fn && decide (a < r.2.2 ∧ r.2.1 < a + n))

/-- Host-window accesses of a confidential partition are refused while its device interface is not in RUN (R557). -/
def State.tdiRefuses (s : State) (w : Who) : Bool := match w.part.bind s.part with
  | none => false
  | some x => x.confidential && x.sec.tdi != TdiState.run

/-- Whether the core of a window key belongs to the partition that makes an access (R31). -/
def State.ownsKey (s : State) (w : Who) (key : Nat) : Bool :=
  match w.part with
  | none => true
  | some p => s.partOfDie (key / 256) == some p

/-- How an access to engine addresses ends: with a value, with a fault status and DETAIL, or held at a bank that is
not on. -/
inductive Eng (α : Type) where
  | ok (v : α) (s : State)
  | bad (status detail : Nat) (s : State)
  | wait

/-- Statuses of an access (R451). -/
def stAddrFault : Nat := 0x0108
def stDataLoss : Nat := 0x0109

/-- Not statuses of the manual: an access by a core's own DMA engine to an OFF bank of that core, and a descriptor whose range
proves illegal while it moves; the core's program fault follows (R116, R133). -/
def engBankOff : Nat := 0x10000
def engDesc : Nat := 0x10001

/-- Stack, channel and codeword of a DRAM engine address; firmware addresses without a backing keep none. -/
def State.codewordOf (s : State) (w : Who) (a : Nat) : Option (Nat × Nat × Nat) :=
  (s.cover w a).map (fun q =>
    let (st, ch, off) := locate q.1.chans q.2 a
    (st, ch, off / 64))

/-- Check the codewords of a DRAM read one after another: the first that is poisoned or uncorrectable ends it (R334). -/
def State.checkRead (s : State) (w : Who) : List Nat → Eng Unit
  | [] => .ok () s
  | cw :: cws =>
    match s.codewordOf w (cw * 64) with
    | none => .bad stAddrFault (cw * 64) s
    | some (st, ch, k) =>
      match s.readCodeword st ch k with
      | (.delivered, s1) => s1.checkRead w cws
      | (.lost p, s1) => .bad stDataLoss (cw * 64 + (if p then 2 ^ 48 else 0)) s1

/-- Codeword numbers of n bytes at an address. -/
def codewords (a n : Nat) : List Nat :=
  if n = 0 then [] else (List.range ((a + n - 1) / 64 + 1 - a / 64)).map (fun i => a / 64 + i)

/-- How a range of the data part of a core slot falls into SPAD, accumulator memory and state file (R30): the bytes in each. -/
def slotSplit (off n : Nat) : Nat × Nat × Nat :=
  let n0 := min n (0x400000 - off)
  let n1 := min (n - n0) (0x440000 - (off + n0))
  (n0, n1, n - n0 - n1)

/-- One byte of a list of words. -/
def byteOfWord (w : Word) (i : Nat) : Byte := BitVec.ofNat 8 (w.toNat / 2 ^ (8 * i))

/-- A read of accumulator bytes from outside the core, each never-written row counted once (R113). -/
def accBytes (c : Core) (a n : Nat) : List Byte × Core :=
  let rows := if n = 0 then 0 else (a + n - 1) / 256 + 1 - a / 256
  let fresh := (List.range rows).filter (fun i => !Cu.rowWritten c (a / 256 + i))
  ((List.range n).map (fun i => byteOfWord ((Cu.rowValues c ((a + i) / 256)).getD ((a + i) % 256 / 4) 0) ((a + i) % 4)),
    Cu.countAccRbw c fresh.length)

/-- A read of state-file bytes from outside the core: zero from a segment that is not loaded (R31, R115, R292). -/
def stateBytes (c : Core) (a n : Nat) : List Byte :=
  (List.range n).map (fun i =>
    if SMap.get false c.mem.stateLoaded ((a + i) / 256) then byteOfWord (SMap.get 0#32 c.mem.stateFile ((a + i) / 4)) ((a + i) % 4) else 0#8)

/-- Bytes a window read delivers, and the core after it: SPAD lines (R111), accumulator rows (R113), state file. -/
def windowRead (c : Core) (off n : Nat) : List Byte × Core :=
  let q := slotSplit off n
  let r0 := if q.1 = 0 then ([], c) else Cu.wideRead c off q.1
  let r1 := accBytes r0.2 (off + q.1 - 0x400000) q.2.1
  (r0.1 ++ r1.1 ++ stateBytes r1.2 (off + q.1 + q.2.1 - 0x440000) q.2.2, r1.2)

/-- Put one byte into a word. -/
def putByte (w : Word) (i : Nat) (b : Byte) : Word :=
  BitVec.ofNat 32 (w.toNat - (w.toNat / 2 ^ (8 * i) % 256) * 2 ^ (8 * i) + b.toNat * 2 ^ (8 * i))

/-- Write one byte of an accumulator row through the window; the first write of a never-written row leaves +0.0 in its
other bytes, and the row is not self-written (R642; notes/assumptions/9.md). -/
def accByteWrite (c : Core) (a : Nat) (b : Byte) : Core :=
  let r := a / 256
  let ws := Cu.rowValues c r
  let c1 := Cu.rowWrite c r (ws.set (a % 256 / 4) (putByte (ws.getD (a % 256 / 4) 0) (a % 4) b))
  { c1 with mem := { c1.mem with accSelf := SMap.set false c1.mem.accSelf r false } }

/-- Write one byte of the state file through the window. -/
def stateByteWrite (c : Core) (a : Nat) (b : Byte) : Core :=
  let sf := SMap.set 0#32 c.mem.stateFile (a / 4) (putByte (SMap.get 0#32 c.mem.stateFile (a / 4)) (a % 4) b)
  { c with mem := { c.mem with stateFile := sf } }

/-- A core after a window write of bytes: SPAD as another core's write (R112, R642), accumulator rows, state file. -/
def windowWrite (c : Core) (off : Nat) (bs : List Byte) : Core :=
  let q := slotSplit off bs.length
  let c0 := if q.1 = 0 then c else Cu.wideWrite c false off (bs.take q.1)
  let c1 := (((bs.drop q.1).take q.2.1).zipIdx).foldl (fun d p => accByteWrite d (off + q.1 - 0x400000 + p.2) p.1) c0
  ((bs.drop (q.1 + q.2.1)).zipIdx).foldl (fun d p => stateByteWrite d (off + q.1 + q.2.1 - 0x440000 + p.2) p.1) c1

/-- How an access through the window fares at the core it reaches. -/
inductive WinAccess where
  | refused
  | held
  | off
  | ok
  deriving DecidableEq, Repr

/-- A window access stays inside the data part of one core slot of the partition (R30, R31). A bank that is waking or scrubbed
holds it (R116). An OFF bank is a fault of the accessing core where it is that core's own (R116); another core's holds the access
(DESIGN CHOICE, notes/assumptions/9.md). -/
def State.windowOk (s : State) (w : Who) (key off n : Nat) : WinAccess :=
  if !s.ownsKey w key ∨ 0x450000 < off + n then .refused
  else if off < 0x400000 then
    match Cu.access (s.core key) off (min n (0x400000 - off)) with
    | .ok => .ok
    | .held => .held
    | .off => if w.core = some key then .off else .held
  else .ok

/-- Read n bytes at an engine address (R28 to R33, R334). An access of no bytes reaches nothing. -/
def State.readEng (s : State) (w : Who) (a n : Nat) : Eng (List Byte) :=
  if n = 0 then .ok [] s
  else match place a with
  | .dram =>
    match s.uncovered w 32 a (a + n) with
    | some u => .bad stAddrFault u s
    | none =>
      match s.checkRead w (codewords a n) with
      | .ok _ s1 => .ok (Memory.read s1.mem.dram a n) s1
      | .bad st d s1 => .bad st d s1
      | .wait => .wait
  | .window key off =>
    match s.windowOk w key off n with
    | .refused => .bad stAddrFault a s
    | .held => .wait
    | .off => .bad engBankOff 0 s
    | .ok =>
      let (bs, c) := windowRead (s.core key) off n
      .ok bs (s.setCore key c)
  | .host h =>
    if s.hostRefuses w.requester h n || s.tdiRefuses w then .bad stAddrFault (a + 2 ^ 55) s else .ok (Memory.read s.mem.hostMem h n) s
  | .refused => .bad stAddrFault a s

/-- Write the bytes of one codeword: where the write of a part is discarded, its address is remembered as the loss of the
access (R334, R335). -/
def State.writeCodeword (s : State) (w : Who) (a : Nat) (bs : List Byte) (loss : Option Nat) : State × Option Nat :=
  match s.codewordOf w a with
  | none => (s, loss)
  | some (st, ch, k) => match s.mergeCodeword st ch k (bs.length == 64) with
    | (true, s1) => ({ s1 with mem := { s1.mem with dram := Memory.write s1.mem.dram a bs } }, loss)
    | (false, s1) => (s1, loss.orElse (fun _ => some (a / 64 * 64)))

/-- Write bytes to DRAM codeword by codeword. -/
def State.writeDram (s : State) (w : Who) : Nat → Nat → List Byte → Option Nat → State × Option Nat
  | 0, _, _, loss => (s, loss)
  | n + 1, a, bs, loss =>
    if bs.isEmpty then (s, loss)
    else
      let k := 64 - a % 64
      let (s1, l1) := s.writeCodeword w a (bs.take k) loss
      s1.writeDram w n (a + k) (bs.drop k) l1

/-- A frame whose claimed buffer meets a write of [a, a + n) is spoiled (R490). -/
def Stream.spoil (x : Stream) (a n : Nat) : Stream :=
  let hit (b : Nat) : Bool := decide (x.cfg.outBase + b * x.cfg.bufStride < a + n ∧ a < x.cfg.outBase + (b + 1) * x.cfg.bufStride)
  { x with frames := x.frames.map (fun f => if f.buf.any hit then { f with spoiled := true } else f) }

/-- What a write of DRAM by anything but the pipeline does to frames being filled (R490). -/
def State.spoil (s : State) (a n : Nat) : State :=
  { s with cap := { s.cap with streams := s.cap.streams.map (fun e => (e.1, e.2.spoil a n)) } }

/-- Write bytes at an engine address (R28 to R33, R334, R490). -/
def State.writeEng (s : State) (w : Who) (a : Nat) (bs : List Byte) : Eng Unit :=
  let n := bs.length
  if n = 0 then .ok () s
  else match place a with
  | .dram =>
    match s.uncovered w 32 a (a + n) with
    | some u => .bad stAddrFault u s
    | none =>
      match s.writeDram w (n + 1) a bs none with
      | (s1, none) => .ok () (s1.spoil a n)
      | (s1, some cw) => .bad stDataLoss (cw + 2 ^ 48) (s1.spoil a n)
  | .window key off =>
    match s.windowOk w key off n with
    | .refused => .bad stAddrFault a s
    | .held => .wait
    | .off => .bad engBankOff 0 s
    | .ok => .ok () (s.updCore key (fun c => windowWrite c off bs))
  | .host h =>
    if s.hostRefuses w.requester h n || s.tdiRefuses w then .bad stAddrFault (a + 2 ^ 55) s
    else .ok () { s with mem := { s.mem with hostMem := Memory.write s.mem.hostMem h bs } }
  | .refused => .bad stAddrFault a s

/-! ### Placing regions -/

/-- Bytes of a channel that back regions (R330). -/
def chanRegionBytes : Nat := 2040 * 2 ^ 20

/-- Whether [off, off + e) is free in every channel of a new backing (R342 step 5). -/
def Partition.fits (x : Partition) (b : Backing) (off e : Nat) : Bool :=
  let cs := x.chans
  let mine := b.chans cs
  decide (off + e ≤ chanRegionBytes) && x.backings.all (fun o =>
    let eo := extent o.size (modeChans o.mode cs.length)
    decide (o.coff + eo ≤ off ∨ off + e ≤ o.coff) || !((o.chans cs).any (fun c => mine.contains c)))

/-- The lowest channel offset with room (R342 step 5): an offset at the start, or at the end of some other region. -/
def Partition.lowestOffset (x : Partition) (b : Backing) : Option Nat :=
  let cs := x.chans
  let e := extent b.size (modeChans b.mode cs.length)
  let ends := x.backings.map (fun o => o.coff + extent o.size (modeChans o.mode cs.length))
  (sortBy (fun a c => decide (a ≤ c)) (0 :: ends)).find? (fun off => x.fits b off e)

/-- Whether an address range overlaps a region of the partition, firmware regions included (R342 step 2). -/
def Partition.overlaps (x : Partition) (base size : Nat) : Bool :=
  x.backings.any (fun o => decide (base < o.base + o.size ∧ o.base < base + size))

/-- Whether an address range lies in the partition's window (R331). -/
def Partition.inWindow (x : Partition) (base size : Nat) : Bool :=
  decide (0 < size) && (List.range ((base + size - 1) / sliceBytes + 1 - base / sliceBytes)).all (fun i =>
    bitOf x.pairMask.toNat (base / sliceBytes + i) && decide (base / sliceBytes + i < 8))

/-- The translation caches no longer hold the entries of a range of addresses (R257). -/
def State.dropXlat (s : State) (a n : Nat) : State :=
  let keep (e : Xlat) : Bool := !decide (a ≤ e.addr ∧ e.addr < a + n)
  { s with
    mem := { s.mem with xlat2 := s.mem.xlat2.map (fun p => (p.1, p.2.filter keep)) }
    dies := s.dies.map (fun p => (p.1, { p.2 with xlat := p.2.xlat.filter keep })) }

/-- Scrub the storage of a backing: zero data with valid check symbols, poison cleared (R347). -/
def State.scrubBacking (s : State) (x : Partition) (b : Backing) : State :=
  let cs := x.chans
  let e := extent b.size (modeChans b.mode cs.length)
  let set := b.chans cs
  let keep (k : Nat) : Bool :=
    !(set.contains (k / 2 ^ 25 / 34, k / 2 ^ 25 % 34) && decide (b.coff ≤ k % 2 ^ 25 * 64 ∧ k % 2 ^ 25 * 64 < b.coff + e))
  let t := s.dropXlat b.base b.size
  { t with mem := { t.mem with
      dram := Memory.zero t.mem.dram b.base b.size
      poison := t.mem.poison.filter (fun p => keep p.1)
      latent := t.mem.latent.filter (fun p => keep p.1) } }

/-- Candidate base addresses for a firmware region, highest first: below the window's end and below every region. -/
def Partition.fwBases (x : Partition) (size align : Nat) : List Nat :=
  let tops := (bitsSet x.pairMask.toNat 8).map (fun k => (k + 1) * sliceBytes)
  sortBy (fun a c => decide (c ≤ a)) ((tops ++ x.backings.map Backing.base).filterMap (fun t =>
    if size ≤ t then some ((t - size) / align * align) else none))

/-- Place a firmware region of a partition: the highest free range of the window and the lowest free channel offset
(DESIGN CHOICE, notes/assumptions/9.md), scrubbed (R347). `align` is a power of two. -/
def State.placeFw (s : State) (p : Nat) (kind : FwKind) (owner size align : Nat) : Option (FwRegion × State) :=
  match s.part p with
  | none => none
  | some x =>
    let al := max align 0x10000
    match (x.fwBases size al).find? (fun b => x.inWindow b size && !x.overlaps b size) with
    | none => none
    | some base =>
      let b : Backing := { mode := 0, stack := 0, chan := 0, base := base, size := size, coff := 0 }
      match x.lowestOffset b with
      | none => none
      | some off =>
        let f : FwRegion := { kind := kind, owner := owner, base := base, size := size, coff := off }
        let s1 := s.updPart p (fun y => { y with fw := y.fw ++ [f] })
        some (f, s1.scrubBacking x f.backing)

/-- Free the firmware regions of a partition that satisfy a condition. -/
def State.dropFw (s : State) (p : Nat) (c : FwRegion → Bool) : State :=
  s.updPart p (fun x => { x with fw := x.fw.filter (fun f => !c f) })

end Sys2Proof.Machine
end

