-- ==== Sys2Proof/Machine/Float.lean ====
section
/-! DEFINITION. Exact arithmetic on the engine's number formats (chapter 2, R42 to R66). Every FP32 and
BF16 value is a whole multiple of 2^-149, so a finite value is a sign and a natural number of such
units; results are formed exactly and rounded once, ties away from zero (R46). -/

namespace Sys2Proof.Machine.Float

/-- A decoded value: NaN, an infinity, or a signed number of units of 2^-149 (zero keeps its sign, R49). -/
inductive Val where
  | nan
  | inf (neg : Bool)
  | fin (neg : Bool) (units : Nat)
  deriving DecidableEq, Repr

/-- The sign bit of an FP32 encoding (R43). -/
def signBit (w : Word) : Bool := w.getLsbD 31

/-- Decode an FP32 encoding (R43); subnormals are honoured. -/
def unpack (w : Word) : Val :=
  let e := (w.toNat / 2 ^ 23) % 256
  let f := w.toNat % 2 ^ 23
  if e = 255 then (if f = 0 then .inf (signBit w) else .nan)
  else if e = 0 then .fin (signBit w) f
  else .fin (signBit w) ((2 ^ 23 + f) * 2 ^ (e - 1))

/-- A sign bit in front of a 31-bit magnitude code. -/
def withSign (neg : Bool) (mag : Nat) : Word := BitVec.ofNat 32 (mag + if neg then 2 ^ 31 else 0)

/-- The canonical FP32 NaN (R48). -/
def nan32 : Word := 0x7FC00000#32

/-- FP32 infinity of a sign (R43). -/
def inf32 (neg : Bool) : Word := withSign neg 0x7F800000

/-- FP32 zero of a sign. -/
def zero32 (neg : Bool) : Word := withSign neg 0

/-- Magnitude code of the value n/d units of 2^-149 in a binary format whose precision is p and whose
spacing in the subnormal range is 2^k units: one rounding, ties away from zero (R46, R47). -/
def roundCode (p k inf n d : Nat) : Nat :=
  let d' := d * 2 ^ k
  let q := Nat.log2 (n / d') - (p - 1)
  let dq := d' * 2 ^ q
  let r := (2 * n + dq) / (2 * dq)
  min (q * 2 ^ (p - 1) + r) inf

/-- Round n/d units to FP32; a magnitude above the largest finite value is infinity (R47). -/
def round32 (neg : Bool) (n d : Nat) : Word := withSign neg (roundCode 24 0 0x7F800000 n d)

/-- Round n/d units to BF16 (R47). -/
def roundBf (neg : Bool) (n d : Nat) : Half :=
  BitVec.ofNat 16 (roundCode 8 16 0x7F80 n d + if neg then 2 ^ 15 else 0)

/-- The units of 2^-149 in one. -/
def one149 : Nat := 2 ^ 149

/-- Deliver a value that is exact in units over a divisor. -/
def pack (v : Val) (d : Nat) : Word :=
  match v with
  | .nan => nan32
  | .inf s => inf32 s
  | .fin s n => round32 s n d

/-- Exact signed sum, with the zero rules of R49. -/
def addFin (s1 : Bool) (n1 : Nat) (s2 : Bool) (n2 : Nat) : Val :=
  if s1 = s2 then .fin s1 (n1 + n2)
  else if n1 = n2 then .fin false 0
  else if n2 < n1 then .fin s1 (n1 - n2)
  else .fin s2 (n2 - n1)

/-- Exact sum of two values (R49). -/
def addVal : Val → Val → Val
  | .nan, _ => .nan
  | _, .nan => .nan
  | .inf s, .inf t => if s = t then .inf s else .nan
  | .inf s, .fin _ _ => .inf s
  | .fin _ _, .inf t => .inf t
  | .fin s n, .fin t m => addFin s n t m

/-- Exact product of two values, in units of 2^-298 (R49). -/
def mulVal : Val → Val → Val
  | .nan, _ => .nan
  | _, .nan => .nan
  | .inf s, .inf t => .inf (s != t)
  | .inf s, .fin t m => if m = 0 then .nan else .inf (s != t)
  | .fin s n, .inf t => if n = 0 then .nan else .inf (s != t)
  | .fin s n, .fin t m => .fin (s != t) (n * m)

/-- A value in units of 2^-149 restated in units of 2^-298. -/
def scaleUp : Val → Val
  | .fin s n => .fin s (n * one149)
  | v => v

/-- FP32 negation changes the sign bit only (R81). -/
def neg (w : Word) : Word := w ^^^ 0x80000000#32

/-- Negation in an operation: the result of a NaN is the canonical NaN (R48, R81). -/
def negVal (w : Word) : Word :=
  match unpack w with
  | .nan => nan32
  | _ => neg w

/-- FP32 addition (R46, R49). -/
def add (a b : Word) : Word := pack (addVal (unpack a) (unpack b)) 1

/-- FP32 subtraction. -/
def sub (a b : Word) : Word := add a (neg b)

/-- FP32 multiplication. -/
def mul (a b : Word) : Word := pack (mulVal (unpack a) (unpack b)) one149

/-- Fused multiply-add, rounded once. -/
def fma (a b c : Word) : Word :=
  pack (addVal (mulVal (unpack a) (unpack b)) (scaleUp (unpack c))) one149

/-- FP32 division (R49). -/
def div (a b : Word) : Word :=
  match unpack a, unpack b with
  | .nan, _ => nan32
  | _, .nan => nan32
  | .inf _, .inf _ => nan32
  | .inf s, .fin t _ => inf32 (s != t)
  | .fin s _, .inf t => zero32 (s != t)
  | .fin s n, .fin t m =>
    if m = 0 then (if n = 0 then nan32 else inf32 (s != t))
    else round32 (s != t) (n * one149) m

/-- Integer square root by bits, highest first: the largest r with r * r ≤ n, for n below 4^k. -/
def isqrt (n : Nat) : Nat → Nat → Nat
  | 0, r => r
  | k + 1, r => if (r + 2 ^ k) * (r + 2 ^ k) ≤ n then isqrt n k (r + 2 ^ k) else isqrt n k r

/-- FP32 square root, correctly rounded (R49, R195). -/
def sqrt (a : Word) : Word :=
  match unpack a with
  | .nan => nan32
  | .inf s => if s then nan32 else inf32 false
  | .fin s n =>
    if n = 0 then zero32 s
    else if s then nan32
    else
      let x := n * one149 * 2 ^ 100
      let r := isqrt x 270 0
      round32 false (2 * r + if r * r = x then 0 else 1) (2 ^ 51)

/-- Whether an encoding is a NaN. -/
def isNan (w : Word) : Bool := unpack w == .nan

/-- Whether an encoding is finite. -/
def isFinite (w : Word) : Bool :=
  match unpack w with
  | .fin _ _ => true
  | _ => false

/-- A canonical NaN for a NaN, and any other encoding as it stands. -/
def canon (w : Word) : Word := if isNan w then nan32 else w

/-- Strict order of two values; NaN compares false, zeros are equal. -/
def lt (a b : Word) : Bool :=
  match unpack a, unpack b with
  | .nan, _ => false
  | _, .nan => false
  | .inf s, .inf t => s && !t
  | .inf s, .fin _ _ => s
  | .fin _ _, .inf t => !t
  | .fin s n, .fin t m =>
    if n = 0 && m = 0 then false
    else match s, t with
      | true, true => m < n
      | true, false => true
      | false, true => false
      | false, false => n < m

/-- Maximum under the rules of VMAX (R167). -/
def maxF (a b : Word) : Word :=
  if isNan a || isNan b then nan32
  else if lt a b then b
  else if lt b a then a
  else if signBit a then b else a

/-- Minimum under the rules of VMIN (R167). -/
def minF (a b : Word) : Word :=
  if isNan a || isNan b then nan32
  else if lt a b then a
  else if lt b a then b
  else if signBit a then a else b

/-- The FP32 value of a BF16 encoding; a NaN becomes the canonical NaN (R50). -/
def widen (h : Half) : Word := canon (h ++ 0#16)

/-- FP32 to BF16 (R50): rounded, a NaN becomes 0x7FC0. -/
def toBf (w : Word) : Half :=
  match unpack w with
  | .nan => 0x7FC0#16
  | .inf s => if s then 0xFF80#16 else 0x7F80#16
  | .fin s n => roundBf s n 1

/-- An exact value in units over a divisor, rounded once to BF16 (R167, TYPE 1). -/
def packBf (v : Val) (d : Nat) : Half :=
  match v with
  | .nan => 0x7FC0#16
  | .inf s => if s then 0xFF80#16 else 0x7F80#16
  | .fin s n => roundBf s n d

/-- INT32 to FP32 (R50). -/
def ofInt32 (w : Word) : Word :=
  let i := w.toInt
  round32 (decide (i < 0)) (i.natAbs * one149) 1

/-- FP32 to an integer, ties away from zero, saturated to the INT32 range (R50, R203). -/
def toInt32 (w : Word) : Word :=
  match unpack w with
  | .nan => 0#32
  | .inf s => if s then 0x80000000#32 else 0x7FFFFFFF#32
  | .fin s n =>
    let r := (2 * n + one149) / (2 * one149)
    if r ≥ 2 ^ 31 then (if s then 0x80000000#32 else 0x7FFFFFFF#32)
    else BitVec.ofInt 32 (if s then -(r : Int) else (r : Int))

/-- The FP32 encoding of a natural number, rounded. -/
def ofNat (n : Nat) : Word := round32 false (n * one149) 1

/-- SA × 2^k for a signed k, rounded once (R203, SCALB). -/
def scalb (a : Word) (k : Int) : Word :=
  match unpack a with
  | .nan => nan32
  | .inf s => inf32 s
  | .fin s n =>
    if n = 0 then zero32 s
    else if k ≥ 0 then
      (if k ≥ 400 then inf32 s else round32 s (n * 2 ^ k.toNat) 1)
    else if k ≤ -500 then zero32 s
    else round32 s n (2 ^ (-k).toNat)

/-! ### FP8 E4M3 -/

/-- The BF16 value of an E4M3 encoding: exponent field 0 is a zero of the sign (R44), 0x7F and 0xFF are
NaN, every other encoding is exact (R50). -/
def e4m3ToBf (b : Byte) : Half :=
  let s := b.getLsbD 7
  let e := (b.toNat / 8) % 16
  let f := b.toNat % 8
  let sg : Nat := if s then 2 ^ 15 else 0
  if e = 15 && f = 7 then 0x7FC0#16
  else if e = 0 then BitVec.ofNat 16 sg
  else BitVec.ofNat 16 (sg + (e + 120) * 128 + f * 16)

/-- What a conversion to a weight format answers: the code, and what it adds to the record of R67. -/
structure Code where
  code : Nat
  sat : Bool := false
  nan : Bool := false
  invalid : Bool := false
  deriving DecidableEq, Repr

/-- A magnitude of n/d, in ones, rounded to the E4M3 normal values (R51 step 3); n/d lies in [2^-6, 464]. -/
def e4m3Mag (n d : Nat) : Nat :=
  -- in units of 2^-9, the spacing of the lowest binade
  let n' := n * 512
  let q := Nat.log2 (n' / d) - 3
  let dq := d * 2 ^ q
  let r := (2 * n' + dq) / (2 * dq)
  min (q * 8 + r) 0x7E

/-- R51 applied to the exact quotient n/d of sign s, in ones. -/
def e4m3Of (s : Bool) (n d : Nat) : Code :=
  let sg : Nat := if s then 0x80 else 0
  if n * 64 < d then ⟨sg, false, false, false⟩
  else if n ≤ 464 * d then ⟨sg + e4m3Mag n d, false, false, false⟩
  else ⟨sg + 0x7E, true, false, false⟩

/-! ### Bell grids and QNT -/

/-- The default BG4 grid (R52). -/
def bg4 : List Half :=
  [0xBF80#16, 0xBF31#16, 0xBF05#16, 0xBEC8#16, 0xBE90#16, 0xBE3C#16, 0xBDB8#16, 0x0000#16,
   0x3DA0#16, 0x3E24#16, 0x3E7C#16, 0x3EAE#16, 0x3EE4#16, 0x3F12#16, 0x3F3C#16, 0x3F80#16]

/-- The default BG3 grid (R53). -/
def bg3 : List Half :=
  [0xBF80#16, 0xBF00#16, 0xBE60#16, 0x0000#16, 0x3E40#16, 0x3EE0#16, 0x3F38#16, 0x3F80#16]

/-- A finite value as a signed number of units; zero for a special value. -/
def signed (w : Word) : Int :=
  match unpack w with
  | .fin s n => if s then -(n : Int) else (n : Int)
  | _ => 0

/-- Whether a loaded table of levels is valid: finite, strictly increasing, exactly one zero (R55). -/
def gridValid (lv : List Half) : Bool :=
  let xs := lv.map (fun h => signed (widen h))
  lv.all (fun h => isFinite (h ++ 0#16)) &&
  (xs.zip (xs.drop 1)).all (fun p => decide (p.1 < p.2)) &&
  (xs.filter (fun x => decide (x = 0))).length == 1

/-- A valid group scale: a positive normal finite BF16 value (R60). -/
def scaleValid (s : Half) : Bool := 0x0080 ≤ s.toNat && s.toNat ≤ 0x7F7F

/-- The code of the zero level of a grid (R64). -/
def zeroCode (lv : List Half) : Nat := lv.findIdx (fun h => h == 0#16 || h == 0x8000#16)

/-- The largest index whose level does not exceed the quotient; levels are given as cross products. -/
def lastLe (x : Int) : List Int → Nat → Nat
  | [], i => i - 1
  | l :: ls, i => if l ≤ x then lastLe x ls (i + 1) else i - 1

/-- QNT of one value to a bell-grid code (R64, R65): the value is compared with exact products of the
scale with levels and midpoints. -/
def qntGrid (lv : List Half) (s : Half) (x : Word) : Code :=
  let m := lv.length
  let z := zeroCode lv
  match unpack x with
  | .nan => ⟨z, false, true, false⟩
  | .inf sg =>
    if !scaleValid s then ⟨z, false, false, true⟩
    else if sg then ⟨0, true, false, false⟩ else ⟨m - 1, true, false, false⟩
  | .fin _ _ =>
    if !scaleValid s then ⟨z, false, false, true⟩
    else
      let xs := lv.map (fun h => signed (widen h))
      let at' (i : Nat) : Int := xs.getD i 0
      let sc : Int := signed (widen s)
      -- twice the value against twice a level: y ⋛ t is x * 2^149 ⋛ t * s
      let x2 : Int := 2 * signed x * (one149 : Int)
      let top := (3 * at' (m - 1) - at' (m - 2)) * sc
      let bot := (3 * at' 0 - at' 1) * sc
      if x2 > top then ⟨m - 1, true, false, false⟩
      else if x2 < bot then ⟨0, true, false, false⟩
      else if x2 ≥ 2 * at' (m - 1) * sc then ⟨m - 1, false, false, false⟩
      else if x2 ≤ 2 * at' 0 * sc then ⟨0, false, false, false⟩
      else
        let i := lastLe x2 (xs.map (fun l => 2 * l * sc)) 0
        if x2 = 2 * at' i * sc then ⟨i, false, false, false⟩
        else
          let mid := (at' i + at' (i + 1)) * sc
          if x2 > mid then ⟨i + 1, false, false, false⟩
          else if x2 < mid then ⟨i, false, false, false⟩
          else if (at' (i + 1)).natAbs > (at' i).natAbs then ⟨i + 1, false, false, false⟩
          else ⟨i, false, false, false⟩

/-- QNT of one value in E4M3 mode: R51 on the exact quotient, with the special cases of R66. -/
def qntE4 (s : Half) (x : Word) : Code :=
  match unpack x with
  | .nan => ⟨0x7F, false, true, false⟩
  | .inf sg =>
    if !scaleValid s then ⟨0, false, false, true⟩
    else ⟨if sg then 0xFE else 0x7E, true, false, false⟩
  | .fin sg n =>
    if !scaleValid s then ⟨0, false, false, true⟩
    else e4m3Of sg n (signed (widen s)).natAbs

/-- The derived scale of a group (R63): the largest finite magnitude over the larger end level, rounded
once to BF16 and held in the valid range. -/
def derivedScale (lv : Option (List Half)) (xs : List Word) : Half :=
  let a := xs.foldl (fun m x => max m (signed x).natAbs) 0
  let t : Nat :=
    match lv with
    | none => 448 * one149
    | some l =>
      max (signed (widen (l.getD 0 0))).natAbs (signed (widen (l.getD (l.length - 1) 0))).natAbs
  if a = 0 then 0x3F80#16
  else
    let c := (roundBf false (a * one149) t).toNat
    if c < 0x0080 then 0x0080#16 else if c ≥ 0x7F80 then 0x7F7F#16 else BitVec.ofNat 16 c

/-! ### Compensated pairs -/

/-- A compensated pair read as one FP32 value (R71, R296). -/
def pairValue (v e : Word) : Word := add v e

/-- The compensated update of one lane (R295): the new value and its compensation. -/
def sstepComp (a v e u : Word) : Word × Word :=
  let r0 := fma a v u
  if !isFinite r0 then (r0, 0#32)
  else
    let p := mul a v
    let pe := fma a v (neg p)
    let q := mul a e
    let s := add p u
    let z := sub s p
    let se := add (sub p (sub s z)) (sub u z)
    let corr := add (add pe q) se
    let v1 := add s corr
    if !isFinite v1 then (v1, 0#32)
    else
      let z1 := sub v1 s
      let e1 := add (sub s (sub v1 z1)) (sub corr z1)
      (v1, e1)

/-- A running FP32 sum in ascending order that starts at the first value (R80, R168). -/
def foldSum : List Word → Word
  | [] => 0#32
  | x :: xs => xs.foldl add (canon x)

end Sys2Proof.Machine.Float
end

