-- ==== Sys2Proof/Machine/CapPipe.lean ====
section
/-! DEFINITION. The image pipeline (R486, R487, R492 to R496) and its statistics (R509): functions of one frame's raw data, a
parameter set and the reference. -/

namespace Sys2Proof.Machine.Pipe

/-- An FP32 value of a parameter set. -/
def f32 (ps : List Byte) (off : Nat) : Word := BitVec.ofNat 32 (field ps off 4)

/-- A BF16 value of a parameter set, widened. -/
def bf (ps : List Byte) (off : Nat) : Word := Float.widen (BitVec.ofNat 16 (field ps off 2))

/-- Grid dimensions. -/
def gx (ps : List Byte) : Nat := field ps 0x70 1
def gy (ps : List Byte) : Nat := field ps 0x71 1

/-- Offset of a lens-shading gain. -/
def gainOff (ps : List Byte) (q j i : Nat) : Nat := 0x700 + 2 * ((q * gy ps + j) * gx ps + i)

/-- The lowest offset at which a set is invalid (R487). -/
def setBad (ps : List Byte) : Option Nat :=
  let fin (o : Nat) : Bool := Float.isFinite (f32 ps o)
  let nonNeg (o : Nat) : Bool := fin o && !Float.lt (f32 ps o) 0#32
  let finB (o : Nat) : Bool := Float.isFinite (bf ps o)
  let words := ((List.range 28).map (fun i => 4 * i)).find? (fun o =>
    if o < 0xC then !nonNeg o else if o = 0xC then !nonNeg o || Float.lt 0x3F800000#32 (f32 ps o) else !fin o)
  let dim (o : Nat) : Option Nat := if 2 ≤ field ps o 1 ∧ field ps o 1 ≤ 65 then none else some o
  let zeros (a n : Nat) : Option Nat := ((List.range n).map (fun i => a + i)).find? (fun o => ps.getD o 0 != 0#8)
  let tone := ((List.range 771).map (fun i => 0x80 + 2 * i)).find? (fun o => !finB o)
  let n := 4 * gx ps * gy ps
  let gains := ((List.range n).map (fun i => 0x700 + 2 * i)).find? (fun o => !(finB o && Float.lt 0#32 (bf ps o)))
  [words, dim 0x70, dim 0x71, zeros 0x72 14, tone, zeros 0x686 122, gains, zeros (0x700 + 2 * n) (0x9000 - 0x700 - 2 * n)].findSome? id

/-- One frame's dimensions and colour layout. -/
structure Geo where
  w : Nat
  h : Nat
  cfa : Nat
  deriving DecidableEq, Repr

/-- A picture as rows of values. -/
abbrev Pic := Array (Array Word)

/-- A pixel. -/
def px (p : Pic) (y x : Nat) : Word := (p.getD y #[]).getD x 0

/-- Build a picture. -/
def mk (g : Geo) (f : Nat → Nat → Word) : Pic :=
  ((List.range g.h).map (fun y => ((List.range g.w).map (fun x => f y x)).toArray)).toArray

/-- Mirror an index into [0, n), keeping its parity (R493). -/
def mirror (i : Int) (n : Nat) : Nat := if i < 0 then (-i).toNat else if i < n then i.toNat else (2 * ((n : Int) - 1) - i).toNat

/-- A pixel at an offset, mirrored. -/
def near (g : Geo) (p : Pic) (y x : Nat) (dy dx : Int) : Word := px p (mirror (y + dy) g.h) (mirror (x + dx) g.w)

/-- CFA position of a pixel (R484). -/
def cfaPos (y x : Nat) : Nat := 2 * (y % 2) + x % 2

/-- Colour at a CFA position: 0 R, 1 G, 2 B (R484). -/
def colorAt (cfa q : Nat) : Nat :=
  let t : List (List Nat) := [[0, 1, 1, 2], [1, 0, 2, 1], [1, 2, 0, 1], [2, 1, 1, 0]]
  (t.getD (cfa % 4) []).getD q 0

/-- Colour of a pixel. -/
def color (g : Geo) (y x : Nat) : Nat := colorAt g.cfa (cfaPos y x)

/-- The squared threshold of the noise model at a pixel (R493 stage 1). -/
def noise (ps : List Byte) (q : Nat) (r : Word) : Word :=
  let sg := Float.add (f32 ps 0) (Float.mul (f32 ps 4) (Float.maxF (Float.sub r (f32 ps (0x10 + 4 * q))) 0#32))
  Float.mul (Float.mul (f32 ps 8) (f32 ps 8)) sg

/-- rnd(d * d) <= th; false for a NaN. -/
def within (d th : Word) : Bool :=
  let dd := Float.mul d d
  !Float.isNan dd && !Float.isNan th && !Float.lt th dd

/-- Stage 1 at one pixel: the spatial mean of the neighbours within the threshold, then the reference (R493). -/
def denoise (g : Geo) (ps : List Byte) (raw : Pic) (ref : Option Pic) (y x : Nat) : Word :=
  let r := px raw y x
  let th := noise ps (cfaPos y x) r
  let at_ : List (Int × Int) := [-2, 0, 2].flatMap (fun dy => [-2, 0, 2].map (fun dx => (dy, dx)))
  let vs := (at_.map (fun o => near g raw y x o.1 o.2)).filter (fun v => within (Float.sub v r) th)
  let s := Float.div (vs.foldl Float.add 0#32) (Float.ofNat vs.length)
  match ref with
  | none => s
  | some p =>
    let d := Float.sub (px p y x) s
    if within d th then Float.fma (f32 ps 0xC) d s else s

/-- The floor of a value that is not negative. -/
def floorNat (w : Word) : Nat := match Float.unpack w with
  | .fin _ n => n / Float.one149
  | _ => 0

/-- Lens-shading gain at a pixel (R493 stage 3). -/
def shade (g : Geo) (ps : List Byte) (q y x : Nat) : Word :=
  let u := Float.div (Float.ofNat (x * (gx ps - 1))) (Float.ofNat (g.w - 1))
  let w := Float.div (Float.ofNat (y * (gy ps - 1))) (Float.ofNat (g.h - 1))
  let i := min (floorNat u) (gx ps - 2)
  let j := min (floorNat w) (gy ps - 2)
  let fu := Float.sub u (Float.ofNat i)
  let fw := Float.sub w (Float.ofNat j)
  let gn (b a : Nat) : Word := bf ps (gainOff ps q b a)
  let g0 := Float.fma fu (Float.sub (gn j (i + 1)) (gn j i)) (gn j i)
  let g1 := Float.fma fu (Float.sub (gn (j + 1) (i + 1)) (gn (j + 1) i)) (gn (j + 1) i)
  Float.fma fw (Float.sub g1 g0) g0

/-- Stages 2 to 4 at one pixel (R493). -/
def level (g : Geo) (ps : List Byte) (lsc : Bool) (y x : Nat) (a : Word) : Word :=
  let q := cfaPos y x
  let b := Float.mul (Float.sub a (f32 ps (0x10 + 4 * q))) (f32 ps (0x20 + 4 * q))
  let c := if lsc then Float.mul b (shade g ps q y x) else b
  Float.mul c (f32 ps (0x30 + 4 * q))

/-- A kernel: offsets with weights, in raster order (R494). -/
abbrev Kernel := List (Int × Int × Word)

def w2 : Word := 0x40000000#32
def w4 : Word := 0x40800000#32
def w5 : Word := 0x40A00000#32
def w6 : Word := 0x40C00000#32
def wHalf : Word := 0x3F000000#32
def wNeg1 : Word := 0xBF800000#32
def wNeg15 : Word := 0xBFC00000#32

/-- G at an R or B site. -/
def kGreen (grad : Bool) : Kernel :=
  if grad then [(-2, 0, wNeg1), (-1, 0, w2), (0, -2, wNeg1), (0, -1, w2), (0, 0, w4), (0, 1, w2), (0, 2, wNeg1), (1, 0, w2), (2, 0, wNeg1)]
  else [(-1, 0, w2), (0, -1, w2), (0, 1, w2), (1, 0, w2)]

/-- The colour of the row, at a G site. -/
def kRow (grad : Bool) : Kernel :=
  if grad then
    [(-2, 0, wHalf), (-1, -1, wNeg1), (-1, 1, wNeg1), (0, -2, wNeg1), (0, -1, w4), (0, 0, w5), (0, 1, w4), (0, 2, wNeg1),
     (1, -1, wNeg1), (1, 1, wNeg1), (2, 0, wHalf)]
  else [(0, -1, w4), (0, 1, w4)]

/-- The colour of the column, at a G site. -/
def kCol (grad : Bool) : Kernel :=
  if grad then
    [(-2, 0, wNeg1), (-1, -1, wNeg1), (-1, 0, w4), (-1, 1, wNeg1), (0, -2, wHalf), (0, 0, w5), (0, 2, wHalf),
     (1, -1, wNeg1), (1, 0, w4), (1, 1, wNeg1), (2, 0, wNeg1)]
  else [(-1, 0, w4), (1, 0, w4)]

/-- R at a B site, B at an R site. -/
def kDiag (grad : Bool) : Kernel :=
  if grad then
    [(-2, 0, wNeg15), (-1, -1, w2), (-1, 1, w2), (0, -2, wNeg15), (0, 0, w6), (0, 2, wNeg15), (1, -1, w2), (1, 1, w2), (2, 0, wNeg15)]
  else [(-1, -1, w2), (-1, 1, w2), (1, -1, w2), (1, 1, w2)]

/-- Apply a kernel at a pixel. -/
def convolve (g : Geo) (p : Pic) (y x : Nat) (k : Kernel) : Word :=
  Float.mul (k.foldl (fun acc e => Float.add acc (Float.mul e.2.2 (near g p y x e.1 e.2.1))) 0#32) 0x3E000000#32

/-- Stage 5: colour c of a pixel from stage-4 values. -/
def demosaic (g : Geo) (grad : Bool) (p : Pic) (y x c : Nat) : Word :=
  let own := color g y x
  if own = c then px p y x
  else if c = 1 then convolve g p y x (kGreen grad)
  else if own = 1 then
    let inRow := color g y (x + 1) == c
    convolve g p y x (if inRow then kRow grad else kCol grad)
  else convolve g p y x (kDiag grad)

/-- Clamp to [+0, 1.0]; a NaN gives +0 (R495). -/
def clamp01 (w : Word) : Word := if Float.lt 0#32 w then (if Float.lt 0x3F800000#32 w then 0x3F800000#32 else w) else 0#32

/-- Stages 6 and 7: output k of a pixel (R495). -/
def tone (ps : List Byte) (c0 c1 c2 : Word) (k : Nat) : Word :=
  let m (j : Nat) : Word := f32 ps (0x40 + 4 * (3 * k + j))
  let o := clamp01 (Float.add (Float.fma (m 2) c2 (Float.fma (m 1) c1 (Float.mul (m 0) c0))) (f32 ps (0x64 + 4 * k)))
  let t := Float.mul o 0x43800000#32
  let i := min (floorNat t) 255
  let f := Float.sub t (Float.ofNat i)
  let tk (j : Nat) : Word := bf ps (0x80 + 514 * k + 2 * j)
  Float.fma f (Float.sub (tk (i + 1)) (tk i)) (tk i)

/-- What a frame gives: the stage-1 result, the stage-4 values, and the output planes in BF16. -/
structure Res where
  s1 : Pic
  s4 : Pic
  planes : List (List Half)
  deriving DecidableEq, Repr

/-- The pipeline on one frame (R492). -/
def run (c : CapCfg) (ps : List Byte) (lines : List (List Nat)) (ref : Option Pic) : Res :=
  let g : Geo := { w := c.width, h := c.height, cfa := c.cfa }
  let raw : Pic := (lines.map (fun l => (l.map Float.ofNat).toArray)).toArray
  let s1 := if c.nrEn then mk g (denoise g ps raw ref) else raw
  let s4 := mk g (fun y x => level g ps c.lscEn y x (px s1 y x))
  let rows (f : Nat → Nat → Word) : List Half :=
    (List.range g.h).flatMap (fun y => (List.range g.w).map (fun x => Float.toBf (f y x)))
  let planes := if c.cfaOut then [rows (px s4)]
    else
      let rgb := (List.range 3).map (fun k => mk g (fun y x => demosaic g c.gradient s4 y x k))
      let ch (k : Nat) : Pic := rgb.getD k #[]
      (List.range 3).map (fun k => rows (fun y x => tone ps (px (ch 0) y x) (px (ch 1) y x) (px (ch 2) y x) k))
  { s1 := s1, s4 := s4, planes := planes }

/-! ### Statistics (R509) -/

/-- Bin of a value. A negative value or a NaN has no bin in R509: a free value chooses one, or none
(notes/assumptions/2.md). -/
def bin (free : Nat) (v : Word) : Nat :=
  if Float.isNan v ∨ Float.lt v 0#32 then (Config.freeWord free).toNat % 257
  else if Float.lt 0x3F800000#32 v then 255
  else min (floorNat (Float.mul v 0x43800000#32)) 255

/-- A histogram of values; the free value of place i has number base + i. -/
def histogram (base : Nat) (vs : List Word) : List Nat :=
  let bins := (vs.zipIdx).map (fun e => bin (base + e.2) e.1)
  (List.range 256).map (fun b => bins.count b)

/-- The four histograms: R, G, B, Y. -/
def histograms (base : Nat) (planes : List (List Half)) : List (List Nat) :=
  let wide := planes.map (fun p => p.map Float.widen)
  let r := wide.getD 0 []
  let gr := wide.getD 1 []
  let b := wide.getD 2 []
  let n := r.length
  let y := (r.zip (gr.zip b)).map (fun e => Float.fma 0x3E800000#32 e.2.2 (Float.fma 0x3F000000#32 e.2.1 (Float.mul 0x3E800000#32 e.1)))
  [histogram base r, histogram (base + n) gr, histogram (base + 2 * n) b, histogram (base + 3 * n) y]

/-- Rows or columns of a zone: first and number. -/
def zone (z n : Nat) : Nat × Nat := (z * n / 16, (z + 1) * n / 16 - z * n / 16)

/-- Pixels of a zone in raster order. -/
def zonePixels (g : Geo) (zy zx : Nat) : List (Nat × Nat) :=
  let (y0, ny) := zone zy g.h
  let (x0, nx) := zone zx g.w
  (List.range ny).flatMap (fun i => (List.range nx).map (fun j => (y0 + i, x0 + j)))

/-- Zone means: R, G, B of each zone. A zone without a site of a colour has no mean in R509: a free value. -/
def zoneMeans (base : Nat) (g : Geo) (s4 : Pic) : List Word :=
  (List.range 256).flatMap (fun z =>
    let ps := zonePixels g (z / 16) (z % 16)
    (List.range 3).map (fun c =>
      let vs := (ps.filter (fun p => color g p.1 p.2 == c)).map (fun p => px s4 p.1 p.2)
      if vs.isEmpty then Config.freeWord (base + 3 * z + c) else Float.div (vs.foldl Float.add 0#32) (Float.ofNat vs.length)))

/-- Focus of each zone. -/
def focus (g : Geo) (s4 : Pic) : List Word :=
  (List.range 256).map (fun z =>
    let (x0, nx) := zone (z % 16) g.w
    let ps := (zonePixels g (z / 16) (z % 16)).filter (fun p => color g p.1 p.2 == 1 && decide (p.2 + 2 < x0 + nx))
    (ps.map (fun p => (Float.sub (px s4 p.1 (p.2 + 2)) (px s4 p.1 p.2)) &&& 0x7FFFFFFF#32)).foldl Float.add 0#32)

/-- The statistics part of a record, and how many free values it may have used. -/
def statistics (base : Nat) (c : CapCfg) (r : Res) : List Byte × Nat :=
  let g : Geo := { w := c.width, h := c.height, cfa := c.cfa }
  let n := 4 * c.width * c.height
  let hs := if c.cfaOut then List.replicate 4 (List.replicate 256 0) else histograms base r.planes
  ((hs.flatMap (fun h => h.flatMap (leBytes 4))) ++ (zoneMeans (base + n) g r.s4).flatMap (fun w => leBytes 4 w.toNat) ++
    (focus g r.s4).flatMap (fun w => leBytes 4 w.toNat), n + 768)

end Sys2Proof.Machine.Pipe
end

