-- ==== Sys2Proof/Machine/Operands.lean ====
section
/-! DEFINITION. Operand forms of tile instructions (R155 to R158): field access, the check that unused fields are
zero, effective addresses and stream operands. -/

namespace Sys2Proof.Machine.Cu

/-- The fields below the opcode of an instruction word (R155). -/
def wordOf (d : Dword) : TileWord :=
  { f1 := d.extractLsb' 52 4, f2 := d.extractLsb' 48 4, f3 := d.extractLsb' 44 4, f4 := d.extractLsb' 40 4,
    md := d.extractLsb' 32 8, imm := d.extractLsb' 0 32 }

/-- The opcode of an instruction word (R155). -/
def opcOf (d : Dword) : BitVec 8 := d.extractLsb' 56 8

/-- The instructions of each class of opcodes, the high nibble, in the order of the low nibble (R159, R161, R164, R166, R167, R171
to R175). -/
def tileClass (cls : Nat) : List (TileOp → Instr) :=
  match cls with
  | 0x0 => [.tNop, .tEnd, .tJmp, .tBr, .tLoop, .tTrap]
  | 0x1 => [.tMovi, .tAdd, .tAddi, .tSub, .tMul, .tAnd, .tOr, .tShl, .tShr, .tLdx, .tStx, .tRdc]
  | 0x2 => [.tLds, .tSwp]
  | 0x3 => [.tPass, .tTpass]
  | 0x4 => [.tFlush, .tAclr]
  | 0x5 => [.tVld, .tVst, .tVlda, .tVsta, .tVadd, .tVsub, .tVmul, .tVfma, .tVmax, .tVmin, .tVcvt, .tVsplit, .tVred, .tQnt]
  | 0x6 => [.tSfn, .tStbl, .tSmp, .tSrow, .tSsmx]
  | 0x7 => [.tStld, .tStst, .tSstep, .tSout]
  | 0x8 => [.tDmaq]
  | 0x9 => [.tNbx]
  | 0xA => [.tWait, .tCset, .tFence, .tBar, .tEvt]
  | _ => []

/-- The instruction that a 64-bit word spells, as the command that issues it on a core (R155); none for an opcode that chapter 5
does not list (R156). -/
def tileInstr (core : CorePos) (hw : HwEvent) (d : Dword) : Option Instr :=
  ((tileClass ((opcOf d).toNat / 16))[(opcOf d).toNat % 16]?).map (fun f => f { core := core, w := wordOf d, hw := hw })

/-- Whether an opcode is listed (R156). -/
def opcListed (o : BitVec 8) : Bool := decide (o.toNat % 16 < (tileClass (o.toNat / 16)).length)

/-- Whether the word that the sequencer fetches at its PC has a listed opcode (R151, R156). -/
def fetchListed (c : Core) : Bool := opcListed (opcOf (SMap.get 0#64 c.mem.prog c.seq.pc))

/-- Bits [hi:lo] of the immediate. -/
def immBits (w : TileWord) (hi lo : Nat) : Nat := bitsOf w.imm.toNat hi lo

/-- Bits [hi:lo] of the modifiers. -/
def modBits (w : TileWord) (hi lo : Nat) : Nat := bitsOf w.md.toNat hi lo

/-- Whether every field an instruction does not use is zero (R155, R156): which register fields it uses, and the
bits of MOD and IMM it uses. -/
def usesOnly (w : TileWord) (u1 u2 u3 u4 : Bool) (md : BitVec 8) (imm : BitVec 32) : Bool :=
  (u1 || w.f1 == 0) && (u2 || w.f2 == 0) && (u3 || w.f3 == 0) && (u4 || w.f4 == 0) &&
  (w.md &&& ~~~md) == 0 && (w.imm &&& ~~~imm) == 0

/-- The check of R156 in front of an instruction: a reserved bit or value raises ILLEGAL at issue. -/
def legal (ok : Bool) (unit : Nat) (k : Res) : Res := if ok then k else .fault fIllegal unit 0

/-- X[Fi] plus an immediate offset, as an unbounded value (R157). -/
def ea (c : Core) (i : BitVec 4) (off : Nat) : Nat := (x c i).toNat + off

/-- A stream operand that passes R158: its base line and Ms. -/
def stream (w : Word) : Option (Nat × Nat) :=
  let b := bitsOf w.toNat 13 0
  let ms := bitsOf w.toNat 28 16
  if bitsOf w.toNat 15 14 ≠ 0 ∨ bitsOf w.toNat 31 29 ≠ 0 ∨ ms = 0 ∨ ms > 4096 ∨ b + ms > 16384 then none
  else some (b, ms)

/-- The range and alignment check of a SPAD access of n bytes: SPAD_RANGE with the offending offset (R167, R172). -/
def spadRange (off n align unit : Nat) (k : Res) : Res :=
  if off % align ≠ 0 ∨ off + n > spadBytes then .fault fSpadRange unit off else k

end Sys2Proof.Machine.Cu
end

