-- ==== Sys2Proof/Machine/Scalar.lean ====
section
/-! DEFINITION. Control and scalar tile instructions (R159 to R162) and the counters they read (R154). -/

namespace Sys2Proof.Machine.Cu

/-- NOP (R159). -/
def nop (c : Core) (w : TileWord) : Res :=
  legal (usesOnly w false false false false 0 0) uSeq (next c)

/-- JMP (R159). -/
def jmp (c : Core) (w : TileWord) : Res :=
  legal (usesOnly w false false false false 0 0x1FFF#32) uSeq (.done (jump c (immBits w 12 0)))

/-- The condition of BR on two scalar values (R159). -/
def brTaken (cond : Nat) (a b : Word) : Bool :=
  match cond with
  | 0 => a == b
  | 1 => a != b
  | 2 => decide (a.toNat < b.toNat)
  | 3 => decide (b.toNat ≤ a.toNat)
  | 4 => decide (a.toInt < b.toInt)
  | _ => decide (b.toInt ≤ a.toInt)

/-- BR (R159). Conditions 6 and 7 are reserved. -/
def br (c : Core) (w : TileWord) : Res :=
  legal (usesOnly w false true true false 0x07#8 0x1FFF#32 && decide (modBits w 2 0 ≤ 5)) uSeq
    (if brTaken (modBits w 2 0) (x c w.f2) (x c w.f3) then .done (jump c (immBits w 12 0)) else next c)

/-- LOOP (R159, R160): the counter takes the count, and a count of zero skips to the word after the end address. -/
def loop (c : Core) (w : TileWord) : Res :=
  let last := immBits w 12 0
  let ctr := modBits w 1 0
  let n := x c w.f2 + BitVec.ofNat 32 (immBits w 31 16)
  let outer := match c.seq.loops with
    | l :: _ => decide (last > l.last)
    | [] => false
  legal (usesOnly w false true false false 0x03#8 0xFFFF1FFF#32) uSeq
    (if last ≤ c.seq.pc ∨ outer = true ∨ c.seq.loops.any (fun l => l.ctr == ctr) = true then .fault fLoopNest uSeq 0
     else if n = 0 then continueFrom { c with seq := { c.seq with lc := SMap.set 0#32 c.seq.lc ctr n } } last
     else .done { c with seq := { c.seq with
        pc := c.seq.pc + 1
        lc := SMap.set 0#32 c.seq.lc ctr n
        loops := { ctr := ctr, first := c.seq.pc + 1, last := last } :: c.seq.loops } })

/-- TRAP (R159): program fault USER with the code as argument. -/
def trap (_c : Core) (w : TileWord) : Res :=
  legal (usesOnly w false false false false 0 0xFFFF#32) uSeq (.fault fUser uSeq (immBits w 15 0))

/-- A scalar instruction that writes X[F1] and goes on (R161). -/
def writeX (c : Core) (w : TileWord) (r : Word) : Res := next (setX c w.f1 r)

/-- MOVI (R161). -/
def movi (c : Core) (w : TileWord) : Res :=
  legal (usesOnly w true false false false 0 0xFFFFFFFF#32) uSeq (writeX c w w.imm)

/-- ADD (R161). -/
def add (c : Core) (w : TileWord) : Res :=
  legal (usesOnly w true true true false 0 0) uSeq (writeX c w (x c w.f2 + x c w.f3))

/-- ADDI (R161). -/
def addi (c : Core) (w : TileWord) : Res :=
  legal (usesOnly w true true false false 0 0xFFFFFFFF#32) uSeq (writeX c w (x c w.f2 + w.imm))

/-- SUB (R161). -/
def sub (c : Core) (w : TileWord) : Res :=
  legal (usesOnly w true true true false 0 0) uSeq (writeX c w (x c w.f2 - x c w.f3))

/-- MUL (R161): the low 32 bits. -/
def mul (c : Core) (w : TileWord) : Res :=
  legal (usesOnly w true true true false 0 0) uSeq (writeX c w (x c w.f2 * x c w.f3))

/-- AND (R161). -/
def and (c : Core) (w : TileWord) : Res :=
  legal (usesOnly w true true true false 0 0) uSeq (writeX c w (x c w.f2 &&& x c w.f3))

/-- OR (R161). -/
def or (c : Core) (w : TileWord) : Res :=
  legal (usesOnly w true true true false 0 0) uSeq (writeX c w (x c w.f2 ||| x c w.f3))

/-- The shift count of SHL and SHR (R161): IMM[4:0] when MOD[0] is set, else X[F3][4:0]. -/
def shiftCount (c : Core) (w : TileWord) : Nat :=
  if modBits w 0 0 = 1 then immBits w 4 0 else bitsOf (x c w.f3).toNat 4 0

/-- The fields SHL and SHR use: the one that does not give the count is reserved (R155, R161). -/
def shiftUses (w : TileWord) : Bool :=
  if modBits w 0 0 = 1 then usesOnly w true true false false 0x01#8 0x1F#32
  else usesOnly w true true true false 0x01#8 0

/-- SHL (R161). -/
def shl (c : Core) (w : TileWord) : Res :=
  legal (shiftUses w) uSeq (writeX c w (x c w.f2 <<< shiftCount c w))

/-- SHR (R161): logical. -/
def shr (c : Core) (w : TileWord) : Res :=
  legal (shiftUses w) uSeq (writeX c w (x c w.f2 >>> shiftCount c w))

/-- LDX (R121, R161): a narrow read of the 32-byte part that holds one SPAD word. -/
def ldx (c : Core) (w : TileWord) : Res :=
  let off := ea c w.f2 (immBits w 21 0)
  legal (usesOnly w true true false false 0 0x3FFFFF#32) uVector
    (spadRange off 4 4 uVector
      (withAccess c off 4 uVector
        (let r := narrowReads c (off / 32 * 32) 1
         next (setX r.2 w.f1 (BitVec.ofNat 32 (field r.1 (off % 32) 4))))))

/-- STX (R161): a narrow write of one SPAD word. -/
def stx (c : Core) (w : TileWord) : Res :=
  let off := ea c w.f2 (immBits w 21 0)
  legal (usesOnly w false true true false 0 0x3FFFFF#32) uVector
    (spadRange off 4 4 uVector
      (withAccess c off 4 uVector (next (narrowWrite c off (leBytes 4 (x c w.f3).toNat)))))

/-- A counter by its index (R154): SEM 0 to 15, ARV 16 to 19, SNT 20 to 23. -/
def counter (c : Core) (i : Nat) : BitVec 16 :=
  if i < 16 then SMap.get 0#16 c.seq.sem i
  else if i < 20 then SMap.get 0#16 c.seq.arv (i - 16)
  else SMap.get 0#16 c.seq.snt (i - 20)

/-- Write a SEM counter. -/
def setSem (c : Core) (i : Nat) (n : BitVec 16) : Core :=
  { c with seq := { c.seq with sem := SMap.set 0#16 c.seq.sem i n } }

/-- A completion increments a SEM counter (R138, R154). -/
def incSem (c : Core) (i : Nat) : Core := setSem c i (SMap.get 0#16 c.seq.sem i + 1)

/-- RDC (R161, R162). The logical position is supplied by the die marshal's map; source 34 counts core cycles, which
the manual fixes only in time, so it is a free value (notes/assumptions/2.md). -/
def rdc (pos : Nat) (free : Word) (c : Core) (w : TileWord) : Res :=
  let s := modBits w 5 0
  let r : Word :=
    if s < 24 then (counter c s).setWidth 32
    else if s = 32 then BitVec.ofNat 32 pos
    else if s = 33 then
      match c.seq.loops with
      | l :: _ => SMap.get 0#32 c.seq.lc l.ctr
      | [] => 0
    else free
  legal (usesOnly w true false false false 0x3F#8 0 && decide (s < 24 ∨ s = 32 ∨ s = 33 ∨ s = 34)) uSeq (writeX c w r)

end Sys2Proof.Machine.Cu
end

