-- ==== Sys2Proof/Machine/CoreCtl.lean ====
section
/-! DEFINITION. What the die marshal does to one core: bank power (R116, R117), clearing and zeroing (R114, R115, R118,
R143), GO (R152, R196, R292, R642), core reset (R686), the end of a program, and the abandoning of its work (R182). -/

namespace Sys2Proof.Machine.Cu

/-- The lines of a bank become never-written and their contents are lost (R114, R117). -/
def loseBank (c : Core) (b : Nat) : Core :=
  { c with mem := { c.mem with
      spad := Memory.zero c.mem.spad (b * 0x40000) 0x40000
      spadWritten := SMap.clearRange c.mem.spadWritten (b * 1024) 1024
      spadSelf := SMap.clearRange c.mem.spadSelf (b * 1024) 1024 } }

/-- A bank powers down: the gather-buffer entries of its lines are flushed, and it enters OFF (R117, R120). -/
def powerOff (c : Core) (b : Nat) : Core :=
  setBank (loseBank (flushWhere c (fun l => decide (l / 1024 = b))) b) b .off

/-- BANK_PWR takes a value: OFF banks whose bit is set start to wake (R116). ON banks whose bit is clear power down at
BANK_POWER_OFF. -/
def setBankPwr (c : Core) (mask : BitVec 16) : Core :=
  let c1 := { c with regs := { c.regs with bankPwr := mask, bankPwrNext := none } }
  (List.range 16).foldl (fun d b => if mask.getLsbD b && bank d b == .off then setBank d b .waking else d) c1

/-- A write of BANK_PWR: while a program runs it has its effect when the program ends (R117). -/
def writeBankPwr (c : Core) (mask : BitVec 16) : Core :=
  if c.seq.state = .idle then setBankPwr c mask
  else { c with regs := { c.regs with bankPwrNext := some mask } }

/-- 64 core cycles after its bit was set, a waking bank is scrubbed (R116). -/
def wakeEnd (c : Core) (b : Nat) : Core := if bank c b = .waking then setBank c b .scrub else c

/-- A bank's scrub ends: it is ON, its lines zero and never-written (R114, R116). -/
def scrubEnd (c : Core) (b : Nat) : Core := if bank c b = .scrub then setBank (loseBank c b) b .on else c

/-- A bank whose power bit is clear completes its power-down (R117). -/
def bankPowerOff (c : Core) (b : Nat) : Core :=
  if bank c b = .on && !c.regs.bankPwr.getLsbD b then powerOff c b else c

/-- The die marshal sets the banks of the next program between tile programs: banks outside the mask are off before it
starts (R116, R117, R235). -/
def powerTo (c : Core) (mask : BitVec 16) : Core :=
  let c1 := (List.range 16).foldl (fun d b => if mask.getLsbD b || bank d b == .off then d else powerOff d b) c
  setBankPwr c1 mask

/-- CLR_WRITTEN: every written bit is cleared and the array's stationary content is emptied (R87, R114, R143). -/
def clrWritten (c : Core) : Core :=
  emptyArray { c with mem := { c.mem with spadWritten := [], spadSelf := [], accWritten := [], accSelf := [] } }

/-- ZERO_ALL (R87, R114, R118, R292): every line of every ON bank, every accumulator row and the state file are zero, no
bit is set, the gather buffer is discarded and the array is empty. -/
def zeroAll (c : Core) : Core :=
  let c1 := emptyArray c
  { c1 with
    mem := { c1.mem with
      spad := [], spadWritten := [], spadSelf := [], acc := [], accWritten := [], accSelf := [], stateFile := [],
      stateLoaded := [], gb := [] }
    regs := { c1.regs with zeroing := true } }

/-- Every segment of the state file becomes unloaded (R115, R292). -/
def clearSegs (c : Core) : Core := { c with mem := { c.mem with stateLoaded := [] } }

/-- The core serves a confidential context, or no longer does (R146). -/
def serveConf (c : Core) (b : Bool) : Core := { c with run := { c.run with confidential := b } }

/-- Zeroing has ended (R118). -/
def zeroingDone (c : Core) : Core := { c with regs := { c.regs with zeroing := false } }

/-- CLR_RBW clears RBW_COUNT and STATE_RBW (R143, R311). -/
def clrRbw (c : Core) : Core := { c with regs := { c.regs with spadRbw := 0, accRbw := 0, stateRbw := 0 } }

/-- CLR_STAT clears the counts of CORE_STAT (R143). -/
def clrStat (c : Core) : Core := { c with regs := { c.regs with nbParErr := 0, eccCorr := 0, eccUncorr := 0 } }

/-- CLR_CHECK clears the counts of ARR_CHECK (R104, R105). -/
def clrCheck (c : Core) : Core := { c with arr := { c.arr with csSkip := 0, csMismatch := 0, resMismatch := 0 } }

/-- A program has ended: a held write of BANK_PWR has its effect (R117). -/
def programEnded (c : Core) : Core :=
  match c.regs.bankPwrNext with
  | none => c
  | some m => setBankPwr c m

/-- The sequencer leaves its dispatch and every unit abandons queued and in-flight work; gather-buffer entries are
discarded with the dispatch's outputs (R123, R182 step 2, R437, R470). -/
def abandon (c : Core) : Core :=
  programEnded { c with
    seq := { c.seq with state := .idle, loops := [], atBar := none }
    mem := { c.mem with gb := [] }
    arr := { c.arr with loading := none, flights := [], token := none }
    dma0 := c.dma0.dropWork
    dma1 := c.dma1.dropWork
    ports := c.ports.map (fun p => (p.1, { p.2 with outbound := [] }))
    run := { c.run with qstat := [], spanWaits := [], frozen := false, hit := false, replay := ReplayRec.none } }

/-- GO (R152): the state of a dispatch before its first fetch. Slots and segments become empty (R196, R292), self-written
bits are cleared, and the counts of the dispatch start (R642). SEQ_FAULT_ARG is cleared with SEQ_FAULT (R188; DESIGN CHOICE,
notes/assumptions/33.md). -/
def go (c : Core) (entry : Nat) : Core :=
  if c.seq.state ≠ .idle ∨ c.regs.zeroing then c
  else
    let c1 := emptyArray c
    { c1 with
      seq := { c1.seq with
        state := .running
        pc := entry
        x := c1.seq.args
        v := []
        lc := []
        loops := []
        sem := []
        faultCode := 0
        faultUnit := 0
        faultPc := 0
        faultArg := 0
        atBar := none }
      arr := { c1.arr with used := true, token := none }
      mem := { c1.mem with tables := [], micros := [], stateLoaded := [], spadSelf := [], accSelf := [] }
      run := { c1.run with
        nDmaOut := 0, nEvt := 0, nSpan := 0, nNbx := [], sntAtGo := c1.seq.snt, barAtGo := c1.run.barCount, dmaDone := [], qstat := [], spanWaits := [],
        frozen := false, hit := false } }

/-- Write of SEQ_ARGn (R190). -/
def setArg (c : Core) (n : Nat) (w : Word) : Core := { c with seq := { c.seq with args := SMap.set 0#32 c.seq.args n w } }

/-- ARV and SNT counters are zero before the first dispatch of a context (R153). -/
def clearCounters (c : Core) : Core := { c with seq := { c.seq with arv := [], snt := [] } }

/-- A core reset (R686): every core register at its Reset value, the sequencer idle, stationary copies, gather buffer,
queues and ARV and SNT counters empty, every bank OFF, no segment loaded (STATE_STAT.LOADED resets to 0, R311). Accumulator
memory, the cells of the state file and program memory keep their contents: no rule clears them. -/
def coreReset (c : Core) : Core :=
  { Core.reset with mem := { c.mem with
      spad := [], spadWritten := [], spadSelf := [], gb := [], tables := [], micros := [], stateLoaded := [] } }

end Sys2Proof.Machine.Cu
end

