-- ==== Sys2Proof/Machine/Flags.lean ====
section
/-! DEFINITION. Quantization status (R67 to R70): what one QNT adds to its tensor's record, and how contributions
combine. The engine has no condition codes; QSTAT and the counts of ARR_CHECK are its only value-dependent flags. -/

namespace Sys2Proof.Machine.Cu

/-- The contribution of one QNT of a group (R68, R69). -/
def qstatOf (index : Nat) (codes : List Float.Code) (e4m3 : Bool) : QstatDelta :=
  { index := index
    sat := (codes.filter (fun k => k.sat)).length
    nan := codes.any (fun k => k.nan)
    invalid := codes.any (fun k => k.invalid)
    e4m3 := e4m3 }

/-- Contributions to one record combine by addition of counts and OR of flags (R69). -/
def qstatJoin (a b : QstatDelta) : QstatDelta :=
  { index := a.index, sat := a.sat + b.sat, nan := a.nan || b.nan, invalid := a.invalid || b.invalid,
    e4m3 := a.e4m3 || b.e4m3 }

/-- Add a contribution to those the core holds for its dispatch (R170). -/
def qstatHold (c : Core) (d : QstatDelta) : Core :=
  let qs :=
    if c.run.qstat.any (fun q => q.index == d.index) then
      c.run.qstat.map (fun q => if q.index == d.index then qstatJoin q d else q)
    else c.run.qstat ++ [d]
  { c with run := { c.run with qstat := qs } }

/-- Merge a contribution into a QSTAT record (R67, R69): saturating count, sticky flags; E4M3_MODE is set by the
command's OR of contributions, which the caller supplies. -/
def qstatRecord (r : Dword) (d : QstatDelta) (mode : Bool) : Dword :=
  let cnt := min (bitsOf r.toNat 31 0 + d.sat) 0xFFFFFFFF
  let nan := bitOf r.toNat 32 || d.nan
  let inv := bitOf r.toNat 33 || d.invalid
  BitVec.ofNat 64 (cnt + (if nan then 2 ^ 32 else 0) + (if inv then 2 ^ 33 else 0) + (if mode then 2 ^ 34 else 0))

/-- An 8-bit count that saturates (R142). -/
def sat8 (w : BitVec 8) (n : Nat) : BitVec 8 := BitVec.ofNat 8 (min (w.toNat + n) 0xFF)

/-- A 12-bit count that saturates (R104). -/
def sat12 (w : BitVec 12) (n : Nat) : BitVec 12 := BitVec.ofNat 12 (min (w.toNat + n) 0xFFF)

/-- The skips of a pass counted in ARR_CHECK (R100, R104). -/
def countSkips (c : Core) (n : Nat) : Core := { c with arr := { c.arr with csSkip := sat12 c.arr.csSkip n } }

end Sys2Proof.Machine.Cu
end

