-- ==== Sys2Proof/Machine/Array.lean ====
section
/-! DEFINITION. The matrix array (chapter 3): stationary loads, the swap, passes and their completion
(R74 to R100, R135, R164, R165). A pass takes its stream data and its tile when it enters; its accumulator
writes are made when it completes, in entry order (R81). Cycle counts are left out (R76, NOTES Scope). -/

namespace Sys2Proof.Machine.Cu

/-! ### Tile images (R135) -/

/-- Bytes of a row record by tile mode (R135). -/
def rowBytes (mode : Nat) : Nat :=
  match mode with
  | 1 => 128
  | 2 => 64
  | 3 => 32
  | 4 => 24
  | 5 => 64
  | _ => 48

/-- Bytes of the scale block (R135). -/
def scaleBytes (mode : Nat) (scaled : Bool) : Nat :=
  match mode with
  | 1 => 0
  | 2 => if scaled then 128 else 0
  | 3 => 128
  | 4 => 128
  | _ => 256

/-- Bytes of a tile image (R135). -/
def imageBytes (mode : Nat) (scaled : Bool) : Nat := 128 * rowBytes mode + scaleBytes mode scaled

/-- Whether a mode is a table mode (R75). -/
def isTab (mode : Nat) : Bool := decide (mode ≥ 5)

/-- The number of groups a pass of this mode carries (R75). -/
def groupsOf (mode : Nat) : Nat := if isTab mode then 2 else 1

/-- One byte of a tile image. -/
def tileByte (t : Tile) (i : Nat) : Nat := (t.image.getD i 0).toNat

/-- The level of a code in a tile's grid (R61). -/
def level (t : Tile) (code : Nat) : Half := t.levels.getD code 0

/-- The weight, level or selected level of cell (k, n) in a group, as BF16 (R75, R88, R135). -/
def cellWeight (t : Tile) (g k n : Nat) : Half :=
  match t.mode with
  | 1 => BitVec.ofNat 16 (tileByte t (128 * k + 2 * n) + 256 * tileByte t (128 * k + 2 * n + 1))
  | 2 => Float.e4m3ToBf (BitVec.ofNat 8 (tileByte t (64 * k + n)))
  | 3 => level t (if n % 2 = 0 then tileByte t (32 * k + n / 2) % 16 else tileByte t (32 * k + n / 2) / 16)
  | 4 =>
    let o := 24 * k + 3 * (n / 8)
    level t (((tileByte t o + 256 * tileByte t (o + 1) + 65536 * tileByte t (o + 2)) / 2 ^ (3 * (n % 8))) % 8)
  | 5 => level t (if g = 0 then tileByte t (64 * k + n) % 16 else tileByte t (64 * k + n) / 16)
  | _ =>
    let o := 48 * k + 3 * (n / 4)
    level t (((tileByte t o + 256 * tileByte t (o + 1) + 65536 * tileByte t (o + 2)) / 2 ^ (6 * (n % 4) + 3 * g)) % 8)

/-- The scale of foot n in a group (R81, R82, R135): 1.0 for MUL-BF16 and unscaled MUL-E4M3. -/
def footScale (t : Tile) (g n : Nat) : Half :=
  if t.mode = 1 ∨ (t.mode = 2 ∧ t.scaled = false) then 0x3F80#16
  else
    let o := 128 * rowBytes t.mode + 128 * g + 2 * n
    BitVec.ofNat 16 (tileByte t o + 256 * tileByte t (o + 1))

/-! ### Column sums (R80, R81) -/

/-- The group sum of one column: products rounded to FP32, summed in K order from the first product (R80). -/
def groupSum (as : List Half) (ws : List Half) : Word :=
  match List.zipWith (fun a b => Float.mul (Float.widen a) (Float.widen b)) as ws with
  | [] => 0#32
  | p :: ps => ps.foldl Float.add p

/-- The weights of column n in a group, in K order. -/
def columnWeights (t : Tile) (g n : Nat) : List Half := (List.range 128).map (fun k => cellWeight t g k n)

/-- The 64 unscaled group sums of one activation row (R80). -/
def rowSums (t : Tile) (g : Nat) (as : List Half) : List Word :=
  (List.range 64).map (fun n => groupSum as (columnWeights t g n))

/-- The scales of a tile's 64 feet in a group. -/
def footScales (t : Tile) (g : Nat) : List Half := (List.range 64).map (fun n => footScale t g n)

/-- The 64 scaled sums q of one row and group (R81): for σ = 1.0 the sum itself. -/
def scaledSums (scales : List Half) (sums : List Word) : List Word :=
  List.zipWith (fun s sc => if sc = 0x3F80#16 then s else Float.mul s (Float.widen sc)) sums scales

/-! ### Checksums (R98 to R100) -/

/-- Whether a BF16 value is finite. -/
def bfFinite (h : Half) : Bool := Float.isFinite (h ++ 0#16)

/-- A finite BF16 value in units of 2^-149. -/
def bfUnits (h : Half) : Int := Float.signed (Float.widen h)

/-- The 64 weights of row k in a group. -/
def rowWeights (t : Tile) (g k : Nat) : List Half := (List.range 64).map (fun n => cellWeight t g k n)

/-- The signed row sum rho and the absolute row sum alpha of row k (R98), formed exactly: the significand of the checking
format rounds nowhere in this model (DESIGN CHOICE, notes/assumptions/33.md). -/
def rowRho (t : Tile) (g k : Nat) : Int := ((rowWeights t g k).map bfUnits).sum
def rowAlpha (t : Tile) (g k : Nat) : Nat := ((rowWeights t g k).map (fun h => (bfUnits h).natAbs)).sum

/-- The checking sums C and A of one activation row in a group (R98); none where an activation or a weight that enters them is
not finite, so that C or A is not (R100). -/
def checkSums (t : Tile) (g : Nat) (as : List Half) : Option (Int × Nat) :=
  if as.all bfFinite && (List.range 128).all (fun k => (rowWeights t g k).all bfFinite) then
    some (((as.zipIdx).map (fun p => bfUnits p.1 * rowRho t g p.2)).sum,
      ((as.zipIdx).map (fun p => (bfUnits p.1).natAbs * rowAlpha t g p.2)).sum)
  else none

/-- One activation row meets the tile in one group (R80, R98). -/
def groupRow (t : Tile) (g : Nat) (as : List Half) : GroupRow := { sums := rowSums t g as, check := checkSums t g as }

/-- The comparison of one row and group: none where it is skipped (R100), else whether |C - S| exceeds 2^-15 A + 2^-118
(R99); C and A are in units of 2^-298, S in units of 2^-149. -/
def compareRow (r : GroupRow) : Option Bool :=
  match r.check with
  | none => none
  | some (cc, aa) =>
    if r.sums.all Float.isFinite then
      some (decide (aa + 2 ^ 195 < 2 ^ 15 * (cc - (r.sums.map Float.signed).sum * 2 ^ 149).natAbs))
    else none

/-- Update one accumulator value by the foot (R81). -/
def footStep (acc : Nat) (first : Bool) (old q : Word) : Word :=
  if acc = 0 && first then q
  else if acc = 2 then Float.add old (Float.neg q)
  else Float.add old q

/-- Update one accumulator row with the sums of its groups in order (R81). -/
def footRow (acc : Nat) (old : List Word) (groups : List (List Word)) : List Word :=
  (groups.zipIdx).foldl (fun o p => List.zipWith (footStep acc (decide (p.2 = 0))) o p.1) old

/-! ### Streams (R77, R78) -/

/-- Element k of logical row l of a stream: lane k of the physical row (l + k) mod Ms (R77). -/
def streamElem (c : Core) (b ms l k : Nat) : Half :=
  let a := (b + (l + k) % ms) * 256 + 2 * k
  spadByte c (a + 1) ++ spadByte c a

/-- The activation row m of a pass that starts at position p (R78). -/
def streamRow (c : Core) (b ms p m : Nat) : List Half :=
  (List.range 128).map (fun k => streamElem c b ms ((p + m) % ms) k)

/-- Never-written lines met by the row reads of a pass (R78, R111), one read for each i from 0 to M + 126; the reads that a
continuation shares with the pass before it, i below 127, are that pass's (R79). -/
def streamUnwritten (c : Core) (b ms p m : Nat) (continues : Bool) : Nat :=
  ((List.range (m + 127)).filter (fun i => !(continues && decide (i < 127)) && !lineWritten c (b + (p + i) % ms))).length

/-- The SPAD lines of the physical rows that a pass reads of one stream (R78). -/
def streamLines (b ms p m : Nat) : List Nat := (List.range (min (m + 127) ms)).map (fun i => b + (p + i) % ms)

/-! ### Loads and swaps -/

/-- An array instruction has been issued: a gated array ramps up (R95). -/
def ramp (c : Core) : Core :=
  { c with arr := { c.arr with used := true, mode := if c.arr.mode = .gated then .rampUp else c.arr.mode } }

/-- An array instruction issued to a gated array ramps it up (R95); one issued during ramp-down waits (R96). -/
def arrayReady (c : Core) (k : Core → Res) : Res := if c.arr.mode = .rampDown then .held else k (ramp c)

/-- Time enough for a ramp-up has passed (R95). -/
def rampedUp (m : ArrayMode) : ArrayMode := if m = .rampUp then .full else m

/-- The grid levels a load names, or none when the slot is empty or of the other width (R165). -/
def gridFor (c : Core) (mode slot : Nat) : Option (List Half) :=
  let want := if mode = 3 ∨ mode = 5 then 16 else if mode = 4 ∨ mode = 6 then 8 else 0
  if want = 0 then (if slot = 0 then some [] else none)
  else
    let g := SMap.get [] c.run.grids slot
    if g.length = want then some g else none

/-- LDS (R82, R84, R86, R135, R164, R165). -/
def lds (c : Core) (w : TileWord) : Res :=
  let mode := modBits w 3 0
  let slot := modBits w 7 4
  let scaled := decide (immBits w 31 31 = 1)
  let off := ea c w.f2 (immBits w 21 0)
  let n := imageBytes mode scaled
  legal (usesOnly w false true false false 0xFF#8 0x803FFFFF#32 && decide (1 ≤ mode ∧ mode ≤ 6) &&
      (!scaled || decide (mode = 2))) uArray
    (if off % 128 ≠ 0 then .fault fTileAlign uArray 0
     else if off + n > spadBytes then .fault fSpadRange uArray off
     else match gridFor c mode slot with
      | none => .fault fGridSlot uArray 0
      | some lv =>
        if c.arr.loading.isSome then .held
        else withAccess c off n uArray
          (arrayReady c (fun c1 =>
            let r := wideRead c1 off n
            next { r.2 with arr := { r.2.arr with
              loading := some { mode := mode, grid := slot, levels := lv, scaled := scaled, image := r.1 } } })))

/-- A stationary load is complete: its shadow is ready, and no row of it was written before the ramp-up ended (R82, R95). -/
def loadReady (c : Core) : Core :=
  match c.arr.loading with
  | some t => { c with arr := { c.arr with shadow := some t, loading := none, mode := rampedUp c.arr.mode } }
  | none => c

/-- A swap token exchanges the active and shadow copies (R83, R86). It has left when a pass that enters after it, or with it,
is complete: `before` counts the passes in flight ahead. -/
def swapCopies (c : Core) (before : Nat) : Core :=
  { c with arr := { c.arr with active := c.arr.shadow, shadow := c.arr.active, token := some before } }

/-- A standalone swap waits for every load issued before it (R85). -/
def swapNow (c : Core) : Res :=
  if c.arr.loading.isSome then .held else arrayReady c (fun c1 => next (swapCopies c1 c1.arr.flights.length))

/-- SWP (R83). -/
def swp (c : Core) (w : TileWord) : Res :=
  legal (usesOnly w false false false false 0 0) uArray (swapNow c)

/-! ### Passes -/

/-- The shape of a pass: M and A0, from the immediate or from X[F4] (R164); none when X[F4] has another bit set (R165). -/
def passShape (c : Core) (w : TileWord) : Option (Nat × Nat) :=
  if modBits w 0 0 = 1 then
    let s := (x c w.f4).toNat
    if bitsOf s 15 11 ≠ 0 ∨ bitsOf s 31 26 ≠ 0 then none else some (bitsOf s 10 0, bitsOf s 25 16)
  else some (immBits w 10 0, immBits w 20 11)

/-- The encoding checks of PASS and TPASS (R164). -/
def passLegal (w : TileWord) (tab : Bool) : Bool :=
  usesOnly w true tab true (decide (modBits w 0 0 = 1)) 0x01#8 0x00FFFFFF#32 &&
  decide (immBits w 22 21 ≠ 3) && (decide (modBits w 0 0 = 0) || decide (immBits w 20 0 = 0))

/-- The rows of a pass by group (R78, R80, R98). -/
def passRows (c : Core) (t : Tile) (streams : List (Nat × Nat)) (p m : Nat) : List (List GroupRow) :=
  (List.range m).map (fun i => (streams.zipIdx).map (fun q => groupRow t q.2 (streamRow c q.1.1 q.1.2 p i)))

/-- Whether a pass continues a pass in flight (R79): the same streams, from the position at which that one ends. That its
first row enters in the very next cycle is taken for granted (DESIGN CHOICE, notes/assumptions/33.md). -/
def follows (f : Flight) (streams : List (Nat × Nat)) (p : Nat) : Bool :=
  f.slot.isSome && f.streams == streams && (match streams with
    | [] => false
    | q :: _ => p == (f.start + f.rows.length) % q.2)

/-- Whether a pass continues the pass that entered last (R79). -/
def continues (c : Core) (streams : List (Nat × Nat)) (p : Nat) : Bool :=
  match c.arr.flights.getLast? with
  | none => false
  | some f => follows f streams p

/-- Passes in flight whose slot has been taken over (R79). -/
def leaveSlot (k : Nat) (fs : List Flight) : List Flight := fs.map (fun f => if f.slot = some k then { f with slot := none } else f)

/-- The cursor slot of a pass that enters (R79): its predecessor's if it continues it, else a free one, 0 before 1, else the
one that frees first, the slot of the earliest pass. -/
def takeSlot (c : Core) (streams : List (Nat × Nat)) (p : Nat) : Nat :=
  let held := c.arr.flights.filterMap (fun f => f.slot)
  if continues c streams p then ((c.arr.flights.getLast?).bind (fun f => f.slot)).getD 0
  else if !held.contains 0 then 0
  else if !held.contains 1 then 1
  else held.headD 0

/-- A pass enters: it reads its streams with the active tile and is then in flight (R74, R78, R79). -/
def enterPass (c : Core) (t : Tile) (streams : List (Nat × Nat)) (p m a0 acc : Nat) : Core :=
  let lines := streams.flatMap (fun q => streamLines q.1 q.2 p m)
  let c0 := flushWhere c (fun l => lines.contains l)
  let cont := continues c0 streams p
  let k := takeSlot c0 streams p
  let c1 := countSpadRbw c0 ((streams.map (fun q => streamUnwritten c0 q.1 q.2 p m cont)).sum)
  let f : Flight :=
    { firstRow := a0, acc := acc, streams := streams, start := p, slot := some k,
      scales := (List.range (groupsOf t.mode)).map (fun g => footScales t g), rows := passRows c0 t streams p m }
  { c1 with arr := { c1.arr with flights := leaveSlot k c1.arr.flights ++ [f] } }

/-- The banks of the rows that a pass reads, judged together (R78, R116). -/
def streamsAccess (c : Core) (streams : List (Nat × Nat)) (p m : Nat) (k : Res) : Res :=
  let bs := ((streams.flatMap (fun q => streamLines q.1 q.2 p m)).map (fun l => l / 1024)).dedup
  if bs.any (fun b => bank c b == .off) then .fault fBankOff uArray 0
  else if bs.all (fun b => bank c b == .on) then k
  else .held

/-- PASS and TPASS after the encoding checks (R74, R83, R85, R158, R165). The offending value of STREAM_RANGE is the register
of a bad stream, the position for p at or beyond Ms, and stream B's register where the two Ms differ (DESIGN CHOICE,
notes/assumptions/33.md). -/
def runPass (c : Core) (w : TileWord) (tab : Bool) (m a0 : Nat) : Res :=
  let swap := decide (immBits w 23 23 = 1)
  let acc := immBits w 22 21
  let p := (x c w.f3).toNat
  if m = 0 then (if swap then swapNow c else arrayReady c next)
  else if m > 1024 then .fault fAccRange uArray m
  else if a0 + m > 1024 then .fault fAccRange uArray (a0 + m)
  else match stream (x c w.f1), (if tab then stream (x c w.f2) else some (0, 0)) with
    | none, _ => .fault fStreamRange uArray (x c w.f1).toNat
    | some _, none => .fault fStreamRange uArray (x c w.f2).toNat
    | some sa, some sb =>
      if p ≥ sa.2 then .fault fStreamRange uArray p
      else if tab && decide (sa.2 ≠ sb.2) then .fault fStreamRange uArray (x c w.f2).toNat
      else if swap && c.arr.loading.isSome then .held
      else match c.arr.active with
        | none => .fault fTileEmpty uArray 0
        | some t =>
          if isTab t.mode != tab then .fault fPassMode uArray 0
          else
            let streams := if tab then [sa, sb] else [sa]
            streamsAccess c streams p m
              (arrayReady c (fun c1 =>
                let c2 := enterPass c1 t streams p m a0 acc
                next (if swap then swapCopies c2 c1.arr.flights.length else c2)))

/-- The check of PASS and TPASS operands (R165), then the pass. -/
def passInstr (c : Core) (w : TileWord) (tab : Bool) : Res :=
  legal (passLegal w tab) uArray
    (match passShape c w with
     | none =>
       if bitsOf (x c w.f4).toNat 10 0 = 0 then runPass c w tab 0 0
       else .fault fAccRange uArray (x c w.f4).toNat
     | some s => runPass c w tab s.1 s.2)

/-- PASS (R164). -/
def pass (c : Core) (w : TileWord) : Res := passInstr c w false

/-- TPASS (R164). -/
def tpass (c : Core) (w : TileWord) : Res := passInstr c w true

/-- Apply one row of a completing pass (R81, R113). -/
def completeRow (f : Flight) (c : Core) (i : Nat) (groups : List GroupRow) : Core :=
  let r := f.firstRow + i
  let old := if f.acc = 0 then (List.replicate 64 0#32, c) else rowRead c r
  rowWrite old.2 r (footRow f.acc old.1 (List.zipWith (fun sc g => scaledSums sc g.sums) f.scales groups))

/-- Comparisons skipped in rows of a pass, and mismatches found there (R99, R100). -/
def skipsIn (rows : List (List GroupRow)) : Nat := (rows.flatten.filter (fun g => compareRow g == none)).length
def mismatchesIn (row : List GroupRow) : Nat := (row.filter (fun g => compareRow g == some true)).length

/-- The first row of a pass in which a comparison is a mismatch (R99). -/
def firstMismatch (rows : List (List GroupRow)) : Option Nat :=
  rows.findIdx? (fun row => decide (0 < mismatchesIn row))

/-- The earliest pass in flight completes with every comparison decided and none a mismatch: its accumulator writes become
visible and its skipped comparisons are counted (R76, R81, R100). -/
def passComplete (c : Core) : Core :=
  match c.arr.flights with
  | [] => c
  | f :: fs =>
    let arr := { c.arr with flights := fs, mode := rampedUp c.arr.mode, token := c.arr.token.bind (fun n => if n = 0 then none else some (n - 1)) }
    let c1 := (f.rows.zipIdx).foldl (fun d p => completeRow f d p.2 p.1) { c with arr := arr }
    countSkips c1 (skipsIn f.rows)

/-- A fault of the array in the earliest pass in flight changes what one group of one row holds. -/
def disturb (c : Core) (row group : Nat) (h : GroupRow → GroupRow) : Core :=
  match c.arr.flights with
  | [] => c
  | f :: fs => { c with arr := { c.arr with flights := { f with rows := f.rows.modify row (fun gs => gs.modify group h) } :: fs } }

/-- An error in a data cell or a stationary register of the earliest pass: the group sums of one row are these (R99). -/
def wrongSums (c : Core) (row group : Nat) (sums : List Word) : Core := disturb c row group (fun g => { g with sums := sums })

/-- An error in the checksum column or the comparator that the comparison of one row and group sees (R99): the checking sum C
is off by more than the bound. -/
def wrongCheck (c : Core) (row group : Nat) : Core :=
  disturb c row group (fun g => { g with check := g.check.map (fun p =>
    ((g.sums.map Float.signed).sum * 2 ^ 149 + p.2 + 2 ^ 195 + 1, p.2)) })

/-- The comparisons of the first n rows of the earliest pass have been decided: the skips among them are counted (R100). -/
def skipsOfFirst (c : Core) (n : Nat) : Nat :=
  match c.arr.flights with
  | [] => 0
  | f :: _ => skipsIn (f.rows.take n)

/-- The row in which the earliest pass in flight shows a mismatch, with the mismatches of that row (R99, R102). -/
def passMismatch (c : Core) : Option (Nat × Nat) :=
  match c.arr.flights with
  | [] => none
  | f :: _ => (firstMismatch f.rows).map (fun i => (i, mismatchesIn (f.rows.getD i [])))

/-! ### Clock gating (R95, R96) -/

/-- Whether the array holds no datum and no load (R95). -/
def arrayEmpty (c : Core) : Bool := c.arr.flights.isEmpty && c.arr.loading.isNone

/-- The idle count has reached IDLE_HOLD: ramp-down starts (R95). -/
def rampDown (c : Core) : Core :=
  if arrayEmpty c && (c.arr.mode == .full || c.arr.mode == .rampUp) then
    { c with arr := { c.arr with mode := .rampDown, token := none } }
  else c

/-- 48 core cycles later the array clock gates (R95). -/
def gateArray (c : Core) : Core :=
  if c.arr.mode == .rampDown then { c with arr := { c.arr with mode := .gated } } else c

end Sys2Proof.Machine.Cu
end

