-- ==== Sys2Proof/Machine/DmaDesc.lean ====
section
/-! DEFINITION. DMA descriptors (R132 to R137, R173): decoding with patches, validation, and the data each mode
moves. The external side is performed over the whole state in Machine/Dma.lean. -/

namespace Sys2Proof.Machine.Cu

/-- Parameter i of a descriptor. -/
def par (d : Desc) (i : Nat) : Nat := d.params.getD i 0

/-- Bytes of an element (R132). -/
def elemBytes (e : Nat) : Nat := 2 ^ e

/-- The number of parameters each mode uses (R133). -/
def paramsUsed (mode : Nat) : Nat :=
  match mode with
  | 0 => 1
  | 1 => 7
  | 2 => 7
  | 3 => 2
  | 4 => 6
  | _ => 5

/-- Whether a descriptor moves nothing: the zero cases of R133. -/
def descEmpty (d : Desc) : Bool :=
  match d.mode with
  | 0 => par d 0 == 0
  | 1 => par d 0 == 0 || par d 1 == 0 || par d 2 == 0
  | 2 => par d 0 == 0 || par d 1 == 0 || par d 2 == 0
  | 5 => par d 3 == 0
  | _ => false

/-- The limits of each mode (R133, R134, R136). -/
def modeLimits (d : Desc) : Bool :=
  match d.mode with
  | 0 => decide (par d 0 ≤ 0x400000)
  | 1 => true
  | 2 => decide (par d 0 ≤ 128) && decide (par d 1 ≤ 128) && decide (par d 0 * par d 1 * elemBytes d.elem ≤ 32768)
  | 3 => decide (d.elem = 1) && decide (1 ≤ par d 0) && decide (par d 0 ≤ 4096) && decide (d.spad % 256 = 0)
  | 4 =>
    decide (1 ≤ par d 0) && decide (par d 0 ≤ 6) && decide (par d 5 ≤ 1) &&
    (decide (par d 5 = 0) || decide (par d 0 = 2)) &&
    decide (par d 2 + (if par d 0 ≥ 5 then 2 else 1) ≤ par d 1) &&
    decide (par d 3 % 64 = 0) && decide (par d 3 + 64 ≤ par d 4) && decide (d.spad % 128 = 0)
  | _ => decide (256 * par d 0 ≤ par d 1)

/-- The end of the SPAD range a descriptor touches (R133). -/
def spadEnd (d : Desc) : Nat :=
  if descEmpty d then d.spad
  else match d.mode with
    | 0 => d.spad + par d 0
    | 1 => d.spad + (par d 1 - 1) * par d 5 + (par d 2 - 1) * par d 6 + par d 0
    | 2 => d.spad + (par d 2 - 1) * par d 6 + (par d 1 - 1) * par d 5 + par d 0 * elemBytes d.elem
    | 3 => d.spad + par d 0 * 256
    | 4 => d.spad + imageBytes (par d 0) (decide (par d 5 = 1))
    | _ => d.spad + (par d 3 - 1) * par d 4 + par d 0

/-- Bits of one code or weight of a tile mode in the canonical layout (R58, R136). -/
def canonBits (mode : Nat) : Nat :=
  match mode with
  | 1 => 16
  | 2 => 8
  | 3 => 4
  | 4 => 3
  | 5 => 4
  | _ => 3

/-- Bytes of one group of one column in the canonical layout (R58). -/
def groupBytes (mode : Nat) : Nat := 16 * canonBits mode

/-- The bytes a remote range spans on the external side, where it is fixed at issue (R133). -/
def extSpan (d : Desc) : Nat :=
  match d.mode with
  | 0 => par d 0
  | 1 => (par d 1 - 1) * par d 3 + (par d 2 - 1) * par d 4 + par d 0
  | 2 => (par d 2 - 1) * par d 4 + (par d 0 - 1) * par d 3 + par d 1 * elemBytes d.elem
  | 3 => (par d 0 - 1) * par d 1 + 256
  | 4 => ((par d 3 + 63) * par d 1 + par d 2 + groupsOf (par d 0)) * groupBytes (par d 0)
  | _ => 0

/-- Decode a 64-byte descriptor with its patches and validate it (R132, R133, R173): none is DMA_DESC. -/
def decodeDesc (bs : List Byte) (extAdd spadAdd outNo pc : Nat) : Option Desc :=
  let w0 := field bs 0 4
  let w1 := field bs 4 4
  let ext := field bs 8 8
  let aux := field bs 0x30 8
  let mode := bitsOf w0 3 0
  let remote := bitOf w0 6
  let elem := bitsOf w0 9 7
  let base := if remote then bitsOf ext 21 0 else ext
  let sum := base + extAdd
  let d : Desc :=
    { mode := mode
      toExt := bitOf w0 4
      bulk := bitOf w0 5
      remote := remote
      elem := elem
      sem := bitsOf w0 13 10
      spad := w1 + spadAdd
      ext := if remote then (bitsOf ext 47 37) * 2 ^ 37 + sum else sum
      params := (List.range 8).map (fun i => field bs (0x10 + 4 * i) 4)
      aux := aux
      outNo := outNo
      pc := pc }
  let ok :=
    decide (w0 < 2 ^ 14) && decide (w1 < 2 ^ 22) && field bs 0x38 8 == 0 && decide (aux < 2 ^ 48) &&
    (if remote then decide (bitsOf ext 36 22 = 0) && decide (ext < 2 ^ 48) && decide (sum < 2 ^ 22)
     else decide (ext < 2 ^ 48) && decide (sum < 2 ^ 48)) &&
    decide (d.spad < 2 ^ 22) && decide (mode ≤ 5) && decide (elem ≤ 2) &&
    (d.params.drop (paramsUsed mode)).all (fun p => p == 0) &&
    (aux == 0 || decide (mode ≥ 4)) &&
    (!d.toExt || decide (mode ≤ 1) || decide (mode = 5)) &&
    modeLimits d && decide (spadEnd d ≤ spadBytes) &&
    (!remote || descEmpty d || decide (mode = 5) || decide (sum + extSpan d ≤ spadBytes))
  if ok then some d else none

/-- One access of the external side, at an offset relative to EXT_ADDR, and where its bytes lie in SPAD: SPAD offset,
offset within the access, and bytes of each part. -/
structure Xfer where
  ext : Nat
  len : Nat
  parts : List (Nat × Nat × Nat)
  deriving DecidableEq, Repr

/-- An access whose bytes lie together in SPAD. -/
def whole (ext spad len : Nat) : Xfer := { ext := ext, len := len, parts := [(spad, 0, len)] }

/-- The accesses of LINEAR, STRIDED, TRANSPOSE and SKEW, in the order they are made (R133, R134). -/
def xfers (d : Desc) : List Xfer :=
  match d.mode with
  | 0 => [whole 0 d.spad (par d 0)]
  | 1 =>
    (List.range (par d 2)).flatMap (fun j2 => (List.range (par d 1)).map (fun j1 =>
      whole (j1 * par d 3 + j2 * par d 4) (d.spad + j1 * par d 5 + j2 * par d 6) (par d 0)))
  | 2 =>
    let e := elemBytes d.elem
    (List.range (par d 2)).flatMap (fun b => (List.range (par d 0)).map (fun i =>
      { ext := b * par d 4 + i * par d 3
        len := par d 1 * e
        parts := (List.range (par d 1)).map (fun j => (d.spad + b * par d 6 + j * par d 5 + i * e, j * e, e)) }))
  | 3 =>
    (List.range (par d 0)).map (fun m =>
      { ext := m * par d 1
        len := 256
        parts := (List.range 128).map (fun k => (d.spad + ((m + k) % par d 0) * 256 + 2 * k, 2 * k, 2)) })
  | _ => []

/-- Where the codes of column n of a tile lie, relative to EXT_ADDR, and how many bytes (R58, R136). -/
def tileColumn (d : Desc) (n : Nat) : Nat × Nat :=
  let gb := groupBytes (par d 0)
  ((par d 3 + n) * par d 1 * gb + par d 2 * gb, groupsOf (par d 0) * gb)

/-- Where the scales of column n lie, relative to AUX_ADDR (R58, R136). -/
def tileScale (d : Desc) (n : Nat) : Nat × Nat :=
  (((par d 3 + n) * par d 1 + par d 2) * 2, 2 * groupsOf (par d 0))

/-- The field of w bits at index k of a little-endian bit stream (R58). -/
def bitField (bs : List Byte) (w k : Nat) : Nat := (leNat bs / 2 ^ (w * k)) % 2 ^ w

/-- The image of a tile from its columns and scales (R135, R136). -/
def buildImage (d : Desc) (cols scales : List (List Byte)) : List Byte :=
  let mode := par d 0
  let w := canonBits mode
  let code (g k n : Nat) : Nat := bitField (cols.getD n []) w (128 * g + k)
  let cell (k n : Nat) : Nat := if isTab mode then code 0 k n + 2 ^ w * code 1 k n else code 0 k n
  let cw := if isTab mode then 2 * w else w
  let rowsB := (List.range 128).flatMap (fun k =>
    leBytes (rowBytes mode) ((List.range 64).foldr (fun n acc => cell k n + 2 ^ cw * acc) 0))
  let sb := if scaleBytes mode (decide (par d 5 = 1)) = 0 then []
    else (List.range (groupsOf mode)).flatMap (fun g => scales.flatMap (fun s => ((s.drop (2 * g)).take 2)))
  rowsB ++ sb

end Sys2Proof.Machine.Cu
end

