-- ==== Sys2Proof/Machine/Queue.lean ====
section
/-! DEFINITION. Queue blocks and commands (chapter 13): access to rings and commands, completion records and interrupts
(R428 to R432), and the common checks of a command (R433, R441 to R444). -/

namespace Sys2Proof.Machine

/-! ### Access -/

/-- A queue block. -/
def State.block (s : State) (b : Nat) : QBlock := SMap.get QBlock.reset s.blocks b

/-- Replace a queue block. -/
def State.setBlock (s : State) (b : Nat) (q : QBlock) : State := { s with blocks := SMap.set QBlock.reset s.blocks b q }

/-- Change a queue block. -/
def State.updBlock (s : State) (b : Nat) (f : QBlock → QBlock) : State := s.setBlock b (f (s.block b))

/-- A ring pair of a block. -/
def QBlock.ring (q : QBlock) (r : Nat) : Ring := SMap.get Ring.reset q.rings r

/-- A ring pair. -/
def State.ring (s : State) (b r : Nat) : Ring := (s.block b).ring r

/-- Change a ring pair. -/
def State.updRing (s : State) (b r : Nat) (f : Ring → Ring) : State :=
  s.updBlock b (fun q => { q with rings := SMap.set Ring.reset q.rings r (f (q.ring r)) })

/-- Change a submission ring. -/
def State.updSq (s : State) (b r : Nat) (f : SqRegs → SqRegs) : State :=
  s.updRing b r (fun g => { g with sq := f g.sq })

/-- Change a completion ring. -/
def State.updCq (s : State) (b r : Nat) (f : CqRegs → CqRegs) : State :=
  s.updRing b r (fun g => { g with cq := f g.cq })

/-- A command in flight. -/
def State.cmd (s : State) (c : CmdRef) : Option Cmd := (s.block c.block).cmds.find? (fun k => k.id == c.id)

/-- Change a command in flight. -/
def State.updCmd (s : State) (c : CmdRef) (f : Cmd → Cmd) : State :=
  s.updBlock c.block (fun q => { q with cmds := q.cmds.map (fun k => if k.id = c.id then f k else k) })

/-- Remove a command. -/
def State.dropCmd (s : State) (c : CmdRef) : State :=
  s.updBlock c.block (fun q => { q with cmds := q.cmds.filter (fun k => k.id != c.id) })

/-- The partition whose TENANT port a block is (R402). -/
def partOfBlock (b : Nat) : Option Nat := if 1 ≤ b ∧ b ≤ 8 then some (b - 1) else none

/-- Port code of a block, as in DETAIL of ST_PORT_DENIED (R452): 0 ADMIN, 1 TENANT, 2 MGMT, 3 DEBUG. -/
def portOf (b : Nat) : Nat := if b = 0 then 0 else if b ≤ 8 then 1 else if b = 9 then 2 else 3

/-! ### Packet fields (R423) -/

/-- A header field. -/
def Cmd.u (k : Cmd) (off w : Nat) : Nat := field k.packet off w

/-- A parameter-area field; bytes beyond PARAM_LEN read zero. -/
def Cmd.p (k : Cmd) (off w : Nat) : Nat :=
  leNat ((List.range w).map (fun i => if off + i < field k.packet 4 2 then k.packet.getD (64 + off + i) 0 else 0#8))

/-- Bytes of the parameter area. -/
def Cmd.pBytes (k : Cmd) (off n : Nat) : List Byte := (List.range n).map (fun i => BitVec.ofNat 8 (k.p (off + i) 1))

def Cmd.opcode (k : Cmd) : Nat := k.u 0 2
def Cmd.flags (k : Cmd) : Nat := k.u 2 2
def Cmd.paramLen (k : Cmd) : Nat := k.u 4 2
def Cmd.tag (k : Cmd) : Nat := k.u 8 4
def Cmd.qseq (k : Cmd) : Nat := k.u 12 4
def Cmd.timeout (k : Cmd) : Nat := k.u 16 4
def Cmd.ctxField (k : Cmd) : Nat := k.u 20 2
def Cmd.partField (k : Cmd) : Nat := k.u 22 1

/-- ORDERED, which OP_CMD_ABORT ignores (R424, R436). -/
def Cmd.ordered (k : Cmd) : Bool := bitOf k.flags 0 && k.opcode != 0x0109

/-- OPF0 (R424). -/
def Cmd.opf0 (k : Cmd) : Bool := bitOf k.flags 8

/-- The partition a command of a block belongs to: its port's, or the one its header names (R442). -/
def Cmd.partOf (k : Cmd) (b : Nat) : Option Nat :=
  match partOfBlock b with
  | some p => some p
  | none => if k.partField < 8 then some k.partField else none

/-- The context a command names. -/
def Cmd.ctxOf (k : Cmd) : Option Nat := if k.ctxField = 0xFFFF then none else some k.ctxField

/-! ### Statuses (R451) -/

def stOk : Nat := 0x0000
def stOkEmpty : Nat := 0x0001
def stOkRecovered : Nat := 0x0002
def stPortDenied : Nat := 0x0100
def stHeaderInvalid : Nat := 0x0101
def stParamLen : Nat := 0x0102
def stQseqMismatch : Nat := 0x0103
def stLcState : Nat := 0x0104
def stPartInvalid : Nat := 0x0105
def stCtxInvalid : Nat := 0x0106
def stQuota : Nat := 0x0107
def stTimeout : Nat := 0x010A
def stAborted : Nat := 0x010B
def stAbortedByDisable : Nat := 0x010C
def stPreempted : Nat := 0x010D
def stFaultRetry : Nat := 0x010E
def stProgramFault : Nat := 0x010F
def stPartConflict : Nat := 0x0110
def stPlanInvalid : Nat := 0x0200
def stImageAuthFail : Nat := 0x0201
def stPlanTarget : Nat := 0x0202
def stGridInvalid : Nat := 0x0203
def stFuncInvalid : Nat := 0x0204
def stNoPlan : Nat := 0x0205
def stEntryInvalid : Nat := 0x0206
def stBindingInvalid : Nat := 0x0207
def stShapeExceedsPlan : Nat := 0x0300
def stSeqInvalid : Nat := 0x0301
def stSeqLimit : Nat := 0x0302
def stStateUnavailable : Nat := 0x0303
def stRollParam : Nat := 0x0304
def stPeerLost : Nat := 0x0305
def stExpertRequest : Nat := 0x0306
def stRegionParam : Nat := 0x0400
def stRegionOverlap : Nat := 0x0401
def stRegionFull : Nat := 0x0402
def stStoreParam : Nat := 0x0403
def stStoreInvalid : Nat := 0x0404
def stStoreRange : Nat := 0x0405
def stMemParam : Nat := 0x0406
def stDimsExceedData : Nat := 0x0500
def stDecodeUnsupported : Nat := 0x0501
def stDecodeCorrupt : Nat := 0x0502
def stRefMissing : Nat := 0x0503
def stCapParam : Nat := 0x0600
def stCapState : Nat := 0x0601
def stBoostWearLimit : Nat := 0x0700
def stBoostDenied : Nat := 0x0701
def stFwRollback : Nat := 0x0702
def stFwState : Nat := 0x0703
def stAuthRequired : Nat := 0x0800
def stLcTransition : Nat := 0x0801
def stSpanParam : Nat := 0x0900

/-! ### Interrupts and records -/

/-- MSI-X function and entry of a vector of a block (R431). -/
def State.msixEntry (s : State) (b vector : Nat) : Nat × Nat :=
  match partOfBlock b with
  | none => (0, vector)
  | some p => if s.host.sriov then (p + 1, vector) else (0, 8 + 8 * p + vector)

/-- Send the completion ring's message; nothing is pending afterwards (R431). -/
def State.signalCq (s : State) (b r : Nat) : State :=
  let cq := (s.ring b r).cq
  let e := s.msixEntry b cq.vector.toNat
  (s.updCq b r (fun q => { q with pendingIrq := 0 })).sendMsix e.1 e.2

/-- Store bytes of a ring in host memory or in DRAM that a region covers; none where refused (R33, R411). -/
def State.ringPut (s : State) (b : Nat) (loc : Bool) (addr : Nat) (bs : List Byte) : Option State :=
  if loc then
    match s.writeEng { part := partOfBlock b, ctx := none } addr bs with
    | .ok _ s1 => some s1
    | .bad _ _ _ => none
    | .wait => none
  else if s.hostRefuses (Who.requester { part := partOfBlock b, ctx := none }) addr bs.length then none
  else some { s with mem := { s.mem with hostMem := Memory.write s.mem.hostMem addr bs } }

/-- Whether a completion ring is full (R430). -/
def CqRegs.isFull (q : CqRegs) : Bool := decide ((q.tail.toNat + 1) % 2 ^ q.sizeLog2.toNat = q.head.toNat)

/-- CQ_CFG.FULL: a record waits for space (R413). -/
def CqRegs.full (q : CqRegs) : Bool := q.state == .enabled && !q.held.isEmpty

/-- A DRAINING submission ring becomes DISABLED when every fetched command's record is written (R420). Commands whose
record is held by a completion ring in ERROR do not hold it (R432; DEDUCED, notes/assumptions/6.md). -/
def State.sqDrained (s : State) (b r : Nat) : State :=
  let g := s.ring b r
  let open_ := (s.block b).cmds.any (fun k => k.ring == r && !(k.phase == .ended && g.cq.state == .error))
  if g.sq.state = .draining ∧ !open_ then s.updSq b r (fun q => { q with state := .disabled }) else s

/-- Advance CQ_TAIL past a written record; the phase inverts at the wrap (R429). -/
def CqRegs.advance (q : CqRegs) : CqRegs :=
  let t := (q.tail.toNat + 1) % 2 ^ q.sizeLog2.toNat
  { q with tail := BitVec.ofNat 16 t, phase := if t = 0 then !q.phase else q.phase }

/-- The record's bytes with the phase bit of CQ_TAIL (R428, R429). -/
def withPhase (bs : List Byte) (phase : Bool) : List Byte :=
  bs.set 6 (bs.getD 6 0 ||| (if phase then 1#8 else 0#8))

/-- Write one record at CQ_TAIL, or lose it if the write is refused (R429, R431, R432). -/
def State.writeRecord (s : State) (b r : Nat) (h : HeldRec) : State :=
  let cq := (s.ring b r).cq
  let drop (t : State) : State := match h.cmd with
    | none => t
    | some id => (t.dropCmd { block := b, id := id }).sqDrained b r
  match s.ringPut b cq.loc (cq.base.toNat + 32 * cq.tail.toNat) (withPhase h.bytes cq.phase) with
  | none =>
    let e := { EventRec.plain 0x0104 with part := (partOfBlock b).getD 0xF, tag := field h.bytes 0 4 }
    drop ((s.updCq b r (fun q => { q with state := .error })).record e)
  | some s1 =>
    let s2 := s1.updCq b r (fun q => { q.advance with pendingIrq := if h.noIrq then q.pendingIrq else q.pendingIrq + 1 })
    let q := (s2.ring b r).cq
    let s3 := if q.irqEn ∧ !h.noIrq ∧ max q.count.toNat 1 ≤ q.pendingIrq then s2.signalCq b r else s2
    drop s3

/-- A record is written, or held while the ring is full, in ERROR, or already holds one (R430, R432). -/
def State.deliver (s : State) (b r : Nat) (h : HeldRec) : State :=
  let cq := (s.ring b r).cq
  if cq.state ≠ .enabled ∨ !cq.held.isEmpty ∨ cq.isFull then
    s.updCq b r (fun q => { q with held := q.held ++ [h] })
  else s.writeRecord b r h

/-- The 32 bytes of a completion record, phase clear (R428). -/
def recordBytes (tag status ring detail c0 c1 elapsed head qseq : Nat) : List Byte :=
  leBytes 4 tag ++ leBytes 4 (status + ring % 4 * 2 ^ 17) ++ leBytes 8 detail ++ leBytes 4 (min c0 0xFFFFFFFF) ++
    leBytes 4 (min c1 0xFFFFFFFF) ++ leBytes 4 (min elapsed 0xFFFFFFFF) ++ leBytes 2 head ++ leBytes 2 qseq

/-- DETAIL of a command that a recovery affected (R649). -/
def Recov.detail (r : Recov) : Nat :=
  min r.count 255 + (if r.core then 2 ^ 8 else 0) + (if r.dram then 2 ^ 9 else 0) +
    (if r.conductor then 2 ^ 10 else 0) + (if r.marshal then 2 ^ 11 else 0)

/-- Mark a command with a recovery (R649). -/
def State.noteRecovery (s : State) (c : CmdRef) (f : Recov → Recov) : State :=
  s.updCmd c (fun k => { k with recov := { f k.recov with count := k.recov.count + 1 } })

/-- µs since the command started (R428). -/
def State.elapsed (s : State) (k : Cmd) : Nat :=
  match k.startAt with
  | none => 0
  | some t => (s.tb.now - t) / 1000

/-- How a command ends: status, DETAIL, counts, and the bytes of an inline output (R440). -/
structure Fin where
  status : Nat
  detail : Nat
  c0 : Nat
  c1 : Nat
  out : List Byte
  deriving DecidableEq, Repr

/-- A status with nothing else. -/
def Fin.bare (status : Nat) : Fin := { status := status, detail := 0, c0 := 0, c1 := 0, out := [] }

/-- A status with DETAIL. -/
def Fin.with (status detail : Nat) : Fin := { Fin.bare status with detail := detail }

/-- ST_OK. -/
def Fin.ok : Fin := Fin.bare stOk

/-- End a command: its record is delivered to its ring, or returned in the response of MGMT or DEBUG (R402, R428, R440,
R649). -/
def State.endCmd (s : State) (c : CmdRef) (f : Fin) : State :=
  match s.cmd c with
  | none => s
  | some k =>
    if k.phase = .ended then s
    else
      let good := decide (f.status = stOk)
      let status := if good && decide (0 < k.recov.count) then stOkRecovered else f.status
      let detail := if good then
          f.detail + (if 0 < k.recov.count then k.recov.detail else 0) + (if k.flashUnwritten then 2 ^ 63 else 0)
        else f.detail
      let ring := if c.block ≤ 8 then k.ring else 0
      let bs := recordBytes k.tag status ring detail f.c0 f.c1 (s.elapsed k) k.sqHead.toNat (k.qseq % 65536)
      let s1 := s.updCmd c (fun k => { k with phase := .ended, exec := none })
      if c.block ≤ 8 then
        s1.deliver c.block k.ring { cmd := some c.id, bytes := bs, noIrq := bitOf k.flags 1 }
      else (s1.dropCmd c).answer (bs ++ f.out)

/-- Count and log a refusal, and end the command with ST_PORT_DENIED (R404, R443). `extra` is bit [20] or [21]. -/
def State.deny (s : State) (c : CmdRef) (k : Cmd) (extra : Nat) : State :=
  let d := k.opcode + portOf c.block * 2 ^ 16 + extra
  let s1 := s.updBlock c.block (fun q => { q with denied := BitVec.ofNat 16 (min (q.denied.toNat + 1) 0xFFFF) })
  let e := { EventRec.plain 0x0103 with part := (k.partOf c.block).getD 0xF, detail := d, tag := k.tag }
  (s1.record e).endCmd c (Fin.with stPortDenied d)

/-! ### The master opcode table (R441, R442) -/

/-- Scope of an opcode. -/
inductive Scope where
  | engine
  | partition
  | context
  deriving DecidableEq, Repr

/-- Ports of an opcode, as a mask: bit 0 ADMIN, 1 TENANT, 2 MGMT, 3 DEBUG; none for an opcode the table does not list. -/
def opPorts (op : Nat) : Option Nat :=
  if op ∈ [0x0101, 0x0102, 0x0103, 0x0601, 0x0704, 0x0705, 0x0706, 0x0707, 0x0801, 0x0802, 0x0804, 0x0805, 0x0901] then
    some 1
  else if op ∈ [0x0104, 0x0108, 0x0905] then some 7
  else if op ∈ [0x0105, 0x0106, 0x0107, 0x0109, 0x0401, 0x0402, 0x0403, 0x0404, 0x040B, 0x0604, 0x0902, 0x0903, 0x0904] then
    some 3
  else if op ∈ [0x0201, 0x0202, 0x0203, 0x0204, 0x0301, 0x0302, 0x0303, 0x0304, 0x0305, 0x0306, 0x0307, 0x0308, 0x0405,
      0x0406, 0x0407, 0x0408, 0x0409, 0x040A, 0x0501, 0x0502, 0x0503, 0x0504, 0x0602, 0x0603, 0x0605] then some 2
  else if op = 0x0701 then some 15
  else if op = 0x0702 ∨ op = 0x0703 then some 13
  else if op = 0x0803 then some 8
  else none

/-- Scope of a command (R441, R442, R684). -/
def Cmd.scope (k : Cmd) (b : Nat) : Scope :=
  let op := k.opcode
  if op ∈ [0x0101, 0x0701, 0x0702, 0x0703, 0x0704, 0x0705, 0x0706, 0x0801, 0x0802, 0x0803, 0x0901] then .engine
  else if op = 0x0109 then (if portOf b = 1 then .partition else .engine)
  else if op = 0x0905 then (if portOf b = 2 then .engine else .partition)
  else if op = 0x0707 then (if k.p 0 1 % 4 = 2 then .partition else .engine)
  else if op ∈ [0x0107, 0x0108, 0x0401, 0x0402] then (if k.ctxField = 0xFFFF then .partition else .context)
  else if op ∈ [0x0102, 0x0103, 0x0104, 0x0105, 0x0403, 0x0404, 0x0601, 0x0604, 0x0804, 0x0805, 0x0902, 0x0903, 0x0904] then
    .partition
  else .context

/-- Whether the opcode is permitted on the port (step 3 of R433; R442 for OP_QUOTA_SET). -/
def Cmd.portOk (k : Cmd) (b : Nat) : Bool :=
  match opPorts k.opcode with
  | none => false
  | some m => bitOf m (portOf b) && !(k.opcode == 0x0107 && portOf b == 1 && k.ctxField == 0xFFFF)

/-- FLAGS bits an opcode may set (R424). -/
def flagMask (op : Nat) : Nat := if op ∈ [0x0204, 0x0308, 0x040B, 0x0303, 0x0109] then 0x0103 else 0x0003

/-- Header offset of the first field that fails step 4 of R433: FLAGS, HDR_VER, reserved bytes, QUEUE_SEQ on MGMT and
DEBUG, CTX and PART in the form of R442. OP_RESET's own rule names offset 0x16 (R684). -/
def Cmd.headerFault (k : Cmd) (b : Nat) : Option Nat :=
  let sc := k.scope b
  let port := portOf b
  let ctxOk := match sc with
    | .context => k.ctxField != 0xFFFF && port ≤ 1
    | .engine | .partition => k.ctxField == 0xFFFF
  let partOk := match sc with
    | .engine => k.partField == 0xFF
    | .partition | .context => if port = 1 then k.partField == 0xFF else decide (k.partField < 8)
  if k.flags &&& (0xFFFF - flagMask k.opcode) ≠ 0 then some 0x02
  else if k.u 6 1 ≠ 1 then some 0x06
  else if k.u 7 1 ≠ 0 then some 0x07
  else if port ≥ 2 ∧ k.qseq ≠ 0 then some 0x0C
  else if !ctxOk then some 0x14
  else if !partOk then some 0x16
  else if (List.range 41).any (fun i => k.u (0x17 + i) 1 != 0) then some 0x17
  else none

/-- Whether the life-cycle state admits an opcode (R444, R539); on DEBUG nothing is admitted in FIELD and TERMINATED, and in
PROVISIONED and RETURNED the mailbox opens with a session (R538; DEDUCED, notes/assumptions/27.md); a Steward in recovery mode
serves three opcodes on MGMT (R672). -/
def State.lcAdmits (s : State) (op port : Nat) : Bool :=
  let lc := s.lcState
  if port = 3 ∧ (lc = 2 ∨ lc = 4) ∧ s.sec.debugSession = none ∧ op ∈ [0x0701, 0x0702, 0x0703] then false
  else if s.start.phase = .recovery then port == 2 && decide (op ∈ [0x0701, 0x0702, 0x0703])
  else if lc = 1 then op != 0x0802 && op != 0x0804
  else if lc = 2 then op != 0x0804
  else if lc = 3 then op != 0x0803 && port != 3
  else if lc = 4 then decide (op ∈ [0x0701, 0x0702, 0x0703, 0x0801, 0x0803])
  else decide (op ∈ [0x0701, 0x0702]) && port != 3

/-- PARAM_LEN an opcode requires, or the minimum of its range, and whether the given length is permitted (step 9 of R433;
R441 and the owning chapters). -/
def Cmd.lenReq (k : Cmd) : Nat × Bool :=
  let op := k.opcode
  let binds := k.p 2 2
  let n :=
    if op ∈ [0x0102, 0x0106] then 0
    else if op ∈ [0x0103, 0x0306, 0x0307, 0x0402, 0x0403, 0x0603, 0x0604, 0x0705, 0x0707, 0x0804] then 4
    else if op ∈ [0x0104, 0x0108, 0x0109, 0x0308, 0x0701, 0x0706] then 8
    else if op = 0x0902 then 12
    else if op ∈ [0x0201, 0x0203, 0x0204, 0x0305, 0x0502, 0x0601, 0x0605, 0x0702, 0x0704, 0x0901, 0x0905] then 16
    else if op ∈ [0x0303, 0x0703] then 24
    else if op ∈ [0x0107, 0x0202, 0x0401, 0x0404, 0x0405, 0x0406, 0x0407, 0x0408, 0x0409, 0x040A, 0x040B, 0x0503, 0x0903] then
      32
    else if op = 0x0904 then 40
    else if op ∈ [0x0105, 0x0504] then 48
    else if op ∈ [0x0101, 0x0602] then 64
    else if op = 0x0805 then 112
    else if op = 0x0803 then 208
    else if op = 0x0801 then 224
    else if op = 0x0802 then 272
    else if op = 0x0301 then 0x80 + 16 * (k.p 0x42 2 + binds)
    else if op = 0x0302 then 0xC0 + 16 * binds
    else if op = 0x0304 then 0x80 + 16 * binds
    else 64 + 32 * k.p 0 2
  (n, decide (k.paramLen = n))

/-- Outcome of steps 3 to 9 of R433. -/
inductive Verdict where
  | pass
  | denied (extra : Nat)
  | fail (f : Fin)
  deriving DecidableEq, Repr

/-- The device interface of a partition is in RUN, or the partition is not confidential and has none (R557). -/
def State.tdiRuns (s : State) (p : Nat) : Bool := match s.part p with
  | none => true
  | some x => !x.confidential || x.sec.tdi == TdiState.run

/-- The partition whose data or state a command touches (R443): its own, or for OP_SPAN_STAT on MGMT, which has engine scope,
that of the port it asks for. -/
def State.partTouched (s : State) (k : Cmd) (b : Nat) : Option Nat :=
  if portOf b = 2 ∧ k.opcode = 0x0905 then s.partOfDie (k.p 0 4 % 32 / 2) else k.partOf b

/-- Whether R443 refuses the command because its partition is confidential, or R557 because the partition's interface is not
in RUN. -/
def State.confRefuses (s : State) (k : Cmd) (b : Nat) : Bool :=
  match s.partTouched k b with
  | none => false
  | some p => s.confidential p &&
      ((portOf b == 1 && !s.tdiRuns p) ||
        (portOf b == 0 && decide (k.opcode ∈ [0x0404, 0x040B, 0x0604])) ||
        (portOf b == 2 && decide (k.opcode ∈ [0x0104, 0x0905, 0x0108])))

/-- Step 6 of R433 with the table of R457: none where it passes. -/
def State.partCheck (s : State) (k : Cmd) (p : Nat) : Option Fin :=
  match s.part p with
  | none => some (Fin.bare stPartInvalid)
  | some x =>
    let served := match x.state with
      | .active => true
      | .draining => k.opcode == 0x0102
      | .disabled => k.opcode == 0x0102 || k.opcode == 0x0104 || (k.opcode == 0x0103 && bitOf (k.p 0 1) 0)
      | .destroying => false
    if served || k.accepted then none else some (Fin.with stAbortedByDisable k.granules)

/-- Steps 3 to 9 of R433. -/
def State.validate (s : State) (c : CmdRef) (k : Cmd) : Verdict :=
  let b := c.block
  if !k.portOk b then .denied 0
  else match k.headerFault b with
  | some off => .fail (Fin.with stHeaderInvalid off)
  | none =>
    if !s.lcAdmits k.opcode (portOf b) then .fail (Fin.bare stLcState)
    else
      let sc := k.scope b
      let part := if sc = .engine then none else k.partOf b
      match part.bind (s.partCheck k) with
      | some f => .fail f
      | none =>
        if s.confRefuses k b then .denied (2 ^ 20)
        else
          let ctxOk := match sc, part with
            | .context, some p => (match s.ctx p k.ctxField with
              | none => false
              | some x => x.destroyedBy.isNone || k.accepted)
            | _, _ => true
          if !ctxOk then .fail (Fin.bare stCtxInvalid)
          else
            let (n, ok) := k.lenReq
            if ok then .pass else .fail (Fin.with stParamLen (k.paramLen + n % 65536 * 2 ^ 16))

/-- Commands of the same ring copied earlier and not complete. -/
def State.earlier (s : State) (c : CmdRef) (k : Cmd) : List Cmd :=
  (s.block c.block).cmds.filter (fun j => decide (j.id < k.id) && j.ring == k.ring)

/-- A validated OP_LC_ADVANCE or OP_KEY_PROVISION that has not completed holds the later commands of ADMIN, MGMT and DEBUG
(R543, R563), unless it waits itself for the end of a TRIAL (R592; DEDUCED, notes/assumptions/27.md). -/
def State.lcHolds (s : State) (b : Nat) : Bool :=
  (b == 0 || b == 9 || b == 10) && !(s.fw.kinds.any (fun e => e.2.phase == FwPhase.trial)) &&
    (s.block 0).cmds.any (fun j => (j.opcode == 0x0801 || j.opcode == 0x0802) && (j.phase == .waiting || j.phase == .started))

/-- Whether a command may start validation: in ring order, and after every earlier one is complete when ORDERED (R434,
R436). -/
def State.mayValidate (s : State) (c : CmdRef) (k : Cmd) : Bool :=
  let es := s.earlier c k
  if s.lcHolds c.block then false
  else if k.ordered then es.isEmpty else !es.any (fun j => j.phase == .copied)

/-- Mark a command started (R437). -/
def State.startCmd (s : State) (c : CmdRef) : State :=
  s.updCmd c (fun k => if k.startAt.isSome then k else { k with phase := .started, startAt := some s.tb.now })

/-- Output of a command at an engine address, or inline on MGMT and DEBUG (R440): the state and how the command ends. -/
def State.output (s : State) (c : CmdRef) (w : Who) (addr : Nat) (bs : List Byte) (f : Fin) : State × Option Fin :=
  if c.block ≤ 8 then
    match s.writeEng w addr bs with
    | .ok _ s1 => (s1, some f)
    | .bad st d s1 => (s1, some (Fin.with st d))
    | .wait => (s, none)
  else if addr ≠ 0 ∨ 4096 < bs.length then
    let k := s.cmd c
    let given := k.elim 0 Cmd.paramLen
    let required := k.elim 0 (fun j => j.lenReq.1)
    (s, some (Fin.with stParamLen (given + required % 65536 * 2 ^ 16)))
  else (s, some { f with out := bs })

/-- Read-only view: QB_STAT.IN_FLIGHT (R407). -/
def QBlock.inFlight (q : QBlock) : Nat := q.cmds.length

end Sys2Proof.Machine
end

