-- ==== Sys2Proof/Machine/Kv.lean ====
section
/-! DEFINITION. Sequences, page sets, page lists, the page tree, forks, copy-on-write, swap and thaw (R246 to R275, R289,
R302 to R310, R714). -/

namespace Sys2Proof.Machine

/-- A 16-bit count that saturates. -/
def satInc16 (w : Half) : Half := BitVec.ofNat 16 (min (w.toNat + 1) 0xFFFF)

/-- A 32-bit count that saturates. -/
def satInc32 (w : Word) : Word := BitVec.ofNat 32 (min (w.toNat + 1) 0xFFFFFFFF)

/-! ### Access -/

/-- KV state of a context. -/
def State.kv (s : State) (p c : Nat) : Option KvState := (s.ctx p c).bind (fun x => x.kv)

/-- A sequence by its handle. -/
def KvState.seq (v : KvState) (h : Nat) : Option Sequence := v.seqs.find? (fun q => q.handle == h)

/-- Change a sequence. -/
def KvState.upd (v : KvState) (h : Nat) (f : Sequence → Sequence) : KvState :=
  { v with seqs := v.seqs.map (fun q => if q.handle = h then f q else q) }

/-- A sequence of a context. -/
def State.seq (s : State) (p c h : Nat) : Option Sequence := (s.kv p c).bind (fun v => v.seq h)

/-- Change a sequence of a context. -/
def State.updSeq (s : State) (p c h : Nat) (f : Sequence → Sequence) : State := s.updKv p c (fun v => v.upd h f)

/-- Reference count of a page set: the entries of sequences that name it. -/
def KvState.refs (v : KvState) (n : Nat) : Nat := (v.seqs.map (fun q => (q.pages.filter (fun e => e == some n)).length)).sum

/-- Sequences that hold a page set. -/
def KvState.holders (v : KvState) (n : Nat) : List Sequence := v.seqs.filter (fun q => q.pages.contains (some n))

/-- Address of a page of a pool (R250). -/
def pageAddr (pool : Nat × Nat × Nat) (n : Nat) : Nat := pool.2.1 + n * pool.2.2

/-- Address of the checkpoint page of a page set (R303). -/
def KvState.ckptAddr (v : KvState) (n : Nat) : Nat := v.statePool + n * v.sb

/-- Address of a copy of a live block (R303). -/
def KvState.liveAddr (v : KvState) (b : Nat) (second : Bool) : Nat := v.liveBase + b * (2 * v.sbx) + (if second then v.sbx else 0)

/-- Zero a page set in all pools (R258, R303). -/
def State.zeroPage (s : State) (v : KvState) (n : Nat) : State :=
  let s1 := v.pools.foldl (fun t q => t.zeroDram (pageAddr q n) q.2.2) s
  if v.sb = 0 then s1 else s1.zeroDram (v.ckptAddr n) v.sb

/-- Zero, in every pool, the positions of a page set from offset i upward, with the checkpoint page, which a block that is not
full does not have (R259, R270, R305). -/
def State.zeroFrom (s : State) (v : KvState) (n i : Nat) : State :=
  let s1 := v.pools.foldl (fun t q =>
    let e := q.2.2 / 512
    let a := pageAddr q n
    (t.zeroDram (a + i * e) ((256 - i) * e)).zeroDram (a + q.2.2 / 2 + i * e) ((256 - i) * e)) s
  if v.sb = 0 then s1 else s1.zeroDram (v.ckptAddr n) v.sb

/-! ### Page lists (R253 to R256, R714) -/

/-- The address PAGE descriptors of a sequence use (R255). -/
def KvState.listAddr (v : KvState) (q : Sequence) : Nat :=
  match q.range with
  | none => v.ctlBase + 2 ^ 27 + 4 * q.listOff
  | some (vb, _) => v.ctlBase + 2 ^ 26 + 4 * vb

/-- Entry of a block in a page list or in the translation table. -/
def entryBytes (range : Bool) (e : Option Nat) : List Byte :=
  match range, e with
  | false, some n => leBytes 4 n
  | false, none => leBytes 4 0xFFFFFFFF
  | true, some n => leBytes 4 (2 ^ 31 + n)
  | true, none => leBytes 4 0

/-- Write a sequence's list, or its translations, to the control area, none entries to the end of its room (R255, R256); the
translation caches drop the translations that change (R257). -/
def State.syncList (s : State) (p c h : Nat) : State :=
  match s.kv p c with
  | none => s
  | some v => match v.seq h with
    | none => s
    | some q =>
      let room (n : Nat) : List Byte := (q.pages ++ List.replicate (n - q.pages.length) none).flatMap (entryBytes q.range.isSome)
      match q.range with
      | none => s.putDram (v.ctlBase + 2 ^ 27 + 4 * q.listOff) (room q.listCap)
      | some (vb, vn) => (s.dropXlat (v.ctlBase + 4 * vb) (4 * vn)).putDram (v.ctlBase + 4 * vb) (room vn)

/-- The lowest gap of n below a limit that meets no used range. -/
def firstGap (used : List (Nat × Nat)) (limit n : Nat) : Option Nat :=
  (sortBy (fun a b => decide (a ≤ b)) (0 :: used.map (fun u => u.1 + u.2))).find? (fun a =>
    decide (a + n ≤ limit) && used.all (fun u => decide (a + n ≤ u.1 ∨ u.1 + u.2 ≤ a)))

/-- Give a sequence list space for n blocks (R255): in place, elsewhere in the list area, or by moving it to RANGE mode;
none where neither has room. The first gap that fits is taken, in steps of 16 entries (DESIGN CHOICE,
notes/assumptions/10.md). -/
def KvState.ensureList (v : KvState) (h n : Nat) : Option KvState :=
  match v.seq h with
  | none => none
  | some q =>
    let want := (n + 15) / 16 * 16
    match q.range with
    | none =>
      if n ≤ q.listCap then some v
      else
        let used := (v.seqs.filter (fun x => x.handle != h && x.range.isNone)).map (fun x => (x.listOff, x.listCap))
        match firstGap used (16 * v.np) want with
        | some off => some (v.upd h (fun x => { x with listOff := off, listCap := want }))
        | none =>
          let ranges := v.seqs.filterMap (fun x => x.range)
          (firstGap ranges (2 ^ 24) want).map (fun vb =>
            v.upd h (fun x => { x with listOff := 0, listCap := 0, range := some (vb, want) }))
    | some (_, vn) =>
      if n ≤ vn then some v
      else
        let ranges := (v.seqs.filter (fun x => x.handle != h)).filterMap (fun x => x.range)
        (firstGap ranges (2 ^ 24) want).map (fun vb => v.upd h (fun x => { x with range := some (vb, want) }))

/-! ### Page sets -/

/-- Page sets that nothing references any more: their nodes leave the tree, no sequence's NODE names them (R246), and they wait
to be zeroed (R258, R261). -/
def KvState.sweep (v : KvState) (ns : List Nat) : KvState :=
  let dead := (ns.dedup).filter (fun n => v.refs n == 0 && !v.freePages.contains n && !v.zeroing.contains n)
  { v with
    seqs := v.seqs.map (fun q => if q.node.any dead.contains then { q with node := none } else q)
    tree := v.tree.filter (fun t => !dead.contains t.page)
    keepers := v.keepers.filter (fun k => !dead.contains k.1)
    zeroing := v.zeroing ++ dead }

/-- Insert a number in an ascending list. -/
def insertAsc (n : Nat) : List Nat → List Nat
  | [] => [n]
  | m :: ms => if n < m then n :: m :: ms else if n = m then m :: ms else m :: insertAsc n ms

/-- A released page set has been zeroed and is free again (R258). -/
def State.pageZeroed (s : State) (p c n : Nat) : State :=
  match s.kv p c with
  | none => s
  | some v =>
    if v.zeroing.contains n then
      (s.zeroPage v n).updKv p c (fun w => { w with
        zeroing := w.zeroing.filter (fun m => m != n)
        freePages := insertAsc n w.freePages })
    else s

/-- A page set has lost a holder: where one sequence that no command writes is left, its positions beyond that sequence's LENGTH
are zero again (R259). Codewords that are poisoned keep what they hold; no command answers for them. -/
def State.trimPage (s : State) (p c n : Nat) : State :=
  match s.kv p c with
  | none => s
  | some v => match v.holders n with
    | [q] =>
      let b := q.pages.idxOf (some n)
      if q.status ≠ .busy ∧ q.length < 256 * (b + 1) then
        s.aside (s.zeroFrom v n (q.length - 256 * b))
      else s
    | _ => s

/-- Page sets have lost a holder (R258, R259, R261). -/
def State.dropRefs (s : State) (p c : Nat) (ns : List Nat) : State :=
  (ns.dedup).foldl (fun t n => t.trimPage p c n) (s.updKv p c (fun v => v.sweep ns))

/-- Release a sequence: its page sets, its live block, its list (R258, R310). -/
def State.releaseSeq (s : State) (p c h : Nat) : State :=
  match s.kv p c with
  | none => s
  | some v => match v.seq h with
    | none => s
    | some q =>
      let ns := q.pages.filterMap id
      let s1 := match q.live with
        | none => s
        | some b => s.zeroDram (v.liveAddr b false) (2 * v.sbx)
      (s1.updKv p c (fun w => { w with
          seqs := w.seqs.filter (fun x => x.handle != h)
          keepers := w.keepers.filter (fun k => k.2 != h)
          freeLive := match q.live with
            | none => w.freeLive
            | some b => insertAsc b w.freeLive })).dropRefs p c ns

/-- A handle that no sequence of the context uses: the first unused one from a free value upward, never 0 or 0xFFFF_FFFF
(R246; the manual gives no order of handles: notes/assumptions/2.md). -/
def KvState.newHandle (v : KvState) (start : Nat) : Nat :=
  ((List.range (v.seqs.length + 3)).map (fun i => (start + i) % 2 ^ 32)).find? (fun h =>
    h != 0 && h != 0xFFFFFFFF && (v.seq h).isNone) |>.getD 1

/-- One of a list, chosen by a free value. -/
def State.pick {α : Type} (s : State) (xs : List α) : Option α × State :=
  let (w, s1) := s.takeFree
  (xs[w.toNat % xs.length]?, s1)

/-- Add a sequence with a new handle, taking a live block where the plan has recurrent state (R249, R304); none where a
limit is met. -/
def State.addSeq (s : State) (p c : Nat) (q : Sequence) : Option (Nat × State) :=
  match s.kv p c with
  | none => none
  | some v =>
    if 65536 ≤ v.seqs.length then none
    else if v.sb = 0 then
      let (w, s1) := s.takeFree
      let h := v.newHandle w.toNat
      some (h, s1.updKv p c (fun x => { x with seqs := x.seqs ++ [{ q with handle := h, live := none }] }))
    else match s.pick v.freeLive with
      | (none, _) => none
      | (some b, s0) =>
        let (w, s1) := s0.takeFree
        let h := v.newHandle w.toNat
        some (h, s1.updKv p c (fun x => { x with
          seqs := x.seqs ++ [{ q with handle := h, live := some b, liveSecond := false }]
          freeLive := x.freeLive.filter (fun m => m != b) }))

/-- An empty sequence (R246). -/
def Sequence.fresh (priority : Nat) (domain : Dword) : Sequence :=
  { handle := 0, length := 0, status := .idle, priority := priority, domain := domain, pages := [], listOff := 0, listCap := 0,
    range := none, node := none, offTree := false, tokens := [], dormant := false, live := none, liveSecond := false,
    writtenAt := 0, swap := none }

/-! ### The page tree (R260 to R267) -/

/-- mix64 (R260). -/
def mix64 (x : Dword) : Dword :=
  let x := x ^^^ (x >>> 31)
  let x := x * 0xA4C12E973D58F06B#64
  let x := x ^^^ (x >>> 29)
  let x := x * 0x6E2BD9751C84A3F9#64
  x ^^^ (x >>> 32)

/-- root_key (R260). -/
def rootKey (domain : Dword) : Dword := mix64 (domain ^^^ 0x5EED000000000001#64)

/-- The fold of page_key over pairs of tokens. -/
def foldTokens : Dword → List Word → Dword
  | h, a :: b :: ts => foldTokens (mix64 (h ^^^ (b ++ a : Dword))) ts
  | h, _ => h

/-- page_key (R260). -/
def pageKey (parent : Dword) (toks : List Word) : Dword := foldTokens (mix64 (parent ^^^ 0x5EED000000000100#64)) toks

/-- A node by its page number. -/
def KvState.nodeOf (v : KvState) (n : Nat) : Option TreeNode := v.tree.find? (fun t => t.page == n)

/-- Key of the parent of block b of a sequence; none where its NODE is not the node of block b - 1 (R263, R265). -/
def KvState.parentKey (v : KvState) (q : Sequence) (b : Nat) : Option Dword :=
  if b = 0 then some (rootKey q.domain)
  else if q.pages.getD (b - 1) none = q.node then (q.node.bind v.nodeOf).map (fun t => t.key)
  else none

/-- What a lookup finds (R263). -/
inductive Lookup where
  | hit (page : Nat)
  | absent
  | collision
  deriving DecidableEq, Repr

/-- Look up block b of a sequence (R263). -/
def KvState.lookup (v : KvState) (q : Sequence) (b : Nat) (toks : List Word) : Lookup :=
  match v.parentKey q b with
  | none => .absent
  | some pk => match v.tree.find? (fun t => t.key == pageKey pk toks) with
    | none => .absent
    | some t =>
      if t.tokens = toks ∧ (if b = 0 then t.parent = none else t.parent = q.node) ∧ (v.sb = 0 ∨ t.ckpt) then .hit t.page
      else .collision

/-- Look up, from the sequence's end, the blocks that tokens fill; every hit enters the list (R264). Returns the blocks
hit. -/
def State.lookups (s : State) (p c h : Nat) : Nat → List Word → Nat → List Nat × State
  | 0, _, _ => ([], s)
  | n + 1, toks, b =>
    if toks.length < 256 then ([], s)
    else match s.kv p c with
      | none => ([], s)
      | some v => match v.seq h with
        | none => ([], s)
        | some q =>
          let blk := toks.take 256
          match v.lookup q b blk with
          | .hit page =>
            match v.ensureList h (b + 1) with
            | none => ([], s.updKv p c (fun w => { w with prefixMisses := satInc32 w.prefixMisses }))
            | some v1 =>
              let v2 := v1.upd h (fun x => { x with
                pages := (x.pages ++ List.replicate (b + 1 - x.pages.length) none).set b (some page)
                node := some page })
              let v3 := { v2 with prefixHits := satInc32 v2.prefixHits }
              let (bs, s1) := ((s.updKv p c (fun _ => v3)).syncList p c h).lookups p c h n (toks.drop 256) (b + 1)
              (b :: bs, s1)
          | .absent => ([], s.updKv p c (fun w => { w with prefixMisses := satInc32 w.prefixMisses }))
          | .collision => ([], s.updKv p c (fun w => { w with
              prefixMisses := satInc32 w.prefixMisses
              collisions := satInc16 w.collisions }))

/-- Set OFF_TREE. -/
def KvState.offTree (v : KvState) (h : Nat) : KvState := v.upd h (fun q => { q with offTree := true, node := none })

/-- Block b of a sequence has become full with the given tokens: insert, merge or leave the tree (R265, R266). -/
def State.fullBlock (s : State) (p c h b : Nat) (toks : List Word) : State :=
  match s.kv p c with
  | none => s
  | some v => match v.seq h with
    | none => s
    | some q =>
      if q.offTree then s
      else match v.parentKey q b, q.pages.getD b none with
        | none, _ => s.updKv p c (fun w => { w.offTree h with insertSkipped := satInc16 w.insertSkipped })
        | some _, none => s
        | some pk, some own =>
          match v.lookup q b toks with
          | .hit page =>
            let v1 := v.upd h (fun x => { x with pages := x.pages.set b (some page), node := some page })
            ((s.updKv p c (fun _ => v1)).dropRefs p c [own]).syncList p c h
          | .absent =>
            if v.np ≤ v.tree.length then
              s.updKv p c (fun w => { w.offTree h with insertSkipped := satInc16 w.insertSkipped })
            else
              let t : TreeNode := { page := own, key := pageKey pk toks, parent := if b = 0 then none else q.node,
                                    tokens := toks, ckpt := decide (v.sb ≠ 0) }
              s.updKv p c (fun w => { (w.upd h (fun x => { x with node := some own })) with tree := w.tree ++ [t] })
          | .collision => s.updKv p c (fun w => { w.offTree h with collisions := satInc16 w.collisions })

/-- Handle the full blocks of a run of tokens that starts at block b. -/
def State.fullBlocks (s : State) (p c h : Nat) : Nat → Nat → List Word → State
  | 0, _, _ => s
  | n + 1, b, toks =>
    if toks.length < 256 then s else (s.fullBlock p c h b (toks.take 256)).fullBlocks p c h n (b + 1) (toks.drop 256)

/-- Commit an advance of a sequence over the given tokens: LENGTH, the live copy, and the blocks that became full (R247,
R265, R304). `skip` is the number of leading tokens that tree hits covered. -/
def State.commitSeq (s : State) (p c h : Nat) (toks : List Word) (skip : Nat) : State :=
  match s.seq p c h with
  | none => s
  | some q =>
    let all := q.tokens ++ toks
    let first := q.length / 256 + skip / 256
    let s1 := s.updSeq p c h (fun x => { x with
      length := q.length + toks.length
      tokens := all
      liveSecond := !x.liveSecond })
    let s2 := s1.updKv p c (fun v => { v.upd h (fun x => { x with writtenAt := v.clock }) with clock := v.clock + 1 })
    s2.fullBlocks p c h (all.length + 1) first (all.drop (256 * first))

/-! ### Allocation and copy-on-write (R258, R268 to R270) -/

/-- Take the lowest free page set (R258). -/
def KvState.takePage (v : KvState) : Option (Nat × KvState) :=
  match v.freePages with
  | [] => none
  | n :: ns => some (n, { v with freePages := ns })

/-- Copy the valid positions of a block into a new page set (R269 step 2). -/
def State.copyPage (s : State) (v : KvState) (src dst count : Nat) : State :=
  v.pools.foldl (fun t q =>
    let e := q.2.2 / 512
    (t.copyDram (pageAddr q src) (pageAddr q dst) (count * e)).copyDram (pageAddr q src + q.2.2 / 2)
      (pageAddr q dst + q.2.2 / 2) (count * e)) s

/-- Whether a writer writes a shared page set in place as its keeper (R269). -/
def KvState.keeps (v : KvState) (writers : List Nat) (n h : Nat) : Bool :=
  v.keepers.contains (n, h) &&
    (v.holders n).all (fun q => q.handle == h || q.dormant || writers.contains q.handle)

/-- Whether a writer of block b of a sequence copies it (R269): another holder is there, and it does not write in place as the
keeper. -/
def KvState.copies (v : KvState) (writers : List Nat) (h b : Nat) : Bool :=
  match (v.seq h).bind (fun q => q.pages.getD b none) with
  | none => false
  | some n => decide (1 < v.refs n) && !v.keeps writers n h

/-- Make block b of a sequence writable before the first step of a granule that writes it: allocate it, or copy it where `copy`
says so. None where a page set is missing. A page set written in place is zero beyond LENGTH (R259). -/
def State.writable (s : State) (p c h b : Nat) (copy : Bool) : Option State :=
  match s.kv p c with
  | none => none
  | some v0 => match v0.ensureList h (b + 1) with
    | none => none
    | some v => match v.seq h with
      | none => none
      | some q =>
        let ps := q.pages ++ List.replicate (b + 1 - q.pages.length) none
        match ps.getD b none with
        | none => match v.takePage with
          | none => none
          | some (n, v1) =>
            let v2 := v1.upd h (fun x => { x with pages := ps.set b (some n) })
            some ((s.updKv p c (fun _ => v2)).syncList p c h)
        | some n =>
          if copy then match v.takePage with
            | none => none
            | some (m, v1) =>
              let s1 := s.copyPage v n m (q.length - 256 * b)
              let v2 := v1.upd h (fun x => { x with pages := ps.set b (some m) })
              let v3 := { v2 with cowCopies := satInc32 v2.cowCopies }
              some (((s1.updKv p c (fun _ => v3)).dropRefs p c [n]).syncList p c h)
          else
            let s1 := (s.updKv p c (fun _ => v)).syncList p c h
            some (if v.refs n ≤ 1 ∧ q.length < 256 * (b + 1) then s1.zeroFrom v n (q.length - 256 * b) else s1)

/-- Make the blocks of a list of (handle, block) writable in order, each with whether its writer copies. -/
def State.writeEach (s : State) (p c : Nat) : List ((Nat × Nat) × Bool) → Option State
  | [] => some s
  | ((h, b), copy) :: rest => (s.writable p c h b copy).bind (fun t => t.writeEach p c rest)

/-- The page sets that a step writes, as (handle, block) in the order of the writers: each is resolved for all its writers before
the first of them copies (R269; DEDUCED, notes/assumptions/20.md). Answers the count of copies; none where a page set is
missing. -/
def State.writables (s : State) (p c : Nat) (writers : List Nat) (blocks : List (Nat × Nat)) : Option (State × Nat) :=
  let todo := blocks.map (fun e => (e, (s.kv p c).any (fun v => v.copies writers e.1 e.2)))
  (s.writeEach p c todo).map (fun t => (t, todo.countP (fun e => e.2)))

/-- Blocks that n positions from a start touch. -/
def blocksOf (start n : Nat) : List Nat :=
  if n = 0 then [] else (List.range ((start + n - 1) / 256 + 1 - start / 256)).map (fun i => start / 256 + i)

/-- Zero the positions at or beyond LENGTH in a sequence's own blocks (R259, R468). -/
def State.zeroTail (s : State) (p c h : Nat) : State :=
  match s.kv p c with
  | none => s
  | some v => match v.seq h with
    | none => s
    | some q =>
      (q.pages.zipIdx).foldl (fun t e => match e.1 with
        | none => t
        | some n =>
          if q.length < 256 * (e.2 + 1) ∧ v.refs n = 1 then t.zeroFrom v n (q.length - 256 * e.2) else t) s

/-- Undo what a command did to a sequence beyond its committed LENGTH: tree hits leave the list, new page sets are
zeroed, and the sequence is IDLE (R264, R468). -/
def State.rollbackSeq (s : State) (p c h : Nat) (hits : List Nat) (oldNode : Option Nat) : State :=
  match s.kv p c with
  | none => s
  | some v => match v.seq h with
    | none => s
    | some q =>
      let gone := hits.filterMap (fun b => q.pages.getD b none)
      let ps := hits.foldl (fun l b => l.set b none) q.pages
      let v1 := v.upd h (fun x => { x with
        pages := ps
        node := if hits.isEmpty then x.node else oldNode
        status := if x.status = .busy then .idle else x.status })
      (((s.updKv p c (fun _ => v1)).dropRefs p c gone).syncList p c h).zeroTail p c h

/-! ### Forks (R268 to R271, R306, R307) -/

/-- Whether the state at a fork position is known (R306). -/
def KvState.stateKnown (v : KvState) (q : Sequence) (pos : Nat) : Bool :=
  v.sb == 0 || pos == q.length || pos == 0 || pos % 256 == 0

/-- Address of the state at a fork position: the committed copy or a checkpoint page; none for zero (R306). -/
def KvState.stateAt (v : KvState) (q : Sequence) (pos : Nat) : Option Nat :=
  if pos = q.length then q.live.map (fun b => v.liveAddr b q.liveSecond)
  else if pos = 0 then none
  else (q.pages.getD (pos / 256 - 1) none).map v.ckptAddr

/-- Fork a child at a position: it names the parent's page sets and takes a copy of the state (R268, R271, R307). -/
def State.forkChild (s : State) (p c h pos : Nat) : Option (Nat × State) :=
  match s.kv p c with
  | none => none
  | some v => match v.seq h with
    | none => none
    | some q =>
      let pages := q.pages.take ((pos + 255) / 256)
      let node := if pos < 256 then none else (q.pages.getD (pos / 256 - 1) none).bind (fun n => (v.nodeOf n).map (fun t => t.page))
      let child : Sequence := { Sequence.fresh q.priority q.domain with
        length := pos, node := node, offTree := q.offTree, tokens := q.tokens.take pos, writtenAt := q.writtenAt }
      match s.addSeq p c child with
      | none => none
      | some (k, s1) => match s1.kv p c with
        | none => none
        | some v1 => match v1.ensureList k pages.length with
          | none => none
          | some v2 =>
            let v3 := v2.upd k (fun x => { x with pages := pages })
            let s2 := (s1.updKv p c (fun _ => v3)).syncList p c k
            let s3 := match (v3.seq k).bind (fun x => x.live), v.stateAt q pos with
              | some b, some a => s2.copyDram a (v.liveAddr b false) v.sb
              | _, _ => s2
            some (k, s3)

/-- Fork n children one after another. -/
def State.forkChildren (s : State) (p c h pos : Nat) : Nat → Option (List Nat × State)
  | 0 => some ([], s)
  | n + 1 =>
    match s.forkChild p c h pos with
    | none => none
    | some (k, s1) => (s1.forkChildren p c h pos n).map (fun r => (k :: r.1, r.2))

/-- Make a child the keeper of the block that is partly filled at the fork position (R270, R280). -/
def State.setKeeper (s : State) (p c h pos : Nat) : State :=
  match s.seq p c h with
  | none => s
  | some q => match q.pages.getD (pos / 256) none with
    | none => s
    | some n => if pos % 256 = 0 then s else s.updKv p c (fun v => { v with keepers := (n, h) :: v.keepers })

/-- Fork with the parent released: the first child takes over its references and live block and, like every new sequence, a page
list in LIST mode (R255); the others copy the state (R270, R307). -/
def State.forkReleasing (s : State) (p c h pos n : Nat) : Option (List Nat × State) :=
  match s.kv p c with
  | none => none
  | some v => match v.seq h with
    | none => none
    | some q =>
      match s.forkChildren p c h pos (n - 1) with
      | none => none
      | some (ks, s1) =>
        let (w, s2) := s1.takeFree
        let k := ((s2.kv p c).getD v).newHandle w.toNat
        let kept := q.pages.take ((pos + 255) / 256)
        let lost := q.pages.drop ((pos + 255) / 256)
        let node := if pos < 256 then none else (q.pages.getD (pos / 256 - 1) none).bind (fun n => (v.nodeOf n).map (fun t => t.page))
        let alone := match q.pages.getD (pos / 256) none with
          | none => false
          | some m => v.refs m == 1
        let free := match q.pages.getD (pos / 256) none with
          | none => false
          | some m => (v.holders m).all (fun z => z.handle == h || z.dormant)
        let s3 := (s2.updKv p c (fun x =>
          let y := { x with keepers := x.keepers.filter (fun e => e.2 != h) }.upd h (fun y => { y with
            handle := k, length := pos, pages := kept, node := node, tokens := q.tokens.take pos, status := .idle,
            listOff := 0, listCap := 0, range := none })
          (y.ensureList k kept.length).getD y)).dropRefs p c (lost.filterMap id)
        -- The first child takes over the live block; its committed copy receives the state of R306.
        let s4 := match q.live, v.stateAt q pos with
          | some b, some a => if pos = q.length then s3 else s3.copyDram a (v.liveAddr b q.liveSecond) v.sb
          | some b, none => s3.zeroDram (v.liveAddr b q.liveSecond) v.sb
          | none, _ => s3
        let s5 := s4.syncList p c k
        let s6 :=
          if pos = q.length then (if free then s5.setKeeper p c k pos else s5)
          else if pos % 256 ≠ 0 ∧ alone = true then
            match q.pages.getD (pos / 256) none with
            | none => s5
            | some m => (s5.zeroFrom v m (pos % 256)).setKeeper p c k pos
          else s5
        some (k :: ks, s6)

/-! ### Swap and thaw (R272 to R275, R309) -/

/-- Ranges of DRAM of one page set: its pages in every pool and its checkpoint page. -/
def KvState.setRanges (v : KvState) (n : Nat) : List (Nat × Nat) :=
  v.pools.map (fun g => (pageAddr g n, g.2.2)) ++ (if v.sb = 0 then [] else [(v.ckptAddr n, v.sb)])

/-- Bytes of one page set in the swap area. -/
def KvState.setBytes (v : KvState) : Nat := (v.pools.map (fun q => q.2.2)).sum + v.sb

/-- Blocks whose page set a sequence alone references. -/
def KvState.ownBlocks (v : KvState) (q : Sequence) : List (Nat × Nat) :=
  (q.pages.zipIdx).filterMap (fun e => match e.1 with
    | none => none
    | some n => if v.refs n = 1 then some (e.2, n) else none)

/-- Bytes a sequence takes in the swap area: its own page sets, its list and its state (R273, R309). -/
def KvState.swapBytes (v : KvState) (q : Sequence) : Nat :=
  match q.swap with
  | some i => i.pages.length * v.setBytes + 4 * q.pages.length + v.sb
  | none => (v.ownBlocks q).length * v.setBytes + 4 * q.pages.length + v.sb

/-- Bytes of the swap quota in use. -/
def KvState.swapUsed (v : KvState) : Nat := ((v.seqs.filter (fun q => q.swap.isSome)).map v.swapBytes).sum

/-- Bytes of DRAM that a swap-out reads, as a copy that starts at address 0. -/
def State.imageOf (s : State) (a n : Nat) : Memory := Memory.copyFrom s.mem.dram a n [] 0

/-- Swap a sequence out; none where the swap area has no room (R273, R309). What it writes is read by the conductor, whose reads
meet the errors that stand there (R334). -/
def State.swapOut (s : State) (p c h : Nat) : Option State :=
  match s.ctx p c with
  | none => none
  | some x => match x.kv with
    | none => none
    | some v => match v.seq h with
      | none => none
      | some q =>
        if x.quota.swap < v.swapUsed + v.swapBytes q then none
        else
          let own := v.ownBlocks q
          let state := q.live.toList.map (fun b => (v.liveAddr b q.liveSecond, v.sb))
          let s0 := (own.flatMap (fun e => v.setRanges e.2) ++ state).foldl (fun t r => t.fwRead r.1 r.2) s
          let img : SwapImage := {
            pages := own.map (fun e => (e.1, (v.setRanges e.2).map (fun r => s0.imageOf r.1 r.2)))
            state := state.flatMap (fun r => s0.imageOf r.1 r.2) }
          let s1 := match q.live with
            | none => s0
            | some b => s0.zeroDram (v.liveAddr b false) (2 * v.sbx)
          let v1 := v.upd h (fun y => { y with
            pages := own.foldl (fun l e => l.set e.1 none) y.pages
            status := .swapped
            live := none
            swap := some img })
          let v2 := { v1.sweep (own.map (fun e => e.2)) with
            freeLive := match q.live with
              | none => v1.freeLive
              | some b => insertAsc b v1.freeLive
            swapOut := satInc16 v1.swapOut }
          some ((s1.updKv p c (fun _ => v2)).syncList p c h)

/-- The order in which R272 step 2 chooses sequences: lowest PRIORITY, then least recently written, then highest HANDLE. -/
def swapBefore (a b : Sequence) : Bool :=
  decide (a.priority < b.priority ∨ (a.priority = b.priority ∧
    (a.writtenAt < b.writtenAt ∨ (a.writtenAt = b.writtenAt ∧ b.handle < a.handle))))

/-- IDLE sequences below a priority, in the order of R272 step 2. -/
def KvState.victims (v : KvState) (priority : Nat) : List Nat :=
  (sortBy (fun a b => swapBefore a b) (v.seqs.filter (fun q => q.status == .idle && decide (q.priority < priority)))).map (fun q => q.handle)

/-- Restore one swapped block into a page set. -/
def State.restorePage (s : State) (v : KvState) (n : Nat) (img : List Memory) : State :=
  ((v.setRanges n).zip img).foldl (fun t e => t.fwWrite e.1.1 e.1.2 (fun m => Memory.copyFrom e.2 0 e.1.2 m e.1.1)) s

/-- Restore swapped blocks one after another, with new page numbers. -/
def State.restorePages (s : State) (p c h : Nat) : List (Nat × List Memory) → Option State
  | [] => some s
  | (b, img) :: rest =>
    match s.kv p c with
    | none => none
    | some v => match v.takePage with
      | none => none
      | some (n, v1) =>
        let s1 := s.restorePage v n img
        (s1.updKv p c (fun _ => v1.upd h (fun y => { y with pages := y.pages.set b (some n) }))).restorePages p c h rest

/-- Thaw a swapped sequence (R275, R309): none where page sets or live blocks are short. -/
def State.thaw (s : State) (p c h : Nat) : Option State :=
  match s.kv p c with
  | none => none
  | some v => match v.seq h with
    | none => none
    | some q => match q.swap with
      | none => some s
      | some img =>
        if v.sb ≠ 0 ∧ v.freeLive.isEmpty then none
        else match s.restorePages p c h img.pages with
          | none => none
          | some s1 =>
            let (b, s2) := if v.sb = 0 then (none, s1) else s1.pick v.freeLive
            let s3 := match b with
              | none => s2
              | some b => s2.fwWrite (v.liveAddr b false) v.sb (fun m => Memory.copyFrom img.state 0 v.sb m (v.liveAddr b false))
            let s4 := s3.updKv p c (fun w => { (w.upd h (fun y => { y with
                status := .idle, swap := none, live := b, liveSecond := false })) with
              freeLive := match b with
                | none => w.freeLive
                | some b => w.freeLive.filter (fun m => m != b)
              thawIn := satInc16 w.thawIn })
            some (s4.syncList p c h)

/-- Whether live blocks are short, which R272 does not supply: for the thaws of the swapped ones of some sequences, and for
`more` children (R307, R309). -/
def State.liveShort (s : State) (p c : Nat) (hs : List Nat) (more : Nat) : Bool :=
  match s.kv p c with
  | none => false
  | some v =>
    v.sb != 0 && decide (v.freeLive.length < (hs.filter (fun h => (v.seq h).any (fun q => q.swap.isSome))).length + more)

/-- Swap out sequences in turn until a page set comes free (R272 step 2, R273): one for which the swap area has no room is not
chosen; one whose write the host refuses stays resident, the Steward logs the refusal, and the next is tried. Answers whether
page sets came free. -/
def State.swapVictims (s : State) (p c : Nat) : List Nat → Bool × State
  | [] => (false, s)
  | h :: hs => match s.swapOut p c h with
    | none => s.swapVictims p c hs
    | some t =>
      if s.mem.swapRefused.contains (p + 1) then
        (s.record { EventRec.plain Config.swapRefusalCode with part := p }).swapVictims p c hs
      else if (t.kv p c).any (fun v => !v.zeroing.isEmpty) then (true, t)
      else t.swapVictims p c hs

/-- How an allocation ends (R258, R272): met, waiting for zeroing, or short. -/
inductive Alloc (α : Type) where
  | got (a : α)
  | wait
  | short (s : State)

/-- Try an allocation; while page sets are short, wait for zeroing, then swap out the sequences of R272 step 2 in turn. Their released page sets must be zeroed first, so the command then waits. -/
def State.allocate {α : Type} (s : State) (p c priority : Nat) (try_ : State → Option α) : Alloc α × State :=
  match try_ s with
  | some a => (.got a, s)
  | none =>
    match s.kv p c with
    | none => (.short s, s)
    | some v =>
      if !v.zeroing.isEmpty then (.wait, s)
      else
        match s.swapVictims p c (v.victims priority) with
        | (true, s1) => (.wait, s1)
        | (false, s1) => (.short s1, s1)

/-! ### Statistics (R289) -/

/-- The 32-byte KV statistics record. -/
def KvState.record (v : KvState) : List Byte :=
  let shared := ((List.range v.np).filter (fun n => decide (1 < v.refs n))).length
  leBytes 2 v.thawIn.toNat ++ leBytes 2 v.swapOut.toNat ++ leBytes 4 v.cowCopies.toNat ++ leBytes 2 v.insertSkipped.toNat ++
    leBytes 2 v.collisions.toNat ++ leBytes 4 v.prefixMisses.toNat ++ leBytes 4 v.prefixHits.toNat ++
    leBytes 4 shared ++ leBytes 4 v.freePages.length ++ leBytes 4 v.np

/-- Reset the counting fields (R289). -/
def KvState.clearCounts (v : KvState) : KvState :=
  { v with prefixHits := 0, prefixMisses := 0, collisions := 0, insertSkipped := 0, cowCopies := 0, swapOut := 0, thawIn := 0 }

end Sys2Proof.Machine
end

