-- ==== Sys2Proof/Machine/RomBound.lean ====
section
/-! DEFINITION. The functions of R195 in fixed point, with 400 bits after the point, and the largest error that R195 allows a
ROM result. The terms dropped lie below 2^-380, far below a unit in the last place of any FP32 result. -/

namespace Sys2Proof.Machine.Cu

/-- One in fixed point. -/
def fxOne : Int := 2 ^ 400

/-- Product and quotient in fixed point, rounded down. -/
def fxMul (a b : Int) : Int := a * b / fxOne
def fxDiv (a b : Int) : Int := a * fxOne / b

/-- A sum of terms, each made from the one before it and its number. -/
def fxSeries (step : Int → Nat → Int) : Nat → Nat → Int → Int
  | 0, _, _ => 0
  | n + 1, k, t => t + fxSeries step n (k + 1) (step t (k + 1))

/-- Square root in fixed point. -/
def fxSqrt (a : Int) : Int := (Float.isqrt (a.toNat * 2 ^ 400) 700 0 : Nat)

/-- The series of atanh and atan in odd powers of z; `sg` is 1 for atanh and -1 for atan. -/
def fxOdd (sg z : Int) : Int :=
  let ps := (List.range 200).foldl (fun (r : Int × Int) k => (r.1 + r.2 / (2 * k + 1), sg * fxMul r.2 (fxMul z z))) (0, z)
  ps.1

/-- ln 2 and pi. -/
def fxLn2 : Int := 2 * fxOdd 1 (fxOne / 3)
def fxPi : Int := 16 * fxOdd (-1) (fxOne / 5) - 4 * fxOdd (-1) (fxOne / 239)

/-- e^x: beyond 300 in magnitude, the value at that bound. -/
def fxExp (x0 : Int) : Int :=
  let x := max (-300 * fxOne) (min (300 * fxOne) x0)
  let k := x / fxLn2
  let e := fxSeries (fun t n => fxMul t (x - k * fxLn2) / n) 120 0 fxOne
  if 0 ≤ k then e * 2 ^ k.toNat else e / 2 ^ (-k).toNat

/-- ln x for a positive x. -/
def fxLn (x : Int) : Int :=
  let k : Int := (Nat.log2 x.toNat : Int) - 400
  let m := if 0 ≤ k then x / 2 ^ k.toNat else x * 2 ^ (-k).toNat
  k * fxLn2 + 2 * fxOdd 1 (fxDiv (m - fxOne) (m + fxOne))

/-- tanh x. -/
def fxTanh (x : Int) : Int :=
  let e := fxExp (-2 * |x|)
  let t := fxDiv (fxOne - e) (fxOne + e)
  if x < 0 then -t else t

/-- erf x: beyond 10 in magnitude, 1 with the sign of x. -/
def fxErf (x : Int) : Int :=
  if 10 * fxOne < |x| then (if x < 0 then -fxOne else fxOne)
  else
    let r := (List.range 600).foldl
      (fun (r : Int × Int) k => (r.1 + r.2 / (2 * k + 1), -(fxMul r.2 (fxMul x x)) / (k + 1))) (0, x)
    fxDiv (2 * r.1) (fxSqrt fxPi)

/-- The logistic function. -/
def fxSigmoid (x : Int) : Int :=
  let e := fxExp (-|x|)
  if x < 0 then fxDiv e (fxOne + e) else fxDiv fxOne (fxOne + e)

/-- The functions 0x00 to 0x0C of R194 at a finite argument. GELU_TANH is the usual approximation with the constant 0.044715
(PRESUMED, notes/assumptions/3.md). -/
def fxRom (f : Nat) (x : Int) : Int :=
  match f with
  | 0x00 => fxExp x
  | 0x01 => fxExp (fxMul x fxLn2)
  | 0x02 => fxLn x
  | 0x03 => fxDiv (fxLn x) fxLn2
  | 0x05 => fxDiv fxOne (fxSqrt x)
  | 0x07 => fxSigmoid x
  | 0x08 => fxTanh x
  | 0x09 => fxMul (x / 2) (fxOne + fxErf (fxDiv x (fxSqrt (2 * fxOne))))
  | 0x0A =>
    let inner := x + fxMul x (fxMul x x) * 44715 / 1000000
    fxMul (x / 2) (fxOne + fxTanh (fxMul (fxSqrt (fxDiv (2 * fxOne) fxPi)) inner))
  | 0x0B => fxMul x (fxSigmoid x)
  | _ => fxLn (fxOne + fxExp x)

/-- A finite FP32 value in fixed point. -/
def fxOf (w : Word) : Int := Float.signed w * 2 ^ 251

/-- The unit in the last place, in FP32, of an exact value (R195). -/
def fxUlp (e : Int) : Int := 2 ^ (max (Nat.log2 e.natAbs - 23) 251)

/-- The largest error of R195: 1 or 2 ulp, or 2^-32 where that is larger. -/
def romError (f : Nat) (e : Int) : Int :=
  if f < 0x07 then fxUlp e
  else if 0x09 ≤ f ∧ f ≤ 0x0B then max (2 * fxUlp e) (2 ^ 368)
  else 2 * fxUlp e

/-- An exact value rounded to FP32 (R46). -/
def fxRound (e : Int) : Word := Float.round32 (decide (e < 0)) e.natAbs (2 ^ 251)

/-- A ROM result held within the error that R195 allows: one outside the bound gives way to the rounded exact value. -/
def romBound (f : Nat) (a r : Word) : Word :=
  let e := fxRom f (fxOf a)
  if Float.isFinite r && decide (|fxOf r - e| ≤ romError f e) then r else fxRound e

end Sys2Proof.Machine.Cu
end

