-- ==== Sys2Proof/Machine/Sfu.lean ====
section
/-! DEFINITION. The special function unit (chapter 6, R191 to R215): ROM functions, loaded tables and
micro-programs, row statistics and online softmax. -/

namespace Sys2Proof.Machine.Cu

/-! ### Function tables (R197, R198) -/

/-- A table image read as words. -/
structure TableView where
  nseg : Nat
  binade : Bool
  mbits : Nat
  expv : Int
  oor : Nat
  x0 : Word
  lo : Word
  hi : Word
  segs : Nat → Nat → Word

/-- An 8-bit field as a signed number. -/
def signed8 (n : Nat) : Int := if n ≥ 128 then (n : Int) - 256 else n

/-- The view of a table whose image word i is `wd i` (R197). -/
def tableView (wd : Nat → Word) : TableView :=
  let w0 := (wd 0).toNat
  { nseg := bitsOf w0 7 0 + 1
    binade := bitOf w0 8
    mbits := bitsOf w0 12 9
    expv := signed8 (bitsOf w0 23 16)
    oor := bitsOf w0 25 24
    x0 := wd 1
    lo := wd 2
    hi := wd 3
    segs := fun i j => wd (8 + 4 * i + j) }

/-- Whether a table image is valid (R200). -/
def tableValid (bs : List Byte) : Bool :=
  let w0 := field bs 0 4
  let binade := bitOf w0 8
  let x0 := BitVec.ofNat 32 (field bs 4 4)
  bitsOf w0 15 13 == 0 && bitsOf w0 31 26 == 0 && field bs 16 16 == 0 &&
  decide (bitsOf w0 12 9 ≤ 8) && (binade || bitsOf w0 12 9 == 0) && bitsOf w0 25 24 != 3 &&
  Float.isFinite x0 && (!binade || x0 == 0#32)

/-- The image length of a table (R197). -/
def tableLength (bs : List Byte) : Nat := 32 + 16 * (bitsOf (field bs 0 4) 7 0 + 1)

/-- A power of two as an FP32 value. -/
def pow2 (k : Int) : Word := Float.scalb 0x3F800000#32 k

/-- Floor of a value times a power of two; `d` is finite. -/
def floorScaled (d : Word) (k : Int) : Int :=
  let n : Int := Float.signed d
  let e : Int := k - 149
  if e ≥ 0 then n * 2 ^ e.toNat else n / 2 ^ (-e).toNat

/-- d - i × 2^k, formed exactly and rounded once (R198); k lies in the range of EXPV or -MBITS. -/
def subScaled (d : Word) (i k : Int) : Word :=
  match Float.unpack d with
  | .fin _ _ =>
    let n := Float.signed d * 2 ^ 151 - i * 2 ^ (k + 300).toNat
    Float.round32 (decide (n < 0)) n.natAbs (2 ^ 151)
  | .nan => Float.nan32
  | .inf s => Float.inf32 s

/-- Where a table's argument falls: a segment with its local argument, or outside. -/
inductive TablePlace where
  | at (i : Nat) (t : Word)
  | below
  | above
  deriving DecidableEq, Repr

/-- The segment index and local argument in UNIFORM mode (R198). -/
def placeUniform (tb : TableView) (r : Word) : TablePlace × Word :=
  let d := Float.sub r tb.x0
  match Float.unpack d with
  | .inf true => (.below, d)
  | .inf false => (.above, d)
  | .nan => (.below, d)
  | .fin _ _ =>
    let q := floorScaled d (-tb.expv)
    if q < 0 then (.below, d)
    else if q ≥ tb.nseg then (.above, d)
    else (.at q.toNat (subScaled d q tb.expv), d)

/-- The segment index and local argument in BINADE mode (R198). -/
def placeBinade (tb : TableView) (r : Word) : TablePlace :=
  match Float.unpack r with
  | .inf true => .below
  | .inf false => .above
  | .nan => .below
  | .fin true _ => .below
  | .fin false n =>
    if n = 0 then .below
    else
      let e : Int := (Nat.log2 n : Int) - 149
      let f := Float.scalb r (-e)
      let f1 := Float.sub f 0x3F800000#32
      let j := floorScaled f1 tb.mbits
      let q := (e - tb.expv) * 2 ^ tb.mbits + j
      if q < 0 then .below
      else if q ≥ tb.nseg then .above
      else .at q.toNat (subScaled f1 j (-tb.mbits))

/-- A segment's cubic at a local argument (R198). -/
def cubic (tb : TableView) (i : Nat) (t : Word) : Word :=
  Float.fma (Float.fma (Float.fma (tb.segs i 3) t (tb.segs i 2)) t (tb.segs i 1)) t (tb.segs i 0)

/-- TEV (R198). -/
def tev (tb : TableView) (r : Word) : Word :=
  if Float.isNan r then Float.nan32
  else
    let p := if tb.binade then (placeBinade tb r, r) else placeUniform tb r
    match p.1 with
    | .at i t => cubic tb i t
    | out =>
      let low := decide (out = .below)
      if tb.oor = 2 then (if low then tb.lo else tb.hi)
      else
        let i := if low then 0 else tb.nseg - 1
        if tb.oor = 0 && !tb.binade then cubic tb i (subScaled p.2 i tb.expv)
        else if low then cubic tb 0 0#32
        else cubic tb i (if tb.binade then pow2 (-tb.mbits) else pow2 tb.expv)

/-- The view of a loaded image. -/
def imageView (bs : List Byte) : TableView := tableView (fun i => BitVec.ofNat 32 (field bs (4 * i) 4))

/-- TEV of a loaded table slot: an empty slot delivers the canonical NaN (R200). -/
def tevSlot (c : Core) (slot : Nat) (r : Word) : Word :=
  match SMap.get [] c.mem.tables slot with
  | [] => Float.nan32
  | bs => tev (imageView bs) r

/-! ### Micro-programs (R202 to R204) -/

/-- One step word (R202). -/
structure Step where
  op : Nat
  dst : Nat
  sa : Nat
  sb : Nat
  sc : Nat
  last : Bool
  rsv : Nat
  imm : Nat
  deriving DecidableEq, Repr

/-- Decode a step word (R202). -/
def stepOf (w : Nat) : Step :=
  { op := bitsOf w 31 27, dst := bitsOf w 26 24, sa := bitsOf w 23 20, sb := bitsOf w 19 16, sc := bitsOf w 15 12,
    last := bitOf w 11, rsv := bitsOf w 10 8, imm := bitsOf w 7 0 }

/-- The steps of an image up to and including the last step; none when no step has LAST set (R204). -/
def stepsOf (bs : List Byte) : Option (List Step) :=
  let ss := (List.range 16).map (fun i => stepOf (field bs (4 * i) 4))
  let k := ss.findIdx (fun s => s.last)
  if k < 16 then some (ss.take (k + 1)) else none

/-- Whether one executed step is valid (R204). -/
def stepValid (s : Step) : Bool :=
  decide (s.op ≤ 0x12) && s.rsv == 0 &&
  (s.imm == 0 || s.op == 0x0B || s.op == 0x0E || s.op == 0x12) &&
  (s.op != 0x0B || decide (s.imm ≤ 0x0F ∨ (0x80 ≤ s.imm ∧ s.imm ≤ 0xBF))) &&
  (s.op != 0x12 || decide (s.imm < 0x40))

/-- Whether a micro-program image is valid (R204). -/
def microValid (bs : List Byte) : Bool :=
  match stepsOf bs with
  | some ss => ss.all stepValid
  | none => false

/-- The registers of one lane of a running micro-program (R203). -/
structure Lane where
  t : List Word
  kr : Int
  deriving DecidableEq, Repr

/-- A source: T0 to T7, then K0 to K7 (R202). -/
def src (ks : List Word) (l : Lane) (i : Nat) : Word := if i < 8 then l.t.getD i 0 else ks.getD (i - 8) 0

/-- Write a step's result to a temporary; a NaN is the canonical one (R48). -/
def setT (l : Lane) (i : Nat) (w : Word) : Lane := { l with t := l.t.set i (Float.canon w) }

/-- The class bits of SELC (R203). -/
def classBits (w : Word) : Nat :=
  match Float.unpack w with
  | .nan => 1
  | .inf s => if s then 2 else 4
  | .fin s n =>
    if n = 0 then (if s then 8 else 16)
    else
      let sub := decide (n < 2 ^ 23)
      if s then 32 + (if sub then 64 else 0) else (if sub then 64 else 128)

/-- EXPO (R203): the unbiased exponent, and the significand with the sign. -/
def expoOf (a : Word) : Int × Word :=
  match Float.unpack a with
  | .fin _ n =>
    if n = 0 then (0, a)
    else
      let e : Int := (Nat.log2 n : Int) - 149
      (e, Float.scalb a (-e))
  | .nan => (0, Float.nan32)
  | .inf _ => (0, a)

/-- One lane step (R203), given TEV of the running core; row steps are done over all lanes. -/
def laneStep (tv : Nat → Word → Word) (ks : List Word) (s : Step) (l : Lane) : Lane :=
  let a := src ks l s.sa
  let b := src ks l s.sb
  let d := src ks l s.sc
  match s.op with
  | 0x00 => setT l s.dst a
  | 0x01 => setT l s.dst (Float.add a b)
  | 0x02 => setT l s.dst (Float.mul a b)
  | 0x03 => setT l s.dst (Float.fma a b d)
  | 0x04 => setT l s.dst (Float.maxF a b)
  | 0x05 => setT l s.dst (Float.minF a b)
  | 0x06 => setT l s.dst (a &&& 0x7FFFFFFF#32)
  | 0x07 =>
    let k := (Float.toInt32 (Float.mul a b)).toInt
    setT { l with kr := k } s.dst (Float.fma (Float.neg (Float.ofInt32 (BitVec.ofInt 32 k))) d a)
  | 0x08 => setT l s.dst (Float.ofInt32 (BitVec.ofInt 32 l.kr))
  | 0x09 => setT l s.dst (Float.scalb a l.kr)
  | 0x0A => let e := expoOf a; setT { l with kr := e.1 } s.dst e.2
  | 0x0B => setT l s.dst (tv s.imm a)
  | 0x0C => let e := Float.fma (Float.neg b) a 0x3F800000#32; setT l s.dst (Float.fma a e a)
  | 0x0D =>
    let h := Float.mul b a
    let e := Float.fma (Float.neg h) a 0x3F800000#32
    setT l s.dst (Float.fma (Float.mul 0x3F000000#32 a) e a)
  | 0x0E => setT l s.dst (if classBits a &&& s.imm ≠ 0 then b else d)
  | 0x0F => if Float.lt a b then setT l s.dst d else l
  | _ => l

/-- One step over the 64 lanes, row steps included (R203). -/
def rowStep (tv : Nat → Word → Word) (ks : List Word) (s : Step) (ls : List Lane) : List Lane :=
  let as := ls.map (fun l => src ks l s.sa)
  match s.op with
  | 0x10 => let r := Float.foldSum as; ls.map (fun l => setT l s.dst r)
  | 0x11 => let r := foldMax as; ls.map (fun l => setT l s.dst r)
  | 0x12 => let r := as.getD (s.imm % 64) 0; ls.map (fun l => setT l s.dst r)
  | _ => ls.map (laneStep tv ks s)
where
  foldMax : List Word → Word
    | [] => 0#32
    | z :: zs => zs.foldl Float.maxF (Float.canon z)

/-- TEV of a ROM table of a generation (R203, R206). -/
def tevRom (gen2 : Bool) (t : Nat) (r : Word) : Word := tev (tableView (fun i => Config.romTableWord gen2 t i)) r

/-- TEV of a loaded micro-program by its immediate: a loaded slot, or a ROM table, which is that of generation 3 under either
setting (R203, R215). -/
def tevBy (c : Core) (imm : Nat) (r : Word) : Word :=
  if imm < 0x10 then tevSlot c imm r else tevRom false (imm - 0x80) r

/-- TEV of a ROM micro-program of a generation: it names ROM tables alone. -/
def tevOfRom (gen2 : Bool) (imm : Nat) (r : Word) : Word :=
  if imm < 0x80 then Float.nan32 else tevRom gen2 (imm - 0x80) r

/-- Run a micro-program image on two registers (R203). -/
def runMicro (tv : Nat → Word → Word) (bs : List Byte) (a b : List Word) : List Word :=
  match stepsOf bs with
  | none => List.replicate 64 Float.nan32
  | some ss =>
    let ks := (List.range 8).map (fun i => BitVec.ofNat 32 (field bs (64 + 4 * i) 4))
    let ls := List.zipWith (fun p q => ({ t := [p, q, 0, 0, 0, 0, 0, 0], kr := 0 } : Lane)) a b
    let out := ss.foldl (fun l s => rowStep tv ks s l) ls
    let d := (ss.getLast?.map (fun s => s.dst)).getD 0
    out.map (fun l => l.t.getD d 0)

/-! ### ROM functions (R194, R195, R210, R213, R215) -/

/-- Subnormal inputs of generation 2 are zeros of their sign (R215). -/
def flushSub (a : Word) : Word :=
  if bitsOf a.toNat 30 23 = 0 then Float.zero32 (Float.signBit a) else a

/-- The identifiers whose generation-2 results differ (R215). -/
def gen2Fn (f : Nat) : Bool := [0x00, 0x02, 0x04, 0x05, 0x07, 0x08, 0x0A, 0x0B].contains f

/-- A power of two, as its exponent. -/
def exactLog2 (n : Nat) : Option Int :=
  let e := Nat.log2 n
  if n = 2 ^ e then some ((e : Int) - 149) else none

/-- The integer a finite value is, if it is one. -/
def asInteger (s : Bool) (n : Nat) : Option Int :=
  if n % Float.one149 = 0 then
    let i : Int := ((n / Float.one149 : Nat) : Int)
    some (if s then -i else i)
  else none

/-- Results that R195 fixes, in generation 3, in FP32 type. -/
def romFixed (f : Nat) (a : Word) : Option Word :=
  let neg := Float.signBit a
  match f, Float.unpack a with
  | _, .nan => some Float.nan32
  -- EXP
  | 0x00, .inf s => some (if s then 0#32 else Float.inf32 false)
  | 0x00, .fin s n =>
    if n = 0 then some 0x3F800000#32
    else if !s && decide (a.toNat ≥ 0x42B17218) then some (Float.inf32 false) else none
  -- EXP2
  | 0x01, .inf s => some (if s then 0#32 else Float.inf32 false)
  | 0x01, .fin s n =>
    match asInteger s n with
    | some i => if -149 ≤ i ∧ i ≤ 127 then some (pow2 i) else none
    | none => none
  -- LOG
  | 0x02, .inf s => some (if s then Float.nan32 else Float.inf32 false)
  | 0x02, .fin s n =>
    if n = 0 then some (Float.inf32 true) else if s then some Float.nan32
    else if a = 0x3F800000#32 then some 0#32 else none
  -- LOG2
  | 0x03, .inf s => some (if s then Float.nan32 else Float.inf32 false)
  | 0x03, .fin s n =>
    if n = 0 then some (Float.inf32 true) else if s then some Float.nan32
    else (exactLog2 n).map (fun e => Float.ofInt32 (BitVec.ofInt 32 e))
  -- RCP: correctly rounded
  | 0x04, _ => some (Float.div 0x3F800000#32 a)
  -- RSQRT
  | 0x05, .inf s => some (if s then Float.nan32 else 0#32)
  | 0x05, .fin s n =>
    if n = 0 then some (Float.inf32 neg) else if s then some Float.nan32
    else match exactLog2 n with
      | some e => if e % 2 = 0 then some (pow2 (-(e / 2))) else none
      | none => none
  -- SQRT: correctly rounded
  | 0x06, _ => some (Float.sqrt a)
  -- SIGMOID
  | 0x07, .inf s => some (if s then 0#32 else 0x3F800000#32)
  | 0x07, .fin _ n => if n = 0 then some 0x3F000000#32 else none
  -- TANH
  | 0x08, .inf s => some (if s then 0xBF800000#32 else 0x3F800000#32)
  | 0x08, .fin _ n => if n = 0 then some a else none
  -- GELU, GELU_TANH, SILU
  | 0x09, .inf s => some (if s then 0x80000000#32 else Float.inf32 false)
  | 0x09, .fin _ n => if n = 0 then some a else none
  | 0x0A, .inf s => some (if s then 0x80000000#32 else Float.inf32 false)
  | 0x0A, .fin _ n => if n = 0 then some a else none
  | 0x0B, .inf s => some (if s then 0x80000000#32 else Float.inf32 false)
  | 0x0B, .fin _ n => if n = 0 then some a else none
  -- SOFTPLUS
  | 0x0C, .inf s => some (if s then 0#32 else Float.inf32 false)
  | 0x0C, .fin _ n =>
    if n = 0 then some 0x3F317218#32
    else if Float.lt 0x41800000#32 a then some a else none
  | _, _ => none

/-- The image of a ROM micro-program (R202, R206). -/
def romImage (gen2 : Bool) (f : Nat) : List Byte :=
  (List.range 32).flatMap (fun i => leBytes 4 (Config.romMicroWord gen2 f i).toNat)

/-- What the ROM micro-program of a function delivers in a lane (R194, R206). -/
def romRaw (gen2 : Bool) (f : Nat) (a : Word) : Word := Float.canon ((runMicro (tevOfRom gen2) (romImage gen2 f) [a] [0#32]).headD 0)

/-- A ROM function of generation 3 of one argument: the fixed result, or the ROM micro-program's within the error of R195.
TANH is odd, and SOFTPLUS below -20 is EXP (R195). -/
def romGen3 (f : Nat) (a : Word) : Word :=
  match romFixed f a with
  | some r => r
  | none =>
    if f = 0x08 && Float.signBit a then Float.negVal (romBound f (Float.neg a) (romRaw false f (Float.neg a)))
    else if f = 0x0C && Float.lt a 0xC1A00000#32 then romBound 0x00 a (romRaw false 0x00 a)
    else romBound f a (romRaw false f a)

/-- A ROM function of one argument (R195, R215). Of generation 2 the manual fixes a NaN's result and EXP(-∞) = +0 (R48, R212,
R221); the rest is its ROM micro-program's. -/
def romEval (gen2 : Bool) (f : Nat) (a : Word) : Word :=
  if gen2 && gen2Fn f then
    if Float.isNan a then Float.nan32
    else if f = 0x00 && a == Float.inf32 true then 0#32
    else romRaw true f (flushSub a)
  else romGen3 f a

/-- EXP of the plan's generation (R212, R213). -/
def romExp (gen2 : Bool) (a : Word) : Word := romEval gen2 0x00 a

/-- Lane i of a register's words. -/
def lane (ws : List Word) (i : Nat) : Word := ws.getD i 0#32

/-- A record of given leading lanes, +0 elsewhere (R207, R211). -/
def record (ws : List Word) : List Word := ws ++ List.replicate (64 - ws.length) 0#32

/-- The final branch of the fold of R208: fold (n', mu', m2', q') into a record. -/
def mergeRec (rec : List Word) (l mt vt qt : Word) : List Word :=
  let n := lane rec 0
  let mu := lane rec 1
  let m2 := lane rec 2
  let q := lane rec 3
  let n2 := Float.add n l
  let delta := Float.sub mt mu
  let mu' := Float.fma delta (Float.div l n2) mu
  let w := Float.div (Float.mul n l) n2
  let m2' := Float.fma (Float.mul delta delta) w (Float.add m2 vt)
  record [n2, mu', m2', Float.add q qt]

/-- Whether an FP32 value equals zero. -/
def isZero (w : Word) : Bool := w == 0#32 || w == 0x80000000#32

/-- The ROM functions 0x10 to 0x17 on two registers (R210, R213, R215). Under generation 2, the listed functions
read subnormal inputs as zeros of their sign. -/
def romPair (gen2 : Bool) (f : Nat) (a0 b0 : List Word) : List Word :=
  let fl := gen2 && decide (f ≤ 0x14)
  let a := if fl then a0.map flushSub else a0
  let b := if fl then b0.map flushSub else b0
  let eps := lane b 0
  match f with
  | 0x10 =>
    if gen2 then
      let mu := Float.div (lane a 1) (lane a 0)
      let va := Float.maxF (Float.sub (Float.div (lane a 3) (lane a 0)) (Float.mul mu mu)) 0#32
      record [mu, romEval true 0x05 (Float.add va eps)]
    else record [lane a 1, romEval false 0x05 (Float.add (Float.div (lane a 2) (lane a 0)) eps)]
  | 0x11 => record [0#32, romEval gen2 0x05 (Float.add (Float.div (lane a 3) (lane a 0)) eps)]
  | 0x12 => a.map (fun z => Float.mul (Float.sub z (lane b 0)) (lane b 1))
  | 0x13 => a.map (fun z => Float.mul z (lane b 2))
  | 0x14 => a.map (fun z => Float.mul z (romEval gen2 0x04 (lane b 1)))
  | 0x15 =>
    if gen2 then
      record [Float.add (lane a 0) (lane b 0), Float.add (lane a 1) (lane b 1), lane a 2,
        Float.add (lane a 3) (lane b 3)]
    else if isZero (lane a 0) then record (b.take 4)
    else mergeRec a (lane b 0) (lane b 1) (lane b 2) (lane b 3)
  | 0x16 =>
    let m := Float.maxF (lane a 0) (lane b 0)
    if m = Float.inf32 true then
      record [m, Float.add (lane a 1) (lane b 1), 0x3F800000#32, 0x3F800000#32]
    else
      let ca := romEval false 0x00 (Float.sub (lane a 0) m)
      let cb := romEval false 0x00 (Float.sub (lane b 0) m)
      record [m, Float.add (Float.mul (lane a 1) ca) (Float.mul (lane b 1) cb), ca, cb]
  | _ => a.map (fun z => Float.mul z (lane b 3))

/-! ### The instructions (R171) -/

/-- SFN (R191, R193, R194): in BF16 type, the FP32 result rounded once. -/
def sfn (c : Core) (w : TileWord) : Res :=
  let f := w.md.toNat
  let bf := immBits w 0 0 = 1
  let g := fun a => if f ≤ 0x0C then romEval c.run.gen2 f a else tevSlot c (f - 0x40) a
  let a := v c w.f2
  let r := if bf then ofHalves ((halves a).map (fun h => Float.toBf (g (Float.widen h)))) else a.map g
  legal (usesOnly w true true false false 0xFF#8 1#32 && decide (f ≤ 0x0C ∨ (0x40 ≤ f ∧ f ≤ 0x4F))) uSfu
    (next (setV c w.f1 r))

/-- STBL (R199, R200): loads a slot; an invalid image leaves it empty. The smallest image must lie in SPAD before the first
32 bytes are read, the whole image once they give its length. -/
def stbl (c : Core) (w : TileWord) : Res :=
  let f := w.md.toNat
  let off := ea c w.f2 (immBits w 21 0)
  let micro := decide (f < 0x40)
  let head := (narrowParts c off 1).1
  let n := if micro then 3 else (tableLength head + 31) / 32
  let least := if micro then 3 else 2
  legal (usesOnly w false true false false 0xFF#8 0x3FFFFF#32 &&
      decide ((0x20 ≤ f ∧ f ≤ 0x2F) ∨ (0x40 ≤ f ∧ f ≤ 0x4F))) uSfu
    (spadRange off (32 * least) 32 uSfu
      (withAccess c off 32 uSfu
        (spadRange off (32 * n) 32 uSfu
          (withAccess c off (32 * n) uSfu
            (let r := narrowReads c off n
             let im := if micro then (if microValid r.1 then r.1 else [])
               else (if tableValid r.1 then r.1.take (tableLength head) else [])
             let m := r.2.mem
             let m' := if micro then { m with micros := SMap.set [] m.micros (f - 0x20) im }
               else { m with tables := SMap.set [] m.tables (f - 0x40) im }
             next { r.2 with mem := m' })))))

/-- SMP (R194, R203, R205). -/
def smp (c : Core) (w : TileWord) : Res :=
  let f := w.md.toNat
  let a := v c w.f2
  let b := v c w.f3
  let r :=
    if f ≤ 0x0C then a.map (romEval c.run.gen2 f)
    else if f ≤ 0x17 then romPair c.run.gen2 f a b
    else match SMap.get [] c.mem.micros (f - 0x20) with
      | [] => List.replicate 64 Float.nan32
      | bs => runMicro (tevBy c) bs a b
  legal (usesOnly w true true true false 0xFF#8 0 &&
      decide (f ≤ 0x0C ∨ (0x10 ≤ f ∧ f ≤ 0x17) ∨ (0x20 ≤ f ∧ f ≤ 0x2F))) uSfu (next (setV c w.f1 r))

/-- The fold of L values into a statistics record (R208); under generation 2 the record holds a sum (R215). -/
def srowFold (gen2 init : Bool) (rec xs : List Word) : List Word :=
  let l := Float.ofNat xs.length
  let n := if init then 0#32 else lane rec 0
  match xs with
  | [] => rec
  | x0 :: rest =>
    let st := rest.foldl Float.add (Float.canon x0)
    let qt := rest.foldl (fun q z => Float.fma z z q) (Float.mul x0 x0)
    if gen2 then
      let s0 := if init then 0#32 else lane rec 1
      let q0 := if init then 0#32 else lane rec 3
      record [Float.add n l, Float.add s0 st, 0#32, Float.add q0 qt]
    else
      let mt := Float.div st l
      let d0 := Float.sub x0 mt
      let vt := rest.foldl (fun q z => let dv := Float.sub z mt; Float.fma dv dv q) (Float.mul d0 d0)
      if isZero n then record [l, mt, vt, qt] else mergeRec rec l mt vt qt

/-- SROW (R208). -/
def srow (c : Core) (w : TileWord) : Res :=
  let a := v c w.f2
  let xs := if modBits w 0 0 = 1 then (halves a).map Float.widen else a
  legal (usesOnly w true true false false 0x03#8 0) uSfu
    (next (setV c w.f1 (srowFold c.run.gen2 (decide (modBits w 1 1 = 1)) (v c w.f1) xs)))

/-- A pairwise tree of sums over adjacent values (R215). -/
def treeSum : Nat → List Word → Word
  | 0, xs => xs.headD 0
  | k + 1, xs => treeSum k (pairs xs)
where
  pairs : List Word → List Word
    | a :: b :: xs => Float.add a b :: pairs xs
    | xs => xs

/-- SSMX (R212, R215): the new record and the weights. -/
def ssmxFold (gen2 init : Bool) (rec xs : List Word) : List Word × List Word :=
  let m0 := if init then Float.inf32 true else lane rec 0
  let s0 := if init then 0#32 else lane rec 1
  let m := xs.foldl Float.maxF m0
  if m = Float.inf32 true then (record [m, s0, 0x3F800000#32], List.replicate 64 0#32)
  else
    let cc := romExp gen2 (Float.sub m0 m)
    let p := xs.map (fun z => romExp gen2 (Float.sub z m))
    let s :=
      if gen2 then Float.add (Float.mul s0 cc) (treeSum 6 p)
      else p.foldl Float.add (Float.mul s0 cc)
    (record [m, s, cc], p)

/-- SSMX (R212). The record is written after the weights when one register is named for both. -/
def ssmx (c : Core) (w : TileWord) : Res :=
  let r := ssmxFold c.run.gen2 (decide (modBits w 0 0 = 1)) (v c w.f1) (v c w.f2)
  legal (usesOnly w true true true false 0x01#8 0) uSfu
    (next (setV (setV c w.f3 r.2) w.f1 r.1))

end Sys2Proof.Machine.Cu
end

