-- ==== Sys2Proof/Machine/PlanImage.lean ====
section
/-! DEFINITION. Plan images: their layout (R226 to R238, R363, R596) and their validation (R240). -/

namespace Sys2Proof.Machine

/-- A section directory entry (R227). -/
structure PlanSection where
  ty : Nat
  off : Nat
  size : Nat
  deriving DecidableEq, Repr

namespace Plan

/-- A field of an image. -/
def u (img : List Byte) (off w : Nat) : Nat := field img off w

/-- The section directory, which starts at 0x100 (R227). -/
def sections (img : List Byte) : List PlanSection :=
  (List.range (u img 0x18 2)).map (fun i =>
    let o := 0x100 + 16 * i
    { ty := u img o 2, off := u img (o + 4) 4, size := u img (o + 8) 4 })

/-- A section by type. -/
def sectionOf (img : List Byte) (ty : Nat) : Option PlanSection := (sections img).find? (fun s => s.ty == ty)

/-- Offset of a section; 0 where the image has none. -/
def secOff (img : List Byte) (ty : Nat) : Nat := match sectionOf img ty with
  | none => 0
  | some s => s.off

/-- Size of a section; 0 where the image has none. -/
def secSize (img : List Byte) (ty : Nat) : Nat := match sectionOf img ty with
  | none => 0
  | some s => s.size

def arithGen (img : List Byte) : Nat := u img 8 1
def partDies (img : List Byte) : Nat := u img 0xA 1
def experts (img : List Byte) : Bool := bitOf (u img 0xB 1) 0
def entryCount (img : List Byte) : Nat := u img 0x1A 2
def tensorCount (img : List Byte) : Nat := u img 0x1C 2
def shapeMax (img : List Byte) (v : Nat) : Nat := u img (0x20 + 4 * v) 4
def shapeGran (img : List Byte) (v : Nat) : Nat := u img (0x40 + 4 * v) 4

/-! ### Tensors (R228) -/

/-- Image offset of a tensor descriptor. -/
def tOff (img : List Byte) (t : Nat) : Nat := secOff img 3 + 32 * t

def tFormat (img : List Byte) (t : Nat) : Nat := u img (tOff img t) 1 % 16
def tRole (img : List Byte) (t : Nat) : Nat := u img (tOff img t) 1 / 16
def tGrid (img : List Byte) (t : Nat) : Nat := u img (tOff img t + 1) 1 % 16
def tScaled (img : List Byte) (t : Nat) : Bool := bitOf (u img (tOff img t) 4) 12
def tQstat (img : List Byte) (t : Nat) : Bool := bitOf (u img (tOff img t) 4) 13
def tDim (img : List Byte) (t i : Nat) : Nat := u img (tOff img t + 4 + 4 * i) 4
def tPadl (img : List Byte) (t i : Nat) : Nat := u img (tOff img t + 0x14 + i) 1
def tScaleTensor (img : List Byte) (t : Nat) : Nat := u img (tOff img t + 0x18) 2

/-- A static extent. -/
def dimStatic (d : Nat) : Bool := decide (d < 2 ^ 31)

/-- Extent of a dimension, padded, with the rounded extents of the shape variables (R219, R228). -/
def extent (img : List Byte) (shapes : List Nat) (t i : Nat) : Nat :=
  let d := tDim img t i
  let e := if dimStatic d then d % 2 ^ 28 else shapes.getD (d % 8) 0
  let p := 2 ^ tPadl img t i
  (e + p - 1) / p * p

/-- Elements of a tensor. -/
def elements (img : List Byte) (shapes : List Nat) (t : Nat) : Nat :=
  ((List.range 4).map (fun i => extent img shapes t i)).prod

/-- Bits of an element by FORMAT (R42). -/
def formatBits (f : Nat) : Nat :=
  match f with
  | 1 => 32
  | 2 => 16
  | 3 => 8
  | 4 => 4
  | 5 => 3
  | 6 => 64
  | _ => 32

/-- Bytes of a tensor. -/
def tBytes (img : List Byte) (shapes : List Nat) (t : Nat) : Nat :=
  elements img shapes t * formatBits (tFormat img t) / 8

/-- Tensor indices of a role. -/
def ofRole (img : List Byte) (r : Nat) : List Nat := (List.range (tensorCount img)).filter (fun t => tRole img t == r)

/-- Tensors with QSTAT set, in ascending order (R170). -/
def qstats (img : List Byte) : List Nat := (List.range (tensorCount img)).filter (fun t => tQstat img t)

/-- Whether ROLE admits FORMAT (R229). -/
def pairs (role fmt : Nat) : Bool :=
  match role with
  | 0 => decide (2 ≤ fmt ∧ fmt ≤ 5)
  | 1 => fmt == 1
  | 2 => fmt == 1 || fmt == 2
  | 3 => fmt == 1 || fmt == 2
  | 4 => fmt == 1 || fmt == 6
  | 5 => fmt == 2
  | 6 => fmt == 7
  | 7 => fmt == 1 || fmt == 2
  | _ => false

/-! ### Entries and steps (R230, R231) -/

def eOff (img : List Byte) (e : Nat) : Nat := secOff img 2 + 64 * e
def eId (img : List Byte) (e : Nat) : Nat := u img (eOff img e) 2
def eOps (img : List Byte) (e : Nat) : Nat := u img (eOff img e + 2) 1
def eMask (img : List Byte) (e : Nat) : Nat := u img (eOff img e + 3) 1
def eLoop (img : List Byte) (e j : Nat) : Nat := u img (eOff img e + 4 + 4 * j) 4
def loopUsed (l : Nat) : Bool := bitOf l 3
def loopVar (l : Nat) : Nat := l % 8
def loopTile (l : Nat) : Nat := bitsOf l 27 4
def eStepOff (img : List Byte) (e : Nat) : Nat := u img (eOff img e + 0x14) 4
def eSteps (img : List Byte) (e : Nat) : Nat := u img (eOff img e + 0x18) 2

/-- The entry with an ENTRY_ID. -/
def entry? (img : List Byte) (id : Nat) : Option Nat := (List.range (entryCount img)).find? (fun e => eId img e == id)

/-- Number of used loops of an entry. -/
def usedLoops (img : List Byte) (e : Nat) : Nat := ((List.range 4).filter (fun j => loopUsed (eLoop img e j))).length

/-- Image offset of a step record. -/
def sOff (img : List Byte) (e i : Nat) : Nat := secOff img 2 + eStepOff img e + 80 * i

def sDepth (img : List Byte) (e i : Nat) : Nat := u img (sOff img e i) 1 % 8
def sWaitAll (img : List Byte) (e i : Nat) : Bool := bitOf (u img (sOff img e i) 1) 3
def sDies (img : List Byte) (e i : Nat) : Nat := u img (sOff img e i + 4) 2
def sCols (img : List Byte) (e i : Nat) : Nat := u img (sOff img e i + 6) 1
def sRows (img : List Byte) (e i : Nat) : Nat := u img (sOff img e i + 8) 2
def sPc (img : List Byte) (e i : Nat) : Nat := u img (sOff img e i + 0xA) 2 % 2 ^ 13
def sArg (img : List Byte) (e i k : Nat) : Nat := u img (sOff img e i + 0xC + 4 * k) 4

/-- Positions of a core set: logical die, column, row. -/
def coreSet (dies cols rows : Nat) : List (Nat × Nat × Nat) :=
  ((List.range 16).filter (bitOf dies)).flatMap (fun d =>
    ((List.range 8).filter (bitOf cols)).flatMap (fun c =>
      ((List.range 16).filter (bitOf rows)).map (fun r => (d, c, r))))

/-- The core set of a step (R231). -/
def stepCores (img : List Byte) (e i : Nat) : List (Nat × Nat × Nat) := coreSet (sDies img e i) (sCols img e i) (sRows img e i)

/-! ### Placement (R235) -/

def places (img : List Byte) : Nat := secSize img 6 / 32
def pOff (img : List Byte) (i : Nat) : Nat := secOff img 6 + 32 * i

/-- Whether a placement record names a logical core. -/
def placeHas (img : List Byte) (i : Nat) (p : Nat × Nat × Nat) : Bool :=
  let o := pOff img i
  bitOf (u img o 2) p.1 && bitOf (u img (o + 2) 1) p.2.1 && bitOf (u img (o + 4) 2) p.2.2

/-- The placement record of a logical core. -/
def placeOf (img : List Byte) (p : Nat × Nat × Nat) : Option Nat := (List.range (places img)).find? (fun i => placeHas img i p)

def pProgOff (img : List Byte) (i : Nat) : Nat := u img (pOff img i + 8) 4
def pWords (img : List Byte) (i : Nat) : Nat := u img (pOff img i + 0xC) 2
def pBanks (img : List Byte) (i : Nat) : Nat := u img (pOff img i + 0xE) 2
def pHold (img : List Byte) (i : Nat) : Nat := u img (pOff img i + 0x10) 2
def pPorts (img : List Byte) (i : Nat) : Nat := u img (pOff img i + 0x12) 1
def pBars (img : List Byte) (i : Nat) : Nat := u img (pOff img i + 0x13) 1
def pWdog (img : List Byte) (i : Nat) : Nat := u img (pOff img i + 0x14) 4

/-- The program words of a placement record. -/
def program (img : List Byte) (i : Nat) : List Dword :=
  (List.range (pWords img i)).map (fun k => BitVec.ofNat 64 (u img (secOff img 1 + pProgOff img i + 8 * k) 8))

/-- The barrier groups the plan defines: groups with a member (R177). -/
def barGroups (img : List Byte) : List Nat :=
  (List.range 8).filter (fun g => (List.range (places img)).any (fun i => bitOf (pBars img i) g))

/-- The logical cores of a partition of n dies. -/
def allCores (n : Nat) : List (Nat × Nat × Nat) :=
  (List.range n).flatMap (fun d => (List.range 8).flatMap (fun c => (List.range 16).map (fun r => (d, c, r))))

/-- Members of a barrier group. -/
def barMembers (img : List Byte) (g : Nat) : List (Nat × Nat × Nat) :=
  (allCores (partDies img)).filter (fun p => match placeOf img p with
    | none => false
    | some i => bitOf (pBars img i) g)

/-! ### Grids, clocks, residency -/

def gOff (img : List Byte) (i : Nat) : Nat := secOff img 4 + 36 * i
def gridCount (img : List Byte) : Nat := secSize img 4 / 36
def gSlot (img : List Byte) (i : Nat) : Nat := u img (gOff img i) 1
def gWidth (img : List Byte) (i : Nat) : Nat := u img (gOff img i + 1) 1

/-- Levels of a grid record: 16 for BG4, 8 for BG3. -/
def gLevels (img : List Byte) (i : Nat) : List Half :=
  (List.range (if gWidth img i = 4 then 16 else 8)).map (fun k => BitVec.ofNat 16 (u img (gOff img i + 4 + 2 * k) 2))

/-- Order of finite BF16 values as integers. -/
def bfOrder (h : Half) : Int := if h.getLsbD 15 then -((h.toNat % 2 ^ 15 : Nat) : Int) else (h.toNat : Int)

/-- A valid grid table (R55). -/
def gridValid (ls : List Half) : Bool :=
  ls.all Cu.bfFinite && ((ls.zip ls.tail).all (fun p => decide (bfOrder p.1 < bfOrder p.2))) &&
    decide ((ls.filter (fun h => h == 0 || h == 0x8000#16)).length = 1)

/-- Default grids of slots 0 and 1, given elsewhere; width of a slot with the plan's tables: 4, 3 or 0 for an empty one
(R54). -/
def slotWidth (img : List Byte) (slot : Nat) : Nat :=
  if slot = 0 then 4
  else if slot = 1 then 3
  else match (List.range (gridCount img)).find? (fun i => gSlot img i == slot) with
    | none => 0
    | some i => gWidth img i

def clockCount (img : List Byte) : Nat := u img (secOff img 7) 1 % 16
def cOff (img : List Byte) (k : Nat) : Nat := secOff img 7 + 16 + k * (16 + 16 * partDies img)
def clockEntry (img : List Byte) (k : Nat) : Nat := u img (cOff img k) 2
def cdOff (img : List Byte) (k d : Nat) : Nat := cOff img k + 16 + 16 * d

/-- The clock plan an entry runs under (R598): the plan that names it, or plan 0 stays in force. -/
def clockFor (img : List Byte) (entryId : Nat) : Option Nat :=
  (List.range (clockCount img)).find? (fun k => decide (k ≠ 0) && clockEntry img k == entryId)

def expertCount (img : List Byte) : Nat := u img (secOff img 8) 4
def slotUnits (img : List Byte) : Nat := u img (secOff img 8 + 4) 2
def pointCount (img : List Byte) : Nat := u img (secOff img 8 + 6) 2
def expertSlots (img : List Byte) : Nat := u img (secOff img 8 + 8) 4
def maxActive (img : List Byte) : Nat := u img (secOff img 8 + 0xC) 4
def tableOff (img : List Byte) : Nat := u img (secOff img 8 + 0x10) 4
def xOff (img : List Byte) (x : Nat) : Nat := secOff img 8 + 64 + 16 * x
def expUnitOff (img : List Byte) (x : Nat) : Nat := u img (xOff img x) 6
def expUnits (img : List Byte) (x : Nat) : Nat := u img (xOff img x + 6) 2
def expPinned (img : List Byte) (x : Nat) : Bool := bitOf (u img (xOff img x + 8) 1) 0
def ptOff (img : List Byte) (i : Nat) : Nat := secOff img 8 + 64 + 16 * expertCount img + 8 * i
def ptEntry (img : List Byte) (i : Nat) : Nat := u img (ptOff img i) 2
def ptStep (img : List Byte) (i : Nat) : Nat := u img (ptOff img i + 2) 2
def ptTensor (img : List Byte) (i : Nat) : Nat := u img (ptOff img i + 4) 2 % 2 ^ 12

/-- The expert point of a step, if one names it (R364). -/
def point? (img : List Byte) (entryId step : Nat) : Option Nat :=
  if experts img then (List.range (pointCount img)).find? (fun i => ptEntry img i == entryId && ptStep img i == step) else none

/-! ### Validation (R240) -/

/-- A check: whether it holds, and the image offset it fails at. -/
abbrev Check := Bool × Nat

/-- The lowest failing offset of a step. -/
def failing (cs : List Check) : Option Nat :=
  (cs.filter (fun c => !c.1)).foldl (fun m c => match m with
    | none => some c.2
    | some a => some (min a c.2)) none

/-- Zero bytes of a range, each checked at its own offset. -/
def zeros (img : List Byte) (off n : Nat) : List Check := (List.range n).map (fun i => (u img (off + i) 1 == 0, off + i))

/-- PLAN_ID (R226). The layouts of completion and event records have no field for it (notes/assumptions/19.md). -/
def planId (img : List Byte) : Nat := u img 0x10 8

/-- Step 4: the header fields and the SIGNATURE section's place, reported at its directory entry's SIZE or OFFSET (R226, R238,
R240). -/
def headerChecks (img : List Byte) (size : Nat) : List Check :=
  let sc := u img 0x18 2
  let sig := ((sections img).zipIdx).find? (fun p => p.1.ty == 0xFF)
  [(u img 0 4 == 0x4E414C50, 0), (u img 4 2 == 3, 4), (u img 0xC 4 == size, 0xC),
    (decide (1 ≤ sc ∧ sc ≤ 32 ∧ 0x100 + 16 * sc ≤ size), 0x18)] ++
  (match sig with
    | none => [(false, 0x100)]
    | some p =>
      let o := 0x100 + 16 * p.2
      [(decide (p.1.off = size - 128), o + 4), (decide (p.1.size = 128), o + 8)]) ++
  zeros img (size - 128 + 0xA) 6 ++ zeros img (size - 128 + 0x70) 16

/-- Step 7: ARITH_GEN, reserved header fields, shape variables (R226). -/
def arithChecks (img : List Byte) : List Check :=
  [(arithGen img == 2 || arithGen img == 3, 8), (decide (u img 0xB 1 ≤ 1), 0xB), (u img 0x1E 2 == 0, 0x1E),
    (decide (1 ≤ entryCount img ∧ entryCount img ≤ 64), 0x1A), (decide (1 ≤ tensorCount img ∧ tensorCount img ≤ 4096), 0x1C)] ++
  (List.range 8).map (fun v =>
    let m := shapeMax img v
    let g := shapeGran img v
    (if m = 0 then g == 0 else decide (1 ≤ g ∧ m % g = 0), 0x40 + 4 * v)) ++ zeros img 0x60 0xA0

/-- Known section types (R227). -/
def sectionTypes : List Nat := [1, 2, 3, 4, 5, 6, 7, 8, 9, 0xFF]

/-- Step 8: the directory (R227). -/
def sectionChecks (img : List Byte) : List Check :=
  let ss := sections img
  let size := u img 0xC 4
  let dirEnd := 0x100 + 16 * ss.length
  ((ss.zipIdx).flatMap (fun p =>
    let s := p.1
    let o := 0x100 + 16 * p.2
    [(sectionTypes.contains s.ty && ((ss.take p.2).all (fun t => t.ty != s.ty)), o), (u img (o + 2) 2 == 0, o + 2),
      (decide (s.off % 64 = 0 ∧ dirEnd ≤ s.off ∧ s.off + s.size ≤ size) &&
        (ss.take p.2).all (fun t => decide (t.off + t.size ≤ s.off ∨ s.off + s.size ≤ t.off)), o + 4),
      (s.ty != 3 || s.size == 32 * tensorCount img, o + 8), (u img (o + 12) 4 == 0, o + 12)])) ++
  [([1, 2, 3, 6, 7, 0xFF].all (fun t => (sectionOf img t).isSome) && ((sectionOf img 8).isSome == experts img), 0x100)]

/-- Step 9: one tensor descriptor, except grid references (R228, R229, R251, R301). -/
def tensorChecks (img : List Byte) (t : Nat) : List Check :=
  let o := tOff img t
  let role := tRole img t
  let fmt := tFormat img t
  let st := tScaleTensor img t
  let bell := fmt == 4 || fmt == 5
  let needs := bell || (fmt == 3 && tScaled img t)
  let rs := ofRole img 4
  [(pairs role fmt && decide (u img o 4 < 2 ^ 14) && (!tScaled img t || fmt == 3) && (bell || tGrid img t == 0), o),
    (if needs then decide (st < tensorCount img) && tRole img st == 5 else st == 0xFFFF, o + 0x18),
    (!(role == 0 && (bell || fmt == 3)) || decide (7 ≤ tPadl img t 0), o + 0x14)] ++
  (List.range 4).map (fun i =>
    let d := tDim img t i
    ((if dimStatic d then decide (1 ≤ d ∧ d < 2 ^ 28) else decide (d % 2 ^ 31 < 8)) &&
      (!(role == 0 || role == 1 || role == 3 || role == 4 || role == 5) || dimStatic d), o + 4 + 4 * i)) ++
  (List.range 4).map (fun i => (decide (tPadl img t i ≤ 16), o + 0x14 + i)) ++
  (if role = 3 then [(tDim img t 1 == 256, o + 8), (tDim img t 2 == 2, o + 12)] else []) ++
  (if role = 4 then
    [(decide (6 ≤ tPadl img t 0), o + 0x14),
      (decide (1 ≤ tDim img t 1 ∧ tDim img t 1 ≤ 65536) && rs.all (fun r => tDim img r 1 == tDim img t 1), o + 8),
      (tDim img t 2 == 1, o + 12), (tDim img t 3 == 1, o + 16)]
   else []) ++ zeros img (o + 0x1A) 6 ++
  [(decide ((qstats img).length ≤ 256), o)]

/-- Step 10: the grid section and references to it (R229, R236). -/
def gridsOk (img : List Byte) : Bool :=
  decide (secSize img 4 % 36 = 0) &&
  (List.range (gridCount img)).all (fun i =>
    decide (2 ≤ gSlot img i ∧ gSlot img i ≤ 15) && (gWidth img i == 4 || gWidth img i == 3) && u img (gOff img i + 2) 2 == 0 &&
    ((List.range i).all (fun j => gSlot img j != gSlot img i)) && gridValid (gLevels img i) &&
    (gWidth img i == 4 || (zeros img (gOff img i + 20) 16).all (fun c => c.1))) &&
  (List.range (tensorCount img)).all (fun t =>
    let f := tFormat img t
    if f = 4 then slotWidth img (tGrid img t) == 4 else if f = 5 then slotWidth img (tGrid img t) == 3 else true)

/-- Step 11: the function records from an offset onward fill the section exactly (R237). -/
def functionsOk (img : List Byte) (o end_ : Nat) : Nat → Bool
  | 0 => false
  | n + 1 =>
    if o = end_ then true
    else if end_ < o + 8 then false
    else
      let kind := u img o 1
      let size := u img (o + 4) 4
      let pad := (size + 31) / 32 * 32
      let bs := (List.range size).map (fun i => img.getD (o + 8 + i) 0)
      decide (kind ≤ 1) && u img (o + 1) 3 == 0 && decide (o + 8 + pad ≤ end_) &&
      (if kind = 0 then decide (size = Cu.tableLength bs) && Cu.tableValid bs else decide (size = 96) && Cu.microValid bs) &&
      (zeros img (o + 8 + size) (pad - size)).all (fun c => c.1) && functionsOk img (o + 8 + pad) end_ n

/-- Step 12: placement records and program ranges (R235). -/
def placementChecks (img : List Byte) : List Check :=
  let dies := partDies img
  [(decide (secSize img 6 % 32 = 0) &&
      (allCores dies).all (fun p => ((List.range (places img)).filter (fun i => placeHas img i p)).length == 1), secOff img 6)] ++
  (List.range (places img)).flatMap (fun i =>
    let o := pOff img i
    let ports := pPorts img i
    let cols := u img (o + 2) 1
    let rows := u img (o + 4) 2
    [(decide (u img o 2 < 2 ^ dies), o), (u img (o + 3) 1 == 0, o + 3), (u img (o + 6) 2 == 0, o + 6),
      (decide (pProgOff img i % 8 = 0 ∧ pProgOff img i + 8 * pWords img i ≤ secSize img 1), o + 8),
      (decide (1 ≤ pWords img i ∧ pWords img i ≤ 8192), o + 0xC), (decide (pHold img i < 4096), o + 0x10),
      (decide (ports < 16) && !(bitOf ports 3 && bitOf rows 0) && !(bitOf ports 2 && bitOf cols 7) &&
        !(bitOf ports 1 && bitOf rows 15) && !(bitOf ports 0 && bitOf cols 0), o + 0x12)] ++ zeros img (o + 0x18) 8)

/-- An argument template names something that exists (R232). -/
def argOk (img : List Byte) (e depth arg : Nat) : Bool :=
  let op := arg % 2 ^ 28
  match arg / 2 ^ 28 with
  | 0 => true
  | 1 => decide (op < 8) && bitOf (eMask img e) op
  | 2 => decide (op % 4 < depth) && loopUsed (eLoop img e (op % 4))
  | 3 => decide (op < tensorCount img)
  | 4 => decide (op < tensorCount img)
  | 5 => decide (op < 256) && (sectionOf img op).isSome
  | 6 => decide (op < 256) && (sectionOf img op).isSome
  | 7 => decide (op < 1024)
  | _ => false

/-- Step 13: one entry with its loops and steps (R230, R231, R232). -/
def entryChecks (img : List Byte) (e : Nat) : List Check :=
  let o := eOff img e
  let n := usedLoops img e
  [((List.range e).all (fun j => eId img j != eId img e), o), (decide (eOps img e < 8), o + 2),
    ((List.range 8).all (fun v => !bitOf (eMask img e) v || shapeMax img v != 0), o + 3),
    (decide (eStepOff img e % 16 = 0 ∧ 64 * entryCount img ≤ eStepOff img e ∧
      eStepOff img e + 80 * eSteps img e ≤ secSize img 2), o + 0x14),
    (decide (1 ≤ eSteps img e ∧ eSteps img e ≤ 4096), o + 0x18)] ++
  (List.range 4).map (fun j =>
    let l := eLoop img e j
    ((if loopUsed l then
        decide (j < n) && bitOf (eMask img e) (loopVar l) && decide (1 ≤ loopTile l) &&
          decide (shapeGran img (loopVar l) % loopTile l = 0) && decide (l < 2 ^ 28)
      else l == 0), o + 4 + 4 * j)) ++ zeros img (o + 0x1A) 0x26 ++
  (List.range (eSteps img e)).flatMap (fun i =>
    let so := sOff img e i
    [(decide (sDepth img e i ≤ n) && decide (u img so 4 < 16), so),
      (decide (sDies img e i < 2 ^ partDies img) && decide (sDies img e i ≠ 0), so + 4), (sCols img e i != 0, so + 6),
      (u img (so + 7) 1 == 0, so + 7), (sRows img e i != 0, so + 8), (decide (u img (so + 0xA) 2 < 2 ^ 13), so + 0xA)] ++
    (List.range 15).map (fun k => (argOk img e (sDepth img e i) (sArg img e i k), so + 0xC + 4 * k)) ++ zeros img (so + 0x48) 8)

/-- Step 14: the clock plans (R596, R597). -/
def clockChecks (img : List Byte) : List Check :=
  let base := secOff img 7
  let n := clockCount img
  [(decide (1 ≤ n ∧ n ≤ 8) && decide (u img base 1 < 16) && secSize img 7 == 16 + n * (16 + 16 * partDies img), base)] ++
  zeros img (base + 1) 15 ++
  (List.range n).flatMap (fun k =>
    let o := cOff img k
    [(if k = 0 then clockEntry img 0 == 0xFFFF
      else (entry? img (clockEntry img k)).isSome && (List.range k).all (fun j => clockEntry img j != clockEntry img k), o)] ++
    zeros img (o + 2) 14 ++
    (List.range (partDies img)).flatMap (fun d =>
      let p := cdOff img k d
      [((List.range 8).all (fun c => decide (bitsOf (u img p 5) (5 * c + 4) (5 * c) ≤ 21)), p),
        (decide (u img (p + 5) 1 ≤ 16), p + 5), (decide (u img (p + 6) 1 < 128), p + 6), (decide (u img (p + 8) 1 ≤ 8), p + 8),
        (decide (u img (p + 9) 1 ≤ 33), p + 9)] ++ zeros img (p + 0xB) 5))

/-- Step 15: the residency section (R363). The elements of a request tensor are counted at its largest extents (DESIGN CHOICE,
notes/assumptions/19.md). -/
def residencyChecks (img : List Byte) : List Check :=
  if !experts img then []
  else
    let b := secOff img 8
    let n := expertCount img
    let m := pointCount img
    [(decide (1 ≤ n ∧ n ≤ 2 ^ 20), b), (decide (1 ≤ slotUnits img ∧ slotUnits img ≤ 4096), b + 4),
      (decide (1 ≤ m ∧ m ≤ 256), b + 6), (decide (1 ≤ expertSlots img ∧ expertSlots img ≤ 65536), b + 8),
      (decide (1 ≤ maxActive img ∧ maxActive img ≤ expertSlots img), b + 0xC),
      (decide (tableOff img % 64 = 0 ∧ 64 + 16 * n + 8 * m ≤ tableOff img ∧ tableOff img + 8 * n ≤ secSize img 8), b + 0x10),
      (decide (((List.range n).filter (expPinned img)).length ≤ expertSlots img), b + 64)] ++ zeros img (b + 0x14) 0x2C ++
    (List.range n).flatMap (fun x =>
      let o := xOff img x
      [(decide (1 ≤ expUnits img x ∧ expUnits img x ≤ slotUnits img), o + 6), (decide (u img (o + 8) 8 ≤ 1), o + 8)]) ++
    (List.range m).flatMap (fun i =>
      let o := ptOff img i
      [(match entry? img (ptEntry img i) with
        | none => false
        | some e => decide (ptStep img i < eSteps img e), o),
        (let t := ptTensor img i
         decide (u img (o + 4) 4 < 2 ^ 12) && decide (t < tensorCount img) && tFormat img t == 7 &&
          decide (maxActive img + 1 ≤ elements img ((List.range 8).map (shapeMax img)) t), o + 4)])

/-- How the validation of a copied image ends: a status with its DETAIL, or none. -/
def validate (img : List Byte) (dies : Nat) (sigOk : Bool) : Option (Nat × Nat) :=
  let size := img.length
  let inv (reason : Nat) (o : Nat) : Option (Nat × Nat) := some (0x0200, reason + o % 2 ^ 32 * 2 ^ 8)
  match failing (headerChecks img size) with
  | some o => inv 2 o
  | none =>
    if !sigOk then some (0x0201, 0xFFF)
    else if !(u img 6 1 == 0x5A && u img 7 1 == 9 && partDies img == dies && (u img 9 1 == 0 || u img 9 1 == 1)) then
      some (0x0202, 0)
    else match failing (arithChecks img) with
    | some o => inv 2 o
    | none => match failing (sectionChecks img) with
      | some o => inv 3 o
      | none => match failing ((List.range (tensorCount img)).flatMap (tensorChecks img)) with
        | some o => inv 4 o
        | none =>
          if !gridsOk img then some (0x0203, 0)
          else if (sectionOf img 5).isSome && !functionsOk img (secOff img 5) (secOff img 5 + secSize img 5) (secSize img 5 + 1) then
            some (0x0204, 0)
          else match failing (placementChecks img) with
          | some o => inv 5 o
          | none => match failing ((List.range (entryCount img)).flatMap (entryChecks img)) with
            | some o => inv 6 o
            | none => match failing (clockChecks img) with
              | some o => inv 7 o
              | none => match failing (residencyChecks img) with
                | some o => inv 8 o
                | none => none

/-! ### Running an entry (R233) -/

/-- Trip count of loop j of an entry (R230). -/
def trip (img : List Byte) (rounded : List Nat) (e j : Nat) : Nat :=
  let l := eLoop img e j
  rounded.getD (loopVar l) 0 / max (loopTile l) 1

/-- run_level of R233 over the steps lo .. hi - 1 as a list of (step, loop indices): fuel bounds the nesting. -/
def runLevel (img : List Byte) (rounded : List Nat) (e : Nat) : Nat → Nat → Nat → Nat → List Nat → List (Nat × List Nat)
  | 0, _, _, _, _ => []
  | fuel + 1, d, lo, hi, idx =>
    if hi ≤ lo then []
    else if sDepth img e lo = d then (lo, idx) :: runLevel img rounded e fuel d (lo + 1) hi idx
    else
      let run := ((List.range (hi - lo)).takeWhile (fun k => decide (d < sDepth img e (lo + k)))).length
      let j := lo + run
      (List.range (trip img rounded e d)).flatMap (fun i => runLevel img rounded e fuel (d + 1) lo j (idx ++ [i])) ++
        runLevel img rounded e fuel d j hi idx

/-- Every dispatch step of an entry in order. -/
def stepList (img : List Byte) (rounded : List Nat) (e : Nat) : List (Nat × List Nat) :=
  runLevel img rounded e (eSteps img e + 5) 0 0 (eSteps img e) []

/-- Value rounded up to a variable's granule (R243). -/
def roundShape (img : List Byte) (v x : Nat) : Nat :=
  let g := max (shapeGran img v) 1
  (x + g - 1) / g * g

end Plan

end Sys2Proof.Machine
end

