-- ==== Sys2Proof/Machine/Part.lean ====
section
/-! DEFINITION. Partitions and contexts at work (chapter 14): core settings of a plan (R242), clock plans (R598), save and
restore (R463), switches (R461 to R465), ends at commit boundaries (R437, R468, R470), teardown (R476), the release of
contexts and partitions (R474, R475), and what follows by itself from the end of a command (`settle`). -/

namespace Sys2Proof.Machine

/-! ### Cores of a partition -/

/-- Key of the core at a logical position of a partition. -/
def State.keyAt (s : State) (x : Partition) (p : Nat × Nat × Nat) : Nat := s.coreAt (x.dies.getD p.1 0) p.2.1 p.2.2

/-- Logical positions of a partition. -/
def Partition.positions (x : Partition) : List (Nat × Nat × Nat) := Plan.allCores x.dies.length

/-- Change the core at every logical position, with its position. -/
def State.eachCore (s : State) (x : Partition) (f : (Nat × Nat × Nat) → Core → Core) : State :=
  x.positions.foldl (fun t p => t.updCore (s.keyAt x p) (f p)) s

/-- The default grids (R52, R53). -/
def defaultBg4 : List Half :=
  [0xBF80#16, 0xBF31#16, 0xBF05#16, 0xBEC8#16, 0xBE90#16, 0xBE3C#16, 0xBDB8#16, 0x0000#16,
   0x3DA0#16, 0x3E24#16, 0x3E7C#16, 0x3EAE#16, 0x3EE4#16, 0x3F12#16, 0x3F3C#16, 0x3F80#16]
def defaultBg3 : List Half :=
  [0xBF80#16, 0xBF00#16, 0xBE60#16, 0x0000#16, 0x3E40#16, 0x3EE0#16, 0x3F38#16, 0x3F80#16]

/-- The grid slots of a plan (R54). -/
def planGrids (img : List Byte) : SMap (List Half) :=
  (List.range (Plan.gridCount img)).foldl (fun m i => SMap.set [] m (Plan.gSlot img i) (Plan.gLevels img i))
    [(0, defaultBg4), (1, defaultBg3)]

/-! ### Clock plans (R596, R598) -/

/-- Clock settings of a die. -/
def State.dieClk (s : State) (d : Nat) : DieClk := SMap.get DieClk.reset s.clk.dies d

/-- Replace a die's clock settings. -/
def State.setDieClk (s : State) (d : Nat) (k : DieClk) : State :=
  { s with clk := { s.clk with dies := SMap.set DieClk.reset s.clk.dies d k } }

/-- The settings that clock plan k gives logical die i, at the frequencies reached so far (R596). -/
def planClk (img : List Byte) (k i : Nat) (old : DieClk) : DieClk :=
  let o := Plan.cdOff img k i
  { old with
    plan := k
    colCodes := (List.range 8).map (fun c => bitsOf (Plan.u img o 5) (5 * c + 4) (5 * c))
    fabCode := Plan.u img (o + 5) 1
    fastEw := Plan.u img (o + 6) 1
    fastNs := Plan.u img (o + 7) 1
    sscDepth := Plan.u img (o + 8) 1
    sscRate := Plan.u img (o + 9) 1
    sscCols := Plan.u img (o + 0xA) 1
    changing := true }

/-- Frequencies in MHz of the plan's codes. -/
def DieClk.colTarget (k : DieClk) (c : Nat) : Nat := 400 + 50 * k.colCodes.getD c 0
def DieClk.fabTarget (k : DieClk) : Nat := 800 + 50 * k.fabCode

/-- Every PLL has reached its frequency. -/
def DieClk.reached (k : DieClk) : Bool :=
  (List.range 8).all (fun c => k.colMhz.getD c 0 == k.colTarget c) && k.fabMhz == k.fabTarget

/-- NB_CTRL with the FAST bits of ports N, E, S, W (R147). -/
def setFast (c : Core) (bits : Nat) : Core :=
  { c with regs := { c.regs with nbCtrl := (c.regs.nbCtrl &&& 0x70F#11) ||| BitVec.ofNat 11 (bits % 16 * 16) } }

/-- FAST bits of column c: N and S from FAST_NS, E from FAST_EW bit c, W from bit c - 1 (R596). -/
def DieClk.fastBits (k : DieClk) (c : Nat) : Nat :=
  let b (x : Bool) (v : Nat) : Nat := if x then v else 0
  b (bitOf k.fastNs c) 8 + b (bitOf k.fastEw c) 4 + b (bitOf k.fastNs c) 2 + b (decide (1 ≤ c) && bitOf k.fastEw (c - 1)) 1

/-- Steps 3 and 4 of R598: FAST bits written, the plan in force. -/
def State.finishPlan (s : State) (p : Nat) : State :=
  match s.part p with
  | none => s
  | some x =>
    if x.dies.all (fun d => (s.dieClk d).reached) then
      let s1 := x.dies.foldl (fun t d =>
        let k := s.dieClk d
        let t1 := t.setDieClk d { k with changing := false }
        (dieKeys d).foldl (fun v c => v.updCore c (fun g => setFast g (k.fastBits (c / 32 % 8)))) t1) s
      s1.updPart p (fun y => { y with clockPlan := y.planChange.getD y.clockPlan, planChange := none })
    else s

/-- FAST bits of a die's cores as its clock plan gives them. -/
def State.writeFast (s : State) (d : Nat) : State :=
  let k := s.dieClk d
  (dieKeys d).foldl (fun v c => v.updCore c (fun g => setFast g (k.fastBits (c / 32 % 8)))) s

/-- The change of plan on a die that coasts ends: its PLLs count as having arrived, and the new FAST bits are written at once
(R612). -/
def State.arriveAtOnce (s : State) (d : Nat) : State :=
  let k := s.dieClk d
  (s.setDieClk d { k with changing := false, colMhz := (List.range 8).map k.colTarget, fabMhz := k.fabTarget }).writeFast d

/-- Put a clock plan in force (R598): step 1 at once, the moves by steps, step 3 when they are done; a coasting die takes it
at once (R612). -/
def State.requestPlan (s : State) (p k : Nat) (img : List Byte) : State :=
  match s.part p with
  | none => s
  | some x =>
    let s1 := (x.dies.zipIdx).foldl (fun t e =>
      let t1 := t.setDieClk e.1 (planClk img k e.2 (t.dieClk e.1))
      if (t.pll e.1).coastingAny then t1.arriveAtOnce e.1
      else (dieKeys e.1).foldl (fun v c => v.updCore c (fun g => setFast g 0)) t1) s
    (s1.updPart p (fun y => { y with planChange := some k })).finishPlan p

/-! ### Settings of a context's plan on its cores (R242) -/

/-- What the die marshal writes into one core for a placement record. -/
def placeCore (img : List Byte) (conf : Bool) (pos : Nat × Nat × Nat) (c : Core) : Core :=
  match Plan.placeOf img pos with
  | none => c
  | some i =>
    let w := Plan.pWdog img i
    { c with
      mem := { c.mem with prog := SMap.setRange 0#64 [] 0 (Plan.program img i) }
      seq := { c.seq with wdog := if w = 0 then 0x01000000#32 else BitVec.ofNat 32 w }
      arr := { c.arr with idleHold := BitVec.ofNat 12 (Plan.pHold img i) }
      regs := { c.regs with nbCtrl := (c.regs.nbCtrl &&& 0x7F0#11) ||| BitVec.ofNat 11 (Plan.pPorts img i % 16) }
      run := { c.run with
        grids := planGrids img
        qstatCount := (Plan.qstats img).length
        gen2 := Plan.arithGen img == 2
        barGroups := (Plan.barGroups img).filter (fun g => bitOf (Plan.pBars img i) g)
        barCount := []
        confidential := conf } }

/-- Write a context's plan into the cores of its partition: programs, settings, barrier groups (R177, R242). Its clock plan
(R598) follows with the next dispatch: number 8 stands for none yet. -/
def State.setupCores (s : State) (p c : Nat) : State :=
  match s.part p with
  | none => s
  | some x => match (x.ctx c).bind (fun k => k.plan) with
    | none => s.eachCore x (fun _ k => { k with run := { k.run with barCount := [], barGroups := [], confidential := x.confidential } })
    | some pl => (s.eachCore x (placeCore pl.image x.confidential)).updPart p (fun y => { y with clockPlan := 8 })

/-! ### Save and restore (R463, R464) -/

/-- Bytes of one slot of a save area. -/
def saveSlot : Nat := 4356 * 1024

/-- Bits of a set of indices as bytes. -/
def bitmapBytes (n : Nat) (f : Nat → Bool) : List Byte :=
  (List.range (n / 8)).map (fun i => BitVec.ofNat 8 (((List.range 8).filter (fun b => f (8 * i + b))).map (fun b => 2 ^ b)).sum)

/-- The save image of a core (R463). -/
def saveImage (c : Core) : List Byte :=
  let ls := (List.range 16384).filter (fun l => Cu.lineWritten c l)
  let rs := (List.range 1024).filter (fun r => Cu.rowWritten c r)
  leBytes 4 ls.length ++ leBytes 4 rs.length ++
    ((List.range 4).flatMap (fun i => leBytes 2 (SMap.get 0#16 c.seq.arv i).toNat)) ++
    ((List.range 4).flatMap (fun i => leBytes 2 (SMap.get 0#16 c.seq.snt i).toNat)) ++
    List.replicate 40 0#8 ++ bitmapBytes 16384 (Cu.lineWritten c) ++ bitmapBytes 1024 (Cu.rowWritten c) ++
    List.replicate 64 0#8 ++ ls.flatMap (fun l => (Cu.bankRead c (l * 256) 256).1) ++
    rs.flatMap (fun r => Cu.bytesOf (Cu.rowValues c r))

/-- Bytes of a save image, from its head. -/
def imageLen (bs : List Byte) : Nat := 0x900 + 256 * (field bs 0 4 + field bs 4 4)

/-- Restore a core from a save image: written lines and rows with their bits, and the eight counters; banks that hold a
line are ON, and stay so in the first dispatch (R114, R463). -/
def restoreImage (c : Core) (bs : List Byte) : Core :=
  let bit (off i : Nat) : Bool := bitOf (bs.getD (off + i / 8) 0).toNat (i % 8)
  let ls := (List.range 16384).filter (bit 0x40)
  let rs := (List.range 1024).filter (bit 0x840)
  let banks := (List.range 16).filter (fun b => ls.any (fun l => decide (l / 1024 = b)))
  let c1 := { Cu.clrWritten c with seq := { c.seq with
    arv := (List.range 4).foldl (fun m i => SMap.set 0#16 m i (BitVec.ofNat 16 (field bs (8 + 2 * i) 2))) []
    snt := (List.range 4).foldl (fun m i => SMap.set 0#16 m i (BitVec.ofNat 16 (field bs (16 + 2 * i) 2))) [] } }
  let c2 := banks.foldl (fun d b => Cu.setBank d b .on) c1
  let mask := (banks.map (fun b => 2 ^ b)).sum
  let c3 := { c2 with regs := { c2.regs with bankPwr := c2.regs.bankPwr ||| BitVec.ofNat 16 mask } }
  let c4 := (ls.zipIdx).foldl (fun d e => Cu.bankWrite d false (e.1 * 256) ((bs.drop (0x900 + 256 * e.2)).take 256)) c3
  let c5 := (rs.zipIdx).foldl (fun d e =>
    Cu.rowWrite d e.1 (Cu.wordsOf ((bs.drop (0x900 + 256 * (ls.length + e.2))).take 256) 64)) c4
  { c5 with mem := { c5.mem with accSelf := [] }, run := { c5.run with restored := true } }

/-- Save every logical core of a context into its save area, its gather buffer flushed (R120, R463). -/
def State.saveCtx (s : State) (x : Partition) (k : Context) : State :=
  (x.positions.zipIdx).foldl (fun t e =>
    let t1 := t.updCore (s.keyAt x e.1) Cu.flushAll
    t1.putDram (k.saveBase + saveSlot * e.2) (saveImage (t1.core (s.keyAt x e.1)))) s

/-- The reads of a context's saved images (R478): the errors that stand in them are met, and the DETAIL of the first codeword
that is lost is answered. -/
def State.readImages (s : State) (x : Partition) (k : Context) : Option Nat × State :=
  let r := ((x.positions.zipIdx).foldl (fun t e =>
    let a := k.saveBase + saveSlot * e.2
    let t1 := t.fwRead a 8
    t1.fwRead a (imageLen (Memory.read t1.mem.dram a 8))) s).takeLoss
  (r.1.map Prod.fst, r.2)

/-- Restore every logical core of a context from its save area. -/
def State.restoreCtx (s : State) (x : Partition) (k : Context) : State :=
  (x.positions.zipIdx).foldl (fun t e =>
    let a := k.saveBase + saveSlot * e.2
    t.updCore (s.keyAt x e.1) (fun c => restoreImage c (Memory.read s.mem.dram a (imageLen (Memory.read s.mem.dram a 8))))) s

/-- Clear the cores of a partition before another context runs (R115, R465 step 3). No segment of the state file stays loaded,
so that no port reads what another context left there (R115, R292). -/
def State.clearCores (s : State) (x : Partition) : State :=
  s.eachCore x (fun _ c =>
    let d := Cu.clearCounters (Cu.clearSegs (if x.confidential then Cu.zeroingDone (Cu.zeroAll c) else Cu.clrWritten c))
    { d with run := { d.run with restored := false } })

/-- A context becomes CURRENT: it is restored, or its cores are cleared when it has no image (R115, R465); barrier counts
are zero and its plan is on the cores (R177, R242). -/
def State.enterCtx (s : State) (p c : Nat) : State :=
  match s.part p with
  | none => s
  | some x => match x.ctx c with
    | none => s
    | some k =>
      let s1 := s.clearCores x
      let s2 := if k.savedValid then s1.restoreCtx x k else s1
      let s3 := s2.updPart p (fun y => { y.setCtx c (some { k with
          state := if k.destroyedBy.isSome then .destroying else .current }) with
        current := some c
        lastCurrent := c
        switch := none })
      s3.setupCores p c

/-! ### Commands of a unit -/

/-- Commands of a block that satisfy a condition. -/
def State.cmdsOf (s : State) (b : Nat) (f : Cmd → Bool) : List CmdRef :=
  ((s.block b).cmds.filter f).map (fun k => { block := b, id := k.id })

/-- Commands that name a context: on its TENANT port and on ADMIN, other than OP_CTX_DESTROY (R460). -/
def State.ctxCmds (s : State) (p c : Nat) : List CmdRef :=
  s.cmdsOf (1 + p) (fun k => k.ctxField == c && k.opcode != 0x0106) ++
    s.cmdsOf 0 (fun k => k.partField == p && k.ctxField == c && k.opcode != 0x0106)

/-- Commands of a partition, other than those that drain or reset it. -/
def State.partCmds (s : State) (p : Nat) : List CmdRef :=
  s.cmdsOf (1 + p) (fun _ => true) ++
    s.cmdsOf 0 (fun k => k.partField == p && !decide (k.opcode ∈ [0x0102, 0x0103, 0x0707]))

/-- Mark commands as accepted before a drain. -/
def State.acceptAll (s : State) (cs : List CmdRef) : State :=
  cs.foldl (fun t c => t.updCmd c (fun k => { k with accepted := true })) s

/-- Whether a command has ended or is gone. -/
def State.cmdDone (s : State) (c : CmdRef) : Bool :=
  match s.cmd c with
  | none => true
  | some k => k.phase == .ended

/-- Whether a command has started and not ended. -/
def State.cmdStarted (s : State) (c : CmdRef) : Bool :=
  match s.cmd c with
  | none => false
  | some k => k.phase == .started

/-! ### Ends at a commit boundary -/

/-- Stop the dispatches of a command: units abandon their work, no fault is counted (R437, R470). -/
def State.stopDispatches (s : State) (p : Nat) (f : DispatchRec → Bool) : State :=
  match s.part p with
  | none => s
  | some x =>
    let gone := x.dispatches.filter f
    let s1 := gone.foldl (fun t d => t.updCore (s.keyAt x d.pos) (fun c => if c.seq.state = .faulted then c else Cu.abandon c)) s
    let keys := gone.map (fun d => s.keyAt x d.pos)
    let colls := s1.span.colls.filter (fun r => r.finished || !(r.joins.any (fun j => keys.contains j.core)))
    let s2 := { s1 with span := { s1.span with colls := colls } }
    s2.updPart p (fun y => { y with dispatches := y.dispatches.filter (fun d => !f d) })

/-- The gather of a roll over a group, once this engine has given its scores. -/
def CollRun.gathers (r : CollRun) (p gi : Nat) : Bool :=
  r.part == p && r.group == gi && !r.finished && r.joins.isEmpty && r.sent && r.op == 6

/-- The gather is over. -/
def State.dropGather (s : State) (p gi : Nat) : State :=
  { s with span := { s.span with colls := s.span.colls.filter (fun r => !r.gathers p gi) } }

/-- Survivors that have come for a roll over a group are no longer kept. -/
def State.dropSurvivors (s : State) (p group : Nat) : State :=
  { s with span := { s.span with survivors := s.span.survivors.filter (fun v => !(v.part == p && v.group == group)) } }

/-- A roll with peers ends early: what its group has sent for it is no longer kept. -/
def State.leavePeers (s : State) (p : Nat) (group : Option Nat) : State :=
  match group with
  | none => s
  | some g =>
    let t := s.dropSurvivors p g
    { t with span := { t.span with colls := t.span.colls.filter (fun r => !(r.part == p && r.group == g && !r.finished && r.joins.isEmpty)) } }

/-- Expert residency as at the last commit boundary (R468). -/
def State.restoreExperts (s : State) (p c : Nat) (us : List ExpertUndo) : State :=
  match us with
  | [] => s
  | u :: _ => u.ranges.foldl (fun t r => t.fwWrite r.1 r.2 (fun m => Memory.copyFrom u.bytes r.1 r.2 m r.1))
      (s.updCtx p c (fun x => { x with experts := u.experts }))

/-- Undo what an execution command did beyond its last commit boundary: its sequences return to their committed state, and
a roll's futures are released with the parent restored (R264, R280, R288, R468). -/
def State.undoExec (s : State) (p c : Nat) (e : ExecRun) : State :=
  s.aside <|
  let s0 := (s.leavePeers p (e.roll.bind RollRun.group)).restoreExperts p c e.expertUndo
  let s1 := e.binds.foldl (fun t b => t.rollbackSeq p c b.handle b.hits b.oldNode) s0
  match e.roll with
  | none => s1
  | some r =>
    let s2 := r.slots.foldl (fun t h => t.releaseSeq p c h) s1
    match s2.seq p c r.parent with
    | none => s2
    | some q =>
      if q.dormant then
        (s2.updSeq p c r.parent (fun z => { z with dormant := false, status := if z.status = .busy then .idle else z.status })).zeroTail
          p c r.parent
      else s2

/-- Counts of a command that ends early: frames and copies of a roll, committed positions and hits of a run, units moved
otherwise (R288, R448, R450). -/
def Cmd.counts (k : Cmd) : Nat × Nat :=
  match k.exec with
  | none => (k.progress, 0)
  | some e => match e.roll with
    | some r => (k.granules, r.copies)
    | none => (e.committedPositions, e.committedHits)

/-- What a waiting or started command holds outside its own record is let go: queued flash units, an unscrubbed region, a
staged plan. -/
def State.dropWork (s : State) (c : CmdRef) (p : Nat) : State :=
  let ps := s.flash.pairs.map (fun e => (e.1, { e.2 with jobs := e.2.jobs.filter (fun j => !(j.block == c.block && j.cmd == c.id)) }))
  let s1 := { s with flash := { s.flash with pairs := ps } }
  let s2 := s1.updPart p (fun x => { x with regions := x.regions.filter (fun e => match e.2 with
    | none => true
    | some r => r.ready || r.by_ != some (c.block, c.id)) })
  let mine (k : Context) : Bool := k.stagedBy == some c.id && c.block == 1 + p
  let copies := match s2.part p with
    | none => []
    | some x => x.ctxs.filterMap (fun (e : Nat × Option Context) => e.2.bind (fun k => if mine k then k.staged.map PlanInst.base else none))
  let s3 := s2.dropFw p (fun f => f.kind == FwKind.plan && copies.contains f.base)
  s3.updPart p (fun x => { x with ctxs := x.ctxs.map (fun e => (e.1, e.2.map (fun k =>
    if mine k then { k with staged := none, stagedBy := none } else k))) })

/-- End a command at its last commit boundary (R437, R438, R439, R468): its dispatches are stopped, what lies beyond the
boundary is undone, and DETAIL gives the granules committed. A command that has not started ends with no effect. -/
def State.endAtBoundary (s : State) (c : CmdRef) (status : Nat) (extra : Nat) : State :=
  match s.cmd c with
  | none => s
  | some k =>
    if k.phase = .ended then s
    else
      let p := (k.partOf c.block).getD 8
      let s1 := s.stopDispatches p (fun d => d.block == c.block && d.cmd == c.id)
      let s2 := match k.exec with
        | none => s1
        | some e => s1.undoExec p k.ctxField e
      let s3 := s2.dropWork c p
      let n := k.counts
      let s4 := if status = stAbortedByDisable then s3.updPart p (fun x => { x with
          disableAborts := satInc32 x.disableAborts
          drainAborts := x.drainAborts + 1 }) else s3
      s4.endCmd c { status := status, detail := k.granules + extra, c0 := n.1, c1 := n.2, out := [] }

/-- End a command with another E status and its own DETAIL: a fault of its accesses, a program fault. -/
def State.failCmd (s : State) (c : CmdRef) (status detail : Nat) : State :=
  match s.cmd c with
  | none => s
  | some k =>
    if k.phase = .ended then s
    else
      let p := (k.partOf c.block).getD 8
      let s1 := s.stopDispatches p (fun d => d.block == c.block && d.cmd == c.id)
      let s2 := match k.exec with
        | none => s1
        | some e => s1.undoExec p k.ctxField e
      let n := k.counts
      (s2.dropWork c p).endCmd c { status := status, detail := detail, c0 := n.1, c1 := n.2, out := [] }

/-- Every command of a partition's TENANT port that has no record ends at its last commit boundary with
ST_ABORTED_BY_DISABLE (R470 step 3), but for one that has a status of its own. -/
def State.endTenant (s : State) (p : Nat) (skip : Option CmdRef) : State :=
  ((s.block (1 + p)).cmds.map (fun k => k.id)).foldl (fun t id =>
    let r : CmdRef := { block := 1 + p, id := id }
    if skip = some r then t else t.endAtBoundary r stAbortedByDisable 0) s

/-- A confidential partition's interface enters ERROR and its commands end; contexts are kept (R557). -/
def State.tdiError (s : State) (p : Nat) (skip : Option CmdRef) : State :=
  (s.updPart p (fun x => { x with sec := { x.sec with tdi := .error } })).endTenant p skip

/-- The interface of a confidential partition locks its configuration (R557). -/
def Partition.tdiLocks (x : Partition) : Bool := x.confidential && x.sec.tdi != TdiState.unlocked

/-- A refused change to locked configuration (R557). -/
def State.refuseLocked (s : State) (c : CmdRef) (p : Nat) : State :=
  (s.tdiError p (some c)).endCmd c (Fin.with stPartConflict 6)

/-! ### Streams that drain (R491, R500) -/

/-- A capture stream. -/
def State.stream (s : State) (n : Nat) : Stream := SMap.get Stream.reset s.cap.streams n

/-- Replace a stream. -/
def State.setStream (s : State) (n : Nat) (x : Stream) : State :=
  { s with cap := { s.cap with streams := SMap.set Stream.reset s.cap.streams n x } }

/-- Change a stream. -/
def State.updStream (s : State) (n : Nat) (f : Stream → Stream) : State := s.setStream n (f (s.stream n))

/-- A stream returned to ASSIGNED or UNASSIGNED: no configuration, reference and statistics ring freed (R483, R500). -/
def Stream.cleared (x : Stream) (to_ : StreamState) : Stream :=
  match to_ with
  | .unassigned => Stream.reset
  | _ => { Stream.reset with state := .assigned, part := x.part }

/-- A RUNNING stream starts to drain. -/
def Stream.drain (x : Stream) (by_ : Option (Nat × Nat)) : Stream :=
  if x.state = .running then { x with state := .draining, stopBy := by_ } else x

/-- A DRAINING stream with no frame left is CONFIGURED, and its OP_CAP_STOP completes; `aborted` tells whether a frame was
aborted (R491). -/
def State.streamDrained (s : State) (n : Nat) (aborted : Bool) : State :=
  let x := s.stream n
  if x.state = .draining ∧ x.frames.isEmpty then
    let s1 := s.setStream n { x with state := .configured, stopBy := none }
    match x.stopBy with
    | none => s1
    | some c => s1.endCmd { block := c.1, id := c.2 } { Fin.ok with c0 := if aborted then 1 else 0 }
  else s

/-- Streams of a partition that satisfy a condition. -/
def State.streamsOf (s : State) (p : Nat) (f : Stream → Bool) : List Nat :=
  (List.range 32).filter (fun n => (s.stream n).part == some p && f (s.stream n))

/-! ### Release (R474, R475) -/

/-- Remove stores that satisfy a condition, with their units, whose entries change with journal records (R353, R360). -/
def State.dropStores (s : State) (f : Store → Bool) : State :=
  let gone := (s.flash.stores.filter f).map (fun x => x.handle)
  { s with flash := { s.flash with
      stores := s.flash.stores.filter (fun x => !f x)
      pairs := s.flash.pairs.map (fun e => (e.1, (e.2.map.filter (fun m => gone.contains m.store)).foldl
        (fun x m => x.change m.store m.unit none) { e.2 with jobs := e.2.jobs.filter (fun j => !gone.contains j.store) })) } }

/-- Release a context (R474): plan, weights, sequences, owned regions, stores that are not persistent, streams, save
area. -/
def State.releaseCtx (s : State) (p c : Nat) : State :=
  match s.part p with
  | none => s
  | some x =>
    let s0 := (s.dropStores (fun t => t.part == some p && t.ctx == some c && !t.persistent))
    let kept : List Store := s0.flash.stores.map (fun t => if t.part = some p ∧ t.ctx = some c then { t with ctx := none } else t)
    let s1 := { s0 with flash := { s0.flash with stores := kept } }
    let s2 := (s1.streamsOf p (fun t => t.ctx == some c)).foldl (fun t n => t.updStream n (fun y => y.cleared .assigned)) s1
    let owns (f : FwRegion) : Bool := if f.kind = FwKind.capture then (s.stream f.owner).part == some p && (s.stream f.owner).ctx == some c else f.owner == c
    let mine := x.fw.filter owns
    let s3 := mine.foldl (fun t f => t.scrubBacking x f.backing) s2
    let own := x.regions.filterMap (fun e => match e.2 with
      | none => none
      | some r => if r.owner = some c then some r else none)
    let s4 := if x.confidential then own.foldl (fun t r => t.scrubBacking x r.backing) s3 else s3
    let s5 := s4.stopDispatches p (fun _ => x.current == some c)
    let s6 := if x.current = some c then (s5.clearCores x).eachCore x (fun _ d => Cu.serveConf d false) else s5
    s6.updPart p (fun y => { y.setCtx c none with
      current := if y.current = some c then none else y.current
      regions := y.regions.filter (fun e => match e.2 with
        | none => true
        | some r => r.owner != some c)
      fw := y.fw.filter (fun f => !owns f) })

/-- Release a partition (R475). Its columns' maps stay, as no software sees them without an owner (notes/assumptions/36.md). -/
def State.releasePart (s : State) (p : Nat) : State :=
  match s.part p with
  | none => s
  | some x =>
    let s1 := (x.ctxs.map (fun e => e.1)).foldl (fun t c => t.releaseCtx p c) s
    let s2 := s1.dropStores (fun t => t.part == some p)
    let s3 := (s2.streamsOf p (fun _ => true)).foldl (fun t n => t.updStream n (fun y => y.cleared .unassigned)) s2
    let keys := x.dies.flatMap dieKeys
    let s4 := s3.updCores keys (fun c =>
      let z := Cu.zeroingDone (Cu.zeroAll c)
      Cu.serveConf { (List.range 16).foldl (fun d b => Cu.powerOff d b) z with regs := { z.regs with bankPwr := 0, banks := [] } } false)
    let s5 := x.dies.foldl (fun t d => t.updDie d (fun y => { y with parked := true })) s4
    -- Parked dies leave the boost set (R639).
    let sol := { s5.pwr.sol with dies := s5.pwr.sol.dies.filter (fun d => !x.dies.contains d) }
    let sp := { s5.span with
      colls := s5.span.colls.filter (fun r => r.part != p)
      survivors := s5.span.survivors.filter (fun v => v.part != p) }
    ({ s5 with pwr := { s5.pwr with sol := sol }, span := sp }).setPart p none

/-- Complete the commands that waited for a partition's drain. -/
def State.drained (s : State) (p : Nat) : State :=
  match s.part p with
  | none => s
  | some x =>
    let s1 := s.updPart p (fun y => { y with state := .disabled, drainedBy := none })
    let s2 := match x.drainedBy with
      | none => s1
      | some id => s1.endCmd { block := 0, id := id } { Fin.ok with c0 := x.drainAborts }
    match x.destroyedBy with
    | none => s2
    | some id =>
      ((s2.updPart p (fun y => { y with state := .destroying })).releasePart p).endCmd { block := 0, id := id } Fin.ok

/-! ### Switches (R461, R462) -/

/-- The READY context that follows the latest current handle, wrapping (R461). A context in destruction whose accepted
commands still run takes turns as well (R470, R474). -/
def State.nextReady (s : State) (p : Nat) (x : Partition) : Option Nat :=
  let rs := x.ctxs.filterMap (fun e => match e.2 with
    | some k =>
      if k.state = .ready ∨ (k.state = .destroying ∧ x.current ≠ some e.1 ∧ !(s.ctxCmds p e.1).isEmpty) then some e.1 else none
    | none => none)
  (rs.find? (fun c => decide (x.lastCurrent < c))).orElse (fun _ => rs.head?)

/-- Decide on a switch (R461); `gone` is a current context that has just been destroyed. -/
def State.switchFrom (s : State) (p : Nat) (gone : Option Nat) : State :=
  match s.part p with
  | none => s
  | some x =>
    if x.switch.isSome ∨ !x.served then s
    else match s.nextReady p x with
    | none => s
    | some c =>
      match x.current with
      | some o => s.updPart p (fun y => { y with switch := some { outgoing := some o, incoming := c, phase := .decided } })
      | none =>
        match x.ctx c with
        | none => s
        | some k =>
          -- No context is current: after a destroyed one, or with an image to restore, the steps from the restore on follow; the
          -- first context of a partition enters at once.
          if k.savedValid ∨ gone.isSome then
            s.updPart p (fun y => { y.setCtx c (some { k with
                state := if k.destroyedBy.isSome then .destroying else .switching }) with
              awaitFirst := y.awaitFirst || gone.isSome
              switch := some { outgoing := gone, incoming := c, phase := .restoring } })
          else s.enterCtx p c

/-- Decide on a switch between contexts that exist (R461). -/
def State.decideSwitch (s : State) (p : Nat) : State := s.switchFrom p none

/-- States IDLE and READY of the contexts that are not current (R460). -/
def State.refreshCtx (s : State) (p : Nat) : State :=
  s.updPart p (fun x => { x with ctxs := x.ctxs.map (fun e => (e.1, e.2.map (fun k =>
    match k.state with
    | .idle | .ready => { k with state := if (s.ctxCmds p e.1).isEmpty then .idle else .ready }
    | .current | .switching | .destroying => k))) })

/-! ### Conductor placement (R20, R454) -/

/-- A conductor core. -/
def State.conductor (s : State) (n : Nat) : Conductor := SMap.get Conductor.reset s.hub.conductors n

/-- Replace a conductor core. -/
def State.setConductor (s : State) (n : Nat) (x : Conductor) : State :=
  { s with hub := { s.hub with conductors := SMap.set Conductor.reset s.hub.conductors n x } }

/-- Conductor cores of a half, HUB-B being true, in ascending order. -/
def halfCores (b : Bool) : List Nat := if b then [4, 5, 6, 7, 9] else [0, 1, 2, 3, 8]

/-- Whether a half is in service. -/
def State.halfOk (s : State) (b : Bool) : Bool := if b then s.hub.bOk else s.hub.aOk

/-- The home half of a partition. -/
def homeHalf (p : Nat) : Bool := decide (4 ≤ p)

/-- A conductor core that serves no partition and can. -/
def State.coreFree (s : State) (n : Nat) : Bool :=
  (s.conductor n).inService && !(s.conductor n).loading && (List.range 8).all (fun p => match s.part p with
    | none => true
    | some x => !(x.served && x.conductor == n))

/-- Free conductor cores of a half. -/
def State.freeCores (s : State) (b : Bool) : List Nat := (halfCores b).filter s.coreFree

/-- The core that stands ready for a half: its spare if it can serve, else the lowest-numbered core that can (R454, R588, R663). -/
def State.halfSpare (s : State) (b : Bool) (can : Nat → Bool) : Option Nat :=
  let n := if b then s.hub.spareB else s.hub.spareA
  if can n then some n else (halfCores b).find? can

/-- A core becomes its half's spare (R588, R663). -/
def State.setSpare (s : State) (b : Bool) (n : Nat) : State :=
  { s with hub := if b then { s.hub with spareB := n } else { s.hub with spareA := n } }

/-- Place a partition on a conductor core: its own half keeps a spare while both halves serve; a surviving half uses every
core. The flag tells whether it crossed. -/
def State.placeConductor (s : State) (p : Nat) : Option (Nat × Bool) :=
  let h := homeHalf p
  if s.halfOk h then
    match s.freeCores h with
    | n :: m :: _ => let _ := m; some (n, false)
    | [n] => if s.halfOk (!h) then none else some (n, false)
    | [] => none
  else if s.halfOk (!h) then (s.freeCores (!h)).head?.map (fun n => (n, true))
  else none

/-- Partitions left without a conductor core are served again: one that lost it with a hub half when that half is restored
(R20), another as soon as a conductor core is free (R663). -/
def State.serveWaiting (s : State) : State :=
  (List.range 8).foldl (fun t p => match t.part p with
    | none => t
    | some x =>
      if x.served ∨ (x.lostHalf ∧ !(t.hub.aOk && t.hub.bOk)) then t
      else match t.placeConductor p with
        | none => t
        | some (n, crossed) => t.updPart p (fun y => { y with conductor := n, crossed := crossed, served := true, lostHalf := false })) s

/-! ### What follows by itself -/

/-- Whether the block's interpreter runs: the Steward for ADMIN, MGMT and DEBUG (R402, R567), a conductor core for a TENANT
block (R20, R663). -/
def State.serves (s : State) (b : Nat) : Bool :=
  match partOfBlock b with
  | none => s.stw.running
  | some p => match s.part p with
    | none => true
    | some x => x.served

/-- Copied commands whose opcode the table does not list are refused when their turn comes (R404, R436). -/
def State.denyUnlisted (s : State) (b : Nat) : State :=
  if !s.serves b then s else ((s.block b).cmds.map (fun k => k.id)).foldl (fun t id =>
    let c : CmdRef := { block := b, id := id }
    match t.cmd c with
    | none => t
    | some k => if k.phase = .copied ∧ (opPorts k.opcode).isNone ∧ t.mayValidate c k then t.deny c k 0 else t) s

/-- OP_CMD_ABORT commands whose targets' records are all written complete (R438). -/
def State.finishAborts (s : State) (b : Nat) : State :=
  ((s.block b).cmds.filter (fun k => k.opcode == 0x0109 && k.phase == .started)).foldl (fun t k =>
    if k.abortTargets.any (fun id => (t.cmd { block := b, id := id }).isSome) then t
    else t.endCmd { block := b, id := k.id } { Fin.ok with c0 := k.abortCount }) s

/-- A decode area whose decode commands' records are written takes its new sizes, or with FLUSH an empty cache (R513,
R514). -/
def State.applyDcache (s : State) (p c : Nat) (id : Nat) : State :=
  let r : CmdRef := { block := 1 + p, id := id }
  match s.cmd r with
  | none => s.updCtx p c (fun k => { k with dcacheBy := none })
  | some k =>
    let cache := k.p 0 6
    let stage := k.p 8 4
    let s1 := (s.dropFw p (fun f => f.kind == .decode && f.owner == c)).updCtx p c (fun x => { x with
      decode := none, dcacheBy := none, lsf := [] })
    let fin (t : State) (f : Fin) : State := t.endCmd r f
    if bitOf (k.p 0xC 4) 0 then
      fin (s.updCtx p c (fun x => { x with decode := x.decode.map (fun d => { d with entries := [] }), dcacheBy := none })) Fin.ok
    else if stage = 0 then fin s1 Fin.ok
    else match s1.placeFw p .decode c stage 0x10000 with
      | none => fin (s.updCtx p c (fun x => { x with dcacheBy := none })) (Fin.with stQuota 0)
      | some (_, s2) =>
        let s3 := if cache = 0 then some (0, s2) else (s2.placeFw p .decode c cache 0x10000).map (fun z => (z.1.base, z.2))
        match s3 with
        | none => fin (s.updCtx p c (fun x => { x with dcacheBy := none })) (Fin.with stQuota 0)
        | some (base, s4) =>
          fin (s4.updCtx p c (fun x => { x with decode := some {
            cacheBytes := cache, stageBytes := stage, cacheBase := base, entries := [] } })) Fin.ok

/-- Decode commands of a context in flight (R515). -/
def State.decoding (s : State) (p c : Nat) : Bool :=
  (s.block (1 + p)).cmds.any (fun k => k.ctxField == c && decide (0 < k.staged))

/-- One context's waits. -/
def State.settleCtx (s : State) (p c : Nat) : State :=
  match s.ctx p c with
  | none => s
  | some k =>
    let s1 := match k.dcacheBy with
      | none => s
      | some id => if s.decoding p c then s else s.applyDcache p c id
    match k.destroyedBy with
    | none => s1
    | some d =>
      let busy := !(s1.ctxCmds p c).isEmpty || !(s1.streamsOf p (fun t => t.ctx == some c && (t.state == StreamState.running || t.state == StreamState.draining))).isEmpty
      let switching := match s1.part p with
        | none => false
        | some x => match x.switch with
          | none => false
          | some w => w.outgoing == some c || w.incoming == c
      if busy || switching then s1
      else (s1.releaseCtx p c).endCmd { block := d.1, id := d.2 } Fin.ok

/-- Commands of the context that wait at, or have not reached, a command boundary in front of this one: an earlier plan
or weight load, region destroy or store destroy that has not completed (R242, R343, R360, R450). -/
def State.behindBoundary (s : State) (c : CmdRef) (k : Cmd) : Bool :=
  (s.block c.block).cmds.any (fun j => decide (j.id < k.id) && (j.phase == CmdPhase.waiting || j.phase == CmdPhase.started) &&
    (j.ctxField == k.ctxField || j.ctxField == 0xFFFF) && decide (j.opcode ∈ [0x0201, 0x0202, 0x0402, 0x0406]))

/-- Whether a command of a context is at its command boundary: every earlier command of the context has completed, and none
that came on another port is under way (R242). -/
def State.atBoundary (s : State) (c : CmdRef) (p h : Nat) : Bool :=
  (s.ctxCmds p h).all (fun r =>
    if r.block = c.block then decide (c.id ≤ r.id) else !s.cmdStarted r)

/-- Whether a validated command may begin: its context is CURRENT, no switch away from it is decided, and no command
boundary stands in front (R435, R462). -/
def State.ready (s : State) (c : CmdRef) (cmd : Cmd) (always : Bool) : Bool :=
  if cmd.scope c.block ≠ .context ∨ always then true
  else match s.part ((cmd.partOf c.block).getD 8) with
    | none => false
    | some x => x.current == some cmd.ctxField && x.switch.isNone && !s.behindBoundary c cmd

/-- Whether a command of the current context has started or is free to start: it keeps the context CURRENT until its quantum
ends (R461; DEDUCED, notes/assumptions/36.md: a context that has just become CURRENT starts its waiting commands first). -/
def State.holdsTurn (s : State) (c : CmdRef) : Bool :=
  match s.cmd c with
  | none => false
  | some k => match k.phase with
    | .started => true
    | .waiting => s.ready c k false
    | .copied => s.mayValidate c k
    | .ended => false

/-- One partition's waits: contexts, the drain, the states of contexts, and the switch that no work prevents (R461, R470). -/
def State.settlePart (s : State) (p : Nat) : State :=
  match s.part p with
  | none => s
  | some x0 =>
    let s1 := (x0.ctxs.map (fun e => e.1)).foldl (fun t c => t.settleCtx p c) s
    let s2 := match s1.part p with
      | none => s1
      | some x =>
        let streams := s1.streamsOf p (fun t => t.state == StreamState.running || t.state == StreamState.draining)
        if (x.state = PartState.draining ∨ (x.state = PartState.disabled ∧ x.destroyedBy.isSome)) ∧ (s1.partCmds p).isEmpty ∧ streams.isEmpty ∧
            x.switch.isNone then s1.drained p
        else s1
    let s3 := s2.refreshCtx p
    match s3.part p with
    | none => s3
    | some x =>
      if x.switch.isSome ∨ (x.state ≠ PartState.active ∧ x.state ≠ PartState.draining) then s3
      else match x.current with
        | none => s3.switchFrom p x0.current
        | some c => if (s3.ctxCmds p c).any (fun r => s3.holdsTurn r) then s3 else s3.decideSwitch p

/-- One round of everything that follows by itself. -/
def State.settleOnce (s : State) : State :=
  let s1 := (List.range 11).foldl (fun t b => (t.denyUnlisted b).finishAborts b) s
  let s2 := (List.range 32).foldl (fun t n => t.streamDrained n false) s1
  ((List.range 8).foldl (fun t p => t.settlePart p) s2).serveWaiting

/-- What follows by itself from a change: commands complete that waited for it. Two rounds suffice, since a completion
only ends further waits of the same partition. -/
def State.settle (s : State) : State := s.settleOnce.settleOnce

/-- End a command and settle. -/
def State.finish (s : State) (c : CmdRef) (f : Fin) : State := (s.endCmd c f).settle

/-! ### Teardown (R476) -/

/-- Tear down the current context of a partition (R476): its started commands end at their last commit boundary, every
core is zeroed, its image is empty. The status is ST_FAULT_RETRY, with `extra` in DETAIL, or ST_DATA_LOSS with its DETAIL under
R478. -/
def State.teardown (s : State) (p : Nat) (loss : Option Nat) (extra : Nat) : State :=
  match s.part p with
  | none => s
  | some x => match x.current with
    | none => s
    | some c =>
      let s1 := s.stopDispatches p (fun _ => true)
      let started := (s1.ctxCmds p c).filter (fun r => s1.cmdStarted r)
      let s2 := started.foldl (fun t r => match loss with
        | none => t.endAtBoundary r stFaultRetry extra
        | some a => t.failCmd r stDataLoss a) s1
      let s3 := s2.eachCore x (fun _ k => Cu.zeroingDone (Cu.clearCounters (Cu.zeroAll (Cu.abandon k))))
      let s4 := s3.updPart p (fun y => { y with teardowns := satInc32 y.teardowns, dispatches := [] })
      let s5 := (s4.updCtx p c (fun k => { k with savedValid := false })).setupCores p c
      let s6 := s5.record { EventRec.plain 0x0203 with part := p }
      (s6.refreshCtx p).decideSwitch p

/-! ### The gate of a command -/

/-- What the conductor did for a command, from s to t. Where one of its accesses to DRAM was lost on the way, nothing of it
stands but the loss itself, and the command ends at its last commit boundary with ST_DATA_LOSS (R334; notes/assumptions/2.md). -/
def State.unlessLost (s : State) (c : CmdRef) (t : State) : State :=
  match t.mem.fwLoss with
  | none => t
  | some loss => ((s.suffer loss).failCmd c stDataLoss loss.1).settle

/-- A command passes the gate of R433 to R437: it is copied, its turn has come, its checks pass, its context is CURRENT
where it must be; then `k` performs it. A command that must wait stays as it is; a failed check ends it. `always` marks the
opcodes that wait for no context. -/
def State.gate (s : State) (c : CmdRef) (op : Nat) (always : Bool) (k : State → Cmd → Nat → Nat → State) : State :=
  let run (t : State) (cmd : Cmd) : State := t.unlessLost c (k t cmd ((cmd.partOf c.block).getD 8) cmd.ctxField).settle
  match s.cmd c with
  | none => s
  | some cmd =>
    if cmd.opcode ≠ op ∨ !s.serves c.block then s
    else match cmd.phase with
    | .started | .ended => s
    | .copied =>
      if !s.mayValidate c cmd then s
      else match s.validate c cmd with
        | .denied x => (s.deny c cmd x).settle
        | .fail f => s.finish c f
        | .pass =>
          let s1 := s.updCmd c (fun j => { j with phase := .waiting })
          if s1.ready c cmd always then run s1 cmd else s1.settle
    | .waiting => if s.ready c cmd always then run s cmd else s

end Sys2Proof.Machine
end

