-- ==== Sys2Proof/Machine/Dma.lean ====
section
/-! DEFINITION. Cores at work for a command: the dispatch a core runs, the end of a command by a program fault (R182), the
data a DMA descriptor moves (R133 to R138, R252 to R256), its start, completion and deadline (R132, R138, R140, R655). -/

namespace Sys2Proof.Machine

/-! ### The dispatch of a core -/

/-- A physical core position in range (R25). -/
def posOk (p : CorePos) : Bool := decide (p.die < 16 ∧ p.col < 8 ∧ p.row < 17)

/-- The partition of a core and the dispatch it runs. -/
def State.dispatchOf (s : State) (k : Nat) : Option (Nat × Partition × DispatchRec) :=
  match s.partOfDie (k / 256) with
  | none => none
  | some p => match s.part p with
    | none => none
    | some x => (x.dispatches.find? (fun d => s.keyAt x d.pos == k)).map (fun d => (p, x, d))

/-- The command of a core's dispatch. -/
def DispatchRec.ref (d : DispatchRec) : CmdRef := { block := d.block, id := d.cmd }

/-- For whom a core makes its accesses: its partition and the current context. -/
def State.whoOf (s : State) (k : Nat) : Option Who :=
  match s.partOfDie (k / 256) with
  | none => none
  | some p => (s.part p).map (fun x => { part := some p, ctx := x.current, core := some k })

/-- DETAIL of ST_PROGRAM_FAULT (R452): the die is the partition's logical die, as in a logical position (R25; DEDUCED, notes/assumptions/13.md). -/
def faultDetail (code unit die col row pc : Nat) : Nat :=
  code + unit * 2 ^ 8 + die * 2 ^ 12 + col * 2 ^ 16 + row * 2 ^ 19 + pc * 2 ^ 23

/-- A program fault on a core (R182): the sequencer records it and stops, the units abandon their work, and the command of
the dispatch ends with ST_PROGRAM_FAULT. -/
def State.programFault (s : State) (k pc code unit arg : Nat) : State :=
  let s1 := s.updCore k (fun c => Cu.recordFault c pc code unit arg)
  match s.dispatchOf k with
  | none => s1
  | some (_, _, d) => (s1.failCmd d.ref stProgramFault (faultDetail code unit d.pos.1 d.pos.2.1 d.pos.2.2 pc)).settle

/-- A core event on a core that is in range and not frozen. -/
def State.onCore (s : State) (p : CorePos) (f : Nat → State) : State :=
  if posOk p && !(s.core (CorePos.key p)).run.frozen then f (CorePos.key p) else s

/-! ### Accesses of an engine -/

/-- Sequence two accesses. -/
def Eng.bind {α β : Type} (e : Eng α) (k : α → State → Eng β) : Eng β :=
  match e with
  | .ok v s => k v s
  | .bad st d s => .bad st d s
  | .wait => .wait

/-- Perform accesses in order and join what they give. -/
def engAll {α β : Type} (f : State → α → Eng (List β)) : State → List α → Eng (List β)
  | s, [] => .ok [] s
  | s, x :: xs => (f s x).bind (fun v s1 => (engAll f s1 xs).bind (fun w s2 => .ok (v ++ w) s2))

/-- SPAD offset, with bytes that a move will have written there. -/
abbrev Arrival := Nat × List Byte

/-- What one access of a move prepares: bytes for SPAD, or bytes for outside. -/
inductive Moved where
  | arrival (a : Arrival)
  | departure (d : Departure)
  deriving DecidableEq, Repr

/-- Words of n bytes. -/
def wordsFor (n : Nat) : Nat := (n + 3) / 4

/-- n free bytes. -/
def State.freeBytes (s : State) (n : Nat) : List Byte × State :=
  let r := s.takeFrees (wordsFor n)
  ((Cu.bytesOf r.1).take n, r.2)

/-- Read n bytes of a core's own SPAD for a DMA engine, with the snoop of R120. -/
def State.spadOut (s : State) (key off n : Nat) : List Byte × State :=
  let r := Cu.wideRead (s.core key) off n
  (r.1, s.setCore key r.2)

/-- Check codewords of a firmware region (R334). -/
def State.checkFw (s : State) (x : Partition) (f : FwRegion) : List Nat → Eng Unit
  | [] => .ok () s
  | cw :: cws =>
    let q := locate x.chans f.backing (cw * 64)
    match s.readCodeword q.1 q.2.1 (q.2.2 / 64) with
    | (.delivered, s1) => s1.checkFw x f cws
    | (.lost p, s1) => .bad stDataLoss (cw * 64 + (if p then 2 ^ 48 else 0)) s1

/-- The installed plan's area that holds a whole range of a context's accesses (R237, R239, R365). -/
def State.planArea (s : State) (w : Who) (a n : Nat) : Option (Partition × FwRegion) :=
  match w.part, w.ctx with
  | some p, some h => match s.part p with
    | none => none
    | some x => match (x.ctx h).bind (fun k => k.plan) with
      | none => none
      | some pl => (x.fw.find? (fun f => f.kind == FwKind.plan && f.base == pl.base && decide (f.base ≤ a ∧ a + n ≤ f.base + f.size))).map
          (fun f => (x, f))
  | _, _ => none

/-- A read of a DMA engine: programs read the sections of the installed plan by DMA (R232, R237; DEDUCED against R548,
notes/assumptions/9.md), besides what the partition reaches. -/
def State.dmaRead (s : State) (w : Who) (a n : Nat) : Eng (List Byte) :=
  match s.planArea w a n with
  | some (x, f) => (s.checkFw x f (codewords a n)).bind (fun _ s1 => .ok (Memory.read s1.mem.dram a n) s1)
  | none => s.readEng w a n

/-- n bytes of a core's SPAD set out for an engine address: until the move completes, free values stand there (R138, R179). -/
def State.sendOut (s : State) (w : Who) (key off dest n : Nat) : Eng (List Moved) :=
  let r := s.spadOut key off n
  let f := r.2.freeBytes n
  (f.2.writeEng w dest f.1).bind (fun _ s1 => .ok [.departure { off := off, dest := dest, data := r.1 }] s1)

/-- One access of the modes LINEAR to SKEW. -/
def State.moveXfer (s : State) (w : Who) (key base : Nat) (toExt : Bool) (x : Cu.Xfer) : Eng (List Moved) :=
  if toExt then
    match x.parts with
    | [] => .ok [] s
    | (o, _, n) :: _ => s.sendOut w key o (base + x.ext) n
  else
    (s.dmaRead w (base + x.ext) x.len).bind (fun bs s1 =>
      .ok (x.parts.map (fun p => .arrival (p.1, (bs.drop p.2.1).take p.2.2))) s1)

/-- A TILE descriptor builds its image (R136). -/
def State.moveTile (s : State) (w : Who) (d : Desc) (base : Nat) : Eng (List Moved) :=
  let column (t : State) (n : Nat) : Eng (List (List Byte)) :=
    let a := Cu.tileColumn d n
    (t.dmaRead w (base + a.1) a.2).bind (fun bs t1 => .ok [bs] t1)
  let scale (t : State) (n : Nat) : Eng (List (List Byte)) :=
    let a := Cu.tileScale d n
    (t.dmaRead w (d.aux + a.1) a.2).bind (fun bs t1 => .ok [bs] t1)
  let scaled := decide (0 < Cu.scaleBytes (Cu.par d 0) (decide (Cu.par d 5 = 1)))
  (engAll column s (List.range 64)).bind (fun cols s1 =>
    (engAll scale s1 (if scaled then List.range 64 else [])).bind (fun scs s2 =>
      .ok [.arrival (d.spad, Cu.buildImage d cols scs)] s2))

/-! ### Page lists (R137, R252 to R256) -/

/-- The KV control area of the context that covers an address. -/
def Partition.ctlArea (x : Partition) (ctx : Option Nat) (a : Nat) : Option FwRegion :=
  x.fw.find? (fun f => f.kind == FwKind.kvControl && ctx == some f.owner && decide (f.base ≤ a ∧ a < f.base + f.size))

/-- A byte of a KV control area: the ramp list's entries are given by their place (R255, R714). -/
def State.ctlByte (s : State) (f : FwRegion) (a : Nat) : Byte :=
  let off := a - f.base
  if 2 ^ 26 ≤ off ∧ off < 2 ^ 27 then (leBytes 4 (2 ^ 31 + (off - 2 ^ 26) / 4)).getD (off % 4) 0 else Memory.byte s.mem.dram a

/-- A 32-bit word that the page walker reads: from the context's KV control area, or from anywhere the context reaches. -/
def State.walkRead (s : State) (w : Who) (x : Partition) (a : Nat) : Eng Nat :=
  match x.ctlArea w.ctx a with
  | some f => (s.checkFw x f (codewords a 4)).bind (fun _ s1 =>
      .ok (leNat ((List.range 4).map (fun i => s1.ctlByte f (a + i)))) s1)
  | none => (s.readEng w a 4).bind (fun bs s1 => .ok (leNat bs) s1)

/-- What a list entry names (R253, R256): a page, nothing, or a number that no page has. -/
inductive PageRef where
  | page (n : Nat)
  | empty
  | beyond
  deriving DecidableEq, Repr

/-- Put a translation into a list of at most `cap`; the one that gives way in a full list is open (DESIGN CHOICE,
notes/assumptions/2.md). -/
def State.putXlat (s : State) (cap : Nat) (es : List Xlat) (e : Xlat) : List Xlat × State :=
  if es.length < cap then (e :: es, s)
  else
    let r := s.takeFree
    (es.set (r.1.toNat % es.length) e, r.2)

/-- Put a translation into the cache of a die: 1,024 entries (R256). -/
def State.fillDie (s : State) (die : Nat) (e : Xlat) : State :=
  let r := s.putXlat 1024 (s.die die).xlat e
  r.2.updDie die (fun d => { d with xlat := r.1 })

/-- The set of the second-level cache in which a table entry lies: 4,096 entries in 16 ways are 256 sets (R256); consecutive
entries lie in consecutive sets (DESIGN CHOICE, notes/assumptions/34.md). -/
def xlatSet (addr : Nat) : Nat := addr / 4 % 256

/-- Put a translation into the second-level cache of a stack, in one of its partition's two ways (R256). -/
def State.fillStack (s : State) (stack : Nat) (e : Xlat) : State :=
  let all := SMap.get [] s.mem.xlat2 stack
  let mine (x : Xlat) : Bool := x.part == e.part && xlatSet x.addr == xlatSet e.addr
  let r := s.putXlat 2 (all.filter mine) e
  { r.2 with mem := { r.2.mem with xlat2 := SMap.set [] r.2.mem.xlat2 stack (r.1 ++ all.filter (fun x => !mine x)) } }

/-- The translation entry at an address of the table, through the caches of the die and of the stack (R256). A partition hits
only what was read for it. -/
def State.translate (s : State) (w : Who) (die : Nat) (x : Partition) (a : Nat) : Eng Nat :=
  let p := w.part.getD 8
  let stack := (s.cellAt a).elim 0 Prod.fst
  let hit (es : List Xlat) : Option Xlat := es.find? (fun e => e.part == p && e.addr == a)
  match hit (s.die die).xlat, hit (SMap.get [] s.mem.xlat2 stack) with
  | some e, _ => .ok e.entry s
  | none, some e => .ok e.entry (s.fillDie die e)
  | none, none => (s.walkRead w x a).bind (fun t s1 =>
      let e : Xlat := { part := p, addr := a, entry := t }
      .ok t ((s1.fillStack stack e).fillDie die e))

/-- The page an entry names, through the translation table for a virtual entry. -/
def State.pageRef (s : State) (w : Who) (die : Nat) (x : Partition) (v : KvState) (e : Nat) : Eng PageRef :=
  let direct (n : Nat) : PageRef := if n < v.np then .page n else .beyond
  if e = 0xFFFFFFFF then .ok .empty s
  else if e < 0x80000000 then .ok (direct e) s
  else if e ≤ 0x80FFFFFF then
    (s.translate w die x (v.ctlBase + 4 * (e % 2 ^ 24))).bind (fun t s1 =>
      .ok (if t < 2 ^ 31 then .empty else direct (t - 2 ^ 31)) s1)
  else .ok .beyond s

/-- The list entries of a group of blocks: per block, the list entry's address and what it names. -/
def State.pageGroup (s : State) (w : Who) (die : Nat) (x : Partition) (v : KvState) (d : Desc) (blocks : List Nat) :
    Eng (List (Nat × PageRef)) :=
  engAll (fun t b =>
    (t.walkRead w x (d.aux + 4 * b)).bind (fun e t1 =>
      (t1.pageRef w die x v e).bind (fun r t2 => .ok [(b, r)] t2))) s blocks

/-- One position of a PAGE descriptor (R137, R252, R253). A position of a remote core that lies outside its SPAD makes the
descriptor illegal (R133). -/
def State.movePos (s : State) (w : Who) (key base : Nat) (d : Desc) (refs : List (Nat × PageRef)) (p : Nat) :
    Eng (List Moved) :=
  let b := p / 256
  let spad := d.spad + (p - Cu.par d 2) * Cu.par d 4
  let n := Cu.par d 0
  let bad : Eng (List Moved) := .bad stAddrFault (d.aux + 4 * b + 2 ^ 56) s
  let ref : Option PageRef := (refs.find? (fun r => r.1 == b)).map (fun r => r.2)
  match ref with
  | some (.page g) =>
    let a := base + g * Cu.par d 1 + p % 256 * n
    if d.remote ∧ Cu.spadBytes < d.ext % 2 ^ 22 + g * Cu.par d 1 + p % 256 * n + n then .bad engDesc 0 s
    else if d.toExt then s.sendOut w key spad a n
    else (s.dmaRead w a n).bind (fun bs s1 => .ok [.arrival (spad, bs)] s1)
  | some .empty => if d.toExt then bad else .ok [.arrival (spad, List.replicate n 0#8)] s
  | some .beyond => bad
  | none => bad

/-- A PAGE descriptor: each group of list entries, aligned to 16, then its positions (R137). -/
def State.movePages (s : State) (w : Who) (x : Partition) (key base : Nat) (d : Desc) : Eng (List Moved) :=
  let p0 := Cu.par d 2
  let p1 := p0 + Cu.par d 3 - 1
  let v := (w.ctx.bind (fun c => x.ctx c)).bind (fun k => k.kv)
  match v with
  | none => .bad stAddrFault (d.aux + 4 * (p0 / 256) + 2 ^ 56) s
  | some v =>
    let groups := (List.range (p1 / 4096 + 1 - p0 / 4096)).map (fun i => p0 / 4096 + i)
    engAll (fun t g =>
      let lo := max p0 (g * 4096)
      let hi := min p1 (g * 4096 + 4095)
      let blocks := (List.range (hi / 256 + 1 - lo / 256)).map (fun i => lo / 256 + i)
      (t.pageGroup w (key / 256) x v d blocks).bind (fun refs t1 =>
        engAll (fun u p => u.movePos w key base d refs p) t1 ((List.range (hi + 1 - lo)).map (fun i => lo + i)))) s groups

/-! ### One descriptor -/

/-- SPAD ranges of this core that a descriptor touches. -/
def ownRanges (d : Desc) : List (Nat × Nat) :=
  if Cu.descEmpty d then []
  else match d.mode with
    | 4 => [(d.spad, Cu.imageBytes (Cu.par d 0) (decide (Cu.par d 5 = 1)))]
    | 5 => (List.range (Cu.par d 3)).map (fun i => (d.spad + i * Cu.par d 4, Cu.par d 0))
    | _ => (Cu.xfers d).flatMap (fun x => x.parts.map (fun q => (q.1, q.2.2)))

/-- Banks of this core that a descriptor touches (R116). -/
def ownAccess (c : Core) (d : Desc) : Cu.Access :=
  let rs := (ownRanges d).map (fun r => Cu.access c r.1 r.2)
  if rs.any (fun r => r == Cu.Access.off) then .off else if rs.all (fun r => r == Cu.Access.ok) then .ok else .held

/-- Engine address of a descriptor's external side; none where it names a core outside the partition (R31, R132). -/
def State.extBase (s : State) (x : Partition) (d : Desc) : Option Nat :=
  if d.remote then
    let die := bitsOf d.ext 47 44
    if die < x.dies.length then
      some (windowBase + s.keyAt x (die, bitsOf d.ext 43 41, bitsOf d.ext 40 37) * 2 ^ 23 + d.ext % 2 ^ 22)
    else none
  else some d.ext

/-- What a descriptor moves: external writes are made, and what SPAD will receive is answered. -/
def State.moveDesc (s : State) (w : Who) (x : Partition) (key : Nat) (d : Desc) : Eng (List Moved) :=
  if Cu.descEmpty d then .ok [] s
  else match s.extBase x d with
    | none => .bad stAddrFault d.ext s
    | some base =>
      if d.mode = 4 then s.moveTile w d base
      else if d.mode = 5 then s.movePages w x key base d
      else engAll (fun t q => t.moveXfer w key base d.toExt q) s (Cu.xfers d)

/-- Until its completion, what a move writes to SPAD is open (R139): free values stand there. -/
def State.openRange (s : State) (key : Nat) (a : Arrival) : State :=
  let r := s.freeBytes a.2.length
  r.2.updCore key (fun c => Cu.wideWrite c true a.1 r.1)

/-- A DMA engine of a core. -/
def Core.dma (c : Core) (e : Nat) : DmaEngine := if e = 0 then c.dma0 else c.dma1

/-- Change a DMA engine. -/
def Core.updDma (c : Core) (e : Nat) (f : DmaEngine → DmaEngine) : Core :=
  if e = 0 then { c with dma0 := f c.dma0 } else { c with dma1 := f c.dma1 }

/-- Unit code of a DMA engine (R188). -/
def dmaUnit (e : Nat) : Nat := if e = 0 then Cu.uDma0 else Cu.uDma1

/-- A DMA access failed (R140, R148, R334): the command of the dispatch ends with its status. -/
def State.dmaFailed (s : State) (key eng status detail : Nat) : State :=
  let code : Option (BitVec 8) :=
    if status = stAddrFault then (if bitOf detail 55 then some 3#8 else some 2#8) else none
  let s1 := s.updCore key (fun c => c.updDma eng (fun e => { e.dropWork with lastFault := code.getD e.lastFault }))
  match s1.dispatchOf key with
  | none => s1
  | some (_, _, d) => (s1.failCmd d.ref status detail).settle

/-- A corrected error is counted (R110, R142). -/
def countCorr (c : Core) : Core := { c with regs := { c.regs with eccCorr := Cu.sat8 c.regs.eccCorr 1 } }

/-- A core fault stops the core (R102, R645 step 1). Its gather-buffer entries are not flushed but discarded (R123). -/
def freeze (c : Core) : Core := { c with run := { c.run with frozen := true }, mem := { c.mem with gb := [] } }

/-- An uncorrectable error is counted and is a core fault (R110, R142). -/
def countUncorr (c : Core) : Core := freeze { c with regs := { c.regs with eccUncorr := Cu.sat8 c.regs.eccUncorr 1 } }

/-- An error met in a core's memory while a DMA engine reads it (R110). -/
def State.eccMet (s : State) (e : EccErr) : State :=
  if posOk e.core then s.updCore (CorePos.key e.core) (if e.uncorrectable then countUncorr else countCorr) else s

/-- A DMA access ended with a status, or with a program fault of the core whose engine made it (R116, R133, R140). -/
def State.dmaBad (s : State) (key eng pc status detail : Nat) : State :=
  if status = engDesc then
    (s.updCore key (fun c => c.updDma eng (fun e => { e with lastFault := 1 }))).programFault key pc Cu.fDmaDesc (dmaUnit eng) 0
  else if status = engBankOff then s.programFault key pc Cu.fBankOff (dmaUnit eng) 0
  else s.dmaFailed key eng status detail

/-- What a move prepares for SPAD, and for outside. -/
def arrivalsOf (ms : List Moved) : List Arrival := ms.filterMap (fun m => match m with
  | .arrival a => some a
  | .departure _ => none)
def departuresOf (ms : List Moved) : List Departure := ms.filterMap (fun m => match m with
  | .arrival _ => none
  | .departure d => some d)

/-- The head of a queue moves its data (R132): what it brings to SPAD or delivers is open until it completes (R139, R179). A
descriptor that proves illegal, or that meets an OFF bank of its own core, moves nothing (R116, R133). -/
def State.dmaMove (s : State) (key eng : Nat) (w : Who) (x : Partition) (d : Desc) : State :=
  match s.moveDesc w x key d with
  | .wait => s
  | .bad st det s1 => (if st = engDesc ∨ st = engBankOff then s else s1).dmaBad key eng d.pc st det
  | .ok ms s1 =>
    let s2 := (arrivalsOf ms).foldl (fun t a => t.openRange key a) s1
    s2.updCore key (fun c => c.updDma eng (fun e => { e with
      active := true, arriving := arrivalsOf ms, leaving := departuresOf ms, raced := [] }))

/-- The head of a queue starts to move data (R132), unless a bank holds it or a word it reads cannot be corrected (R110, R116). -/
def State.dmaStart (s : State) (key eng : Nat) (ecc : List EccErr) : State :=
  let c := s.core key
  let e := c.dma eng
  match e.queue, s.whoOf key, s.partOfDie (key / 256) with
  | d :: _, some w, some p =>
    if e.active ∨ e.held.isSome then s
    else match ownAccess c d with
      | .off => s.programFault key d.pc Cu.fBankOff (dmaUnit eng) 0
      | .held => s
      | .ok => match s.part p with
        | none => s
        | some x =>
          let s0 := ecc.foldl State.eccMet s
          if ecc.any (fun e => e.uncorrectable && posOk e.core) then s0 else s0.dmaMove key eng w x d
  | _, _, _ => s

/-- DMA_DESCRIPTOR_START (R28, R110, R132 to R140, R252 to R256, R334). -/
def execDmaDescriptorStart (core : CorePos) (eng : Nat) (errs : List DramErr) (ecc : List EccErr) (s : State) : Out :=
  .next (
    let s0 := s.strike errs
    if eng ≤ 1 then s0.onCore core (fun k => s0.dmaStart k eng ecc) else s0)

/-- Whether byte i of a region of n bytes lies in a 128-byte part that another writer touched while the region was moving (R139,
R179). -/
def racedAt (raced : List (Nat × Nat)) (off n i : Nat) : Bool :=
  let lo := max off ((off + i) / 128 * 128)
  let hi := min (off + n) ((off + i) / 128 * 128 + 128)
  raced.any (fun r => Cu.overlaps r.1 r.2 lo (hi - lo))

/-- The bytes of a region when its move completes: free ones in the parts that another writer touched meanwhile (R139, R179). -/
def State.settleRace (s : State) (raced : List (Nat × Nat)) (off : Nat) (bs : List Byte) : List Byte × State :=
  if raced.isEmpty then (bs, s)
  else
    let f := s.freeBytes bs.length
    ((bs.zipIdx).map (fun p => if racedAt raced off bs.length p.2 then f.1.getD p.2 0 else p.1), f.2)

/-- The bytes that a completing move leaves in SPAD. -/
def State.settleArrivals (s : State) (raced : List (Nat × Nat)) : List Arrival → List Arrival × State
  | [] => ([], s)
  | a :: as =>
    let r := s.settleRace raced a.1 a.2
    let q := r.2.settleArrivals raced as
    ((a.1, r.1) :: q.1, q.2)

/-- The bytes of a completing move are delivered outside (R138). -/
def State.deliverAll (s : State) (w : Who) (raced : List (Nat × Nat)) : List Departure → Eng Unit
  | [] => .ok () s
  | d :: ds =>
    let r := s.settleRace raced d.off d.data
    (r.2.writeEng w d.dest r.1).bind (fun _ s1 => s1.deliverAll w raced ds)

/-- A completing descriptor: its bytes are in SPAD, its counter counts, and the next one may start (R138, R148, R646). -/
def dmaDone (c : Core) (eng : Nat) (d : Desc) (rest : List Desc) (as : List Arrival) : Core :=
  let c1 := c.updDma eng (fun e => { e.dropWork with queue := rest, done := e.done + 1 })
  let c2 := Cu.incSem (as.foldl (fun g a => Cu.wideWrite g true a.1 a.2) c1) d.sem
  if d.toExt then { c2 with run := { c2.run with dmaDone := c2.run.dmaDone ++ [d.outNo] } } else c2

/-- The move at the head of a queue completes (R138). -/
def State.dmaFinish (s : State) (key eng : Nat) (w : Who) (d : Desc) (rest : List Desc) : State :=
  let e := (s.core key).dma eng
  match s.deliverAll w e.raced e.leaving with
  | .wait => s
  | .bad st det s1 => s1.dmaBad key eng d.pc st det
  | .ok _ s1 =>
    let r := s1.settleArrivals e.raced e.arriving
    r.2.updCore key (fun c => dmaDone c eng d rest r.1)

/-- DMA_COMPLETE (R138, R139, R176, R179). -/
def execDmaComplete (core : CorePos) (eng : Nat) (s : State) : Out :=
  .next (if eng ≤ 1 then s.onCore core (fun k =>
    let e := (s.core k).dma eng
    match e.queue, s.whoOf k with
    | d :: rest, some w => if e.active && e.held.isNone then s.dmaFinish k eng w d rest else s
    | _, _ => s) else s)

/-! ### Requests that a channel does not answer (R655) -/

/-- An engine's request waits for a channel, by its key. -/
def DmaEngine.holds (e : DmaEngine) (key : Nat) : Bool := e.held == some key

/-- A channel answers again: the requests it held are issued, and each command that waited for them counts one recovery with
DRAM requests held (R649, R655). -/
def State.releaseHeld (s : State) (key : Nat) : State :=
  let ks := (s.cores.filter (fun e => e.2.dma0.holds key || e.2.dma1.holds key)).map (fun e => e.1)
  let cs : List CmdRef := (ks.filterMap (fun k => (s.dispatchOf k).map (fun d => d.2.2.ref))).dedup
  let free (e : DmaEngine) : DmaEngine := if e.holds key then { e with expiries := 0, held := none } else e
  let s1 := s.updCores ks (fun c => { c with dma0 := free c.dma0, dma1 := free c.dma1 })
  cs.foldl (fun t c => t.noteRecovery c (fun r => { r with dram := true })) s1

end Sys2Proof.Machine
end

