-- ==== Sys2Proof/Machine/Quota.lean ====
section
/-! DEFINITION. Tier quotas: records, charges and reservations (R366 to R368), and how commands write their outputs
(R440). -/

namespace Sys2Proof.Machine

/-! ### Who a command acts for, and its output -/

/-- A command acts for its partition and context (R28 to R33); on a TENANT port always for the port's partition. -/
def Cmd.who (k : Cmd) (b : Nat) : Who :=
  { part := if k.scope b = .engine ∧ portOf b ≠ 1 then none else k.partOf b, ctx := if k.scope b = .context then k.ctxOf else none }

/-- Write a command's output and end it; it waits where a scratchpad bank is not on (R116, R440). -/
def State.finishOut (s : State) (c : CmdRef) (k : Cmd) (addr : Nat) (bs : List Byte) (f : Fin) : State :=
  match s.output c (k.who c.block) addr bs f with
  | (s1, some g) => s1.endCmd c g
  | (s1, none) => s1

/-- Reserved bits of a block for which the manual names no status end the command so (notes/assumptions/16.md). -/
def Cmd.badBlock (k : Cmd) : Fin := Fin.with stParamLen (k.paramLen + k.lenReq.1 % 65536 * 2 ^ 16)

/-! ### Records -/

/-- A quota record at an offset of a parameter area (R366). -/
def Cmd.quotaAt (k : Cmd) (off : Nat) : Quota :=
  { dram := k.p off 8, kv := k.p (off + 8) 8, flash := k.p (off + 16) 8, swap := k.p (off + 24) 8 }

/-- Malformed (R368). -/
def Quota.malformed (q : Quota) (part : Bool) : Bool :=
  q.dram % 0x10000 != 0 || q.swap % 0x10000 != 0 || decide (q.dram < q.kv) || (part && q.kv != 0)

/-- The bytes of a record. -/
def Quota.bytes (q : Quota) : List Byte := leBytes 8 q.dram ++ leBytes 8 q.kv ++ leBytes 8 q.flash ++ leBytes 8 q.swap

/-! ### Charges (R367) -/

/-- Firmware regions charged against KV_BYTES. -/
def FwKind.kvCharge : FwKind → Bool
  | .pool | .kvControl | .live => true
  | .plan | .save | .experts | .weights | .decode | .qstat | .capture => false

/-- Firmware regions charged to the partition. -/
def FwKind.partCharge : FwKind → Bool
  | .save => true
  | .plan | .pool | .kvControl | .live | .experts | .weights | .decode | .qstat | .capture => false

/-- Bytes of the firmware regions of a context that satisfy a condition. -/
def Partition.fwBytes (x : Partition) (c : Nat) (f : FwKind → Bool) : Nat :=
  ((x.fw.filter (fun r => r.kind != FwKind.capture && r.owner == c && f r.kind)).map FwRegion.size).sum

/-- Bytes of the statistics and reference areas that a context's streams hold. -/
def State.captureBytes (s : State) (p c : Nat) : Nat :=
  match s.part p with
  | none => 0
  | some x => ((x.fw.filter (fun r => r.kind == FwKind.capture && (s.stream r.owner).ctx == some c)).map FwRegion.size).sum

/-- KV charge of a context. -/
def Partition.kvCharge (x : Partition) (c : Nat) : Nat := x.fwBytes c FwKind.kvCharge

/-- Charges of a context against DRAM_BYTES - KV_BYTES. -/
def State.dramCharge (s : State) (p c : Nat) : Nat :=
  match s.part p with
  | none => 0
  | some x =>
    x.fwBytes c (fun f => !f.kvCharge && !f.partCharge) + s.captureBytes p c +
      (x.regions.map (fun e => match e.2 with
        | none => 0
        | some r => if r.owner = some c then r.size else 0)).sum

/-- Flash units charged to a context, or with none to the partition (R361). -/
def State.flashCharge (s : State) (p : Nat) (c : Option Nat) : Nat :=
  ((s.flash.stores.filter (fun t => t.part == some p && t.ctx == c)).map Store.units).sum

/-- Swap bytes of a context (R273). -/
def State.swapCharge (s : State) (p c : Nat) : Nat := match s.kv p c with
  | none => 0
  | some v => v.swapUsed

/-- The charges of a context record (R368). -/
def State.ctxCharges (s : State) (p c : Nat) : Quota :=
  let kv := match s.part p with
    | none => 0
    | some x => x.kvCharge c
  { dram := s.dramCharge p c + kv, kv := kv, flash := s.flashCharge p (some c), swap := s.swapCharge p c }

/-- Context records of a partition. -/
def Partition.quotas (x : Partition) : List (Nat × Quota) :=
  x.ctxs.filterMap (fun e => e.2.map (fun k => (e.1, k.quota)))

/-- What a partition record must cover (R367, R368): its own charges and the reservations of its contexts. -/
def State.partCharges (s : State) (p : Nat) : Quota :=
  match s.part p with
  | none => { dram := 0, kv := 0, flash := 0, swap := 0 }
  | some x =>
    let own := ((x.fw.filter (fun r => r.kind.partCharge)).map FwRegion.size).sum +
      (x.regions.map (fun e => match e.2 with
        | none => 0
        | some r => if r.owner = none then r.size else 0)).sum
    { dram := own + (x.quotas.map (fun q => q.2.dram)).sum
      kv := 0
      flash := s.flashCharge p none + (x.quotas.map (fun q => q.2.flash)).sum
      swap := (x.quotas.map (fun q => q.2.swap)).sum }

/-- A record covers charges. -/
def Quota.covers (q c : Quota) : Bool := decide (c.dram ≤ q.dram ∧ c.flash ≤ q.flash ∧ c.swap ≤ q.swap)

/-- A context record covers its charges: KV structures and the rest apart (R367). -/
def Quota.coversCtx (q c : Quota) : Bool := decide (c.kv ≤ q.kv ∧ c.dram - c.kv ≤ q.dram - q.kv ∧ c.flash ≤ q.flash ∧ c.swap ≤ q.swap)

/-- Limits of a partition record by its die pairs (R367). -/
def quotaLimit (q : Quota) (pairs : Nat) : Bool := decide (q.dram ≤ 48960 * 2 ^ 20 * pairs ∧ q.flash ≤ 2 ^ 25 * pairs)

/-- n more bytes fit a context's DRAM record. -/
def State.fitsCtx (s : State) (p c n : Nat) : Bool :=
  match s.ctx p c with
  | none => false
  | some k => decide (s.dramCharge p c + n ≤ k.quota.dram - k.quota.kv)

/-- n more bytes fit a context's KV record. -/
def State.fitsKv (s : State) (p c n : Nat) : Bool :=
  match s.part p, s.ctx p c with
  | some x, some k => decide (x.kvCharge c + n ≤ k.quota.kv)
  | _, _ => false

/-- n more bytes fit the partition record. -/
def State.fitsPart (s : State) (p n : Nat) : Bool :=
  match s.part p with
  | none => false
  | some x => decide ((s.partCharges p).dram + n ≤ x.quota.dram)

/-! ### OP_QUOTA_SET and OP_QUOTA_STAT (R366 to R368) -/

/-- A quota failure with its reason (R452). -/
def quotaFin (reason : Nat) : Fin := Fin.with stQuota reason

/-- OP_QUOTA_SET (R367, R368): applied whole or not at all; a locked partition record is refused (R557). -/
def State.quotaSet (s : State) (c : CmdRef) (k : Cmd) (p h : Nat) : State :=
  let q := k.quotaAt 0
  match s.part p with
  | none => s
  | some x =>
    if h = 0xFFFF then
      if q.malformed true then s.endCmd c (quotaFin 4)
      else if !(quotaLimit q (bitsSet x.pairMask.toNat 8).length && q.covers (s.partCharges p)) then s.endCmd c (quotaFin 0)
      else if x.tdiLocks then s.refuseLocked c p
      else (s.updPart p (fun y => { y with quota := q })).endCmd c Fin.ok
    else if q.malformed false then s.endCmd c (quotaFin 4)
    else
      let s1 := s.updCtx p h (fun y => { y with quota := q })
      if q.coversCtx (s.ctxCharges p h) && x.quota.covers (s1.partCharges p) then s1.endCmd c Fin.ok
      else s.endCmd c (quotaFin 0)

/-- OP_QUOTA_SET (R366, R367, R368). -/
def execOpQuotaSet (c : CmdRef) (s : State) : Out := .next (s.gate c 0x0107 false (fun t k p h => t.quotaSet c k p h))

/-- OP_QUOTA_STAT (R368): the charges of a record at ADDR. -/
def execOpQuotaStat (c : CmdRef) (s : State) : Out :=
  .next (s.gate c 0x0108 false (fun t k p h =>
    if k.p 6 2 ≠ 0 then t.endCmd c k.badBlock
    else t.finishOut c k (k.p 0 6) (if h = 0xFFFF then t.partCharges p else t.ctxCharges p h).bytes Fin.ok))

end Sys2Proof.Machine
end

