-- ==== Sys2Proof/Machine/Capture.lean ====
section
/-! DEFINITION. Capture ports and streams (R479 to R500, R508, R510 to R512) and TSYNC (R503, R507). Readings:
notes/assumptions/23.md. -/

namespace Sys2Proof.Machine

/-- A parameter failure at a block offset (R482, R485). -/
def badCap (off : Nat) : Fin := Fin.with stCapParam off

/-- Whether a capture port's hub half is in service. -/
def State.capHalf (s : State) (port : Nat) : Bool := if port = 0 then s.hub.aOk else s.hub.bOk

/-- A capture port. -/
def State.capPort (s : State) (n : Nat) : CapPort := SMap.get CapPort.reset s.cap.ports n

/-- Change a capture port. -/
def State.updCapPort (s : State) (n : Nat) (f : CapPort → CapPort) : State :=
  { s with cap := { s.cap with ports := SMap.set CapPort.reset s.cap.ports n (f (s.capPort n)) } }

/-- A stream takes frames in. -/
def Stream.live (x : Stream) : Bool := x.state == .running || x.state == .draining

/-! ### OP_CAP_ASSIGN (R481, R482) -/

/-- The first failing offset of the block of OP_CAP_ASSIGN. -/
def capAssignBad (k : Cmd) : Option Nat :=
  let lanes := k.p 1 1
  let map := (List.range lanes).map (fun i => k.p 4 1 / 4 ^ i % 4)
  if 4 ≤ k.p 0 1 then some 0
  else if lanes ≠ 1 ∧ lanes ≠ 2 ∧ lanes ≠ 4 then some 1
  else if k.p 2 2 = 0 then some 2
  else if !(map.all (fun v => decide (v < lanes)) && decide map.Nodup) then some 4
  else if 16 ≤ k.p 5 1 then some 5
  else if k.p 6 2 ≠ 0 then some 6
  else if k.p 8 4 < 80 ∨ 4500 < k.p 8 4 then some 8
  else if k.p 0xC 4 ≠ 0 then some 0xC
  else none

/-- The link settings of a port equal those of a block. -/
def CapPort.same (x : CapPort) (k : Cmd) : Bool :=
  x.lanes == k.p 1 1 && x.laneMap == k.p 4 1 && x.pol == k.p 5 1 && x.maxRate == k.p 8 4

/-- OP_CAP_ASSIGN (R482). -/
def State.capAssign (s : State) (c : CmdRef) (k : Cmd) (p : Nat) : State :=
  match capAssignBad k with
  | some off => s.endCmd c (badCap off)
  | none =>
    let port := k.p 0 1 % 2
    let release := bitOf (k.p 0 1) 1
    let vs := (bitsSet (k.p 2 2) 16).map (fun v => 16 * port + v)
    let own (n : Nat) : Bool :=
      let x := s.stream n
      if release then x.part == some p && x.state == StreamState.assigned else x.part == none || x.part == some p
    if !s.capHalf port then s.endCmd c (Fin.with stCapState 1)
    else if !vs.all own then s.endCmd c (Fin.with stCapState 2)
    else if !(s.capPort port).same k ∧ (List.range 16).any (fun v => (s.stream (16 * port + v)).live) then
      s.endCmd c (Fin.with stCapState 3)
    else
      let s1 := vs.foldl (fun t n => t.updStream n (fun x =>
        if release then Stream.reset
        else if x.state = StreamState.unassigned then { Stream.reset with state := .assigned, part := some p } else x)) s
      (s1.updCapPort port (fun x => { x with lanes := k.p 1 1, laneMap := k.p 4 1, pol := k.p 5 1, maxRate := k.p 8 4 })).endCmd c Fin.ok

/-- OP_CAP_ASSIGN. -/
def execOpCapAssign (c : CmdRef) (s : State) : Out := .next (s.gate c 0x0601 false (fun t k p _ => t.capAssign c k p))

/-! ### OP_CAP_CONFIG (R484 to R487) -/

/-- The configuration that a block gives. -/
def Cmd.capCfg (k : Cmd) : CapCfg :=
  let m := k.p 2 2
  { dt := k.p 1 1, cfa := m % 4, cfaOut := bitOf m 2, gradient := bitOf m 3, nrEn := bitOf m 4, lscEn := bitOf m 5, width := k.p 4 2,
    height := k.p 6 2, timeoutUs := k.p 8 4, staleUs := k.p 0xC 4, outBase := k.p 0x18 6, bufStride := k.p 0x20 4, nbuf := k.p 0x24 1,
    statDepth := k.p 0x25 1, rowPitch := k.p 0x28 4 }

/-- Planes of a configuration's output. -/
def CapCfg.nPlanes (c : CapCfg) : Nat := if c.cfaOut then 1 else 3

/-- Bytes of one buffer. -/
def CapCfg.bufBytes (c : CapCfg) : Nat := 0x1000 + c.nPlanes * c.rowPitch * c.height

/-- A side of R479. -/
def sideOk (v : Nat) : Bool := decide (16 ≤ v ∧ v ≤ 8192) && v % 2 == 0

/-- The first failing offset of the block of OP_CAP_CONFIG (R485 step 1); an update reads STREAM, UPDATE and PARAM_ADDR
alone. -/
def capConfigBad (k : Cmd) : Option Nat :=
  let c := k.capCfg
  if bitOf (k.p 0 1) 5 then (if k.p 0x10 6 % 256 ≠ 0 then some 0x10 else none)
  else if 64 ≤ k.p 0 1 then some 0
  else if c.dt ≠ 0x2B ∧ c.dt ≠ 0x2C ∧ c.dt ≠ 0x2D then some 1
  else if 64 ≤ k.p 2 2 then some 2
  else if !sideOk c.width then some 4
  else if !sideOk c.height ∨ 33554432 < c.width * c.height then some 6
  else if c.timeoutUs < 100 ∨ 10000000 < c.timeoutUs then some 8
  else if !zeroOrIn_ c.staleUs then some 0xC
  else if k.p 0x10 6 % 256 ≠ 0 then some 0x10
  else if k.p 0x16 2 ≠ 0 then some 0x16
  else if c.outBase % 4096 ≠ 0 then some 0x18
  else if k.p 0x1E 2 ≠ 0 then some 0x1E
  else if c.bufStride % 4096 ≠ 0 ∨ c.bufStride < c.bufBytes then some 0x20
  else if c.nbuf < 2 ∨ 64 < c.nbuf then some 0x24
  else if c.statDepth = 0 ∨ 64 < c.statDepth then some 0x25
  else if k.p 0x26 2 ≠ 0 then some 0x26
  else if c.rowPitch % 256 ≠ 0 ∨ c.rowPitch < 2 * c.width then some 0x28
  else ((List.range 20).map (fun i => 0x2C + i)).find? (fun o => k.p o 1 != 0)
where
  zeroOrIn_ (v : Nat) : Bool := v == 0 || decide (100 ≤ v ∧ v ≤ 10000000)

/-- First address of a range that no region of the partition covers (R485 step 3). -/
def State.capUncovered (s : State) (w : Who) (a n : Nat) : Option Nat :=
  if place a ≠ .dram then some a else s.uncovered w 32 a (a + n)

/-- Bytes rounded up to 64 KiB. -/
def up64K (n : Nat) : Nat := (n + 65535) / 65536 * 65536

/-- Bytes of the reference frame and of the statistics ring (R485 step 5). -/
def CapCfg.refBytes (c : CapCfg) : Nat := if c.nrEn then up64K (4 * c.width * c.height) else 0
def CapCfg.statBytes (c : CapCfg) : Nat := up64K (8448 * c.statDepth)

/-- Place the areas of a stream, charged to its context; its old areas are released. -/
def State.capAreas (s : State) (p h n : Nat) (cfg : CapCfg) : Option State :=
  let s1 := (s.dropFw p (fun f => f.kind == .capture && f.owner == n)).updStream n (fun x => { x with part := some p, ctx := some h })
  if !s1.fitsCtx p h (cfg.refBytes + cfg.statBytes) then none
  else
    let s2 := if cfg.refBytes = 0 then some s1 else (s1.placeFw p .capture n cfg.refBytes 0x10000).map Prod.snd
    s2.bind (fun t => (t.placeFw p .capture n cfg.statBytes 0x10000).map Prod.snd)

/-- OP_CAP_CONFIG (R485). -/
def State.capConfig (s : State) (c : CmdRef) (k : Cmd) (p h : Nat) : State :=
  match capConfigBad k with
  | some off => s.endCmd c (badCap off)
  | none =>
    let n := k.p 0 1 % 32
    let update := bitOf (k.p 0 1) 5
    let x := s.stream n
    let mine := x.part == some p && x.ctx == some h
    let st := x.state
    let ok := if update then mine && (st == StreamState.running || st == StreamState.configured)
      else (x.part == some p && st == StreamState.assigned) || (mine && (st == StreamState.configured || st == StreamState.faulted))
    let w := k.who c.block
    let cfg := k.capCfg
    let ranges := (k.p 0x10 6, 0x9000) :: (if update then []
      else (List.range cfg.nbuf).map (fun b => (cfg.outBase + b * cfg.bufStride, cfg.bufBytes)))
    if !ok then s.endCmd c (Fin.bare stCapState)
    else match ranges.findSome? (fun r => s.capUncovered w r.1 r.2) with
      | some a => s.endCmd c (Fin.with stAddrFault a)
      | none => match s.readEng w (k.p 0x10 6) 0x9000 with
        | .wait => s
        | .bad e d s1 => s1.endCmd c (Fin.with e d)
        | .ok ps s1 => match Pipe.setBad ps with
          | some o => s1.endCmd c (Fin.with stCapParam (o + 2 ^ 16))
          | none =>
            if update then
              let g := x.gen + 1
              (s1.updStream n (fun y => { y with paramsNext := some ps, gen := g })).endCmd c { Fin.ok with c0 := g.toNat }
            else match s1.capAreas p h n cfg with
              | none => s1.endCmd c (Fin.with stQuota 0)
              | some s2 =>
                (s2.updStream n (fun y => { y with
                  state := .configured, cfg := cfg, params := ps, paramsNext := none, gen := 0, refValid := false, ref := [], ring := [],
                  lostSince := 0, frames := [] })).endCmd c Fin.ok

/-- OP_CAP_CONFIG. -/
def execOpCapConfig (c : CmdRef) (s : State) : Out := .next (s.gate c 0x0602 false (fun t k p h => t.capConfig c k p h))

/-! ### Writes of the pipeline (R488, R489) -/

/-- The pipeline acts for the stream's partition and context. -/
def Stream.who (x : Stream) : Who := { part := x.part, ctx := x.ctx }

/-- Address of a buffer. -/
def CapCfg.buf (c : CapCfg) (b : Nat) : Nat := c.outBase + b * c.bufStride

/-- Write pieces, which spoil no frame; the address of a refused write stops them (R28). A part of a poisoned codeword is
discarded (R334). -/
def State.capWrites (s : State) (w : Who) : List (Nat × List Byte) → State × Option Nat
  | [] => (s, none)
  | (a, bs) :: xs => match s.writeEng w a bs with
    | .ok _ s1 => { s1 with cap := s.cap }.capWrites w xs
    | .wait => (s, some a)
    | .bad st d s1 => if st = stDataLoss then { s1 with cap := s.cap }.capWrites w xs else (s1, some d)

/-- Write a buffer's STATE word. -/
def statePiece (c : CapCfg) (b v : Nat) : Nat × List Byte := (c.buf b, leBytes 4 v)

/-- OP_CAP_START (R491). -/
def State.capStart (s : State) (c : CmdRef) (k : Cmd) (p h : Nat) : State :=
  if 32 ≤ k.p 0 4 then s.endCmd c (badCap 0)
  else
    let n := k.p 0 4
    let x := s.stream n
    if !(x.part == some p && x.ctx == some h && x.state == StreamState.configured) then s.endCmd c (Fin.bare stCapState)
    else match s.capWrites x.who ((List.range x.cfg.nbuf).map (fun b => statePiece x.cfg b 0)) with
      | (s1, some a) => s1.endCmd c (Fin.with stAddrFault a)
      | (s1, none) => (s1.updStream n (fun y => { y with
          state := .running, nextBuf := 0, frameNum := 0, refValid := false, counts := CapCounts.zero, frames := [], signalLost := false,
          stopBy := none })).endCmd c Fin.ok

/-- OP_CAP_START. -/
def execOpCapStart (c : CmdRef) (s : State) : Out := .next (s.gate c 0x0603 false (fun t k p h => t.capStart c k p h))

/-- OP_CAP_STOP (R491). -/
def State.capStop (s : State) (c : CmdRef) (k : Cmd) (p : Nat) : State :=
  if 32 ≤ k.p 0 4 then s.endCmd c (badCap 0)
  else
    let n := k.p 0 4
    let x := s.stream n
    if x.part ≠ some p then s.endCmd c (Fin.bare stCapState)
    else match x.state with
      | .faulted => (s.updStream n (fun y => { y with state := .configured })).endCmd c Fin.ok
      | .running => (s.startCmd c).updStream n (fun y => y.drain (some (c.block, c.id)))
      | .unassigned | .assigned | .configured | .draining => s.endCmd c (Fin.bare stCapState)

/-- OP_CAP_STOP. -/
def execOpCapStop (c : CmdRef) (s : State) : Out := .next (s.gate c 0x0604 false (fun t k p _ => t.capStop c k p))

/-! ### Records and frames that leave (R497 to R499, R508, R510) -/

/-- The bit of FLAGS that tells how a frame left (R498, R510). -/
def CapFrame.outcome (f : CapFrame) (stale : Bool) : Nat :=
  if f.aborted then 7 else if f.truncated then 3 else if f.badLine then 5 else if f.formatErr then 4
  else if f.overrun then 6 else if f.buf.isNone then 2 else if stale then 1 else 0

/-- Saturating increment of a 16-bit count. -/
def satHalf (v : Half) : Half := if v = 0xFFFF#16 then v else v + 1

/-- Count an outcome (R512). -/
def CapCounts.count (c : CapCounts) (o : Nat) : CapCounts :=
  if o = 7 then { c with aborted := satHalf c.aborted }
  else if o = 3 then { c with truncated := satHalf c.truncated }
  else if o = 5 then { c with crcErr := satHalf c.crcErr }
  else if o = 4 then { c with formatErr := satHalf c.formatErr }
  else if o = 6 then { c with overrun := satHalf c.overrun }
  else if o = 2 then { c with ringFull := satHalf c.ringFull }
  else if o = 1 then { c with stale := satHalf c.stale }
  else { c with delivered := satInc32 c.delivered }

/-- A statistics record (R510). -/
def capRecord (f : CapFrame) (o : Nat) (temporal : Bool) (exit_ : Nat) (stats : List Byte) : List Byte :=
  leBytes 4 f.num.toNat ++ leBytes 2 f.csiFn.toNat ++ leBytes 2 f.paramGen.toNat ++ leBytes 4 (2 ^ o + if temporal then 2 ^ 8 else 0) ++
    leBytes 4 f.lines.length ++ leBytes 8 f.sofTime ++ leBytes 8 exit_ ++ leBytes 4 (f.buf.getD 0xFF) ++ List.replicate 28 0#8 ++
    (if stats.isEmpty then List.replicate 8192 0#8 else stats)

/-- The oldest frame leaves: its outcome is counted and its record enters the ring (R498, R508). -/
def Stream.leave (x : Stream) (f : CapFrame) (o : Nat) (temporal : Bool) (exit_ : Nat) (stats : List Byte) : Stream :=
  let full := decide (x.cfg.statDepth ≤ x.ring.length)
  let cs := x.counts.count o
  { x with
    frames := x.frames.drop 1
    ring := (if full then x.ring.drop 1 else x.ring) ++ [capRecord f o temporal exit_ stats]
    counts := if full then { cs with statLost := satHalf cs.statLost } else cs
    lostSince := if full then x.lostSince + 1 else x.lostSince }

/-- Rows of a buffer's planes, each with its bytes. -/
def planePieces (c : CapCfg) (b : Nat) (planes : List (List Byte)) : List (Nat × List Byte) :=
  (planes.zipIdx).flatMap (fun e => (List.range c.height).map (fun y =>
    (c.buf b + 0x1000 + e.2 * c.rowPitch * c.height + y * c.rowPitch, (e.1.drop (2 * c.width * y)).take (2 * c.width))))

/-- A claimed buffer whose frame is dropped: its planes are undefined, STATE is FREE (R489; notes/assumptions/2.md). -/
def State.freeBuf (s : State) (x : Stream) (b : Nat) : State × Option Nat :=
  let c := x.cfg
  let (ws, s1) := s.takeFrees (c.nPlanes * ((c.height * c.width + 1) / 2))
  let per := 2 * c.height * c.width
  let bytes := ws.flatMap (fun w => leBytes 4 w.toNat)
  let planes := (List.range c.nPlanes).map (fun i => (bytes.drop (i * ((per + 3) / 4 * 4))).take per)
  s1.capWrites x.who (planePieces c b planes ++ [statePiece c b 0])

/-- The oldest frame is dropped with an outcome. -/
def State.dropHead (s : State) (n : Nat) (f : CapFrame) (o : Nat) (temporal : Bool) (exit_ : Nat) (stats : List Byte) : State :=
  let x := s.stream n
  let s1 := match f.buf with
    | none => s
    | some b => (s.freeBuf x b).1
  s1.updStream n (fun y => y.leave f o temporal exit_ stats)

/-- Frames that are aborted or truncated leave once they are the oldest; records keep the order of FRAME_NUM (R508). -/
def State.leaveDropped (s : State) (n : Nat) : Nat → State
  | 0 => s
  | k + 1 => match (s.stream n).frames with
    | [] => s
    | f :: _ =>
      if f.aborted ∨ f.truncated then (s.dropHead n f (f.outcome false) false 0 []).leaveDropped n k else s

/-- Every frame of a stream is aborted and leaves. -/
def State.abortFrames (s : State) (n : Nat) : State :=
  let x := s.stream n
  let s1 := s.setStream n { x with frames := x.frames.map (fun f => { f with aborted := true, ended := true }) }
  s1.leaveDropped n x.frames.length

/-- A stream is FAULTED: its frames are aborted. A stop that waits completes (R500). -/
def State.faultStream (s : State) (n : Nat) : State :=
  let x := s.stream n
  let s1 := (s.abortFrames n).updStream n (fun y => { y with state := .faulted, stopBy := none })
  match x.stopBy with
  | none => s1
  | some c =>
    (s1.updStream n (fun y => { y with state := .configured })).endCmd { block := c.1, id := c.2 } { Fin.ok with c0 := 1 }

/-- A pipeline write was refused: the stream is FAULTED and the address is logged (R500). -/
def State.capRefused (s : State) (n a : Nat) : State :=
  (s.faultStream n).record { EventRec.plain Config.pipelineRefusalCode with part := (s.stream n).part.getD 0xF, addr := a }

/-! ### Packets (R480, R489, R497, R498) -/

/-- A packet that concerns no running stream (R480). -/
def State.capDiscard (s : State) (port : Nat) (corrected : Bool) : State :=
  s.updCapPort port (fun x => { x with discards := x.discards + 1, corrections := x.corrections + if corrected then 1 else 0 })

/-- A header of a stream was corrected (R512). -/
def Stream.corrected (x : Stream) (c : Bool) : Stream :=
  if c then { x with counts := { x.counts with hdrCorrected := satHalf x.counts.hdrCorrected } } else x

/-- The frame that still receives lines. -/
def Stream.openFrame (x : Stream) : Option CapFrame := x.frames.find? (fun f => !f.ended)

/-- Change the frame that still receives lines. -/
def Stream.updOpen (x : Stream) (f : CapFrame → CapFrame) : Stream :=
  { x with frames := x.frames.map (fun g => if g.ended then g else f g) }

/-- The open frame is TRUNCATED (R497, R498). -/
def State.truncateOpen (s : State) (n : Nat) : State :=
  let x := s.stream n
  (s.setStream n (x.updOpen (fun f => { f with truncated := true, ended := true }))).leaveDropped n x.frames.length

/-- A frame begins: it claims the next buffer, or is ring-full (R485, R489, R504). -/
def State.beginCapFrame (s : State) (n fn : Nat) : State :=
  let x := s.stream n
  let ps := x.paramsNext.getD x.params
  let f : CapFrame := { num := x.frameNum, csiFn := BitVec.ofNat 16 fn, paramGen := x.gen, sofTime := s.tb.now, buf := none, params := ps,
                        lines := [], badLine := false, formatErr := false, truncated := false, overrun := false, aborted := false, ended := false, spoiled := false }
  let y : Stream := { x with
    params := ps, paramsNext := none, genInUse := x.gen, frameNum := x.frameNum + 1, signalLost := false
    counts := { x.counts with started := satInc32 x.counts.started } }
  let add (t : State) (b : Option Nat) : State := t.setStream n { y with
    frames := y.frames ++ [{ f with buf := b }]
    nextBuf := if b.isSome then (y.nextBuf + 1) % y.cfg.nbuf else y.nextBuf }
  match s.readEng x.who (x.cfg.buf x.nextBuf) 4 with
  | .wait => add s none
  | .bad st d s1 => if st = stDataLoss then add s1 none else (add s1 none).capRefused n d
  | .ok bs s1 =>
    if leNat bs ≠ 0 then add s1 none
    else match s1.capWrites x.who [statePiece x.cfg x.nextBuf 1] with
      | (s2, none) => add s2 (some x.nextBuf)
      | (s2, some a) => (add s2 none).capRefused n a

/-- CSI_FRAME_START (R480, R489, R491, R497, R498). -/
def execCsiFrameStart (port : Nat) (vc : Nat) (fn : Nat) (corrected : Bool) (dt : Nat) (s : State) : Out :=
  .next (
    let s0 := s.tick dt
    let n := 16 * port + vc
    if 2 ≤ port ∨ 16 ≤ vc ∨ !s0.capHalf port then s0
    else if !(s0.stream n).live then s0.capDiscard port corrected
    else
      let s1 := s0.updStream n (fun x => x.corrected corrected)
      let s2 := if (s1.stream n).openFrame.isSome then s1.truncateOpen n else s1
      (if (s2.stream n).state = .running then s2.beginCapFrame n fn else s2).settle)

/-- Bits of a pixel code of a data type. -/
def capBits (dt : Nat) : Nat := if dt = 0x2B then 10 else if dt = 0x2C then 12 else 14

/-- CSI_LONG_PACKET (R480, R492, R498): a line enters the open frame. `backlog` tells that the frame's waiting writes exceed
the 16 lines the pipeline holds. -/
def execCsiLongPacket (port : Nat) (vc : Nat) (dt : Nat) (codes : List Nat) (crcBad : Bool) (corrected : Bool) (backlog : Bool)
    (s : State) : Out :=
  .next (
    let n := 16 * port + vc
    let x := s.stream n
    if 2 ≤ port ∨ 16 ≤ vc ∨ !s.capHalf port then s
    else if !x.live then s.capDiscard port corrected
    else
      let y := x.corrected corrected
      if dt ≠ 0x2B ∧ dt ≠ 0x2C ∧ dt ≠ 0x2D then s.setStream n y
      else
        let line := codes.map (fun v => v % 2 ^ capBits dt)
        s.setStream n (y.updOpen (fun f => { f with
          lines := f.lines ++ [line]
          badLine := f.badLine || crcBad
          overrun := f.overrun || backlog
          formatErr := f.formatErr || dt != x.cfg.dt || line.length != x.cfg.width || decide (x.cfg.height ≤ f.lines.length) })))

/-- CSI_OTHER_PACKET (R479, R480). -/
def execCsiOtherPacket (port : Nat) (vc : Nat) (corrected : Bool) (s : State) : Out :=
  .next (
    let n := 16 * port + vc
    if 2 ≤ port ∨ 16 ≤ vc ∨ !s.capHalf port then s
    else if !(s.stream n).live then s.capDiscard port corrected
    else s.updStream n (fun x => x.corrected corrected))

/-- CSI_FRAME_END (R497, R498). -/
def execCsiFrameEnd (port : Nat) (vc : Nat) (corrected : Bool) (s : State) : Out :=
  .next (
    let n := 16 * port + vc
    if 2 ≤ port ∨ 16 ≤ vc ∨ !s.capHalf port then s
    else if !(s.stream n).live then s.capDiscard port corrected
    else s.updStream n (fun x => (x.corrected corrected).updOpen (fun f => { f with
      ended := true
      formatErr := f.formatErr || decide (f.lines.length < x.cfg.height) })))

/-- FRAME_TIMEOUT (R497). -/
def execFrameTimeout (stream : Nat) (s : State) : Out :=
  .next (
    let x := s.stream stream
    if x.state ≠ .running then s
    else if x.openFrame.isSome then (s.truncateOpen stream).settle
    else
      let s1 := s.setStream stream { x with signalLost := true }
      s1.record { EventRec.plain 0x0603 with part := x.part.getD 0xF })

/-! ### PIPELINE_EXIT (R489, R492, R496, R499, R508) -/

/-- Rows of words from a list. -/
def rowsOf (w : Nat) : Nat → List Word → List (Array Word)
  | 0, _ => []
  | n + 1, ws => (ws.take w).toArray :: rowsOf w n (ws.drop w)

/-- The header fields behind STATE (R488). -/
def capHeader (f : CapFrame) (c : CapCfg) (temporal : Bool) (exit_ : Nat) : List Byte :=
  leBytes 4 f.num.toNat ++ leBytes 2 f.csiFn.toNat ++ leBytes 2 f.paramGen.toNat ++ leBytes 4 (if temporal then 1 else 0) ++
    leBytes 8 f.sofTime ++ leBytes 8 exit_ ++ leBytes 2 c.width ++ leBytes 2 c.height ++ List.replicate 28 0#8

/-- What a frame delivers whose buffer something else has written while it was FILLING: free values (R490). -/
def State.spoiledFrame (s : State) (planes : List (List Byte)) : List (List Byte) × List Byte × State :=
  let r := planes.foldl (fun (a : List (List Byte) × State) p =>
    let q := a.2.freeBytes p.length
    (a.1 ++ [q.1], q.2)) ([], s)
  let h := r.2.freeBytes 60
  (r.1, h.1, h.2)

/-- The oldest frame, its input closed, leaves the pipeline. -/
def State.exitFrame (s : State) (n : Nat) (f : CapFrame) : State :=
  let x := s.stream n
  let c := x.cfg
  if f.badLine ∨ f.formatErr then s.dropHead n f (f.outcome false) false 0 []
  else
    let temporal := c.nrEn && x.refValid
    let ref : Option Pipe.Pic := if x.refValid then some ((rowsOf c.width c.height x.ref).toArray) else none
    let r := Pipe.run c f.params f.lines ref
    let (stats, used) := Pipe.statistics s.freeCtr c r
    let s0 := { s with freeCtr := s.freeCtr + used }
    let keep (t : State) : State := if c.nrEn then t.updStream n (fun y => { y with
        refValid := true, ref := r.s1.toList.flatMap Array.toList }) else t
    let now := s.tb.now
    let stale := decide (c.staleUs ≠ 0 ∧ c.staleUs * 1000 < now - f.sofTime)
    match f.buf with
    | none => (keep s0).dropHead n f (f.outcome stale) temporal now stats
    | some b =>
      if f.overrun then (keep s0).dropHead n f 6 temporal now stats
      else
        let made : List (List Byte) := r.planes.map (fun p => p.flatMap (fun v => leBytes 2 v.toNat))
        let (planes, head, t0) := if f.spoiled then s0.spoiledFrame made else (made, capHeader f c temporal now, s0)
        match t0.capWrites x.who (planePieces c b planes) with
        | (s1, some a) => s1.capRefused n a
        | (s1, none) =>
          if stale then (keep s1).dropHead n f 1 temporal now stats
          else match s1.capWrites x.who [(c.buf b + 4, head), statePiece c b 2] with
            | (s2, some a) => s2.capRefused n a
            | (s2, none) => (keep s2).updStream n (fun y => y.leave f 0 temporal now stats)

/-- PIPELINE_EXIT. -/
def execPipelineExit (stream : Nat) (dt : Nat) (s : State) : Out :=
  .next (
    let s0 := s.tick dt
    match (s0.stream stream).frames with
    | [] => s0
    | f :: _ =>
      if !(s0.stream stream).live ∨ !f.ended then s0
      else
        let s1 := s0.exitFrame stream f
        (s1.leaveDropped stream (s1.stream stream).frames.length).settle)

/-! ### OP_HARVEST (R511, R512) -/

/-- Code of a stream's state (R512). -/
def StreamState.code : StreamState → Nat
  | .unassigned => 0
  | .assigned => 1
  | .configured => 2
  | .running => 3
  | .draining => 4
  | .faulted => 5

/-- The stream status (R512). -/
def Stream.status (x : Stream) : List Byte :=
  let c := x.counts
  leBytes 64 ((if x.refValid then 2 ^ 275 else 0) + (if x.signalLost then 2 ^ 276 else 0) + x.state.code * 2 ^ 277 + x.nextBuf % 256 * 2 ^ 280 +
    x.genInUse.toNat * 2 ^ 288 + c.hdrCorrected.toNat * 2 ^ 304 + c.statLost.toNat * 2 ^ 320 + c.aborted.toNat * 2 ^ 336 +
    c.overrun.toNat * 2 ^ 352 + c.crcErr.toNat * 2 ^ 368 + c.formatErr.toNat * 2 ^ 384 + c.truncated.toNat * 2 ^ 400 +
    c.stale.toNat * 2 ^ 416 + c.ringFull.toNat * 2 ^ 432 + c.delivered.toNat * 2 ^ 448 + c.started.toNat * 2 ^ 480)

/-- Write pieces anywhere a command may write. -/
def State.writeList (s : State) (w : Who) : List (Nat × List Byte) → Eng Unit
  | [] => .ok () s
  | (a, bs) :: xs => match s.writeEng w a bs with
    | .wait => .wait
    | .bad st d s1 => .bad st d s1
    | .ok _ s1 => s1.writeList w xs

/-- The first failing offset of the block of OP_HARVEST. -/
def harvestBad (k : Cmd) : Option Nat :=
  if 32 ≤ k.p 0 1 then some 0
  else if 64 < k.p 1 1 then some 1
  else if k.p 2 6 ≠ 0 then some 2
  else if k.p 8 6 % 256 ≠ 0 then some 8
  else if k.p 0xE 2 ≠ 0 then some 0xE
  else none

/-- OP_HARVEST (R511): the commit granule is the whole command. -/
def State.harvest (s : State) (c : CmdRef) (k : Cmd) (p h : Nat) : State :=
  match harvestBad k with
  | some off => s.endCmd c (badCap off)
  | none =>
    let n := k.p 0 1
    let x := s.stream n
    if !(x.part == some p && x.ctx == some h) then s.endCmd c (Fin.bare stCapState)
    else
      let a := k.p 8 6
      let rs := x.ring.take (k.p 1 1)
      match s.writeList (k.who c.block) ((a, x.status) :: (rs.zipIdx).map (fun e => (a + 0x100 + e.2 * 8448, e.1))) with
      | .wait => s
      | .bad st d s1 => s1.endCmd c (Fin.with st d)
      | .ok _ s1 =>
        (s1.updStream n (fun y => { y with ring := y.ring.drop rs.length, lostSince := 0 })).endCmd c
          { Fin.ok with c0 := rs.length, c1 := x.lostSince }

/-- OP_HARVEST. -/
def execOpHarvest (c : CmdRef) (s : State) : Out := .next (s.gate c 0x0605 false (fun t k p h => t.harvest c k p h))

/-! ### TSYNC (R503, R506, R507) -/

/-- PERIOD in ns. -/
def TimeState.periodNs (t : TimeState) : Nat := (if t.periodMs = 0 then 1000 else t.periodMs.toNat) * 1000000

/-- LAST_ERR: 24 bits, saturating. -/
def satErr (e : Int) : BitVec 24 := BitVec.ofInt 24 (max (-8388608) (min 8388607 e))

/-- The rate adjustment -e/PERIOD in parts per 10^9, clamped to 200 ppm. -/
def rateFor (e : Int) (period : Nat) : Int := max (-200000) (min 200000 (-(e * 1000000000) / period))

/-- An edge that disciplines the time base. -/
def TimeState.edge (t : TimeState) : TimeState :=
  let p := t.periodNs
  let m := (2 * t.now + p) / (2 * p) * p
  let e : Int := (t.now : Int) - m
  let t1 := { t with locked := decide (e.natAbs ≤ 1000), lost := false, lastErr := satErr e }
  if e.natAbs ≤ 1000000 then { t1 with rate := rateFor e p }
  else if e < 0 then { t1 with now := m, stepped := true }
  else { t1 with rate := -200000 }

/-- TSYNC_EDGE (R503): without EN, edges have no effect. -/
def execTsyncEdge (dt : Nat) (s : State) : Out :=
  .next (
    let s1 := s.tick dt
    if s1.tb.ctrlEn then { s1 with tb := s1.tb.edge } else s1)

/-- TSYNC_LOST (R503): LOST is set and the rate is held. -/
def execTsyncLost (dt : Nat) (s : State) : Out :=
  .next (
    let s1 := s.tick dt
    if s1.tb.ctrlEn && !s1.tb.lost then ({ s1 with tb := { s1.tb with lost := true } }).event 0x0602 else s1)

end Sys2Proof.Machine
end

