-- ==== Sys2Proof/Machine/Span.lean ====
section
/-! DEFINITION. Morwin span ports (chapter 12): flits, replay and lanes (R378 to R382), routes and windows (R383 to R386),
operations and their filter (R387 to R395), collectives (R396 to R399), port status and disable (R400, R401). -/

namespace Sys2Proof.Machine

/-! ### Ports -/

/-- A span port. -/
def State.port (s : State) (n : Nat) : SpanPort := SMap.get SpanPort.reset s.span.ports n

/-- Replace a span port. -/
def State.setPort (s : State) (n : Nat) (x : SpanPort) : State :=
  { s with span := { s.span with ports := SMap.set SpanPort.reset s.span.ports n x } }

/-- Change a span port. -/
def State.updPort (s : State) (n : Nat) (f : SpanPort → SpanPort) : State := s.setPort n (f (s.port n))

/-- The partition that owns a port's die (R19). -/
def State.portPart (s : State) (n : Nat) : Option Nat := s.partOfDie (n / 2)

/-- A port that carries new operations (R381). -/
def SpanPort.usable (x : SpanPort) : Bool := x.state == .up || x.state == .narrow

/-- A port on which packets arrive: DRAINING ports still perform them (R401). -/
def SpanPort.listens (x : SpanPort) : Bool := x.usable || x.state == .draining

/-- A change of port state is logged (R382). -/
def State.portEvent (s : State) (n : Nat) : State := s.record { EventRec.plain 0x0502 with unit := portUnit n 0 }

/-- A count of the port record that saturates at 32 bits (R400). -/
def satAdd32 (w : Word) (n : Nat) : Word := BitVec.ofNat 32 (min (w.toNat + n) 0xFFFFFFFF)

/-! ### Flits (R378, R379) -/

/-- One step of a CRC register of 16 bits with polynomial 0x8BB7, most significant bit first (PRESUMED,
notes/assumptions/14.md). -/
def crc16Bit (c : BitVec 16) (b : Bool) : BitVec 16 :=
  let x := c.getLsbD 15 != b
  if x then (c <<< 1) ^^^ 0x8BB7#16 else c <<< 1

/-- CRC-16 of a list of bytes (R378). -/
def crc16 (bs : List Byte) : BitVec 16 :=
  bs.foldl (fun c b => ((List.range 8).foldl (fun d i => crc16Bit d (b.getLsbD (7 - i))) c)) 0xFFFF#16

/-- Parity of the two RS(112,104) codewords of a flit: the even and the odd bytes of its first 208 (R378). -/
def fecParity (f : List Byte) : List Byte :=
  let word (k : Nat) : List Byte := (List.range 104).map (fun i => f.getD (2 * i + k) 0)
  (List.range 8).map (Config.rsParity (word 0)) ++ (List.range 8).map (Config.rsParity (word 1))

/-- A flit (R378): header, 200 payload bytes, CRC, FEC parity. -/
def mkFlit (seq ack kind credit : Nat) (payload : List Byte) : List Byte :=
  let body := leBytes 6 (seq % 4096 + ack % 4096 * 2 ^ 12 + kind * 2 ^ 24 + credit % 256 * 2 ^ 26) ++
    (payload ++ List.replicate (200 - payload.length) 0#8).take 200
  let f := body ++ leBytes 2 (crc16 body).toNat
  f ++ fecParity f

/-- The highest sequence number received in order. -/
def SpanPort.acked (x : SpanPort) : Nat := (x.rxSeq - 1).toNat

/-- Credit that a flit returns, in units of 2 flits (R378): none while an arrived operation is held (R466). -/
def SpanPort.returns (x : SpanPort) : Nat := if x.inbox.isEmpty then min 255 (x.owed / 2) else 0

/-- Give a flit to the link: a DATA flit by its number, or a control flit, which names the next DATA flit. -/
def SpanPort.emit (x : SpanPort) (no : Option Nat) (kind : Nat) (payload : List Byte) : SpanPort × List Byte :=
  let next := match x.waiting with
    | [] => x.txNo
    | q :: _ => q.1
  let f := mkFlit (no.getD next) x.acked kind x.returns payload
  ({ x with owed := x.owed - 2 * x.returns, sent := x.sent ++ [(no, f)] }, f)

/-- Send a control flit, which the replay buffer does not hold. -/
def SpanPort.sendCtl (x : SpanPort) (kind : Nat) (payload : List Byte) : SpanPort := (x.emit none kind payload).1

/-- Send the DATA flit that waits first, if the peer has room for it and the replay buffer of 512 flits too (R378, R379). -/
def SpanPort.sendOne (x : SpanPort) : SpanPort :=
  match x.waiting with
  | [] => x
  | q :: qs =>
    if !x.listens ∨ x.credit = 0 ∨ 512 ≤ x.replay.length then x
    else
      let e := ({ x with waiting := qs, credit := x.credit - 1 } : SpanPort).emit (some q.1) 0 q.2
      { e.1 with replay := e.1.replay ++ [(q.1, e.2)] }

/-- Send what waits, as far as it goes. -/
def SpanPort.pump (x : SpanPort) : SpanPort := x.waiting.foldl (fun y _ => y.sendOne) x

/-- A payload takes the next number and waits to be sent. -/
def SpanPort.enqueue (x : SpanPort) (payload : List Byte) : SpanPort :=
  { x with txNo := x.txNo + 1, waiting := x.waiting ++ [(x.txNo, payload)] }

/-- Cut a packet into payloads of 200 bytes, each packet from the start of a flit (DESIGN CHOICE,
notes/assumptions/14.md). -/
def payloads (bs : List Byte) : Nat → List (List Byte)
  | 0 => []
  | n + 1 => if bs.isEmpty then [] else bs.take 200 :: payloads (bs.drop 200) n

/-- Put a packet on a port. -/
def State.pushPacket (s : State) (n : Nat) (pkt : List Byte) : State :=
  s.updPort n (fun x => ((payloads pkt 3).foldl SpanPort.enqueue x).pump)

/-- Put a packet on a port, and name the flits that carry its payload. -/
def State.pushTracked (s : State) (n : Nat) (pkt : List Byte) : State × List OpFlit :=
  let no := (s.port n).txNo
  (s.pushPacket n pkt, ((payloads pkt 3).zipIdx).map (fun q =>
    let start := if q.2 = 0 then 32 else 0
    { port := n, no := no + q.2, start := start, bytes := q.1.length - start }))

/-- Flits acknowledged up to a sequence number leave the replay buffer. -/
def SpanPort.ackUpTo (x : SpanPort) (ack : Nat) : SpanPort :=
  match x.replay.findIdx? (fun e => e.1 % 4096 == ack) with
  | none => x
  | some i => { x with replay := x.replay.drop (i + 1) }

/-- Resend the whole replay buffer, in order. -/
def SpanPort.resend (x : SpanPort) : SpanPort := { x with sent := x.sent ++ x.replay.map (fun e => (some e.1, e.2)) }

/-- A NAK (R379): flits before the named one are acknowledged, and it and every later one are sent again in order. -/
def SpanPort.nak (x : SpanPort) (seq : Nat) : SpanPort :=
  match x.replay.findIdx? (fun e => e.1 % 4096 == seq) with
  | none => x
  | some i => ({ x with replay := x.replay.drop i } : SpanPort).resend.pump

/-- Cut the packets from received payload bytes; the rest is the start of a packet that goes on in the next DATA flit. Zeros
where a packet would start fill the flit (DESIGN CHOICE, notes/assumptions/14.md). -/
def cutPackets : Nat → List Byte → List (List Byte) × List Byte
  | 0, bs => ([], bs)
  | n + 1, bs =>
    let m := 32 + field bs 6 2
    if bs.all (fun b => b == 0) ∨ (32 ≤ bs.length ∧ 288 < m) then ([], [])
    else if bs.length < 32 ∨ bs.length < m then ([], bs)
    else
      let r := cutPackets n (bs.drop m)
      (bs.take m :: r.1, r.2)

/-- What ACK and CREDIT of an accepted flit say. -/
def SpanPort.take (x : SpanPort) (h : Nat) : SpanPort :=
  ({ x with credit := x.credit + 2 * bitsOf h 33 26 } : SpanPort).ackUpTo (bitsOf h 23 12)

/-- The expected DATA flit has come: its packets wait to be performed. -/
def SpanPort.receive (x : SpanPort) (payload : List Byte) : SpanPort :=
  let r := cutPackets 32 (x.rest ++ payload)
  { x with rxSeq := x.rxSeq + 1, discarding := false, owed := x.owed + 1, rest := r.2, inbox := x.inbox ++ r.1 }

/-- A port that has no link any more: nothing waits or is replayed, and sequence numbers start at 0. -/
def SpanPort.unlink (x : SpanPort) : SpanPort :=
  { x with
    txNo := (x.txNo + 4095) / 4096 * 4096
    rxSeq := 0
    discarding := false
    replay := []
    waiting := []
    credit := 0
    owed := 0
    rest := []
    request := none }

/-! ### Packets (R395) -/

/-- A span packet. -/
def mkPacket (op status hops window dstE dstP srcE srcP offset req arg : Nat) (payload : List Byte) : List Byte :=
  leBytes 1 (op % 16 + status % 16 * 16) ++ leBytes 1 (hops % 4 + window % 64 * 4) ++ leBytes 2 (dstE % 4096 + dstP % 8 * 4096) ++
    leBytes 2 (srcE % 4096 + srcP % 8 * 4096) ++ leBytes 2 payload.length ++ leBytes 8 (offset % 2 ^ 48) ++ leBytes 8 req ++
    leBytes 8 arg ++ payload

/-- Fields of a packet. -/
structure Pkt where
  op : Nat
  status : Nat
  hops : Nat
  window : Nat
  dstE : Nat
  dstP : Nat
  srcE : Nat
  srcP : Nat
  len : Nat
  offset : Nat
  req : Nat
  arg : Nat
  data : List Byte
  deriving DecidableEq, Repr

/-- Read a packet. -/
def Pkt.of (bs : List Byte) : Pkt :=
  let f := field bs
  { op := f 0 1 % 16, status := f 0 1 / 16, hops := f 1 1 % 4, window := f 1 1 / 4, dstE := f 2 2 % 4096, dstP := bitsOf (f 2 2) 14 12,
    srcE := f 4 2 % 4096, srcP := bitsOf (f 4 2) 14 12, len := f 6 2, offset := f 8 6, req := f 0x10 8, arg := f 0x18 8,
    data := bs.drop 32 }

/-- GROUP, part index and segment of a collective's packet. -/
def Pkt.group (k : Pkt) : Nat := k.arg % 16
def Pkt.idx (k : Pkt) : Nat := bitsOf k.arg 14 4
def Pkt.seg (k : Pkt) : Nat := bitsOf k.arg 30 15

/-- ARG of a collective's packet. -/
def collArg (group idx seg : Nat) : Nat := group % 16 + idx % 2048 * 2 ^ 4 + seg % 2 ^ 16 * 2 ^ 15

/-- Source logical core, dispatch number and request number of an identity (R391). -/
def reqCore (r : Nat) : Nat := r % 2048
def reqDispatch (r : Nat) : Nat := bitsOf r 26 11
def reqNo (r : Nat) : Nat := bitsOf r 42 27

/-- A request identity. -/
def reqId (lpos dispatch req : Nat) : Nat := lpos % 2048 + dispatch % 2 ^ 16 * 2 ^ 11 + req % 2 ^ 16 * 2 ^ 27

/-- The part index that marks a packet as no collective's: a group's digest, or a survivor of a roll (DESIGN CHOICE,
notes/assumptions/14.md). -/
def noIdx : Nat := 0x7FF

/-! ### Routes (R383) -/

/-- The route entry of a partition for an engine. -/
def State.route (s : State) (p e : Nat) : Option Route :=
  (s.part p).bind (fun x => (x.span.routes.filterMap (fun q => q.2)).find? (fun r => r.dest == e))

/-- The usable ports of a mask that a partition owns, ascending. -/
def State.routePorts (s : State) (p mask : Nat) : List Nat :=
  (bitsSet mask 32).filter (fun n => s.portPart n == some p && (s.port n).usable)

/-- The port an operation of a source core takes to an engine (R383). -/
def State.pickPort (s : State) (p e lpos : Nat) : Option Nat :=
  match s.route p e with
  | none => none
  | some r =>
    let ps := s.routePorts p r.mask
    if ps.isEmpty then none else ps[lpos % ps.length]?

/-! ### Operations issued here -/

/-- Offsets and lengths of the packets of an operation from a point onward, u bytes each; an operation without bytes has one
packet. -/
def pieces (u got len : Nat) : List (Nat × Nat) :=
  if len = 0 then [(0, 0)] else (List.range ((len - got + (u - 1)) / u)).map (fun i => (got + u * i, min u (len - got - u * i)))

/-- What is left of an operation as packets: WRITE and segments carry their data, ATOMIC_ADD its addend, and each packet of a
READ asks for 64 bytes. NOTIFY stands in the last packet of a WRITE (notes/assumptions/14.md). -/
def SpanOp.packets (o : SpanOp) (self : Nat) : List (List Byte) :=
  let id := reqId o.lpos o.dispatch o.req
  let pk (off arg : Nat) (pay : List Byte) : List Byte := mkPacket o.op 0 0 o.window o.engine o.dstPart self o.part off id arg pay
  if o.op = 2 then (pieces 64 o.got o.length).map (fun q => pk (o.offset + q.1) 0 [])
  else if o.op = 3 then [pk o.offset o.arg o.data]
  else (pieces 256 o.got o.length).map (fun q =>
    pk (o.offset + q.1) (if o.op = 9 ∨ o.cmd.isSome ∨ q.1 + q.2 = o.length then o.arg else 0) ((o.data.drop q.1).take q.2))

/-- Send an operation on its port and keep it until it is complete. -/
def State.launch (s : State) (o : SpanOp) : State :=
  let r := (o.packets s.span.engineId).foldl (fun (a : State × List OpFlit) pkt =>
    let q := a.1.pushTracked o.port pkt
    (q.1, a.2 ++ q.2)) (s, o.flits)
  { r.1 with span := { r.1.span with ops := r.1.span.ops ++ [{ o with flits := r.2 }] } }

/-- The core an operation belongs to still runs the dispatch that issued it. -/
def State.opAlive (s : State) (o : SpanOp) : Bool :=
  let c := s.core o.core
  c.run.dispatch == o.dispatch && c.run.spanWaits.any (fun w => w.opId == o.req)

/-- Remove an operation. -/
def State.dropOp (s : State) (o : SpanOp) : State := { s with span := { s.span with ops := s.span.ops.filter (fun q => q != o) } }

/-- The command that an operation belongs to. -/
def State.opCmd (s : State) (o : SpanOp) : Option CmdRef :=
  match o.cmd with
  | some c => some { block := c.1, id := c.2 }
  | none => if s.opAlive o then (s.dispatchOf o.core).map (fun d => d.2.2.ref) else none

/-- A failed operation ends its command (R394): a lost peer and a disabled port at the last commit boundary, with the granules
completed in DETAIL (R452). -/
def State.opFailed (s : State) (o : SpanOp) (status detail : Nat) : State :=
  let s1 := s.dropOp o
  match s.opCmd o with
  | none => s1
  | some c =>
    if status = stPeerLost ∨ status = stAbortedByDisable then (s1.endAtBoundary c status 0).settle
    else (s1.failCmd c status detail).settle

/-- Status and DETAIL of a failed operation (R394, R452). -/
def failStatus (o : SpanOp) (status : Nat) : Nat × Nat :=
  if status = 1 ∨ status = 2 then (stAddrFault, o.offset % 2 ^ 48 + 2 ^ 48 + o.window * 2 ^ 49)
  else if status = 3 then (stDataLoss, o.offset % 2 ^ 48)
  else (stPeerLost, 0)

/-- Other payload bytes for a flit. -/
def SpanPort.blur (x : SpanPort) (q : OpFlit) (bs : List Byte) : SpanPort :=
  let pay (p : List Byte) : List Byte := p.take q.start ++ bs ++ p.drop (q.start + q.bytes)
  let again (f : List Byte) : List Byte :=
    let h := field f 0 6
    mkFlit (h % 4096) (bitsOf h 23 12) (bitsOf h 25 24) (bitsOf h 33 26) (pay ((f.drop 6).take 200))
  { x with
    waiting := x.waiting.map (fun e => if e.1 = q.no then (e.1, pay e.2) else e)
    replay := x.replay.map (fun e => if e.1 = q.no then (e.1, again e.2) else e)
    sent := x.sent.map (fun e => if e.1 = some q.no then (e.1, again e.2) else e) }

/-- The bytes an operation has sent are open: free values stand for them (R392). -/
def State.blur (s : State) (o : SpanOp) : State :=
  o.flits.foldl (fun t q =>
    let r := t.freeBytes q.bytes
    r.2.updPort q.port (fun x => x.blur q r.1)) s

/-- Bytes a span operation delivers to its own core; they race with other operations and not with itself. -/
def spanPut (c : Core) (id off : Nat) (bs : List Byte) : Core :=
  let d := if bs.isEmpty then c else Cu.wideWrite c false off bs
  { d with run := { d.run with spanWaits := d.run.spanWaits.map (fun w =>
      if w.opId = id then (c.run.spanWaits.find? (fun v => v.opId == id)).getD w else w) } }

/-- What an operation receives is open until its completion, and after it where a write has met it (R392). -/
def State.openSpan (s : State) (k id : Nat) (dst : Nat × Nat) : State :=
  let r := s.freeBytes dst.2
  r.2.updCore k (fun c => spanPut c id dst.1 r.1)

/-- The wait of a core for a span request. -/
def Core.spanWait (c : Core) (id : Nat) : Option SpanWait := c.run.spanWaits.find? (fun w => w.opId == id)

/-- The dispatch no longer waits for a request, and its counter counts (R389). -/
def spanDone (c : Core) (id lsem : Nat) : Core :=
  let d := Cu.incSem c lsem
  { d with run := { d.run with spanWaits := d.run.spanWaits.filter (fun w => w.opId != id) } }

/-- An operation is locally complete (R389). -/
def State.opDone (s : State) (o : SpanOp) : State :=
  let s1 := s.dropOp o
  match s.opAlive o, (s.core o.core).spanWait o.req with
  | true, some w =>
    let s2 := if w.racedSrc then s1.blur o else s1
    let s3 := if w.racedDst then s2.openSpan o.core o.req w.dst else s2
    s3.updCore o.core (fun c => spanDone c o.req o.lsem)
  | _, _ => s1

/-- Unacknowledged operations of a port are sent again on the next port of their route (R382, R401). One without another port
fails with the status given; in a retrain it stays in the replay buffer (R380). -/
def State.reroute (s : State) (n : Nat) (status : Option Nat) : State :=
  (s.span.ops.filter (fun o => o.port == n && !o.acked)).foldl (fun t o =>
    match t.pickPort o.part o.engine o.lpos, status with
    | some m, _ => (t.dropOp o).launch { o with port := m }
    | none, some st => t.opFailed o st 0
    | none, none => t) s

/-- A DRAINING port with no operation left is DISABLED (R401). -/
def State.portDrained (s : State) (n : Nat) : State :=
  if (s.port n).state = .draining ∧ !(s.span.ops.any (fun o => o.port == n && !o.acked)) then
    (s.updPort n (fun x => { x.unlink with state := .disabled, lanes := 0 })).portEvent n
  else s

/-- The drain limit of a port expires (R401). -/
def State.portDrainLimit (s : State) (n : Nat) : State :=
  if (s.port n).state ≠ .draining then s
  else (s.reroute n (some stAbortedByDisable)).portDrained n

/-- A port starts to train (R381); from UP or NARROW its operations go to other ports where their route has one (R382). -/
def State.train (s : State) (n : Nat) : State :=
  let was := (s.port n).usable
  let s1 := (s.updPort n (fun x => { x with
    state := .training
    lanes := 0
    request := none
    retrains := if s.start.phase = .ready then satInc16 x.retrains else x.retrains })).portEvent n
  if was then s1.reroute n none else s1

/-! ### Lanes and training (R377, R380 to R382); DESIGN CHOICE for how the ends agree, notes/assumptions/14.md -/

/-- A lane of a side is failing. -/
def LaneSide.fail (l : LaneSide) (lane : Nat) : LaneSide := { l with failing := if l.failing.contains lane then l.failing else lane :: l.failing }

/-- The spare of a side carries a lane's data. -/
def LaneSide.retire (l : LaneSide) (lane : Nat) : LaneSide := { l.fail lane with retired := some lane }

/-- 8 data lanes can work, the spare among them; it then stands in for a failing one. -/
def LaneSide.full (l : LaneSide) : Bool := decide (l.failing.length ≤ 1)

/-- After training at full width the spare stands in for the failing data lane. -/
def LaneSide.trained (l : LaneSide) : LaneSide := { l with retired := l.retired.orElse (fun _ => l.failing.find? (fun n => decide (n < 8))) }

/-- RETIRED_LANE of the two sides: the receiver's before the sender's, 0xF for none (R400; DESIGN CHOICE,
notes/assumptions/14.md). -/
def SpanPort.retiredOf (x : SpanPort) : Nat := (x.rx.retired.orElse (fun _ => x.tx.retired)).getD 0xF

/-- LANE_FAILING (R380): the receiver asks for the spare by a LINK flit; with the spare in use the port retrains at 4
lanes. Lane 8 is the spare. -/
def execLaneFailing (port : Nat) (lane : Nat) (s : State) : Out :=
  .next (
    let x := s.port port
    if port ≥ 32 ∨ 9 ≤ lane ∨ !x.usable ∨ x.rx.failing.contains lane then s
    else
      let y := { x with rx := x.rx.fail lane }
      let taken := x.rx.retired.isSome || x.request.isSome
      if lane = 8 then (if taken then (s.setPort port y).train port else s.setPort port y)
      else if taken ∨ x.rx.failing.contains 8 then (s.setPort port y).train port
      else s.setPort port (({ y with request := some lane } : SpanPort).sendCtl 3 (leBytes 1 lane)))

/-- A LINK flit names a lane: the answer to this end's request, or the peer's request for a lane that this end sends (R380). -/
def State.spareRequest (s : State) (n lane : Nat) : State :=
  let x := s.port n
  if 8 ≤ lane ∨ !x.usable then s
  else if x.request = some lane then
    s.setPort n { x with rx := x.rx.retire lane, retiredLane := lane, request := none }
  else if x.tx.retired = some lane then s
  else if x.tx.retired.isSome ∨ x.tx.failing.contains 8 then (s.updPort n (fun y => { y with tx := y.tx.fail lane })).train n
  else
    let y := ({ x with tx := x.tx.retire lane } : SpanPort).sendCtl 3 (leBytes 1 lane)
    s.setPort n { y with retiredLane := y.retiredOf }

/-- LANE_SPARE_REQUEST (R380): both ends carry the lane's data on the spare and retire it. -/
def execLaneSpareRequest (port : Nat) (lane : Nat) (s : State) : Out :=
  .next (if port ≥ 32 then s else s.spareRequest port lane)

/-- PORT_TRAINING_DONE (R380, R381, R678): UP with 8 lanes, NARROW with 4, DOWN otherwise, where the operations of the port go
elsewhere or fail (R382); flits of the replay buffer are sent again. `room` is what the peer's receive buffer takes, in flits. -/
def execPortTrainingDone (port : Nat) (lanes : Nat) (peerEngine : Nat) (peerPort : Nat) (room : Nat) (s : State) : Out :=
  .next (
    let x := s.port port
    if port ≥ 32 ∨ x.state ≠ .training then s
    else
      let n := min lanes (if x.tx.full && x.rx.full then 8 else 4)
      if n < 4 then
        let s1 := (s.setPort port { x with state := PortState.down, lanes := 0 }).portEvent port
        (s1.reroute port (some stPeerLost)).updPort port SpanPort.unlink
      else
        let y := { x with
          state := if 8 ≤ n then PortState.up else PortState.narrow
          lanes := if 8 ≤ n then 8 else 4
          peerEngine := peerEngine % 4096
          peerPort := peerPort % 32
          credit := room - x.replay.length
          owed := 0
          tx := if 8 ≤ n then x.tx.trained else x.tx
          rx := if 8 ≤ n then x.rx.trained else x.rx }
        (s.setPort port ({ y with retiredLane := y.retiredOf } : SpanPort).resend.pump).portEvent port)

/-- PORT_RETRY_TIMER (R381): a port in DOWN trains again. -/
def execPortRetryTimer (port : Nat) (s : State) : Out :=
  .next (if port < 32 ∧ (s.port port).state = .down then s.train port else s)

/-! ### Windows and arriving operations (R385, R388, R391, R466) -/

/-- Answer a packet on the port it came from. -/
def State.reply (s : State) (n : Nat) (k : Pkt) (op status arg : Nat) (payload : List Byte) : State :=
  s.pushPacket n (mkPacket op status 0 k.window k.srcE k.srcP s.span.engineId k.dstP k.offset k.req arg payload)

/-- An operation is refused: counted and logged (R385, R403). -/
def State.countDenied (s : State) (n : Nat) (code detail : Nat) : State :=
  (s.updPort n (fun x => { x with deniedIn := satInc16 x.deniedIn })).record
    { EventRec.plain code with part := (s.portPart n).getD 0xF, unit := portUnit n 0, detail := detail }

/-- Refuse an arriving operation: counted, logged, answered (R385, R394). -/
def State.refuse (s : State) (n : Nat) (k : Pkt) (status : Nat) : State := (s.countDenied n 0x0503 0).reply n k 0xA status k.arg []

/-- Acknowledge a duplicate and discard it (R391). -/
def State.duplicate (s : State) (n : Nat) (k : Pkt) (arg : Nat) : State :=
  (s.updPort n (fun x => { x with dupDropped := satInc16 x.dupDropped })).reply n k 8 0 arg []

/-- A window admits an operation (R385). -/
def Window.admits (w : Window) (k : Pkt) : Bool :=
  decide (k.srcE &&& w.srcMask = w.srcEngine &&& w.srcMask) && bitOf w.srcParts k.srcP &&
  bitOf w.perm (if k.op = 1 then 0 else if k.op = 2 then 1 else 2)

/-- Bytes an arriving operation touches. -/
def Pkt.span (k : Pkt) : Nat := if k.op = 2 then 64 else if k.op = 3 ∧ k.len ≠ 4 then 8 else k.len

/-- Whether the partition's cores hold SPAD-window operations (R466). -/
inductive SpadGate where
  | take
  | hold
  | deny
  deriving DecidableEq, Repr

/-- R466 for a partition. -/
def Partition.spadGate (x : Partition) : SpadGate :=
  let switching : Bool := match x.switch with
    | none => false
    | some w => w.phase != SwitchPhase.decided
  if switching then .hold
  else if x.current.isNone then .deny
  else if x.awaitFirst then .hold
  else .take

/-- Key of a source core in the duplicate filter, for operations to a partition; and for collectives of a group. -/
def srcKey (k : Pkt) : Nat := ((k.srcE * 8 + k.srcP) * 2048 + reqCore k.req) * 8 + k.dstP
def collKey (k : Pkt) : Nat := 2 ^ 29 + srcKey k * 16 + k.group

/-- Whether an identity is newer than the latest applied (R391); packets of one operation follow one another by offset. -/
def State.newerAt (s : State) (key : Nat) (k : Pkt) : Bool :=
  match s.span.seen.find? (fun e => e.1 == key) with
  | none => true
  | some (_, d, r, off) =>
    let dd := (reqDispatch k.req + 2 ^ 16 - d) % 2 ^ 16
    if dd = 0 then decide (r < reqNo k.req) || (r == reqNo k.req && decide (off ≤ k.offset) && decide (k.op ≤ 2))
    else decide (dd < 2 ^ 15)

/-- Remember an identity as applied, unless a newer one is. -/
def State.appliedAt (s : State) (key : Nat) (k : Pkt) : State :=
  if s.newerAt key k then
    { s with span := { s.span with seen := SMap.put s.span.seen key (reqDispatch k.req, reqNo k.req, k.offset + max 1 k.span) } }
  else s

/-- The address and identity under which a window is accessed: region windows as their region's owner. -/
def State.windowAt (s : State) (p : Nat) (x : Partition) (w : Window) (off : Nat) : Option (Who × Nat × Option Nat) :=
  if w.spad then
    let key := s.keyAt x (w.target / 128, w.target / 16 % 8, w.target % 16)
    some ({ part := some p, ctx := none }, windowBase + key * 2 ^ 23 + w.base + off, some key)
  else match SMap.get none x.regions w.target with
    | none => none
    | some r => if r.ready ∧ w.base + w.size ≤ r.size then some ({ part := some p, ctx := r.owner }, r.base + w.base + off, none) else none

/-- STATUS of an access that an operation could not make. -/
def errStatus (st : Nat) : Nat := if st = stDataLoss then 3 else 2

/-- RSEM counts in the target core of a SPAD window (R389): ARG of the last packet names it. -/
def State.notify (s : State) (k : Pkt) (key : Option Nat) : State :=
  match key with
  | some q => if bitOf k.arg 36 then s.updCore q (fun c => Cu.incSem c (bitsOf k.arg 35 32)) else s
  | none => s

/-- Perform an admitted operation; none while its target holds it. A READ has no effect to filter (R391). -/
def State.performOp (s : State) (n : Nat) (k : Pkt) (who : Who) (a : Nat) (key : Option Nat) : Option State :=
  let done (r : Eng Unit) (op : Nat) (pay : List Byte) : Option State := match r with
    | .wait => none
    | .bad st _ t => some (t.reply n k 0xA (errStatus st) 0 [])
    | .ok _ t => some (((t.appliedAt (srcKey k) k).notify k (if op = 8 then key else none)).reply n k op 0 0 pay)
  if k.op = 2 then
    match s.readEng who a k.span with
    | .wait => none
    | .bad st _ s1 => some (s1.reply n k 0xA (errStatus st) 0 [])
    | .ok bs s1 => done (.ok () s1) 9 bs
  else if !s.newerAt (srcKey k) k then some (s.duplicate n k 0)
  else if k.op = 1 then done (s.writeEng who a k.data) 8 []
  else done ((s.readEng who a k.span).bind (fun bs t => t.writeEng who a (leBytes k.span (leNat bs + leNat k.data)))) 8 []

/-- An operation for a window of this engine. -/
def State.arriveOp (s : State) (n : Nat) (k : Pkt) : Option State :=
  if s.portPart n ≠ some k.dstP then some (s.refuse n k 1)
  else match s.part k.dstP with
    | none => some (s.refuse n k 1)
    | some x => match SMap.get none x.span.windows k.window with
      | none => some (s.refuse n k 1)
      | some w =>
        if !w.admits k then some (s.refuse n k 1)
        else if w.size < k.offset + k.span then some (s.refuse n k 2)
        else if w.spad ∧ x.spadGate = .deny then some (s.refuse n k 1)
        else if w.spad ∧ x.spadGate = .hold then none
        else match s.windowAt k.dstP x w k.offset with
          | none => some (s.refuse n k 1)
          | some (who, a, key) => s.performOp n k who a key

/-- Forward a packet for another engine (R384). -/
def State.forward (s : State) (n : Nat) (k : Pkt) (pkt : List Byte) : State :=
  let lost := s.reply n k 0xA 4 k.arg []
  match s.portPart n with
  | none => lost
  | some p => match s.route p k.dstE with
    | none => lost
    | some r =>
      let ps := s.routePorts p r.mask
      match r.forward && k.hops != 3, ps[reqCore k.req % ps.length]? with
      | true, some m =>
        let hop := leBytes 1 (k.hops + 1 + k.window * 4)
        (s.updPort n (fun x => { x with forwarded := x.forwarded + 1 })).pushPacket m (pkt.take 1 ++ hop ++ pkt.drop 2)
      | _, _ => lost

/-! ### Collectives (R396 to R399) -/

/-- A group of a partition. -/
def Partition.group (x : Partition) (g : Nat) : Option Group := SMap.get none x.span.groups g

/-- Rank of this engine in a group. -/
def Group.rank (g : Group) (engine : Nat) : Nat := (g.members.findIdx? (fun m => m.1 == engine)).getD 0

/-- Number of parts. -/
def Group.parts (g : Group) : Nat := g.members.length * g.ppe

/-- Key of a member's digest. -/
def digestKey (group engine part : Nat) : Nat := group * 2 ^ 15 + engine * 8 + part

/-- Whether a member has sent another digest (R396). -/
def Partition.mismatched (x : Partition) (gi : Nat) (g : Group) : Bool :=
  g.members.any (fun m => match SMap.get none x.span.digests (digestKey gi m.1 m.2) with
    | none => false
    | some d => d != g.digest)

/-- What members have sent is compared with a group's own digest. -/
def Partition.compareDigests (x : Partition) (gi : Nat) : Partition :=
  match x.group gi with
  | none => x
  | some g => { x with span := { x.span with groups := SMap.set none x.span.groups gi (some { g with mismatch := x.mismatched gi g }) } }

/-- The digest of a member arrives (R396). -/
def State.storeDigest (s : State) (k : Pkt) : State :=
  s.updPart k.dstP (fun x =>
    let ds := SMap.set none x.span.digests (digestKey k.group k.srcE k.srcP) (some (BitVec.ofNat 64 (field k.data 0 8)))
    ({ x with span := { x.span with digests := ds } } : Partition).compareDigests k.group)

/-- Whether an operation reduces. -/
def CollRun.reduces (r : CollRun) : Bool := r.op == 4 || r.op == 5

/-- Bytes of an element of a TYPE. -/
def elemBytes (ty : Nat) : Nat := if ty = 3 then 8 else if ty = 1 then 2 else 4

/-- Where segment i of P starts: whole elements, as equal as they divide (DESIGN CHOICE where P does not divide the elements,
notes/assumptions/14.md). -/
def CollRun.bound (r : CollRun) (parts i : Nat) : Nat := i * (r.length / elemBytes r.ty) / max parts 1 * elemBytes r.ty

/-- Bytes of a segment of a part. -/
def CollRun.segLen (r : CollRun) (parts i : Nat) : Nat := if r.reduces then r.bound parts (i + 1) - r.bound parts i else r.length

/-- A segment of a part's bytes. -/
def CollRun.slice (r : CollRun) (parts i : Nat) (src : List Byte) : List Byte :=
  (src.drop (if r.reduces then r.bound parts i else 0)).take (r.segLen parts i)

/-- Bytes held for a part and segment. -/
def CollRun.at (r : CollRun) (idx seg : Nat) : Option (List Byte) := SMap.get none r.data (idx * 65536 + seg)

/-- Bytes of a part and segment, once all have come. -/
def CollRun.whole (r : CollRun) (parts idx seg : Nat) : Option (List Byte) :=
  (r.at idx seg).filter (fun bs => decide (r.segLen parts seg ≤ bs.length))

/-- Hold bytes for a part and segment. -/
def CollRun.put (r : CollRun) (idx seg : Nat) (bs : List Byte) : CollRun :=
  { r with data := SMap.put r.data (idx * 65536 + seg) (some bs) }

/-- Segments of a reduction, or the one segment of a gather or barrier. -/
def CollRun.segs (r : CollRun) (parts : Nat) : List Nat := if r.reduces then List.range parts else [0]

/-- Send bytes of a part and segment to a rank's engine: an acknowledged operation of its own with the identity of the part's
request. The Bool tells whether there is a route. -/
def State.sendSeg (s : State) (o : SpanOp) (g : Group) (gi rank idx seg : Nat) (bs : List Byte) : State × Bool :=
  match g.members[rank]? with
  | none => (s, true)
  | some m => match s.pickPort o.part m.1 o.lpos with
    | none => (s, false)
    | some n => (s.launch { o with
        op := 9, engine := m.1, dstPart := m.2, window := 0, offset := 0, arg := collArg gi idx seg, length := bs.length, data := bs,
        port := n, got := 0, acked := false, flits := [] }, true)

/-- A local part has issued a collective: its bytes are held, and what other engines need is sent (R397, R398). Bytes that are
already held are not replaced: a replayed part is a duplicate. -/
def State.contribute (s : State) (o : SpanOp) (g : Group) (gi : Nat) (r : CollRun) (j : Nat) (src : List Byte) :
    State × CollRun × Bool :=
  let parts := g.parts
  let rank := g.rank s.span.engineId
  (r.segs parts).foldl (fun acc sg =>
    let bs := r.slice parts sg src
    let r1 := if (acc.2.1.at j sg).isSome then acc.2.1 else acc.2.1.put j sg bs
    let ranks := if r.reduces then [sg / max g.ppe 1] else List.range g.members.length
    let (t, ok) := (ranks.filter (fun k => k != rank)).foldl (fun a k =>
      let (u, good) := a.1.sendSeg o g gi k j sg bs
      (u, a.2 && good)) (acc.1, acc.2.2)
    (t, r1, ok)) (s, r, true)

/-- Elements of a segment as words of FP32: BF16 is widened (R398). -/
def collWords (ty : Nat) (bs : List Byte) : List Word :=
  if ty = 1 then (List.range (bs.length / 2)).map (fun i => Float.widen (BitVec.ofNat 16 (field bs (2 * i) 2)))
  else (List.range (bs.length / 4)).map (fun i => BitVec.ofNat 32 (field bs (4 * i) 4))

/-- Bytes of a folded segment. -/
def collBytes (ty : Nat) (ws : List Word) : List Byte :=
  if ty = 1 then ws.flatMap (fun w => leBytes 2 (Float.toBf w).toNat) else ws.flatMap (fun w => leBytes 4 w.toNat)

/-- Left fold of the parts of a segment in ascending part index (R398). -/
def collFold (ty redop : Nat) (ps : List (List Byte)) : List Byte :=
  match ps with
  | [] => []
  | p :: rest =>
    if ty = 3 then
      rest.foldl (fun acc q => (List.range (acc.length / 8)).flatMap (fun i =>
        leBytes 8 (field acc (8 * i) 8 + field q (8 * i) 8))) p
    else if ty = 2 then
      collBytes 2 (rest.foldl (fun acc q => List.zipWith (fun a b => a + b) acc (collWords 2 q)) (collWords 2 p))
    else
      let f := if redop = 1 then Float.maxF else if redop = 2 then Float.minF else Float.add
      collBytes ty (rest.foldl (fun acc q => List.zipWith f acc (collWords ty q)) (collWords ty p))

/-- Segments whose owner is on this engine. -/
def Group.owned (g : Group) (rank : Nat) : List Nat := (List.range g.ppe).map (fun i => rank * g.ppe + i)

/-- Replace a collective in progress. -/
def State.setColl (s : State) (old new : CollRun) : State :=
  { s with span := { s.span with colls := s.span.colls.map (fun r => if r = old then new else r) } }

/-- A collective of which no local part is known yet. -/
def CollRun.fresh (part group : Nat) : CollRun :=
  { part := part, group := group, op := 0, ty := 0, redop := 0, length := 0, joins := [], ids := [], data := [], sent := false,
    finished := false }

/-- The result of a collective for a part, when everything it needs is here (R397). -/
def CollRun.result (r : CollRun) (parts j : Nat) : Option (List Byte) :=
  if r.op = 4 then ((List.range parts).mapM (fun sg => r.whole parts parts sg)).map (fun l => l.flatten)
  else if r.op = 5 then r.whole parts parts j
  else ((List.range parts).mapM (fun i => r.whole parts i 0)).map (fun l => if r.op = 7 then [] else l.flatten)

/-- The core of a local part still waits for its collective. -/
def State.joinAlive (s : State) (j : CollJoin) : Bool :=
  let c := s.core j.core
  c.run.spanWaits.any (fun w => w.opId == reqNo j.req) && c.run.dispatch % 2 ^ 16 == reqDispatch j.req

/-- The wait of a local part's core. -/
def State.joinWait (s : State) (j : CollJoin) : Option SpanWait := if s.joinAlive j then (s.core j.core).spanWait (reqNo j.req) else none

/-- The segments that a local part has sent. -/
def State.joinOps (s : State) (j : CollJoin) : List SpanOp :=
  s.span.ops.filter (fun o => o.op == 9 && o.cmd.isNone && o.core == j.core && reqId o.lpos o.dispatch o.req == j.req)

/-- A core receives the result of a collective: it is in its SPAD, its counter counts (R389). -/
def State.deliverColl (s : State) (j : CollJoin) (bs : List Byte) : State :=
  match s.joinWait j with
  | none => s
  | some w =>
    let ops := s.joinOps j
    let s1 := if w.racedSrc then ops.foldl State.blur s else s
    let s2 := (ops.filter (fun o => o.acked)).foldl State.dropOp s1
    let s3 := if w.racedDst then s2.openSpan j.core w.opId w.dst else s2.updCore j.core (fun c => spanPut c w.opId j.dst bs)
    s3.updCore j.core (fun c => spanDone c w.opId j.lsem)

/-- What a part has given is open when a write has met it before the completion (R392). -/
def State.openParts (s : State) (parts : Nat) (r : CollRun) : State × CollRun :=
  (r.joins.filter (fun j => match s.joinWait j with
    | none => false
    | some w => w.racedSrc)).foldl (fun a j => (r.segs parts).foldl (fun (b : State × CollRun) sg =>
      match b.2.at j.idx sg with
      | none => b
      | some bs =>
        let f := b.1.freeBytes bs.length
        (f.2, b.2.put j.idx sg f.1)) a) (s, r)

/-- Fold the owned segments of a reduction when every part is here, and send them where they are wanted, each with the identity
of the part that owns it. -/
def State.foldOwned (s : State) (p : Nat) (g : Group) (r : CollRun) : State × CollRun :=
  let parts := g.parts
  let rank := g.rank s.span.engineId
  if r.reduces && !r.sent then
    match (g.owned rank).mapM (fun sg => (List.range parts).mapM (fun j => r.whole parts j sg)) with
    | none => (s, r)
    | some all =>
      let folded := ((g.owned rank).zip all).map (fun q => (q.1, collFold r.ty r.redop q.2))
      let r1 := folded.foldl (fun a q => a.put parts q.1 q.2) { r with sent := true }
      let others := (List.range g.members.length).filter (fun k => k != rank && r.op == 4)
      let s1 := folded.foldl (fun t q => match r.joins.find? (fun j => j.idx == q.1) with
        | none => t
        | some j =>
          let o : SpanOp :=
            {
              core := j.core, cmd := none, part := p, lpos := reqCore j.req, op := 9, lsem := j.lsem, dispatch := reqDispatch j.req,
              req := reqNo j.req, engine := 0, dstPart := 0, window := 0, offset := 0, arg := 0, length := 0, dstOff := 0, data := [],
              port := 0, got := 0, acked := false, flits := [] }
          others.foldl (fun u k => (u.sendSeg o g r.group k q.1 q.1 q.2).1) t) s
      (s1, r1)
  else (s, r)

/-- COLLECTIVE_COMPLETE (R397 to R399): the earliest unfinished collective of the group completes once every part has issued
it. -/
def execCollectiveComplete (part : Nat) (group : Nat) (s : State) : Out :=
  .next (
    match (s.part part).bind (fun x => x.group group) with
    | none => s
    | some g =>
      match s.span.colls.find? (fun r => r.part == part && r.group == group && !r.finished && decide (r.op ≠ 0)) with
      | none => s
      | some r =>
        if r.joins.length < g.ppe then s
        else
          let o := s.openParts g.parts r
          let q := o.1.foldOwned part g o.2
          let r1 := q.2
          let s1 := q.1.setColl r r1
          match (r1.joins.mapM (fun j => (r1.result g.parts j.idx).map (fun bs => (j, bs)))) with
          | none => s1
          | some rs => (rs.foldl (fun t x => t.deliverColl x.1 x.2) s1).setColl r1 { r1 with finished := true })

/-- A piece of a part's bytes: the next one is added to what is held, and one that is held already is a duplicate. -/
def State.takeSeg (s : State) (n : Nat) (k : Pkt) (r : CollRun) (slot : Nat) : State :=
  let old := (r.at slot k.seg).getD []
  if old.length = k.offset ∧ ((r.at slot k.seg).isNone ∨ k.offset ≠ 0) then
    (s.setColl r (r.put slot k.seg (old ++ k.data))).reply n k 8 0 k.arg []
  else s.duplicate n k k.arg

/-- A collective's bytes arrive from another engine (R391, R398): by identity they belong to a collective already known, are
a duplicate, or belong to the earliest collective of the group that lacks this part. -/
def State.arriveColl (s : State) (n : Nat) (k : Pkt) : State :=
  if s.portPart n ≠ some k.dstP then s.refuse n k 1
  else if k.idx = noIdx then s.storeDigest k
  else match (s.part k.dstP).bind (fun x => x.group k.group) with
  | none => s.refuse n k 1
  | some g =>
    if g.members[k.idx / max g.ppe 1]? ≠ some (k.srcE, k.srcP) then s.refuse n k 1
    else
      let slot (r : CollRun) : Nat := if r.reduces && !((g.owned (g.rank s.span.engineId)).contains k.seg) then g.parts else k.idx
      let mine (r : CollRun) : Bool := r.part == k.dstP && r.group == k.group
      match s.span.colls.find? (fun r => mine r && r.ids.contains (k.idx, k.req)) with
      | some r => s.takeSeg n k r (slot r)
      | none =>
        if !s.newerAt (collKey k) k then s.duplicate n k k.arg
        else if k.offset ≠ 0 then s
        else
          let s1 := s.appliedAt (collKey k) k
          match s1.span.colls.find? (fun r => mine r && !(r.ids.any (fun q => q.1 == k.idx))) with
          | some r =>
            let r1 := { r with ids := r.ids ++ [(k.idx, k.req)] }
            (s1.setColl r r1).takeSeg n k r1 (slot r1)
          | none =>
            let r1 := { CollRun.fresh k.dstP k.group with ids := [(k.idx, k.req)] }
            ({ s1 with span := { s1.span with colls := s1.span.colls ++ [r1] } }).takeSeg n k r1 k.idx

/-! ### Survivors of a roll (R285) -/

/-- The survivor of a rank that has come for a generation of a group's roll. -/
def State.survivor (s : State) (p g gen rank : Nat) : Option Survivor :=
  s.span.survivors.find? (fun v => v.part == p && v.group == g && v.gen == gen && v.rank == rank)

/-- Bytes of a survivor arrive from a member of the roll's group, in order. -/
def State.arriveSurvivor (s : State) (n : Nat) (k : Pkt) : State :=
  let known := match (s.part k.dstP).bind (fun x => x.group k.group) with
    | none => false
    | some g => g.members.contains (k.srcE, k.srcP)
  if s.portPart n ≠ some k.dstP ∨ !known then s.refuse n k 1
  else
    let put (v : Survivor) : State :=
      let others := s.span.survivors.filter (fun u => !(u.part == v.part && u.group == v.group && u.gen == v.gen && u.rank == v.rank))
      ({ s with span := { s.span with survivors := others ++ [v] } } : State).reply n k 8 0 k.arg []
    match s.survivor k.dstP k.group k.seg (reqNo k.req) with
    | none =>
      if k.offset = 0 then put { part := k.dstP, group := k.group, gen := k.seg, rank := reqNo k.req, data := k.data } else s
    | some v => if k.offset = v.data.length ∧ k.offset ≠ 0 then put { v with data := v.data ++ k.data } else s.duplicate n k k.arg

/-! ### Packets arriving -/

/-- The operation that an answer is for: the one with its identity, its engine unless a forwarder answers, and its ARG where
several operations share an identity. -/
def SpanOp.answers (o : SpanOp) (k : Pkt) : Bool :=
  reqId o.lpos o.dispatch o.req == k.req && o.part == k.dstP && (o.engine == k.srcE || (k.op == 0xA && k.status == 4)) &&
    (!(o.op == 9 || o.cmd.isSome) || o.arg == k.arg) && !o.acked

/-- An answer to an operation issued here (R389, R394): of the piece that is next, or an error. -/
def State.answered (s : State) (k : Pkt) : State :=
  match s.span.ops.find? (fun o => o.answers k && (k.op == 0xA || k.offset == o.offset + o.got)) with
  | none => s
  | some o =>
    if k.op = 0xA then
      let f := failStatus o k.status
      s.opFailed o f.1 f.2
    else
      let m := if k.op = 9 then k.len else if o.op = 3 then o.length else min (if o.op = 2 then 64 else 256) (o.length - o.got)
      let s1 := if k.op = 9 ∧ o.op = 2 ∧ s.opAlive o then
          s.updCore o.core (fun c => spanPut c o.req (o.dstOff + o.got) (k.data.take (o.length - o.got)))
        else s
      let keep (o' : SpanOp) : State := { s1 with span := { s1.span with ops := s1.span.ops.map (fun q => if q = o then o' else q) } }
      if o.length ≤ o.got + m then
        if o.op = 9 ∧ o.cmd.isNone ∧ s.opAlive o then (keep { o with got := o.length, acked := true }).portDrained o.port
        else if o.op = 9 ∨ o.cmd.isSome then (s1.dropOp o).portDrained o.port
        else (s1.opDone o).portDrained o.port
      else keep { o with got := o.got + m }

/-- A packet of an OP that R395 does not list is discarded, counted and logged with ST_PORT_DENIED (R403). -/
def State.strayOp (s : State) (n : Nat) (k : Pkt) : State := s.countDenied n 0x0103 k.op

/-- Perform a packet that has arrived on a port; none while it is held. A packet whose payload is not LEN bytes is discarded. -/
def State.arrive (s : State) (n : Nat) (pkt : List Byte) : Option State :=
  let k := Pkt.of pkt
  if pkt.length ≠ 32 + k.len ∨ 256 < k.len then some s
  else if k.op = 0 ∨ 0xB ≤ k.op then some (s.strayOp n k)
  else if k.dstE ≠ s.span.engineId then some (s.forward n k pkt)
  else if k.op = 1 ∧ k.idx = noIdx then some (s.arriveSurvivor n k)
  else if k.op ≤ 3 then s.arriveOp n k
  else if k.op = 8 ∨ k.op = 0xA then some (s.answered k)
  else if k.op = 9 ∧ s.span.ops.any (fun o => o.op == 2 && o.answers k) then some (s.answered k)
  else some (s.arriveColl n k)

/-- Packets of one source core to one destination: they take effect in order (R390). -/
def sameSource (a b : List Byte) : Bool := srcKey (Pkt.of a) == srcKey (Pkt.of b)

/-- Perform the packets of a port that can be performed; held ones stay, and those of their source behind them. -/
def State.drainInbox (s : State) (n : Nat) : State :=
  if (s.port n).inbox.isEmpty then s
  else
  let r := (s.port n).inbox.foldl (fun (a : State × List (List Byte)) pkt =>
    if a.2.any (sameSource pkt) then (a.1, a.2 ++ [pkt])
    else match a.1.arrive n pkt with
      | some t => (t, a.2)
      | none => (a.1, a.2 ++ [pkt])) (s.updPort n (fun x => { x with inbox := [] }), [])
  r.1.updPort n (fun x => { x with inbox := r.2 ++ x.inbox })

/-- Held operations of every port are tried again (R466). -/
def State.drainInboxes (s : State) : State := (List.range 32).foldl State.drainInbox s

/-- A packet arrives on a port. -/
def State.packetIn (s : State) (n : Nat) (pkt : List Byte) : State :=
  if n ≥ 32 ∨ !(s.port n).listens then s else (s.updPort n (fun x => { x with inbox := x.inbox ++ [pkt] })).drainInbox n

/-- A port that sent nothing in answer to a flit sends an IDLE flit, which carries ACK and CREDIT. -/
def State.idleFlit (s : State) (n before : Nat) : State :=
  if (s.port n).listens ∧ (s.port n).sent.length = before then s.updPort n (fun x => x.sendCtl 1 []) else s

/-- FLIT_RECEIVE (R378 to R380): corrected symbols are counted; a rejected flit is answered by one NAK, and DATA flits are
discarded until the expected one comes; an accepted one is acknowledged, its credit taken and its packets performed. -/
def execFlitReceive (port : Nat) (flit : List Byte) (uncorrectable : Bool) (corrected : Nat) (s : State) : Out :=
  .next (
    let x := s.port port
    if port ≥ 32 ∨ !x.listens then s
    else
      let y := { x with corrSymbols := satAdd32 x.corrSymbols corrected }
      let h := field flit 0 6
      let kind := bitsOf h 25 24
      let payload := (flit.drop 6).take 200
      let good := !uncorrectable && field flit 206 2 == (crc16 ((List.range 206).map (fun i => flit.getD i 0))).toNat
      let inOrder := decide (kind ≠ 0) || h % 4096 == x.rxSeq.toNat
      if !good ∨ (!inOrder ∧ !x.discarding) then
        s.setPort port (({ y with rejected := satAdd32 y.rejected 1, discarding := true } : SpanPort).sendCtl 2 [])
      else if !inOrder then s.setPort port y
      else
        let z := (y.take h).pump
        match kind with
        | 0 => ((s.setPort port (z.receive payload)).drainInbox port).idleFlit port z.sent.length
        | 2 => s.setPort port (z.nak ((bitsOf h 23 12 + 1) % 4096))
        | 3 => (s.setPort port z).spareRequest port (field payload 0 1)
        | _ => s.setPort port z)

/-- NAK_RECEIVE (R379). -/
def execNakReceive (port : Nat) (seq : Nat) (s : State) : Out :=
  .next (if port ≥ 32 ∨ !(s.port port).listens then s else s.updPort port (fun x => x.nak (seq % 4096)))

/-- SPAN_PACKET_ARRIVAL (R384, R385, R388, R391, R394, R398, R466, R473). -/
def execSpanPacketArrival (port : Nat) (pkt : List Byte) (s : State) : Out := .next (s.packetIn port pkt)

/-- SPAN_LOCAL_COMPLETION (R389): an acknowledgement, read data or an error comes back for an operation issued here. -/
def execSpanLocalCompletion (port : Nat) (pkt : List Byte) (s : State) : Out :=
  .next (
    let k := Pkt.of pkt
    if k.op = 8 ∨ k.op = 9 ∨ k.op = 0xA then s.packetIn port pkt else s)

/-- SPAN_TIMEOUT (R394): no acknowledgement within SPAN_TIMEOUT after resending on every usable port. -/
def execSpanTimeout (core : CorePos) (req : Nat) (s : State) : Out :=
  .next (
    let mine (o : SpanOp) : Bool := o.core == CorePos.key core && o.cmd.isNone && o.req == req && !o.acked
    match s.span.ops.find? mine with
    | none => s
    | some o =>
      let s1 := s.opFailed o stPeerLost 0
      (s1.span.ops.filter (fun q => mine q && q.dispatch == o.dispatch)).foldl State.dropOp s1)

/-! ### Operations issued by EVT (R387) -/

/-- A SPAD range of n bytes. -/
def spadFits (off n : Nat) : Bool := decide (off + n ≤ Cu.spadBytes)

/-- Ranges that overlap. -/
def overlap (a n b m : Nat) : Bool := decide (a < b + m ∧ b < a + n)

/-- Whether a span descriptor satisfies R387. -/
def spanValid (x : Partition) (bs : List Byte) : Bool :=
  let w0 := field bs 0 4
  let op := w0 % 16
  let ty := bitsOf w0 15 13
  let redop := bitsOf w0 17 16
  let len := field bs 4 4
  let src := field bs 8 4
  let dst := field bs 0xC 4
  let tgt := field bs 0x10 4
  let off := field bs 0x18 8
  let coll := decide (4 ≤ op ∧ op ≤ 7)
  let g := x.group (bitsOf w0 27 24)
  let parts := match g with
    | some y => y.parts
    | none => 0
  let zero (o n : Nat) : Bool := field bs o n == 0
  let lenOk :=
    if op = 7 then len == 0
    else if op = 3 then len == 4 && ty == 2 || len == 8 && ty == 3
    else decide (64 ≤ len ∧ len ≤ 0x400000 ∧ len % 64 = 0) &&
      (op != 4 || decide (len % 256 = 0)) && (op != 5 || decide (parts ≠ 0 ∧ len % (256 * parts) = 0))
  let dstLen := if op = 6 then parts * len else if op = 5 then len / max parts 1 else len
  decide (1 ≤ op ∧ op ≤ 7) && bitsOf w0 23 18 == 0 && bitsOf w0 31 28 == 0 && decide (ty ≤ 3) && decide (redop ≤ 2) &&
    (op != 3 || decide (2 ≤ ty)) && (redop == 0 || decide (ty ≤ 1)) &&
    lenOk && decide (src < 2 ^ 22) && decide (dst < 2 ^ 22) &&
    bitsOf tgt 15 15 == 0 && decide (tgt / 2 ^ 16 < 64) && decide (tgt % 4096 < 0xFFF) && zero 0x14 4 && decide (off < 2 ^ 48) &&
    (if op = 3 then decide (off % max len 1 = 0) else decide (off % 64 = 0)) &&
    (if op = 3 then ty == 3 || zero 0x24 4 else zero 0x20 8) && decide (field bs 0x28 4 < 256) && zero 0x2C 20 &&
    (if coll then g.isSome && decide (field bs 0x28 1 < (g.map (fun y => y.ppe)).getD 0) &&
      (op == 7 || (spadFits src len && spadFits dst dstLen && !overlap src len dst dstLen))
     else field bs 0x28 1 == 0 && (op != 1 || spadFits src len) && (op != 2 || spadFits dst len))

/-- The dispatch of a core ends with its command for a bad span descriptor (R387): steps 2 to 4 of R182. -/
def State.spanParam (s : State) (k : Nat) : State :=
  match s.dispatchOf k with
  | none => s
  | some (_, _, d) => (s.failCmd d.ref stSpanParam 0).settle

/-- A core waits for a span request (R153): what it sends and receives. -/
def waitSpan (c : Core) (tag no : Nat) (src dst : Nat × Nat) : Core :=
  { c with run := { c.run with
      nSpan := no + 1
      spanWaits := c.run.spanWaits ++ [{ tag := tag, opId := no, src := src, dst := dst, racedSrc := false, racedDst := false }] } }

/-- A request of a core: its source is read, it waits, and what it will receive is open (R392). -/
def State.beginSpan (s : State) (k tag : Nat) (src dst : Nat × Nat) : List Byte × State :=
  let c := s.core k
  let no := c.run.nSpan
  let r := Cu.wideRead c src.1 src.2
  (r.1, (s.setCore k (waitSpan r.2 tag no src dst)).openSpan k no dst)

/-- The request of a descriptor, before its target is known. -/
def State.spanReq (s : State) (k p lpos : Nat) (bs : List Byte) : SpanOp :=
  let c := s.core k
  let w0 := field bs 0 4
  let tgt := field bs 0x10 4
  let note := bitsOf w0 11 8 * 2 ^ 32 + (if bitOf w0 12 then 2 ^ 36 else 0)
  let len := field bs 4 4
  {
    core := k, cmd := none, part := p, lpos := lpos, op := w0 % 16, lsem := bitsOf w0 7 4, dispatch := c.run.dispatch,
    req := c.run.nSpan, engine := tgt % 4096, dstPart := bitsOf tgt 14 12, window := tgt / 2 ^ 16 % 64, offset := field bs 0x18 8,
    arg := (if w0 % 16 = 3 then field bs 0x20 4 else 0) + note, length := len, dstOff := field bs 0xC 4,
    data := if w0 % 16 = 3 then leBytes len (field bs 0x20 8) else [], port := 0, got := 0, acked := false, flits := [] }

/-- Issue a WRITE, READ or ATOMIC_ADD. -/
def State.issueOp (s : State) (k p lpos tag : Nat) (bs : List Byte) : State :=
  let o := s.spanReq k p lpos bs
  let src := if o.op = 1 then (field bs 8 4, o.length) else (0, 0)
  let dst := if o.op = 2 then (o.dstOff, o.length) else (0, 0)
  let r := s.beginSpan k tag src dst
  let o1 := if o.op = 1 then { o with data := r.1 } else o
  match r.2.pickPort p o.engine lpos with
  | none => r.2.opFailed o1 stPeerLost 0
  | some n => r.2.launch { o1 with port := n }

/-- End the command of a core's dispatch for a lost peer; bit 32 of DETAIL is the mismatch flag (R396, R452). -/
def State.collLost (s : State) (k : Nat) (extra : Nat) : State :=
  match s.dispatchOf k with
  | none => s
  | some (_, _, d) => (s.endAtBoundary d.ref stPeerLost extra).settle

/-- Issue a collective. A replayed part is a duplicate: its bytes are sent again and not folded again, and a result already
formed is delivered (R391, R398). -/
def State.issueColl (s : State) (k p lpos tag : Nat) (g : Group) (bs : List Byte) : State :=
  let o := s.spanReq k p lpos bs
  let w0 := field bs 0 4
  let gi := bitsOf w0 27 24
  let id := reqId lpos o.dispatch o.req
  let idx := g.rank s.span.engineId * g.ppe + field bs 0x28 1
  let fresh : CollRun := { CollRun.fresh p gi with op := o.op, ty := bitsOf w0 15 13, redop := bitsOf w0 17 16, length := o.length }
  let recv := if o.op = 7 then 0 else if o.op = 6 then g.parts * o.length else if o.op = 5 then o.length / max g.parts 1 else o.length
  let rd := s.beginSpan k tag (field bs 8 4, o.length) (o.dstOff, recv)
  let s1 := rd.2
  let join : CollJoin := { idx := idx, core := k, lsem := o.lsem, dst := o.dstOff, req := id }
  let mine (r : CollRun) : Bool := r.part == p && r.group == gi
  if g.mismatch then s1.collLost k (2 ^ 32)
  else
    let again := s1.span.colls.find? (fun r => mine r && r.joins.any (fun j => j.req == id))
    let open_ := again.orElse (fun _ => s1.span.colls.find? (fun r => mine r && !r.finished && !(r.joins.any (fun j => j.idx == idx))))
    let (r0, s2) : CollRun × State := match open_ with
      | some r =>
        let r1 := if r.op = 0 then { fresh with data := r.data, ids := r.ids } else r
        (r1, s1.setColl r r1)
      | none => (fresh, { s1 with span := { s1.span with colls := s1.span.colls ++ [fresh] } })
    let (s3, r1, ok) := s2.contribute o g gi r0 idx rd.1
    let r2 := { r1 with joins := r1.joins.filter (fun j => j.req != id) ++ [join] }
    let s4 := s3.setColl r0 r2
    if !ok then s4.collLost k 0
    else match r2.finished, r2.result g.parts idx with
      | true, some out => s4.deliverColl join out
      | _, _ => s4

/-- The logical core number of a position (R383). -/
def lposOf (q : Nat × Nat × Nat) : Nat := q.1 * 128 + q.2.1 * 16 + q.2.2

/-- A span request of a core (R387 to R391): none while the descriptor's bank is not on. -/
def State.spanIssue (s : State) (k tag off : Nat) : Option State :=
  match s.dispatchOf k with
  | none => some s
  | some (p, x, d) =>
    if off % 64 ≠ 0 ∨ !spadFits off 64 then some (s.spanParam k)
    else match Cu.access (s.core k) off 64 with
      | .held | .off => none
      | .ok =>
        let r := Cu.wideRead (s.core k) off 64
        let s1 := s.setCore k r.2
        if !spanValid x r.1 then some (s1.spanParam k)
        else
          let w0 := field r.1 0 4
          if w0 % 16 ≤ 3 then some (s1.issueOp k p (lposOf d.pos) tag r.1)
          else match x.group (bitsOf w0 27 24) with
            | none => some (s1.spanParam k)
            | some g => some (s1.issueColl k p (lposOf d.pos) tag g r.1)

/-! ### Commands (R386, R396, R400, R401) -/

/-- No other command of a partition has started: a command boundary of the partition. -/
def State.partQuiet (s : State) (c : CmdRef) (p : Nat) : Bool := !((s.partCmds p).any (fun r => r != c && s.cmdStarted r))

/-- OP_SPAN_CONFIG (R381, R386, R401). -/
def execOpSpanConfig (c : CmdRef) (s : State) : Out :=
  .next (s.gate c 0x0901 false (fun s k _ _ =>
    let id := k.p 0 4
    let en := k.p 4 4
    let to_ := k.p 8 4
    let t := if to_ = 0 then 1000 else to_
    if 0xFFF ≤ id ∨ t < 10 ∨ 1000000 < t ∨ k.p 12 4 ≠ 0 then s.endCmd c (Fin.bare stSpanParam)
    else
      let changed := decide (id ≠ s.span.engineId)
      let s1 := { s with span := { s.span with engineId := id, timeoutUs := t } }
      let s2 := (List.range 32).foldl (fun u n =>
        let x := u.port n
        let want := bitOf en n
        let u1 := u.updPort n (fun y => { y with enabled := want })
        if want ∧ !x.enabled then (u1.updPort n (fun y => { y with state := .training })).portEvent n
        else if !want ∧ x.enabled then
          if x.usable then ((u1.updPort n (fun y => { y with state := .draining })).portEvent n).portDrained n
          else (u1.updPort n (fun y => { y.unlink with state := .disabled, lanes := 0 })).portEvent n
        else if want ∧ changed then u1.train n
        else u1) s1
      s2.endCmd c Fin.ok))

/-- OP_SPAN_ROUTE (R383, R385, R386). -/
def execOpSpanRoute (c : CmdRef) (s : State) : Out :=
  .next (s.gate c 0x0902 false (fun s k p _ =>
    match s.part p with
    | none => s
    | some x =>
      let w0 := k.p 0 4
      let dest := k.p 4 4
      let mask := k.p 8 4
      let own := (bitsSet mask 32).all (fun n => s.portPart n == some p)
      if 2 ^ 9 ≤ w0 ∨ 0xFFF ≤ dest ∨ !own ∨ (x.confidential ∧ !bitOf w0 8) then s.endCmd c (Fin.bare stSpanParam)
      else if x.tdiLocks then s.refuseLocked c p
      else if !s.partQuiet c p then s
      else
        let r : Option Route := if bitOf w0 6 then some { dest := dest, forward := bitOf w0 7, mask := mask } else none
        let s1 := s.updPart p (fun y => { y with span := { y.span with routes := SMap.set none y.span.routes (w0 % 64) r } })
        s1.endCmd c Fin.ok))

/-- OP_SPAN_WINDOW (R385, R386). -/
def execOpSpanWindow (c : CmdRef) (s : State) : Out :=
  .next (s.gate c 0x0903 false (fun s k p _ =>
    match s.part p with
    | none => s
    | some x =>
      let w0 := k.p 0 4
      let kind := bitsOf w0 7 6
      let src := k.p 4 4
      let tgt := k.p 12 4
      let base := k.p 0x10 8
      let size := k.p 0x18 8
      let ok :=
        decide (w0 < 2 ^ 13) && decide (kind ≤ 2) && bitsOf src 15 12 == 0 && decide (src < 2 ^ 28) && decide (k.p 8 4 < 256) &&
        decide (base < 2 ^ 48) && decide (size < 2 ^ 48) && decide (size % 64 = 0) &&
        (if kind = 1 then decide (tgt < 16) && (match SMap.get none x.regions tgt with
            | none => false
            | some r => r.ready && decide (base + size ≤ r.size))
          else if kind = 2 then decide (tgt < 128 * x.dies.length) && decide (base + size ≤ Cu.spadBytes)
          else decide (tgt < 2 ^ 11))
      if !ok ∨ (x.confidential ∧ !bitOf w0 12) then s.endCmd c (Fin.bare stSpanParam)
      else if x.tdiLocks then s.refuseLocked c p
      else if !s.partQuiet c p then s
      else
        let w : Option Window := if kind = 0 then none else
          some {
            spad := decide (kind = 2), perm := bitsOf w0 10 8, bulk := bitOf w0 11, srcEngine := src % 4096,
            srcMask := bitsOf src 27 16, srcParts := k.p 8 1, target := tgt, base := base, size := size }
        let s1 := s.updPart p (fun y => { y with span := { y.span with windows := SMap.set none y.span.windows (w0 % 64) w } })
        s1.endCmd c Fin.ok))

/-- Send a group's digest to a member that a route reaches (R396; DESIGN CHOICE for its packet, notes/assumptions/14.md). -/
def State.sendDigest (s : State) (p gi : Nat) (m : Nat × Nat) (d : Dword) : State :=
  match s.pickPort p m.1 noIdx with
  | none => s
  | some n => s.pushPacket n (mkPacket 9 0 0 0 m.1 m.2 s.span.engineId p 0 (reqId noIdx 0 0) (collArg gi noIdx 0xFFFF) (leBytes 8 d.toNat))

/-- OP_COLL_GROUP (R396). -/
def execOpCollGroup (c : CmdRef) (s : State) : Out :=
  .next (s.gate c 0x0904 false (fun s k p _ =>
    let w0 := k.p 0 4
    let e := bitsOf w0 7 4
    let ms := (List.range e).map (fun i => (k.p (8 + 4 * i) 4 % 4096, bitsOf (k.p (8 + 4 * i) 4) 14 12))
    let ok :=
      decide (w0 < 2 ^ 16) && k.p 4 4 == 0 && decide (1 ≤ e ∧ e ≤ 8) &&
      (List.range 8).all (fun i => bitsOf (k.p (8 + 4 * i) 4) 31 15 == 0) && ms.all (fun m => decide (m.1 < 0xFFF)) &&
      (ms.filter (fun m => m.1 == s.span.engineId)).length == 1
    if !ok then s.endCmd c (Fin.bare stSpanParam)
    else
      let gi := w0 % 16
      let block := k.pBytes 0 40
      let g : Group := { ppe := bitsOf w0 15 8 + 1, members := ms, digest := Config.groupDigest block, mismatch := false }
      let s1 := s.updPart p (fun y =>
        ({ y with span := { y.span with groups := SMap.set none y.span.groups gi (some g) } } : Partition).compareDigests gi)
      ((ms.filter (fun m => m.1 != s.span.engineId)).foldl (fun t m => t.sendDigest p gi m g.digest) s1).endCmd c Fin.ok))

/-- State code of a port (R400). -/
def PortState.code : PortState → Nat
  | .disabled => 0
  | .training => 1
  | .up => 2
  | .narrow => 3
  | .draining => 4
  | .down => 5

/-- The spare carries a retired lane's data, in either direction (R400). -/
def SpanPort.spareUsed (x : SpanPort) : Bool := x.rx.retired.isSome || x.tx.retired.isSome

/-- The status record of a port (R400). -/
def State.portRecord (s : State) (n : Nat) : Nat :=
  let x := s.port n
  let own := s.portPart n
  x.corrSymbols.toNat * 2 ^ 224 + x.rejected.toNat * 2 ^ 192 + x.retrains.toNat * 2 ^ 176 + x.deniedIn.toNat * 2 ^ 160 +
    x.dupDropped.toNat * 2 ^ 144 + min (x.forwarded / 1000) 0xFFFF * 2 ^ 128 + x.peerEngine % 4096 * 2 ^ 116 +
    x.peerPort % 32 * 2 ^ 111 + x.state.code * 2 ^ 108 + x.lanes % 16 * 2 ^ 104 + (if x.spareUsed then 2 ^ 103 else 0) +
    x.retiredLane % 16 * 2 ^ 99 + own.getD 0 * 2 ^ 96 + (if own.isSome then 2 ^ 95 else 0)

/-- OP_SPAN_STAT (R386, R400). -/
def execOpSpanStat (c : CmdRef) (s : State) : Out :=
  .next (s.gate c 0x0905 false (fun s k p _ =>
    let w0 := k.p 0 4
    let n := w0 % 32
    let addr := k.p 8 8
    let tenant := decide (portOf c.block = 1)
    let own := s.portPart n
    if w0 &&& 0x11F ≠ w0 ∨ k.p 4 4 ≠ 0 ∨ 2 ^ 48 ≤ addr ∨ (tenant ∧ own ≠ some p) then s.endCmd c (Fin.bare stSpanParam)
    else
      let hidden := match own with
        | some q => s.confidential q && (portOf c.block == 3 || (tenant && q != p))
        | none => false
      let bs := leBytes 32 (if hidden then 0 else s.portRecord n)
      let (s1, f) := s.output c { part := partOfBlock c.block, ctx := none } addr bs Fin.ok
      match f with
      | none => s
      | some r =>
        let s2 := if bitOf w0 8 ∧ r.status = stOk then s1.updPort n (fun x => { x with
            corrSymbols := 0, rejected := 0, retrains := 0, deniedIn := 0, dupDropped := 0, forwarded := 0 }) else s1
        s2.endCmd c r))

end Sys2Proof.Machine
end

