-- ==== Sys2Proof/Machine/Clocks.lean ====
section
/-! DEFINITION. References, switch-over and coasting (R600 to R604, R609, R612). PLL groups: 0 to 15 the compute dies, 16 the
hub, 17 to 22 the base dies, 23 the span ports, whose PLLs do not coast. -/

namespace Sys2Proof.Machine

/-- The reference in use, and the other, are good. -/
def PllUnit.selGood (u : PllUnit) : Bool := if u.sel then u.refB else u.refA
def PllUnit.otherGood (u : PllUnit) : Bool := if u.sel then u.refA else u.refB

/-- Record whether a reference is good. -/
def PllUnit.setRef (u : PllUnit) (b good : Bool) : PllUnit := if b then { u with refB := good } else { u with refA := good }

/-- Factors of 0.96 that bring a frequency down to another (R603). -/
def stepsDown (f coast : Nat) : Nat := ((List.range 64).find? (fun n => decide (f * 24 ^ n ≤ coast * 25 ^ n))).getD 64

/-- Factors of 0.96 between the frequencies of a group and its coast frequencies (R602, R603): 400 MHz columns and 800 MHz
fabric for a compute die, half its frequency for the hub and a base die. -/
def State.coastSteps (s : State) (n : Nat) : Nat :=
  if n < 16 then
    ((List.range 8).map (fun c => stepsDown (s.colMhz n c) 400)).foldl max (stepsDown (s.dieClk n).fabMhz 800)
  else stepsDown 2 1

/-- A plan change on a die that coasts ends: the PLLs count as having arrived, and the new FAST bits are written at once
(R612). -/
def State.endPlanChange (s : State) (d : Nat) : State :=
  let k := s.dieClk d
  if !k.changing then s
  else
    let s2 := s.arriveAtOnce d
    match s2.partOfDie d with
    | none => s2
    | some p => match s2.part p with
      | none => s2
      | some x => if x.planChange.isSome then s2.finishPlan p else s2

/-- The span PLLs have no reference: enabled ports go DOWN (R602), and their operations go elsewhere (R382). -/
def State.spanPllDown (s : State) : State :=
  (List.range 32).foldl (fun t n =>
    let x := t.port n
    if x.state = .disabled ∨ x.state = .down then t
    else
      let t1 := (t.updPort n (fun y => { y with state := .down, lanes := 0 })).portEvent n
      if x.listens then t1.reroute n stPeerLost else t1) s

/-- A group begins to coast (R602 to R604). PLL_COAST rises with the event of R603 unless it is up already; a coasting hub loses
TSYNC lock; a plan change on the die ends. -/
def State.enterCoast (s : State) (n cause : Nat) : State :=
  let u := s.pll n
  let steps := if u.coastingAny then u.steps else 0
  let s0 := if n < 16 then s.endPlanChange n else s
  let s1 := s0.setPll n { s0.pll n with
    phase := if s0.coastSteps n ≤ steps then .coasting else .entering, steps := steps, cause := cause }
  let s2 := if n = 16 then { s1 with tb := { s1.tb with locked := false } } else s1
  if u.coastingAny then s2
  else s2.record { EventRec.plain 0x0601 with unit := if n < 16 then n * 2 ^ 28 else 0 }

/-- REF_FAILURE (R600 to R603, R609): the other reference takes over if it is good, otherwise the group coasts. -/
def execRefFailure (pll : Nat) (refB : Bool) (s : State) : Out :=
  .next (
    let u := s.pll pll
    if 24 ≤ pll ∨ !s.start.railsUp ∨ !(if refB then u.refB else u.refA) then s
    else
      let up (n : BitVec 6) : BitVec 6 := if n = 0x3F#6 then n else n + 1
      let u1 := u.setRef refB false
      let u2 := if pll ≠ 16 then u1 else if refB then { u1 with bFails := up u1.bFails } else { u1 with aFails := up u1.aFails }
      let s1 := s.setPll pll u2
      if u.sel ≠ refB ∨ u.phase = .entering ∨ u.phase = .coasting then s1
      else if u2.otherGood then
        s1.setPll pll { u2 with sel := !u2.sel, phase := if u2.phase = .exiting then .exiting else .holdover }
      else if pll = 23 then (s1.setPll 23 { u2 with phase := .holdover }).spanPllDown
      else s1.enterCoast pll 1)

/-- REF_GOOD (R600, R603): 10 ms without a failure. A coasting group with no good reference locks to it and starts its way
back; the first reference's recovery alone changes nothing. -/
def execRefGood (pll : Nat) (refB : Bool) (s : State) : Out :=
  .next (
    let u := s.pll pll
    if 24 ≤ pll ∨ !s.start.railsUp ∨ (if refB then u.refB else u.refA) then s
    else
      let u1 := u.setRef refB true
      if u.lockLost then s.setPll pll u1
      else match u.phase with
        | .coasting | .entering =>
          let steps := if u.phase = .coasting then s.coastSteps pll else u.steps
          s.setPll pll { u1 with
            sel := refB, steps := steps, phase := if steps = 0 then .locked else .exiting,
            cause := if steps = 0 then 0 else u1.cause }
        | .holdover =>
          if u.selGood then s.setPll pll u1
          else
            -- The span PLLs: ports that went DOWN train again (R381).
            (List.range 32).foldl (fun t n => if (t.port n).state = .down then t.train n else t)
              (s.setPll pll { u1 with sel := refB, phase := .locked })
        | .locked | .exiting => s.setPll pll u1)

/-- SWITCHOVER_LOCK (R601): phase lock on the reference in use; holdover ends. -/
def execSwitchoverLock (pll : Nat) (s : State) : Out :=
  .next (
    let u := s.pll pll
    if pll < 24 ∧ u.phase = .holdover ∧ u.selGood = true then s.setPll pll { u with phase := .locked } else s)

/-- COAST_STEP (R603): one factor of 0.96 down, or up; PLL_COAST clears when the last PLL arrives. -/
def execCoastStep (pll : Nat) (s : State) : Out :=
  .next (
    let u := s.pll pll
    if 24 ≤ pll then s
    else match u.phase with
      | .entering =>
        let n := u.steps + 1
        s.setPll pll { u with steps := n, phase := if s.coastSteps pll ≤ n then .coasting else .entering }
      | .exiting =>
        let n := u.steps - 1
        s.setPll pll { u with
          steps := n, phase := if n = 0 then .locked else .exiting, cause := if n = 0 then 0 else u.cause }
      | .locked | .holdover | .coasting => s)

/-- PLL_LOCK_LOSS (R604): a PLL of a compute die loses lock with a good reference; the die coasts until the next warm or
cold reset. -/
def execPllLockLoss (die : Nat) (s : State) : Out :=
  .next (
    let u := s.pll die
    if 16 ≤ die ∨ !s.start.railsUp ∨ u.lockLost ∨ !u.selGood then s
    else (s.setPll die { u with lockLost := true }).enterCoast die 2)

end Sys2Proof.Machine
end

