-- ==== Sys2Proof/Machine/StateUnit.lean ====
section
/-! DEFINITION. The state unit and its file (R172, R292 to R296, R311). -/

namespace Sys2Proof.Machine.Cu

/-- Whether a segment is loaded (R292). -/
def segLoaded (c : Core) (s : Nat) : Bool := SMap.get false c.mem.stateLoaded s

/-- The 64 words of a segment as a read delivers them: zero from an unloaded segment (R292). -/
def segValues (c : Core) (s : Nat) : List Word :=
  if segLoaded c s then SMap.getRange 0#32 c.mem.stateFile (s * 64) 64 else List.replicate 64 0#32

/-- Count reads of unloaded segments (R292, R311). -/
def countStateRbw (c : Core) (n : Nat) : Core :=
  if c.run.confidential then c else { c with regs := { c.regs with stateRbw := sat16 c.regs.stateRbw n } }

/-- Read a segment, with its count. -/
def segRead (c : Core) (s : Nat) : List Word × Core :=
  (segValues c s, countStateRbw c (if segLoaded c s then 0 else 1))

/-- Write a segment and set its loaded bit (R292). -/
def segWrite (c : Core) (s : Nat) (ws : List Word) : Core :=
  { c with mem := { c.mem with
      stateFile := SMap.setRange 0#32 (SMap.clearRange c.mem.stateFile (s * 64) 64) (s * 64) (ws.take 64)
      stateLoaded := SMap.set false c.mem.stateLoaded s true } }

/-- The segment range and pair checks, made before the SPAD checks (R172). STATE_RANGE carries the first segment of the range
(DESIGN CHOICE, notes/assumptions/33.md). -/
def stateRange (s n : Nat) (comp : Bool) (k : Res) : Res :=
  if s + n > 256 then .fault fStateRange uState s
  else if comp && decide (s % 2 = 1) then .fault fStateRange uState s
  else k

/-- Copy one segment from SPAD words. -/
def loadSegs (c : Core) (s : Nat) (bs : List Byte) : Nat → Core
  | 0 => c
  | n + 1 =>
    let c1 := loadSegs c s bs n
    segWrite c1 (s + n) (wordsOf ((bs.drop (256 * n)).take 256) 64)

/-- STLD (R172, R292). -/
def stld (c : Core) (w : TileWord) : Res :=
  let n := w.md.toNat + 1
  let s := (x c w.f3).toNat
  let off := ea c w.f2 (immBits w 21 0)
  legal (usesOnly w false true true false 0xFF#8 0x3FFFFF#32) uState
    (stateRange s n false
      (spadRange off (256 * n) 32 uState
        (withAccess c off (256 * n) uState
          (let r := narrowReads c off (8 * n)
           next (loadSegs r.2 s r.1 n)))))

/-- Read n segments in order. -/
def readSegs (c : Core) (s : Nat) : Nat → List Word × Core
  | 0 => ([], c)
  | n + 1 =>
    let p := readSegs c s n
    let q := segRead p.2 (s + n)
    (p.1 ++ q.1, q.2)

/-- STST (R172). -/
def stst (c : Core) (w : TileWord) : Res :=
  let n := w.md.toNat + 1
  let s := (x c w.f3).toNat
  let off := ea c w.f2 (immBits w 21 0)
  legal (usesOnly w false true true false 0xFF#8 0x3FFFFF#32) uState
    (stateRange s n false
      (spadRange off (256 * n) 32 uState
        (withAccess c off (256 * n) uState
          (let r := readSegs c s n
           next (narrowWrites r.2 off (8 * n) (bytesOf r.1))))))

/-- The pair of lane j within two segments (R172): v, then its compensation. -/
def pairAt (ws : List Word) (j : Nat) : Word × Word := (ws.getD (2 * j) 0, ws.getD (2 * j + 1) 0)

/-- SSTEP (R172, R294, R295). -/
def sstep (c : Core) (w : TileWord) : Res :=
  let comp := decide (modBits w 0 0 = 1)
  let s := (x c w.f1).toNat
  let a := v c w.f2
  let u := v c w.f3
  legal (usesOnly w true true true false 0x01#8 0) uState
    (stateRange s (if comp then 2 else 1) comp
      (if comp then
        let r := readSegs c s 2
        let ps := (List.range 64).map (fun j =>
          let p := pairAt r.1 j
          Float.sstepComp (a.getD j 0) p.1 p.2 (u.getD j 0))
        let ws := ps.flatMap (fun p => [p.1, p.2])
        next (segWrite (segWrite r.2 s (ws.take 64)) (s + 1) (ws.drop 64))
       else
        let r := segRead c s
        next (segWrite r.2 s ((List.range 64).map (fun j => Float.fma (a.getD j 0) (r.1.getD j 0) (u.getD j 0))))))

/-- SOUT (R172, R296). -/
def sout (c : Core) (w : TileWord) : Res :=
  let comp := decide (modBits w 0 0 = 1)
  let s := (x c w.f2).toNat
  let k := v c w.f3
  legal (usesOnly w true true true false 0x01#8 0) uState
    (stateRange s (if comp then 2 else 1) comp
      (let r := readSegs c s (if comp then 2 else 1)
       let hs := (List.range 64).map (fun j =>
         if comp then (let p := pairAt r.1 j; Float.pairValue p.1 p.2) else r.1.getD j 0)
       next (setV r.2 w.f1 (List.zipWith Float.mul k hs))))

end Sys2Proof.Machine.Cu
end

