-- ==== Sys2Proof/Machine/Vector.lean ====
section
/-! DEFINITION. Vector and accumulator tile instructions (R166 to R170). -/

namespace Sys2Proof.Machine.Cu

/-! ### Accumulator (R125, R166) -/

/-- The range check of FLUSH and ACLR with at least one row (R166). -/
def accRange (r0 r : Nat) (k : Res) : Res :=
  if r0 ≥ 1024 then .fault fAccRange uAcc r0
  else if r0 + r > 1024 then .fault fAccRange uAcc (r0 + r)
  else k

/-- Held while a pass in flight owes a write to one of the rows (R178). -/
def rowsFree (c : Core) (r0 r : Nat) (k : Res) : Res :=
  if (List.range r).any (fun i => rowBusy c (r0 + i)) then .held else k

/-- Flush one row to SPAD in FP32 or BF16, and clear it if asked (R125). -/
def flushRow (bf clear : Bool) (d : Nat) (c : Core) (r0 i : Nat) : Core :=
  let rd := rowRead c (r0 + i)
  let bytes :=
    if bf then bytesOf (ofHalves (rd.1.map Float.toBf)) else bytesOf rd.1
  let off := if bf then d + 256 * (i / 2) + 128 * (i % 2) else d + 256 * i
  let c1 := wideWrite rd.2 true off bytes
  if clear then rowWrite c1 (r0 + i) (List.replicate 64 0#32) else c1

/-- FLUSH (R125, R166). -/
def flush (c : Core) (w : TileWord) : Res :=
  let d := ea c w.f1 (immBits w 21 0)
  let r0 := (x c w.f2).toNat
  let r := (x c w.f3).toNat
  let bf := immBits w 22 22 = 1
  let clear := immBits w 23 23 = 1
  let n := if bf then 256 * (r / 2) + 128 * (r % 2) else 256 * r
  legal (usesOnly w true true true false 0 0x00FFFFFF#32) uAcc
    (if r = 0 then next c
     else accRange r0 r
      (spadRange d n 256 uAcc
        (rowsFree c r0 r
          (withAccess c d n uAcc
            (next ((List.range r).foldl (fun c' i => flushRow (decide bf) (decide clear) d c' r0 i) c))))))

/-- ACLR (R166). -/
def aclr (c : Core) (w : TileWord) : Res :=
  let r0 := (x c w.f2).toNat
  let r := (x c w.f3).toNat
  legal (usesOnly w false true true false 0 0) uAcc
    (if r = 0 then next c
     else accRange r0 r
      (rowsFree c r0 r
        (next ((List.range r).foldl (fun c' i => rowWrite c' (r0 + i) (List.replicate 64 0#32)) c))))

/-! ### Loads and stores -/

/-- VLD (R167). -/
def vld (c : Core) (w : TileWord) : Res :=
  let n := modBits w 2 0 + 1
  let off := ea c w.f2 (immBits w 21 0)
  legal (usesOnly w true true false false 0x07#8 0x3FFFFF#32) uVector
    (spadRange off (32 * n) 32 uVector
      (withAccess c off (32 * n) uVector
        (let r := narrowReads c off n
         next (setVFrom r.2 w.f1 0 (wordsOf r.1 (8 * n))))))

/-- VST (R167). -/
def vst (c : Core) (w : TileWord) : Res :=
  let n := modBits w 2 0 + 1
  let off := ea c w.f2 (immBits w 21 0)
  legal (usesOnly w true true false false 0x07#8 0x3FFFFF#32) uVector
    (spadRange off (32 * n) 32 uVector
      (withAccess c off (32 * n) uVector
        (next (narrowWrites c off n (bytesOf ((v c w.f1).take (8 * n)))))))

/-- The row of VLDA and VSTA: ACC_RANGE from 1,024 upward, held while a pass owes the row (R167, R178). -/
def accRow (c : Core) (w : TileWord) (k : Nat → Res) : Res :=
  let r := ea c w.f2 (immBits w 9 0)
  if r ≥ 1024 then .fault fAccRange uVector r else if rowBusy c r then .held else k r

/-- VLDA (R167). -/
def vlda (c : Core) (w : TileWord) : Res :=
  legal (usesOnly w true true false false 0 0x3FF#32) uVector
    (accRow c w (fun r =>
      let rd := rowRead c r
      next (setV rd.2 w.f1 rd.1)))

/-- VSTA (R167). -/
def vsta (c : Core) (w : TileWord) : Res :=
  legal (usesOnly w true true false false 0 0x3FF#32) uVector
    (accRow c w (fun r => next (rowWrite c r (v c w.f1))))

/-! ### Lane arithmetic -/

/-- Operand b: V[F3], or X[F3] in every lane with BX (R167). -/
def operandB (c : Core) (w : TileWord) (bf : Bool) : List Word :=
  if modBits w 1 1 = 1 then
    if bf then
      let h := (x c w.f3).extractLsb' 0 16
      List.replicate 64 (h ++ h)
    else List.replicate 64 (x c w.f3)
  else v c w.f3

/-- A BF16 lane as an exact value (R50, R167). -/
def bfVal (h : Half) : Float.Val := Float.unpack (h ++ 0#16)

/-- A two-operand lane instruction: the FP32 rule and the BF16 rule (R167). -/
def lanes2 (c : Core) (w : TileWord) (f32 : Word → Word → Word) (bf16 : Half → Half → Half) : Res :=
  let bf := decide (modBits w 0 0 = 1)
  let b := operandB c w bf
  let r :=
    if bf then ofHalves (List.zipWith bf16 (halves (v c w.f2)) (halves b))
    else List.zipWith f32 (v c w.f2) b
  legal (usesOnly w true true true false 0x03#8 0) uVector (next (setV c w.f1 r))

/-- BF16 addition: exact, then rounded once (R167). -/
def bfAdd (a b : Half) : Half := Float.packBf (Float.addVal (bfVal a) (bfVal b)) 1

/-- BF16 subtraction. -/
def bfSub (a b : Half) : Half := bfAdd a (b ^^^ 0x8000#16)

/-- BF16 multiplication. -/
def bfMul (a b : Half) : Half := Float.packBf (Float.mulVal (bfVal a) (bfVal b)) Float.one149

/-- BF16 fused multiply-add, rounded once. -/
def bfFma (a b d : Half) : Half :=
  Float.packBf (Float.addVal (Float.mulVal (bfVal a) (bfVal b)) (Float.scaleUp (bfVal d))) Float.one149

/-- BF16 maximum under the rules of VMAX. -/
def bfMax (a b : Half) : Half := (Float.maxF (a ++ 0#16) (b ++ 0#16)).extractLsb' 16 16

/-- BF16 minimum under the rules of VMIN. -/
def bfMin (a b : Half) : Half := (Float.minF (a ++ 0#16) (b ++ 0#16)).extractLsb' 16 16

/-- VADD (R167). -/
def vadd (c : Core) (w : TileWord) : Res := lanes2 c w Float.add bfAdd

/-- VSUB (R167). -/
def vsub (c : Core) (w : TileWord) : Res := lanes2 c w Float.sub bfSub

/-- VMUL (R167). -/
def vmul (c : Core) (w : TileWord) : Res := lanes2 c w Float.mul bfMul

/-- VMAX (R167). -/
def vmax (c : Core) (w : TileWord) : Res := lanes2 c w Float.maxF bfMax

/-- VMIN (R167). -/
def vmin (c : Core) (w : TileWord) : Res := lanes2 c w Float.minF bfMin

/-- Lane-wise a × b + c. -/
def zip3 {α : Type} (f : α → α → α → α) (a b d : List α) : List α :=
  List.zipWith (fun g z => g z) (List.zipWith f a b) d

/-- VFMA (R167): rounds once in either type. -/
def vfma (c : Core) (w : TileWord) : Res :=
  let bf := decide (modBits w 0 0 = 1)
  let b := operandB c w bf
  let r :=
    if bf then ofHalves (zip3 bfFma (halves (v c w.f2)) (halves b) (halves (v c w.f4)))
    else zip3 Float.fma (v c w.f2) b (v c w.f4)
  legal (usesOnly w true true true true 0x03#8 0) uVector (next (setV c w.f1 r))

/-- VCVT (R50, R167). -/
def vcvt (c : Core) (w : TileWord) : Res :=
  let kind := modBits w 3 0
  let a := v c w.f2
  let r : List Word :=
    match kind with
    | 0 => ofHalves (a.map Float.toBf ++ (v c w.f3).map Float.toBf)
    | 1 => ((halves a).take 64).map Float.widen
    | 2 => ((halves a).drop 64).map Float.widen
    | 3 => a.map Float.ofInt32
    | _ => a.map Float.toInt32
  legal (usesOnly w true true (decide (kind = 0)) false 0x0F#8 0 && decide (kind ≤ 4)) uVector (next (setV c w.f1 r))

/-- VSPLIT (R93, R167): high and low BF16 parts. -/
def vsplit (c : Core) (w : TileWord) : Res :=
  let a := v c w.f2
  let hi := a.map Float.toBf
  let lo := List.zipWith (fun z h => Float.toBf (Float.sub z (Float.widen h))) a hi
  legal (usesOnly w true true false false 0 0) uVector (next (setV c w.f1 (ofHalves (hi ++ lo))))

/-- The values VRED reduces, in ascending lane order (R168). -/
def redValues (c : Core) (w : TileWord) : List Word :=
  if modBits w 0 0 = 1 then (halves (v c w.f2)).map Float.widen else v c w.f2

/-- A maximum or minimum over lanes in ascending order. -/
def foldBy (f : Word → Word → Word) : List Word → Word
  | [] => 0#32
  | a :: as => as.foldl f a

/-- VRED (R167, R168): the reduction in FP32 lane 0, +0 in every other lane. -/
def vred (c : Core) (w : TileWord) : Res :=
  let op := modBits w 3 2
  let xs := redValues c w
  let r := if op = 0 then Float.foldSum xs else if op = 1 then foldBy Float.maxF xs else foldBy Float.minF xs
  legal (usesOnly w true true false false 0x0D#8 0 && decide (op ≤ 2)) uVector
    (next (setV c w.f1 (r :: List.replicate 63 0#32)))

/-! ### QNT -/

/-- Pack codes of a width into a value, first code lowest (R58). -/
def packCodes (width : Nat) : List Nat → Nat
  | [] => 0
  | k :: ks => k + 2 ^ width * packCodes width ks

/-- QNT (R169, R170): 128 values of one group to codes, the scale used in the top two bytes of Vd. -/
def qnt (c : Core) (w : TileWord) : Res :=
  let kind := modBits w 1 0
  let derived := decide (modBits w 2 2 = 1)
  let slot := modBits w 6 3
  let ix := immBits w 7 0
  let grid := SMap.get [] c.run.grids slot
  let width := if kind = 0 then 4 else if kind = 1 then 3 else 8
  let xs := v c w.f2 ++ v c w.f3
  let given := (v c w.f4).headD 0 |>.extractLsb' 0 16
  let s := if derived then Float.derivedScale (if kind = 2 then none else some grid) xs else given
  let codes := xs.map (fun z => if kind = 2 then Float.qntE4 s z else Float.qntGrid grid s z)
  let value := packCodes width (codes.map (fun k => k.code)) + s.toNat * 2 ^ 2032
  let ws := (List.range 64).map (fun i => BitVec.ofNat 32 (value / 2 ^ (32 * i)))
  let slotOk := if kind = 2 then slot = 0 else grid.length = 2 ^ width
  legal (usesOnly w true true true (!derived) 0x7F#8 0xFF#32 && decide (kind ≤ 2) &&
      decide (ix < c.run.qstatCount)) uVector
    (if ¬ slotOk then .fault fGridSlot uVector 0
     else next (qstatHold (setV c w.f1 ws) (qstatOf ix codes (decide (kind = 2)))))

end Sys2Proof.Machine.Cu
end

