-- ==== Sys2Proof/Machine/CoreUnit.lean ====
section
/-! DEFINITION. The core sequencer at work (chapters 3 to 6 and 9): the issue of an instruction (R149, R182), the meaning of
each tile instruction, and the events of one core: loads, passes, gating, gather buffer, neighbour beats, barriers,
watchdog, bank power, clearing, GO and reset. -/

namespace Sys2Proof.Machine

/-! ### Issue (R149, R110, R182, R640) -/

/-- How an instruction of a core leaves the module: the core it leaves, a hold, or a program fault at its PC. -/
def State.settleRes (s : State) (k pc : Nat) (r : Cu.Res) : State :=
  match r with
  | .done c => s.setCore k c
  | .held => s
  | .fault code unit arg => s.programFault k pc code unit arg

/-- Whether a sequencer may issue: it runs, or it waits and `waits` allows that (R149, R185). -/
def canIssue (c : Core) (waits : Bool) : Bool :=
  (c.seq.state == .running || (waits && c.seq.state == .waiting && c.seq.atBar.isNone)) && !c.regs.zeroing

/-- One issue by a core: an opcode that chapter 5 does not list is ILLEGAL (R156); else what the core's checks report comes
first, then the instruction `f` on the module. -/
def State.issueWith (s : State) (op : TileOp) (waits : Bool) (f : State → Nat → State) : State :=
  s.onCore op.core (fun k =>
    let c := s.core k
    if !canIssue c waits then s
    else if !Cu.fetchListed c then s.programFault k c.seq.pc Cu.fIllegal Cu.uSeq 0
    else match op.hw with
    | .none => f s k
    | .eccCorrected => f (s.setCore k (countCorr c)) k
    | .eccUncorrectable => s.setCore k (countUncorr c)
    | .logicError => s.setCore k (freeze c))

/-- The issue of an instruction that acts on its core alone. -/
def State.issue (s : State) (op : TileOp) (f : Core → TileWord → Cu.Res) : State :=
  s.issueWith op false (fun t k => t.settleRes k (t.core k).seq.pc (f (t.core k) op.w))

/-! ### Control and scalar instructions (R159 to R162) -/

/-- NOP (R159). -/
def execTNop (op : TileOp) (s : State) : Out := .next (s.issue op Cu.nop)

/-- Whether everything END waits for has happened (R153, R175). -/
def endQuiet (c : Core) : Bool :=
  c.arr.flights.isEmpty && c.arr.loading.isNone && c.dma0.queue.isEmpty && c.dma1.queue.isEmpty &&
  (List.range 4).all (fun p => (SMap.get NbPort.idle c.ports p).outbound.isEmpty) && c.run.spanWaits.isEmpty

/-- END on its core (R120, R153): every entry of the gather buffer is flushed and the sequencer is IDLE. -/
def endCore (c : Core) (w : TileWord) : Cu.Res :=
  Cu.legal (Cu.usesOnly w false false false false 0 0) Cu.uSeq
    (if endQuiet c then
      let c1 := Cu.flushAll c
      .done (Cu.programEnded { c1 with seq := { c1.seq with state := .idle, loops := [] } })
     else .held)

/-- The die marshal has received a core's END report (R153). -/
def State.endReport (s : State) (k : Nat) : State :=
  match s.dispatchOf k with
  | none => s
  | some (p, _, d) => s.updPart p (fun x => { x with dispatches := x.dispatches.map (fun e => if e = d then { e with ended := true } else e) })

/-- END (R153). -/
def execTEnd (op : TileOp) (s : State) : Out :=
  .next (s.issueWith op false (fun t k =>
    match endCore (t.core k) op.w with
    | .done c => (t.setCore k c).endReport k
    | r => t.settleRes k (t.core k).seq.pc r))

/-- JMP (R159). -/
def execTJmp (op : TileOp) (s : State) : Out := .next (s.issue op Cu.jmp)

/-- BR (R159). -/
def execTBr (op : TileOp) (s : State) : Out := .next (s.issue op Cu.br)

/-- LOOP (R159, R160). -/
def execTLoop (op : TileOp) (s : State) : Out := .next (s.issue op Cu.loop)

/-- TRAP (R159, R182). -/
def execTTrap (op : TileOp) (s : State) : Out := .next (s.issue op Cu.trap)

/-- MOVI (R161). -/
def execTMovi (op : TileOp) (s : State) : Out := .next (s.issue op Cu.movi)

/-- ADD (R161). -/
def execTAdd (op : TileOp) (s : State) : Out := .next (s.issue op Cu.add)

/-- ADDI (R161). -/
def execTAddi (op : TileOp) (s : State) : Out := .next (s.issue op Cu.addi)

/-- SUB (R161). -/
def execTSub (op : TileOp) (s : State) : Out := .next (s.issue op Cu.sub)

/-- MUL (R161). -/
def execTMul (op : TileOp) (s : State) : Out := .next (s.issue op Cu.mul)

/-- AND (R161). -/
def execTAnd (op : TileOp) (s : State) : Out := .next (s.issue op Cu.and)

/-- OR (R161). -/
def execTOr (op : TileOp) (s : State) : Out := .next (s.issue op Cu.or)

/-- SHL (R161). -/
def execTShl (op : TileOp) (s : State) : Out := .next (s.issue op Cu.shl)

/-- SHR (R161). -/
def execTShr (op : TileOp) (s : State) : Out := .next (s.issue op Cu.shr)

/-- LDX (R157, R161). -/
def execTLdx (op : TileOp) (s : State) : Out := .next (s.issue op Cu.ldx)

/-- STX (R161). -/
def execTStx (op : TileOp) (s : State) : Out := .next (s.issue op Cu.stx)

/-- The word RDC reads as logical position (R162): zero for a core that holds no logical row of a partition. -/
def State.posWord (s : State) (k : Nat) : Nat :=
  match (s.partOfDie (k / 256)).bind (fun p => s.part p) with
  | none => 0
  | some x => match s.logicalPos x k with
    | none => 0
    | some q => q.1 * 256 + q.2.1 * 16 + q.2.2

/-- RDC (R161 to R163): core cycles since GO are a free value (notes/assumptions/2.md). -/
def execTRdc (op : TileOp) (s : State) : Out :=
  .next (s.issueWith op false (fun t k =>
    if Cu.modBits op.w 5 0 = 34 ∧ Cu.usesOnly op.w true false false false 0x3F#8 0 = true then
      t.takeFree.2.settleRes k (t.core k).seq.pc (Cu.rdc (t.posWord k) t.takeFree.1 (t.core k) op.w)
    else t.settleRes k (t.core k).seq.pc (Cu.rdc (t.posWord k) 0#32 (t.core k) op.w)))

/-! ### Array (R164, R165) -/

/-- LDS (R82, R84, R135, R164, R165). -/
def execTLds (op : TileOp) (s : State) : Out := .next (s.issue op Cu.lds)

/-- LOAD_READY (R82): the shadow copy is ready. -/
def execLoadReady (core : CorePos) (s : State) : Out := .next (s.onCore core (fun k => s.updCore k Cu.loadReady))

/-- SWP (R83, R85). -/
def execTSwp (op : TileOp) (s : State) : Out := .next (s.issue op Cu.swp)

/-- PASS (R74 to R85, R164, R165). -/
def execTPass (op : TileOp) (s : State) : Out := .next (s.issue op Cu.pass)

/-- TPASS (R88 to R90, R164, R165). -/
def execTTpass (op : TileOp) (s : State) : Out := .next (s.issue op Cu.tpass)

/-- The earliest pass in flight ends with its comparisons decided: it completes, or the first row with a mismatch stops the core,
the skips decided by then counted (R99, R100, R102). -/
def comparePass (c : Core) : Core :=
  match Cu.passMismatch c with
  | none => Cu.passComplete c
  | some (row, n) =>
    let d := Cu.countSkips c (Cu.skipsOfFirst c (row + 1))
    freeze { d with arr := { d.arr with csMismatch := Cu.sat12 d.arr.csMismatch n } }

/-- A residue error in a foot while the earliest pass runs (R101, R102). -/
def residueError (c : Core) (decided : Nat) : Core :=
  let d := Cu.countSkips c (Cu.skipsOfFirst c decided)
  freeze { d with arr := { d.arr with resMismatch := Cu.sat8 d.arr.resMismatch 1 } }

/-- Whether the earliest pass in flight reads accumulator memory (R81). -/
def passReads (c : Core) : Bool := (c.arr.flights.head?).any (fun f => f.acc != 0)

/-- The end of the earliest pass in flight, with what the core's checks report (R99 to R102, R110). -/
def endPass (c : Core) (chk : PassCheck) : Core :=
  match chk with
  | .ok => comparePass c
  | .eccCorrected => comparePass (if passReads c then countCorr c else c)
  | .eccUncorrectable => if passReads c then countUncorr c else comparePass c
  | .dataError row group sums => comparePass (Cu.wrongSums c row group sums)
  | .checkError row group => comparePass (Cu.wrongCheck c row group)
  | .residue decided => residueError c decided

/-- PASS_COMPLETE (R76, R81, R99 to R102, R110): the earliest pass in flight ends; a mismatch is counted and stops the core. -/
def execPassComplete (core : CorePos) (chk : PassCheck) (s : State) : Out :=
  .next (s.onCore core (fun k => s.updCore k (fun c => if c.arr.flights.isEmpty then c else endPass c chk)))

/-- ARRAY_RAMP_DOWN (R95). -/
def execArrayRampDown (core : CorePos) (s : State) : Out := .next (s.onCore core (fun k => s.updCore k Cu.rampDown))

/-- ARRAY_GATED (R95, R96). -/
def execArrayGated (core : CorePos) (s : State) : Out := .next (s.onCore core (fun k => s.updCore k Cu.gateArray))

/-! ### Accumulator, vector, special function and state units (R166 to R172) -/

/-- FLUSH (R125, R166). -/
def execTFlush (op : TileOp) (s : State) : Out := .next (s.issue op Cu.flush)

/-- ACLR (R166). -/
def execTAclr (op : TileOp) (s : State) : Out := .next (s.issue op Cu.aclr)

/-- VLD (R167). -/
def execTVld (op : TileOp) (s : State) : Out := .next (s.issue op Cu.vld)

/-- VST (R119, R167). -/
def execTVst (op : TileOp) (s : State) : Out := .next (s.issue op Cu.vst)

/-- GB_IDLE_FLUSH (R120): an entry not written for 64 core cycles is flushed. -/
def execGbIdleFlush (core : CorePos) (line : Nat) (s : State) : Out :=
  .next (s.onCore core (fun k => s.updCore k (fun c => Cu.flushWhere c (fun l => l == line))))

/-- VLDA (R167). -/
def execTVlda (op : TileOp) (s : State) : Out := .next (s.issue op Cu.vlda)

/-- VSTA (R167). -/
def execTVsta (op : TileOp) (s : State) : Out := .next (s.issue op Cu.vsta)

/-- VADD (R167). -/
def execTVadd (op : TileOp) (s : State) : Out := .next (s.issue op Cu.vadd)

/-- VSUB (R167). -/
def execTVsub (op : TileOp) (s : State) : Out := .next (s.issue op Cu.vsub)

/-- VMUL (R167). -/
def execTVmul (op : TileOp) (s : State) : Out := .next (s.issue op Cu.vmul)

/-- VFMA (R167). -/
def execTVfma (op : TileOp) (s : State) : Out := .next (s.issue op Cu.vfma)

/-- VMAX (R167). -/
def execTVmax (op : TileOp) (s : State) : Out := .next (s.issue op Cu.vmax)

/-- VMIN (R167). -/
def execTVmin (op : TileOp) (s : State) : Out := .next (s.issue op Cu.vmin)

/-- VCVT (R50, R167). -/
def execTVcvt (op : TileOp) (s : State) : Out := .next (s.issue op Cu.vcvt)

/-- VSPLIT (R93, R167). -/
def execTVsplit (op : TileOp) (s : State) : Out := .next (s.issue op Cu.vsplit)

/-- VRED (R168). -/
def execTVred (op : TileOp) (s : State) : Out := .next (s.issue op Cu.vred)

/-- QNT (R63 to R66, R169, R170). -/
def execTQnt (op : TileOp) (s : State) : Out := .next (s.issue op Cu.qnt)

/-- SFN (R171, R191 to R206). -/
def execTSfn (op : TileOp) (s : State) : Out := .next (s.issue op Cu.sfn)

/-- STBL (R171, R196 to R200). -/
def execTStbl (op : TileOp) (s : State) : Out := .next (s.issue op Cu.stbl)

/-- SMP (R171, R202, R203). -/
def execTSmp (op : TileOp) (s : State) : Out := .next (s.issue op Cu.smp)

/-- SROW (R171, R207, R208). -/
def execTSrow (op : TileOp) (s : State) : Out := .next (s.issue op Cu.srow)

/-- SSMX (R171, R211, R212). -/
def execTSsmx (op : TileOp) (s : State) : Out := .next (s.issue op Cu.ssmx)

/-- STLD (R172, R292). -/
def execTStld (op : TileOp) (s : State) : Out := .next (s.issue op Cu.stld)

/-- STST (R172). -/
def execTStst (op : TileOp) (s : State) : Out := .next (s.issue op Cu.stst)

/-- SSTEP (R172, R294, R295). -/
def execTSstep (op : TileOp) (s : State) : Out := .next (s.issue op Cu.sstep)

/-- SOUT (R172, R296). -/
def execTSout (op : TileOp) (s : State) : Out := .next (s.issue op Cu.sout)

/-! ### DMAQ (R132, R133, R173, R646) -/

/-- Queue a validated descriptor, or complete it at issue in a replay that has done it (R646). -/
def queueDesc (c : Core) (e : Nat) (d : Desc) : Core :=
  let c1 := if d.toExt then { c with run := { c.run with nDmaOut := c.run.nDmaOut + 1 } } else c
  if d.toExt && c.run.replay.active && c.run.replay.dmaDone.contains d.outNo then
    let c2 := (Cu.incSem c1 d.sem).updDma e (fun g => { g with done := g.done + 1 })
    { c2 with run := { c2.run with dmaDone := c2.run.dmaDone ++ [d.outNo] } }
  else c1.updDma e (fun g => { g with queue := g.queue ++ [d] })

/-- A descriptor's 64 bytes with its patches: queued, or DMA_DESC (R132, R173). -/
def queueBytes (c : Core) (w : TileWord) (e : Nat) (bs : List Byte) : Cu.Res :=
  match Cu.decodeDesc bs (Cu.x c w.f2).toNat (Cu.x c w.f3).toNat c.run.nDmaOut c.seq.pc with
  | none => .fault Cu.fDmaDesc (dmaUnit e) 0
  | some d => Cu.next (queueDesc c e d)

/-- DMAQ on its core (R173). A full queue holds it (R149). -/
def dmaq (c : Core) (w : TileWord) : Cu.Res :=
  let e := Cu.modBits w 0 0
  let spad := decide (Cu.modBits w 1 1 = 1)
  let off := Cu.ea c w.f1 (Cu.immBits w 21 0)
  let at_ := Cu.immBits w 12 0
  Cu.legal (if spad then Cu.usesOnly w true true true false 0x03#8 0x3FFFFF#32
      else Cu.usesOnly w false true true false 0x03#8 0x1FFF#32) (dmaUnit e)
    (if (c.dma e).queue.length ≥ 16 then .held
     else if spad then
      Cu.spadRange off 64 64 (dmaUnit e)
        (Cu.withAccess c off 64 (dmaUnit e)
          (let r := Cu.narrowReads c off 2
           queueBytes r.2 w e r.1))
     else if at_ % 8 ≠ 0 then .fault Cu.fDmaDesc (dmaUnit e) 0
     else queueBytes c w e ((SMap.getRange 0#64 c.mem.prog at_ 8).flatMap (fun d => leBytes 8 d.toNat)))

/-- DMAQ (R132, R133, R148, R173). -/
def execTDmaq (op : TileOp) (s : State) : Out :=
  .next (s.issueWith op false (fun t k =>
    let r := dmaq (t.core k) op.w
    let t1 := t.settleRes k (t.core k).seq.pc r
    match r with
    | .fault code _ _ =>
      if code = Cu.fDmaDesc then t1.updCore k (fun c => c.updDma (Cu.modBits op.w 0 0) (fun e => { e with lastFault := 1 })) else t1
    | .done _ | .held => t1))

/-! ### Neighbour ports (R126 to R131, R174, R646) -/

/-- A neighbour port of a core. -/
def Core.port (c : Core) (n : Nat) : NbPort := SMap.get NbPort.idle c.ports n

/-- Replace a neighbour port. -/
def Core.setPort (c : Core) (n : Nat) (x : NbPort) : Core := { c with ports := SMap.set NbPort.idle c.ports n x }

/-- A bit of NB_CTRL of the core at a key (R147): 8 E_SEL, 9 W_SEL, 10 PASS_THROUGH. -/
def State.nbBit (s : State) (k bit : Nat) : Bool := (s.core k).regs.nbCtrl.getLsbD bit

/-- The core that the E or W port of the core at a key reaches in an adjacent column (R129, R147): the one a row below where its
own selection says so, the one a row above where that core's facing selection says so, else the one in the same row (DEDUCED,
notes/assumptions/34.md). -/
def State.acrossTo (s : State) (k col own facing : Nat) : Nat :=
  let same := k / 256 * 256 + col * 32 + k % 32
  if s.nbBit k own then same + 1 else if 0 < k % 32 ∧ s.nbBit (same - 1) facing then same - 1 else same

/-- The core a port reaches (R128, R129); none at the die's edge. N and S ports pass through a core in pass-through. Ports are
0 N, 1 E, 2 S, 3 W. -/
def State.neighbour (s : State) (k port : Nat) : Option Nat :=
  let c := k / 32 % 8
  match logRow (s.gap (k / 256) c) (k % 32) with
  | none => none
  | some r =>
    if port = 0 then (if 0 < r then some (if s.nbBit (k - 1) 10 then k - 2 else k - 1) else none)
    else if port = 1 then (if c < 7 then some (s.acrossTo k (c + 1) 8 9) else none)
    else if port = 2 then (if r < 15 then some (if s.nbBit (k + 1) 10 then k + 2 else k + 1) else none)
    else (if 0 < c then some (s.acrossTo k (c - 1) 9 8) else none)

/-- The port of the receiving core that faces a port. -/
def facing (port : Nat) : Nat := (port + 2) % 4

/-- NB_CTRL.PORT_EN of a port (R147). -/
def portEnabled (c : Core) (port : Nat) : Bool := c.regs.nbCtrl.getLsbD (3 - port)

/-- NB_CTRL.FAST of a port (R147). -/
def portFast (c : Core) (port : Nat) : Bool := c.regs.nbCtrl.getLsbD (7 - port)

/-- Beats enter the receiver's queue while it has room (R126); an exchange whose last beat has entered is marked sent. -/
def State.pump (s : State) (k port : Nat) : State :=
  match s.neighbour k port with
  | none => s
  | some r =>
    let c := s.core k
    let q := facing port
    let room := 16 - ((s.core r).port q).inbound.length
    let go := (c.port port).outbound.take room
    let sent := (go.filter (fun b => b.last)).length
    let c1 := c.setPort port { (c.port port) with outbound := (c.port port).outbound.drop room }
    let snt := SMap.set 0#16 c1.seq.snt port (SMap.get 0#16 c1.seq.snt port + BitVec.ofNat 16 sent)
    let s1 := s.setCore k { c1 with seq := { c1.seq with snt := snt } }
    s1.updCore r (fun d => d.setPort q { (d.port q) with inbound := (d.port q).inbound ++ go })

/-- Beats of an exchange (R126, R174). -/
def beatsOf (src dst : Nat) (bs : List Byte) : List Beat :=
  if bs.isEmpty then [{ src := src, dst := dst, data := [], last := true, raced := false }]
  else
    let n := bs.length / 64
    (List.range n).map (fun i =>
      { src := src + 64 * i, dst := dst + 64 * i, data := (bs.drop (64 * i)).take 64, last := decide (i + 1 = n), raced := false })

/-- Whether a number stands at or below a counter, modulo 2^16. -/
def atOrBelow (n counter : BitVec 16) : Bool := decide ((counter - n).toNat < 2 ^ 15)

/-- NBX on its core (R174): `edge` tells that the port is unconnected, `arrived` is the receiver's arrival count. -/
def nbx (edge : Bool) (arrived : BitVec 16) (c : Core) (w : TileWord) : Cu.Res :=
  let port := Cu.modBits w 1 0
  let src := (Cu.x c w.f1).toNat
  let dst := (Cu.x c w.f2).toNat
  let len := (Cu.x c w.f3).toNat
  let n := SMap.get 0 c.run.nNbx port
  let no : BitVec 16 := SMap.get 0#16 c.run.sntAtGo port + BitVec.ofNat 16 (n + 1)
  Cu.legal (Cu.usesOnly w true true true false 0x03#8 0) Cu.uNb
    (if src % 64 ≠ 0 ∨ dst % 64 ≠ 0 ∨ len % 64 ≠ 0 ∨ 65536 < len ∨ Cu.spadBytes < src + len ∨ Cu.spadBytes < dst + len then
      .fault Cu.fNbAlign Cu.uNb 0
     else if edge || !portEnabled c port then .fault Cu.fNbEdge Cu.uNb 0
     else if 4 ≤ ((c.port port).outbound.filter (fun b => b.last)).length then .held
     else
      let c1 := { c with run := { c.run with nNbx := SMap.set 0 c.run.nNbx port (n + 1) } }
      if c.run.replay.active && atOrBelow no arrived then
        let snt := SMap.set 0#16 c1.seq.snt port (SMap.get 0#16 c1.seq.snt port + 1)
        Cu.next { c1 with seq := { c1.seq with snt := snt } }
      else Cu.withAccess c src len Cu.uNb
        (let r := Cu.wideRead c1 src len
         Cu.next (r.2.setPort port { (r.2.port port) with outbound := (r.2.port port).outbound ++ beatsOf src dst r.1 })))

/-- NBX (R126 to R128, R174, R646). -/
def execTNbx (op : TileOp) (s : State) : Out :=
  .next (s.issueWith op false (fun t k =>
    let port := Cu.modBits op.w 1 0
    let to_ := t.neighbour k port
    let arrived := match to_ with
      | none => 0#16
      | some r => SMap.get 0#16 (t.core r).seq.arv (facing port)
    match nbx to_.isNone arrived (t.core k) op.w with
    | .done c => (t.setCore k c).pump k port
    | r => t.settleRes k (t.core k).seq.pc r))

/-- The two column clocks of an E or W port lie within the fast path's ratio, from 3/4 to 4/3, at the highest and at the
lowest frequency that spread spectrum gives each (R131, R595, R606). Two modulated columns keep their ratio. -/
def State.ratioOk (s : State) (k port : Nat) : Bool :=
  let d := k / 256
  let c := k / 32 % 8
  let e := if port = 1 then c + 1 else if port = 3 then c - 1 else c
  let x := SMap.get DieClk.reset s.clk.dies d
  let a := s.colHz d c
  let b := s.colHz d e
  let within (a b : Nat) : Bool := decide (3 * b ≤ 4 * a ∧ 3 * a ≤ 4 * b)
  let low (f : Nat) (col : Nat) : Nat := if bitOf x.sscCols col then f * (400 - x.sscDepth) else f * 400
  if bitOf x.sscCols c = bitOf x.sscCols e then within a b
  else within a b && within (low a c) (low b e)

/-- A beat is written in the receiving core (R112, R126): it counts on the last beat of its exchange. -/
def takeBeat (c : Core) (port : Nat) (b : Beat) (rest : List Beat) (bs : List Byte) : Core :=
  let c1 := if bs.isEmpty then c else Cu.wideWrite c false b.dst bs
  let c2 := c1.setPort port { (c1.port port) with inbound := rest }
  if b.last then { c2 with seq := { c2.seq with arv := SMap.set 0#16 c2.seq.arv port (SMap.get 0#16 c2.seq.arv port + 1) } } else c2

/-- NB_BEAT_ARRIVAL (R112, R116, R126, R127, R130, R131, R653): the head of the port's inbound queue is written, unless its bank
is not on; a parity error is a core fault of the sender. A beat whose source was written before it was sent, or that came over a
fast path beyond its ratio, carries free values. -/
def execNbBeatArrival (core : CorePos) (port : Nat) (parityBad : Bool) (s : State) : Out :=
  .next (
    let k := CorePos.key core
    if !posOk core ∨ port ≥ 4 then s
    else
      let c := s.core k
      let from_ := s.neighbour k port
      match (c.port port).inbound with
      | [] => s
      | b :: rest =>
        if parityBad then
          let c1 := c.setPort port { (c.port port) with inbound := rest }
          let s1 := s.setCore k { c1 with
            regs := { c1.regs with nbParErr := Cu.sat8 c1.regs.nbParErr 1 }, run := { c1.run with hit := true } }
          match from_ with
          | none => s1
          | some f => s1.updCore f freeze
        else if Cu.access c b.dst b.data.length ≠ Cu.Access.ok then s
        else
          let bad := b.raced || (match from_ with
            | none => false
            | some f => portFast (s.core f) (facing port) && !s.ratioOk k port)
          let r := if bad then s.takeFrees (wordsFor b.data.length) else ([], s)
          let bs := if bad then (Cu.bytesOf r.1).take b.data.length else b.data
          let s1 := r.2.updCore k (fun d => takeBeat d port b rest bs)
          match from_ with
          | none => s1
          | some f => s1.pump f (facing port))

/-! ### Synchronization (R175 to R177) -/

/-- WAIT on its core (R175). -/
def wait (c : Core) (w : TileWord) : Cu.Res :=
  let i := Cu.modBits w 5 0
  let t := BitVec.ofNat 16 ((Cu.x c w.f2).toNat + Cu.immBits w 15 0)
  Cu.legal (Cu.usesOnly w false true false false 0x3F#8 0xFFFF#32 && decide (i ≤ 23)) Cu.uSeq
    (if atOrBelow t (Cu.counter c i) then Cu.next { c with seq := { c.seq with state := .running } }
     else .done { c with seq := { c.seq with state := .waiting } })

/-- WAIT (R127, R149, R175): it issues again until its counter meets the target. -/
def execTWait (op : TileOp) (s : State) : Out :=
  .next (s.issueWith op true (fun t k => t.settleRes k (t.core k).seq.pc (wait (t.core k) op.w)))

/-- CSET on its core (R175). -/
def cset (c : Core) (w : TileWord) : Cu.Res :=
  let i := Cu.modBits w 5 0
  let v := BitVec.ofNat 16 ((Cu.x c w.f2).toNat + Cu.immBits w 15 0)
  Cu.legal (Cu.usesOnly w false true false false 0x7F#8 0xFFFF#32 && decide (i ≤ 15)) Cu.uSeq
    (Cu.next (Cu.setSem c i (if Cu.modBits w 6 6 = 1 then SMap.get 0#16 c.seq.sem i + v else v)))

/-- CSET (R175, R176). -/
def execTCset (op : TileOp) (s : State) : Out := .next (s.issue op cset)

/-- Every earlier descriptor has completed (R175). -/
def dmaQuiet (c : Core) : Bool := c.dma0.queue.isEmpty && c.dma1.queue.isEmpty

/-- FENCE on its core (R120, R175). The units of V complete with their instructions in this model. -/
def fence (c : Core) (w : TileWord) : Cu.Res :=
  let g := decide (Cu.modBits w 0 0 = 1)
  let a := decide (Cu.modBits w 1 1 = 1)
  let d := decide (Cu.modBits w 3 3 = 1)
  Cu.legal (Cu.usesOnly w false false false false 0x0F#8 0) Cu.uSeq
    (if (a && !Cu.arrayEmpty c) || (d && !dmaQuiet c) then .held
     else Cu.next (if g then Cu.flushAll c else c))

/-- FENCE (R120, R175). -/
def execTFence (op : TileOp) (s : State) : Out := .next (s.issue op fence)

/-- BAR on its core (R175, R177): a generation already reached before a fault completes at once (R646). -/
def bar (c : Core) (w : TileWord) : Cu.Res :=
  let g := Cu.modBits w 2 0
  let n := SMap.get 0 c.run.barCount g + 1
  let counted (c : Core) : Core := { c with run := { c.run with barCount := SMap.set 0 c.run.barCount g n } }
  Cu.legal (Cu.usesOnly w false false false false 0x0F#8 0 && c.run.barGroups.contains g) Cu.uSeq
    (if Cu.modBits w 3 3 = 1 ∧ !dmaQuiet c then .done { c with seq := { c.seq with state := .waiting } }
     else if c.run.replay.active && decide (n ≤ c.run.replay.bars.getD g 0) then Cu.next (counted (Cu.flushAll c))
     else
      let c1 := counted (Cu.flushAll c)
      .done { c1 with seq := { c1.seq with state := .waiting, atBar := some g } })

/-- BAR (R120, R175, R177, R185): while its D holds it, it issues again. -/
def execTBar (op : TileOp) (s : State) : Out :=
  .next (s.issueWith op true (fun t k => t.settleRes k (t.core k).seq.pc (bar (t.core k) op.w)))

/-- A core that holds at a group goes on (R175). -/
def State.release (s : State) (g k : Nat) : State :=
  let c := s.core k
  if c.seq.atBar = some g ∧ !c.run.frozen then
    s.settleRes k c.seq.pc (Cu.next { c with seq := { c.seq with state := .running, atBar := none } })
  else s

/-- BAR_RELEASE (R177): every member whose generation all members have reached goes on. -/
def execBarRelease (part : Nat) (group : Nat) (s : State) : Out :=
  .next (
    match s.part part with
    | none => s
    | some x => match x.current.bind (fun c => (x.ctx c).bind (fun k => k.plan)) with
      | none => s
      | some pl =>
        let ks := (Plan.barMembers pl.image group).map (fun q => s.keyAt x q)
        let least := (ks.map (fun k => SMap.get 0 (s.core k).run.barCount group)).foldl min (2 ^ 64)
        (ks.filter (fun k => decide (SMap.get 0 (s.core k).run.barCount group ≤ least))).foldl (fun t k => t.release group k) s)

/-- EVT's encoding (R175). -/
def evtLegal (w : TileWord) : Bool := Cu.usesOnly w false true false false 0 0xFFFF#32

/-- The next instruction after an EVT, which is counted (R642). -/
def evtNext (c : Core) : Cu.Res := Cu.next { c with run := { c.run with nEvt := c.run.nEvt + 1 } }

/-- A post enters the die marshal's event queue; none where the queue is full, and the marshal then takes the oldest post
(R175; DESIGN CHOICE, notes/assumptions/33.md: the manual gives neither the depth nor when posts are taken). -/
def Die.post (d : Die) (e : Nat × Word × Nat) : Option Die :=
  if d.evtQueued ≤ Config.eventQueueMore then some { d with events := e :: d.events, evtQueued := d.evtQueued + 1 } else none

/-- The die marshal takes the oldest post of its queue. -/
def Die.takePost (d : Die) : Die := { d with evtQueued := d.evtQueued - 1 }

/-- EVT (R175, R387 to R391, R646): a post in the span range starts a span operation; any other enters the die marshal's event
queue, once per number of the dispatch, and stalls the issue while the queue is full. -/
def execTEvt (op : TileOp) (s : State) : Out :=
  .next (s.issueWith op false (fun t k =>
    let c := t.core k
    let tag := Cu.immBits op.w 15 0
    let val := Cu.x c op.w.f2
    if !evtLegal op.w then t.programFault k c.seq.pc Cu.fIllegal Cu.uSeq 0
    else if 0xF500 ≤ tag ∧ tag ≤ 0xF5FF then
      match t.spanIssue k tag val.toNat with
      | none => t
      | some t1 =>
        if (t.dispatchOf k).isSome && (t1.dispatchOf k).isNone then t1
        else t1.settleRes k c.seq.pc (evtNext (t1.core k))
    else
      if c.run.replay.active && decide (c.run.nEvt < c.run.replay.evtDone) then t.settleRes k c.seq.pc (evtNext c)
      else match (t.die (k / 256)).post (tag, val, t.posWord k) with
        | some d => (t.setDie (k / 256) d).settleRes k c.seq.pc (evtNext c)
        | none => t.updDie (k / 256) Die.takePost))

/-! ### Watchdog (R184, R647, R654) -/

/-- A recovery of the partition is in progress, or its requests are held: watchdogs do not count (R647, R655). -/
def State.watchdogsHeld (s : State) (k : Nat) : Bool :=
  match (s.partOfDie (k / 256)).bind (fun p => s.part p) with
  | none => false
  | some x => (s.partKeys x).any (fun q =>
      let c := s.core q
      c.run.frozen || c.dma0.held.isSome || c.dma1.held.isSome)

/-- After SEQ_HANG the core that was mapped out for the first expiry returns to service by a self-test, because the program
hung and not the core (R654). -/
def State.returnHung (s : State) (key : Option Nat) : State :=
  match key with
  | none => s
  | some k =>
    let c := k / 32 % 8
    let r := k % 32
    s.updDie (k / 256) (fun d =>
      let old := d.mapped.filter (fun m => m.1 == c && m.2.1 == r)
      let last := (old.map (fun m => m.2.2)).foldl max 0
      { d with
        retired := d.retired.filter (fun q => q != (c, r))
        testing := if d.retired.contains (c, r) then d.testing ++ [(c, r)] else d.testing
        mapped := d.mapped.filter (fun m => m != (c, r, last)) })

/-- WATCHDOG_EXPIRY (R184, R654): a core fault the first time, SEQ_HANG in the replay after one. -/
def execWatchdogExpiry (core : CorePos) (s : State) : Out :=
  .next (s.onCore core (fun k =>
    let c := s.core k
    if !(c.seq.state == .running || c.seq.state == .waiting) || s.watchdogsHeld k then s
    else if c.run.replay.active && c.run.replay.wdog then
      (s.programFault k c.seq.pc Cu.fSeqHang Cu.uSeq 0).returnHung c.run.replay.mapped
    else s.setCore k (freeze { c with run := { c.run with replay := { c.run.replay with wdog := true } } })))

/-! ### Core registers and power (R87, R103 to R118, R141 to R148, R152, R185 to R190, R686) -/

/-- CLR_RBW (R143, R311). -/
def execClrRbw (core : CorePos) (s : State) : Out := .next (if posOk core then s.updCore (CorePos.key core) Cu.clrRbw else s)

/-- CLR_WRITTEN (R87, R114, R143). -/
def execClrWritten (core : CorePos) (s : State) : Out := .next (if posOk core then s.updCore (CorePos.key core) Cu.clrWritten else s)

/-- ZERO_ALL (R87, R114, R118, R143, R292). -/
def execZeroAll (core : CorePos) (s : State) : Out := .next (if posOk core then s.updCore (CorePos.key core) Cu.zeroAll else s)

/-- ZEROING_DONE (R118). -/
def execZeroingDone (core : CorePos) (s : State) : Out := .next (if posOk core then s.updCore (CorePos.key core) Cu.zeroingDone else s)

/-- CLR_STAT (R142, R143). -/
def execClrStat (core : CorePos) (s : State) : Out := .next (if posOk core then s.updCore (CorePos.key core) Cu.clrStat else s)

/-- CLR_CHECK (R105). -/
def execClrCheck (core : CorePos) (s : State) : Out := .next (if posOk core then s.updCore (CorePos.key core) Cu.clrCheck else s)

/-- GO (R87, R152, R186, R196, R292, R642). -/
def execGo (core : CorePos) (val : Word) (s : State) : Out :=
  .next (s.onCore core (fun k => if val.getLsbD 31 then s.updCore k (fun c => Cu.go c (bitsOf val.toNat 12 0)) else s))

/-- BANK_PWR_WRITE (R116, R117, R144). -/
def execBankPwrWrite (core : CorePos) (val : Word) (s : State) : Out :=
  .next (if posOk core then s.updCore (CorePos.key core) (fun c => Cu.writeBankPwr c (val.extractLsb' 0 16)) else s)

/-- BANK_WAKE_END (R116). -/
def execBankWakeEnd (core : CorePos) (bank : Nat) (s : State) : Out :=
  .next (if posOk core && decide (bank < 16) then s.updCore (CorePos.key core) (fun c => Cu.wakeEnd c bank) else s)

/-- BANK_SCRUB_END (R114, R116): the bank is ON, and span operations held for it go on. -/
def execBankScrubEnd (core : CorePos) (bank : Nat) (s : State) : Out :=
  .next (if posOk core && decide (bank < 16) then (s.updCore (CorePos.key core) (fun c => Cu.scrubEnd c bank)).drainInboxes else s)

/-- BANK_POWER_OFF (R114, R117, R120). -/
def execBankPowerOff (core : CorePos) (bank : Nat) (s : State) : Out :=
  .next (if posOk core && decide (bank < 16) then s.updCore (CorePos.key core) (fun c => Cu.bankPowerOff c bank) else s)

/-- Whether the DEBUG port holds a level (R538): open in MANUFACTURE; by a session in PROVISIONED and RETURNED. -/
def State.debugOpen (s : State) (level : Nat) : Bool :=
  s.lcState == 1 || ((s.lcState == 2 || s.lcState == 4) && (match s.sec.debugSession with
    | none => false
    | some d => decide (level ≤ d.1)))

/-- CORE_RESET (R538, R680, R686): the die marshal resets a core that holds no logical row; a DEBUG reset, at level 4, of a core in service is a core
fault of that core. -/
def execCoreReset (core : CorePos) (s : State) : Out :=
  .next (
    let k := CorePos.key core
    if !posOk core then s
    else if logRow (s.gap core.die core.col) core.row = none then s.updCore k Cu.coreReset
    else if s.debugOpen 4 then s.updCore k freeze
    else s)

end Sys2Proof.Machine
end

