-- ==== Sys2Proof/Machine/HostRegs.lean ====
section
/-! DEFINITION. The host's register writes (R15 to R17, R34 to R41), the rings and their doorbells (R405 to R422, R425 to
R432), and the aperture (R40). -/

namespace Sys2Proof.Machine

/-- GLB_STATUS.READY (R36, R38). -/
def State.up (s : State) : Bool := s.start.phase == .ready

/-- Every byte set. -/
def allOnes (n : Nat) : List Byte := List.replicate n 0xFF#8

/-! ### Accesses that are discarded -/

/-- BAR0_BAD_ACCESS (R17): a write is discarded, a read of len bytes returns all ones, and the access is recorded. -/
def execBar0BadAccess (write : Bool) (len : Nat) (s : State) : Out :=
  .next (
    let s1 := s.event 0x0101
    if write then s1 else s1.answer (allOnes len))

/-- A write to the mirror of a partition's queue block (R35). -/
def State.mirrorHit (s : State) (part : Nat) : State :=
  if s.up && s.host.sriov then s.record { EventRec.plain 0x0102 with part := part } else s

/-- MIRROR_WRITE (R35). -/
def execMirrorWrite (part : Nat) (s : State) : Out := .next (s.mirrorHit part)

/-! ### Rings (R412, R413, R418 to R420) -/

/-- Bytes of a ring fit below the limit of R33. -/
def ringBelow (base : BitVec 48) (elem log2 : Nat) : Bool := decide (base.toNat + elem * 2 ^ log2 ≤ 0xF00000000000)

/-- Checks 3 and 4 of R418. -/
def State.ringPlace (s : State) (b : Nat) (loc : Bool) : Bool :=
  match partOfBlock b with
  | none => !loc
  | some p => !(loc && (s.host.sriov || s.confidential p)) && (s.part p).isSome

/-- A write of ENABLE = 1 to a submission ring (R418, R419). -/
def State.sqEnable (s : State) (b r : Nat) (val : Word) : State :=
  let q := (s.ring b r).sq
  let size := bitsOf val.toNat 20 16
  let loc := val.getLsbD 30
  if q.state ≠ .disabled then s
  else if decide (7 ≤ size ∧ size ≤ 16) && (loc || ringBelow q.base 64 size) && s.ringPlace b loc && decide ((s.ring b r).cq.state = .enabled) then
    s.updSq b r (fun x => { x with
      loc := loc, sizeLog2 := BitVec.ofNat 5 size, cfgErr := false, state := .enabled, head := 0, tail := 0, expectSeq := 0 })
  else s.updSq b r (fun x => { x with cfgErr := true })

/-- A write of ENABLE = 0 to a submission ring (R420). -/
def State.sqDisable (s : State) (b r : Nat) : State :=
  let q := (s.ring b r).sq
  if q.state = .enabled ∨ q.state = .error then
    ((s.updSq b r (fun x => { x with state := .draining })).sqDrained b r).settle
  else s

/-- A write of ENABLE = 1 to a completion ring (R413, R418, R419). IRQ_EN and VECTOR are stored whatever the state. -/
def State.cqEnable (s : State) (b r : Nat) (val : Word) : State :=
  let q := (s.ring b r).cq
  let size := bitsOf val.toNat 20 16
  let loc := val.getLsbD 30
  let irq (x : CqRegs) : CqRegs := { x with irqEn := val.getLsbD 3, vector := val.extractLsb' 0 3 }
  if q.state ≠ .disabled then s.updCq b r irq
  else if decide (6 ≤ size ∧ size ≤ 16) && (loc || ringBelow q.base 32 size) && s.ringPlace b loc then
    s.updCq b r (fun x => { irq x with
      loc := loc, sizeLog2 := BitVec.ofNat 5 size, cfgErr := false, state := .enabled, head := 0, tail := 0, phase := true,
      pendingIrq := 0, held := [] })
  else s.updCq b r (fun x => { x with cfgErr := true })

/-- A write of ENABLE = 0 to a completion ring (R419, R432): discarded while its submission ring is not DISABLED; held
records are discarded, and with them the commands that waited for them. -/
def State.cqDisable (s : State) (b r : Nat) : State :=
  let g := s.ring b r
  if g.sq.state ≠ .disabled ∨ g.cq.state = .disabled then s
  else
    let s1 := g.cq.held.foldl (fun t h => match h.cmd with
      | none => t
      | some id => t.dropCmd { block := b, id := id }) s
    (s1.updCq b r (fun x => { x with state := .disabled, held := [] })).settle

/-- SQ_ENABLE (R418). -/
def execSqEnable (blk : Nat) (ring : Nat) (val : Word) (s : State) : Out :=
  .next (if s.up ∧ blk < 9 ∧ ring < 4 then s.sqEnable blk ring val else s)

/-- SQ_DISABLE (R420). -/
def execSqDisable (blk : Nat) (ring : Nat) (s : State) : Out :=
  .next (if s.up ∧ blk < 9 ∧ ring < 4 then s.sqDisable blk ring else s)

/-- CQ_ENABLE (R418). -/
def execCqEnable (blk : Nat) (ring : Nat) (val : Word) (s : State) : Out :=
  .next (if s.up ∧ blk < 9 ∧ ring < 4 then s.cqEnable blk ring val else s)

/-- CQ_DISABLE (R419). -/
def execCqDisable (blk : Nat) (ring : Nat) (s : State) : Out :=
  .next (if s.up ∧ blk < 9 ∧ ring < 4 then s.cqDisable blk ring else s)

/-- A doorbell write is discarded and counted (R426). -/
def State.doorbellErr (s : State) (b r : Nat) : State :=
  s.updSq b r (fun x => { x with doorbellErr := BitVec.ofNat 8 (min (x.doorbellErr.toNat + 1) 0xFF) })

/-- A write of SQ_TAIL (R414, R426). -/
def State.sqTail (s : State) (b r : Nat) (val : Word) : State :=
  let i := bitsOf val.toNat 15 0
  if 2 ^ (s.ring b r).sq.sizeLog2.toNat ≤ i then s.doorbellErr b r else s.updSq b r (fun x => { x with tail := BitVec.ofNat 16 i })

/-- Whether an index passes CQ_TAIL, counted from CQ_HEAD around the ring. -/
def CqRegs.passes (q : CqRegs) (i : Nat) : Bool :=
  let n := 2 ^ q.sizeLog2.toNat
  decide ((q.tail.toNat + n - q.head.toNat) % n < (i + n - q.head.toNat) % n)

/-- A write of CQ_HEAD (R414, R426). -/
def State.cqHead (s : State) (b r : Nat) (val : Word) : State :=
  let i := bitsOf val.toNat 15 0
  let q := (s.ring b r).cq
  if 2 ^ q.sizeLog2.toNat ≤ i ∨ q.passes i = true then s.doorbellErr b r
  else s.updCq b r (fun x => { x with head := BitVec.ofNat 16 i })

/-- Bytes the host stores in its memory. -/
def State.hostStores (s : State) (ws : List HostWrite) : State :=
  ws.foldl (fun t w => { t with mem := { t.mem with hostMem := Memory.write t.mem.hostMem w.addr w.data } }) s

/-- Take [lo, hi) out of a refused range. -/
def cutRefused (lo hi : Nat) (r : Nat × Nat) : List (Nat × Nat) :=
  (if r.1 < min r.2 lo then [(r.1, min r.2 lo)] else []) ++ (if max r.1 hi < r.2 then [(max r.1 hi, r.2)] else [])

/-- What the host's IOMMU refuses to a requester (R33), after a change. -/
def State.hostGrant (s : State) (g : HostGrant) : State :=
  if g.swap then
    let rest := s.mem.swapRefused.filter (fun f => f != g.fn)
    { s with mem := { s.mem with swapRefused := if g.refuse then g.fn :: rest else rest } }
  else
    let rest := s.mem.hostRefused.flatMap (fun r =>
      if r.1 = g.fn then (cutRefused g.base (g.base + g.size) r.2).map (fun q => (g.fn, q)) else [r])
    { s with mem := { s.mem with hostRefused := if g.refuse ∧ 0 < g.size then (g.fn, g.base, g.base + g.size) :: rest else rest } }

/-- SQ_TAIL_WRITE (R33, R414, R426): the host's slots and what its IOMMU grants, then the doorbell. -/
def execSqTailWrite (blk : Nat) (ring : Nat) (val : Word) (mem : List HostWrite) (iommu : List HostGrant) (s : State) : Out :=
  .next (
    let s1 := iommu.foldl State.hostGrant (s.hostStores mem)
    if s.up ∧ blk < 9 ∧ ring < 4 then s1.sqTail blk ring val else s1)

/-- CQ_HEAD_WRITE (R414, R426). -/
def execCqHeadWrite (blk : Nat) (ring : Nat) (val : Word) (s : State) : Out :=
  .next (if s.up ∧ blk < 9 ∧ ring < 4 then s.cqHead blk ring val else s)

/-- CLR_COUNTS of a queue block (R408). -/
def State.clrCounts (s : State) (b : Nat) : State :=
  (List.range 4).foldl (fun t r => t.updSq b r (fun x => { x with doorbellErr := 0 })) (s.updBlock b (fun q => { q with denied := 0 }))

/-- CLR_COUNTS (R408). -/
def execClrCounts (blk : Nat) (s : State) : Out := .next (if s.up ∧ blk < 9 then s.clrCounts blk else s)

/-! ### Registers of the Steward, the time base and the clocks -/

/-- A Steward-only reset of a running Steward begins (R591): the cause and RESETTING are latched, the Steward stops, sessions end, the one
command of MGMT and of DEBUG gets no response, and ADMIN commands before their point of effect restart their checks. -/
def State.stewardReset (s : State) (cause : Nat) : State :=
  if s.stw.resetting ∨ !s.stw.running then s
  else
    let s1 := { s with
      stw := { s.stw with
        running := false
        resetting := true
        resets := BitVec.ofNat 8 (min (s.stw.resets.toNat + 1) 0xFF)
        lastCause := cause }
      sec := { s.sec with sessions := [], debugSession := none } }
    let s2 := (s1.updBlock 9 (fun q => { q with cmds := [] })).updBlock 10 (fun q => { q with cmds := [] })
    s2.updBlock 0 (fun q => { q with cmds := q.cmds.map (fun k => if k.phase = .waiting then { k with phase := .copied } else k) })

/-- STW_RESET (R570, R591): ignored before READY (R689). -/
def execStwReset (s : State) : Out := .next (if s.up then s.stewardReset 0 else s)

/-- CLR_LOST of STW_CTRL (R570). -/
def State.clrLost (s : State) : State := { s with stw := { s.stw with evtLost := 0 } }

/-- CLR_LOST (R570). -/
def execClrLost (s : State) : Out := .next s.clrLost

/-- A write of EVT_CONS (R571). -/
def State.evtCons (s : State) (val : Word) : State :=
  let cons := s.stw.evtCons
  if (BitVec.ofNat 32 s.stw.nextSeq - cons).toNat < (val - cons).toNat then s
  else { s with stw := { s.stw with evtCons := val } }

/-- EVT_CONS_WRITE (R571). -/
def execEvtConsWrite (val : Word) (s : State) : Out := .next (if s.up then s.evtCons val else s)

/-- TIMEBASE_LO_READ (R505): the low half is returned and the high half latched. -/
def execTimebaseLoRead (dt : Nat) (s : State) : Out :=
  .next (
    let s1 := s.tick dt
    if s1.up then
      ({ s1 with host := { s1.host with timeHiLatch := BitVec.ofNat 32 (s1.tb.now / 2 ^ 32) } }).answer (leBytes 4 s1.tb.now)
    else s1.answer (leBytes 4 0))

/-- Clear TSYNC_STAT.STEPPED. -/
def State.clrStepped (s : State) : State := { s with tb := { s.tb with stepped := false } }

/-- STEPPED_CLEAR (R507). -/
def execSteppedClear (s : State) : Out := .next (if s.up then s.clrStepped else s)

/-- Clear TRIP_STAT.TRIPPED. -/
def State.clrTripped (s : State) : State := { s with pwr := { s.pwr with tripped := false } }

/-- TRIPPED_CLEAR (R638); TRIP_STAT answers before READY (R36). -/
def execTrippedClear (s : State) : Out := .next s.clrTripped

/-- A write of CLKOUT_CTRL0 or CLKOUT_CTRL1 (R610): reserved values discard the write. -/
def State.clkoutWrite (s : State) (n : Nat) (val : Word) : State :=
  let v := val.toNat
  if 4 ≤ bitsOf v 30 28 ∨ 9 ≤ bitsOf v 26 23 ∨ 0x22 ≤ bitsOf v 22 17 then s
  else
    let w := val &&& 0xFFFE0000#32
    if n = 0 then { s with clk := { s.clk with clkout0 := w } }
    else if n = 1 then { s with clk := { s.clk with clkout1 := w } }
    else s

/-- CLKOUT_CTRL_WRITE (R608, R610). -/
def execClkoutCtrlWrite (n : Nat) (val : Word) (s : State) : Out := .next (if s.up then s.clkoutWrite n val else s)

/-! ### REG_WRITE (R15, R16) -/

/-- A write of a base register of a ring that is not DISABLED is discarded (R419). -/
def setBaseLo (b : BitVec 48) (val : Word) : BitVec 48 := (b &&& 0xFFFF00000000#48) ||| ((val &&& 0xFFFFF000#32).setWidth 48)
def setBaseHi (b : BitVec 48) (val : Word) : BitVec 48 :=
  (b &&& 0xFFFFFFFF#48) ||| (((val &&& 0xFFFF#32).setWidth 48) <<< 32)

/-- A write of a register of a ring pair, at its offset within the pair (R405). -/
def State.ringWrite (s : State) (b r o : Nat) (val : Word) : State :=
  let g := s.ring b r
  let sqOff := decide (g.sq.state = .disabled)
  let cqOff := decide (g.cq.state = .disabled)
  let size := val.extractLsb' 16 5
  if o = 0x00 then (if sqOff then s.updSq b r (fun x => { x with base := setBaseLo x.base val }) else s)
  else if o = 0x04 then (if sqOff then s.updSq b r (fun x => { x with base := setBaseHi x.base val }) else s)
  else if o = 0x08 then
    if val.getLsbD 31 then s.sqEnable b r val
    else if sqOff then s.updSq b r (fun x => { x with loc := val.getLsbD 30, sizeLog2 := size })
    else s.sqDisable b r
  else if o = 0x0C then s.sqTail b r val
  else if o = 0x18 then (if cqOff then s.updCq b r (fun x => { x with base := setBaseLo x.base val }) else s)
  else if o = 0x1C then (if cqOff then s.updCq b r (fun x => { x with base := setBaseHi x.base val }) else s)
  else if o = 0x20 then
    let irq (t : State) : State := t.updCq b r (fun x => { x with irqEn := val.getLsbD 3, vector := val.extractLsb' 0 3 })
    if val.getLsbD 31 then s.cqEnable b r val
    else if cqOff then (irq s).updCq b r (fun x => { x with loc := val.getLsbD 30, sizeLog2 := size })
    else if sqOff then (irq s).cqDisable b r
    else s
  else if o = 0x24 then s.cqHead b r val
  else if o = 0x2C then s.updCq b r (fun x => { x with delay := val.extractLsb' 16 16, count := val.extractLsb' 0 16 })
  else s

/-- A write of a register of a queue block, at its offset within the block (R405, R408, R409). -/
def State.blockWrite (s : State) (b o : Nat) (val : Word) : State :=
  if o = 0x8 then (if val.getLsbD 31 then s.clrCounts b else s)
  else if o = 0xC then s.updBlock b (fun q => { q with defTimeout := val })
  else if 0x100 ≤ o ∧ o < 0x200 then s.ringWrite b ((o - 0x100) / 0x40) ((o - 0x100) % 0x40) val
  else s

/-- A write of STW_CTRL (R570). -/
def State.stwCtrl (s : State) (val : Word) : State :=
  let s1 := if val.getLsbD 30 then s.clrLost else s
  if val.getLsbD 31 ∧ s.up then s1.stewardReset 0 else s1

/-- Words of a function's MSI-X table: 80 entries of PF0, eight of a VF (R431), four words each (notes/assumptions/25.md). -/
def msixWords (fn : Nat) : Nat := if fn = 0 then 320 else 32

/-- Offset of a function's MSI-X table in its BAR0 (R34, R41). -/
def msixBase (fn : Nat) : Nat := if fn = 0 then 0x20000 else 0x1000

/-- A BAR0 offset lies in the function's MSI-X table. -/
def inMsix (fn o : Nat) : Bool := decide (msixBase fn ≤ o ∧ o < msixBase fn + 4 * msixWords fn)

/-- A write of a word of a function's MSI-X table: the word is stored (R34, R41; notes/assumptions/25.md). -/
def State.msixWrite (s : State) (fn o : Nat) (val : Word) : State :=
  { s with host := { s.host with msixTable := SMap.set 0#32 s.host.msixTable (fn * 1024 + (o - msixBase fn) / 4) val } }

/-- A write of a PF0 register after READY (R34, R39, R506, R507, R568, R572, R610, R638); an offset with no writable field
discards it. -/
def State.pfWrite (s : State) (o : Nat) (val : Word) : State :=
  if o = 0x1008 then { s with host := { s.host with apertureBase := val.extractLsb' 0 9 } }
  else if o = 0x1018 then { s with tb := { s.tb with ctrlEn := val.getLsbD 31, periodMs := val.extractLsb' 0 10 } }
  else if o = 0x101C then (if val.getLsbD 29 then s.clrStepped else s)
  else if o = 0x1034 then s.clkoutWrite 0 val
  else if o = 0x1038 then s.clkoutWrite 1 val
  else if o = 0x200C then s.evtCons val
  else if o = 0x2010 then { s with stw := { s.stw with irqEn := val.getLsbD 31, minSev := val.extractLsb' 16 3 } }
  else if 0x8000 ≤ o ∧ o < 0x9000 then s.blockWrite 0 (o - 0x8000) val
  else if 0x10000 ≤ o ∧ o < 0x18000 then
    let p := (o - 0x10000) / 0x1000
    if s.host.sriov then s.mirrorHit p else s.blockWrite (1 + p) ((o - 0x10000) % 0x1000) val
  else if inMsix 0 o then s.msixWrite 0 o val
  else s

/-- A write of a BAR0 register of a function (R34, R36, R41). -/
def State.bar0Write (s : State) (fn o : Nat) (val : Word) : State :=
  if fn = 0 ∧ o = 0x2004 then s.stwCtrl val
  else if fn = 0 ∧ o = 0x1050 then (if val.getLsbD 31 then s.clrTripped else s)
  else if !s.up then s
  else if fn = 0 then s.pfWrite o val
  else if s.host.sriov ∧ fn ≤ 8 ∧ o < 0x1000 then s.blockWrite fn o val
  else if s.host.sriov ∧ fn ≤ 8 ∧ inMsix fn o then s.msixWrite fn o val
  else s

/-- A write of a word of program memory, by half (R30, R151); discarded while the sequencer runs. -/
def progWrite (c : Core) (o : Nat) (val : Word) : Core :=
  if c.seq.state = .running ∨ c.seq.state = .waiting then c
  else
    let a := o / 8
    let w := SMap.get 0#64 c.mem.prog a
    let v : Dword := if o % 8 = 0 then (w &&& 0xFFFFFFFF00000000#64) ||| val.setWidth 64 else (w &&& 0xFFFFFFFF#64) ||| (val.setWidth 64 <<< 32)
    { c with mem := { c.mem with prog := SMap.set 0#64 c.mem.prog a v } }

/-- A write of CORE_CTRL (R143). -/
def coreCtrl (c : Core) (val : Word) : Core :=
  let c1 := if val.getLsbD 31 then Cu.clrRbw c else c
  let c2 := if val.getLsbD 30 then Cu.clrWritten c1 else c1
  let c3 := if val.getLsbD 29 then Cu.zeroAll c2 else c2
  if val.getLsbD 28 then Cu.clrStat c3 else c3

/-- A write of a core register, at its offset in the register block (R105, R143, R144, R147, R186, R187, R190). -/
def coreRegWrite (c : Core) (o : Nat) (val : Word) : Core :=
  if o = 0x008 then coreCtrl c val
  else if o = 0x010 then Cu.writeBankPwr c (val.extractLsb' 0 16)
  else if o = 0x030 then { c with regs := { c.regs with nbCtrl := val.extractLsb' 0 11 } }
  else if o = 0x108 then
    let c1 := if val.getLsbD 31 then Cu.clrCheck c else c
    { c1 with arr := { c1.arr with idleHold := val.extractLsb' 0 12 } }
  else if o = 0x204 then (if val.getLsbD 31 then Cu.go c (bitsOf val.toNat 12 0) else c)
  else if o = 0x208 then { c with seq := { c.seq with wdog := val } }
  else if 0x244 ≤ o ∧ o ≤ 0x27C ∧ o % 4 = 0 then Cu.setArg c ((o - 0x240) / 4) val
  else c

/-- A write at an offset of a core's slot: program memory or registers. -/
def coreSlotWrite (c : Core) (o : Nat) (val : Word) : Core :=
  if 0x450000 ≤ o ∧ o < 0x460000 then progWrite c (o - 0x450000) val
  else if 0x460000 ≤ o ∧ o < 0x461000 then coreRegWrite c (o - 0x460000) val
  else c

/-- REG_WRITE (R15, R16, R28, R34, R36, R41, R206, R405): RW fields store, RO and reserved fields ignore, and offsets without a
register discard the value. A write of control space changes nothing and raises a Steward event: what the manual gives there is
the ROM window, and all else is unassigned (DESIGN CHOICE for its code, notes/assumptions/2.md). -/
def execRegWrite (at_ : RegAddr) (val : Word) (s : State) : Out :=
  .next (match at_ with
    | .bar0 fn off => if off % 4 = 0 then s.bar0Write fn off val else s
    | .core pos off => if posOk pos ∧ off % 4 = 0 then s.updCore (CorePos.key pos) (fun c => coreSlotWrite c off val) else s
    | .control addr => if s.up then s.record { EventRec.plain Config.controlRefusalCode with addr := addr } else s)

/-! ### The aperture (R40) -/

/-- DRAM address of BAR2 offset 0 (R39). -/
def State.apertureAddr (s : State) : Nat :=
  let g := 2 ^ (s.host.barLog2 - 30)
  s.host.apertureBase.toNat / g * g * 2 ^ 30

/-- What an address of the aperture reaches. -/
inductive ApPlace where
  | beyond
  | refused (logged : Bool) (part : Nat)
  | none
  | cell (stack chan codeword : Nat)
  deriving DecidableEq, Repr

/-- Firmware regions the aperture does not reach: plan areas (R239), KV control areas (R254), weight staging (R548), save
areas (R29, R464). -/
def FwKind.hidden : FwKind → Bool
  | .plan | .kvControl | .weights | .save => true
  | .pool | .live | .experts | .decode | .qstat | .capture => false

/-- The place of a DRAM address of the aperture. -/
def State.apPlace (s : State) (a : Nat) : ApPlace :=
  if 0x6000000000 ≤ a then .beyond
  else match s.sliceOwner a with
    | Option.none => .none
    | some p => match s.part p with
      | Option.none => .none
      | some x =>
        if x.confidential then .refused true p
        else match x.fw.find? (fun f => decide (f.base ≤ a ∧ a < f.base + f.size)) with
          | some f =>
            if f.kind.hidden then .refused false p
            else
              let q := locate x.chans f.backing a
              .cell q.1 q.2.1 (q.2.2 / 64)
          | Option.none => match x.every.find? (fun r => decide (r.base ≤ a ∧ a < r.base + r.size)) with
            | Option.none => .none
            | some r =>
              let q := locate x.chans r a
              .cell q.1 q.2.1 (q.2.2 / 64)

/-- A refusal by confidentiality is logged; the manual gives it no code (notes/assumptions/15.md). -/
def State.logRefusal (s : State) (p a : Nat) : State := s.record { EventRec.plain 0x0103 with part := p, addr := a }

/-- Cut [a, a + n) at codeword boundaries. -/
def cutCodewords : Nat → Nat → Nat → List (Nat × Nat)
  | 0, _, _ => []
  | fuel + 1, a, n =>
    if n = 0 then []
    else
      let k := min n (64 - a % 64)
      (a, k) :: cutCodewords fuel (a + k) (n - k)

/-- Read one piece of a codeword. Memory that no region backs holds a free value (notes/assumptions/2.md). -/
def State.apRead (s : State) (a n : Nat) : List Byte × State :=
  match s.apPlace a with
  | .beyond => (allOnes n, s)
  | .refused logged p => (allOnes n, if logged then s.logRefusal p a else s)
  | .none =>
    let (ws, s1) := s.takeFrees ((n + 3) / 4)
    ((Cu.bytesOf ws).take n, s1)
  | .cell st ch k =>
    match s.readCodeword st ch k with
    | (.delivered, s1) => (Memory.read s1.mem.dram a n, s1)
    | (.lost _, s1) => (allOnes n, s1)

/-- Read the pieces of an access. -/
def State.apReads (s : State) : List (Nat × Nat) → List Byte × State
  | [] => ([], s)
  | (a, n) :: ps =>
    let (bs, s1) := s.apRead a n
    let (rest, s2) := s1.apReads ps
    (bs ++ rest, s2)

/-- APERTURE_READ (R40, R334). Before READY, which R36 rules for BAR0 only, it has no effect and gives no answer (DESIGN CHOICE,
notes/assumptions/15.md). -/
def execApertureRead (off : Nat) (len : Nat) (errs : List DramErr) (s : State) : Out :=
  .next (
    if !s.up ∨ 2 ^ s.host.barLog2 < off + len then s
    else
      let (bs, s1) := (s.strike errs).apReads (cutCodewords (len + 1) (s.apertureAddr + off) len)
      s1.answer bs)

/-- Write one piece of a codeword. A write to memory that no region backs is discarded (DESIGN CHOICE,
notes/assumptions/15.md). -/
def State.apWrite (s : State) (a : Nat) (bs : List Byte) : State :=
  match s.apPlace a with
  | .beyond | .none => s
  | .refused logged p => if logged then s.logRefusal p a else s
  | .cell st ch k =>
    match s.mergeCodeword st ch k (decide (bs.length = 64)) with
    | (true, t) => State.spoil { t with mem := { t.mem with dram := Memory.write t.mem.dram a bs } } a bs.length
    | (false, t) => t

/-- APERTURE_WRITE (R40, R334). -/
def execApertureWrite (off : Nat) (data : List Byte) (s : State) : Out :=
  .next (
    if !s.up ∨ 2 ^ s.host.barLog2 < off + data.length then s
    else
      let a := s.apertureAddr + off
      (cutCodewords (data.length + 1) a data.length).foldl (fun t p => t.apWrite p.1 ((data.drop (p.1 - a)).take p.2)) s)

/-! ### Fetching (R421, R422, R425, R427, R433, R434) -/

/-- Read one slot of a submission ring. -/
def State.slotRead (s : State) (b : Nat) (q : SqRegs) (i : Nat) : Eng (List Byte) :=
  let a := q.base.toNat + 64 * (i % 2 ^ q.sizeLog2.toNat)
  if q.loc then
    if 0x6000000000 ≤ a then .bad stAddrFault a s
    else s.readEng { part := partOfBlock b, ctx := none } a 64
  else if s.hostRefuses (({ part := partOfBlock b, ctx := none } : Who).requester) a 64 then .bad stAddrFault (hostBase + a + 2 ^ 55) s
  else .ok (Memory.read s.mem.hostMem a 64) s

/-- Slots of a packet by its header; one where PARAM_LEN is out of range (R421, R422). -/
def slotsOf (hdr : List Byte) : Nat :=
  let n := field hdr 4 2
  if n ≤ 4096 then 1 + (n + 63) / 64 else 1

/-- Slots that wait in a ring. -/
def SqRegs.avail (q : SqRegs) : Nat :=
  let n := 2 ^ q.sizeLog2.toNat
  (q.tail.toNat + n - q.head.toNat) % n

/-- Whether a ring has a packet to fetch, or a refused slot to report (R425). -/
def State.ringDue (s : State) (b r : Nat) : Bool :=
  let q := (s.ring b r).sq
  if q.state ≠ .enabled ∨ q.avail = 0 then false
  else match s.slotRead b q q.head.toNat with
    | .ok hdr _ => decide (slotsOf hdr ≤ q.avail)
    | .bad _ _ _ => true
    | .wait => false

/-- The ring whose turn it is: the first due ring from the block's turn on (R434). -/
def State.turnRing (s : State) (b : Nat) : Option Nat :=
  ((List.range 4).map (fun i => ((s.block b).turn + i) % 4)).find? (fun r => s.ringDue b r)

/-- A refused slot fetch (R427). -/
def State.fetchFault (s : State) (b r status detail : Nat) : State :=
  let q := (s.ring b r).sq
  let bs := recordBytes 0xFFFFFFFF status r detail 0 0 0 q.head.toNat (q.expectSeq.toNat % 65536)
  (s.updSq b r (fun x => { x with state := .error })).deliver b r { cmd := none, bytes := bs, noIrq := false }

/-- A command as it is copied. -/
def Cmd.copied (id ring : Nat) (packet : List Byte) (head : BitVec 16) : Cmd :=
  { id := id, ring := ring, packet := packet, sqHead := head, phase := .copied, startAt := none, accepted := false, granules := 0,
    recov := Recov.none, flashUnwritten := false, exec := none, progress := 0, staged := 0, abortTargets := [], abortCount := 0, preempted := false }

/-- A packet has been copied: SQ_HEAD and EXPECT_SEQ advance, and steps 1 and 2 of R433 run. -/
def State.copyPacket (s : State) (b r : Nat) (packet : List Byte) (slots : Nat) : State :=
  let q := (s.ring b r).sq
  let id := (s.block b).nextId
  let head := BitVec.ofNat 16 ((q.head.toNat + slots) % 2 ^ q.sizeLog2.toNat)
  let k := Cmd.copied id r packet head
  let c : CmdRef := { block := b, id := id }
  let s1 := s.updSq b r (fun x => { x with head := head, expectSeq := x.expectSeq + 1 })
  let s2 := s1.updBlock b (fun x => { x with cmds := x.cmds ++ [k], nextId := x.nextId + 1 })
  let stop (t : State) : State := t.updSq b r (fun x => { x with state := .error })
  if 4096 < k.paramLen then (stop s2).endCmd c (Fin.with stHeaderInvalid 4)
  else if k.qseq ≠ q.expectSeq.toNat then
    (stop s2).endCmd c (Fin.with stQseqMismatch (k.qseq + q.expectSeq.toNat * 2 ^ 32))
  else s2

/-- Fetch from one ring. -/
def State.fetch (s : State) (b r : Nat) : State :=
  let q := (s.ring b r).sq
  let s0 := s.updBlock b (fun x => { x with turn := (r + 1) % 4 })
  match s0.slotRead b q q.head.toNat with
  | .wait => s
  | .bad st d s1 => (s1.fetchFault b r st d).settle
  | .ok hdr s1 =>
    let n := slotsOf hdr
    match engAll (fun t i => t.slotRead b q (q.head.toNat + i)) s1 ((List.range (n - 1)).map (fun i => i + 1)) with
    | .wait => s
    | .bad st d s2 => (s2.fetchFault b r st d).settle
    | .ok rest s2 => (s2.copyPacket b r (hdr ++ rest) n).settle

/-- PACKET_FETCH (R20, R421, R422, R425, R427, R433, R434): the ring whose turn it is, while fewer than 64 commands of the block
are in flight; none of a partition without a conductor core. -/
def execPacketFetch (blk : Nat) (ring : Nat) (s : State) : Out :=
  .next (
    if s.up ∧ blk < 9 ∧ (blk = 0 ∨ s.serves blk) ∧ (s.block blk).cmds.length < 64 ∧ s.turnRing blk = some ring then s.fetch blk ring else s)

/-! ### Records and interrupts (R430, R431) -/

/-- CQ_HELD_RECORD_WRITE (R430): the oldest held record is written once the ring has room. -/
def execCqHeldRecordWrite (blk : Nat) (ring : Nat) (s : State) : Out :=
  .next (
    let q := (s.ring blk ring).cq
    match q.held with
    | [] => s
    | h :: hs =>
      if q.state ≠ .enabled ∨ q.isFull = true then s
      else ((s.updCq blk ring (fun x => { x with held := hs })).writeRecord blk ring h).settle)

/-- CQ_IRQ_DELAY_EXPIRY (R431). -/
def execCqIrqDelayExpiry (blk : Nat) (ring : Nat) (s : State) : Out :=
  .next (
    let q := (s.ring blk ring).cq
    if q.irqEn && q.delay != 0 && decide (0 < q.pendingIrq) then s.signalCq blk ring else s)

end Sys2Proof.Machine
end

