-- ==== Sys2Proof/Machine/Sensors.lean ====
section
/-! DEFINITION. The sensors of R573: their types and thresholds (R574, R575, R630), means of module power (R618), and the
conditions that the power controller and OP_BOOST read (R618, R619, R624). -/

namespace Sys2Proof.Machine

/-! ### Values as exact numbers -/

/-- An FP32 value as a whole number of units of 2^-149; infinities lie beyond every finite value, NaN is none. -/
def fxOf (w : Word) : Option Int :=
  match Float.unpack w with
  | .nan => none
  | .inf n => some (if n then -(2 ^ 400) else 2 ^ 400)
  | .fin n u => some (if n then -(u : Int) else u)

/-- A whole number in the same units. -/
def fx (n : Nat) : Int := (n : Int) * 2 ^ 149

/-- A value is at or above n; NaN is not. -/
def atLeast (w : Word) (n : Nat) : Bool := match fxOf w with
  | none => false
  | some v => decide (fx n ≤ v)

/-! ### Identities (R573, R575) -/

/-- TYPE of a sensor (R575); 0xF for an unassigned ID. -/
def sensorType (id : Nat) : Nat :=
  if id ≤ 0x00B3 then 0
  else if 0x0100 ≤ id ∧ id ≤ 0x0103 then 1 + id % 2
  else if id = 0x0104 then 3
  else if 0x0110 ≤ id ∧ id ≤ 0x013F then 1 + id % 2
  else if 0x0140 ≤ id ∧ id ≤ 0x014F then 3
  else if 0x0200 ≤ id ∧ id ≤ 0x020F then 4
  else if (0x0210 ≤ id ∧ id ≤ 0x0217) ∨ (0x0220 ≤ id ∧ id ≤ 0x023F) then 5
  else 0xF

/-- The sensor IDs, ascending. -/
def sensorIds : List Nat := (List.range 0x0240).filter (fun i => sensorType i != 0xF)

/-- A sensor of the state. -/
def State.sensor (s : State) (id : Nat) : Sensor := SMap.get Sensor.reset s.stw.sensors id

/-- Replace a sensor. -/
def State.setSensor (s : State) (id : Nat) (x : Sensor) : State :=
  { s with stw := { s.stw with sensors := SMap.set Sensor.reset s.stw.sensors id x } }

/-- Junction sensors of a compute die. -/
def dieSensors (d : Nat) : List Nat := (List.range 9).map (fun i => 9 * d + i)

/-! ### Thresholds (R630) -/

/-- Upper warning and critical values of a sensor. -/
def upperLimits (id : Nat) : Option (Nat × Nat) :=
  if id < 0x0090 then some (95, 105)
  else if id < 0x009C then some (85, 95)
  else if id < 0x009E then some (70, 80)
  else if id < 0x00A2 then some (95, 105)
  else if id < 0x00B2 then some (110, 125)
  else if id = 0x00B2 then some (40, 45)
  else if id = 0x00B3 then some (60, 65)
  else if id = 0x0100 then some (52, 54)
  else none

/-- Trip value of a sensor: compute junctions, base dies, hub sensors and power stages have one. -/
def tripValue (id : Nat) : Option Nat :=
  if id < 0x0090 then some 115
  else if id < 0x009C then (if id % 2 = 0 then some 105 else none)
  else if 0x009E ≤ id ∧ id < 0x00A2 then some 115
  else if 0x00A2 ≤ id ∧ id < 0x00B2 then some 135
  else none

/-- Rank of a state. -/
def SensorState.rank : SensorState → Nat
  | .normal => 0
  | .failed => 0
  | .warning => 1
  | .critical => 2

/-- State for a rank. -/
def SensorState.ofRank (n : Nat) : SensorState := if n = 0 then .normal else if n = 1 then .warning else .critical

/-- Whether a value stands at or above an upper threshold, with the return point while the sensor is already there: 3 °C
below for a temperature, 2 % below for an electrical value. -/
def aboveLimit (temp there : Bool) (v : Int) (t : Nat) : Bool :=
  if there then (if temp then decide (fx t - fx 3 < v) else decide (98 * fx t < 100 * v)) else decide (fx t ≤ v)

/-- Whether a value stands below a lower threshold of VIN48; the return point lies 2 % on the other side (DEDUCED,
notes/assumptions/24.md). -/
def belowLimit (there : Bool) (v : Int) (t : Nat) : Bool :=
  if there then decide (100 * v < 102 * fx t) else decide (v < fx t)

/-- The state of a sensor that has not failed, from its previous state and its value (R630). -/
def judge (id : Nat) (old : SensorState) (v : Int) : SensorState :=
  match upperLimits id with
  | none => .normal
  | some (w, c) =>
    let temp := sensorType id == 0
    let low := id == 0x0100
    let crit := aboveLimit temp (decide (2 ≤ old.rank)) v c || (low && belowLimit (decide (2 ≤ old.rank)) v 42)
    let warn := aboveLimit temp (decide (1 ≤ old.rank)) v w || (low && belowLimit (decide (1 ≤ old.rank)) v 44)
    if crit then .critical else if warn then .warning else .normal

/-- Two neighbours on the same die differ from a junction reading by more than 25 °C (R574). Only the sensors between two
others have two neighbours; a neighbour that has failed reads NaN and differs from nothing (notes/assumptions/24.md). -/
def State.outlier (s : State) (id : Nat) (v : Int) : Bool :=
  let i := id % 9
  if 0x0090 ≤ id ∨ i = 0 ∨ i = 8 then false
  else
    let far (n : Nat) : Bool := match fxOf (s.sensor n).value with
      | none => false
      | some u => decide (fx 25 < u - v ∨ fx 25 < v - u)
    far (id - 1) && far (id + 1)

/-! ### Thermal conditions -/

/-- A compute die at its critical temperature: some junction sensor is CRITICAL, or all have failed (R574). -/
def State.dieCritical (s : State) (d : Nat) : Bool :=
  (dieSensors d).any (fun i => (s.sensor i).state == .critical) || (dieSensors d).all (fun i => (s.sensor i).state == .failed)

/-- Sensors whose CRITICAL state throttles every die: power stages, coolant, and VIN48 below its range (R630). -/
def State.moduleCritical (s : State) : Bool :=
  s.stw.sensors.any (fun e => e.2.state == .critical && decide (0x00A2 ≤ e.1 ∧ e.1 ≤ 0x00B3)) ||
    ((s.sensor 0x0100).state == .critical && (match fxOf (s.sensor 0x0100).value with
      | none => false
      | some v => decide (v < fx 48)))

/-- Some sensor is CRITICAL, or a die is treated so. -/
def State.anyCritical (s : State) : Bool :=
  s.stw.sensors.any (fun e => e.2.state == .critical) || (List.range 16).any (fun d => s.dieCritical d)

/-- The hottest reading that stands for a die's junctions; none when all have failed or none was taken. -/
def State.dieHottest (s : State) (d : Nat) : Option Int :=
  (dieSensors d).foldl (fun m i => match fxOf (s.sensor i).value, m with
    | some v, some u => some (max u v)
    | some v, none => some v
    | none, m => m) none

/-! ### Module power (R618, R621) -/

/-- Sum of the newest n samples; a sample not yet taken counts zero (notes/assumptions/24.md), a NaN zero. -/
def PwrState.sum (p : PwrState) (n : Nat) : Int := ((p.window.take n).map (fun w => (fxOf w).getD 0)).sum

/-- The mean of the newest n samples exceeds a power in W. -/
def PwrState.meanAbove (p : PwrState) (n watts : Nat) : Bool := decide ((n : Int) * fx watts < p.sum n)

/-- The two newest samples exceed a power. -/
def PwrState.twoAbove (p : PwrState) (watts : Nat) : Bool :=
  decide (2 ≤ p.window.length) && (p.window.take 2).all (fun w => decide (fx watts < (fxOf w).getD 0))

/-- Samples of the newest n above a power. -/
def PwrState.countAbove (p : PwrState) (n watts : Nat) : Nat :=
  ((p.window.take n).filter (fun w => decide (fx watts < (fxOf w).getD 0))).length

/-- Inside the sustained envelope (R618). -/
def State.envOk (s : State) : Bool := !s.pwr.meanAbove 10 7500 && !s.anyCritical

/-- The mean of the newest n samples in whole W, saturating at 16 bits (R635). -/
def PwrState.meanWatts (p : PwrState) (n : Nat) : Nat := min (p.sum n / (n * 2 ^ 149)).toNat 0xFFFF

/-! ### Records (R554, R575) -/

/-- Whether a sensor belongs to a compute die's power and current readings: its die. -/
def powerDie (id : Nat) : Option Nat :=
  if 0x0110 ≤ id ∧ id < 0x0130 ∧ id % 2 = 1 then some ((id - 0x0110) / 2)
  else if 0x0140 ≤ id ∧ id < 0x0150 then some (id - 0x0140)
  else none

/-- Whether a die belongs to a confidential partition. -/
def State.confDie (s : State) (d : Nat) : Bool := match s.partOfDie d with
  | none => false
  | some p => s.confidential p

/-- Counters withheld for a confidential partition: activity of its dies, traffic of its pairs, payload of its span ports
(R554, R575). -/
def State.withheld (s : State) (id : Nat) : Bool :=
  if 0x0200 ≤ id ∧ id < 0x0210 then s.confDie (id - 0x0200)
  else if 0x0210 ≤ id ∧ id < 0x0218 then s.confDie (2 * (id - 0x0210))
  else if 0x0220 ≤ id ∧ id < 0x0240 then s.confDie ((id - 0x0220) / 2)
  else false

/-- Mean of a list of readings, rounded once to FP32; a NaN among them gives NaN. -/
def meanOf (ws : List Word) : Word :=
  match ws.mapM fxOf with
  | none => Float.nan32
  | some vs =>
    let t := vs.sum
    if vs.isEmpty then 0#32 else Float.round32 (decide (t < 0)) t.natAbs vs.length

/-- Code of a sensor's state. -/
def SensorState.code : SensorState → Nat
  | .normal => 0
  | .warning => 1
  | .critical => 2
  | .failed => 3

/-- The 16-byte record of a sensor ID (R575). -/
def State.sensorRecord (s : State) (id : Nat) : List Byte :=
  let ty := sensorType id
  if ty = 0xF then leBytes 2 id ++ [0x0F#8] ++ List.replicate 13 0#8
  else
    let x := s.sensor id
    let age := min ((s.tb.now - x.at_) / 1000) 0xFFFFFFFF
    if s.withheld id then leBytes 2 id ++ leBytes 2 (ty + 4 * 16) ++ List.replicate 8 0#8 ++ leBytes 4 age
    else
      let v := match powerDie id with
        | some d => if s.confDie d then meanOf x.recent else x.value
        | none => x.value
      leBytes 2 id ++ leBytes 2 (ty + x.state.code * 16) ++ leBytes 4 v.toNat ++ leBytes 4 (x.max.getD 0#32).toNat ++ leBytes 4 age

end Sys2Proof.Machine
end

