-- ==== Sys2Proof/Machine/RegView.lean ====
section
/-! DEFINITION. What registers read: BAR0 of PF0 and of the VFs (R8, R34 to R41, R405 to R417, R505 to R507, R535, R536,
R568 to R572, R609, R610, R635 to R638, R665, R666, R687), the die marshal's clock registers (R611) and the core registers
(R103 to R105, R141 to R148, R185 to R190, R311). They are functions of the state; no command of the table but
TIMEBASE_LO_READ reads a register. -/

namespace Sys2Proof.Machine

/-- A flag at a bit. -/
def bitAt (b : Bool) (i : Nat) : Nat := if b then 2 ^ i else 0

/-- Sum of the bits i below n that satisfy a condition. -/
def maskOf (n : Nat) (f : Nat → Bool) : Nat := ((List.range n).filter f).foldl (fun m i => m + 2 ^ i) 0

/-! ### Identity and global status -/

/-- ENG_ID (R37). -/
def engId : Nat := 0xECF05A09

/-- ENG_REV (R8). -/
def engRev : Nat := 0x21090100 + Config.grade.toNat * 2 ^ 12

/-- The clock tree's unit coasts (R602, R603); the span PLLs, group 23, do not. -/
def State.coastAny (s : State) : Bool := (List.range 23).any (fun n => (s.pll n).coastingAny)

/-- GLB_STATUS (R38). -/
def State.glbStatus (s : State) : Nat :=
  bitAt s.up 31 + bitAt s.stw.running 30 + bitAt s.hub.aOk 29 + bitAt s.hub.bOk 28 + s.lcState * 2 ^ 24 +
    s.host.linkWidth.toNat * 2 ^ 20 + bitAt s.coastAny 19 + bitAt s.thermWarn 18 + bitAt s.degraded 17 +
    bitAt (decide (0 < s.pwr.sol.k)) 16 + maskOf 8 (fun p => (s.part p).isSome) * 2 ^ 8 + bitAt s.eventPending 0

/-- Owner slot i is programmed. -/
def State.ownerSet (s : State) (i : Nat) : Bool := (SMap.get none s.sec.fuses.owner i).isSome

/-- LC_FUSES (R535). -/
def State.lcFuses (s : State) : Nat :=
  s.lcState * 2 ^ 28 + maskOf 4 s.ownerSet * 2 ^ 24 + s.sec.fuses.ownerRevoke.toNat * 2 ^ 20 + bitAt s.sec.fuses.mediaKill 19

/-- Highest debug level open (R536): 4 in MANUFACTURE, otherwise the session's. -/
def State.debugLevel (s : State) : Nat := if s.lcState = 1 then 4 else match s.sec.debugSession with
  | none => 0
  | some (l, _) => l

/-- A selective IDE stream is keyed and enabled. -/
def State.ideSecure (s : State) (n : Nat) : Bool := (SMap.get IdeStream.reset s.sec.ide n).active.isSome

/-- SEC_STAT (R536). LC_BUSY reads 0 between two commands: a transition completes within one (notes/assumptions/27.md). -/
def State.secStat (s : State) : Nat :=
  bitAt s.sec.debugSession.isSome 31 + s.debugLevel * 2 ^ 28 + bitAt s.sec.erasePending 27 +
    maskOf 8 s.confidential * 2 ^ 16 +
    maskOf 8 (fun p => match s.part p with
      | none => false
      | some x => x.confidential && x.sec.tdi == TdiState.run) * 2 ^ 8 +
    ((List.range 8).filter (fun i => s.ideSecure (i + 1))).length

/-! ### The Steward (R569, R571, R572) -/

/-- STW_STAT (R569). -/
def State.stwStat (s : State) : Nat :=
  bitAt s.stw.running 31 + bitAt (s.stw.running && !s.stewardSingle) 30 + bitAt s.stw.resetting 29 +
    bitAt (s.fw.kinds.any (fun e => e.2.phase == FwPhase.trial)) 28 + s.stw.resets.toNat * 2 ^ 16 + s.stw.evtLost.toNat

/-- EVT_IRQ (R572). -/
def State.evtIrq (s : State) : Nat := bitAt s.stw.irqEn 31 + s.stw.minSev.toNat * 2 ^ 16

/-! ### Clocks (R609, R611) -/

/-- CLK_REF_STAT (R609): PLL group 16 is the hub's. -/
def State.clkRefStat (s : State) : Nat :=
  let u := s.pll 16
  bitAt u.refA 31 + bitAt u.refB 30 + bitAt u.sel 29 + bitAt u.coastingAny 28 + u.aFails.toNat * 2 ^ 6 + u.bFails.toNat

/-- DIE_CLK_STAT (R611). -/
def State.dieClkStat (s : State) (d : Nat) : Nat :=
  let u := s.pll d
  let k := s.dieClk d
  bitAt u.coastingAny 31 + u.cause % 4 * 2 ^ 29 + bitAt u.refA 28 + bitAt u.refB 27 + bitAt u.sel 26 + k.plan % 8 * 2 ^ 23 +
    bitAt k.changing 22 + k.fabCode % 32 * 2 ^ 17

/-- COL_FREQ_LO and COL_FREQ_HI (R611). -/
def State.colFreqLo (s : State) (d : Nat) : Nat :=
  (List.range 6).foldl (fun m c => m + (s.dieClk d).colCodes.getD c 0 % 32 * 2 ^ (5 * c)) 0
def State.colFreqHi (s : State) (d : Nat) : Nat :=
  (s.dieClk d).colCodes.getD 6 0 % 32 + (s.dieClk d).colCodes.getD 7 0 % 32 * 32

/-! ### Power (R635 to R638) -/

/-- Throttle steps of a die. -/
def State.thrSteps (s : State) (d : Nat) : Nat := SMap.get 0 s.pwr.steps d

/-- Code of the SOLSTICE state. -/
def SolState.code : SolState → Nat
  | .off => 0
  | .ramp => 1
  | .active => 2
  | .stepdown => 3
  | .draining => 4

/-- PWR_STAT (R635). -/
def State.pwrStat (s : State) : Nat :=
  let o := s.pwr.sol
  o.state.code * 2 ^ 29 + o.k % 8 * 2 ^ 26 + o.lastEnd % 8 * 2 ^ 23 +
    bitAt ((List.range 16).any (fun d => decide (0 < s.thrSteps d))) 22 + bitAt s.envOk 21 + s.pwr.meanWatts 1000

/-- THROTTLE_STAT (R636). -/
def State.throttleStat (s : State) : Nat :=
  (((List.range 16).map s.thrSteps).foldl max 0) % 32 * 2 ^ 27 + maskOf 16 (fun d => decide (0 < s.thrSteps d))

/-- Operating and boost time of the window in ms, whole bins summed first (R626). -/
def PwrState.usedMs (p : PwrState) : Nat := ((p.bins.take 720).map (fun b => b.2)).sum / 1000000
def PwrState.allowMs (p : PwrState) : Nat := 8 * ((p.bins.take 720).map (fun b => b.1)).sum / 100000000

/-- WEAR_USED (R637): with the reservation of a running request. -/
def State.wearUsed (s : State) : Nat := (s.pwr.usedMs + s.pwr.sol.reservedMs) % 2 ^ 32

/-- TRIP_STAT (R638). -/
def State.tripStat (s : State) : Nat := bitAt s.pwr.tripped 31 + s.pwr.tripSensor.toNat

/-- The state of the module's supplies (R613). -/
def State.modState (s : State) : ModState :=
  if !s.start.auxGood then .off
  else if s.start.phase = .tripped then .tripped
  else if s.start.railsUp then .run
  else .aux

/-! ### Faults and start-up (R665, R666, R687) -/

/-- FLT_STAT (R665). -/
def State.fltStat (s : State) : Nat :=
  min s.sparesFree 255 * 2 ^ 24 + min ((List.range 16).map (fun d => (s.die d).testing.length)).sum 255 * 2 ^ 16 + s.hub.recoveries.toNat

/-- FLT_DIES (R666). -/
def State.fltDies (s : State) : Nat := maskOf 16 (fun d => (s.die d).short)

/-- RESET_CAUSE (R687). -/
def State.resetCause (s : State) : Nat :=
  let b := s.start
  b.cause % 16 * 2 ^ 28 + b.bootSrc % 4 * 2 ^ 26 + bitAt b.altSlot 25 + bitAt b.tripSeen 24 + bitAt b.mapRebuilt 23 +
    bitAt b.eraseResumed 22 + min b.newRetired 63 * 2 ^ 16 + min b.startMs 0xFFFF

/-! ### The time base (R506, R507) -/

/-- TSYNC_CTRL and TSYNC_STAT. -/
def State.tsyncCtrl (s : State) : Nat := bitAt s.tb.ctrlEn 31 + s.tb.periodMs.toNat
def State.tsyncStat (s : State) : Nat := bitAt s.tb.locked 31 + bitAt s.tb.lost 30 + bitAt s.tb.stepped 29 + s.tb.lastErr.toNat

/-! ### Queue blocks (R405 to R417) -/

/-- Code of a ring's state (R412). -/
def RingState.code : RingState → Nat
  | .disabled => 0
  | .enabled => 1
  | .draining => 2
  | .error => 3

/-- QB_ID (R406). -/
def qbId (b : Nat) : Nat := if b = 0 then 0x01FF0401 else 0x02000401 + (b - 1) * 2 ^ 16

/-- QB_STAT (R407): PART_DRAINING in every state but ACTIVE (R457). `mirror` tells whether the view is the mirror of R35. -/
def State.qbStat (s : State) (b : Nat) (mirror : Bool) : Nat :=
  let q := s.block b
  let head := match partOfBlock b with
    | none => bitAt true 31
    | some p => match s.part p with
      | none => bitAt mirror 28
      | some x => bitAt true 31 + bitAt (x.state != PartState.active) 30 + bitAt x.confidential 29 + bitAt mirror 28
  head + q.inFlight * 2 ^ 16 + q.denied.toNat

/-- ENABLE as it is stored (R15, R412): 1 from an accepted enable until 0 is written, which leaves DRAINING or DISABLED. -/
def RingState.enable : RingState → Bool
  | .enabled | .error => true
  | .disabled | .draining => false

/-- A register of a ring pair at its offset (R410 to R417). -/
def State.ringRead (s : State) (b r o : Nat) : Nat :=
  let g := s.ring b r
  let cfg (en loc err : Bool) (st size : Nat) : Nat := bitAt en 31 + bitAt loc 30 + st * 2 ^ 28 + bitAt err 27 + size * 2 ^ 16
  if o = 0x00 then g.sq.base.toNat % 2 ^ 32
  else if o = 0x04 then g.sq.base.toNat / 2 ^ 32
  else if o = 0x08 then cfg g.sq.state.enable g.sq.loc g.sq.cfgErr g.sq.state.code g.sq.sizeLog2.toNat
  else if o = 0x0C then g.sq.tail.toNat
  else if o = 0x10 then g.sq.head.toNat
  else if o = 0x14 then g.sq.expectSeq.toNat % 2 ^ 16 * 2 ^ 16 + g.sq.doorbellErr.toNat * 2 ^ 8 +
    ((s.block b).cmds.filter (fun k => k.ring == r)).length % 256
  else if o = 0x18 then g.cq.base.toNat % 2 ^ 32
  else if o = 0x1C then g.cq.base.toNat / 2 ^ 32
  else if o = 0x20 then cfg g.cq.state.enable g.cq.loc g.cq.cfgErr g.cq.state.code g.cq.sizeLog2.toNat +
    bitAt g.cq.full 26 + bitAt g.cq.irqEn 3 + g.cq.vector.toNat
  else if o = 0x24 then g.cq.head.toNat
  else if o = 0x28 then g.cq.tail.toNat + bitAt g.cq.phase 16
  else if o = 0x2C then g.cq.delay.toNat * 2 ^ 16 + g.cq.count.toNat
  else 0

/-- A register of a queue block at its offset (R405). -/
def State.blockRead (s : State) (b o : Nat) (mirror : Bool) : Nat :=
  if o = 0 then qbId b
  else if o = 4 then s.qbStat b mirror
  else if o = 0xC then (s.block b).defTimeout.toNat
  else if 0x100 ≤ o ∧ o < 0x200 then s.ringRead b ((o - 0x100) / 0x40) ((o - 0x100) % 0x40)
  else 0

/-! ### BAR0 (R34, R36, R41) -/

/-- The registers of PF0 that answer before READY (R36); only the identity block after a fuse has failed to program at the start-up
(R545). -/
def State.bar0Early (s : State) (o : Nat) : Option Nat :=
  if o = 0x0000 then some engId
  else if o = 0x0004 then some engRev
  else if o = 0x0008 then some (Config.serial.toNat % 2 ^ 32)
  else if o = 0x000C then some (Config.serial.toNat / 2 ^ 32)
  else if o = 0x0010 then some s.lcFuses
  else if s.start.fuseFailed then none
  else if o = 0x1000 then some s.glbStatus
  else if o = 0x1050 then some s.tripStat
  else if o = 0x2000 then some s.stwStat
  else if o = 0x2004 then some 0
  else none

/-- A word of a function's MSI-X table. -/
def State.msixRead (s : State) (fn o : Nat) : Nat := (SMap.get 0#32 s.host.msixTable (fn * 1024 + (o - msixBase fn) / 4)).toNat

/-- A register of PF0 after READY. A pending bit reads 0, for no message waits (notes/assumptions/25.md). -/
def State.pfRead (s : State) (o : Nat) : Nat :=
  if o = 0x1008 then s.host.apertureBase.toNat
  else if o = 0x1010 then s.tb.now % 2 ^ 32
  else if o = 0x1014 then s.host.timeHiLatch.toNat
  else if o = 0x1018 then s.tsyncCtrl
  else if o = 0x101C then s.tsyncStat
  else if o = 0x1020 then s.secStat
  else if o = 0x1030 then s.clkRefStat
  else if o = 0x1034 then s.clk.clkout0.toNat
  else if o = 0x1038 then s.clk.clkout1.toNat
  else if o = 0x1040 then s.pwrStat
  else if o = 0x1044 then s.throttleStat
  else if o = 0x1048 then s.wearUsed
  else if o = 0x104C then s.pwr.allowMs % 2 ^ 32
  else if o = 0x1060 then s.fltStat
  else if o = 0x1064 then s.fltDies
  else if o = 0x1070 then s.resetCause
  else if o = 0x2008 then s.stw.nextSeq % 2 ^ 32
  else if o = 0x200C then s.stw.evtCons.toNat
  else if o = 0x2010 then s.evtIrq
  else if 0x8000 ≤ o ∧ o < 0x9000 then s.blockRead 0 (o - 0x8000) false
  else if 0x10000 ≤ o ∧ o < 0x18000 then s.blockRead (1 + (o - 0x10000) / 0x1000) ((o - 0x10000) % 0x1000) s.host.sriov
  else if inMsix 0 o then s.msixRead 0 o
  else 0

/-- What a 4-byte aligned read of BAR0 returns: function 0 is PF0, k is VFk. -/
def State.bar0Read (s : State) (fn o : Nat) : Nat :=
  if fn = 0 then
    match s.bar0Early o with
    | some v => v
    | none => if s.up then s.pfRead o else 0
  else if s.up ∧ s.host.sriov ∧ fn ≤ 8 ∧ o < 0x1000 then s.blockRead fn o false
  else if s.up ∧ s.host.sriov ∧ fn ≤ 8 ∧ inMsix fn o then s.msixRead fn o
  else 0

/-! ### Core registers -/

/-- CORE_ID (R141). MAPPED_OUT is the map's gap below row 16: a core there is retired by remap and passed through. -/
def State.coreId (s : State) (k : Nat) : Nat :=
  let d := k / 256
  let c := k / 32 % 8
  let f := k % 32
  let lr := logRow (s.gap d c) f
  d % 16 * 2 ^ 28 + c * 2 ^ 25 + f * 2 ^ 20 + lr.getD 0 % 16 * 2 ^ 16 + bitAt lr.isSome 15 +
    bitAt (decide (f = s.gap d c ∧ f < 16)) 14 + (s.partOfDie d).getD 0xF * 2 ^ 8

/-- CORE_STAT (R142). -/
def Core.stat (c : Core) : Nat :=
  bitAt c.mem.gb.isEmpty 31 + min c.mem.gb.length 15 * 2 ^ 27 + bitAt c.regs.zeroing 26 + c.regs.nbParErr.toNat * 2 ^ 16 +
    c.regs.eccCorr.toNat * 2 ^ 8 + c.regs.eccUncorr.toNat

/-- Code of a bank's state (R145). -/
def BankState.code : BankState → Nat
  | .off => 0
  | .waking => 1
  | .scrub => 2
  | .on => 3

/-- BANK_STAT (R145). -/
def Core.bankStat (c : Core) : Nat := (List.range 16).foldl (fun m i => m + (SMap.get BankState.off c.regs.banks i).code * 2 ^ (2 * i)) 0

/-- RBW_COUNT and STATE_STAT (R146, R311). `debug` tells whether the DEBUG port reads. -/
def Core.rbwCount (c : Core) (debug : Bool) : Nat :=
  if debug && c.run.confidential then 0 else c.regs.spadRbw.toNat * 2 ^ 16 + c.regs.accRbw.toNat
def Core.stateStat (c : Core) (debug : Bool) : Nat :=
  min (c.mem.stateLoaded.filter (fun e => e.2)).length 256 * 2 ^ 16 +
    (if debug && c.run.confidential then 0 else c.regs.stateRbw.toNat)

/-- DMA_STAT0 and DMA_STAT1 (R148). The descriptor in progress is no queued one in QUEUED, and DMAQ counts it as one of the 16 it
can hold (DESIGN CHOICE, notes/assumptions/25.md). -/
def DmaEngine.stat (e : DmaEngine) : Nat :=
  bitAt e.active 31 + min (e.queue.length - (if e.active then 1 else 0)) 16 * 2 ^ 26 + e.lastFault.toNat * 2 ^ 16 + e.done.toNat

/-- Code of the array's clock state (R103). -/
def ArrayMode.code : ArrayMode → Nat
  | .gated => 0
  | .rampUp => 1
  | .full => 2
  | .rampDown => 3

/-- ARR_STAT (R103). What counts cycles within a ramp or a pass is open: GROUPS_ON during a ramp, SLOTS_BUSY and ROWS_IN_FLIGHT
while passes are in flight come from a free value (notes/assumptions/25.md). SHADOW_READY keeps its reset value until the array is
first used (notes/assumptions/40.md). -/
def Core.arrStat (c : Core) (free : Word) : Nat :=
  let rows := if c.arr.flights.isEmpty then 0 else bitsOf free.toNat 7 0 % 197 + bitsOf free.toNat 9 8 * 2 ^ 14
  c.arr.mode.code * 2 ^ 30 + (match c.arr.mode with
    | .full => 6 * 2 ^ 27
    | .gated => 0
    | .rampUp | .rampDown => bitsOf free.toNat 12 10 % 7 * 2 ^ 27) +
    bitAt (c.arr.used && c.arr.loading.isNone) 26 + bitAt c.arr.loading.isSome 25 + bitAt c.arr.token.isSome 24 + rows +
    (match c.arr.active with
      | none => 0
      | some t => t.mode % 16 * 2 ^ 16 + t.grid % 16 * 2 ^ 20)

/-- ARR_CHECK and ARR_CTRL (R104, R105). -/
def Core.arrCheck (c : Core) : Nat := c.arr.resMismatch.toNat * 2 ^ 24 + c.arr.csMismatch.toNat * 2 ^ 12 + c.arr.csSkip.toNat

/-- Code of the sequencer's state (R185). -/
def SeqState.code : SeqState → Nat
  | .idle => 0
  | .running => 1
  | .waiting => 2
  | .faulted => 3

/-- SEQ_STAT (R185). -/
def Core.seqStat (c : Core) : Nat :=
  c.seq.state.code * 2 ^ 30 + bitAt (c.run.replay.active && c.run.replay.wdog) 29 + c.seq.faultCode.toNat * 2 ^ 16 + c.seq.pc % 2 ^ 13

/-- SEQ_FAULT (R188). -/
def Core.seqFault (c : Core) : Nat := c.seq.faultCode.toNat * 2 ^ 24 + c.seq.faultUnit.toNat * 2 ^ 20 + c.seq.faultPc.toNat

/-- What a read of a core register returns, at its offset in the register block. -/
def State.coreRead (s : State) (k o : Nat) (debug : Bool) : Nat :=
  let c := s.core k
  if o = 0x000 then s.coreId k
  else if o = 0x004 then c.stat
  else if o = 0x010 then c.regs.bankPwr.toNat
  else if o = 0x014 then c.bankStat
  else if o = 0x020 then c.rbwCount debug
  else if o = 0x024 then c.stateStat debug
  else if o = 0x030 then c.regs.nbCtrl.toNat
  else if o = 0x040 then c.dma0.stat
  else if o = 0x044 then c.dma1.stat
  else if o = 0x100 then c.arrStat (Config.freeWord s.freeCtr)
  else if o = 0x104 then c.arrCheck
  else if o = 0x108 then c.arr.idleHold.toNat
  else if o = 0x200 then c.seqStat
  else if o = 0x208 then c.seq.wdog.toNat
  else if o = 0x20C then c.seqFault
  else if o = 0x210 then c.seq.faultArg.toNat
  else if 0x244 ≤ o ∧ o ≤ 0x27C ∧ o % 4 = 0 then (SMap.get 0#32 c.seq.args ((o - 0x240) / 4)).toNat
  else 0

/-! ### What other ports read -/

/-- A read of n bytes of a core's slot by the DEBUG port at level 3 (R538): it counts never-written lines and rows as every port
that reads SPAD does (R111, R113). No command of the table makes it. -/
def State.debugRead (s : State) (k off n : Nat) : List Byte × State :=
  let r := windowRead (s.core k) off n
  (r.1, s.setCore k r.2)

/-- A byte of the ROM window at offset 0x80_0000 of each die marshal's control space (R206), the same on every die: table images
and micro-program images of generation 3 and then of generation 2, and zeros elsewhere. No command of the table reads it. -/
def romWindow (o : Nat) : Byte :=
  if o < 0x100000 then byteOfWord (Config.romTableWord (decide (0x80000 ≤ o)) (o / 0x2000 % 64) (o % 0x2000 / 4)) (o % 4)
  else
    let q := o - 0x100000
    if q < 0x18 * 0x80 then byteOfWord (Config.romMicroWord false (q / 0x80) (q % 0x80 / 4)) (q % 4)
    else if 0x1000 ≤ q ∧ q < 0x1000 + 0x18 * 0x80 then
      byteOfWord (Config.romMicroWord true ((q - 0x1000) / 0x80) (q % 0x80 / 4)) (q % 4)
    else 0#8

end Sys2Proof.Machine
end

