-- ==== Sys2Proof/Machine/Power.lean ====
section
/-! DEFINITION. The power controller (chapter 20): throttle (R618, R619), SOLSTICE and OP_BOOST (R620 to R625, R639), the wear
budget (R626 to R628), and sensor samples (R573, R574, R630). -/

namespace Sys2Proof.Machine

/-! ### Throttle (R618, R619) -/

/-- A trigger that throttles every die holds. -/
def State.throttleAll (s : State) : Bool :=
  s.pwr.meanAbove 100000 7500 || s.pwr.meanAbove 1000 8400 || s.pwr.twoAbove 9600 || s.moduleCritical

/-- Change the throttle steps of a die. -/
def State.updSteps (s : State) (d : Nat) (f : Nat → Nat) : State :=
  { s with pwr := { s.pwr with steps := SMap.set 0 s.pwr.steps d (f (s.thrSteps d)) } }

/-- Replace SOLSTICE. -/
def State.setSol (s : State) (o : Solstice) : State := { s with pwr := { s.pwr with sol := o } }

/-- THROTTLE_STEP (R618, R622): outside SOLSTICE, one factor of 0.96 on every die for a module-wide trigger or while the steps of a
step-down go on, otherwise on the dies at their critical temperature. -/
def execThrottleStep (s : State) : Out :=
  .next (
    if !s.start.railsUp ∨ 0 < s.pwr.sol.k then s
    else
      let tail := s.pwr.sol.tail && !s.envOk
      let s1 := s.setSol { s.pwr.sol with tail := tail }
      let all := s.throttleAll || tail
      (List.range 16).foldl (fun t d => if all || s.dieCritical d then t.updSteps d (fun n => min (n + 1) 27) else t) s1)

/-- The conditions of R619: the 100 µs mean at most 7.2 kW, and every junction at least 3 °C below its critical value; a die
without a reading counts as critical. -/
def State.recovers (s : State) : Bool :=
  !s.pwr.meanAbove 10 7200 && (List.range 16).all (fun d => !((dieSensors d).all (fun i => (s.sensor i).state == .failed)) &&
    (dieSensors d).all (fun i => match fxOf (s.sensor i).value with
      | none => true
      | some v => decide (v ≤ fx 102)))

/-- THROTTLE_RECOVERY (R619). -/
def execThrottleRecovery (s : State) : Out :=
  .next (
    if !s.start.railsUp ∨ !s.recovers then s
    else (List.range 16).foldl (fun t d => if 0 < t.thrSteps d then t.updSteps d (fun n => n - 1) else t) s)

/-! ### The wear budget (R626 to R628) -/

/-- The remaining budget in ms. -/
def State.wearLeft (s : State) : Nat := s.pwr.allowMs - s.wearUsed

/-- The Steward writes the bins to flash. -/
def State.writeBins (s : State) : State := { s with pwr := { s.pwr with binsFlash := s.pwr.bins } }

/-- WEAR_BIN_WRITE (R626, R628): the bins are written; a new hour opens a bin, and the window keeps 720. -/
def execWearBinWrite (dt : Nat) (newHour : Bool) (s : State) : Out :=
  .next (
    let s1 := s.tick dt
    if !s1.stw.running then s1
    else
      let bins := if newHour then ((0, 0) :: s1.pwr.bins).take 720 else s1.pwr.bins
      ({ s1 with pwr := { s1.pwr with bins := bins } }).writeBins)

/-! ### SOLSTICE (R620 to R625) -/

/-- An episode ends: it is charged in whole ms, rounded up, the rest of its reservation is returned, the bins are written,
and the cancels complete. -/
def State.endEpisode (s : State) : State :=
  let o := s.pwr.sol
  let ms := (o.chargedNs + 999999) / 1000000
  let tail := !s.envOk
  let s1 := { s with pwr := { s.pwr with bins := addBin s.pwr.bins 0 (ms * 1000000) } }
  let s2 := (s1.setSol { o with
    state := .off, k := 0, dies := [], reservedMs := 0, hard := false, cancels := [], endedAt := some s.tb.now,
    tail := tail }).writeBins
  o.cancels.foldl (fun t c => t.finish { block := c.1, id := c.2.1 } { Fin.ok with c0 := c.2.2 }) s2

/-- k falls by one. -/
def State.fallOne (s : State) : State :=
  let o := s.pwr.sol
  if o.k ≤ 1 then (s.setSol { o with k := 0 }).endEpisode else s.setSol { o with k := o.k - 1 }

/-- The request completes: COUNT0 the budget before its reservation, COUNT1 the highest k. -/
def State.endRequest (s : State) : State :=
  let o := s.pwr.sol
  match o.request with
  | none => s
  | some c => (s.setSol { o with request := none }).finish { block := c.1, id := c.2 } { Fin.ok with c0 := o.remainBefore, c1 := o.highest }

/-- A step-down begins (R622): LAST_END, event 0x0704, and the first step at once. A cancelled episode stays in DRAINING. -/
def State.beginStepdown (s : State) (cause : Nat) : State :=
  let o := s.pwr.sol
  let s1 := (s.endRequest).setSol { (s.endRequest).pwr.sol with
    state := if o.state = .draining then .draining else .stepdown, lastEnd := cause, hard := decide (cause = 3) }
  (s1.record { EventRec.plain 0x0704 with detail := cause + o.k * 16 }).fallOne

/-- A trigger of R621 that the samples show, the lowest code among them (R639). -/
def State.solTrigger (s : State) : Option Nat :=
  if s.pwr.sol.state ≠ .ramp ∧ s.pwr.sol.state ≠ .active then none
  else if 940 ≤ s.pwr.countAbove 10000 8400 then some 2
  else if s.pwr.twoAbove 9600 then some 3
  else if (List.range 16).any (fun d => (dieSensors d).any (fun i => atLeast (s.sensor i).value 102)) then some 5
  else if s.pwr.meanAbove 100000 8400 then some 6
  else none

/-- A die of the boost set has a plan change or a holdover under way, which pauses a ramp (R625, R639). -/
def State.rampPaused (s : State) : Bool :=
  s.pwr.sol.dies.any (fun d => (s.dieClk d).changing || (s.pll d).phase == .holdover)

/-- The ramp has reached its level: the request completes, and SOLSTICE is ACTIVE, or steps down if it was cancelled. -/
def State.rampDone (s : State) : State :=
  let o := s.pwr.sol
  if o.k < o.level then s
  else if o.state = .ramp then s.endRequest.setSol { s.endRequest.pwr.sol with state := .active, activeNs := 0 }
  else s.beginStepdown 1

/-- SOLSTICE_RAMP_STEP (R620): k rises by one. -/
def execSolsticeRampStep (dt : Nat) (s : State) : Out :=
  .next (
    let s1 := s.tick dt
    let o := s1.pwr.sol
    let ramping := o.state == .ramp || (o.state == .draining && o.request.isSome)
    if !ramping ∨ o.level ≤ o.k ∨ s1.rampPaused then s1
    else (s1.setSol { o with k := o.k + 1, highest := o.k + 1 }).rampDone)

/-- STEPDOWN_STEP (R622). -/
def execStepdownStep (dt : Nat) (s : State) : Out :=
  .next (
    let s1 := s.tick dt
    let o := s1.pwr.sol
    if o.state = .stepdown ∨ (o.state = .draining ∧ o.request.isNone) then s1.fallOne else s1)

/-- SOLSTICE_DURATION_EXPIRY (R621): 19.9 s charged, or ACTIVE for MAX_MS. -/
def execSolsticeDurationExpiry (s : State) : Out :=
  .next (
    let o := s.pwr.sol
    if o.state ≠ .ramp ∧ o.state ≠ .active then s
    else if 19900000000 ≤ o.chargedNs then s.beginStepdown 4
    else if o.state = .active ∧ o.maxMs * 1000000 ≤ o.activeNs then s.beginStepdown 7
    else s)

/-- Bits of R623 that a request, or a cancel, must find in range. -/
def boostFieldsOk (k : Cmd) : Bool :=
  let a := k.p 0 1
  let l := k.p 1 1
  if a = 0 then decide (1 ≤ l ∧ l ≤ 5) && k.p 3 1 == 0 && decide (k.p 4 4 ≤ 20000)
  else decide (a = 1) && l == 0 && k.p 2 1 == 0 && k.p 3 1 == 0 && k.p 4 4 == 0

/-- Step 4 of R624: none where it passes, otherwise the sensor that failed it, or 0xFFFF. -/
def State.boostUnfit (s : State) : Option Nat :=
  let rested := match s.pwr.sol.endedAt with
    | none => true
    | some t => decide (t + 10 ^ 9 ≤ s.tb.now)
  if !rested then some 0xFFFF
  else if (List.range 16).any (fun d => decide (0 < s.thrSteps d)) then some 0xFFFF
  else match (List.range 0x90).find? (fun i => atLeast (s.sensor i).value 90 ||
      (dieSensors (i / 9)).all (fun j => (s.sensor j).state == .failed)) with
    | some i => some i
    | none => sensorIds.find? (fun i => (s.sensor i).state == .critical)

/-- OP_BOOST (R623 to R625). -/
def State.boost (s : State) (c : CmdRef) (k : Cmd) : State :=
  let deny (d : Nat) : State := s.endCmd c (Fin.with stBoostDenied d)
  let o := s.pwr.sol
  if !boostFieldsOk k then deny 1
  else if k.p 0 1 = 1 then
    if o.state = .off then s.endCmd c Fin.ok
    else
      let s1 := (s.startCmd c).setSol { o with state := .draining, cancels := o.cancels ++ [(c.block, c.id, 0)] }
      if o.state = .active then s1.beginStepdown 1 else s1
  else if o.state ≠ .off then deny 2
  else
    let mask := k.p 2 1
    let ps := if mask = 0 then (List.range 8).filter (fun p => (s.part p).isSome) else bitsSet mask 8
    let dies := ps.flatMap (fun p => match s.part p with
      | none => []
      | some x => x.dies)
    if ps.any (fun p => (s.part p).isNone) ∨ dies.all (fun d => (s.pll d).coastingAny) then deny 3
    else match s.boostUnfit with
      | some i => deny (4 + i * 2 ^ 16)
      | none =>
        let ms := if k.p 4 4 = 0 then 20000 else k.p 4 4
        if s.wearLeft < ms then s.endCmd c (Fin.with stBoostWearLimit (s.wearLeft % 2 ^ 32))
        else ((s.startCmd c).setSol { o with
          state := .ramp, k := 1, level := k.p 1 1, dies := dies, maxMs := ms, highest := 1, reservedMs := ms,
          remainBefore := s.wearLeft, chargedNs := 0, activeNs := 0, hard := false, request := some (c.block, c.id),
          cancels := [], tail := false }).rampDone

/-- OP_BOOST (R623 to R625). -/
def execOpBoost (c : CmdRef) (s : State) : Out := .next (s.gate c 0x0706 false (fun t k _ _ => t.boost c k))

/-- The drain limit of a cancelled request expires (R625 step 3): the request ends with ST_ABORTED_BY_DISABLE, the cancels
count it, and k steps down. -/
def State.boostDrainLimit (s : State) : State :=
  let o := s.pwr.sol
  match o.request with
  | none => s
  | some c =>
    if o.state ≠ .draining then s
    else
      let s1 := s.setSol { o with request := none, cancels := o.cancels.map (fun q => (q.1, q.2.1, q.2.2 + 1)) }
      (s1.endAtBoundary { block := c.1, id := c.2 } stAbortedByDisable 0).beginStepdown 1

/-! ### Samples (R573, R574, R630) -/

/-- The state a sample gives a sensor; module power is judged by its 1 s mean. -/
def State.judged (s : State) (id : Nat) (old : SensorState) (v : Int) : SensorState :=
  if id = 0x0104 then (if aboveLimit false (decide (1 ≤ old.rank)) (s.pwr.sum 100000) (7500 * 100000) then .warning else .normal)
  else judge id old v

/-- Upward crossings are logged: sensor in DETAIL [15:0], value in [63:32]. -/
def State.crossings (s : State) (id : Nat) (val : Word) (old new : SensorState) : State :=
  let e (code : Nat) : EventRec := { EventRec.plain code with detail := id + val.toNat * 2 ^ 32 }
  let s1 := if old.rank < 1 ∧ 1 ≤ new.rank then s.record (e 0x0701) else s
  if old.rank < 2 ∧ 2 ≤ new.rank then s1.record (e 0x0702) else s1

/-- Programs of a flash stack pause at its critical temperature until it reads 75 °C (R630). -/
def State.flashPause (s : State) (id : Nat) (v : Int) : State :=
  if id ≠ 0x009C ∧ id ≠ 0x009D then s
  else
    let k := id - 0x009C
    let ps := s.flash.paused
    let now := if fx 80 ≤ v then (if ps.contains k then ps else ps ++ [k]) else if v ≤ fx 75 then ps.filter (fun i => i != k) else ps
    { s with flash := { s.flash with paused := now } }

/-- One module power sample enters the windows of R618 and R621. -/
def State.powerSample (s : State) (id : Nat) (w : Word) : State :=
  if id = 0x0104 then { s with pwr := { s.pwr with window := (w :: s.pwr.window).take 100000 } } else s

/-- A sensor reads a value: it fails, or its value, highest value and state are taken (R574, R575, R630). A failed sensor stays
failed (DEDUCED, notes/assumptions/24.md). -/
def State.sample (s : State) (id : Nat) (val : Word) (outside : Bool) : State :=
  let x := s.sensor id
  if x.state = .failed then (s.setSensor id { x with at_ := s.tb.now }).powerSample id x.value
  else
    let far := match fxOf val with
      | none => false
      | some v => s.outlier id v
    let n := if far then x.outliers + 1 else 0
    match fxOf val, outside || decide (10 ≤ n) with
    | some v, false =>
      let s1 := s.powerSample id val
      let st := s1.judged id x.state v
      let top := match x.max with
        | none => val
        | some m => if (fxOf m).getD 0 < v then val else m
      let recent := if (powerDie id).isSome then (val :: x.recent).take 10000 else []
      let s2 := s1.setSensor id { value := val, max := some top, at_ := s.tb.now, state := st, outliers := n, recent := recent }
      ((s2.flashPause id v).crossings id val x.state st).noteStatus
    | _, _ =>
      let s1 := s.setSensor id { x with value := Float.nan32, at_ := s.tb.now, state := .failed, outliers := n }
      ((s1.powerSample id Float.nan32).event 0x0703).noteStatus

/-- SENSOR_SAMPLE (R573, R574, R618, R621, R630): `outside` tells that the reading lies outside the sensor's physical range. -/
def execSensorSample (sensor : Nat) (val : Word) (outside : Bool) (dt : Nat) (s : State) : Out :=
  .next (
    let s1 := s.tick dt
    if !s1.start.auxGood ∨ sensorType sensor = 0xF then s1
    else
      let s2 := s1.sample sensor val outside
      match s2.solTrigger with
      | none => s2
      | some cause => s2.beginStepdown cause)

end Sys2Proof.Machine
end

