-- ==== Sys2Proof/Machine/Drains.lean ====
section
/-! DEFINITION. The drain limit of each unit that can be disabled (R401, R420, R457, R470, R471, R474, R491, R514, R625). -/

namespace Sys2Proof.Machine

/-- Step 3 of R470: every listed command that has no record ends at its last commit boundary. -/
def State.endAll (s : State) (cs : List CmdRef) : State := cs.foldl (fun t c => t.endAtBoundary c stAbortedByDisable 0) s

/-- A DRAINING partition, or one that is DISABLED and being destroyed, reaches its limit (R457, R472, R475). -/
def State.partDrainLimit (s : State) (p : Nat) : State :=
  match s.part p with
  | none => s
  | some x => if x.state = .draining then s.endAll (s.partCmds p) else s

/-- A context in destruction reaches its limit (R474). -/
def State.ctxDrainLimit (s : State) (p c : Nat) : State :=
  match s.ctx p c with
  | none => s
  | some k => if k.destroyedBy.isSome then s.endAll (s.ctxCmds p c) else s

/-- A DRAINING submission ring reaches its limit (R420). -/
def State.ringDrainLimit (s : State) (b r : Nat) : State :=
  if (s.ring b r).sq.state = .draining then (s.endAll (s.cmdsOf b (fun k => k.ring == r))).sqDrained b r else s

/-- A DRAINING capture stream reaches FRAME_TIMEOUT_US: its frames are ABORTED (R491). -/
def State.streamDrainLimit (s : State) (n : Nat) : State :=
  if (s.stream n).state = .draining then
    let aborted := !(s.stream n).frames.isEmpty
    (s.abortFrames n).streamDrained n aborted
  else s

/-- A draining decode area reaches its limit: the decode commands that still run end (R514 step 2). -/
def State.decodeDrainLimit (s : State) (p c : Nat) : State :=
  match s.ctx p c with
  | none => s
  | some k =>
    if k.dcacheBy.isSome then s.endAll (s.cmdsOf (1 + p) (fun j => j.ctxField == c && decide (0 < j.staged))) else s

/-- DRAIN_LIMIT_EXPIRY (R470, R471). -/
def execDrainLimitExpiry (u : DrainUnit) (s : State) : Out :=
  .next (match u with
    | .partition p => (s.partDrainLimit p).settle
    | .context p c => (s.ctxDrainLimit p c).settle
    | .ring b r => (s.ringDrainLimit b r).settle
    | .stream n => (s.streamDrainLimit n).settle
    | .decodeArea p c => (s.decodeDrainLimit p c).settle
    | .boost => s.boostDrainLimit
    | .spanPort n => (s.portDrainLimit n).settle)

end Sys2Proof.Machine
end

