-- ==== Sys2Proof/Machine/Flash.lean ====
section
/-! DEFINITION. The flash tier (R351 to R362): placement of units, retirement, relocation and levelling, and the store
commands. -/

namespace Sys2Proof.Machine

/-! ### Access -/

/-- The flash of a die pair. -/
def State.fpair (s : State) (k : Nat) : FlashPair := SMap.get FlashPair.fresh s.flash.pairs k

/-- Replace the flash of a die pair. -/
def State.setFpair (s : State) (k : Nat) (x : FlashPair) : State :=
  { s with flash := { s.flash with pairs := SMap.set FlashPair.fresh s.flash.pairs k x } }

/-- Change the flash of a die pair. -/
def State.updFpair (s : State) (k : Nat) (f : FlashPair → FlashPair) : State := s.setFpair k (f (s.fpair k))

/-- A channel of a pair. -/
def FlashPair.chan (x : FlashPair) (c : Nat) : FlashChan := SMap.get FlashChan.fresh x.chans c

/-- Change a channel of a pair. -/
def FlashPair.updChan (x : FlashPair) (c : Nat) (f : FlashChan → FlashChan) : FlashPair :=
  { x with chans := SMap.set FlashChan.fresh x.chans c (f (x.chan c)) }

/-- A superblock of a channel. -/
def FlashChan.sb (x : FlashChan) (n : Nat) : Superblock := SMap.get Superblock.fresh x.sbs n

/-- Change a superblock of a channel. -/
def FlashChan.updSb (x : FlashChan) (n : Nat) (f : Superblock → Superblock) : FlashChan :=
  { x with sbs := SMap.set Superblock.fresh x.sbs n (f (x.sb n)) }

/-- Superblocks of a channel, and blocks of a channel. -/
def sbCount : Nat := 2560
def blockCount : Nat := 16 * sbCount

/-- UNIT of a channel of a pair (R454, R578): channels 2k and 2k + 1 of FS0, then of FS1. -/
def pairChanUnit (k c : Nat) : Nat := flashUnit (c / 2) (2 * k + c % 2)

/-- A store by its handle. -/
def State.store (s : State) (h : Nat) : Option Store := s.flash.stores.find? (fun t => t.handle == h)

/-- Change a store. -/
def State.updStore (s : State) (h : Nat) (f : Store → Store) : State :=
  { s with flash := { s.flash with stores := s.flash.stores.map (fun t => if t.handle = h then f t else t) } }

/-- The die pair of a unit of a store (R356). -/
def Store.pairOf (t : Store) (u : Nat) : Nat := t.pairs.getD (u % t.pairs.length) 0

/-- Bytes of a unit. -/
def unitBytes : Nat := 65536

/-! ### Placement (R356, R358) -/

/-- Blocks of a superblock that take units: not retired, and not the last such block, which holds parity. -/
def Superblock.dataBlocks (x : Superblock) : List Nat :=
  ((List.range 16).filter (fun b => !x.retired.contains b)).dropLast

/-- The next free slot at or after the fill. -/
def Superblock.nextSlot (x : Superblock) : Option Nat :=
  (List.range (4096 - x.fill)).findSome? (fun i =>
    let d := x.fill + i
    if x.dataBlocks.contains (d % 16) then some d else none)

/-- Data slots of a superblock. -/
def Superblock.capacity (x : Superblock) : Nat := 256 * x.dataBlocks.length

/-- Valid units of a superblock of a pair. -/
def FlashPair.valid (x : FlashPair) (c n : Nat) : List MapEntry := x.map.filter (fun m => m.chan == c && m.sb == n)

/-- The free superblock with the lowest erase count (R356). -/
def FlashChan.freshest (x : FlashChan) : Option Nat :=
  (List.range sbCount).foldl (fun b n =>
    if (x.sb n).use ≠ SbUse.free ∨ (x.sb n).capacity = 0 then b
    else match b with
      | none => some n
      | some m => if (x.sb n).erases < (x.sb m).erases then some n else b) none

/-- The free superblock with the highest erase count. -/
def FlashChan.oldest (x : FlashChan) : Option Nat :=
  (List.range sbCount).foldl (fun b n =>
    if (x.sb n).use ≠ SbUse.free ∨ (x.sb n).capacity = 0 then b
    else match b with
      | none => some n
      | some m => if (x.sb m).erases < (x.sb n).erases then some n else b) none

/-- Make sure a channel has an open superblock with room. -/
def FlashPair.openSb (x : FlashPair) (c : Nat) : Option (Nat × FlashPair) :=
  let ch := x.chan c
  let room := match ch.opened with
    | none => none
    | some n => if ((ch.sb n).nextSlot).isSome then some n else none
  match room with
  | some n => some (n, x)
  | none =>
    let ch1 := match ch.opened with
      | none => ch
      | some n => { ch.updSb n (fun b => { b with use := SbUse.full }) with opened := none }
    match ch1.freshest with
    | some n =>
      let ch2 := { ch1.updSb n (fun b => { b with use := SbUse.opened, fill := 0 }) with opened := some n }
      some (n, x.updChan c (fun _ => ch2))
    | none => none

/-- Free physical units of a pair: data slots that hold no valid unit. -/
def FlashPair.freeUnits (x : FlashPair) : Nat :=
  let slots := ((List.range 4).map (fun c =>
    (sbCount * 3840) - ((x.chan c).sbs.map (fun e => 3840 - e.2.capacity)).sum)).sum
  slots - x.map.length

/-- Put a unit into the open superblock of a channel; a map entry of the unit is replaced, and the journal grows (R353). -/
def FlashPair.program (x : FlashPair) (c store unit : Nat) : Option FlashPair :=
  match x.openSb c with
  | none => none
  | some (n, y) =>
    match ((y.chan c).sb n).nextSlot with
    | none => none
    | some d =>
      let z := y.updChan c (fun ch => ch.updSb n (fun b => { b with fill := d + 1 }))
      some (z.change store unit (some { store := store, unit := unit, chan := c, sb := n, slot := d }))

/-- Reclaim the full superblock of a channel with fewest valid units: they keep its first slots, and its blocks are erased
(garbage collection, which R351's table names and the manual does not describe; notes/assumptions/18.md). -/
def FlashPair.reclaim (x : FlashPair) (c : Nat) : Option FlashPair :=
  let full := (List.range sbCount).filter (fun n => ((x.chan c).sb n).use == SbUse.full)
  let best := full.foldl (fun b n => match b with
    | none => some n
    | some m => if (x.valid c n).length < (x.valid c m).length then some n else b) none
  match best with
  | none => none
  | some n =>
    let vs := x.valid c n
    let sb := (x.chan c).sb n
    if sb.capacity ≤ vs.length then none
    else
      let slots := (List.range 4096).filter (fun d => sb.dataBlocks.contains (d % 16))
      let moved : List MapEntry := (vs.zip slots).map (fun e => { e.1 with slot := e.2 })
      let fill := match moved.getLast? with
        | none => 0
        | some m => m.slot + 1
      some (moved.foldl (fun y m => y.change m.store m.unit (some m)) (x.updChan c (fun ch => { ch.updSb n (fun b => { b with
        use := SbUse.opened, fill := fill, erases := b.erases + 1, reads := [], relocating := false }) with opened := some n })))

/-- Place a unit on the channel of its turn (R356); none where the pair has no free unit. -/
def FlashPair.place (x : FlashPair) (store unit : Nat) : Option FlashPair :=
  if x.freeUnits = 0 then none
  else
    let order := (List.range 4).map (fun i => (x.next + i) % 4)
    let y := { x with next := (x.next + 1) % 4 }
    (order.findSome? (fun c => y.program c store unit)).orElse (fun _ =>
      order.findSome? (fun c => (y.reclaim c).bind (fun z => z.program c store unit)))

/-! ### Retirement and wear (R358, R359) -/

/-- Retired blocks of a channel. -/
def FlashChan.retiredBlocks (x : FlashChan) : Nat := (x.sbs.map (fun e => e.2.retired.length)).sum

/-- Mean erase count of a channel's blocks, rounded down. -/
def FlashChan.mean (x : FlashChan) : Nat := (x.sbs.map (fun e => e.2.erases)).sum / sbCount

/-- Log what a change of a channel brings: capacity loss beyond 10 % (R358), and wear at 80 % and 95 % of 3,000 (R359). -/
def State.chanWear (s : State) (k c : Nat) : State :=
  let ch := (s.fpair k).chan c
  let ev (t : State) (code : Nat) : State := t.record { EventRec.plain code with unit := pairChanUnit k c }
  let s1 := if blockCount < 10 * ch.retiredBlocks ∧ !ch.capLoss then
      (ev (s.updFpair k (fun x => x.updChan c (fun y => { y with capLoss := true }))) 0x0402).noteStatus
    else s
  let s2 := if 2400 ≤ ch.mean ∧ !ch.wear80 then
      ev (s1.updFpair k (fun x => x.updChan c (fun y => { y with wear80 := true }))) 0x0403
    else s1
  if 2850 ≤ ch.mean ∧ !ch.wear95 then
    ev (s2.updFpair k (fun x => x.updChan c (fun y => { y with wear95 := true }))) 0x0403
  else s2

/-- Retire blocks of a superblock. -/
def State.retireBlocks (s : State) (k c n : Nat) (bs : List Nat) : State :=
  (s.updFpair k (fun x => x.updChan c (fun ch => ch.updSb n (fun b =>
    { b with retired := (b.retired ++ bs).dedup })))).chanWear k c

/-- Erase a superblock (R357 step 3): counts rise, read counters reset, it is free. -/
def State.eraseSb (s : State) (k c n : Nat) : State :=
  (s.updFpair k (fun x => x.updChan c (fun ch =>
    { ch.updSb n (fun b => { b with use := SbUse.free, fill := 0, erases := b.erases + 1, reads := [], relocating := false }) with
      opened := if ch.opened = some n then none else ch.opened }))).chanWear k c

/-- Move the valid units of a superblock into the channel's open superblock, or onto another channel of the pair. -/
def FlashPair.evacuate (x : FlashPair) (c n : Nat) : FlashPair :=
  let x1 := x.updChan c (fun ch => if ch.opened = some n then
    { ch.updSb n (fun b => { b with use := SbUse.full }) with opened := none } else ch)
  (x1.valid c n).foldl (fun y m =>
    ((y.program c m.store m.unit).orElse (fun _ => y.place m.store m.unit)).getD y) x1

/-! ### Checks shared by the store commands (R360) -/

/-- Fields of a store block. -/
def Cmd.stStore (k : Cmd) : Nat := k.p 0 4
def Cmd.stPersist (k : Cmd) : Bool := bitOf (k.p 4 4) 0
def Cmd.stUnit (k : Cmd) : Nat := k.p 8 8
def Cmd.stCount (k : Cmd) : Nat := k.p 0x10 4
def Cmd.stAddr (k : Cmd) : Nat := k.p 0x18 6

/-- Step 1 of R360: reserved fields zero, and unused fields zero. -/
def Cmd.storeFields (k : Cmd) : Bool :=
  let z (v : Nat) : Bool := v == 0
  let common := decide (k.p 4 4 < 2) && z (k.p 0x14 4) && z (k.p 0x1E 2)
  let op := k.opcode
  common &&
    (if op = 0x0405 then z k.stStore && z k.stCount && z k.stAddr
     else if op = 0x0406 ∨ op = 0x0407 then z (k.p 4 4) && z k.stUnit && z k.stCount && z k.stAddr
     else if op = 0x040A then z (k.p 4 4) && decide (k.stCount ≤ 2 ^ 20) && z k.stAddr
     else if op = 0x040B then z k.stStore && z (k.p 4 4) && z k.stUnit && z k.stCount && z (k.stAddr % 256)
     else z (k.p 4 4) && decide (k.stCount ≤ 2 ^ 20) && z (k.stAddr % 256))

/-- Steps 1 to 4 of R360 for a command on units of an attached store: how it fails, or none. -/
def State.unitsFail (s : State) (k : Cmd) (p h : Nat) : Option Fin :=
  if !k.storeFields then some (Fin.bare stStoreParam)
  else match s.store k.stStore with
    | none => some (Fin.bare stStoreInvalid)
    | some t =>
      if t.part ≠ some p ∨ t.ctx ≠ some h ∨ !t.keyed then some (Fin.bare stStoreInvalid)
      else if t.units < k.stUnit + k.stCount then some (Fin.bare stStoreRange)
      else if k.stCount = 0 then some (Fin.bare stOkEmpty)
      else none

/-- Store commands wait while a map of the partition's pairs is not in place (R336, R353). -/
def State.mapsOut (s : State) (p : Nat) : Bool :=
  !s.flash.mapsReady || (match s.part p with
    | none => false
    | some x => (bitsSet x.pairMask.toNat 8).any (fun k => (s.fpair k).mapLost))

/-- Another granule of a command is committed. -/
def State.commitUnit (s : State) (c : CmdRef) : State :=
  s.updCmd c (fun k => { k with granules := k.granules + 1, progress := k.progress + 1 })

/-! ### OP_STORE_CREATE, _DESTROY, _ATTACH -/

/-- The next store handle, of 0x0001 to 0xFFFF (R452). -/
def State.storeHandle (s : State) : Option Nat :=
  ((List.range 0xFFFF).map (fun i => (s.flash.nextHandle - 1 + i) % 0xFFFF + 1)).find? (fun h => (s.store h).isNone)

/-- OP_STORE_CREATE (R360, R361, R367). -/
def State.storeCreate (s : State) (c : CmdRef) (k : Cmd) (p h : Nat) : State :=
  match s.part p, s.ctx p h with
  | some x, some z =>
    let pairs := bitsSet x.pairMask.toNat 8
    let u := k.stUnit
    if !k.storeFields ∨ u = 0 ∨ 2 ^ 25 * pairs.length < u then s.endCmd c (Fin.bare stStoreParam)
    else if z.quota.flash < s.flashCharge p (some h) + u then s.endCmd c (quotaFin 0)
    else if s.mapsOut p then s
    else match s.storeHandle with
      | none => s.endCmd c (quotaFin 0)
      | some n =>
        let t : Store := { handle := n, part := some p, ctx := some h, persistent := k.stPersist, units := u, pairs := pairs,
                           data := [], written := [], keyed := true }
        ({ s with flash := { s.flash with stores := s.flash.stores ++ [t], nextHandle := n % 0xFFFF + 1 } }).endCmd c
          { Fin.ok with c0 := n }
  | _, _ => s

/-- OP_STORE_CREATE. -/
def execOpStoreCreate (c : CmdRef) (s : State) : Out := .next (s.gate c 0x0405 false (fun t k p h => t.storeCreate c k p h))

/-- OP_STORE_DESTROY (R360): at a command boundary of its context. -/
def State.storeDestroy (s : State) (c : CmdRef) (k : Cmd) (p h : Nat) : State :=
  if !k.storeFields then s.endCmd c (Fin.bare stStoreParam)
  else match s.store k.stStore with
    | none => s.endCmd c (Fin.bare stStoreInvalid)
    | some t =>
      if t.part ≠ some p ∨ t.ctx ≠ some h then s.endCmd c (Fin.bare stStoreInvalid)
      else if !s.atBoundary c p h ∨ s.mapsOut p = true then s
      else (s.dropStores (fun y => y.handle == t.handle)).endCmd c Fin.ok

/-- OP_STORE_DESTROY. -/
def execOpStoreDestroy (c : CmdRef) (s : State) : Out := .next (s.gate c 0x0406 false (fun t k p h => t.storeDestroy c k p h))

/-- OP_STORE_ATTACH (R360, R361, R683). -/
def State.storeAttach (s : State) (c : CmdRef) (k : Cmd) (p h : Nat) : State :=
  match s.ctx p h with
  | none => s
  | some z =>
    if !k.storeFields then s.endCmd c (Fin.bare stStoreParam)
    else match s.store k.stStore with
      | none => s.endCmd c (Fin.bare stStoreInvalid)
      | some t =>
        if t.part ≠ some p ∨ t.ctx.isSome ∨ !t.persistent then s.endCmd c (Fin.bare stStoreInvalid)
        else if z.quota.flash < s.flashCharge p (some h) + t.units then s.endCmd c (quotaFin 0)
        else if s.mapsOut p then s
        else (s.updStore t.handle (fun y => { y with ctx := some h })).endCmd c Fin.ok

/-- OP_STORE_ATTACH. -/
def execOpStoreAttach (c : CmdRef) (s : State) : Out := .next (s.gate c 0x0407 false (fun t k p h => t.storeAttach c k p h))

/-! ### OP_STORE_WRITE and FLASH_WRITE_DONE (R354, R358, R360) -/

/-- OP_STORE_WRITE (R360): its units wait to be programmed. -/
def State.storeWrite (s : State) (c : CmdRef) (k : Cmd) (p h : Nat) : State :=
  match s.unitsFail k p h with
  | some f => s.endCmd c f
  | none =>
    if s.mapsOut p then s
    else match s.store k.stStore with
      | none => s
      | some t =>
        (List.range k.stCount).foldl (fun y i =>
          let u := k.stUnit + i
          y.updFpair (t.pairOf u) (fun x => { x with
            jobs := x.jobs ++ [{ store := t.handle, unit := u, addr := k.stAddr + unitBytes * i, block := c.block, cmd := c.id }] }))
          (s.startCmd c)

/-- OP_STORE_WRITE. -/
def execOpStoreWrite (c : CmdRef) (s : State) : Out := .next (s.gate c 0x0408 false (fun t k p h => t.storeWrite c k p h))

/-- A program that fails retires the block of the slot it was to take; the unit takes another (R358). -/
def State.programFailed (s : State) (k : Nat) : State :=
  let x := s.fpair k
  let c := x.next % 4
  match x.openSb c with
  | none => s
  | some (n, y) => match ((y.chan c).sb n).nextSlot with
    | none => s
    | some d => (s.setFpair k y).retireBlocks k c n [d % 16]

/-- Program the unit of a job with the bytes read for it. -/
def State.programUnit (s : State) (k : Nat) (j : FlashJob) (bs : List Byte) : Option State :=
  ((s.fpair k).place j.store j.unit).map (fun x =>
    (s.setFpair k { x with jobs := x.jobs.drop 1 }).updStore j.store (fun t => { t with
      data := Memory.write (Memory.zero t.data (unitBytes * j.unit) unitBytes) (unitBytes * j.unit) bs
      written := SMap.set false t.written j.unit true }))

/-- The write command of a job stands at its last unit. -/
def State.writeDone (s : State) (c : CmdRef) : State :=
  match s.cmd c with
  | none => s
  | some k => if k.progress = k.stCount then s.finish c Fin.ok else s

/-- FLASH_WRITE_DONE (R354, R356, R358): the oldest waiting unit is read into the write buffer, from which a failed program is
repeated, and is programmed with its journal record, in unit
order of its command; the last one completes the write. While programs of the stack are paused it waits (R630). -/
def execFlashWriteDone (pair : Nat) (programBad : Bool) (s : State) : Out :=
  .next (match (s.fpair pair).jobs with
    | [] => s
    | j :: _ =>
      let c : CmdRef := { block := j.block, id := j.cmd }
      match s.cmd c with
      | none => s.updFpair pair (fun x => { x with jobs := x.jobs.drop 1 })
      | some k =>
        if j.unit ≠ k.stUnit + k.progress ∨ s.flash.paused.contains ((s.fpair pair).next % 4 / 2) then s
        else
          let s1 := if programBad then s.programFailed pair else s
          match s1.readEng (k.who c.block) j.addr unitBytes with
          | .wait => s
          | .bad st d s2 => (s2.failCmd c st d).settle
          | .ok bs s2 => match s2.programUnit pair j bs with
            | none => (s2.failCmd c stQuota (k.granules * 2 ^ 32)).settle
            | some s3 => (s3.commitUnit c).writeDone c)

/-- STRIPE_CLOSE_TIMER (R354): the open stripe of a channel is filled with padding. -/
def execStripeCloseTimer (pair : Nat) (chan : Nat) (s : State) : Out :=
  .next (s.updFpair pair (fun x => match (x.chan chan).opened with
    | none => x
    | some n => x.updChan chan (fun ch => ch.updSb n (fun b => { b with fill := (b.fill + 15) / 16 * 16 }))))

/-- MAP_CHECKPOINT (R353): the whole map is written to flash, and the journal starts again. -/
def execMapCheckpoint (pair : Nat) (s : State) : Out :=
  .next (s.updFpair pair (fun x => { x with journal := [], checkpoint := x.map }))

/-! ### OP_STORE_READ (R352, R355, R357, R358, R360) -/

/-- How the read of a written unit went. -/
def outcomeOf (errs : List UnitErr) (u : Nat) : Option UnitOutcome := (errs.find? (fun e => e.unit == u)).map UnitErr.outcome

/-- A unit of a superblock has been read: its block's counter rises, and at RD_LIMIT relocation is scheduled (R357). -/
def State.countRead (s : State) (k : Nat) (m : MapEntry) : State :=
  s.updFpair k (fun x => x.updChan m.chan (fun ch => ch.updSb m.sb (fun b =>
    let n := SMap.get 0 b.reads (m.slot % 16) + 1
    { b with reads := SMap.set 0 b.reads (m.slot % 16) n, relocating := b.relocating || decide (s.flash.rdLimit ≤ n) })))

/-- A rebuild reads the other units of the stripe, parity among them: the counters of their blocks rise (R352, R357). -/
def State.readStripe (s : State) (k : Nat) (m : MapEntry) : State :=
  let sb := ((s.fpair k).chan m.chan).sb m.sb
  ((List.range 16).filter (fun b => b != m.slot % 16 && !sb.retired.contains b)).foldl (fun t b =>
    t.countRead k { m with slot := m.slot / 16 * 16 + b }) s

/-- A stripe whose parity is not programmed: the write buffer keeps its data units (R354). -/
def Superblock.buffers (x : Superblock) (slot : Nat) : Bool :=
  x.use == SbUse.opened && slot / 16 == x.fill / 16 && x.dataBlocks.any (fun b => decide (x.fill % 16 ≤ b))

/-- A stripe rebuild (R352, R358): counted, logged, the superblock is relocated, and a block rebuilt twice is retired. -/
def State.rebuildUnit (s : State) (k : Nat) (m : MapEntry) : State :=
  let b := m.slot % 16
  let n := SMap.get 0 ((((s.fpair k).chan m.chan).sb m.sb).rebuilds) b + 1
  let s1 := s.updFpair k (fun x => { x.updChan m.chan (fun ch => ch.updSb m.sb (fun y =>
    { y with rebuilds := SMap.set 0 y.rebuilds b n, relocating := true })) with rebuilds := satInc16 x.rebuilds })
  let s2 := s1.record { EventRec.plain 0x0401 with unit := pairChanUnit k m.chan }
  if 2 ≤ n then s2.retireBlocks k m.chan m.sb [b] else s2

/-- Read one unit of a store: its bytes and whether it was written, or the loss of it. What the write buffer holds is not lost
(R354). -/
def State.readUnit (s : State) (t : Store) (u : Nat) (errs : List UnitErr) : Option (List Byte × Bool) × State :=
  if !SMap.get false t.written u then (some (List.replicate unitBytes 0#8, false), s)
  else
    let k := t.pairOf u
    let data := some (Memory.read t.data (unitBytes * u) unitBytes, true)
    match (s.fpair k).map.find? (fun m => m.store == t.handle && m.unit == u) with
    | none => (data, s)
    | some m =>
      let s1 := s.countRead k m
      let retried := s1.updFpair k (fun x => { x with readRetries := satInc32 x.readRetries })
      let held := (((s.fpair k).chan m.chan).sb m.sb).buffers m.slot
      match outcomeOf errs u with
      | none => (data, s1)
      | some .ladder => (data, retried)
      | some .rebuild => (data, if held then retried else (retried.readStripe k m).rebuildUnit k m)
      | some .lost =>
        if held then (data, retried)
        else (none, (retried.readStripe k m).updFpair k (fun x => { x with losses := satInc16 x.losses }))

/-- DETAIL of a flash loss (R452). -/
def flashLoss (store unit : Nat) : Nat := unit % 2 ^ 32 + store % 2 ^ 16 * 2 ^ 32 + 2 ^ 49

/-- Units of a read still to be made, one after another. -/
def State.readUnits (s : State) (c : CmdRef) (k : Cmd) (t : Store) (errs : List UnitErr) : List Nat → State
  | [] => s.endCmd c Fin.ok
  | i :: is =>
    let u := k.stUnit + i
    match s.readUnit t u errs with
    | (none, s1) => s1.failCmd c stDataLoss (flashLoss t.handle u)
    | (some (bs, written), s1) =>
      match s1.writeEng (k.who c.block) (k.stAddr + unitBytes * i) bs with
      | .wait => s
      | .bad st d s2 => s2.failCmd c st d
      | .ok _ s2 =>
        let s3 := s2.commitUnit c
        (if written then s3 else s3.updCmd c (fun j => { j with flashUnwritten := true })).readUnits c k t errs is

/-- OP_STORE_READ. -/
def execOpStoreRead (c : CmdRef) (errs : List UnitErr) (s : State) : Out :=
  .next (s.gate c 0x0409 false (fun s1 k p h =>
    match s1.unitsFail k p h with
    | some f => s1.endCmd c f
    | none =>
      if s1.mapsOut p then s1
      else match s1.store k.stStore with
        | none => s1
        | some t => s1.readUnits c k t errs ((List.range (k.stCount - k.progress)).map (fun i => k.progress + i))))

/-! ### OP_STORE_TRIM and OP_STORE_STAT (R355, R360, R362) -/

/-- Trim one unit: it reads as zeros again, and the change is journalled. -/
def State.trimUnit (s : State) (t : Store) (u : Nat) : State :=
  let s1 := s.updStore t.handle (fun y => { y with
    data := Memory.zero y.data (unitBytes * u) unitBytes, written := SMap.set false y.written u false })
  s1.updFpair (t.pairOf u) (fun x => x.change t.handle u none)

/-- OP_STORE_TRIM. -/
def execOpStoreTrim (c : CmdRef) (s : State) : Out :=
  .next (s.gate c 0x040A false (fun s1 k p h =>
    match s1.unitsFail k p h with
    | some f => s1.endCmd c f
    | none =>
      if s1.mapsOut p then s1
      else match s1.store k.stStore with
        | none => s1
        | some t =>
          ((List.range k.stCount).foldl (fun y i => (y.trimUnit t (k.stUnit + i)).commitUnit c) s1).endCmd c Fin.ok))

/-- One part of the statistics record (R362). -/
def FlashPair.record (x : FlashPair) : List Byte :=
  let sat (v b : Nat) : Nat := min v (2 ^ b - 1)
  let chans := (List.range 4).map x.chan
  let erases := chans.flatMap (fun ch => ch.sbs.map (fun e => e.2.erases))
  let eraseMax := erases.foldl max 0
  let mean := erases.sum / (4 * sbCount)
  let retired := (chans.map FlashChan.retiredBlocks).sum
  leBytes 64 (sat mean 16 * 2 ^ 320 + sat eraseMax 16 * 2 ^ 336 + sat retired 16 * 2 ^ 352 + x.disturbReloc.toNat * 2 ^ 368 +
    x.losses.toNat * 2 ^ 384 + x.rebuilds.toNat * 2 ^ 400 + x.readRetries.toNat * 2 ^ 416 + sat x.freeUnits 32 * 2 ^ 448 +
    sat x.map.length 32 * 2 ^ 480)

/-- Counts cleared by a read-and-clear of the record. -/
def FlashPair.clearCounts (x : FlashPair) : FlashPair := { x with readRetries := 0, rebuilds := 0, losses := 0, disturbReloc := 0 }

/-- OP_STORE_STAT (R360, R362, R424). -/
def execOpStoreStat (c : CmdRef) (s : State) : Out :=
  .next (s.gate c 0x040B false (fun t k p _ =>
    if !k.storeFields then t.endCmd c (Fin.bare stStoreParam)
    else if t.mapsOut p then t
    else match t.part p with
      | none => t
      | some x =>
        let pairs := bitsSet x.pairMask.toNat 8
        match t.output c (k.who c.block) k.stAddr (pairs.flatMap (fun q => (t.fpair q).record)) Fin.ok with
        | (s1, none) => s1
        | (s1, some f) =>
          let s2 := if k.opf0 ∧ f.status = stOk then pairs.foldl (fun y q => y.updFpair q FlashPair.clearCounts) s1 else s1
          s2.endCmd c f))

/-! ### Relocation and levelling (R356, R357) -/

/-- RELOCATION_DONE (R357, R358): every valid unit of a scheduled superblock has moved and its blocks are erased; blocks whose
erase failed are retired. -/
def execRelocationDone (pair : Nat) (chan : Nat) (sb : Nat) (badBlocks : List Nat) (s : State) : Out :=
  .next (
    if !((s.fpair pair).chan chan |>.sb sb).relocating then s
    else
      let x := (s.fpair pair).evacuate chan sb
      if !(x.valid chan sb).isEmpty then s
      else
        let s1 := (s.setFpair pair { x with disturbReloc := satInc16 x.disturbReloc }).eraseSb pair chan sb
        if badBlocks.isEmpty then s1 else s1.retireBlocks pair chan sb (badBlocks.filter (fun b => decide (b < 16))))

/-- STATIC_LEVELLING (R356): where the erase counts of a channel differ by more than 150, the valid units of the superblock
with the lowest count move into the free superblock with the highest. -/
def execStaticLevelling (pair : Nat) (chan : Nat) (s : State) : Out :=
  .next (
    let x := s.fpair pair
    let ch := x.chan chan
    let low := (List.range sbCount).foldl (fun m n => if (ch.sb n).erases < (ch.sb m).erases then n else m) 0
    let high := (List.range sbCount).foldl (fun m n => max m (ch.sb n).erases) 0
    if high ≤ (ch.sb low).erases + 150 ∨ (ch.sb low).use ≠ SbUse.full then s
    else match ch.oldest with
      | none => s
      | some d =>
        let slots := (List.range 4096).filter (fun q => (ch.sb d).dataBlocks.contains (q % 16))
        let vs := x.valid chan low
        if slots.length < vs.length then s
        else
          let moved : List MapEntry := (vs.zip slots).map (fun e => { e.1 with sb := d, slot := e.2 })
          let y := moved.foldl (fun y m => y.change m.store m.unit (some m))
            (x.updChan chan (fun z => z.updSb d (fun b => { b with use := SbUse.full, fill := 4096 })))
          (s.setFpair pair y).eraseSb pair chan low)

end Sys2Proof.Machine
end

