-- ==== Sys2Proof/Machine/PlanCmds.lean ====
section
/-! DEFINITION. Plans, weights and sequences: OP_PLAN_LOAD and its installation (R239 to R242, R251, R303, R714),
OP_WEIGHT_LOAD (R450, R551), OP_POOL_BIND, OP_TENSOR_STAT, OP_KV_STAT, and the sequence commands (R246 to R275, R450). -/

namespace Sys2Proof.Machine

/-! ### Signatures (R238, R550) -/

/-- Big-endian value of bytes. -/
def beNat (bs : List Byte) : Nat := bs.foldl (fun n b => 256 * n + b.toNat) 0

/-- n bytes of an image. -/
def sub (bs : List Byte) (off n : Nat) : List Byte := (bs.drop off).take n

/-- A signature block at an offset covers every byte before it and verifies with a key of the partition (R238, R550). -/
def Partition.signed (x : Partition) (bs : List Byte) (off : Nat) : Bool :=
  let keys : List PlanKey := x.sec.keys.filterMap (fun e => e.2)
  match keys.find? (fun k => k.keyId == field bs off 8) with
  | none => false
  | some k => field bs (off + 8) 2 == 1 &&
      Config.ecdsaVerify k.x k.y (beNat (sub bs (off + 0x10) 48)) (beNat (sub bs (off + 0x40) 48)) (Config.sha384 (bs.take off))

/-! ### KV structures of a plan (R250, R251, R302, R303, R714) -/

/-- The smallest power of two not below a size. -/
def pow2Above (n : Nat) : Nat := ((List.range 64).map (fun k => 2 ^ k)).find? (fun v => decide (n ≤ v)) |>.getD 0

namespace Plan

/-- Page bytes of a KV-page tensor. -/
def pageBytes (img : List Byte) (t : Nat) : Nat := 512 * extent img [] t 0 * (if tFormat img t = 1 then 4 else 2)

/-- Bytes of a recurrent-state tensor in a state block. -/
def stateBytes (img : List Byte) (t : Nat) : Nat := extent img [] t 0 * (if tFormat img t = 6 then 8 else 4)

/-- SB. -/
def sb (img : List Byte) : Nat := ((ofRole img 4).map (stateBytes img)).sum

/-- OFF_i of a recurrent-state tensor. -/
def stateOff (img : List Byte) (t : Nat) : Nat := (((ofRole img 4).filter (fun i => decide (i < t))).map (stateBytes img)).sum

/-- L, the live blocks. -/
def liveBlocks (img : List Byte) : Nat := match (ofRole img 4).head? with
  | none => 0
  | some t => tDim img t 1

/-- Bytes of one page set over all pools, the state pool included. -/
def setBytes (img : List Byte) : Nat := ((ofRole img 3).map (pageBytes img)).sum + sb img

/-- The live state area. -/
def liveBytes (img : List Byte) : Nat := liveBlocks img * (2 * pow2Above (sb img))

/-- Size of the KV control area (R714). -/
def ctlBytes (np : Nat) : Nat := 2 ^ 27 + (1216 * np + 65535) / 65536 * 65536

/-- The plan keeps KV or recurrent state. -/
def keepsState (img : List Byte) : Bool := !(ofRole img 3).isEmpty || !(ofRole img 4).isEmpty

/-- NP for a KV quota (R251, R714), within the 2^24 entries of the translation table; none where the fixed parts do not fit. A
plan with neither pools nor state whose quota does not hold the fixed parts has no KV control area (DESIGN CHOICE,
notes/assumptions/19.md). -/
def np? (img : List Byte) (quota : Nat) : Option Nat :=
  if quota < liveBytes img + 2 ^ 27 then (if keepsState img then none else some 0)
  else
    let room := quota - liveBytes img
    let top := min (2 ^ 24) ((room - 2 ^ 27) / (setBytes img + 1216))
    ((List.range 65).map (fun i => top - i)).find? (fun n => decide (ctlBytes n + n * setBytes img ≤ room))

/-- Bytes of the expert cache (R363). -/
def expertBytes (img : List Byte) : Nat := if experts img then expertSlots img * slotUnits img * 65536 else 0

/-- Tensors that OP_WEIGHT_LOAD loads: weight, master weight and scale tensors. -/
def weightTensors (img : List Byte) : List Nat :=
  (List.range (tensorCount img)).filter (fun t => tRole img t == 0 || tRole img t == 1 || tRole img t == 5)

/-- The plan trains: two copies of its weights (R469). -/
def trains (img : List Byte) : Bool := (List.range (entryCount img)).any (fun e => bitOf (eOps img e) 2)

end Plan

/-- Page bases of pools that lie one after another. -/
def poolBases (img : List Byte) (np : Nat) : Nat → List Nat → List (Nat × Nat × Nat)
  | _, [] => []
  | a, t :: ts => (t, a, Plan.pageBytes img t) :: poolBases img np (a + np * Plan.pageBytes img t) ts

/-- An optional firmware region: nothing is placed for no bytes. -/
def State.placeSome (s : State) (p : Nat) (kind : FwKind) (owner size align : Nat) : Option (Nat × State) :=
  if size = 0 then some (0, s) else (s.placeFw p kind owner size align).map (fun r => (r.1.base, r.2))

/-- Place the KV structures of a plan: live state area, control area, pools and state pool (R251, R303, R714). -/
def State.placeKv (s : State) (p h : Nat) (img : List Byte) (quota : Nat) : Option (KvState × State) :=
  match Plan.np? img quota with
  | none => none
  | some np =>
    let sbx := pow2Above (Plan.sb img)
    let area := if np = 0 ∧ !Plan.keepsState img then 0 else Plan.ctlBytes np
    match s.placeSome p .live h (Plan.liveBytes img) (2 * sbx) with
    | none => none
    | some (live, s1) => match s1.placeSome p .kvControl h area 0x10000 with
      | none => none
      | some (ctl, s2) => match s2.placeSome p .pool h (np * Plan.setBytes img) 0x10000 with
        | none => none
        | some (pool, s3) =>
          let sb := Plan.sb img
          some ({ np := np, pools := poolBases img np pool (Plan.ofRole img 3), ctlBase := ctl,
                  statePool := pool + np * (Plan.setBytes img - sb), liveBase := live, liveCount := Plan.liveBlocks img,
                  sb := sb, sbx := if sb = 0 then 0 else sbx, seqs := [], tree := [],
                  freePages := List.range np, zeroing := [], freeLive := List.range (Plan.liveBlocks img), keepers := [],
                  clock := 0, prefixHits := 0, prefixMisses := 0, collisions := 0, insertSkipped := 0, cowCopies := 0,
                  swapOut := 0, thawIn := 0 }, s3)

/-! ### OP_PLAN_LOAD and PLAN_INSTALL (R239 to R242) -/

/-- Firmware regions of a context that a new plan replaces (R242, R252). -/
def FwRegion.ofPlan (f : FwRegion) (h keep : Nat) : Bool :=
  f.owner == h && (match f.kind with
    | .plan => f.base != keep
    | .pool | .kvControl | .live | .experts | .weights | .qstat => true
    | .save | .decode | .capture => false)

/-- Install a plan (R242, R251, R252, R303): what the previous plan held is released, and the reserved areas of the new one
are placed within the quota; none where they do not fit (step 16 of R240). The areas of the previous plan do not count,
since they are released first (DESIGN CHOICE, notes/assumptions/19.md). -/
def State.installPlan (s : State) (p h : Nat) (pl : PlanInst) : Option State :=
  match s.ctx p h with
  | none => none
  | some k =>
    let img := pl.image
    let s1 := s.dropFw p (fun f => f.ofPlan h pl.base)
    let q := 8 * (Plan.qstats img).length
    let e := Plan.expertBytes img
    if !s1.fitsCtx p h (q + e) then none
    else match s1.placeSome p .qstat h q 0x10000 with
      | none => none
      | some (_, s2) => match s2.placeSome p .experts h e 0x10000 with
        | none => none
        | some (exp, s3) => (s3.placeKv p h img k.quota.kv).map (fun r =>
            let s4 := r.2.updCtx p h (fun y => { y with
              plan := some pl, staged := none, stagedBy := none, weights := none, qstat := [], kv := some r.1, pool := none,
              expertBase := exp, experts := [], expertClock := 0 })
            match s4.part p with
            | none => s4
            | some x => if x.current = some h then s4.setupCores p h else s4)

/-- Steps 4 to 16 of R240 on the staged copy: the load fails and the copy is released, or it waits for its boundary. -/
def State.planStaged (s : State) (c : CmdRef) (p h : Nat) (x : Partition) (base : Nat) (img : List Byte) : State :=
  let drop := s.dropFw p (fun f => f.kind == FwKind.plan && f.base == base)
  match Plan.validate img x.dies.length (x.signed img (img.length - 128)) with
  | some (st, d) => drop.endCmd c (Fin.with st d)
  | none =>
    let pl : PlanInst := { base := base, image := img }
    match s.installPlan p h pl with
    | none => drop.endCmd c (quotaFin 0)
    | some _ => (s.startCmd c).updCtx p h (fun k => { k with staged := some pl, stagedBy := some c.id })

/-- OP_PLAN_LOAD (R239, R240, R241): the image is copied, checked, and waits for its command boundary. -/
def State.planLoad (s : State) (c : CmdRef) (k : Cmd) (p h : Nat) : State :=
  let src := k.p 0 6
  let size := k.p 8 4
  if k.p 6 2 ≠ 0 ∨ k.p 0xC 4 ≠ 0 ∨ size % 64 ≠ 0 ∨ size < 4096 ∨ 2 ^ 28 < size then s.endCmd c (Fin.with stPlanInvalid 1)
  else if !s.fitsCtx p h size then s.endCmd c (quotaFin 0)
  else match s.placeFw p .plan h size 0x10000, s.part p with
    | some (f, s1), some x =>
      match s1.readEng (k.who c.block) src size with
      | .wait => s
      | .bad st d s2 => (s2.dropFw p (fun g => g.kind == FwKind.plan && g.base == f.base)).endCmd c (Fin.with st d)
      | .ok img s2 => (s2.putDram f.base img).planStaged c p h x f.base img
    | _, _ => s.endCmd c (quotaFin 0)

/-- OP_PLAN_LOAD. -/
def execOpPlanLoad (c : CmdRef) (s : State) : Out := .next (s.gate c 0x0201 false (fun t k p h => t.planLoad c k p h))

/-- PLAN_INSTALL (R242): at the command boundary of OP_PLAN_LOAD its validated copy becomes the context's plan. -/
def execPlanInstall (part : Nat) (ctx : Nat) (s : State) : Out :=
  .next (match s.ctx part ctx with
    | none => s
    | some k => match k.staged, k.stagedBy with
      | some pl, some id =>
        let c : CmdRef := { block := 1 + part, id := id }
        if !s.atBoundary c part ctx then s
        else match s.installPlan part ctx pl with
          | some s1 => s1.finish c Fin.ok
          | none =>
            ((s.dropFw part (fun f => f.kind == FwKind.plan && f.base == pl.base)).updCtx part ctx (fun y => { y with
              staged := none, stagedBy := none })).finish c (quotaFin 0)
      | _, _ => s)

/-! ### OP_WEIGHT_LOAD (R450, R469, R551) -/

/-- An entry of a manifest: tensor, data offset, length, digest. -/
structure ManEntry where
  tensor : Nat
  off : Nat
  len : Nat
  digest : List Byte
  deriving DecidableEq, Repr

/-- Entries of a manifest (R551). -/
def manEntries (m : List Byte) : List ManEntry :=
  (List.range (field m 6 2)).map (fun i =>
    let o := 64 + 80 * i
    { tensor := field m o 2, off := field m (o + 8) 8, len := field m (o + 0x10) 8, digest := sub m (o + 0x18) 48 })

/-- Bytes from lo to hi are zero. -/
def zeroAt (bs : List Byte) (off n : Nat) : Bool := (sub bs off n).all (fun b => b == 0)

/-- Step 3 of R551: the manifest's structure against the plan. -/
def manifestOk (img m : List Byte) (dataSize : Nat) : Bool :=
  let es := manEntries m
  let ws := Plan.weightTensors img
  field m 0 4 == 0x4E414D57 && field m 4 2 == 1 && decide (1 ≤ es.length ∧ es.length ≤ 4096) &&
    field m 8 8 == Plan.planId img && field m 0x10 8 == dataSize && zeroAt m 0x18 0x28 &&
    (List.range es.length).all (fun i => zeroAt m (64 + 80 * i + 2) 6 && zeroAt m (64 + 80 * i + 0x48) 8) &&
    es.all (fun e => ws.contains e.tensor && e.off % 256 == 0 && e.len == Plan.tBytes img [] e.tensor && decide (e.off + e.len ≤ dataSize)) &&
    decide (es.length = ws.length) && decide ((es.map ManEntry.tensor).Nodup) &&
    (es.zipIdx).all (fun a => (es.take a.2).all (fun b => decide (b.off + b.len ≤ a.1.off ∨ a.1.off + a.1.len ≤ b.off)))

/-- Offsets of the tensors in the weight area: ascending index, each at a multiple of 256 (DESIGN CHOICE,
notes/assumptions/19.md). -/
def weightOffsets (img : List Byte) : Nat → List Nat → List (Nat × Nat)
  | _, [] => []
  | a, t :: ts => (t, a) :: weightOffsets img (a + (Plan.tBytes img [] t + 255) / 256 * 256) ts

/-- Bytes of one copy of the weight area. -/
def weightBytes (img : List Byte) : Nat := ((Plan.weightTensors img).map (fun t => (Plan.tBytes img [] t + 255) / 256 * 256)).sum

/-- A firmware region at a given address. -/
def State.fwAt (s : State) (p : Nat) (kind : FwKind) (owner base size : Nat) : Option State :=
  match s.part p with
  | none => none
  | some x =>
    let b : Backing := { mode := 0, stack := 0, chan := 0, base := base, size := size, coff := 0 }
    (x.lowestOffset b).map (fun off =>
      let f : FwRegion := { kind := kind, owner := owner, base := base, size := size, coff := off }
      (s.updPart p (fun y => { y with fw := y.fw ++ [f] })).scrubBacking x f.backing)

/-- Place a weight area: one copy, or two copies WX bytes apart, aligned to 2 WX (R469). -/
def State.placeWeights (s : State) (p h : Nat) (img : List Byte) : Option (Nat × Nat × State) :=
  let a := weightBytes img
  if a = 0 then some (0, 0, s)
  else if !Plan.trains img then (s.placeFw p .weights h a 0x10000).map (fun r => (r.1.base, 0, r.2))
  else
    let wx := pow2Above a
    match s.placeFw p .weights h (wx + a) (2 * wx) with
    | none => none
    | some (f, _) => match s.fwAt p .weights h f.base a with
      | none => none
      | some s1 => (s1.fwAt p .weights h (f.base + wx) a).map (fun s2 => (f.base, wx, s2))

/-- Copy the tensors of a manifest into the weight area (steps 5 and 6 of R551). -/
def State.copyTensors (s : State) (w : Who) (data base wx : Nat) (offs : List (Nat × Nat)) : List ManEntry → Eng (Option Nat)
  | [] => .ok none s
  | e :: es =>
    match s.readEng w (data + e.off) e.len with
    | .wait => .wait
    | .bad st d s1 => .bad st d s1
    | .ok bs s1 =>
      let o := match offs.find? (fun p => p.1 == e.tensor) with
        | none => 0
        | some p => p.2
      let s2 := s1.putDram (base + o) bs
      let s3 := if wx = 0 then s2 else s2.putDram (base + wx + o) bs
      match s3.copyTensors w data base wx offs es with
      | .wait => .wait
      | .bad st d s4 => .bad st d s4
      | .ok r s4 => .ok (if Config.sha384 bs = e.digest then r else some e.tensor) s4

/-- Data of a manifest copied, digests verified, and the weights installed; a failed load keeps the previous ones. -/
def State.weightData (s : State) (c : CmdRef) (k : Cmd) (p h : Nat) (img : List Byte) (es : List ManEntry) : State :=
  let copies := if Plan.trains img then 2 else 1
  if !s.fitsCtx p h (copies * weightBytes img) then s.endCmd c (quotaFin 0)
  else match s.placeWeights p h img with
    | none => s.endCmd c (quotaFin 0)
    | some (base, wx, s1) =>
      let offs := weightOffsets img 0 (Plan.weightTensors img)
      let isNew (f : FwRegion) : Bool := f.base == base || (wx != 0 && f.base == base + wx)
      let mine (t : State) (new : Bool) : State := t.dropFw p (fun f => f.kind == FwKind.weights && f.owner == h && isNew f == new)
      match s1.copyTensors (k.who c.block) (k.p 0x10 6) base wx offs es with
      | .wait => s
      | .bad st d s2 => (mine s2 true).endCmd c (Fin.with st d)
      | .ok (some t) s2 => (mine s2 true).endCmd c (Fin.with stImageAuthFail t)
      | .ok none s2 =>
        ((mine s2 false).updCtx p h (fun y => { y with
          weights := some { base := base, wx := wx, size := weightBytes img, offsets := offs, second := false } })).endCmd c
          { Fin.ok with c0 := es.length }

/-- OP_WEIGHT_LOAD (R22, R450, R551), at its command boundary. -/
def State.weightLoad (s : State) (c : CmdRef) (k : Cmd) (p h : Nat) : State :=
  let bad := k.p 6 2 != 0 || k.p 0xC 4 != 0 || k.p 0x16 2 != 0
  match s.part p, (s.ctx p h).bind (fun y => y.plan) with
  | some x, some pl =>
    if bad then s.endCmd c (Fin.bare stNoPlan)
    else if !s.atBoundary c p h then s
    else
      let size := k.p 8 4
      let auth (d : Nat) : Fin := Fin.with stImageAuthFail d
      if size < 64 ∨ 2 ^ 20 < size then s.endCmd c (auth 0xFFE)
      else match s.readEng (k.who c.block) (k.p 0 6) size with
        | .wait => s
        | .bad st d s1 => s1.endCmd c (Fin.with st d)
        | .ok m s1 =>
          let sig := size - 112
          if size ≠ 64 + 80 * field m 6 2 + 112 ∨ !zeroAt m (sig + 0xA) 6 = true then s1.endCmd c (auth 0xFFE)
          else if !x.signed m sig then s1.endCmd c (auth 0xFFF)
          else if !manifestOk pl.image m (k.p 0x18 8) then s1.endCmd c (auth 0xFFE)
          else s1.weightData c k p h pl.image (manEntries m)
  | _, _ => s.endCmd c (Fin.bare stNoPlan)

/-- OP_WEIGHT_LOAD. -/
def execOpWeightLoad (c : CmdRef) (s : State) : Out := .next (s.gate c 0x0202 false (fun t k p h => t.weightLoad c k p h))

/-! ### Expert residency (R363, R364) -/

/-- Address of the expert's entry in the residency table of the installed plan. -/
def PlanInst.expertEntry (pl : PlanInst) (x : Nat) : Nat := pl.base + Plan.secOff pl.image 8 + Plan.tableOff pl.image + 8 * x

/-- Fetch an expert's units from the pool into a slot, and write its residency entry. The first unit that cannot be read
ends the fetch; the flag tells whether an unwritten unit was met (R355, R364). -/
def State.fetchExpert (s : State) (p h x slot : Nat) (errs : List UnitErr) : (Option (Nat × Nat)) × Bool × State :=
  match s.ctx p h with
  | none => (none, false, s)
  | some k => match k.plan, k.pool with
    | some pl, some (st, first) => match s.store st with
      | none => (none, false, s)
      | some t =>
        let base := k.expertBase + slot * Plan.slotUnits pl.image * unitBytes
        let r := (List.range (Plan.expUnits pl.image x)).foldl (fun (a : Option (Nat × Nat) × Bool × State) i =>
          match a.1 with
          | some _ => a
          | none =>
            let u := first + Plan.expUnitOff pl.image x + i
            match a.2.2.readUnit t u errs with
            | (none, s1) => (some (st, u), a.2.1, s1)
            | (some (bs, written), s1) => (none, a.2.1 || !written, s1.putDram (base + unitBytes * i) bs)) (none, false, s)
        (r.1, r.2.1, r.2.2.putDram (pl.expertEntry x) (leBytes 8 (if r.1.isSome then 0 else base)))
    | _, _ => (none, false, s)

/-- Note an expert's slot and request. -/
def Context.setExpert (k : Context) (x slot : Nat) : Context :=
  { k with
    experts := k.experts.filter (fun e => e.expert != x) ++ [{ expert := x, slot := slot, lastReq := k.expertClock }] }

/-- OP_POOL_BIND (R355, R363, R450): the store and first unit of the expert pool; pinned experts are fetched (DEDUCED: the pool is
bound only after installation, notes/assumptions/19.md). -/
def State.poolBind (s : State) (c : CmdRef) (k : Cmd) (p h : Nat) (errs : List UnitErr) : State :=
  match s.ctx p h with
  | none => s
  | some y => match y.plan with
    | none => s.endCmd c (Fin.bare stNoPlan)
    | some pl =>
      let img := pl.image
      if k.p 4 4 ≠ 0 then s.endCmd c (Fin.bare stNoPlan)
      else if !Plan.experts img then s.endCmd c (Fin.bare stBindingInvalid)
      else match s.store (k.p 0 4) with
        | none => s.endCmd c (Fin.bare stStoreInvalid)
        | some t =>
          let n := Plan.expertCount img
          let first := k.p 8 8
          let top := ((List.range n).map (fun x => Plan.expUnitOff img x + Plan.expUnits img x)).foldl max 0
          if t.part ≠ some p ∨ t.ctx ≠ some h ∨ !t.keyed then s.endCmd c (Fin.bare stStoreInvalid)
          else if t.units < first + top then s.endCmd c (Fin.bare stStoreRange)
          else if s.mapsOut p then s
          else
            let pinned := (List.range n).filter (Plan.expPinned img)
            let s1 := (List.range n).foldl (fun u x => u.putDram (pl.expertEntry x) (leBytes 8 0)) s
            let s2 := s1.updCtx p h (fun z => { z with pool := some (t.handle, first), experts := [] })
            let r := (pinned.zipIdx).foldl (fun (a : Option (Nat × Nat) × Bool × State) e =>
              match a.1 with
              | some _ => a
              | none =>
                let f := a.2.2.fetchExpert p h e.1 e.2 errs
                (f.1, a.2.1 || f.2.1, if f.1.isSome then f.2.2 else f.2.2.updCtx p h (fun z => z.setExpert e.1 e.2))) (none, false, s2)
            match r.1 with
            | some (st, u) => r.2.2.endCmd c (Fin.with stDataLoss (flashLoss st u))
            | none => (if r.2.1 then r.2.2.updCmd c (fun j => { j with flashUnwritten := true }) else r.2.2).endCmd c Fin.ok

/-- OP_POOL_BIND. -/
def execOpPoolBind (c : CmdRef) (errs : List UnitErr) (s : State) : Out :=
  .next (s.gate c 0x0203 false (fun t k p h => t.poolBind c k p h errs))

/-! ### OP_TENSOR_STAT and OP_KV_STAT (R67, R289) -/

/-- OP_TENSOR_STAT (R67, R450): the record, reset on read-and-clear. -/
def execOpTensorStat (c : CmdRef) (s : State) : Out :=
  .next (s.gate c 0x0204 false (fun s1 k p h =>
    let t := k.p 0 2
    let fail := s1.endCmd c (Fin.with stBindingInvalid (t % 4096))
    match s1.ctx p h with
    | none => s1
    | some y => match y.plan with
      | none => fail
      | some pl => match (Plan.qstats pl.image).idxOf? t with
        | none => fail
        | some i =>
          if k.p 2 6 ≠ 0 ∨ k.p 0xE 2 ≠ 0 then fail
          else match s1.output c (k.who c.block) (k.p 8 6) (leBytes 8 (SMap.get 0#64 y.qstat i).toNat) Fin.ok with
            | (s2, none) => s2
            | (s2, some f) =>
              (if k.opf0 ∧ f.status = stOk then s2.updCtx p h (fun z => { z with qstat := SMap.set 0#64 z.qstat i 0#64 }) else s2).endCmd
                c f))

/-- OP_KV_STAT (R289, R450). -/
def execOpKvStat (c : CmdRef) (s : State) : Out :=
  .next (s.gate c 0x0308 false (fun s1 k p h =>
    match s1.kv p h with
    | none => s1.endCmd c (Fin.bare stNoPlan)
    | some v =>
      if k.p 6 2 ≠ 0 then s1.endCmd c (Fin.bare stNoPlan)
      else match s1.output c (k.who c.block) (k.p 0 6) v.record Fin.ok with
        | (s2, none) => s2
        | (s2, some f) => (if k.opf0 ∧ f.status = stOk then s2.updKv p h KvState.clearCounts else s2).endCmd c f))

/-! ### Allocations that may pre-empt (R272) -/

/-- Priority of the sequence a command works on: of several, the lowest; none for a command that names none. -/
def State.cmdPriority (s : State) (p h : Nat) (k : Cmd) : Option Nat :=
  match k.exec with
  | none => none
  | some e =>
    let hs := match e.roll with
      | some r => r.parent :: r.slots
      | none => e.binds.map SeqBind.handle
    match hs.filterMap (fun q => (s.seq p h q).map Sequence.priority) with
    | [] => none
    | a :: as => some (as.foldl min a)

/-- The running command that R272 step 3 chooses: lowest priority below the requester's, the later one on a tie. -/
def State.preemptVictim (s : State) (p h prio : Nat) (c : CmdRef) : Option Cmd :=
  let ks := (s.block (1 + p)).cmds.filter (fun k =>
    k.phase == .started && k.ctxField == h && k.id != c.id && (match s.cmdPriority p h k with
      | none => false
      | some q => decide (q < prio)))
  ks.foldl (fun best k => match best with
    | none => some k
    | some b =>
      if (s.cmdPriority p h k).getD 8 ≤ (s.cmdPriority p h b).getD 8 then some k else best) none

/-- A victim ends at its next commit boundary: a roll between frames is at one. -/
def State.preempt (s : State) (p : Nat) (k : Cmd) : State :=
  let c : CmdRef := { block := 1 + p, id := k.id }
  let idle := match k.exec.bind (fun e => e.roll) with
    | none => false
    | some r => !r.open_
  if idle then s.endAtBoundary c stPreempted 0 else s.updCmd c (fun j => { j with preempted := true })

/-- How an allocation of a command ends: met with its result, waiting, or short of the quota (R272). -/
inductive Claim (α : Type) where
  | got (a : α)
  | wait (s : State)
  | quota (s : State)

/-- Allocate for a command by the four steps of R272. -/
def State.claim {α : Type} (s : State) (c : CmdRef) (p h prio : Nat) (try_ : State → Option α) : Claim α :=
  match s.allocate p h prio try_ with
  | (.got a, _) => .got a
  | (.wait, s1) => .wait s1
  | (.short s1, _) => match s1.preemptVictim p h prio c with
    | none => .quota s1
    | some k => .wait (if k.preempted then s1 else s1.preempt p k)

/-! ### Sequence commands (R246, R249, R268 to R271, R275, R279, R304, R310, R450) -/

/-- OP_SEQ_CREATE. -/
def execOpSeqCreate (c : CmdRef) (s : State) : Out :=
  .next (s.gate c 0x0305 false (fun s1 k p h =>
    match s1.kv p h with
    | none => s1.endCmd c (Fin.bare stNoPlan)
    | some _ =>
      if 8 ≤ k.p 0 8 then s1.endCmd c (Fin.bare stNoPlan)
      else match s1.addSeq p h (Sequence.fresh (k.p 0 1) (BitVec.ofNat 64 (k.p 8 8))) with
        | none => s1.endCmd c (quotaFin 0)
        | some (n, s2) => s2.endCmd c { Fin.ok with c0 := n }))

/-- OP_SEQ_RELEASE: a BUSY sequence makes it wait (R279). -/
def State.seqRelease (s : State) (c : CmdRef) (k : Cmd) (p h : Nat) : State :=
  match s.seq p h (k.p 0 4) with
  | none => s.endCmd c (Fin.bare stSeqInvalid)
  | some q => if q.status = .busy then s else (s.releaseSeq p h q.handle).endCmd c Fin.ok

/-- OP_SEQ_RELEASE. -/
def execOpSeqRelease (c : CmdRef) (s : State) : Out := .next (s.gate c 0x0306 false (fun t k p h => t.seqRelease c k p h))

/-- OP_SEQ_THAW (R275, R309). -/
def State.seqThaw (s : State) (c : CmdRef) (k : Cmd) (p h : Nat) : State :=
  match s.seq p h (k.p 0 4) with
  | none => s.endCmd c (Fin.bare stSeqInvalid)
  | some q =>
    if q.status = .busy then s
    else if q.swap.isNone then s.endCmd c Fin.ok
    else if s.liveShort p h [q.handle] 0 then s.endCmd c (quotaFin 0)
    else match s.claim c p h q.priority (fun t => t.thaw p h q.handle) with
      | .got s1 => s1.endCmd c { Fin.ok with c0 := 1 }
      | .wait s1 => s1
      | .quota s1 => s1.endCmd c (quotaFin 0)

/-- OP_SEQ_THAW. -/
def execOpSeqThaw (c : CmdRef) (s : State) : Out := .next (s.gate c 0x0307 false (fun t k p h => t.seqThaw c k p h))

/-- Fork with the handles at the output address; a fork that cannot be made, or whose handles cannot be written, leaves what
there was before the parent's thaw. -/
def State.forkOut (s before : State) (c : CmdRef) (k : Cmd) (p h handle pos n : Nat) : State :=
  let fork (t : State) : Option (List Nat × State) := if k.opf0 then t.forkReleasing p h handle pos n else t.forkChildren p h handle pos n
  match fork s with
  | none => before.endCmd c (quotaFin 0)
  | some (ks, _) =>
    match s.writeEng (k.who c.block) (k.p 0x10 6) (ks.flatMap (leBytes 4)) with
    | .wait => before
    | .bad st d _ => before.endCmd c (Fin.with st d)
    | .ok _ s1 => match fork s1 with
      | none => before.endCmd c (quotaFin 0)
      | some (_, s2) => s2.endCmd c { Fin.ok with c0 := n }

/-- OP_FORK (R268 to R271, R306, R307, R450). -/
def State.opFork (s : State) (c : CmdRef) (k : Cmd) (p h : Nat) : State :=
  match s.kv p h, s.seq p h (k.p 0 4) with
  | some v, some q =>
    if k.p 0xA 6 ≠ 0 ∨ k.p 0x16 2 ≠ 0 then s.endCmd c (Fin.bare stSeqInvalid)
    else if q.status = .busy then s
    else
      let n := k.p 8 2
      let pos := if k.p 4 4 = 0xFFFFFFFF then q.length else k.p 4 4
      if 4096 < n ∨ q.length < pos then s.endCmd c (Fin.bare stSeqLimit)
      else if !v.stateKnown q pos then s.endCmd c (Fin.bare stStateUnavailable)
      else if n = 0 then s.endCmd c (Fin.bare stOkEmpty)
      else if s.liveShort p h [q.handle] (if k.opf0 then n - 1 else n) then s.endCmd c (quotaFin 0)
      else if q.swap.isNone then s.forkOut s c k p h q.handle pos n
      else match s.claim c p h q.priority (fun t => t.thaw p h q.handle) with
        | .got s1 => s1.forkOut s c k p h q.handle pos n
        | .wait s1 => s1
        | .quota s1 => s1.endCmd c (quotaFin 0)
  | _, _ => s.endCmd c (Fin.bare stSeqInvalid)

/-- OP_FORK. -/
def execOpFork (c : CmdRef) (s : State) : Out := .next (s.gate c 0x0303 false (fun t k p h => t.opFork c k p h))

/-- PAGE_SET_ZEROING_DONE (R258). -/
def execPageSetZeroingDone (part : Nat) (ctx : Nat) (page : Nat) (s : State) : Out := .next (s.pageZeroed part ctx page)

end Sys2Proof.Machine
end

