-- ==== Sys2Proof/Machine/Exec.lean ====
section
/-! DEFINITION. Execution commands: their checks (R243, R445 to R449), OP_RUN (R447, R448), OP_ROLL (R276 to R288),
OP_TRAIN_STEP (R469), and how they proceed: steps (R230 to R233, R598), dispatch commits (R643), commit granules (R467,
R468), expert points (R364), timeouts (R437). -/

namespace Sys2Proof.Machine

/-! ### Bindings and tensor addresses (R232, R446) -/

/-- Parameter-area offset of an execution command's binding table (R445, R447, R449). -/
def Cmd.bindOff (k : Cmd) : Nat :=
  if k.opcode = 0x0301 then 0x80 + 16 * k.p 0x42 2 else if k.opcode = 0x0302 then 0xC0 else 0x80

/-- The binding table: tensor and address. -/
def Cmd.bindings (k : Cmd) : List (Nat × Nat) :=
  (List.range (k.p 2 2)).map (fun i => (k.p (k.bindOff + 16 * i) 2, k.p (k.bindOff + 16 * i + 8) 6))

/-- The address bound to a tensor. -/
def Cmd.bound (k : Cmd) (t : Nat) : Option Nat := (k.bindings.find? (fun b => b.1 == t)).map (fun b => b.2)

/-- Address of a weight tensor: its committed copy (R469). -/
def Weights.addr (w : Weights) (t : Nat) : Option Nat :=
  (w.offsets.find? (fun o => o.1 == t)).map (fun o => w.base + o.2 + (if w.second then w.wx else 0))

/-- The engine address of a tensor (R232, R251, R302, R446). -/
def Context.tensorAddr (x : Context) (img : List Byte) (k : Cmd) (t : Nat) : Option Nat :=
  match Plan.tRole img t with
  | 0 | 1 | 5 => x.weights.bind (fun w => w.addr t)
  | 3 => x.kv.bind (fun v => (v.pools.find? (fun q => q.1 == t)).map (fun q => q.2.1))
  | 4 => x.kv.map (fun v => v.statePool + Plan.stateOff img t)
  | _ => k.bound t

/-- Tensors that KIND 0x3 and 0x4 arguments of an entry name. -/
def namedTensors (img : List Byte) (e : Nat) : List Nat :=
  ((List.range (Plan.eSteps img e)).flatMap (fun i => (List.range 15).filterMap (fun a =>
    let w := Plan.sArg img e i a
    if w / 2 ^ 28 = 3 ∨ w / 2 ^ 28 = 4 then some (w % 2 ^ 12) else none))).dedup

/-- Roles that are never bound (R446). -/
def fixedRole (r : Nat) : Bool := r == 0 || r == 1 || r == 3 || r == 4 || r == 5

/-- R446: the tensor DETAIL names, or none where the bindings hold. -/
def Context.bindFault (x : Context) (img : List Byte) (k : Cmd) (e : Nat) : Option Nat :=
  let bs := k.bindings
  let entry := (bs.zipIdx).find? (fun b =>
    let o := k.bindOff + 16 * b.2
    let t := b.1.1
    decide (4096 ≤ t) || k.p (o + 2) 6 != 0 || k.p (o + 0xE) 2 != 0 || decide (Plan.tensorCount img ≤ t) ||
      (bs.take b.2).any (fun a => a.1 == t) || fixedRole (Plan.tRole img t) || b.1.2 % 256 != 0)
  let named := (sortBy (fun a b => decide (a ≤ b)) (namedTensors img e)).find? (fun t =>
    let r := Plan.tRole img t
    if r = 0 ∨ r = 1 ∨ r = 5 then ((x.weights).bind (fun w => w.addr t)).isNone
    else if fixedRole r then false
    else (k.bound t).isNone)
  match entry with
  | some b => some (b.1.1 % 4096)
  | none => match named with
    | some t => some t
    | none =>
      if Plan.experts img && x.pool.isNone then some 0xFFF
      else if k.opcode = 0x0302 ∧ (k.bound (k.p 0x78 2)).isNone then some (k.p 0x78 2 % 4096)
      else none

/-! ### Checks of the leading fields and the shapes (R243, R244, R445) -/

/-- Offset of the first non-zero byte of a range. -/
def Cmd.nonZero (k : Cmd) (off n : Nat) : Option Nat := ((List.range n).map (fun i => off + i)).find? (fun o => k.p o 1 != 0)

/-- The smallest of the offsets that fail. -/
def lowest (os : List (Option Nat)) : Option Nat :=
  (os.filterMap id).foldl (fun m o => match m with
    | none => some o
    | some a => some (min a o)) none

/-- The framing check of R445: the lowest failing offset. A condition that relates two fields fails at the lower one. -/
def Cmd.frameFault (k : Cmd) : Option Nat :=
  let no (b : Bool) (o : Nat) : Option Nat := if b then some o else none
  let head := [no (decide (240 < k.p 2 2)) 2, k.nonZero 4 12, k.nonZero 0x30 16]
  if k.opcode = 0x0301 then
    let n := k.p 0x42 2
    lowest (head ++ [no (decide (k.p 0x40 2 = 0xFFFF ∧ n ≠ 0)) 0x40, no (decide (64 < n)) 0x42, no (decide (2 ≤ k.p 0x44 4)) 0x44,
      k.nonZero 0x48 0x38] ++ (List.range (min n 64)).map (fun i =>
        let a := k.p (0x88 + 16 * i) 8
        no (decide (2 ^ 48 ≤ a ∨ a % 4 ≠ 0)) (0x88 + 16 * i)))
  else lowest head

/-- Bit of OPS for an opcode (R230). -/
def opsBit (op : Nat) : Nat := if op = 0x0301 then 0 else if op = 0x0302 then 1 else 2

/-- A shape value of a command. -/
def Cmd.shape (k : Cmd) (v : Nat) : Nat := k.p (0x10 + 4 * v) 4

/-- Rounded extents of a command (R243). -/
def Cmd.rounded (k : Cmd) (img : List Byte) : List Nat := (List.range 8).map (fun v => Plan.roundShape img v (k.shape v))

/-- R243, steps 1 to 4: how the command ends, or the plan and the entry's index. -/
def Cmd.shapeCheck (k : Cmd) (plan : Option PlanInst) : Fin ⊕ (PlanInst × Nat) :=
  match plan with
  | none => .inl (Fin.bare stNoPlan)
  | some pl =>
    let img := pl.image
    match Plan.entry? img (k.p 0 2) with
    | none => .inl (Fin.bare stEntryInvalid)
    | some e =>
      if !bitOf (Plan.eOps img e) (opsBit k.opcode) then .inl (Fin.bare stEntryInvalid)
      else
        let used (v : Nat) : Bool := bitOf (Plan.eMask img e) v
        let r (v : Nat) : Nat := Plan.roundShape img v (k.shape v)
        match (List.range 8).find? (fun v => if used v then decide (Plan.shapeMax img v < r v) else k.shape v != 0) with
        | some v => .inl (Fin.with stShapeExceedsPlan (v + r v % 2 ^ 32 * 2 ^ 32))
        | none =>
          if (List.range 8).any (fun v => used v && k.shape v == 0) then .inl (Fin.bare stOkEmpty)
          else .inr (pl, e)

/-- The checks that OP_RUN, OP_ROLL and OP_TRAIN_STEP share (R243, R445, R446). -/
def Cmd.execCheck (k : Cmd) (x : Context) : Fin ⊕ (PlanInst × Nat) :=
  match k.frameFault with
  | some o => .inl (if k.opcode = 0x0302 then Fin.with stRollParam o else Fin.with stBindingInvalid (0xFFD + o * 2 ^ 32))
  | none => match k.shapeCheck x.plan with
    | .inl f => .inl f
    | .inr (pl, e) => match x.bindFault pl.image k e with
      | some t => .inl (Fin.with stBindingInvalid t)
      | none => .inr (pl, e)

/-! ### Steps and granules (R233, R467) -/

/-- Granules of the looped steps of an entry: a new one with each iteration of loop 0 and with each run of looped steps. -/
def runGranules : Option (Nat × Nat) → Bool → List (List Nat) → List (Option Nat)
  | _, _, [] => []
  | cur, _, [] :: rest => none :: runGranules cur true rest
  | none, _, (i :: _) :: rest => some 0 :: runGranules (some (0, i)) false rest
  | some (g, j), gap, (i :: _) :: rest =>
    let h := if gap ∨ i ≠ j then g + 1 else g
    some h :: runGranules (some (h, i)) false rest

/-- Steps at DEPTH 0 join the next looped step's granule, or the last one. -/
def fillGranules (gs : List (Option Nat)) : List Nat :=
  let last := (gs.filterMap id).getLast?.getD 0
  (gs.foldr (fun g (a : List Nat × Nat) => match g with
    | some n => (n :: a.1, n)
    | none => (a.2 :: a.1, a.2)) ([], last)).1

/-- Step instances of an entry, numbered from `no`, all in one granule or granule by granule. -/
def stepInsts (img : List Byte) (rounded : List Nat) (e no : Nat) (one : Option Nat) : List StepInst :=
  let l := Plan.stepList img rounded e
  let gs := match one with
    | some g => l.map (fun _ => g)
    | none => fillGranules (runGranules none false (l.map (fun q => q.2)))
  ((l.zip gs).zipIdx).map (fun q => { no := no + q.2, entry := e, step := q.1.1.1, idx := q.1.1.2, granule := q.1.2 })

/-- A command that begins to run with the given steps. -/
def ExecRun.start (todo : List StepInst) (binds : List SeqBind) (roll : Option RollRun) (total : Nat) : ExecRun :=
  { todo := todo, stepLeft := [], binds := binds, roll := roll, atPoint := none, pointGranule := 0, expertUndo := [], nextNo := todo.length, total := total, qstat := [],
    touched := [], committedPositions := 0, committedHits := 0 }

/-- Granules that a list of steps spans. -/
def granuleCount (todo : List StepInst) : Nat := match todo.getLast? with
  | none => 1
  | some i => i.granule + 1

/-- Begin the run of a command. -/
def State.beginExec (s : State) (c : CmdRef) (e : ExecRun) : State := (s.startCmd c).updCmd c (fun k => { k with exec := some e })

/-! ### OP_RUN (R264, R447, R448) -/

/-- Tokens of a sequence binding. -/
def wordsAt (bs : List Byte) : List Word := (List.range (bs.length / 4)).map (fun i => BitVec.ofNat 32 (field bs (4 * i) 4))

/-- The sequence bindings of a command: handle, NEW, TOK_ADDR. -/
def Cmd.seqBinds (k : Cmd) : List (Nat × Nat × Nat) :=
  (List.range (k.p 0x42 2)).map (fun i => (k.p (0x80 + 16 * i) 4, k.p (0x84 + 16 * i) 4, k.p (0x88 + 16 * i) 6))

/-- NO_LOOKUP. -/
def Cmd.noLookup (k : Cmd) : Bool := bitOf (k.p 0x44 4) 0

/-- Read the tokens of every binding before the first dispatch, unless NO_LOOKUP is set (R447). -/
def State.readTokens (s : State) (w : Who) : List (Nat × Nat × Nat) → Eng (List (List Word))
  | [] => .ok [] s
  | (_, n, a) :: bs =>
    match s.readEng w a (4 * n) with
    | .wait => .wait
    | .bad st d s1 => .bad st d s1
    | .ok ts s1 => match s1.readTokens w bs with
      | .wait => .wait
      | .bad st d s2 => .bad st d s2
      | .ok rest s2 => .ok (wordsAt ts :: rest) s2

/-- Thaw sequences one after another (R275). -/
def State.thawAll (s : State) (p h : Nat) : List Nat → Option State
  | [] => some s
  | q :: qs => match s.thaw p h q with
    | none => none
    | some s1 => s1.thawAll p h qs

/-- The lookups of one binding (R264). -/
def State.bindLookup (s : State) (p h : Nat) (b : Nat × Nat × Nat) (toks : List Word) (look : Bool) : SeqBind × State :=
  let none_ : SeqBind := { handle := b.1, added := b.2.1, tokAddr := b.2.2, skip := 0, hits := [], oldNode := none, tokens := toks }
  match s.seq p h b.1 with
  | none => (none_, s)
  | some q =>
    if !look ∨ q.length % 256 ≠ 0 ∨ q.offTree then ({ none_ with oldNode := q.node }, s)
    else
      let (hits, s1) := s.lookups p h b.1 (toks.length / 256) toks (q.length / 256)
      ({ none_ with skip := 256 * hits.length, hits := hits, oldNode := q.node }, s1)

/-- The lookups of every binding. -/
def State.bindLookups (s : State) (p h : Nat) (look : Bool) : List ((Nat × Nat × Nat) × List Word) → List SeqBind × State
  | [] => ([], s)
  | (b, t) :: rest =>
    let (x, s1) := s.bindLookup p h b t look
    let (xs, s2) := s1.bindLookups p h look rest
    (x :: xs, s2)

/-- Blocks that the bindings write, by ascending handle (R269). -/
def State.bindBlocks (s : State) (p h : Nat) (bs : List SeqBind) : List (Nat × Nat) :=
  (sortBy (fun a b => decide (a.handle ≤ b.handle)) bs).flatMap (fun b => match s.seq p h b.handle with
    | none => []
    | some q => (blocksOf (q.length + b.skip) (b.added - b.skip)).map (fun n => (b.handle, n)))

/-- Everything OP_RUN does to its sequences before its first dispatch; none where page sets are short. -/
def State.prepareRun (s : State) (p h : Nat) (k : Cmd) (toks : List (List Word)) : Option (List SeqBind × State) :=
  match s.thawAll p h (k.seqBinds.map (fun b => b.1)) with
  | none => none
  | some s1 =>
    let (bs, s2) := s1.bindLookups p h (!k.noLookup) (k.seqBinds.zip toks)
    (s2.writables p h (bs.map SeqBind.handle) (s2.bindBlocks p h bs)).map (fun r => (bs, r.1))

/-- The last part of OP_RUN's start: pages, and the sequences are BUSY (R246, R279). -/
def State.runSeqs (s : State) (c : CmdRef) (k : Cmd) (p h : Nat) (pl : PlanInst) (e : Nat) (toks : List (List Word)) : State :=
  let hs := k.seqBinds.map (fun b => b.1)
  let prio := (hs.filterMap (fun q => (s.seq p h q).map Sequence.priority)).foldl min 7
  if s.liveShort p h hs 0 then s.endCmd c (quotaFin 0)
  else match s.claim c p h prio (fun t => t.prepareRun p h k toks) with
    | .wait s1 => s1
    | .quota s1 => s1.endCmd c (quotaFin 0)
    | .got (bs, s1) =>
      let s2 := hs.foldl (fun t q => t.updSeq p h q (fun z => { z with status := .busy })) s1
      let todo := stepInsts pl.image (k.rounded pl.image) e 0 (if hs.isEmpty then none else some 0)
      s2.beginExec c (ExecRun.start todo bs none (granuleCount todo))

/-- OP_RUN's own checks (R447) and its start. -/
def State.opRun (s : State) (c : CmdRef) (k : Cmd) (p h : Nat) : State :=
  match s.ctx p h with
  | none => s
  | some x => match k.execCheck x with
    | .inl f => s.endCmd c f
    | .inr (pl, e) =>
      let bs := k.seqBinds
      let qs := bs.map (fun b => s.seq p h b.1)
      let tensor := k.p 0x40 2
      let recOk := match k.bound tensor with
        | none => false
        | some _ => Plan.tRole pl.image tensor == 6 && decide (16 * bs.length ≤ Plan.elements pl.image (k.rounded pl.image) tensor)
      if qs.any (fun q => q.isNone) ∨ !decide ((bs.map (fun b => b.1)).Nodup) then s.endCmd c (Fin.bare stSeqInvalid)
      else if (bs.zip qs).any (fun b => match b.2 with
          | none => false
          | some q => decide (2 ^ 32 < q.length + b.1.2.1)) then s.endCmd c (Fin.bare stSeqLimit)
      else if tensor ≠ 0xFFFF ∧ !recOk = true then s.endCmd c (Fin.with stBindingInvalid (tensor % 4096))
      else if qs.any (fun q => match q with
          | none => false
          | some z => z.status == SeqStatus.busy) then s
      else if k.noLookup then s.runSeqs c k p h pl e (bs.map (fun _ => []))
      else match s.readTokens (k.who c.block) bs with
        | .wait => s
        | .bad st d s1 => s1.endCmd c (Fin.with st d)
        | .ok toks s1 => s1.runSeqs c k p h pl e toks

/-- OP_RUN. -/
def execOpRun (c : CmdRef) (s : State) : Out := .next (s.gate c 0x0301 false (fun t k p h => t.opRun c k p h))

/-- The sequence record of a binding (R308, R448). -/
def KvState.seqRecord (v : KvState) (b : SeqBind) : List Byte :=
  match v.seq b.handle with
  | none => List.replicate 64 0#8
  | some q =>
    let live := match q.live with
      | none => 0
      | some n => v.liveAddr n q.liveSecond
    let work := match q.live with
      | none => 0
      | some n => v.liveAddr n (!q.liveSecond)
    let st := if v.sb = 0 then 0 else match b.hits.getLast? with
      | none => live
      | some n => match q.pages.getD n none with
        | none => live
        | some pg => v.ckptAddr pg
    leBytes 8 (v.listAddr q) ++ leBytes 8 (q.length + b.skip) ++ leBytes 8 st ++ leBytes 4 b.handle ++
      leBytes 4 (b.added - b.skip) ++ leBytes 4 b.skip ++ leBytes 4 0 ++ leBytes 8 work ++ List.replicate 16 0#8

/-! ### OP_TRAIN_STEP (R449, R469) -/

/-- OP_TRAIN_STEP: the whole command is one granule. -/
def State.trainStep (s : State) (c : CmdRef) (k : Cmd) (p h : Nat) : State :=
  match s.ctx p h with
  | none => s
  | some x => match k.execCheck x with
    | .inl f => s.endCmd c f
    | .inr (pl, e) => s.beginExec c (ExecRun.start (stepInsts pl.image (k.rounded pl.image) e 0 (some 0)) [] none 1)

/-- OP_TRAIN_STEP. -/
def execOpTrainStep (c : CmdRef) (s : State) : Out := .next (s.gate c 0x0304 false (fun t k p h => t.trainStep c k p h))

/-! ### OP_ROLL: block and checks (R276, R277) -/

/-- Fields of the roll block at 0x40 of the parameter area. -/
structure RollBlock where
  seq : Nat
  pos : Nat
  f : Nat
  b : Nat
  t : Nat
  s : Nat
  hw : Nat
  keepParent : Bool
  value : Bool
  prune : Bool
  keepFutures : Bool
  valueEntry : Nat
  seed : Nat
  out : Nat
  lineage : Nat
  future : Nat
  peers : Nat
  rank : Nat
  group : Nat
  deriving DecidableEq, Repr

/-- 0 encodes 256 (R276). -/
def side (v : Nat) : Nat := if v = 0 then 256 else v

/-- The roll block of a command. -/
def Cmd.roll (k : Cmd) : RollBlock :=
  let fl := k.p 0x52 2
  { seq := k.p 0x40 4, pos := k.p 0x44 4, f := k.p 0x48 2, b := k.p 0x4A 2, t := k.p 0x4C 2, s := k.p 0x4E 2,
    hw := side (k.p 0x50 1) * side (k.p 0x51 1), keepParent := bitOf fl 0, value := bitOf fl 1, prune := bitOf fl 2,
    keepFutures := bitOf fl 3, valueEntry := k.p 0x5E 2, seed := k.p 0x60 8, out := k.p 0x68 8, lineage := k.p 0x70 8,
    future := k.p 0x78 2, peers := k.p 0x7A 1 % 16, rank := k.p 0x7A 1 / 16, group := k.p 0x7B 1 }

/-- N_E. -/
def RollBlock.mine (r : RollBlock) : Nat := r.f / max r.peers 1

/-- Step 1 of R277: the lowest failing parameter-area offset. -/
def Cmd.rollFault (k : Cmd) (img : List Byte) : Option Nat :=
  let r := k.roll
  let temp := k.p 0x54 4
  let vocab := k.p 0x5A 2
  let inT := decide (r.future < Plan.tensorCount img) && Plan.tRole img r.future == 6 && Plan.tFormat img r.future == 7
  let no (bad : Bool) (o : Nat) : Option Nat := if bad then some o else none
  lowest [
    no (k.p 0x5C 2 != k.p 0 2) 0,
    no (decide (r.f < 1 ∨ 4096 < r.f ∨ r.f < r.b) || r.f % max r.peers 1 != 0 ||
      (inT && decide (Plan.elements img (k.rounded img) r.future < 16 * r.f))) 0x48,
    no (decide (r.b < 1) || (r.prune && r.b % max r.peers 1 != 0)) 0x4A,
    no (decide (r.t < 1 ∨ 4096 < r.t ∨ r.t < r.s)) 0x4C,
    no (decide (r.s < 1)) 0x4E,
    no (decide (16384 < r.hw)) 0x50,
    no (decide (16 ≤ k.p 0x52 2) || (r.prune && !r.value)) 0x52,
    no (!(decide (temp / 2 ^ 23 % 256 ≠ 255) && decide (temp ≤ 2 ^ 31))) 0x54,
    no (decide (1024 < k.p 0x58 2)) 0x58,
    no (vocab == 1) 0x5A,
    no (!inT) 0x78,
    no (decide (r.peers < 1 ∨ 8 < r.peers ∨ r.peers ≤ r.rank) || (r.peers == 1 && r.group != 0)) 0x7A,
    no (decide (16 ≤ r.group)) 0x7B,
    k.nonZero 0x7C 0x44]

/-! ### Frames of a roll (R278 to R283) -/

/-- DRAW_KEY (R281, R282). -/
def drawKey (seed gen slot : Nat) : Dword :=
  mix64 (BitVec.ofNat 64 seed ^^^ BitVec.ofNat 64 (gen * 2 ^ 48) ^^^ BitVec.ofNat 64 slot)

/-- One record of the future table (R282). -/
def KvState.futureRecord (v : KvState) (r : RollBlock) (run : RollRun) (i handle : Nat) : List Byte :=
  match v.seq handle with
  | none => List.replicate 64 0#8
  | some q =>
    let slot := r.rank * r.mine + i
    let live := match q.live with
      | none => 0
      | some n => v.liveAddr n q.liveSecond
    leBytes 8 (v.listAddr q) ++ leBytes 8 q.length ++ leBytes 8 (drawKey r.seed run.gen slot).toNat ++ leBytes 8 live ++
      leBytes 4 Float.nan32.toNat ++ leBytes 2 run.frame ++ leBytes 2 run.gen ++ leBytes 2 slot ++ leBytes 2 1 ++ List.replicate 20 0#8

/-- Change the progress of a command. -/
def State.updExec (s : State) (c : CmdRef) (f : ExecRun → ExecRun) : State :=
  s.updCmd c (fun k => { k with exec := k.exec.map f })

/-- Add the steps of an entry to a command that has none left. -/
def ExecRun.addSteps (x : ExecRun) (img : List Byte) (rounded : List Nat) (e granule : Nat) : ExecRun :=
  let l := stepInsts img rounded e x.nextNo (some granule)
  { x with todo := l, nextNo := x.nextNo + l.length }

/-- Begin a frame: page sets for its positions, the future table, and the step entry's steps (R258, R269, R272, R278,
R282). While page sets are short it stays between frames. -/
def State.beginFrame (s : State) (c : CmdRef) (k : Cmd) (p h : Nat) (pl : PlanInst) (run : RollRun) : State :=
  let r := k.roll
  let blocks : List (Nat × Nat) := run.slots.flatMap (fun q => match s.seq p h q with
    | none => []
    | some z => (blocksOf z.length r.hw).map (fun b => (q, b)))
  let prio := (run.slots.filterMap (fun q => (s.seq p h q).map Sequence.priority)).foldl min 7
  match s.claim c p h prio (fun t => t.writables p h run.slots blocks) with
  | .wait s1 => s1
  | .quota s1 => s1.failCmd c stQuota (k.granules * 2 ^ 32)
  | .got (s1, copies) =>
    match s1.kv p h, k.bound r.future, Plan.entry? pl.image (k.p 0x5C 2) with
    | some v, some a, some e =>
      let table := (run.slots.zipIdx).flatMap (fun q => v.futureRecord r run q.2 q.1)
      match s1.writeEng (k.who c.block) a table with
      | .wait => s
      | .bad st d s2 => s2.failCmd c st d
      | .ok _ s2 => s2.updExec c (fun x => { x.addSteps pl.image (k.rounded pl.image) e run.frame with
          roll := some { run with open_ := true, valuing := false, copies := run.copies + copies } })
    | _, _, _ => s1

/-- Thaw the parent of a roll where it is swapped, and fork it into the slots (R268, R275, R278, R280): the slots and the roll's
start. None where page sets, list space, sequences or live blocks are short. -/
def State.forkRoll (s0 : State) (k : Cmd) (p h : Nat) (pos : Nat) : Option (RollRun × State) :=
  (s0.thaw p h k.roll.seq).bind fun s => (s.seq p h k.roll.seq).bind fun q =>
  let r := k.roll
  match s.forkChildren p h q.handle pos r.mine with
  | none => none
  | some (ks, s1) =>
    let s2 := ks.foldl (fun t n => t.updSeq p h n (fun z => { z with status := .busy })) s1
    let s3 := if r.keepParent then s2 else s2.updSeq p h q.handle (fun z => { z with status := .busy, dormant := true })
    let s4 := match ks.head? with
      | none => s3
      | some n => if !r.keepParent ∧ pos = q.length then s3.setKeeper p h n pos else s3
    let run : RollRun := { parent := q.handle, forkPos := pos, gen := 0, frame := 0, slots := ks, open_ := false, valuing := false,
                           copies := 0, scores := [], rounds := 0, shipped := false,
                           group := if r.peers ≤ 1 then none else some r.group }
    some (run, s4)

/-- A forked roll begins with its first frame. -/
def State.startRoll (s : State) (c : CmdRef) (k : Cmd) (p h : Nat) (pl : PlanInst) (run : RollRun) : State :=
  (s.beginExec c (ExecRun.start [] [] (some run) k.roll.t)).beginFrame c k p h pl run

/-- OP_ROLL's own checks, steps 2 to 5 of R277 with R306, and its start. -/
def State.opRoll (s : State) (c : CmdRef) (k : Cmd) (p h : Nat) : State :=
  match s.ctx p h with
  | none => s
  | some x => match k.execCheck x with
    | .inl f => s.endCmd c f
    | .inr (pl, e) =>
      let r := k.roll
      let img := pl.image
      match k.rollFault img with
      | some o => s.endCmd c (Fin.with stRollParam o)
      | none => match x.kv, s.seq p h r.seq with
        | some v, some q =>
          let pos := if r.pos = 0xFFFFFFFF then q.length else r.pos
          let valueOk := !r.value || (match Plan.entry? img r.valueEntry with
            | none => false
            | some ve => bitOf (Plan.eOps img ve) 1 &&
                (List.range 8).all (fun i => !bitOf (Plan.eMask img ve) i || bitOf (Plan.eMask img e) i))
          if q.status = .busy then s
          else if q.length < pos ∨ 2 ^ 32 < pos + r.t * r.hw then s.endCmd c (Fin.bare stSeqLimit)
          else if !v.stateKnown q pos then s.endCmd c (Fin.bare stStateUnavailable)
          else if !valueOk then s.endCmd c (Fin.bare stEntryInvalid)
          else if 65536 < v.seqs.length + r.f ∨ s.liveShort p h [q.handle] r.mine = true then s.endCmd c (quotaFin 0)
          else match s.claim c p h q.priority (fun t => t.forkRoll k p h pos) with
            | .wait s1 => s1
            | .quota s1 => s1.endCmd c (quotaFin 0)
            | .got (run, s1) => s1.startRoll c k p h pl run
        | _, _ => s.endCmd c (Fin.bare stSeqInvalid)

/-- OP_ROLL. -/
def execOpRoll (c : CmdRef) (s : State) : Out := .next (s.gate c 0x0302 false (fun t k p h => t.opRoll c k p h))

/-! ### Dispatch of steps (R231 to R233, R235, R598) -/

/-- A dispatch argument (R232). A tensor without an address, which only a VALUE_ENTRY can name, gives a free value
(notes/assumptions/2.md). -/
def State.argWord (s : State) (x : Context) (pl : PlanInst) (k : Cmd) (idx : List Nat) (arg : Nat) : Word × State :=
  let op := arg % 2 ^ 28
  let img := pl.image
  let w (n : Nat) : Word × State := (BitVec.ofNat 32 n, s)
  let tensor (f : Nat → Nat) : Word × State := match x.tensorAddr img k (op % 2 ^ 12) with
    | none => s.takeFree
    | some a => w (f a)
  match arg / 2 ^ 28 with
  | 0 => w op
  | 1 => w ((k.rounded img).getD (op % 8) 0)
  | 2 => w (idx.getD (op % 4) 0 * (op / 4))
  | 3 => tensor (fun a => a)
  | 4 => tensor (fun a => a / 2 ^ 32 % 2 ^ 16)
  | 5 => w (pl.base + Plan.secOff img (op % 256))
  | 6 => w ((pl.base + Plan.secOff img (op % 256)) / 2 ^ 32 % 2 ^ 16)
  | 7 => w (k.p (4 * (op % 2 ^ 10)) 4)
  | _ => w 0

/-- The arguments of a step, SEQ_ARG1 to SEQ_ARG15. -/
def State.argWords (s : State) (x : Context) (pl : PlanInst) (k : Cmd) (idx : List Nat) : List Nat → List Word × State
  | [] => ([], s)
  | a :: as =>
    let (w, s1) := s.argWord x pl k idx a
    let (ws, s2) := s1.argWords x pl k idx as
    (w :: ws, s2)

/-- A core can take a dispatch: its sequencer is idle, or was left FAULTED by a command that has ended, and no fault of the core
waits for its recovery, which comes first (R23, R24). -/
def State.coreIdle (s : State) (x : Partition) (pos : Nat × Nat × Nat) : Bool :=
  let g := s.core (s.keyAt x pos)
  !(x.dispatches.any (fun d => d.pos == pos)) && (g.seq.state == SeqState.idle || g.seq.state == SeqState.faulted) && !g.regs.zeroing && !g.run.frozen

/-- One dispatch to one core (R152, R186, R190, R235, R642), with the next number of its logical core (R391). The first dispatch
after a restore has the banks of the image besides those of its record (R463). -/
def State.dispatchTo (s : State) (c : CmdRef) (p : Nat) (img : List Byte) (i : StepInst) (args : List Word) (pos : Nat × Nat × Nat) :
    State :=
  match s.part p with
  | none => s
  | some x =>
    let key := s.keyAt x pos
    let no := SMap.get 0 x.nextDispatch (lposOf pos)
    let pc := Plan.sPc img i.entry i.step
    let banks := match Plan.placeOf img pos with
      | none => 0
      | some r => Plan.pBanks img r
    let s1 := s.updCore key (fun g =>
      let mask := BitVec.ofNat 16 banks ||| (if g.run.restored then g.regs.bankPwr else 0)
      let g1 := Cu.powerTo { g with seq := { g.seq with state := .idle } } mask
      let g2 := (args.zipIdx).foldl (fun d a => Cu.setArg d (a.2 + 1) a.1) g1
      let g3 := Cu.go g2 pc
      { g3 with run := { g3.run with dispatch := no, restored := false } })
    s1.updPart p (fun y => { y with
      nextDispatch := SMap.set 0 y.nextDispatch (lposOf pos) (no + 1)
      awaitFirst := false
      dispatches := y.dispatches ++ [{ no := no, pos := pos, block := c.block, cmd := c.id, entryPc := pc, args := args,
                                       ended := false, inst := i.no, granule := i.granule }] })

/-- Dispatches of a command that have not committed. -/
def Partition.ofCmd (x : Partition) (c : CmdRef) : List DispatchRec := x.dispatches.filter (fun d => d.block == c.block && d.cmd == c.id)

/-- The clock plan that the next dispatch of a command needs (R598): the plan that names its entry before its first dispatch,
plan 0 where none of this context's plans is in force, else the plan in force. -/
def Partition.needsPlan (x : Partition) (img : List Byte) (k : Cmd) (i : StepInst) : Nat :=
  if i.no = 0 ∨ x.clockPlan = 8 then (Plan.clockFor img (k.p 0 2)).getD (if x.clockPlan = 8 then 0 else x.clockPlan)
  else x.clockPlan

/-- Dispatch the step at the head to every idle core that still has to receive it; the step is done when all have. -/
def State.dispatchStep (s : State) (c : CmdRef) (k : Cmd) (p : Nat) (x : Context) (pl : PlanInst) (e : ExecRun) (i : StepInst)
    (left : List (Nat × Nat × Nat)) : State :=
  let img := pl.image
  match s.part p with
  | none => s
  | some y =>
    let now := left.filter (s.coreIdle y)
    let args := (List.range 15).map (fun a => Plan.sArg img i.entry i.step a)
    let (ws, s1) := s.argWords x pl k i.idx args
    let s2 := now.foldl (fun t pos => t.dispatchTo c p img i ws pos) s1
    let rest := left.filter (fun q => !now.contains q)
    if rest.isEmpty then
      s2.updExec c (fun r => { r with
        todo := e.todo.drop 1
        stepLeft := []
        atPoint := (Plan.point? img (Plan.eId img i.entry) i.step).map (fun n => (i.no, n))
        pointGranule := i.granule })
    else s2.updExec c (fun r => { r with stepLeft := rest })

/-- Open the step at the head: WAIT_ALL, the clock plan, and the sequence records of OP_RUN (R231, R448, R598). None where
it must wait; a state where the command has ended or the clock moves. -/
def State.openStep (s : State) (c : CmdRef) (k : Cmd) (p h : Nat) (pl : PlanInst) (e : ExecRun) (i : StepInst) : State × Bool :=
  match s.part p with
  | none => (s, false)
  | some y =>
    let img := pl.image
    -- A command that dispatches to a short die ends there (R662).
    let short := (Plan.stepCores img i.entry i.step).any (fun q => (s.die (y.dies.getD q.1 16)).short)
    if Plan.sWaitAll img i.entry i.step ∧ !(y.ofCmd c).isEmpty then (s, false)
    else if short then (s.endAtBoundary c stFaultRetry (2 ^ 33), false)
    else
      let need := y.needsPlan img k i
      -- A context that became CURRENT while a die coasts runs on; its plan follows at the exit (R612).
      let later := y.clockPlan == 8 && y.dies.any (fun d => (s.pll d).coastingAny)
      if y.planChange.isSome then (s, false)
      else if need ≠ y.clockPlan ∧ !later then (if y.dispatches.isEmpty then s.requestPlan p need img else s, false)
      else match s.kv p h, k.bound (k.p 0x40 2) with
        | some v, some a =>
          if e.binds.isEmpty ∨ k.opcode ≠ 0x0301 ∨ k.p 0x40 2 = 0xFFFF then (s, true)
          else match s.writeEng (k.who c.block) a (e.binds.flatMap v.seqRecord) with
            | .wait => (s, false)
            | .bad st d s1 => (s1.failCmd c st d, false)
            | .ok _ s1 => (s1, true)
        | _, _ => (s, true)

/-- Whether the conductor makes dispatches of a command: it runs, and its context is CURRENT with no switch decided (R435,
R462). -/
def State.runsNow (s : State) (c : CmdRef) (k : Cmd) (p : Nat) : Bool :=
  s.serves c.block && k.phase == CmdPhase.started && (match s.part p with
    | none => false
    | some x => x.current == some k.ctxField && x.switch.isNone)

/-- Perform something on a started execution command with its context, plan and progress. -/
def State.onExec (s : State) (c : CmdRef) (f : Cmd → Nat → Nat → Context → PlanInst → ExecRun → State) : State :=
  match s.cmd c with
  | none => s
  | some k =>
    let p := (k.partOf c.block).getD 8
    match s.ctx p k.ctxField, k.exec with
    | some x, some e => match x.plan with
      | none => s
      | some pl => if k.phase = .started then f k p k.ctxField x pl e else s
    | _, _ => s

/-- STEP_DISPATCH (R231 to R233, R278, R462, R598): the next step is dispatched to the cores that are idle; a roll between
frames tries to begin its next one. Span operations that waited for the first dispatch go on (R466). -/
def execStepDispatch (c : CmdRef) (s : State) : Out :=
  .next ((s.unlessLost c <| s.onExec c (fun k p h x pl e =>
    if !s.runsNow c k p ∨ e.atPoint.isSome then s
    else match e.todo with
      | [] => match e.roll with
        | none => s
        | some r => if r.open_ then s else (s.beginFrame c k p h pl r).settle
      | i :: _ =>
        if !e.stepLeft.isEmpty then s.dispatchStep c k p x pl e i e.stepLeft
        else match s.openStep c k p h pl e i with
          | (s1, false) => s1.settle
          | (s1, true) => s1.dispatchStep c k p x pl e i (Plan.stepCores pl.image i.entry i.step))).drainInboxes)

/-- One step of 50 MHz toward a frequency (R598). -/
def stepMhz (now target : Nat) : Nat := if now + 50 ≤ target then now + 50 else if target + 50 ≤ now then now - 50 else target

/-- PLAN_CHANGE_STEP (R598 step 2, R612): every PLL of the partition moves one step, a PLL in holdover pausing; when all have
arrived the plan is in force. -/
def execPlanChangeStep (part : Nat) (s : State) : Out :=
  .next (match s.part part with
    | none => s
    | some x =>
      if x.planChange.isNone then s
      else
        let s1 := x.dies.foldl (fun t d =>
          let k := t.dieClk d
          if (t.pll d).phase ≠ .locked then t
          else t.setDieClk d { k with
            colMhz := (List.range 8).map (fun c => stepMhz (k.colMhz.getD c 0) (k.colTarget c))
            fabMhz := stepMhz k.fabMhz k.fabTarget }) s
        s1.finishPlan part)

/-! ### Commits (R69, R469, R643) -/

/-- DISPATCH_COMMIT (R170, R643): the dispatch's QSTAT contributions pass to its command, and what the marshal recorded is
released. -/
def execDispatchCommit (core : CorePos) (s : State) : Out :=
  .next (s.onCore core (fun k => match s.dispatchOf k with
    | none => s
    | some (p, _, d) =>
      if !d.ended then s
      else
        let g := s.core k
        let s1 := s.updCore k (fun g => { g with run := { g.run with qstat := [], replay := ReplayRec.none } })
        let s2 := s1.updPart p (fun x => { x with dispatches := x.dispatches.filter (fun e => e != d) })
        let s3 := s2.updExec d.ref (fun e => { e with qstat := e.qstat ++ g.run.qstat.map (fun q => (d.granule, q)) })
        let done (j : CollJoin) : Bool := j.core == k && reqDispatch j.req == d.no % 2 ^ 16
        let colls := (s3.span.colls.map (fun r => { r with joins := r.joins.filter (fun j => !done j) })).filter (fun r =>
          !(r.finished && r.joins.isEmpty))
        { s3 with span := { s3.span with colls := colls } }))

/-- A QSTAT record after contributions (R67, R69): counts saturate, sticky flags, and E4M3_MODE of the latest command. -/
def addQstat (old : Dword) (q : QstatDelta) (first : Bool) : Dword :=
  let v := old.toNat
  let b (x : Bool) (i : Nat) : Nat := if x then 2 ^ i else 0
  BitVec.ofNat 64 (min (v % 2 ^ 32 + q.sat) 0xFFFFFFFF + b (bitOf v 32 || q.nan) 32 + b (bitOf v 33 || q.invalid) 33 +
    b ((bitOf v 34 && !first) || q.e4m3) 34)

/-- Apply the contributions of a granule. -/
def State.applyQstat (s : State) (c : CmdRef) (p h g : Nat) : State :=
  s.onExec c (fun _ _ _ _ _ e =>
    let mine := (e.qstat.filter (fun q => q.1 == g)).map (fun q => q.2)
    let r := mine.foldl (fun (a : State × List Nat) q =>
      (a.1.updCtx p h (fun x => { x with qstat := SMap.set 0#64 x.qstat q.index (addQstat (SMap.get 0#64 x.qstat q.index) q (!a.2.contains q.index)) }),
        if a.2.contains q.index then a.2 else q.index :: a.2)) (s, e.touched)
    r.1.updExec c (fun x => { x with qstat := x.qstat.filter (fun q => q.1 != g), touched := r.2 }))

/-- Commit the sequences of OP_RUN (R247, R264, R265, R304): with NO_LOOKUP the tokens are read now, since the blocks that
become full are keyed by them (DEDUCED, notes/assumptions/20.md). -/
def State.commitBinds (s : State) (w : Who) (p h : Nat) : List SeqBind → Eng Unit
  | [] => .ok () s
  | b :: bs =>
    let toks : Eng (List Word) := if b.tokens.length = b.added then .ok b.tokens s
      else match s.readEng w b.tokAddr (4 * b.added) with
        | .wait => .wait
        | .bad st d s1 => .bad st d s1
        | .ok t s1 => .ok (wordsAt t) s1
    match toks with
    | .wait => .wait
    | .bad st d s1 => .bad st d s1
    | .ok t s1 => ((s1.commitSeq p h b.handle t b.skip).updSeq p h b.handle (fun q => { q with status := .idle })).commitBinds w p h bs

/-- One more granule of a command is committed, with the expert residency it left (R468). -/
def State.nextGranule (s : State) (c : CmdRef) : State :=
  s.updCmd c (fun k => { k with
    granules := k.granules + 1
    exec := k.exec.map (fun e => { e with expertUndo := e.expertUndo.filter (fun u => decide (k.granules < u.granule)) }) })

/-- A granule has been committed: the command completes, ends because it is pre-empted, or goes on. -/
def State.afterGranule (s : State) (c : CmdRef) (fin : Cmd → Fin) : State :=
  let s1 := s.nextGranule c
  match s1.cmd c with
  | none => s1
  | some k => match k.exec with
    | none => s1
    | some e =>
      if e.total ≤ k.granules then s1.finish c (fin k)
      else if k.preempted then (s1.endAtBoundary c stPreempted 0).settle
      else s1

/-- Commit of OP_RUN and OP_TRAIN_STEP. -/
def State.commitRun (s : State) (c : CmdRef) (k : Cmd) (p h : Nat) (e : ExecRun) : State :=
  let bs := sortBy (fun a b => decide (a.handle ≤ b.handle)) e.binds
  match s.commitBinds (k.who c.block) p h bs with
  | .wait => s
  | .bad st d s1 => (s1.failCmd c st d).settle
  | .ok _ s1 =>
    let s2 := s1.applyQstat c p h k.granules
    let s3 := if k.opcode = 0x0304 then s2.updCtx p h (fun x => { x with
        weights := x.weights.map (fun w => if w.wx = 0 then w else { w with second := !w.second }) }) else s2
    let n := (bs.map SeqBind.added).sum
    let hits := (bs.map (fun b => b.hits.length)).sum
    (s3.updExec c (fun x => { x with binds := [], committedPositions := n, committedHits := hits })).afterGranule c (fun j =>
      match j.exec with
      | none => Fin.ok
      | some x => { Fin.ok with c0 := x.committedPositions, c1 := x.committedHits })

/-! ### Scoring, pruning and the end of a roll (R283 to R288) -/

/-- The part index under which this engine gives its scores to the group. -/
def State.scorePart (s : State) (g : Group) : Nat := g.rank s.span.engineId * g.ppe

/-- What the conductor sends for a roll: it has no core (DESIGN CHOICE for the identity, notes/assumptions/21.md). -/
def rollOp (c : CmdRef) (p no rank : Nat) : SpanOp :=
  {
    core := 0, cmd := some (c.block, c.id), part := p, lpos := noIdx, op := 9, lsem := 0, dispatch := no, req := rank, engine := 0,
    dstPart := 0, window := 0, offset := 0, arg := 0, length := 0, dstOff := 0, data := [], port := 0, got := 0, acked := false,
    flits := [] }

/-- The gather of a roll over its group: this engine's scores are held and sent, as one more dispatch of the conductor (R283).
The Bool tells whether every engine can be reached. -/
def State.sendScores (s : State) (c : CmdRef) (p gi : Nat) (g : Group) (bs : List Byte) : State × Bool :=
  let mine (r : CollRun) : Bool := r.part == p && r.group == gi && !r.finished && r.joins.isEmpty && !r.sent
  let no := match s.part p with
    | none => 0
    | some x => SMap.get 0 x.nextDispatch noIdx
  let s0 := s.updPart p (fun x => { x with nextDispatch := SMap.set 0 x.nextDispatch noIdx (no + 1) })
  let fresh : CollRun := { CollRun.fresh p gi with op := 6, ty := 2, length := bs.length }
  let (r0, s1) : CollRun × State := match s0.span.colls.find? mine with
    | some r =>
      let r1 := { fresh with data := r.data, ids := r.ids }
      (r1, s0.setColl r r1)
    | none => (fresh, { s0 with span := { s0.span with colls := s0.span.colls ++ [fresh] } })
  let (s2, r1, ok) := s1.contribute (rollOp c p no 0) g gi r0 (s1.scorePart g) bs
  (s2.setColl r0 { r1 with sent := true }, ok)

/-- Scores of every slot that the gather has, in slot order; none while an engine's part is missing. -/
def State.gathered (s : State) (p gi : Nat) (g : Group) : Option (List Word) :=
  match s.span.colls.find? (fun r => r.gathers p gi) with
  | none => none
  | some r => ((List.range g.members.length).mapM (fun e => r.whole g.parts (e * g.ppe) 0)).map (fun l => wordsAt l.flatten)

/-- Order of FP32 values that are not NaN: both zeros are equal. -/
def scoreOrder (w : Word) : Int := if w.getLsbD 31 then -((w.toNat % 2 ^ 31 : Nat) : Int) else ((w.toNat : Nat) : Int)

/-- Slot a ranks before slot b (R283). -/
def ranksBefore (a b : Nat × Word) : Bool :=
  match Float.isNan a.2, Float.isNan b.2 with
  | true, true => decide (a.1 ≤ b.1)
  | true, false => false
  | false, true => true
  | false, false => decide (scoreOrder b.2 < scoreOrder a.2) || (decide (scoreOrder a.2 = scoreOrder b.2) && decide (a.1 ≤ b.1))

/-- Slots in rank order. -/
def ranking (scores : List Word) : List (Nat × Word) :=
  sortBy (fun a b => ranksBefore a b) ((scores.zipIdx).map (fun q => (q.2, q.1)))

/-- New slots of a refork in order, each with its survivor's rank (R284). -/
def reforkRanks (f b : Nat) : List Nat := (List.range b).flatMap (fun r => List.replicate (f / b + (if r < f % b then 1 else 0)) r)

/-! ### Survivors of a pruning round (R284, R285, R307) -/

/-- The slot of this engine that is slot j of the roll. -/
def RollBlock.here (r : RollBlock) (run : RollRun) (j : Nat) : Option Nat :=
  if r.rank * r.mine ≤ j then run.slots[j - r.rank * r.mine]? else none

/-- A roll whose slots are pruned: scores, ranking, and the parents of the new slots. -/
def RollRun.ranks (run : RollRun) : List (Nat × Word) := ranking run.scores

/-- The slot that holds the survivor of rank k. -/
def RollRun.slotOf (run : RollRun) (k : Nat) : Nat := (run.ranks.getD k (0, 0)).1

/-- Survivors, by rank, whose children an engine hosts. -/
def RollBlock.wanted (r : RollBlock) (engine : Nat) : List Nat := (((reforkRanks r.f r.b).drop (engine * r.mine)).take r.mine).dedup

/-- Survivors that this engine receives. -/
def RollBlock.receives (r : RollBlock) (run : RollRun) : List Nat :=
  (r.wanted r.rank).filter (fun k => (r.here run (run.slotOf k)).isNone)

/-- What a survivor's children need of it: its page sets from the fork's block onward, and its state (R285). -/
def KvState.ownRanges (v : KvState) (q : Sequence) (forkPos : Nat) : List (Nat × Nat) :=
  ((q.pages.drop (forkPos / 256)).filterMap id).flatMap v.setRanges ++ q.live.toList.map (fun b => (v.liveAddr b q.liveSecond, v.sb))

/-- Send a survivor to another engine; none where no port leads there. -/
def State.sendSurvivor (s : State) (c : CmdRef) (p gen rank : Nat) (g : Group) (gi engine : Nat) (bs : List Byte) : Option State :=
  (g.members[engine]?).bind fun m => (s.pickPort p m.1 noIdx).map fun n =>
    s.launch { rollOp c p gen rank with
      op := 1, engine := m.1, dstPart := m.2, arg := collArg gi noIdx gen, length := bs.length, data := bs, port := n }

/-- Send the survivors that this engine holds to the engines that host children of theirs (R285). -/
def State.ship (s : State) (c : CmdRef) (p h : Nat) (r : RollBlock) (run : RollRun) : Option State :=
  let away := (List.range r.peers).filter (fun e => e != r.rank)
  let todo := (List.range r.b).flatMap (fun k => match r.here run (run.slotOf k) with
    | none => []
    | some q => (away.filter (fun e => (r.wanted e).contains k)).map (fun e => (k, q, e)))
  todo.foldlM (fun t x => match t.kv p h, t.seq p h x.2.1, (t.part p).bind (fun y => y.group r.group) with
    | some v, some q, some g =>
      let rs := v.ownRanges q run.forkPos
      let t1 := rs.foldl (fun u a => u.fwRead a.1 a.2) t
      t1.sendSurvivor c p run.gen x.1 g r.group x.2.2 (rs.flatMap (fun a => Memory.read t1.mem.dram a.1 a.2))
    | _, _, _ => none) s

/-- A pruned slot keeps the parent's history and gives up the rest. -/
def State.stripSlot (s : State) (p h n keep : Nat) : State :=
  match s.seq p h n with
  | none => s
  | some q =>
    (((s.updKv p h (fun v => { v.upd n (fun z => { z with pages := q.pages.take keep, offTree := true, node := none }) with
      keepers := v.keepers.filter (fun e => e.2 != n) })).dropRefs p h ((q.pages.drop keep).filterMap id))).syncList p h n

/-- Release the pruned slots (R284). Where survivors come from other engines and this engine's first slot is pruned, that slot
keeps the parent's history for the first of them. -/
def State.prune (s : State) (p h : Nat) (r : RollBlock) (run : RollRun) : State × List Nat :=
  let gone (i : Nat) : Bool := !((List.range r.b).any (fun k => run.slotOf k == r.rank * r.mine + i))
  let spare (i : Nat) : Bool := i == 0 && !(r.receives run).isEmpty
  (run.slots.zipIdx).foldl (fun a x =>
    if !gone x.2 then (a.1, a.2 ++ [x.1])
    else if spare x.2 then (a.1.stripSlot p h x.1 (run.forkPos / 256), a.2 ++ [x.1])
    else (a.1.releaseSeq p h x.1, a.2 ++ [0])) (s, [])

/-- Bytes that a survivor has, given a sequence of the roll: every slot has the same LENGTH and history. -/
def KvState.survivorBytes (v : KvState) (q : Sequence) (forkPos : Nat) : Nat :=
  ((q.length + 255) / 256 - forkPos / 256) * v.setBytes + v.sb

/-- Whether a survivor that this engine receives has not wholly come. -/
def State.lacksSurvivor (s : State) (p h : Nat) (r : RollBlock) (run : RollRun) : Bool :=
  match s.kv p h, s.seq p h (run.slots.getD 0 0) with
  | some v, some q => (r.receives run).any (fun k => match s.survivor p r.group run.gen k with
    | none => true
    | some x => decide (x.data.length < v.survivorBytes q run.forkPos))
  | _, _ => false

/-- Give a sequence n more page sets (R258). -/
def State.addPages (s : State) (p h q : Nat) : Nat → Option State
  | 0 => some s
  | n + 1 => (s.kv p h).bind fun v => v.takePage.bind fun g =>
    (s.updKv p h (fun _ => g.2.upd q (fun z => { z with pages := z.pages ++ [some g.1] }))).addPages p h q n

/-- A survivor enters a sequence that holds the parent's history: page sets and list as R258 asks, and what the peer sent
(R285). Its tokens since the fork are not known here, so it is OFF_TREE (DESIGN CHOICE, notes/assumptions/21.md). None where
page sets or list space are short. -/
def State.receiveInto (s : State) (p h n forkPos : Nat) (bs : List Byte) : Option State :=
  (s.kv p h).bind fun v => (v.seq n).bind fun q => (v.ensureList n ((q.length + 255) / 256)).bind fun w =>
    ((s.updKv p h (fun _ => w)).addPages p h n ((q.length + 255) / 256 - forkPos / 256)).bind fun t =>
      (t.kv p h).bind fun w1 => (w1.seq n).map fun z => (t.fillRanges (w1.ownRanges z forkPos) bs).syncList p h n

/-- A new sequence with the history of another. -/
def State.historySeq (s : State) (p h like keep : Nat) : Option (Nat × State) :=
  (s.seq p h like).bind fun q =>
    (s.addSeq p h { q with pages := [], listOff := 0, listCap := 0, range := none, offTree := true, node := none }).bind fun a =>
      ((a.2.kv p h).bind (fun v => v.ensureList a.1 keep)).map fun v =>
        (a.1, a.2.updKv p h (fun _ => v.upd a.1 (fun z => { z with pages := q.pages.take keep })))

/-- Survivors from other engines enter sequences of this one, by rank; a stripped first slot takes the first of them. -/
def State.receiveAll (s : State) (p h : Nat) (r : RollBlock) (run : RollRun) (stripped : Bool) : Option (State × List (Nat × Nat)) :=
  let like := run.slots.getD 0 0
  ((r.receives run).zipIdx).foldlM (fun a x =>
    let to_ := if stripped ∧ x.2 = 0 then some (like, a.1) else a.1.historySeq p h like (run.forkPos / 256)
    to_.bind fun t => (t.2.receiveInto p h t.1 run.forkPos (((s.survivor p r.group run.gen x.1).map Survivor.data).getD [])).map fun u =>
      (u, a.2 ++ [(x.1, t.1)])) (s, [])

/-- Refork (R284, R285): survivors in rank order are forked into their new slots on this engine; those without children here are
released. None where sequences, list space, page sets or live blocks are short. -/
def State.refork (s : State) (p h : Nat) (r : RollBlock) (run : RollRun) : Option (State × List Nat) :=
  let news := ((reforkRanks r.f r.b).drop (r.rank * r.mine)).take r.mine
  let stripped := !((List.range r.b).any (fun k => run.slotOf k == r.rank * r.mine))
  (s.receiveAll p h r run stripped).bind fun s1 =>
    (List.range r.b).foldlM (fun a k =>
      let n := news.count k
      match (r.here run (run.slotOf k)).orElse (fun _ => (s1.2.find? (fun q => q.1 == k)).map (fun q => q.2)) with
      | none => some a
      | some q =>
        if n = 0 then some (a.1.releaseSeq p h q, a.2)
        else (a.1.seq p h q).bind fun z => (a.1.forkReleasing p h q z.length n).map fun f =>
          (f.1.foldl (fun u m => u.updSeq p h m (fun y => { y with status := .busy })) f.2, a.2 ++ f.1)) (s1.1, [])

/-- The lineage block of a pruning round (R287). -/
def lineageBlock (r : RollBlock) (scores : List Word) : List Byte :=
  let ranks := ranking scores
  (reforkRanks r.f r.b).flatMap (fun k =>
    let q := ranks.getD k (0, 0)
    leBytes 2 q.1 ++ leBytes 2 k ++ leBytes 4 q.2.toNat)

/-- The final lineage block, with handles where the futures stay (R287). Handles of slots that other engines host are not
this engine's to know: free values stand for them. -/
def State.finalBlock (s : State) (r : RollBlock) (run : RollRun) : List Byte × State :=
  let body := (List.range r.f).flatMap (fun i => leBytes 4 0 ++ leBytes 4 (if r.value then run.scores.getD i Float.nan32 else Float.nan32).toNat)
  if r.keepFutures then
    let first := r.rank * r.mine
    let a := s.takeFrees first
    let b := a.2.takeFrees (r.f - first - r.mine)
    (body ++ Cu.bytesOf a.1 ++ run.slots.flatMap (leBytes 4) ++ Cu.bytesOf b.1, b.2)
  else (body, s)

/-- The roll has committed its last frame: the futures are released or kept, and a dormant parent is released (R280, R287,
R288). -/
def State.endRoll (s : State) (c : CmdRef) (k : Cmd) (p h : Nat) (r : RollBlock) (run : RollRun) : State :=
  let fb := s.finalBlock r run
  match fb.2.writeEng (k.who c.block) (r.lineage + 8 * r.f * run.rounds) fb.1 with
  | .wait => s
  | .bad st d s1 => (s1.failCmd c st d).settle
  | .ok _ s1 =>
    let s2 := run.slots.foldl (fun t n => if r.keepFutures then t.updSeq p h n (fun z => { z with status := .idle }) else t.releaseSeq p h n) s1
    let s3 := if r.keepParent then s2 else s2.releaseSeq p h run.parent
    ((s3.nextGranule c).applyQstat c p h k.granules).finish c
      { Fin.ok with c0 := r.t, c1 := run.copies }

/-- A frame with its scoring and refork is committed (R278, R467). -/
def State.commitFrame (s : State) (c : CmdRef) (k : Cmd) (p h : Nat) (pl : PlanInst) (r : RollBlock) (run : RollRun) : State :=
  if r.t ≤ run.frame + 1 then s.endRoll c k p h r run
  else
    let next := { run with frame := run.frame + 1, open_ := false, valuing := false }
    let s1 := ((s.applyQstat c p h k.granules).updExec c (fun x => { x with roll := some next })).nextGranule c
    if k.preempted then (s1.endAtBoundary c stPreempted 0).settle
    else match s1.cmd c with
      | none => s1
      | some j => if s1.runsNow c j p then (s1.beginFrame c j p h pl next).settle else s1

/-- The rest of a pruning round once its survivors are sent: when those of other engines have come, the refork with its lineage
block, and the commit (R272, R284, R285, R287). -/
def State.reforkRound (s : State) (c : CmdRef) (k : Cmd) (p h : Nat) (pl : PlanInst) (r : RollBlock) (run : RollRun) : State :=
  if s.lacksSurvivor p h r run then s
  else
    let prio := (run.slots.filterMap (fun q => (s.seq p h q).map Sequence.priority)).foldl min 7
    match s.claim c p h prio (fun t => t.refork p h r run) with
    | .wait s1 => s1
    | .quota s1 => s1.failCmd c stQuota (k.granules * 2 ^ 32)
    | .got (s1, slots) =>
      match s1.writeEng (k.who c.block) (r.lineage + 8 * r.f * run.rounds) (lineageBlock r run.scores) with
      | .wait => s
      | .bad st d s2 => (s2.failCmd c st d).settle
      | .ok _ s2 => (s2.dropSurvivors p r.group).commitFrame c k p h pl r
          { run with slots := slots, gen := run.gen + 1, rounds := run.rounds + 1, shipped := false }

/-- Scores are here: prune and refork where asked, then commit (R283, R284, R287). -/
def State.scored (s : State) (c : CmdRef) (k : Cmd) (p h : Nat) (pl : PlanInst) (r : RollBlock) (run : RollRun) (scores : List Word) :
    State :=
  let now := { run with scores := scores }
  if r.prune ∧ run.frame + 1 < r.t then
    match s.ship c p h r now with
    | none => (s.endAtBoundary c stPeerLost 0).settle
    | some s1 =>
      let q := s1.prune p h r now
      let sent := { now with slots := q.2, shipped := true }
      (q.1.updExec c (fun x => { x with roll := some sent })).reforkRound c k p h pl r sent
  else s.commitFrame c k p h pl r now

/-- Scores of this engine's slots, read from the future table. -/
def State.readScores (s : State) (w : Who) (a n : Nat) : Eng (List Word) :=
  (engAll (fun t i => t.readEng w (a + 64 * i + 0x20) 4) s (List.range n)).bind (fun bs t => .ok (wordsAt bs) t)

/-- The value entry of a scoring frame has run: gather the scores of all slots (R283). With peers the first call sends this
engine's scores, and the frame waits until every engine's part is here. -/
def State.commitValue (s : State) (c : CmdRef) (k : Cmd) (p h : Nat) (pl : PlanInst) (r : RollBlock) (run : RollRun) : State :=
  if run.shipped then s.reforkRound c k p h pl r run
  else match k.bound r.future with
  | none => s
  | some a => match s.readScores (k.who c.block) a r.mine with
    | .wait => s
    | .bad st d s1 => (s1.failCmd c st d).settle
    | .ok mine s1 =>
      if r.peers ≤ 1 then s1.scored c k p h pl r run mine
      else match (s1.part p).bind (fun x => x.group r.group) with
        | none => s1
        | some g =>
          match s1.gathered p r.group g with
          | some all => (s1.dropGather p r.group).scored c k p h pl r run all
          | none =>
            if s1.span.colls.any (fun q => q.gathers p r.group) then s1
            else match s1.sendScores c p r.group g (Cu.bytesOf mine) with
              | (s2, true) => s2
              | (s2, false) => (s2.endAtBoundary c stPeerLost 0).settle

/-- Tokens of a frame of the slots of this engine (R286). -/
def State.frameTokens (s : State) (w : Who) (r : RollBlock) (run : RollRun) : List Nat → Eng (List (List Word))
  | [] => .ok [] s
  | i :: is =>
    match s.readEng w (r.out + 4 * ((run.frame * r.f + r.rank * r.mine + i) * r.hw)) (4 * r.hw) with
    | .wait => .wait
    | .bad st d s1 => .bad st d s1
    | .ok bs s1 => match s1.frameTokens w r run is with
      | .wait => .wait
      | .bad st d s2 => .bad st d s2
      | .ok rest s2 => .ok (wordsAt bs :: rest) s2

/-- The step entry of a frame has run: the frame's tokens and KV writes are committed, and at a scoring frame the value entry
follows (R247, R265, R278, R282, R286). -/
def State.commitTokens (s : State) (c : CmdRef) (k : Cmd) (p h : Nat) (pl : PlanInst) (r : RollBlock) (run : RollRun) : State :=
  match s.frameTokens (k.who c.block) r run (List.range r.mine) with
  | .wait => s
  | .bad st d s1 => (s1.failCmd c st d).settle
  | .ok toks s1 =>
    let order := sortBy (fun a b => decide (a.1 ≤ b.1)) (run.slots.zip toks)
    let s2 := order.foldl (fun t q => t.commitSeq p h q.1 q.2 0) s1
    let scoring := r.value && ((run.frame + 1) % max r.s 1 == 0 || run.frame + 1 == r.t)
    if !scoring then s2.commitFrame c k p h pl r run
    else match k.bound r.future, Plan.entry? pl.image r.valueEntry with
      | some a, some e =>
        match engAll (fun t i => (t.writeEng (k.who c.block) (a + 64 * i + 0x20) (leBytes 4 Float.nan32.toNat)).bind
            (fun _ u => .ok ([] : List Unit) u)) s2 (List.range r.mine) with
        | .wait => s
        | .bad st d s3 => (s3.failCmd c st d).settle
        | .ok _ s3 => s3.updExec c (fun x => { x.addSteps pl.image (k.rounded pl.image) e run.frame with
            roll := some { run with valuing := true } })
      | _, _ => s2

/-- GRANULE_COMMIT (R265, R278, R283, R467 to R469): every dispatch of the next granule has committed. For a roll it also
marks the end of a frame's step entry. -/
def execGranuleCommit (c : CmdRef) (s : State) : Out :=
  .next (s.unlessLost c <| s.onExec c (fun k p h _ pl e =>
    let g := k.granules
    let waits : Bool := match s.part p with
      | none => true
      | some x => (x.ofCmd c).any (fun d => d.granule == g)
    if waits ∨ e.todo.any (fun i => decide (i.granule ≤ g)) ∨ e.atPoint.isSome then s
    else match e.roll with
      | none => s.commitRun c k p h e
      | some run =>
        if !run.open_ then s
        else if run.valuing then s.commitValue c k p h pl k.roll run
        else s.commitTokens c k p h pl k.roll run))

/-! ### Expert points (R364, R365) -/

/-- An entry of a request list: its number, expert and prefetch mark. -/
structure ExpertReq where
  no : Nat
  expert : Nat
  prefetch : Bool
  deriving DecidableEq, Repr

/-- Step 1 of R364: the number of the first entry at fault. -/
def badRequest (count maxActive : Nat) (ws : List Word) : Option Nat :=
  (ws.zipIdx).findSome? (fun e =>
    let v := e.1.toNat
    let req := (((ws.take (e.2 + 1)).filter (fun w => !w.getLsbD 31)).map (fun w => w.toNat % 2 ^ 20)).dedup
    if bitsOf v 30 20 ≠ 0 ∨ count ≤ v % 2 ^ 20 ∨ maxActive < req.length then some (e.2 + 1) else none)

/-- The slot an expert takes (step 2 of R364): a free one, or that of the unpinned, unrequired expert with the oldest
request, the lowest index on a tie; with the expert it evicts. -/
def Context.slotFor (x : Context) (img : List Byte) (required : List Nat) : Option (Nat × Option Nat) :=
  match (List.range (Plan.expertSlots img)).find? (fun n => !(x.experts.any (fun e => e.slot == n))) with
  | some n => some (n, none)
  | none =>
    let cs := x.experts.filter (fun e => !Plan.expPinned img e.expert && !required.contains e.expert)
    (cs.foldl (fun (best : Option ExpertSlot) e => match best with
      | none => some e
      | some b => if e.lastReq < b.lastReq ∨ (e.lastReq = b.lastReq ∧ e.expert < b.expert) then some e else some b) none).map
      (fun e => (e.slot, some e.expert))

/-- Serve one expert: note the request, and fetch it where it is not resident and a slot can be had. -/
def State.serveExpert (s : State) (p h : Nat) (pl : PlanInst) (required : List Nat) (x : Nat) (errs : List UnitErr) :
    Option (Nat × Nat) × Bool × State :=
  match s.ctx p h with
  | none => (none, false, s)
  | some z => match z.experts.find? (fun e => e.expert == x) with
    | some e => (none, false, s.updCtx p h (fun y => y.setExpert x e.slot))
    | none => match z.slotFor pl.image required with
      | none => (none, false, s)
      | some (slot, old) =>
        let s1 := match old with
          | none => s
          | some o => (s.putDram (pl.expertEntry o) (leBytes 8 0)).updCtx p h (fun y => { y with
              experts := y.experts.filter (fun e => e.expert != o) })
        let r := s1.fetchExpert p h x slot errs
        (r.1, r.2.1, if r.1.isSome then r.2.2 else r.2.2.updCtx p h (fun y => y.setExpert x slot))

/-- Serve a list of experts; the first loss ends it. -/
def State.serveExperts (s : State) (p h : Nat) (pl : PlanInst) (required : List Nat) (errs : List UnitErr) :
    List Nat → Option (Nat × Nat) × Bool × State
  | [] => (none, false, s)
  | x :: xs =>
    let r := s.serveExpert p h pl required x errs
    if r.1.isSome then r
    else
      let q := r.2.2.serveExperts p h pl required errs xs
      (q.1, r.2.1 || q.2.1, q.2.2)

/-- Keep the residency of before a granule's first expert point (R468). -/
def State.keepExperts (s : State) (c : CmdRef) (x : Context) (pl : PlanInst) : State :=
  let img := pl.image
  let ranges := [(pl.expertEntry 0, 8 * Plan.expertCount img), (x.expertBase, Plan.expertSlots img * Plan.slotUnits img * unitBytes)]
  let bytes := ranges.foldl (fun m r => Memory.copyFrom s.mem.dram r.1 r.2 m r.1) []
  s.updExec c (fun e =>
    if e.expertUndo.any (fun u => u.granule == e.pointGranule) then e
    else { e with expertUndo := e.expertUndo ++ [{ granule := e.pointGranule, experts := x.experts, ranges := ranges, bytes := bytes }] })

/-- EXPERT_POINT (R355, R363, R364). -/
def execExpertPoint (c : CmdRef) (errs : List UnitErr) (s : State) : Out :=
  .next (s.unlessLost c <| s.onExec c (fun k p h x pl e => match e.atPoint with
    | none => s
    | some (no, pt) =>
      let img := pl.image
      let busy : Bool := match s.part p with
        | none => true
        | some y => (y.ofCmd c).any (fun d => d.inst == no)
      if busy ∨ s.mapsOut p then s
      else match x.tensorAddr img k (Plan.ptTensor img pt) with
        | none => s.updExec c (fun r => { r with atPoint := none })
        | some a =>
          let w := k.who c.block
          match (s.readEng w a 4).bind (fun n t => t.readEng w (a + 4) (4 * leNat n)) with
          | .wait => s
          | .bad st d s1 => (s1.failCmd c st d).settle
          | .ok bs s1 =>
            let ws := wordsAt bs
            match badRequest (Plan.expertCount img) (Plan.maxActive img) ws with
            | some n => (s1.failCmd c stExpertRequest n).settle
            | none =>
              let pick (pre : Bool) : List Nat := ((ws.filter (fun v => v.getLsbD 31 == pre)).map (fun v => v.toNat % 2 ^ 20)).dedup
              let required := pick false
              let s2 := (s1.keepExperts c x pl).updCtx p h (fun y => { y with expertClock := y.expertClock + 1 })
              let r := s2.serveExperts p h pl required errs (required ++ (pick true).filter (fun v => !required.contains v))
              match r.1 with
              | some (st, u) => (r.2.2.failCmd c stDataLoss (flashLoss st u)).settle
              | none =>
                (if r.2.1 then r.2.2.updCmd c (fun j => { j with flashUnwritten := true }) else r.2.2).updExec c (fun q => { q with
                  atPoint := none })))

/-! ### Waits and time-outs (R279, R285, R399, R437) -/

/-- SEQ_BUSY_RESUME (R279): a command that waited for a BUSY sequence is tried again. -/
def execSeqBusyResume (c : CmdRef) (s : State) : Out :=
  match s.cmd c with
  | none => .next s
  | some k =>
    if k.phase ≠ .waiting then .next s
    else match k.opcode with
      | 0x0301 => execOpRun c s
      | 0x0302 => execOpRoll c s
      | 0x0303 => execOpFork c s
      | 0x0306 => execOpSeqRelease c s
      | 0x0307 => execOpSeqThaw c s
      | _ => .next s

/-- Whether a collective lacks what another engine has to give. -/
def CollRun.lacksPeer (r : CollRun) (g : Group) (rank : Nat) : Bool :=
  let remote (j : Nat) : Bool := j / max g.ppe 1 != rank
  if r.op = 4 ∨ r.op = 5 then
    (g.owned rank).any (fun sg => (List.range g.parts).any (fun j => remote j && (r.whole g.parts j sg).isNone)) ||
      (r.op == 4 && (List.range g.parts).any (fun sg => remote sg && (r.whole g.parts g.parts sg).isNone))
  else (List.range g.parts).any (fun j => remote j && (r.whole g.parts j 0).isNone)

/-- A command waits for a peer: a collective of its dispatches, or the gather or the survivors of a roll (R285, R399). -/
def State.waitsPeer (s : State) (c : CmdRef) (k : Cmd) (p : Nat) : Bool :=
  match s.part p with
  | none => false
  | some x =>
    let keys := (x.ofCmd c).map (fun d => s.keyAt x d.pos)
    let roll := match k.exec.bind (fun e => e.roll) with
      | none => false
      | some r => r.valuing && decide (1 < k.roll.peers) && (x.ofCmd c).isEmpty &&
          (!r.shipped || s.lacksSurvivor p k.ctxField k.roll r)
    roll || s.span.colls.any (fun r => r.part == p && !r.finished && r.joins.any (fun j => keys.contains j.core) &&
      (match x.group r.group with
        | none => false
        | some g => r.lacksPeer g (g.rank s.span.engineId)))

/-- Limit of a command's timer in µs, or none (R409, R437). -/
def State.limitOf (s : State) (c : CmdRef) (k : Cmd) : Option Nat :=
  let n := if k.timeout ≠ 0 then k.timeout else if 9 ≤ c.block then 1000000 else (s.block c.block).defTimeout.toNat
  if n = 0xFFFFFFFF then none else some (max n 1)

/-- COMMAND_TIMEOUT (R285, R399, R437): the timer of a started command has reached its limit; the timer of a context's
command runs only while the context is CURRENT. -/
def execCommandTimeout (c : CmdRef) (s : State) : Out :=
  .next (match s.cmd c with
    | none => s
    | some k =>
      let p := (k.partOf c.block).getD 8
      let counts := k.scope c.block != .context || (match s.part p with
        | none => false
        | some x => x.current == some k.ctxField)
      if k.phase ≠ .started ∨ (s.limitOf c k).isNone ∨ !counts then s
      else (s.endAtBoundary c (if s.waitsPeer c k p then stPeerLost else stTimeout) 0).settle)

end Sys2Proof.Machine
end

