-- ==== Sys2Proof/Machine/PartCmds.lean ====
section
/-! DEFINITION. Commands on partitions and contexts (R438, R453 to R475) and the steps of a context switch (R461 to
R466). -/

namespace Sys2Proof.Machine

/-! ### OP_PART_CREATE (R453 to R456) -/

/-- A pair set of R453. -/
def pairSetOk (mask : Nat) : Bool :=
  [1, 2, 4, 8].any (fun n => (List.range (8 / n)).any (fun j => mask == (2 ^ n - 1) * 2 ^ (n * j)))

/-- A pair that cannot be used: a channel it owns is neither trained nor spared (R676). -/
def State.pairUnusable (s : State) (k : Nat) : Bool :=
  (List.range 24).any (fun i => (SMap.get Chan.reset s.mem.chans (i / 4 * 34 + 4 * k + i % 4)).unusable)

/-- Pairs that a mask names and that belong to another partition (R456) or cannot be used (R676). -/
def State.pairsTaken (s : State) (mask : Nat) : Nat :=
  ((List.range 8).filter (fun k => bitOf mask k && ((s.partOfDie (2 * k)).isSome || s.pairUnusable k))).foldl (fun m k => m + 2 ^ k) 0

/-- Orphans whose pair set is exactly the given one (R683). -/
def State.orphans (s : State) (pairs : List Nat) : List Store := s.flash.stores.filter (fun t => t.part.isNone && t.pairs == pairs)

/-- A partition as created (R350, R455, R456). -/
def Partition.new (k : Cmd) (conductor : Nat) (crossed : Bool) : Partition :=
  let dr := k.p 4 4
  let qu := k.p 8 4
  { state := .active, pairMask := BitVec.ofNat 8 (k.p 1 1), maxCtx := k.p 2 2, drainUs := if dr = 0 then 10000 else dr,
    quantumUs := if qu = 0 then 2000 else qu, quota := k.quotaAt 0x20, confidential := false,
    sec := { keys := [], tdi := .unlocked, ideStream := none }, span := { routes := [], windows := [], groups := [], digests := [] },
    conductor := conductor, crossed := crossed, served := true, lostHalf := false, current := none, lastCurrent := 0xFFFE, switch := none,
    awaitFirst := false, ctxs := [], lastHandle := none, regions := [], fw := [], ucap := 7, dispatches := [],
    nextDispatch := [], switches := 0, switchMaxUs := 0, lastSwitchUs := 0, teardowns := 0, disableAborts := 0,
    drainedBy := none, destroyedBy := none, drainAborts := 0, clockPlan := 0, planChange := none }

/-- A value is 0 or in a range. -/
def zeroOrIn (v lo hi : Nat) : Bool := v == 0 || decide (lo ≤ v ∧ v ≤ hi)

/-- Step 1 of R456. -/
def partBlockOk (k : Cmd) : Bool :=
  decide (k.p 0 1 < 8) && decide (1 ≤ k.p 2 2 ∧ k.p 2 2 ≤ 16) && zeroOrIn (k.p 4 4) 100 1000000 &&
    zeroOrIn (k.p 8 4) 100 10000000 && (k.pBytes 0xC 20).all (fun b => b == 0)

/-- EQUINOX changes the conductors' firmware (R588). -/
def State.equinox (s : State) : Bool := match s.fw.change with
  | none => false
  | some f => f.kind == 1

/-- OP_PART_CREATE (R453 to R456, R592, R614, R683). -/
def State.partCreate (s : State) (c : CmdRef) (k : Cmd) : State :=
  let p := k.p 0 1
  let mask := k.p 1 1
  let pairs := bitsSet mask 8
  let q := k.quotaAt 0x20
  if s.equinox then s
  else if !partBlockOk k then s.endCmd c (Fin.with stPartInvalid 1)
  else if !pairSetOk mask then s.endCmd c (Fin.with stPartInvalid 2)
  else if (s.part p).isSome then s.endCmd c (Fin.with stPartConflict 1)
  else if s.pairsTaken mask ≠ 0 then s.endCmd c (Fin.with stPartConflict (2 + s.pairsTaken mask * 2 ^ 8))
  else match s.placeConductor p with
    | none => s.endCmd c (Fin.with stPartConflict 3)
    | some (n, crossed) =>
      if q.malformed true then s.endCmd c (quotaFin 4)
      else if !quotaLimit q pairs.length || decide (q.flash < ((s.orphans pairs).map Store.units).sum) then s.endCmd c (quotaFin 0)
      else
        let dies := pairDies mask
        let s1 := s.setPart p (some (Partition.new k n crossed))
        let s2 := s1.updCores (dies.flatMap dieKeys) (fun d => Cu.zeroingDone (Cu.zeroAll d))
        let s3 := dies.foldl (fun t d => t.updDie d (fun y => { y with parked := false })) s2
        let stores : List Store := s3.flash.stores.map (fun t => if t.part.isNone ∧ t.pairs = pairs then { t with part := some p } else t)
        ({ s3 with flash := { s3.flash with stores := stores } }).endCmd c Fin.ok

/-- OP_PART_CREATE. -/
def execOpPartCreate (c : CmdRef) (s : State) : Out := .next (s.gate c 0x0101 false (fun t k _ _ => t.partCreate c k))

/-! ### Disabling and destroying (R457, R470, R472, R475) -/

/-- A partition starts to drain: what has been copied runs on, and its running streams drain (R470, R500). -/
def State.beginDrain (s : State) (p : Nat) : State :=
  let s1 := s.acceptAll (s.partCmds p)
  let s2 := (s1.streamsOf p (fun t => t.state == StreamState.running)).foldl (fun t n => t.updStream n (fun y => y.drain none)) s1
  s2.updPart p (fun x => { x with state := .draining, drainAborts := 0 })

/-- OP_PART_DESTROY (R475). -/
def State.partDestroy (s : State) (c : CmdRef) (p : Nat) : State :=
  match s.part p with
  | none => s
  | some x =>
    if x.destroyedBy.isSome then s.endCmd c (Fin.with stAbortedByDisable 0)
    else
      let s1 := (s.startCmd c).updPart p (fun y => { y with destroyedBy := some c.id })
      if x.state = PartState.active then s1.beginDrain p else s1

/-- OP_PART_DESTROY. -/
def execOpPartDestroy (c : CmdRef) (s : State) : Out := .next (s.gate c 0x0102 false (fun t _ p _ => t.partDestroy c p))

/-- OP_PART_DISABLE (R470, R472). -/
def State.partDisable (s : State) (c : CmdRef) (k : Cmd) (p : Nat) : State :=
  match s.part p with
  | none => s
  | some x =>
    let v := k.p 0 4
    if 2 ≤ v then s.endCmd c (Fin.with stPartInvalid 1)
    else if v = 0 ∧ x.state = PartState.active then
      (((s.startCmd c).beginDrain p).updPart p (fun y => { y with drainedBy := some c.id }))
    else if v = 1 ∧ x.state = PartState.disabled ∧ x.destroyedBy = none then
      (s.updPart p (fun y => { y with state := .active })).endCmd c Fin.ok
    else s.endCmd c (Fin.with stPartConflict 4)

/-- OP_PART_DISABLE. -/
def execOpPartDisable (c : CmdRef) (s : State) : Out := .next (s.gate c 0x0103 false (fun t k p _ => t.partDisable c k p))

/-! ### OP_PART_STAT (R458) -/

/-- Code of a partition's state (R458). -/
def PartState.code : PartState → Nat
  | .active => 0
  | .draining => 1
  | .disabled => 2
  | .destroying => 3

/-- Contexts of a partition. -/
def Partition.ctxList (x : Partition) : List (Nat × Context) := x.ctxs.filterMap (fun e => e.2.map (fun k => (e.1, k)))

/-- The record of R458. -/
def Partition.statRecord (x : Partition) : List Byte :=
  let ready := (x.ctxList.filter (fun e => e.2.state == CtxState.ready)).length
  leBytes 32 (x.lastSwitchUs.toNat + x.disableAborts.toNat * 2 ^ 32 + x.teardowns.toNat * 2 ^ 64 + x.drainUs % 2 ^ 32 * 2 ^ 96 +
    x.switchMaxUs.toNat * 2 ^ 128 + x.switches.toNat * 2 ^ 160 + ready % 2 ^ 16 * 2 ^ 192 + (x.current.getD 0xFFFF) % 2 ^ 16 * 2 ^ 208 +
    x.ctxList.length % 32 * 2 ^ 235 + x.pairMask.toNat * 2 ^ 240 + x.conductor % 16 * 2 ^ 248 +
    (if x.crossed then 2 ^ 252 else 0) + (if x.confidential then 2 ^ 253 else 0) + x.state.code * 2 ^ 254)

/-- OP_PART_STAT (R440, R458). -/
def execOpPartStat (c : CmdRef) (s : State) : Out :=
  .next (s.gate c 0x0104 false (fun t k p _ =>
    if k.p 6 2 ≠ 0 then t.endCmd c k.badBlock
    else match t.part p with
      | none => t
      | some x => t.finishOut c k (k.p 0 6) x.statRecord Fin.ok))

/-! ### Contexts (R459, R464, R474) -/

/-- The next handle of a partition (R459). -/
def Partition.newHandle (x : Partition) : Nat :=
  let start := match x.lastHandle with
    | none => 0
    | some h => h + 1
  (((List.range 17).map (fun i => (start + i) % 0xFFFF)).find? (fun h => (x.ctx h).isNone)).getD 0

/-- Bytes of a context's save area (R464). -/
def Partition.saveBytes (x : Partition) : Nat := saveSlot * x.positions.length

/-- OP_CTX_CREATE (R367, R459, R464). -/
def State.ctxCreate (s : State) (c : CmdRef) (k : Cmd) (p : Nat) : State :=
  match s.part p with
  | none => s
  | some x =>
    let qu := k.p 0 4
    let q := k.quotaAt 0x10
    if !(zeroOrIn qu 100 10000000 && (k.pBytes 4 12).all (fun b => b == 0)) then s.endCmd c (Fin.with stPartInvalid 1)
    else if x.maxCtx ≤ x.ctxList.length then s.endCmd c (quotaFin 0)
    else if q.malformed false then s.endCmd c (quotaFin 4)
    else
      let now := s.partCharges p
      let want : Quota := { dram := now.dram + q.dram + x.saveBytes, kv := 0, flash := now.flash + q.flash, swap := now.swap + q.swap }
      if !x.quota.covers want then s.endCmd c (quotaFin 0)
      else
        let h := x.newHandle
        match s.placeFw p .save h x.saveBytes 0x10000 with
        | none => s.endCmd c (quotaFin 0)
        | some (f, s1) =>
          (s1.updPart p (fun y => { y.setCtx h (some (Context.new (if qu = 0 then y.quantumUs else qu) q f.base)) with
            lastHandle := some h })).endCmd c { Fin.ok with c0 := h }

/-- OP_CTX_CREATE. -/
def execOpCtxCreate (c : CmdRef) (s : State) : Out := .next (s.gate c 0x0105 false (fun t k p _ => t.ctxCreate c k p))

/-- OP_CTX_DESTROY (R470, R474, R500): the context's commands drain, its streams drain, and `settle` releases it. -/
def State.ctxDestroy (s : State) (c : CmdRef) (p h : Nat) : State :=
  let s1 := (s.startCmd c).acceptAll (s.ctxCmds p h)
  let s2 := (s1.streamsOf p (fun t => t.ctx == some h && t.state == StreamState.running)).foldl
    (fun t n => t.updStream n (fun y => y.drain none)) s1
  s2.updCtx p h (fun k => { k with state := .destroying, destroyedBy := some (c.block, c.id) })

/-- OP_CTX_DESTROY. -/
def execOpCtxDestroy (c : CmdRef) (s : State) : Out := .next (s.gate c 0x0106 true (fun t _ p h => t.ctxDestroy c p h))

/-! ### OP_CMD_ABORT (R438) -/

/-- The targets of an abort. -/
def State.abortTargets (s : State) (c : CmdRef) (k : Cmd) : List Cmd :=
  (s.block c.block).cmds.filter (fun j => decide (j.id < k.id) && j.tag == k.p 0 4 && j.opcode != 0x0109 &&
    (k.opf0 || j.ring == k.p 4 4 % 4))

/-- OP_CMD_ABORT (R438): waiting targets complete with no effect, started ones end at their last commit boundary. -/
def State.cmdAbort (s : State) (c : CmdRef) (k : Cmd) : State :=
  let ring := k.p 4 4
  if 4 ≤ ring ∨ (k.opf0 = true ∧ ring ≠ 0) then s.endCmd c k.badBlock
  else
    let ts := s.abortTargets c k
    let mine := ts.filter (fun j => j.phase != CmdPhase.ended)
    let s1 := mine.foldl (fun t j => t.endAtBoundary { block := c.block, id := j.id } stAborted 0) (s.startCmd c)
    s1.updCmd c (fun j => { j with abortTargets := ts.map (fun t => t.id), abortCount := mine.length })

/-- OP_CMD_ABORT. -/
def execOpCmdAbort (c : CmdRef) (s : State) : Out := .next (s.gate c 0x0109 false (fun t k _ _ => t.cmdAbort c k))

/-! ### The steps of a switch (R461 to R466) -/

/-- QUANTUM_EXPIRY (R461): a switch is decided when some context is READY. -/
def execQuantumExpiry (part : Nat) (s : State) : Out :=
  .next (match s.part part with
    | none => s
    | some x => if x.current.isSome then (s.decideSwitch part).settle else s)

/-- A command whose dispatches have all committed has a granule that is not committed yet (R462). -/
def Cmd.commitDue (k : Cmd) : Bool := k.phase == .started && (match k.exec with
  | none => false
  | some e => e.atPoint.isNone && e.todo.all (fun i => decide (k.granules < i.granule)) && (match e.roll with
    | none => true
    | some r => r.open_))

/-- No dispatch of a partition is uncommitted and none is being replayed, and no commit is due (R462). -/
def State.atSwitchPoint (s : State) (p : Nat) (x : Partition) : Bool :=
  x.dispatches.isEmpty && x.positions.all (fun q => !(s.core (s.keyAt x q)).run.frozen) &&
    (s.block (1 + p)).cmds.all (fun k => !k.commitDue)

/-- SWITCH_POINT (R462, R463, R465): the outgoing context is saved, and no context is current until the first dispatch. -/
def execSwitchPoint (part : Nat) (s : State) : Out :=
  .next (match s.part part with
    | none => s
    | some x => match x.switch with
      | none => s
      | some w => match w.outgoing with
        | none => s
        | some o => match x.ctx o with
          | none => s
          | some k =>
            if w.phase ≠ .decided ∨ !s.atSwitchPoint part x then s
            else
              let s1 := s.saveCtx x k
              let mark (y : Partition) (h : Nat) (saved : Bool) : Partition := match y.ctx h with
                | none => y
                | some z => y.setCtx h (some { z with
                    state := if z.destroyedBy.isSome then .destroying else .switching
                    savedValid := z.savedValid || saved })
              s1.updPart part (fun y => { mark (mark y o true) w.incoming false with
                current := none
                awaitFirst := true
                switch := some { w with phase := .saving } }))

/-- SWITCH_SAVE_DONE (R465 step 3): the cores are cleared. -/
def execSwitchSaveDone (part : Nat) (s : State) : Out :=
  .next (match s.part part with
    | none => s
    | some x => match x.switch with
      | none => s
      | some w =>
        if w.phase ≠ .saving then s
        else
          let idle (y : Partition) : Partition := match w.outgoing.bind y.ctx with
            | none => y
            | some z => if z.state = CtxState.switching then y.setCtx (w.outgoing.getD 0) (some { z with state := .idle }) else y
          (((s.clearCores x).updPart part (fun y => { idle y with switch := some { w with phase := .restoring } })).refreshCtx part).settle)

/-- SWITCH_RESTORE_DONE (R115, R177, R242, R465, R478): the incoming context is current. A poisoned image tears it down with
ST_DATA_LOSS. -/
def execSwitchRestoreDone (part : Nat) (us : Nat) (s : State) : Out :=
  .next (match s.part part with
    | none => s
    | some x => match x.switch with
      | none => s
      | some w => match x.ctx w.incoming with
        | none => s
        | some k =>
          if w.phase ≠ .restoring then s
          else
            let t := BitVec.ofNat 32 (min us 0xFFFFFFFF)
            let r := if k.savedValid then s.readImages x k else (none, s)
            let loss := r.1
            let s0 := if loss.isSome then r.2.updCtx part w.incoming (fun y => { y with savedValid := false }) else r.2
            let s1 := (s0.enterCtx part w.incoming).updPart part (fun y => if w.outgoing.isNone then y else { y with
              switches := satInc32 y.switches
              lastSwitchUs := t
              switchMaxUs := if y.switchMaxUs.toNat < t.toNat then t else y.switchMaxUs })
            match loss with
            | none => s1.settle
            | some a => (s1.teardown part (some a) 0).settle)

end Sys2Proof.Machine
end

