-- ==== Sys2Proof/Machine/Firmware.lean ====
section
/-! DEFINITION. Firmware (chapter 18): images and slots (R584, R585), activation, commit and revert (R586, R587), EQUINOX
(R588), die-marshal activation (R589) and Steward activation (R590). Kinds are 0 Steward, 1 conductor, 2 die marshal. -/

namespace Sys2Proof.Machine

/-! ### Images (R584) -/

/-- Fields of an image. -/
def imgVersion (img : List Byte) : Nat := field img 0x08 4
def imgSvn (img : List Byte) : Nat := field img 0x0C 1

/-- SIZE of R584: a multiple of 256 from 64 KiB to 16 MiB. -/
def imgSizeOk (n : Nat) : Bool := decide (n % 256 = 0 ∧ 0x10000 ≤ n ∧ n ≤ 0x1000000)

/-- Step 4 of R585. -/
def imgHeaderOk (img : List Byte) (kind size : Nat) : Bool :=
  field img 0 4 == 0x57464B53 && field img 4 1 % 4 == kind && field img 0x10 4 == size && field img 0x14 1 == 0x09

/-- Step 5 of R585: key hash and signature over the header up to the signature and the body. -/
def imgSigned (img : List Byte) (size : Nat) : Bool :=
  let at_ (o n : Nat) : List Byte := (img.drop o).take n
  (Config.sha384 (at_ 0x40 96) == Config.erkHash) &&
    Config.ecdsaVerify (beNat (at_ 0x40 48)) (beNat (at_ 0x70 48)) (beNat (at_ 0xA0 48)) (beNat (at_ 0xD0 48))
      (Config.sha384 (img.take 0xA0 ++ at_ 0x100 (size - 0x100)))

/-! ### Slots (R584, R587) -/

/-- A kind of firmware. -/
def State.fwKind (s : State) (k : Nat) : FwKindState := SMap.get FwKindState.reset s.fw.kinds k

/-- Change a kind. -/
def State.updFwKind (s : State) (k : Nat) (f : FwKindState → FwKindState) : State :=
  { s with fw := { s.fw with kinds := SMap.set FwKindState.reset s.fw.kinds k (f (s.fwKind k)) } }

/-- The committed image, the other one, and the one that runs. -/
def FwKindState.committedImg (x : FwKindState) : List Byte := if x.committedB then x.slotB else x.slotA
def FwKindState.otherImg (x : FwKindState) : List Byte := if x.committedB then x.slotA else x.slotB
def FwKindState.running (x : FwKindState) : List Byte := if x.phase = .trial then x.otherImg else x.committedImg

/-- Program the slot that is not committed. -/
def FwKindState.program (x : FwKindState) (img : List Byte) : FwKindState :=
  if x.committedB then { x with slotA := img, phase := .staged } else { x with slotB := img, phase := .staged }

/-- Fused security version of a kind (R534, R552). -/
def State.fusedSvn (s : State) (kind : Nat) : Nat :=
  if kind = 0 then s.sec.fuses.svnSteward else if kind = 1 then s.sec.fuses.svnConductor else s.sec.fuses.svnMarshal

/-- Blow security-version bits up to a value (R587). -/
def State.blowSvn (s : State) (kind v : Nat) : State :=
  let f := s.sec.fuses
  { s with sec := { s.sec with fuses :=
      if kind = 0 then { f with svnSteward := max f.svnSteward v }
      else if kind = 1 then { f with svnConductor := max f.svnConductor v }
      else { f with svnMarshal := max f.svnMarshal v } } }

/-- Some kind is in TRIAL. -/
def State.anyTrial (s : State) : Bool := s.fw.kinds.any (fun e => e.2.phase == FwPhase.trial)

/-- Steps 4 to 6 of R585 on a copied image: none, or a status with DETAIL. -/
def State.imgFault (s : State) (img : List Byte) (kind size : Nat) : Option (Nat × Nat) :=
  if !imgHeaderOk img kind size then some (stFwState, 7)
  else if !imgSigned img size then some (stImageAuthFail, 0xFFF)
  else if imgSvn img < s.fusedSvn kind then some (stFwRollback, s.fusedSvn kind % 256 + imgSvn img * 2 ^ 8)
  else none

/-- An image is programmed into the slot that is not committed (step 7 of R585), and logged. -/
def State.stageImage (s : State) (kind : Nat) (img : List Byte) : State := (s.updFwKind kind (fun x => x.program img)).event 0x0901

/-- Signal entry 74 (R572). -/
def State.signalFw (s : State) : State := if s.stw.irqEn then s.sendMsix 0 74 else s

/-! ### OP_FW_STAGE (R585) -/

/-- OP_FW_STAGE: `slotBad` tells that the programmed slot does not read back as written. -/
def State.fwStage (s : State) (c : CmdRef) (k : Cmd) (slotBad : Bool) : State :=
  let size := k.p 8 4
  let kind := k.p 0xC 4
  if k.p 6 2 ≠ 0 ∨ 3 ≤ kind ∨ !imgSizeOk size then s.endCmd c (Fin.with stFwState 7)
  else if s.fw.change.isSome ∨ s.anyTrial ∨ s.mgmt.upd ≠ .idle then s.endCmd c (Fin.with stFwState 3)
  else match s.readEng (k.who c.block) (k.p 0 6) size with
    | .wait => s
    | .bad st d s1 => s1.endCmd c (Fin.with st d)
    | .ok img s1 => match s1.imgFault img kind size with
      | some (st, d) => s1.endCmd c (Fin.with st d)
      | none =>
        if slotBad then s1.endCmd c (Fin.with stFwState 8)
        else (s1.stageImage kind img).endCmd c Fin.ok

/-- OP_FW_STAGE. -/
def execOpFwStage (c : CmdRef) (slotBad : Bool) (s : State) : Out :=
  .next (s.gate c 0x0704 false (fun t k _ _ => t.fwStage c k slotBad))

/-! ### Changes of firmware (R587 to R590) -/

/-- The hub half of a conductor core, HUB-B being true. -/
def coreHalf (n : Nat) : Bool := (halfCores true).contains n

/-- Conductor cores that serve no partition and hold other firmware than a change installs are zeroed and loaded (R588). -/
def State.loadFree (s : State) (newFw : Bool) : State :=
  ((List.range 10).filter (fun n => s.halfOk (coreHalf n) && s.coreFree n && (s.conductor n).newFw != newFw)).foldl
    (fun t n => t.setConductor n { t.conductor n with loading := true }) s

/-- Whether a change has nothing left to do. -/
def State.changeDone (s : State) (f : FwChange) : Bool :=
  if f.kind = 0 then s.stw.running
  else if f.kind = 1 then f.todo.isEmpty && !((List.range 10).any (fun n => (s.conductor n).loading))
  else f.todo.isEmpty

/-- A change begins: TRIAL starts with an activation; conductors load, marshals are listed, or the Steward restarts
(R587 to R590). -/
def State.startChange (s : State) (kind : Nat) (revert byPldm : Bool) (cmd : Option Nat) : State :=
  let s1 := if revert then s
    else s.updFwKind kind (fun x => { x with phase := .trial, byPldm := byPldm, trialAt := s.tb.now })
  let todo := if kind = 1 then (List.range 8).filter (fun p => (s.part p).isSome)
    else if kind = 2 then (List.range 16).filter (fun d => !(s.die d).marshalDead) else []
  let s2 := { s1 with fw := { s1.fw with change := some { kind := kind, revert := revert, todo := todo, cmd := cmd } } }
  if kind = 0 then
    -- The reset starts the slot that R590 names, so a revert has left TRIAL before it.
    let s3 := if revert then s2.updFwKind 0 (fun x => { x with phase := .staged }) else s2
    s3.stewardReset 3
  else if kind = 1 then s2.loadFree (!revert)
  else s2

/-- A change has ended: a revert returns the trial slot to STAGED; the event, entry 74, and the command's record (R572,
R578, R587). -/
def State.endChange (s : State) (f : FwChange) : State :=
  let s1 := s.updFwKind f.kind (fun x => if f.revert then { x with phase := .staged } else { x with trialAt := s.tb.now })
  let s2 := ({ s1 with fw := { s1.fw with change := none } }).event (if f.revert then 0x0904 else 0x0902)
  match f.cmd with
  | none => s2.signalFw
  | some id => (s2.endCmd { block := 0, id := id } Fin.ok).signalFw

/-- The next applied component of a PLDM activation, in the order die marshal, conductor, Steward (R586). -/
def State.nextApplied (s : State) : Option Nat := [2, 1, 0].find? (fun k => s.mgmt.applied.contains k)

/-- Every hub half that carries partitions has a spare conductor core (R587). -/
def State.halvesSpared (s : State) : Bool :=
  (List.range 8).all (fun p => match s.part p with
    | none => true
    | some x => !x.served || !(s.freeCores (coreHalf x.conductor)).isEmpty)

/-- What follows by itself: a finished change ends, and a PLDM activation goes on to its next component. Four rounds take
three components. Conductor firmware that finds no spare core in a half stays STAGED, as under R587. -/
def State.fwAdvance : Nat → State → State
  | 0, s => s
  | n + 1, s =>
    match s.fw.change with
    | some f => if s.changeDone f then (s.endChange f).fwAdvance n else s
    | none =>
      if s.mgmt.upd ≠ .activate then s
      else match s.nextApplied with
        | none => { s with mgmt := { s.mgmt with upd := .idle } }
        | some k =>
          let s1 := { s with mgmt := { s.mgmt with applied := s.mgmt.applied.filter (fun x => x != k) } }
          if k = 1 ∧ !s1.halvesSpared then s1.fwAdvance n else (s1.startChange k false true none).fwAdvance n

/-- Rounds of `fwAdvance`. -/
def fwRounds : Nat := 8

/-- COMMIT (R587): the security version is fused, the trial slot is committed, and the previous slot keeps its image. -/
def State.fwCommit (s : State) (kind : Nat) : State :=
  let v := imgSvn (s.fwKind kind).otherImg
  let s1 := (s.blowSvn kind v).updFwKind kind (fun x => { x with committedB := !x.committedB, phase := .committed, byPldm := false })
  let s2 := if kind = 1 then (List.range 10).foldl (fun t n => t.setConductor n { t.conductor n with newFw := false }) s1
    else if kind = 2 then (List.range 16).foldl (fun t d => t.updDie d (fun y => { y with newFw := false })) s1
    else s1
  (s2.event 0x0903).signalFw

/-- OP_FW_ACTIVATE (R587). A command for a kind whose change still runs waits for it (DEDUCED, notes/assumptions/26.md). -/
def State.fwActivate (s : State) (c : CmdRef) (k : Cmd) : State :=
  let v := k.p 0 4
  let kind := v % 4
  let act := v / 4 % 4
  let x := s.fwKind kind
  let mine := match s.fw.change with
    | none => false
    | some f => f.kind == kind
  if 16 ≤ v ∨ kind = 3 ∨ act = 3 then s.endCmd c (Fin.with stFwState 7)
  else if mine then s
  else if act = 0 then
    if x.phase ≠ .staged then s.endCmd c (Fin.with stFwState 1)
    else if s.anyTrial ∨ s.fw.change.isSome then s.endCmd c (Fin.with stFwState 3)
    else if kind = 1 ∧ !s.halvesSpared then s.endCmd c (Fin.with stFwState 4)
    else ((s.startCmd c).startChange kind false false (some c.id)).fwAdvance fwRounds
  else if x.phase ≠ .trial then s.endCmd c (Fin.with stFwState 2)
  else if act = 1 then (s.fwCommit kind).endCmd c Fin.ok
  else ((s.startCmd c).startChange kind true false (some c.id)).fwAdvance fwRounds

/-- OP_FW_ACTIVATE. -/
def execOpFwActivate (c : CmdRef) (s : State) : Out := .next (s.gate c 0x0705 false (fun t k _ _ => t.fwActivate c k))

/-! ### EQUINOX and die marshals (R588, R589, R592) -/

/-- A change of a kind that is under way. -/
def State.changeOf (s : State) (kind : Nat) : Option FwChange := s.fw.change.filter (fun f => f.kind == kind)

/-- Replace what a change still has to do. -/
def State.setTodo (s : State) (f : FwChange) (todo : List Nat) : State :=
  { s with fw := { s.fw with change := some { f with todo := todo } } }

/-- The end of a firmware event: partitions that no longer exist are skipped, free cores are loaded, and the change goes
on. -/
def State.fwSettle (s : State) : State :=
  let s1 := match s.changeOf 1 with
    | none => s
    | some f => (s.setTodo f (f.todo.filter (fun p => (s.part p).isSome))).loadFree (!f.revert)
  (s1.fwAdvance fwRounds).settle

/-- CONDUCTOR_LOADED (R588): a conductor core holds the firmware it was loaded with: the one the change installs. -/
def execConductorLoaded (core : Nat) (s : State) : Out :=
  .next (
    let x := s.conductor core
    if !x.loading then s
    else
      let fw := match s.changeOf 1 with
        | none => (s.fwKind 1).phase == .trial
        | some f => !f.revert
      (s.setConductor core { x with loading := false, newFw := fw }).fwSettle)

/-- The spare of a half, once it holds the firmware a change installs. -/
def State.readyCore (s : State) (half newFw : Bool) : Option Nat :=
  (s.halfSpare half (fun n => (s.conductor n).loading || s.coreFree n)).filter (fun n => s.coreFree n && (s.conductor n).newFw == newFw)

/-- EQUINOX_HANDOVER (R588, R592): a partition, the lowest of its half that still waits, moves to its half's ready spare;
the old core becomes the spare, and is zeroed and loaded. A partition that is gone or has no conductor is skipped. -/
def execEquinoxHandover (part : Nat) (s : State) : Out :=
  .next (match s.changeOf 1 with
    | none => s
    | some f =>
      if !f.todo.contains part then s
      else match s.part part with
        | none => s.fwSettle
        | some x =>
          if !x.served then (s.setTodo f (f.todo.filter (fun p => p != part))).fwSettle
          else
            let h := coreHalf x.conductor
            let first := f.todo.filter (fun p => match s.part p with
              | none => false
              | some y => y.served && coreHalf y.conductor == h)
            if first.head? ≠ some part then s
            else match s.readyCore h (!f.revert) with
              | none => s
              | some n =>
                let s1 := ((s.updPart part (fun y => { y with conductor := n })).setSpare h x.conductor).setTodo f (f.todo.filter (fun p => p != part))
                s1.fwSettle)

/-- MARSHAL_ACTIVATION (R589): the die whose turn it is resumes on the firmware the change installs. -/
def execMarshalActivation (die : Nat) (s : State) : Out :=
  .next (match s.changeOf 2 with
    | none => s
    | some f =>
      if f.todo.head? ≠ some die then s
      else ((s.updDie die (fun y => { y with newFw := !f.revert })).setTodo f (f.todo.drop 1)).fwSettle)

/-- EQUINOX cannot go on: the command ends with ST_FW_STATE and the kind remains in TRIAL (R592). -/
def State.equinoxAbort (s : State) : State :=
  match s.changeOf 1 with
  | none => s
  | some f =>
    let s1 := { s with fw := { s.fw with change := none } }
    match f.cmd with
    | none => s1
    | some id => (s1.endCmd { block := 0, id := id } (Fin.with stFwState 9)).signalFw

/-! ### Trials (R586, R590) -/

/-- FW_TRIAL_TIMER (R586): a kind activated through PLDM has run 60 s in TRIAL with no fault of its firmware and is
committed. -/
def execFwTrialTimer (kind : Nat) (s : State) : Out :=
  .next (
    let x := s.fwKind kind
    if kind < 3 ∧ x.phase = .trial ∧ x.byPldm = true ∧ s.fw.change = none ∧ s.stw.running = true then s.fwCommit kind else s)

/-- FIRMWARE_FAULT (R586): an exception or watchdog expiry of conductor or die-marshal firmware in a TRIAL that PLDM
started reverts the kind. An activation still under way turns back. -/
def execFirmwareFault (kind : Nat) (s : State) : Out :=
  .next (
    let x := s.fwKind kind
    let back (t : State) : State := ((t.startChange kind true true none).fwAdvance fwRounds).settle
    if (kind = 1 ∨ kind = 2) ∧ x.phase = .trial ∧ x.byPldm = true ∧ s.stw.running = true then
      match s.fw.change with
      | none => back s
      | some f => if f.kind = kind ∧ f.revert = false then back s else s
    else s)

/-- Steward firmware whose TRIAL is not 60 s old is reverted by the reset that follows (R590). -/
def State.trialRevert (s : State) : State :=
  let x := s.fwKind 0
  if x.phase = .trial ∧ s.tb.now < x.trialAt + 60 * 10 ^ 9 then
    ((s.updFwKind 0 (fun y => { y with phase := .staged })).event 0x0904).signalFw
  else s

end Sys2Proof.Machine
end

