-- ==== Sys2Proof/Machine/Security.lean ====
section
/-! DEFINITION. Security and life cycle (chapter 17): authorized commands (R540 to R546), erasure (R544), debug sessions
(R547), plan keys (R549), confidential partitions (R553 to R558), SPDM, IDE and TDISP (R555 to R560), and JTAG (R538, R700). -/

namespace Sys2Proof.Machine

/-! ### Authorization (R540, R541) -/

/-- A bad format of an authorized command (R541, R564). -/
def authFin (reason : Nat) : Fin := Fin.with stAuthRequired reason

/-- Every byte of a piece of the parameter area is zero. -/
def Cmd.zeros (k : Cmd) (off n : Nat) : Bool := (k.pBytes off n).all (fun b => b == 0)

/-- The key hash a signer must match: the Ecfer root's, or an owner slot's that is programmed and not revoked. -/
def State.signerHash (s : State) (signer : Nat) : Option Nat :=
  if signer = 0xF then some (beNat Config.erkHash)
  else if s.sec.fuses.ownerRevoke.getLsbD signer then none
  else SMap.get none s.sec.fuses.owner signer

/-- The checks of R541 on the trailer at an offset: none, or the reason. -/
def State.trailerFault (s : State) (k : Cmd) (off : Nat) (permits : Nat → Bool) : Option Nat :=
  let signer := k.p (off + 8) 8
  let x := k.pBytes (off + 0x10) 48
  let y := k.pBytes (off + 0x40) 48
  let msg := leBytes 2 k.opcode ++ leBytes 8 Config.serial.toNat ++ k.pBytes 0 (off + 0x70)
  if !permits signer then some 7
  else if s.signerHash signer ≠ some (beNat (Config.sha384 (x ++ y))) then some 2
  else if !Config.onP384 (beNat x) (beNat y) then some 4
  else if k.p off 8 ≤ s.sec.lastAuthSeq then some 3
  else if !Config.ecdsaVerify (beNat x) (beNat y) (beNat (k.pBytes (off + 0x70) 48)) (beNat (k.pBytes (off + 0xA0) 48))
      (Config.sha384 msg) then some 1
  else none

/-- Owner slots, and the Ecfer root. -/
def byOwner (signer : Nat) : Bool := decide (signer < 4)
def byEcfer (signer : Nat) : Bool := signer == 0xF

/-- AUTH_SEQ of a trailer is stored before the command takes effect (R541). -/
def State.storeAuthSeq (s : State) (k : Cmd) (off : Nat) : State := { s with sec := { s.sec with lastAuthSeq := k.p off 8 } }

/-! ### OP_LC_ADVANCE and erasure (R542 to R545) -/

/-- A permitted transition: whether an owner signs it (otherwise the Ecfer root), and whether it erases (R542). -/
def lcMove (from_ to_ : Nat) : Option (Bool × Bool) :=
  if from_ = 1 ∧ to_ = 2 then some (false, false)
  else if from_ = 2 ∧ to_ = 3 then some (true, false)
  else if from_ = 3 ∧ to_ = 4 then some (true, true)
  else if (from_ = 1 ∨ from_ = 2) ∧ to_ = 5 then some (false, true)
  else if from_ = 4 ∧ to_ = 5 then some (false, false)
  else if from_ = 3 ∧ to_ = 5 then some (true, true)
  else none

/-- The LC bits of a target and of every lower state. -/
def lcBits (target : Nat) : BitVec 4 := BitVec.ofNat 4 (2 ^ (target - 1) - 1)

/-- Steps 5 and 6 of R544: every DRAM channel is scrubbed, reserves and with them the event ring included, and every core
is zeroed. -/
def State.scrubAll (s : State) : State :=
  let s1 := { s with
    mem := { s.mem with dram := [], poison := [], latent := [] }
    stw := { s.stw with ring := [] } }
  s1.updCores (s1.cores.map (fun e => e.1)) (fun c => Cu.zeroingDone (Cu.zeroAll c))

/-- Steps 2 and 3 of R544: MEDIA_KILL and every revoke bit. -/
def State.killKeys (s : State) : State :=
  { s with sec := { s.sec with fuses := { s.sec.fuses with mediaKill := true, ownerRevoke := 0xF#4 } } }

/-- Steps 2 and 3 of R544 stop at a fuse that does not program: 0 is MEDIA_KILL, 1 + i the revoke bit of slot i. The fuses before it
are blown, and the erasure stays due (R545). -/
def State.stopErase (s : State) (n : Nat) : State :=
  let f := s.sec.fuses
  { s with sec := { s.sec with
    eraseDue := true
    fuses := { f with
      mediaKill := f.mediaKill || decide (0 < n)
      ownerRevoke := f.ownerRevoke ||| BitVec.ofNat 4 (2 ^ (n - 1) - 1) } } }

/-- Whether a fuse of steps 2 and 3 of R544 is still to be blown. -/
def Fuses.lacks (f : Fuses) (n : Nat) : Bool := if n = 0 then !f.mediaKill else decide (n < 5) && !f.ownerRevoke.getLsbD (n - 1)

/-- Step 4 of R544: store records, IDE keys and SPDM sessions. Plan keys are gone with the partitions. -/
def State.dropKeys (s : State) : State :=
  let s1 := s.dropStores (fun _ => true)
  { s1 with sec := { s1.sec with sessions := [], ide := [], spdmVersion := false, spdmCaps := false, spdmAlgs := false } }

/-- Step 8 of R544 begins. -/
def State.startErase (s : State) : State :=
  { s with sec := { s.sec with erasePending := true, eraseDue := false }, flash := { s.flash with erasing := true } }

/-- FLASH_ERASE_DONE (R544): every block is erased, and the Steward logs it. -/
def execFlashEraseDone (s : State) : Out :=
  .next (
    if !s.sec.erasePending then s
    else
      let fresh (ch : FlashChan) : FlashChan := { ch with
        opened := none
        sbs := (List.range sbCount).map (fun n =>
          let b := SMap.get Superblock.fresh ch.sbs n
          (n, { Superblock.fresh with erases := b.erases + 1, retired := b.retired })) }
      let wipe (x : FlashPair) : FlashPair := { x with
        chans := (List.range 4).map (fun c => (c, fresh (SMap.get FlashChan.fresh x.chans c)))
        map := [], jobs := [], journal := [], checkpoint := [] }
      let pairs := (List.range 8).map (fun k => (k, wipe (SMap.get FlashPair.fresh s.flash.pairs k)))
      ({ s with
        sec := { s.sec with erasePending := false }
        flash := { s.flash with erasing := false, pairs := pairs } }).event 0x0802)

/-- Whether other commands of ADMIN, MGMT or DEBUG are under way (R543). A later OP_LC_ADVANCE or OP_KEY_PROVISION that waits as this
one does, after the TRIAL in which both were validated, lets it pass (notes/assumptions/27.md). -/
def State.othersRun (s : State) (c : CmdRef) : Bool :=
  [0, 9, 10].any (fun b => (s.block b).cmds.any (fun k =>
    (k.phase == CmdPhase.waiting || k.phase == CmdPhase.started) && !(c.block == b && c.id == k.id) &&
      !(b == 0 && k.phase == CmdPhase.waiting && decide (c.id < k.id) && (k.opcode == 0x0801 || k.opcode == 0x0802))))

/-- OP_LC_ADVANCE (R542 to R545). `bad` names a fuse that does not program: 0 an LC bit, 1 MEDIA_KILL, 2 + i the revoke bit of slot
i. -/
def State.lcAdvance (s : State) (c : CmdRef) (k : Cmd) (bad : Option Nat) : State :=
  let to_ := k.p 0 1
  if s.othersRun c ∨ s.anyTrial then s
  else if 16 ≤ to_ ∨ !k.zeros 1 15 then s.endCmd c (authFin 7)
  else match lcMove s.lcState to_ with
    | none => s.endCmd c (Fin.with stLcTransition 1)
    | some (owner, erase) =>
      if (erase ∨ to_ = 3) ∧ s.parts.any (fun e => e.2.isSome) then s.endCmd c (Fin.with stLcTransition 2)
      else match s.trailerFault k 0x10 (if owner then byOwner else byEcfer) with
        | some r => s.endCmd c (authFin r)
        | none =>
          let s1 := (s.startCmd c).storeAuthSeq k 0x10
          if bad = some 0 then (s1.event 0x0803).endCmd c (Fin.with stLcTransition 3)
          else
            let s2 := { s1 with sec := { s1.sec with
              fuses := { s1.sec.fuses with lc := s1.sec.fuses.lc ||| lcBits to_ }
              debugSession := none } }
            match (bad.map (fun n => n - 1)).filter (fun n => erase && s2.sec.fuses.lacks n) with
            | some n => (((s2.stopErase n).event 0x0801).event 0x0803).endCmd c (Fin.with stLcTransition 3)
            | none =>
              let s3 := if erase then s2.killKeys.dropKeys else s2
              let s4 := if erase ∨ to_ = 3 then s3.scrubAll else s3
              let s5 := (s4.event 0x0801).endCmd c Fin.ok
              if erase then s5.startErase else s5

/-- OP_LC_ADVANCE. -/
def execOpLcAdvance (c : CmdRef) (bad : Option Nat) (s : State) : Out :=
  .next (s.gate c 0x0801 false (fun t k _ _ => t.lcAdvance c k bad))

/-! ### OP_KEY_PROVISION (R546) -/

/-- Slots programmed and not revoked. -/
def State.liveSlots (s : State) : List Nat := (List.range 4).filter (fun i => s.ownerSet i && !s.sec.fuses.ownerRevoke.getLsbD i)

/-- The slot check of R546. -/
def State.slotOk (s : State) (slot : Nat) (revoke : Bool) : Bool :=
  let set := s.ownerSet slot
  let gone := s.sec.fuses.ownerRevoke.getLsbD slot
  if revoke then set && !gone && s.liveSlots.any (fun i => i != slot) else !set && !gone

/-- OP_KEY_PROVISION (R545, R546). -/
def State.keyProvision (s : State) (c : CmdRef) (k : Cmd) (fuseBad : Bool) : State :=
  let v := k.p 0 1
  let slot := v % 4
  let revoke := bitOf v 2
  let hash := k.pBytes 0x10 48
  let first := !revoke && s.lcState == 2 && !(List.range 4).any s.ownerSet
  if s.othersRun c then s
  else if 8 ≤ v ∨ !k.zeros 1 15 ∨ (revoke && !k.zeros 0x10 48) = true then s.endCmd c (authFin 7)
  else if !s.slotOk slot revoke then s.endCmd c (authFin 6)
  else
    let fault := if first then (if k.zeros 0x40 208 then none else some 7) else s.trailerFault k 0x40 byOwner
    match fault with
    | some r => s.endCmd c (authFin r)
    | none =>
      let s0 := s.startCmd c
      let s1 := if first then s0 else s0.storeAuthSeq k 0x40
      if fuseBad then (s1.event 0x0803).endCmd c (Fin.with stLcTransition 3)
      else
        let f := s1.sec.fuses
        let f1 := if revoke then { f with ownerRevoke := f.ownerRevoke ||| BitVec.ofNat 4 (2 ^ slot) }
          else { f with owner := SMap.set none f.owner slot (some (beNat hash)) }
        ({ s1 with sec := { s1.sec with fuses := f1 } }).endCmd c Fin.ok

/-- OP_KEY_PROVISION. -/
def execOpKeyProvision (c : CmdRef) (fuseBad : Bool) (s : State) : Out :=
  .next (s.gate c 0x0802 false (fun t k _ _ => t.keyProvision c k fuseBad))

/-! ### Debug sessions (R547) -/

/-- A challenge is valid for 60 s. -/
def challengeNs : Nat := 60 * 10 ^ 9

/-- The 64 bytes of a challenge. -/
def DebugChallenge.bytes (d : DebugChallenge) : List Byte :=
  d.nonce ++ leBytes 8 Config.serial.toNat ++ leBytes 1 (d.lcState % 16) ++ leBytes 1 d.level ++ List.replicate 22 0#8

/-- OP_DEBUG_UNLOCK (R547). The nonce is the challenge's random value. A response consumes the challenge; its checks come in
the order challenge, key, signature (DEDUCED, notes/assumptions/27.md). -/
def State.debugUnlock (s : State) (c : CmdRef) (k : Cmd) (nonce : List Byte) : State :=
  let v := k.p 0 1
  let phase := v % 4
  let level := v / 16
  let x := k.pBytes 0x10 48
  let y := k.pBytes 0x40 48
  if v / 4 % 4 ≠ 0 ∨ !k.zeros 1 15 ∨ phase = 3 ∨ (phase ≠ 1 ∧ !k.zeros 0x10 192) ∨ (phase = 0 ∧ (level = 0 ∨ 4 < level)) then
    s.endCmd c (authFin 7)
  else if s.lcState = 1 then s.endCmd c Fin.ok
  else if phase = 0 then
    let d : DebugChallenge :=
      { nonce := (nonce ++ List.replicate 32 0#8).take 32, level := level, lcState := s.lcState, issuedAt := s.tb.now }
    ({ s with sec := { s.sec with challenge := some d } }).endCmd c { Fin.ok with out := d.bytes }
  else if phase = 1 then
    let s1 := { s with sec := { s.sec with challenge := none } }
    match s.sec.challenge with
    | none => s1.endCmd c (authFin 5)
    | some d =>
      if d.issuedAt + challengeNs < s.tb.now then s1.endCmd c (authFin 5)
      else if Config.sha384 (x ++ y) ≠ Config.edkHash then s1.endCmd c (authFin 2)
      else if !Config.ecdsaVerify (beNat x) (beNat y) (beNat (k.pBytes 0x70 48)) (beNat (k.pBytes 0xA0 48)) (Config.sha384 d.bytes) then
        s1.endCmd c (authFin 1)
      else ({ s1 with sec := { s1.sec with debugSession := some (d.level, s.tb.now) } }).endCmd c Fin.ok
  else ({ s with sec := { s.sec with debugSession := none } }).endCmd c Fin.ok

/-- OP_DEBUG_UNLOCK. -/
def execOpDebugUnlock (c : CmdRef) (nonce : List Byte) (s : State) : Out :=
  .next (s.gate c 0x0803 false (fun t k _ _ => t.debugUnlock c k nonce))

/-- DEBUG_SESSION_EXPIRY (R547): 8 h after it opened. -/
def execDebugSessionExpiry (s : State) : Out := .next { s with sec := { s.sec with debugSession := none } }

/-- CHALLENGE_EXPIRY (R547): 60 s after its issue. -/
def execChallengeExpiry (s : State) : Out := .next { s with sec := { s.sec with challenge := none } }

/-! ### OP_CONFIDENTIAL and OP_PLAN_KEY (R549, R553) -/

/-- A partition holds no context, region or store. -/
def State.partEmpty (s : State) (p : Nat) (x : Partition) : Bool :=
  x.ctxList.isEmpty && !x.regions.any (fun e => e.2.isSome) && !s.flash.stores.any (fun t => t.part == some p)

/-- ZERO_ALL on every core of a partition, its firmware regions scrubbed, its interface CONFIG_UNLOCKED (R553, R558). -/
def State.unlockPart (s : State) (p : Nat) (x : Partition) : State :=
  let s1 := s.updCores (x.dies.flatMap dieKeys) (fun c => Cu.zeroingDone (Cu.zeroAll c))
  let s2 := x.fw.foldl (fun t f => t.scrubBacking x f.backing) s1
  s2.updPart p (fun y => { y with sec := { y.sec with tdi := .unlocked } })

/-- OP_CONFIDENTIAL (R553). SR-IOV off ends it like a partition that is not empty (DEDUCED, notes/assumptions/27.md). -/
def State.confCmd (s : State) (c : CmdRef) (k : Cmd) (p : Nat) : State :=
  match s.part p with
  | none => s
  | some x =>
    let v := k.p 0 4
    if 2 ≤ v then s.endCmd c (authFin 7)
    else if !s.host.sriov ∨ !s.partEmpty p x then s.endCmd c (Fin.with stPartConflict 5)
    else if v = 0 then
      if x.tdiLocks then s.endCmd c (Fin.with stPartConflict 6)
      else (s.updPart p (fun y => { y with confidential := false })).endCmd c Fin.ok
    else ((s.unlockPart p x).updPart p (fun y => { y with confidential := true })).endCmd c Fin.ok

/-- OP_CONFIDENTIAL. -/
def execOpConfidential (c : CmdRef) (s : State) : Out := .next (s.gate c 0x0804 false (fun t k p _ => t.confCmd c k p))

/-- OP_PLAN_KEY (R549). -/
def State.planKey (s : State) (c : CmdRef) (k : Cmd) (p : Nat) : State :=
  match s.part p with
  | none => s
  | some x =>
    let v := k.p 0 1
    let slot := v % 4
    let remove := bitOf v 2
    let id := k.p 8 8
    let px := beNat (k.pBytes 0x10 48)
    let py := beNat (k.pBytes 0x40 48)
    let held := SMap.get none x.sec.keys slot
    let other := x.sec.keys.any (fun e => match e.2 with
      | none => false
      | some q => e.1 != slot && q.keyId == id)
    let set (q : Option PlanKey) : State :=
      (s.updPart p (fun y => { y with sec := { y.sec with keys := SMap.set none y.sec.keys slot q } })).endCmd c Fin.ok
    if 8 ≤ v ∨ !k.zeros 1 7 ∨ (remove && !k.zeros 8 104) = true then s.endCmd c (authFin 7)
    else if !remove && !Config.onP384 px py then s.endCmd c (authFin 4)
    else if (if remove then held.isNone else held.isSome || other) then s.endCmd c (authFin 6)
    else if x.tdiLocks then s.refuseLocked c p
    else if remove then set none
    else set (some { keyId := id, x := px, y := py })

/-- OP_PLAN_KEY. -/
def execOpPlanKey (c : CmdRef) (s : State) : Out := .next (s.gate c 0x0805 false (fun t k p _ => t.planKey c k p))

/-! ### SPDM (R559, R560) -/

/-- The responder answers over DOE on PF0: the Steward runs and the host port is up. -/
def State.spdmServes (s : State) : Bool := s.stw.running && s.host.linkUp

/-- An SPDM or TDISP error response (PRESUMED, notes/assumptions/28.md). -/
def errReply : List Byte := [0x7F#8]

/-- A response when a condition holds, an error otherwise; silence while the responder does not serve. -/
def State.respond (s : State) (ok : Bool) (yes : State → State) : State :=
  if !s.spdmServes then s else if ok then yes s else s.answer errReply

/-- The digest of the firmware the Steward runs, which the alias key follows (R537). -/
def State.stwDigest (s : State) : List Byte := Config.sha384 (s.fwKind 0).running

/-- The certificate chain of slot 0. -/
def State.chain (s : State) : List Byte := Config.certChain s.stwDigest

/-- SPDM_GET_VERSION (R559): versions 1.2 and 1.3. -/
def execSpdmGetVersion (s : State) : Out :=
  .next (s.respond true (fun t =>
    ({ t with sec := { t.sec with spdmVersion := true, spdmCaps := false, spdmAlgs := false } }).answer [0x12#8, 0x13#8]))

/-- SPDM_GET_CAPABILITIES (R559). -/
def execSpdmGetCapabilities (version : Nat) (s : State) : Out :=
  .next (s.respond (s.sec.spdmVersion && (version == 0x12 || version == 0x13)) (fun t =>
    ({ t with sec := { t.sec with spdmCaps := true } }).answer [BitVec.ofNat 8 version]))

/-- NEGOTIATE_ALGORITHMS (R559): ECDSA P-384, SHA-384, secp384r1 and AES-256-GCM, when the requester offers them. -/
def execNegotiateAlgorithms (offersAll : Bool) (s : State) : Out :=
  .next (s.respond (s.sec.spdmCaps && offersAll) (fun t => ({ t with sec := { t.sec with spdmAlgs := true } }).answer []))

/-- GET_DIGESTS (R559). -/
def execGetDigests (s : State) : Out := .next (s.respond s.sec.spdmAlgs (fun t => t.answer (Config.sha384 t.chain)))

/-- GET_CERTIFICATE (R559): slot 0 only. -/
def execGetCertificate (slot : Nat) (off : Nat) (len : Nat) (s : State) : Out :=
  .next (s.respond (s.sec.spdmAlgs && slot == 0) (fun t => t.answer ((t.chain.drop off).take len)))

/-- CHALLENGE (R559): the alias key signs. -/
def execChallenge (slot : Nat) (nonce : List Byte) (s : State) : Out :=
  .next (s.respond (s.sec.spdmAlgs && slot == 0) (fun t => t.answer (Config.aliasSign t.stwDigest nonce)))

/-- The image measured for a kind: the trial's only when every conductor core or marshal runs it (R590). -/
def State.measuredImg (s : State) (kind : Nat) : List Byte :=
  let x := s.fwKind kind
  let all_ := if kind = 1 then (List.range 10).all (fun n => !(s.conductor n).inService || (s.conductor n).newFw)
    else if kind = 2 then (List.range 16).all (fun d => (s.die d).marshalDead || (s.die d).newFw) else true
  let back := match s.changeOf kind with
    | none => false
    | some f => f.revert
  if x.phase = .trial ∧ (all_ || back) = true then x.otherImg else x.committedImg

/-- Code of an interface's state (TDISP; PRESUMED, notes/assumptions/28.md). -/
def TdiState.code : TdiState → Nat
  | .unlocked => 0
  | .locked => 1
  | .run => 2
  | .error => 3

/-- Raw content of the measurements that return it (R560); its order is the model's (notes/assumptions/28.md). -/
def State.measureRaw (s : State) (i : Nat) : Option (List Byte) :=
  if i = 5 then
    some (leBytes 4 s.lcFuses ++ leBytes 4 engRev ++ leBytes 1 (s.fusedSvn 0) ++ leBytes 1 (s.fusedSvn 1) ++ leBytes 1 (s.fusedSvn 2))
  else if i = 6 then
    some (leBytes 1 (bitAt s.host.sriov 0) ++
      (List.range 9).map (fun n =>
        let x := SMap.get IdeStream.reset s.sec.ide n
        BitVec.ofNat 8 (bitAt x.keyed0 0 + bitAt x.keyed1 1 + bitAt x.active.isSome 2)) ++
      leBytes 1 (maskOf 8 s.confidential))
  else if 0x10 ≤ i ∧ i < 0x18 then
    (s.part (i - 0x10)).map (fun x =>
      leBytes 1 x.pairMask.toNat ++ leBytes 1 (bitAt x.confidential 0) ++ leBytes 1 x.sec.tdi.code ++
        (List.range 4).flatMap (fun j => match SMap.get none x.sec.keys j with
          | none => List.replicate 104 0#8
          | some q => leBytes 8 q.keyId ++ leBytes 48 q.x ++ leBytes 48 q.y))
  else none

/-- A measurement (R560): its digest, then the raw content where it is returned. -/
def State.measurement (s : State) (i : Nat) : Option (List Byte) :=
  if i = 1 then some Config.romDigest
  else if i = 2 then some (Config.sha384 (s.measuredImg 0))
  else if i = 3 then some (Config.sha384 (s.measuredImg 1))
  else if i = 4 then some (Config.sha384 (s.measuredImg 2))
  else (s.measureRaw i).map (fun r => Config.sha384 r ++ r)

/-- GET_MEASUREMENTS (R559, R560). -/
def execGetMeasurements (index : Nat) (s : State) : Out :=
  .next (s.respond (s.sec.spdmAlgs && (s.measurement index).isSome) (fun t => t.answer ((t.measurement index).getD [])))

/-- Replace the sessions. -/
def State.setSessions (s : State) (l : List SpdmSession) : State := { s with sec := { s.sec with sessions := l } }

/-- A session of a phase. -/
def State.session (s : State) (id : Nat) (ph : SessPhase) : Bool := s.sec.sessions.any (fun x => x.id == id && x.phase == ph)

/-- KEY_EXCHANGE (R559): up to four sessions, slot 0. -/
def execKeyExchange (slot : Nat) (s : State) : Out :=
  .next (s.respond (s.sec.spdmAlgs && slot == 0 && decide (s.sec.sessions.length < 4)) (fun t =>
    let id := t.sec.nextSession
    let t1 := t.setSessions (t.sec.sessions ++ [{ id := id, phase := .handshake, epoch := 0 }])
    ({ t1 with sec := { t1.sec with nextSession := id + 1 } }).answer (leBytes 4 id)))

/-- FINISH (R559): a handshake that verifies is a secured session; another one ends. -/
def execFinish (session : Nat) (verified : Bool) (s : State) : Out :=
  .next (s.respond (s.session session .handshake) (fun t =>
    if verified then
      (t.setSessions (t.sec.sessions.map (fun x => if x.id = session then { x with phase := .secured } else x))).answer (leBytes 4 session)
    else (t.setSessions (t.sec.sessions.filter (fun x => x.id != session))).answer errReply))

/-- HEARTBEAT (R559). -/
def execHeartbeat (session : Nat) (s : State) : Out :=
  .next (s.respond (s.session session .secured) (fun t => t.answer (leBytes 4 session)))

/-- KEY_UPDATE (R559): the session's keys are replaced. -/
def execKeyUpdate (session : Nat) (s : State) : Out :=
  .next (s.respond (s.session session .secured) (fun t =>
    (t.setSessions (t.sec.sessions.map (fun x => if x.id = session then { x with epoch := x.epoch + 1 } else x))).answer (leBytes 4 session)))

/-- END_SESSION (R559). -/
def execEndSession (session : Nat) (s : State) : Out :=
  .next (s.respond (s.session session .secured) (fun t =>
    (t.setSessions (t.sec.sessions.filter (fun x => x.id != session))).answer (leBytes 4 session)))

/-! ### IDE (R555, R557) -/

/-- An IDE stream. -/
def State.ideStream (s : State) (n : Nat) : IdeStream := SMap.get IdeStream.reset s.sec.ide n

/-- Replace an IDE stream. -/
def State.setIde (s : State) (n : Nat) (x : IdeStream) : State :=
  { s with sec := { s.sec with ide := SMap.set IdeStream.reset s.sec.ide n x } }

/-- IDE_KM_KEY_PROG (R555): stream 0 is the link stream, 1 to 8 are selective; set 0 or 1. -/
def execIdeKmKeyProg (session : Nat) (stream : Nat) (set : Nat) (s : State) : Out :=
  .next (s.respond (s.session session .secured && decide (stream ≤ 8 ∧ set ≤ 1)) (fun t =>
    let x := t.ideStream stream
    (t.setIde stream (if set = 0 then { x with keyed0 := true } else { x with keyed1 := true })).answer []))

/-- K_SET_GO (R555): the stream uses a key set that is programmed. -/
def execKSetGo (session : Nat) (stream : Nat) (set : Nat) (s : State) : Out :=
  .next (
    let x := s.ideStream stream
    let keyed := if set = 0 then x.keyed0 else set == 1 && x.keyed1
    s.respond (s.session session .secured && decide (stream ≤ 8) && keyed) (fun t =>
      (t.setIde stream { x with active := some set }).answer []))

/-- A stream leaves the secure state: its keys go, and the interfaces bound to it enter ERROR (R537, R557). -/
def State.streamDown (s : State) (n : Nat) : State :=
  (List.range 8).foldl (fun t p => match t.part p with
    | none => t
    | some x => if x.confidential && x.sec.ideStream == some n && x.sec.tdi != TdiState.unlocked then t.tdiError p none else t)
    (s.setIde n IdeStream.reset)

/-- Every IDE stream leaves the secure state (R537, R563). -/
def State.dropIde (s : State) : State := ((List.range 9).foldl (fun t n => t.streamDown n) s).settle

/-- IDE_INTEGRITY_FAILURE (R557). -/
def execIdeIntegrityFailure (stream : Nat) (s : State) : Out :=
  .next (if stream ≤ 8 ∧ (s.ideStream stream).active.isSome = true then (s.streamDown stream).settle else s)

/-! ### TDISP (R556 to R558) -/

/-- A request about a partition's interface inside a secured session. -/
def State.tdisp (s : State) (session part : Nat) (ok : Partition → Bool) (yes : State → Partition → State) : State :=
  match s.part part with
  | none => s.respond false id
  | some x => s.respond (s.session session .secured && x.confidential && ok x) (fun t => yes t x)

/-- TDISP_GET_VERSION (R556): version 1.0 (PRESUMED, notes/assumptions/28.md). -/
def execTdispGetVersion (session : Nat) (s : State) : Out :=
  .next (s.respond (s.session session .secured) (fun t => t.answer [0x10#8]))

/-- TDISP_GET_CAPABILITIES (R556). -/
def execTdispGetCapabilities (session : Nat) (s : State) : Out :=
  .next (s.respond (s.session session .secured) (fun t => t.answer []))

/-- Set a partition's interface. -/
def State.setTdi (s : State) (p : Nat) (t : TdiState) (stream : Option Nat) : State :=
  s.updPart p (fun y => { y with sec := { y.sec with tdi := t, ideStream := stream } })

/-- LOCK_INTERFACE_REQUEST (R555 to R557): an unlocked interface of a confidential partition is bound to a selective stream
that is secure. -/
def execLockInterfaceRequest (session : Nat) (part : Nat) (stream : Nat) (s : State) : Out :=
  .next (s.tdisp session part (fun x => x.sec.tdi == TdiState.unlocked && decide (1 ≤ stream ∧ stream ≤ 8) && s.ideSecure stream)
    (fun t _ => (t.setTdi part .locked (some stream)).answer []))

/-- The interface report (R557): queue block and MSI-X ranges of the VF, and measurement 0x10 + p. -/
def State.tdiReport (s : State) (p : Nat) : List Byte :=
  leBytes 4 0x0000 ++ leBytes 4 0x1000 ++ leBytes 4 0x1000 ++ leBytes 4 0x1000 ++ leBytes 4 0x2000 ++ leBytes 4 0x1000 ++
    (s.measurement (0x10 + p)).getD []

/-- GET_DEVICE_INTERFACE_REPORT (R556, R557). -/
def execGetDeviceInterfaceReport (session : Nat) (part : Nat) (s : State) : Out :=
  .next (s.tdisp session part (fun x => x.sec.tdi == TdiState.locked || x.sec.tdi == TdiState.run)
    (fun t _ => t.answer (t.tdiReport part)))

/-- GET_DEVICE_INTERFACE_STATE (R556). -/
def execGetDeviceInterfaceState (session : Nat) (part : Nat) (s : State) : Out :=
  .next (s.tdisp session part (fun _ => true) (fun t x => t.answer (leBytes 1 x.sec.tdi.code)))

/-- START_INTERFACE_REQUEST (R556, R557). -/
def execStartInterfaceRequest (session : Nat) (part : Nat) (s : State) : Out :=
  .next (s.tdisp session part (fun x => x.sec.tdi == TdiState.locked)
    (fun t x => (t.setTdi part .run x.sec.ideStream).answer []))

/-- Destroy every context, region and store of a partition (R558 step 2). -/
def State.emptyPart (s : State) (p : Nat) : State :=
  match s.part p with
  | none => s
  | some x =>
    let s1 := (x.ctxs.map (fun e => e.1)).foldl (fun t c => t.releaseCtx p c) s
    let s2 := s1.dropStores (fun t => t.part == some p)
    match s2.part p with
    | none => s2
    | some y =>
      let s3 := (y.regions.filterMap (fun e => e.2)).foldl (fun t r => t.scrubBacking y r.backing) s2
      s3.updPart p (fun z => { z with regions := [], fw := [], current := none, switch := none, dispatches := [] })

/-- STOP_INTERFACE_REQUEST (R558): accepted in every state. -/
def execStopInterfaceRequest (session : Nat) (part : Nat) (s : State) : Out :=
  .next (s.tdisp session part (fun _ => true) (fun t x =>
    let t1 := ((t.endTenant part none).emptyPart part).unlockPart part x
    ((t1.setTdi part .unlocked none).answer []).settle))

/-! ### JTAG (R538, R700) -/

/-- Code of an instruction in the model's TAP. -/
def jtagCode : JtagIr → Nat
  | .bypass => 0
  | .idcode => 1
  | .samplePreload => 2
  | .extest => 3
  | .clamp => 4
  | .highz => 5

/-- Whether the life-cycle state grants an instruction (R538). -/
def State.jtagGrants (s : State) (ir : JtagIr) : Bool :=
  match ir with
  | .bypass | .idcode => true
  | .samplePreload | .extest | .clamp | .highz =>
    let lc := s.lcState
    lc == 1 || lc == 4 || ((lc == 2 || lc == 3) && !s.parts.any (fun e => e.2.isSome))

/-- JTAG_INSTRUCTION (R538, R700): a refused boundary-scan instruction acts as BYPASS; IDCODE returns the identity. -/
def execJtagInstruction (ir : JtagIr) (s : State) : Out :=
  .next (
    if !s.start.auxGood then s
    else
      let n := if s.jtagGrants ir then jtagCode ir else 0
      let s1 := { s with mgmt := { s.mgmt with jtagIr := n } }
      if n = 1 then s1.answer (leBytes 4 0x25A097C7) else s1)

/-- JTAG_TRST (R700): the TAP is reset and selects IDCODE (notes/assumptions/27.md). -/
def execJtagTrst (s : State) : Out := .next { s with mgmt := { s.mgmt with jtagIr := 1 } }

end Sys2Proof.Machine
end

