-- ==== Sys2Proof/Machine/Faults.lean ====
section
/-! DEFINITION. Faults and their recovery (chapter 21): recovery of a core fault (R642 to R654), self-tests (R651), channels
that do not answer (R655), coalescing (R657 to R659), visible faults and short dies (R660 to R662), conductors and die
marshals (R663, R664), links (R373), and the loss of a hub half (R20). -/

namespace Sys2Proof.Machine

/-! ### Columns and their cores (R129, R651, R662) -/

/-- Rows of a column whose core does not work: retired, or under self-test. -/
def State.badRows (s : State) (d c : Nat) : List Nat :=
  (List.range 17).filter (fun r => (s.die d).retired.contains (c, r) || (s.die d).testing.contains (c, r))

/-- The gap core of a column is retired: the column has no working spare. -/
def State.spareGone (s : State) (d c : Nat) : Bool := (s.die d).retired.contains (c, s.gap d c)

/-- A die is short when a column has no working core for some logical row, or its marshal is lost (R662, R664). -/
def State.noteShort (s : State) (d : Nat) : State :=
  let short := (List.range 8).any (fun c => decide (1 < (s.badRows d c).length)) || (s.die d).marshalDead
  s.updDie d (fun x => { x with short := short })

/-- NB_CTRL bits [10:8] of a core under the map (R129, R147): PASS_THROUGH for a mapped-out core, E_SEL and W_SEL where the
neighbour's core lies one row below. -/
def State.selBits (s : State) (d c f : Nat) : Nat :=
  let h := s.gap d c
  match logRow h f with
  | none => if f < 16 then 4 else 0
  | some r =>
    let below (n : Nat) : Bool := physRow (s.gap d n) r == f + 1
    (if c < 7 ∧ below (c + 1) = true then 1 else 0) + (if 0 < c ∧ below (c - 1) = true then 2 else 0)

/-- The die marshal writes NB_CTRL of a column and of both its neighbours (R129, R645 step 3). -/
def State.writeSel (s : State) (d c : Nat) : State :=
  ((List.range 8).filter (fun n => decide (n ≤ c + 1 ∧ c ≤ n + 1))).foldl (fun t n =>
    (List.range 17).foldl (fun u f => u.updCore ((d * 8 + n) * 32 + f) (fun g => { g with
      regs := { g.regs with nbCtrl := (g.regs.nbCtrl &&& 0xFF#11) ||| BitVec.ofNat 11 (s.selBits d n f * 256) } })) t) s

/-- An event about a core (R578). -/
def State.coreEvent (s : State) (code d c f : Nat) : State :=
  s.record { EventRec.plain code with unit := coreUnit d c f, part := (s.partOfDie d).getD 0xF }

/-! ### Moving a position (R645, R646) -/

/-- The dispatch a core runs and that has not committed: its END report has not arrived (R643). -/
def State.openDispatch (s : State) (k : Nat) : Option DispatchRec :=
  match s.dispatchOf k with
  | none => none
  | some (_, _, d) => if d.ended then none else some d

/-- What a failed run leaves to its replay (R646, R177): outward descriptors counted, posts delivered, and barrier
generations passed; a generation at which the core still holds is not passed (DEDUCED, notes/assumptions/29.md). -/
def replayOf (c : Core) (mapped : Option Nat) : ReplayRec :=
  { active := true
    dmaDone := c.run.dmaDone ++ c.run.replay.dmaDone
    evtDone := max c.run.nEvt c.run.replay.evtDone
    bars := (List.range 8).map (fun g =>
      max (SMap.get 0 c.run.barCount g - (if c.seq.atBar = some g then 1 else 0)) (c.run.replay.bars.getD g 0))
    wdog := c.run.replay.wdog
    mapped := if c.run.replay.mapped.isSome then c.run.replay.mapped else mapped }

/-- The lines and rows that step 4 of R645 copies: written, and for a running dispatch not self-written. A position with no
running dispatch has nothing to rebuild and keeps every written line (DEDUCED, notes/assumptions/29.md). -/
def movedMem (c : Core) (running : Bool) : CoreMem :=
  let line (l : Nat) : Bool := Cu.lineWritten c l && !(running && SMap.get false c.mem.spadSelf l)
  let row (r : Nat) : Bool := Cu.rowWritten c r && !(running && SMap.get false c.mem.accSelf r)
  { c.mem with
    spad := c.mem.spad.filter (fun e => line (e.1 / 256))
    spadWritten := c.mem.spadWritten.filter (fun e => line e.1)
    spadSelf := []
    acc := c.mem.acc.filter (fun e => row (e.1 / 64))
    accWritten := c.mem.accWritten.filter (fun e => row e.1)
    accSelf := []
    stateFile := []
    stateLoaded := []
    gb := []
    tables := []
    micros := [] }

/-- A position's new core (R645 steps 4 and 5): memory as copied, settings and counters of the position, counts of the
physical core; a discarded dispatch starts again under the rules of R646. -/
def movedCore (old dest : Core) (d : Option DispatchRec) (mapped : Option Nat) : Core :=
  let base := Cu.emptyArray dest
  let c : Core := {
    seq := old.seq
    mem := movedMem old d.isSome
    regs := { dest.regs with
      bankPwr := old.regs.bankPwr, bankPwrNext := none, banks := old.regs.banks, zeroing := false,
      nbCtrl := old.regs.nbCtrl }
    arr := { base.arr with mode := .gated, flights := [], idleHold := old.arr.idleHold }
    dma0 := dest.dma0.dropWork
    dma1 := dest.dma1.dropWork
    ports := []
    run := { old.run with frozen := false, hit := false } }
  match d with
  | none => c
  | some r =>
    let args := (r.args.zipIdx).foldl (fun m a => SMap.set 0#32 m (a.2 + 1) a.1) []
    let c1 := { c with
      seq := { SeqRegs.reset with arv := old.seq.arv, snt := old.run.sntAtGo, wdog := old.seq.wdog, args := args }
      run := { c.run with barCount := old.run.barAtGo, replay := replayOf old mapped } }
    Cu.go c1 r.entryPc

/-- The inbound queues of a core drain into its SPAD (R645 step 2). -/
def drainPort (c : Core) (port : Nat) : Core :=
  let bs := (c.port port).inbound
  (bs.zipIdx).foldl (fun g e => takeBeat g port e.1 (bs.drop (e.2 + 1)) e.1.data) c

/-- Step 2 of R645 for a moved position: its own queues, and those in which its exchanges stand. -/
def State.drainAround (s : State) (k : Nat) : State :=
  let s1 := s.updCore k (fun c => (List.range 4).foldl drainPort c)
  (List.range 4).foldl (fun t p => match t.neighbour k p with
    | none => t
    | some r => t.updCore r (fun c => drainPort c (facing p))) s1

/-- What a core's dispatch has issued on the spans; what the collective engine has folded, and what the conductor sends, belong to
no dispatch. -/
def SpanOp.ofCore (o : SpanOp) (k : Nat) : Bool :=
  o.core == k && o.cmd.isNone && !(o.op == 9 && bitsOf o.arg 14 4 == bitsOf o.arg 30 15)

/-- A discarded dispatch's span operations are dropped with the responses to them (R645 step 1), and its command counts one
recovery (R649). -/
def State.discarded (s : State) (k : Nat) (d : Option DispatchRec) : State :=
  match d with
  | none => s
  | some r =>
    let s1 := { s with span := { s.span with ops := s.span.ops.filter (fun o => !o.ofCore k) } }
    s1.noteRecovery r.ref (fun v => { v with core := true })

/-- Replay a core's dispatch where it is (R652, R653). -/
def State.replayHere (s : State) (k : Nat) : State :=
  let d := s.openDispatch k
  let s1 := (s.drainAround k).discarded k d
  s1.updCore k (fun c => movedCore c c d none)

/-- Physical rows of the moved positions: from the fault to the gap, the gap left out. -/
def movedRows (f h : Nat) : List Nat :=
  if f < h then (List.range (h - f)).map (fun i => f + i) else (List.range (f - h)).map (fun i => h + 1 + i)

/-- Steps 1 to 5 of R645: the gap becomes f, every moved position goes one row toward the old gap, and discarded dispatches
start again. The core at f is reset before its self-test (R686). -/
def State.relocate (s : State) (d c f : Nat) (wdog : Bool) : State :=
  let h := s.gap d c
  let key (r : Nat) : Nat := (d * 8 + c) * 32 + r
  let rows := movedRows f h
  let to_ (r : Nat) : Nat := if f < h then r + 1 else r - 1
  let s0 := rows.foldl (fun t r => t.drainAround (key r)) s
  let ds := rows.map (fun r => (r, s0.openDispatch (key r)))
  let mapped := if wdog then some (key f) else none
  let s1 := ds.foldl (fun t e => t.setCore (key (to_ e.1)) (movedCore (s0.core (key e.1)) (s0.core (key (to_ e.1))) e.2 (if e.1 = f then mapped else none))) s0
  let s2 := (s1.updDie d (fun x => { x with gaps := x.gaps.set c f })).setCore (key f) (Cu.coreReset (s0.core (key f)))
  let s3 := ds.foldl (fun t e => t.discarded (key e.1) e.2) s2
  s3.writeSel d c

/-- Receivers of a parity error of the core at a key (R653): found before the map changes, and replayed in place after it. -/
def State.hitBy (s : State) (k : Nat) : List Nat :=
  (List.range 4).filterMap (fun p => match s.neighbour k p with
    | none => none
    | some r => if (s.core r).run.hit then some r else none)

/-! ### Recovery of one core fault (R645, R649, R651 to R654) -/

/-- 30 days of operation, in ns. -/
def monthNs : Nat := 30 * dayNs

/-- The core at f, mapped out, goes to its self-test, or is retired when it was mapped out within the last 30 days (R651). -/
def State.mapOut (s : State) (d c f : Nat) : State :=
  let again := (s.die d).mapped.any (fun m => m.1 == c && m.2.1 == f && decide (s.tb.now ≤ m.2.2 + monthNs))
  let s1 := s.updDie d (fun x => { x with
    mapped := x.mapped ++ [(c, f, s.tb.now)]
    retired := if again then x.retired ++ [(c, f)] else x.retired
    testing := if again then x.testing else x.testing ++ [(c, f)] })
  if again then (s1.coreEvent 0x0206 d c f).coreEvent 0x0204 d c f else s1

/-- One recovery is counted (R665). -/
def State.countRecovery (s : State) : State := { s with hub := { s.hub with recoveries := satInc16 s.hub.recoveries } }

/-- Recover one core fault. The flag tells that the fault is visible (R662): the column has no working spare, or the replay
source is unreadable. Without a spare the core is tested where it is (DEDUCED, notes/assumptions/29.md). -/
def State.recoverCore (s : State) (d : Nat) (sourceBad : Bool) (e : Nat × Nat) : State × Bool :=
  let c := e.1
  let f := e.2
  let k := (d * 8 + c) * 32 + f
  if !s.gapWorks d c then (s.updDie d (fun x => { x with testing := x.testing ++ [(c, f)] }), true)
  else
    let hits := s.hitBy k
    let wdog := (s.core k).run.replay.wdog
    let s1 := (s.relocate d c f wdog).mapOut d c f
    let s2 := hits.foldl (fun t r => if (t.core r).run.hit then t.replayHere r else t) s1
    if sourceBad then (s2.coreEvent 0x0202 d c f, true)
    else ((s2.countRecovery.coreEvent 0x0201 d c f).coreEvent 0x0202 d c f, false)

/-- A fault became visible on a die (R662): the partition's current context is torn down. -/
def State.visible (s : State) (d : Nat) : State :=
  let s1 := s.noteShort d
  match s1.partOfDie d with
  | none => s1
  | some p => s1.teardown p none (if (s1.die d).short then 2 ^ 33 else 0)

/-- Cores under test on a die are reset (R686); the map's paths through them stay (R129). -/
def State.resetTested (s : State) (d : Nat) : State :=
  (s.die d).testing.foldl (fun t q => (t.updCore ((d * 8 + q.1) * 32 + q.2) Cu.coreReset).writeSel d q.1) s

/-- A core of the map that was reset in place receives the settings of its partition's current context again (R13, R242). -/
def State.setupTested (s : State) (d c f : Nat) : State :=
  match s.partOfDie d, logRow (s.gap d c) f with
  | some p, some r => match s.part p with
    | none => s
    | some x =>
      let pos := (x.dies.idxOf d, c, r)
      let place (g : Core) : Core := match x.current.bind x.ctx with
        | none => g
        | some k => match k.plan with
          | none => { g with run := { g.run with confidential := x.confidential } }
          | some pl => setFast (placeCore pl.image x.confidential pos g) (if x.planChange.isSome then 0 else (s.dieClk d).fastBits c)
      s.updCore ((d * 8 + c) * 32 + f) place
  | _, _ => s

/-- Reporter bits of a die's columns (R657). -/
def reporterBits (d : Nat) (cols : List Nat) : Nat := maskOf 8 (fun c => cols.contains c) * 2 ^ (8 * d)

/-- Four or more faults of one die within 1 µs: one fault of a shared cause, replayed on the same cores (R652). -/
def State.sharedCause (s : State) (d : Nat) (faults : List (Nat × Nat)) : State :=
  let s1 := faults.foldl (fun t e => t.replayHere ((d * 8 + e.1) * 32 + e.2)) s
  let s2 := (s1.updDie d (fun x => { x with lastShared := some s.tb.now })).countRecovery
  s2.record { EventRec.plain 0x0201 with
    unit := d * 2 ^ 28, detail := 2 ^ 61, count := faults.length, reporters := reporterBits d (faults.map (fun e => e.1)),
    part := (s.partOfDie d).getD 0xF }

/-- CORE_FAULT_RECOVERY (R645 to R654, R656, R661, R662): the die marshal handles the faults of a die in order of detection.
Every core named has stopped; `sourceBad` tells that a line to be copied is unreadable. -/
def execCoreFaultRecovery (die : Nat) (faults : List (Nat × Nat)) (sourceBad : Bool) (s : State) : Out :=
  .next (
    let key (e : Nat × Nat) : Nat := (die * 8 + e.1) * 32 + e.2
    let ok (e : Nat × Nat) : Bool := decide (e.1 < 8 ∧ e.2 < 17) && (s.core (key e)).run.frozen && (logRow (s.gap die e.1) e.2).isSome
    if 16 ≤ die ∨ (s.die die).marshalDead ∨ faults.isEmpty ∨ !faults.all ok ∨ !decide faults.Nodup then s
    else
      let quiet := match (s.die die).lastShared with
        | none => true
        | some t => decide (t + secondNs < s.tb.now)
      if 4 ≤ faults.length ∧ quiet = true then (s.sharedCause die faults).settle
      else
        let r := faults.foldl (fun (a : State × Bool) e =>
          -- A fault on a position that an earlier recovery of this list has moved finds its column without a spare.
          let b := a.1.recoverCore die sourceBad e
          (b.1, a.2 || b.2)) (s, false)
        let s1 := if r.2 then r.1.visible die else r.1
        ((s1.resetTested die).noteShort die).noteStatus.settle)

/-! ### Self-tests (R651) -/

/-- The gap of a column moves onto a core that does not work when the gap core does (R651, R662). -/
def State.regap (s : State) (d c : Nat) : State :=
  let h := s.gap d c
  match (s.badRows d c).filter (fun r => r != h) with
  | f :: _ => if s.gapWorks d c then s.relocate d c f false else s
  | [] => s

/-- SELF_TEST_DONE (R651, R662): the core is its column's spare again, or retired; one that was tested in place serves its logical
row again. -/
def execSelfTestDone (core : CorePos) (pass : Bool) (s : State) : Out :=
  .next (
    let d := core.die
    let c := core.col
    let q := (c, core.row)
    if !posOk core ∨ !(s.die d).testing.contains q then s
    else
      let s1 := s.updDie d (fun x => { x with
        testing := x.testing.filter (fun r => r != q)
        retired := if pass then x.retired else x.retired ++ [q] })
      let s2 := ((s1.coreEvent (if pass then 0x0205 else 0x0206) d c core.row).setupTested d c core.row).regap d c
      let s3 := if s2.spareGone d c && !s.spareGone d c then s2.coreEvent 0x0204 d c (s2.gap d c) else s2
      (s3.noteShort d).noteStatus)

/-- GAP_TEST_TIMER (R651): every 24 h of operation the gap core of each column of the die is tested. -/
def execGapTestTimer (die : Nat) (s : State) : Out :=
  .next (
    if 16 ≤ die ∨ !s.start.railsUp ∨ (s.die die).marshalDead then s
    else
      let qs := ((List.range 8).filter (fun c => s.gapWorks die c)).map (fun c => (c, s.gap die c))
      ((s.updDie die (fun x => { x with testing := x.testing ++ qs })).resetTested die))

/-! ### Coalescing (R657 to R659) -/

/-- The event of a report. -/
def Report.event (r : Report) (count reporters : Nat) : EventRec :=
  { EventRec.plain r.code with
    sev := r.sev % 5, unit := r.unit, part := r.part % 16, detail := r.detail, count := count, reporters := reporters }

/-- The Steward's recovery action for a suspected unit: a DRAM channel that does not answer is reset (R655). -/
def State.startAction (s : State) (e : EventRec) : State :=
  if e.code = 0x0305 then s.startChanReset (e.unit / 2 ^ 28) (e.unit / 2 ^ 22 % 64) else s

/-- A message of a suspected unit reaches the Steward (R659). -/
def State.stewardReport (s : State) (e : EventRec) : State :=
  let same (q : StwCoal) : Bool := q.first.code == e.code && q.first.unit == e.unit
  let bump (q : StwCoal) : StwCoal := { q with count := q.count + e.count, reporters := q.reporters ||| e.reporters }
  if s.stw.coal.any same then
    { s with stw := { s.stw with coal := s.stw.coal.map (fun q => if same q then bump q else q) } }
  else if s.stw.coal.length < 64 then
    let q : StwCoal := { first := e, count := e.count, reporters := e.reporters }
    ({ s with stw := { s.stw with coal := s.stw.coal ++ [q] } }).startAction e
  else (s.record { e with count := 1, detail := e.detail ||| 2 ^ 62 }).startAction e

/-- A report passes the die marshal of its reporter (R657, R658); one from another station goes to the Steward at once. -/
def State.report (s : State) (r : Report) : State :=
  match r.reporter with
  | none => s.stewardReport (Report.event r 1 0)
  | some (d, c) =>
    let bits := reporterBits d [c]
    let same (q : CoalEntry) : Bool := q.code == r.code && q.unit == r.unit
    let bump (q : CoalEntry) : CoalEntry := { q with count := q.count + 1, reporters := q.reporters ||| bits }
    if 16 ≤ d ∨ 8 ≤ c then s
    else if (s.die d).coal.any same then
      s.updDie d (fun x => { x with coal := x.coal.map (fun q => if same q then bump q else q) })
    else
      let e : CoalEntry :=
        { code := r.code, unit := r.unit, count := 0, reporters := 0, sev := r.sev % 5, part := r.part % 16, detail := r.detail }
      let s1 := if (s.die d).coal.length < 16 then s.updDie d (fun x => { x with coal := x.coal ++ [e] }) else s
      s1.stewardReport (Report.event r 1 bits)

/-- FAULT_REPORT (R657 to R659). -/
def execFaultReport (r : Report) (s : State) : Out := .next (s.report r)

/-- MARSHAL_COALESCE_CLOSE (R658): the entry closes with one summary, unless it counted no further report. -/
def execMarshalCoalesceClose (die : Nat) (code : Nat) (unit : Nat) (s : State) : Out :=
  .next (
    match (s.die die).coal.find? (fun q => q.code == code && q.unit == unit) with
    | none => s
    | some q =>
      let s1 := s.updDie die (fun x => { x with coal := x.coal.filter (fun z => z != q) })
      if q.count = 0 then s1
      else s1.stewardReport { EventRec.plain q.code with
        sev := q.sev, unit := q.unit, part := q.part, detail := q.detail, count := q.count, reporters := q.reporters })

/-- STEWARD_COALESCE_CLOSE (R659): one event with COUNT and REPORTERS as gathered. -/
def execStewardCoalesceClose (code : Nat) (unit : Nat) (s : State) : Out :=
  .next (
    match s.stw.coal.find? (fun q => q.first.code == code && q.first.unit == unit) with
    | none => s
    | some q =>
      if !s.stw.running then s
      else
        ({ s with stw := { s.stw with coal := s.stw.coal.filter (fun z => z != q) } }).record
          { q.first with count := q.count, reporters := q.reporters })

/-! ### DRAM channels that do not answer (R655) -/

/-- DMA_DEADLINE_EXPIRY (R655): the request is issued once more; at its second expiry it is held and the channel reported. -/
def execDmaDeadlineExpiry (core : CorePos) (eng : Nat) (stack : Nat) (chan : Nat) (s : State) : Out :=
  .next (if 2 ≤ eng ∨ 6 ≤ stack ∨ 32 ≤ chan then s
    else s.onCore core (fun k =>
      let e := (s.core k).dma eng
      if e.queue.isEmpty ∨ e.held.isSome then s
      else if e.expiries = 0 then s.updCore k (fun c => c.updDma eng (fun d => { d with expiries := 1 }))
      else
        let s1 := s.updCore k (fun c => c.updDma eng (fun d => { d with expiries := 2, held := some (chanKey stack chan) }))
        let s2 := s1.setChan stack chan { s1.chan stack chan with answers := false }
        let r : Report :=
          { code := 0x0305, unit := chanUnit stack chan, reporter := some (core.die, core.col), sev := 2,
            part := (s.partOfDie core.die).getD 0xF, detail := 0 }
        s2.report r))

/-- CHANNEL_RESET_DONE (R655): the reset is logged. A channel that answers issues its held requests again; after two resets
that do not restore it, it is spared. -/
def execChannelResetDone (stack : Nat) (chan : Nat) (answers : Bool) (s : State) : Out :=
  .next (
    let c := s.chan stack chan
    if !c.resetting ∨ !s.stw.running then s
    else
      let s1 := s.record { EventRec.plain 0x0306 with unit := chanUnit stack chan }
      if answers then
        (s1.setChan stack chan { c with resetting := false, answers := true, resets := 0 }).releaseHeld (chanKey stack chan)
      else if 1 ≤ c.resets then (s1.setChan stack chan { c with resetting := false, resets := c.resets + 1 }).startSparing stack chan
      else s1.setChan stack chan { c with resetting := true, resets := c.resets + 1 })

/-! ### Links (R373, R664) -/

/-- LINK_RETRY_EXCESS (R373, R664): a bridge link is retired and logged; a mesh link goes on at half bandwidth. Bridge links are
numbered 2 n + 1 and mesh links 2 n in the die's record. -/
def execLinkRetryExcess (die : Nat) (link : Nat) (bridge : Bool) (s : State) : Out :=
  .next (
    let n := 2 * link + if bridge then 1 else 0
    if 16 ≤ die ∨ (s.die die).linksOut.contains n then s
    else
      let s1 := s.updDie die (fun x => { x with linksOut := x.linksOut ++ [n] })
      if bridge then s1.event 0x0501 else s1)

/-! ### Die marshals and conductors (R663, R664) -/

/-- Mark the started commands of a partition that a recovery concerns. -/
def State.noteCmds (s : State) (p : Nat) (f : Recov → Recov) : State :=
  ((s.partCmds p).filter (fun r => s.cmdStarted r)).foldl (fun t r => t.noteRecovery r f) s

/-- MARSHAL_RESTART (R664): a lockstep mismatch restarts the marshal; the third within 24 h tests it, and a processor that
fails is retired. A failing test of a marshal in single mode stands for the loss of both processors. -/
def execMarshalRestart (die : Nat) (testPass : Bool) (s : State) : Out :=
  .next (
    let x := s.die die
    if 16 ≤ die ∨ x.marshalDead then s
    else if x.single then
      if testPass then s else (s.updDie die (fun y => { y with marshalDead := true })).noteShort die
    else
      let recent := s.tb.now :: x.mismatches.filter (fun t => decide (s.tb.now ≤ t + dayNs))
      let s1 := s.updDie die (fun y => { y with
        mismatches := recent, single := decide (3 ≤ recent.length) && !testPass })
      match s1.partOfDie die with
      | none => s1
      | some p =>
        let runs (d : DispatchRec) : Bool := match s1.part p with
          | none => false
          | some y => y.dies.getD d.pos.1 16 == die
        let cs : List CmdRef := match s1.part p with
          | none => []
          | some y => ((y.dispatches.filter runs).map DispatchRec.ref).dedup
        cs.foldl (fun t c => t.noteRecovery c (fun v => { v with marshal := true })) s1)

/-- Whether a conductor core can take over: in service, with no partition; during EQUINOX one that is being loaded counts
(R592). -/
def State.canTake (s : State) (n : Nat) : Bool :=
  s.coreFree n || (s.equinox && (s.conductor n).inService && (s.conductor n).loading)

/-- A conductor core takes over a partition; a core under load takes it with the firmware that the change installs. -/
def State.takeOver (s : State) (p n : Nat) : State :=
  let x := s.conductor n
  let fw := match s.changeOf 1 with
    | none => x.newFw
    | some f => if x.loading then !f.revert else x.newFw
  let s1 := (s.setConductor n { x with loading := false, newFw := fw }).updPart p (fun y => { y with
    conductor := n, crossed := coreHalf n != homeHalf p, served := true })
  match s1.changeOf 1 with
  | none => s1
  | some f => if fw == !f.revert then s1.setTodo f (f.todo.filter (fun q => q != p)) else s1

/-- EQUINOX ends when a half with partitions still to be handed over has no spare core left (R592). -/
def State.equinoxCheck (s : State) : State :=
  match s.changeOf 1 with
  | none => s
  | some f =>
    let stuck := f.todo.any (fun p => match s.part p with
      | none => false
      | some x => x.served && !((halfCores (coreHalf x.conductor)).any s.canTake))
    if stuck then s.equinoxAbort else s

/-- CONDUCTOR_TAKEOVER (R592, R663): the spare of the half takes over, else the other half's; without one the current context
is torn down and the partition waits for a free core. The failed core is tested, and is its half's spare if it passes. -/
def execConductorTakeover (core : Nat) (testPass : Bool) (s : State) : Out :=
  .next (
    if 10 ≤ core ∨ !(s.conductor core).inService ∨ !s.halfOk (coreHalf core) then s
    else
      let h := coreHalf core
      let back (t : State) : State := t.setConductor core { t.conductor core with inService := testPass, loading := false }
      let serving := (List.range 8).find? (fun p => match s.part p with
        | none => false
        | some x => x.served && x.conductor == core)
      match serving with
      | none => (back s).equinoxCheck.settle
      | some p =>
        let spare := (s.halfSpare h s.canTake).orElse (fun _ => if s.halfOk (!h) then s.halfSpare (!h) s.canTake else none)
        let kept (t : State) : State := if testPass then t.setSpare h core else t
        match spare with
        | some n => ((kept (back ((s.noteCmds p (fun v => { v with conductor := true })).takeOver p n))).equinoxCheck).settle
        | none => (kept (back ((s.updPart p (fun y => { y with served := false })).teardown p none 0))).equinoxCheck.settle)

/-! ### Hub halves (R20, R566, R592, R563) -/

/-- HUB_HALF_LOSS (R20, R490, R500, R566, R592): B is true. Conductors cross over, the host port goes to x8, capture streams of the
half's port fault, the Steward runs on one processor, IDE streams leave the secure state, and EQUINOX ends. -/
def execHubHalfLoss (half : Bool) (s : State) : Out :=
  .next (
    if !s.halfOk half then s
    else
      let s1 := { s with
        hub := if half then { s.hub with bOk := false } else { s.hub with aOk := false }
        host := { s.host with linkWidth := if s.host.linkUp then 3 else s.host.linkWidth } }
      let port := if half then 1 else 0
      let s2 := ((List.range 16).map (fun v => 16 * port + v)).foldl (fun t n => if (t.stream n).live then t.faultStream n else t) s1
      let lost := (List.range 8).filter (fun p => match s2.part p with
        | none => false
        | some x => x.served && coreHalf x.conductor == half)
      let s3 := lost.foldl (fun t p => t.updPart p (fun y => { y with served := false })) s2
      let s4 := lost.foldl (fun t p => t.updPart p (fun y => { y with lostHalf := !y.served })) s3.equinoxAbort.serveWaiting
      let s5 := lost.foldl (fun t p => match t.part p with
        | none => t
        | some x => if x.served then t.noteCmds p (fun v => { v with conductor := true }) else t.teardown p none 0) s4
      (s5.dropIde.event 0x0A01).noteStatus.settle)

/-- HUB_HALF_RESTORED (R20, R578): partitions without a conductor are served again. -/
def execHubHalfRestored (half : Bool) (s : State) : Out :=
  .next (
    if s.halfOk half ∨ !s.start.railsUp then s
    else
      let s1 := { s with hub := if half then { s.hub with bOk := true } else { s.hub with aOk := true } }
      (s1.event 0x0A02).settle)

end Sys2Proof.Machine
end

