-- ==== Sys2Proof/Machine/Jpeg.lean ====
section
/-! DEFINITION. The JPEG decoders (R516, R519, R520, R522): the marker walk, the least data a claimed size needs, Huffman
decoding of sequential and progressive scans (ISO/IEC 10918-1), and reconstruction. Readings: notes/assumptions/22.md. -/

namespace Sys2Proof.Machine.Jpeg

/-- A refusal: status, reason or scan number, and byte offset or least byte count (R533). -/
structure Err where
  status : Nat
  sub : Nat
  at_ : Nat
  deriving DecidableEq, Repr

/-- ST_DECODE_UNSUPPORTED, ST_DECODE_CORRUPT and ST_DIMS_EXCEED_DATA (R451). -/
def unsupported (reason at_ : Nat) : Err := { status := 0x0501, sub := reason, at_ := at_ }
def corrupt (reason at_ : Nat) : Err := { status := 0x0502, sub := reason, at_ := at_ }
def dims (scan least : Nat) : Err := { status := 0x0500, sub := scan, at_ := least }

/-- Reasons of R533. -/
def rParam : Nat := 0x01
def rFormat : Nat := 0x02
def rLimit : Nat := 0x03
def rDst : Nat := 0x04
def rComponents : Nat := 0x05
def rMarker : Nat := 0x10
def rHuffman : Nat := 0x11
def rRestart : Nat := 0x12
def rCoeff : Nat := 0x13
def rTruncated : Nat := 0x14

/-- A Huffman table: how many codes of each length 1 to 16, and their values. -/
structure Huff where
  counts : List Nat
  vals : List Nat
  deriving DecidableEq, Repr

/-- The shortest code length of a table; 0 for a table with no code. -/
def Huff.shortest (t : Huff) : Nat := match t.counts.findIdx? (fun n => decide (0 < n)) with
  | some i => i + 1
  | none => 0

/-- One component of the frame header. -/
structure Comp where
  id : Nat
  h : Nat
  v : Nat
  tq : Nat
  deriving DecidableEq, Repr

/-- The frame: SOF number 0 to 2, precision, size, components. -/
structure Frame where
  sof : Nat
  p : Nat
  height : Nat
  width : Nat
  comps : List Comp
  deriving DecidableEq, Repr

/-- Entropy-coded bytes between markers, each with its offset, and the RST number that ends them. -/
structure Seg where
  bytes : List (Nat × Byte)
  rst : Option Nat
  deriving DecidableEq, Repr

/-- A component of a scan: its index in the frame and the tables in force. -/
structure ScanComp where
  idx : Nat
  dc : Huff
  ac : Huff
  deriving DecidableEq, Repr

/-- One scan. -/
structure Scan where
  comps : List ScanComp
  ss : Nat
  se : Nat
  ah : Nat
  al : Nat
  ri : Nat
  segs : List Seg
  finish : Nat
  deriving DecidableEq, Repr

/-- What the marker walk has gathered. -/
structure Walk where
  frame : Option Frame
  dc : SMap (Option Huff)
  ac : SMap (Option Huff)
  q : SMap (Option (List Nat))
  /-- Offset of the first 16-bit quantization table. -/
  q16 : Option Nat
  ri : Nat
  /-- Quantization table of each component, latched at its first scan. -/
  latched : SMap (Option (List Nat))
  scans : List Scan
  deriving DecidableEq, Repr

/-- Nothing gathered. -/
def Walk.empty : Walk := { frame := none, dc := [], ac := [], q := [], q16 := none, ri := 0, latched := [], scans := [] }

/-- Largest sampling factors. -/
def Frame.hMax (f : Frame) : Nat := (f.comps.map Comp.h).foldl max 1
def Frame.vMax (f : Frame) : Nat := (f.comps.map Comp.v).foldl max 1

/-- Division rounded up. -/
def ceilDiv (a b : Nat) : Nat := (a + b - 1) / b

/-- A component's size in samples. -/
def Frame.compW (f : Frame) (c : Comp) : Nat := ceilDiv (f.width * c.h) f.hMax
def Frame.compH (f : Frame) (c : Comp) : Nat := ceilDiv (f.height * c.v) f.vMax

/-- A component's size in blocks. -/
def Frame.blocksW (f : Frame) (c : Comp) : Nat := ceilDiv (f.compW c) 8
def Frame.blocksH (f : Frame) (c : Comp) : Nat := ceilDiv (f.compH c) 8

/-- MCUs of an interleaved scan, across and down. -/
def Frame.mcusW (f : Frame) : Nat := ceilDiv f.width (8 * f.hMax)
def Frame.mcusH (f : Frame) : Nat := ceilDiv f.height (8 * f.vMax)

/-- A component of the frame. -/
def Frame.comp (f : Frame) (i : Nat) : Comp := f.comps.getD i { id := 0, h := 1, v := 1, tq := 0 }

/-! ### The marker walk (R519) -/

/-- A byte of the copy. -/
def at8 (d : Array Byte) (o : Nat) : Nat := (d.getD o 0).toNat

/-- A big-endian 16-bit value. -/
def at16 (d : Array Byte) (o : Nat) : Nat := at8 d o * 256 + at8 d (o + 1)

/-- The entropy-coded segments of a scan from an offset, and the offset of the marker that ends it; none where the copy ends
first. A stuffed zero is dropped; fill bytes belong to the marker. -/
def entropy (d : Array Byte) : Nat → Nat → List (Nat × Byte) → List Seg → Option (List Seg × Nat)
  | 0, _, _, _ => none
  | n + 1, o, cur, segs =>
    if d.size ≤ o then none
    else
      let b := d.getD o 0
      if b ≠ 0xFF#8 then entropy d n (o + 1) ((o, b) :: cur) segs
      else if d.size ≤ o + 1 then none
      else
        let m := at8 d (o + 1)
        if m = 0 then entropy d n (o + 2) ((o, b) :: cur) segs
        else if m = 0xFF then entropy d n (o + 1) cur segs
        else if 0xD0 ≤ m ∧ m ≤ 0xD7 then entropy d n (o + 2) [] (segs ++ [{ bytes := cur.reverse, rst := some (m - 0xD0) }])
        else some (segs ++ [{ bytes := cur.reverse, rst := none }], o)

/-- Quantization tables of a DQT segment's body [o, e). -/
def dqt (d : Array Byte) (at_ e : Nat) : Nat → Nat → Walk → Except Err Walk
  | 0, _, w => .ok w
  | n + 1, o, w =>
    if e ≤ o then .ok w
    else
      let pq := at8 d o / 16
      let tq := at8 d o % 16
      if 2 ≤ pq ∨ 4 ≤ tq then .error (unsupported rFormat at_)
      else
        let len := 64 * (pq + 1)
        if e < o + 1 + len then .error (corrupt rMarker at_)
        else
          let t := (List.range 64).map (fun i => if pq = 0 then at8 d (o + 1 + i) else at16 d (o + 1 + 2 * i))
          dqt d at_ e n (o + 1 + len) { w with
            q := SMap.set none w.q tq (some t)
            q16 := if pq = 1 then w.q16.orElse (fun _ => some at_) else w.q16 }

/-- Huffman tables of a DHT segment's body [o, e). -/
def dht (d : Array Byte) (at_ e : Nat) : Nat → Nat → Walk → Except Err Walk
  | 0, _, w => .ok w
  | n + 1, o, w =>
    if e ≤ o then .ok w
    else
      let tc := at8 d o / 16
      let th := at8 d o % 16
      if 2 ≤ tc ∨ 4 ≤ th then .error (unsupported rFormat at_)
      else
        let counts := (List.range 16).map (fun i => at8 d (o + 1 + i))
        let k := counts.sum
        if e < o + 17 + k then .error (corrupt rMarker at_)
        else
          let t : Huff := { counts := counts, vals := (List.range k).map (fun i => at8 d (o + 17 + i)) }
          let w1 := if tc = 0 then { w with dc := SMap.set none w.dc th (some t) } else { w with ac := SMap.set none w.ac th (some t) }
          dht d at_ e n (o + 17 + k) w1

/-- A frame header (R516). -/
def sofSeg (d : Array Byte) (at_ o e sof : Nat) (w : Walk) : Except Err Walk :=
  let p := at8 d o
  let y := at16 d (o + 1)
  let x := at16 d (o + 3)
  let nf := at8 d (o + 5)
  if e < o + 6 then .error (corrupt rMarker at_)
  else if w.frame.isSome ∨ !(p == 8 || (p == 12 && sof != 0)) ∨ y = 0 then .error (unsupported rFormat at_)
  else if nf = 0 ∨ 5 ≤ nf then .error (unsupported rComponents at_)
  else if e ≠ o + 6 + 3 * nf then .error (corrupt rMarker at_)
  else
    let cs := (List.range nf).map (fun i =>
      let b := o + 6 + 3 * i
      ({ id := at8 d b, h := at8 d (b + 1) / 16, v := at8 d (b + 1) % 16, tq := at8 d (b + 2) } : Comp))
    let okF (k : Nat) : Bool := k == 1 || k == 2 || k == 4
    if cs.any (fun c => !(okF c.h && okF c.v)) then .error (unsupported rComponents at_)
    else if x = 0 ∨ 16384 < x ∨ 16384 < y ∨ 67108864 < x * y then .error (unsupported rLimit at_)
    else if cs.any (fun c => decide (4 ≤ c.tq)) then .error (unsupported rFormat at_)
    else .ok { w with frame := some { sof := sof, p := p, height := y, width := x, comps := cs } }

/-- Spectral and approximation parameters that the process admits. -/
def scanOk (f : Frame) (n ss se ah al : Nat) : Bool :=
  if f.sof < 2 then ss == 0 && se == 63 && ah == 0 && al == 0
  else decide (al ≤ 13) && (ah == 0 || ah == al + 1) &&
    (if ss = 0 then se == 0 else n == 1 && decide (ss ≤ se ∧ se ≤ 63))

/-- Tables a scan uses: DC and AC (R519). -/
def usesDc (f : Frame) (ss ah : Nat) : Bool := decide (f.sof < 2) || (ss == 0 && ah == 0)
def usesAc (f : Frame) (ss : Nat) : Bool := decide (f.sof < 2) || ss != 0

/-- A scan header and its entropy-coded data. -/
def sosSeg (d : Array Byte) (at_ o e : Nat) (w : Walk) : Except Err (Walk × Nat) :=
  let n := at8 d o
  match w.frame with
  | none => .error (corrupt rMarker at_)
  | some f =>
    if e < o + 1 ∨ n = 0 ∨ 5 ≤ n ∨ e ≠ o + 4 + 2 * n then .error (corrupt rMarker at_)
    else
      let ss := at8 d (o + 1 + 2 * n)
      let se := at8 d (o + 2 + 2 * n)
      let ah := at8 d (o + 3 + 2 * n) / 16
      let al := at8 d (o + 3 + 2 * n) % 16
      if !scanOk f n ss se ah al then .error (unsupported rFormat at_)
      else
        let none_ : Huff := { counts := [], vals := [] }
        let comps : List (Option ScanComp) := (List.range n).map (fun i =>
          let id := at8 d (o + 1 + 2 * i)
          let t := at8 d (o + 2 + 2 * i)
          match f.comps.findIdx? (fun c => c.id == id) with
          | none => none
          | some j =>
            let dc := if usesDc f ss ah then SMap.get none w.dc (t / 16) else some none_
            let ac := if usesAc f ss then SMap.get none w.ac (t % 16) else some none_
            let q := (SMap.get none w.latched j).orElse (fun _ => SMap.get none w.q (f.comp j).tq)
            match dc, ac, q with
            | some x, some y, some _ => some { idx := j, dc := x, ac := y }
            | _, _, _ => none)
        if comps.any Option.isNone then .error (corrupt rMarker at_)
        else match entropy d (d.size + 1) e [] [] with
          | none => .error (corrupt rMarker d.size)
          | some (segs, z) =>
            let cs := comps.filterMap id
            let lat := cs.foldl (fun m c => if (SMap.get none m c.idx).isSome then m
              else SMap.set none m c.idx (SMap.get none w.q (f.comp c.idx).tq)) w.latched
            .ok ({ w with
              latched := lat
              scans := w.scans ++ [{ comps := cs, ss := ss, se := se, ah := ah, al := al, ri := w.ri, segs := segs, finish := z }] }, z)

/-- The end of the walk: a frame is there, 16-bit tables only with P = 12, and every component of a sequential frame
appears in a scan. -/
def finishWalk (w : Walk) (at_ : Nat) : Except Err Walk :=
  match w.frame with
  | none => .error (corrupt rMarker at_)
  | some f =>
    match (if f.p = 8 then w.q16 else none) with
    | some q => .error (unsupported rFormat q)
    | none =>
      let seen (i : Nat) : Bool := w.scans.any (fun s => s.comps.any (fun c => c.idx == i))
      if f.sof < 2 ∧ !(List.range f.comps.length).all seen then .error (corrupt rMarker at_) else .ok w

/-- Walk the markers from an offset to EOI. -/
def walkFrom (d : Array Byte) : Nat → Nat → Walk → Except Err Walk
  | 0, o, _ => .error (corrupt rMarker o)
  | n + 1, o, w =>
    if d.size < o + 2 then .error (corrupt rMarker o)
    else if d.getD o 0 ≠ 0xFF#8 then .error (corrupt rMarker o)
    else
      let m := at8 d (o + 1)
      if m = 0xFF then walkFrom d n (o + 1) w
      else if m = 0xD9 then finishWalk w o
      else if m ≠ 0xC0 ∧ m ≠ 0xC1 ∧ m ≠ 0xC2 ∧ m ≠ 0xC4 ∧ m ≠ 0xDB ∧ m ≠ 0xDD ∧ m ≠ 0xDA ∧ m ≠ 0xFE ∧ !(0xE0 ≤ m ∧ m ≤ 0xEF) then
        .error (unsupported rFormat o)
      else
        let len := at16 d (o + 2)
        let b := o + 4
        let e := o + 2 + len
        if d.size < o + 4 ∨ len < 2 ∨ d.size < e then .error (corrupt rMarker o)
        else if m = 0xDA then
          match sosSeg d o b e w with
          | .error x => .error x
          | .ok (w1, z) => walkFrom d n z w1
        else
          let r : Except Err Walk :=
            if m = 0xDB then dqt d o e len b w
            else if m = 0xC4 then dht d o e len b w
            else if m = 0xDD then (if len = 4 then .ok { w with ri := at16 d b } else .error (corrupt rMarker o))
            else if m = 0xC0 ∨ m = 0xC1 ∨ m = 0xC2 then sofSeg d o b e (m - 0xC0) w
            else .ok w
          match r with
          | .error x => .error x
          | .ok w1 => walkFrom d n e w1

/-- The walk of a staged copy. -/
def walk (d : Array Byte) : Except Err Walk :=
  if at8 d 0 = 0xFF ∧ at8 d 1 = 0xD8 ∧ 2 ≤ d.size then walkFrom d (d.size + 1) 2 Walk.empty
  else .error (unsupported rFormat 0)

/-! ### Claimed size against data (R520) -/

/-- Scan bytes of a scan (R519). -/
def Scan.bytes (s : Scan) : Nat := (s.segs.map (fun g => g.bytes.length)).sum

/-- Data units of each component in a scan. -/
def Scan.units (f : Frame) (s : Scan) : List (ScanComp × Nat) :=
  s.comps.map (fun c =>
    let k := f.comp c.idx
    (c, if 1 < s.comps.length then f.mcusW * f.mcusH * (k.h * k.v) else f.blocksW k * f.blocksH k))

/-- The lower bound of a scan, in bits. -/
def Scan.bound (f : Frame) (s : Scan) : Nat :=
  let us := s.units f
  if f.sof < 2 then (us.map (fun u => u.2 * (u.1.dc.shortest + u.1.ac.shortest))).sum
  else if s.ss = 0 then
    if s.ah = 0 then (us.map (fun u => u.2 * u.1.dc.shortest)).sum else (us.map Prod.snd).sum
  else (us.map (fun u => ceilDiv u.2 32767 * u.1.ac.shortest)).sum

/-- The first scan with too little data. -/
def tooLittle (f : Frame) (w : Walk) : Option Err :=
  (w.scans.zipIdx).findSome? (fun e =>
    let least := ceilDiv (e.1.bound f) 8
    if e.1.bytes < least then some (dims (e.2 % 256) least) else none)

/-- Bytes of progressive coefficient buffers (R518 step 10). -/
def coeffBytes (f : Frame) : Nat :=
  if f.sof = 2 then 128 * (f.comps.map (fun c => f.blocksW c * f.blocksH c)).sum else 0

/-! ### Huffman decoding -/

/-- State of the decoder of a scan. -/
structure Dec where
  cur : Array (Nat × Byte)
  curRst : Option Nat
  bit : Nat
  rest : List Seg
  finish : Nat
  preds : List Int
  eobrun : Nat
  /-- Coefficients of every component, 64 per block in zigzag order. -/
  coefs : List (Array Int)

/-- Decoding steps. -/
abbrev JD := StateT Dec (Except Err)

/-- Byte offset of the decoder. -/
def Dec.at_ (s : Dec) : Nat := (s.cur.getD (s.bit / 8) (s.finish, 0#8)).1

/-- A decoding fault here. -/
def fault {α : Type} (reason : Nat) : JD α := fun s => .error (corrupt reason s.at_)

/-- The next bit. Data that ends before its last unit is TRUNCATED; a marker RSTm where none is due is out of sequence. -/
def bit : JD Nat := fun s =>
  if s.bit / 8 < s.cur.size then
    .ok (((s.cur.getD (s.bit / 8) (0, 0#8)).2.toNat / 2 ^ (7 - s.bit % 8)) % 2, { s with bit := s.bit + 1 })
  else .error (corrupt (if s.curRst.isSome then rRestart else rTruncated) s.at_)

/-- n bits, most significant first. -/
def bits : Nat → Nat → JD Nat
  | 0, v => pure v
  | n + 1, v => do
    let b ← bit
    bits n (2 * v + b)

/-- Decode with the counts of lengths still to come, the code so far, the first code of this length and its index. -/
def huffGo (vals : List Nat) : List Nat → Nat → Nat → Nat → JD Nat
  | [], _, _, _ => fault rHuffman
  | c :: cs, code, first, index => do
    let b ← bit
    let k := code + b
    if first ≤ k ∧ k < first + c then pure (vals.getD (index + (k - first)) 0)
    else huffGo vals cs (2 * k) (2 * (first + c)) (index + c)

/-- One Huffman symbol. -/
def huff (t : Huff) : JD Nat := huffGo t.vals t.counts 0 0 0

/-- A signed value of n bits (EXTEND). -/
def extend (v n : Nat) : Int := if n = 0 then 0 else if 2 ^ (n - 1) ≤ v then (v : Int) else (v : Int) - (2 ^ n - 1 : Int)

/-- A coefficient. -/
def getC (ci i : Nat) : JD Int := fun s => .ok ((s.coefs.getD ci #[]).getD i 0, s)

/-- Set a coefficient. -/
def setC (ci i : Nat) (v : Int) : JD Unit := fun s =>
  .ok ((), { s with coefs := s.coefs.modify ci (fun a => a.setIfInBounds i v) })

/-- A predicted DC value: the difference is of at most P + 3 bits, and so is the coefficient. -/
def dcValue (p ci : Nat) (t : Huff) : JD Int := do
  let n ← huff t
  if p + 3 < n then fault rCoeff
  else
    let v ← bits n 0
    let s ← get
    let x := s.preds.getD ci 0 + extend v n
    set { s with preds := s.preds.set ci x }
    if 2 ^ (p + 3) ≤ x.natAbs then fault rCoeff else pure x

/-- AC coefficients of a sequential block, from zigzag place k. -/
def acSeq (p ci base : Nat) (t : Huff) : Nat → Nat → JD Unit
  | 0, _ => pure ()
  | n + 1, k =>
    if 63 < k then pure ()
    else do
      let rs ← huff t
      let r := rs / 16
      let z := rs % 16
      if z = 0 then (if r = 15 then acSeq p ci base t n (k + 16) else pure ())
      else
        let j := k + r
        if 63 < j then fault rHuffman
        else if p + 2 < z then fault rCoeff
        else do
          let v ← bits z 0
          setC ci (base + j) (extend v z)
          acSeq p ci base t n (j + 1)

/-- AC coefficients of a first progressive scan. -/
def acFirst (p ci base se al : Nat) (t : Huff) : Nat → Nat → JD Unit
  | 0, _ => pure ()
  | n + 1, k =>
    if se < k then pure ()
    else do
      let rs ← huff t
      let r := rs / 16
      let z := rs % 16
      if z = 0 then
        if r = 15 then acFirst p ci base se al t n (k + 16)
        else do
          let e ← bits r 0
          modify (fun s => { s with eobrun := 2 ^ r + e - 1 })
      else
        let j := k + r
        if se < j then fault rHuffman
        else do
          let v ← bits z 0
          let x := extend v z * (2 ^ al : Int)
          if 2 ^ (p + 2) ≤ x.natAbs then fault rCoeff
          else do
            setC ci (base + j) x
            acFirst p ci base se al t n (j + 1)

/-- One more bit of a coefficient that is not zero. -/
def refine (ci i al : Nat) (c : Int) : JD Unit := do
  let b ← bit
  if b = 1 ∧ (c.natAbs / 2 ^ al) % 2 = 0 then setC ci i (if 0 < c then c + (2 ^ al : Int) else c - (2 ^ al : Int)) else pure ()

/-- Refine the coefficients from place k while r zero coefficients remain to be passed; answers the place of the zero
coefficient reached, or a place beyond the band. -/
def refinePass (ci base se al : Nat) : Nat → Nat → Nat → JD Nat
  | 0, k, _ => pure k
  | n + 1, k, r =>
    if se < k then pure k
    else do
      let c ← getC ci (base + k)
      if c ≠ 0 then do
        refine ci (base + k) al c
        refinePass ci base se al n (k + 1) r
      else if r = 0 then pure k
      else refinePass ci base se al n (k + 1) (r - 1)

/-- AC coefficients of a refining progressive scan. -/
def acRefine (ci base se al : Nat) (t : Huff) : Nat → Nat → JD Unit
  | 0, _ => pure ()
  | n + 1, k =>
    if se < k then pure ()
    else do
      let rs ← huff t
      let r := rs / 16
      let z := rs % 16
      if z = 0 then
        if r = 15 then do
          let j ← refinePass ci base se al 64 k 15
          acRefine ci base se al t n (j + 1)
        else do
          let e ← bits r 0
          modify (fun s => { s with eobrun := 2 ^ r + e - 1 })
          let _ ← refinePass ci base se al 64 k 64
          pure ()
      else if z ≠ 1 then fault rHuffman
      else do
        let b ← bit
        let j ← refinePass ci base se al 64 k r
        if se < j then fault rHuffman
        else do
          setC ci (base + j) (if b = 1 then (2 ^ al : Int) else -(2 ^ al : Int))
          acRefine ci base se al t n (j + 1)

/-- One data unit of a scan. -/
def unit (f : Frame) (s : Scan) (c : ScanComp) (base : Nat) : JD Unit := do
  let ci := c.idx
  if f.sof < 2 then do
    let x ← dcValue f.p ci c.dc
    setC ci base x
    acSeq f.p ci base c.ac 64 1
  else if s.ss = 0 then
    if s.ah = 0 then do
      let x ← dcValue f.p ci c.dc
      let y := x * (2 ^ s.al : Int)
      if 2 ^ (f.p + 3) ≤ y.natAbs then fault rCoeff else setC ci base y
    else do
      let b ← bit
      let x ← getC ci base
      setC ci base (x + (b : Int) * (2 ^ s.al : Int))
  else do
    let st ← get
    if 0 < st.eobrun then do
      set { st with eobrun := st.eobrun - 1 }
      if s.ah = 0 then pure () else do
        let _ ← refinePass ci base s.se s.al 64 s.ss 64
        pure ()
    else if s.ah = 0 then acFirst f.p ci base s.se s.al c.ac 64 s.ss
    else acRefine ci base s.se s.al c.ac 64 s.ss

/-- The marker RSTm that is due before MCU m. -/
def restart (f : Frame) (k : Nat) : JD Unit := fun s =>
  match s.rest with
  | [] => .error (corrupt rRestart s.at_)
  | g :: gs =>
    if s.curRst = some (k % 8) then
      .ok ((), { s with cur := g.bytes.toArray, curRst := g.rst, bit := 0, rest := gs, preds := List.replicate f.comps.length 0, eobrun := 0 })
    else .error (corrupt rRestart s.at_)

/-- Blocks of MCU m of a scan, in order: component and block index. -/
def mcuBlocks (f : Frame) (s : Scan) (m : Nat) : List (ScanComp × Nat) :=
  if 1 < s.comps.length then
    s.comps.flatMap (fun c =>
      let k := f.comp c.idx
      let row := m / f.mcusW
      let col := m % f.mcusW
      (List.range k.v).flatMap (fun y => (List.range k.h).map (fun x =>
        (c, (row * k.v + y) * (f.mcusW * k.h) + col * k.h + x))))
  else
    s.comps.map (fun c =>
      let k := f.comp c.idx
      (c, m / f.blocksW k * (f.mcusW * k.h) + m % f.blocksW k))

/-- MCUs of a scan. -/
def Scan.mcus (f : Frame) (s : Scan) : Nat :=
  if 1 < s.comps.length then f.mcusW * f.mcusH
  else match s.comps with
    | c :: _ => f.blocksW (f.comp c.idx) * f.blocksH (f.comp c.idx)
    | [] => 0

/-- The MCUs of a scan from number m on. -/
def mcusFrom (f : Frame) (s : Scan) : Nat → Nat → JD Unit
  | 0, _ => fun st => if st.curRst.isSome then .error (corrupt rRestart st.at_) else .ok ((), st)
  | n + 1, m => do
    if s.ri ≠ 0 ∧ m ≠ 0 ∧ m % s.ri = 0 then restart f (m / s.ri - 1) else pure ()
    (mcuBlocks f s m).forM (fun b => unit f s b.1 (64 * b.2))
    mcusFrom f s n (m + 1)

/-- Decode one scan into the coefficients. -/
def decodeScan (f : Frame) (cs : List (Array Int)) (s : Scan) : Except Err (List (Array Int)) :=
  match s.segs with
  | [] => .ok cs
  | g :: gs =>
    let st : Dec := { cur := g.bytes.toArray, curRst := g.rst, bit := 0, rest := gs, finish := s.finish,
                      preds := List.replicate f.comps.length 0, eobrun := 0, coefs := cs }
    match mcusFrom f s (s.mcus f) 0 st with
    | .error x => .error x
    | .ok (_, t) => .ok t.coefs

/-- Decode every scan. -/
def decodeScans (f : Frame) : List Scan → List (Array Int) → Except Err (List (Array Int))
  | [], cs => .ok cs
  | s :: ss, cs => match decodeScan f cs s with
    | .error x => .error x
    | .ok c1 => decodeScans f ss c1

/-- Coefficients at zero. -/
def zeroCoefs (f : Frame) : List (Array Int) :=
  f.comps.map (fun c => Array.replicate (64 * (f.mcusW * c.h) * (f.mcusH * c.v)) 0)

/-! ### Reconstruction (R522) -/

/-- Zigzag order: the raster place of each zigzag place. -/
def zigzag : List Nat :=
  [0, 1, 8, 16, 9, 2, 3, 10, 17, 24, 32, 25, 18, 11, 4, 5, 12, 19, 26, 33, 40, 48, 41, 34, 27, 20, 13, 6, 7, 14, 21, 28,
   35, 42, 49, 56, 57, 50, 43, 36, 29, 22, 15, 23, 30, 37, 44, 51, 58, 59, 52, 45, 38, 31, 39, 46, 53, 60, 61, 54, 47, 55, 62, 63]

/-- cos(m π / 16) / 2 for m = 0 to 8, rounded once to FP32; m = 0 stands for C(0)/2. -/
def cosHalf : List Word :=
  [0x3EB504F3#32, 0x3EFB14BE#32, 0x3EEC835E#32, 0x3ED4DB31#32, 0x3EB504F3#32, 0x3E8E39DA#32, 0x3E43EF15#32, 0x3DC7C5C2#32, 0#32]

/-- c[x][u] of R522 step 2. -/
def cosTab (x u : Nat) : Word :=
  if u = 0 then cosHalf.getD 0 0
  else
    let m := (2 * x + 1) * u % 32
    let k := if 16 < m then 32 - m else m
    if k ≤ 8 then cosHalf.getD k 0 else Float.neg (cosHalf.getD (16 - k) 0)

/-- One transform of eight values. -/
def idct8 (fs : List Word) : List Word :=
  (List.range 8).map (fun x =>
    (List.range 7).foldl (fun t i => Float.fma (fs.getD (i + 1) 0) (cosTab x (i + 1)) t) (Float.mul (fs.getD 0 0) (cosTab x 0)))

/-- Samples of one block from its 64 coefficients in zigzag order. -/
def block (p : Nat) (q : List Nat) (zz : Nat → Int) : List Nat :=
  let raster : List Word := (List.range 64).map (fun i =>
    let z := zigzag.findIdx (fun k => k == i)
    Float.ofInt32 (BitVec.ofInt 32 (zz z * (q.getD z 0 : Int))))
  let rows := (List.range 8).map (fun v => idct8 ((List.range 8).map (fun u => raster.getD (8 * v + u) 0)))
  let cols := (List.range 8).map (fun x => idct8 ((List.range 8).map (fun v => (rows.getD v []).getD x 0)))
  (List.range 64).map (fun i =>
    let s := (cols.getD (i % 8) []).getD (i / 8) 0
    let v := (Float.toInt32 (Float.add s (Float.ofNat (2 ^ (p - 1))))).toInt
    min v.toNat (2 ^ p - 1))

/-- A decoded sample: size, precision, planes of width × height BF16 values. -/
structure Image where
  width : Nat
  height : Nat
  precision : Nat
  planes : List (List Half)
  deriving DecidableEq, Repr

/-- Samples of a component, block by block. -/
def compSamples (f : Frame) (w : Walk) (cs : List (Array Int)) (i : Nat) : Array (Array Nat) :=
  let c := f.comp i
  let q := (SMap.get none w.latched i).getD []
  let co := cs.getD i #[]
  ((List.range ((f.mcusW * c.h) * (f.mcusH * c.v))).map (fun b =>
    (block f.p q (fun z => co.getD (64 * b + z) 0)).toArray)).toArray

/-- Sample of a component at a pixel of its own grid. -/
def sampleAt (f : Frame) (c : Comp) (s : Array (Array Nat)) (y x : Nat) : Nat :=
  (s.getD (y / 8 * (f.mcusW * c.h) + x / 8) #[]).getD (y % 8 * 8 + x % 8) 0

/-- Constants of the colour conversion. -/
def kR : Word := 0x3FB374BC#32
def kG1 : Word := 0xBF36D19E#32
def kG2 : Word := 0xBEB03298#32
def kB : Word := 0x3FE2D0E5#32
def one : Word := 0x3F800000#32

/-- Clamp to [+0, 1.0]; a NaN gives +0. -/
def clamp01 (w : Word) : Word := if Float.lt 0#32 w then (if Float.lt one w then one else w) else 0#32

/-- RGB of a pixel of Y, Cb, Cr samples. -/
def toRgb (p : Nat) (y cb cr : Nat) : List Word :=
  let half : Int := 2 ^ (p - 1)
  let yf := Float.ofNat y
  let dr := Float.ofInt32 (BitVec.ofInt 32 ((cr : Int) - half))
  let db := Float.ofInt32 (BitVec.ofInt 32 ((cb : Int) - half))
  [Float.fma kR dr yf, Float.fma kG1 dr (Float.fma kG2 db yf), Float.fma kB db yf]

/-- Steps 3 to 6 of R522. -/
def image (f : Frame) (w : Walk) (cs : List (Array Int)) (color : Bool) : Image :=
  let n := f.comps.length
  let ss := (List.range n).map (compSamples f w cs)
  let scale := Float.div one (Float.ofNat (2 ^ f.p - 1))
  let px (i y x : Nat) : Nat :=
    let c := f.comp i
    sampleAt f c (ss.getD i #[]) (y * c.v / f.vMax) (x * c.h / f.hMax)
  let out (v : Word) : Half :=
    let o := Float.mul v scale
    Float.toBf (if color then clamp01 o else o)
  let plane (k : Nat) : List Half := (List.range (f.height * f.width)).map (fun j =>
    let y := j / f.width
    let x := j % f.width
    if color ∧ n = 3 then out ((toRgb f.p (px 0 y x) (px 1 y x) (px 2 y x)).getD k 0) else out (Float.ofNat (px k y x)))
  { width := f.width, height := f.height, precision := f.p, planes := (List.range n).map plane }

/-- Decode a walked sample (R522). -/
def decode (w : Walk) (color : Bool) : Except Err Image :=
  match w.frame with
  | none => .error (corrupt rMarker 0)
  | some f => match decodeScans f w.scans (zeroCoefs f) with
    | .error x => .error x
    | .ok cs => .ok (image f w cs color)

end Sys2Proof.Machine.Jpeg
end

