-- ==== Sys2Proof/Machine/InputDecode.lean ====
section
/-! DEFINITION. Input decode (chapter 16): the decode area and cache (R513 to R515, R523), OP_JPEG_DECODE with augmentation
(R517, R518, R524, R525), and latent streams (R526 to R531). Readings: notes/assumptions/22.md. -/

namespace Sys2Proof.Machine

open Jpeg (rParam rDst)

/-- DETAIL of the decode statuses (R533). -/
def decodeDetail (no sub at_ : Nat) : Nat := no % 2 ^ 16 + sub % 2 ^ 8 * 2 ^ 16 + at_ % 2 ^ 32 * 2 ^ 32

/-- A parameter failure at a block offset (R533). -/
def badDecode (no off : Nat) : Fin := Fin.with stDecodeUnsupported (decodeDetail no rParam off)

/-- No decode area, or a need beyond the staging area (R514, R515). -/
def noStaging : Fin := Fin.with stQuota 3

/-! ### OP_DCACHE_CONFIG (R513, R514) -/

/-- The first failing offset of the block. -/
def dcacheBad (k : Cmd) : Option Nat :=
  let stage := k.p 8 4
  if k.p 0 6 % 0x10000 ≠ 0 then some 0
  else if k.p 6 2 ≠ 0 then some 6
  else if stage % 0x10000 ≠ 0 ∨ (stage ≠ 0 ∧ (stage < 2 ^ 20 ∨ 2 ^ 30 < stage)) then some 8
  else if 2 ≤ k.p 0xC 4 then some 0xC
  else none

/-- The new sizes fit the quota once the old area is released. -/
def State.dcacheFits (s : State) (p h need : Nat) : Bool :=
  match s.part p, s.ctx p h with
  | some x, some y =>
    let old := x.fwBytes h (fun f => f == .decode)
    decide (s.dramCharge p h - old + need ≤ y.quota.dram - y.quota.kv)
  | _, _ => false

/-- OP_DCACHE_CONFIG: accepted, it drains the area; `settle` applies it (R514). -/
def State.dcacheConfig (s : State) (c : CmdRef) (k : Cmd) (p h : Nat) : State :=
  match s.ctx p h with
  | none => s
  | some x =>
    if x.dcacheBy.isSome then s
    else match dcacheBad k with
      | some off => s.endCmd c (badDecode 0 off)
      | none =>
        let stage := k.p 8 4
        let need := if stage = 0 then 0 else stage + k.p 0 6
        if !bitOf (k.p 0xC 4) 0 ∧ !s.dcacheFits p h need then s.endCmd c (Fin.with stQuota 0)
        else (s.startCmd c).updCtx p h (fun y => { y with dcacheBy := some c.id })

/-- OP_DCACHE_CONFIG. -/
def execOpDcacheConfig (c : CmdRef) (s : State) : Out := .next (s.gate c 0x0502 false (fun t k p h => t.dcacheConfig c k p h))

/-! ### Staging and output -/

/-- What a need for staging bytes meets (R515). -/
inductive StageRes where
  | tooBig
  | wait
  | fits
  deriving DecidableEq, Repr

/-- Whether a command's staging need fits the area and what other commands leave free. -/
def State.stage (s : State) (c : CmdRef) (p h need : Nat) : StageRes :=
  match (s.ctx p h).bind Context.decode with
  | none => .tooBig
  | some a =>
    let used := (((s.block (1 + p)).cmds.filter (fun k => k.ctxField == h && k.id != c.id)).map Cmd.staged).sum
    if a.stageBytes < need then .tooBig else if a.stageBytes < used + need then .wait else .fits

/-- Copy sources into the staging area, one list of bytes each. -/
def State.stageAll (s : State) (w : Who) : List (Nat × Nat) → Eng (List (List Byte))
  | [] => .ok [] s
  | (a, n) :: xs => match s.readEng w a n with
    | .wait => .wait
    | .bad st d s1 => .bad st d s1
    | .ok bs s1 => match s1.stageAll w xs with
      | .wait => .wait
      | .bad st d s2 => .bad st d s2
      | .ok rest s2 => .ok (bs :: rest) s2

/-- Write pieces into the context's DRAM; another destination is refused. -/
def State.writePieces (s : State) (w : Who) : List (Nat × List Byte) → Eng Unit
  | [] => .ok () s
  | (a, bs) :: xs =>
    if place a ≠ .dram then .bad stAddrFault a s
    else match s.writeEng w a bs with
      | .wait => .wait
      | .bad st d s1 => .bad st d s1
      | .ok _ s1 => s1.writePieces w xs

/-- One granule is committed. -/
def State.granuleDone (s : State) (c : CmdRef) : State :=
  s.updCmd c (fun k => { k with granules := k.granules + 1, progress := k.progress + 1 })

/-! ### Samples of OP_JPEG_DECODE (R517) -/

/-- A sample descriptor. -/
structure Sample where
  no : Nat
  src : Nat
  len : Nat
  units : Nat
  index : Nat
  dst : Nat
  deriving DecidableEq, Repr

/-- The samples of a command. -/
def Cmd.samples (k : Cmd) : List Sample :=
  (List.range (k.p 0 2)).map (fun i =>
    let b := 64 + 32 * i
    { no := i, src := k.p b 6, len := k.p (b + 8) 4, units := k.p (b + 0xC) 4, index := k.p (b + 0x10) 8, dst := k.p (b + 0x18) 6 })

def Cmd.jpegColor (k : Cmd) : Bool := bitOf (k.p 0 4) 16
def Cmd.jpegAug (k : Cmd) : Bool := bitOf (k.p 0 4) 17
def Cmd.jpegCache (k : Cmd) : Bool := bitOf (k.p 0 4) 18

/-- An FP32 field of the parameter area. -/
def Cmd.pf (k : Cmd) (off : Nat) : Word := BitVec.ofNat 32 (k.p off 4)

/-- a ≤ b as FP32 values; false for a NaN. -/
def fle (a b : Word) : Bool := !Float.isNan a && !Float.isNan b && !Float.lt b a

/-- The first failing field of the block: sample number and offset (R517, R518 step 1). -/
def jpegBad (k : Cmd) : Option (Nat × Nat) :=
  let one := Jpeg.one
  let aug := k.jpegAug
  let size (v : Nat) : Bool := if aug then decide (16 ≤ v ∧ v ≤ 4096) else v == 0
  let unit (o : Nat) : Bool := fle 0#32 (k.pf o) && fle (k.pf o) one
  let checks : List (Bool × Nat) :=
    [(decide (k.p 0 2 ≤ 126), 0), (decide (k.p 0 4 < 2 ^ 19), 2), (size (k.p 4 2), 4), (size (k.p 6 2), 6), (k.p 0x1C 4 == 0, 0x1C),
     (k.p 0x3C 4 == 0, 0x3C)] ++
    (if aug then
      [(Float.lt 0#32 (k.pf 0x20), 0x20), (fle (k.pf 0x20) (k.pf 0x24) && fle (k.pf 0x24) one, 0x24),
       (fle 0x3D800000#32 (k.pf 0x28), 0x28), (fle (k.pf 0x28) (k.pf 0x2C) && fle (k.pf 0x2C) 0x41800000#32, 0x2C),
       (unit 0x30, 0x30), (unit 0x34, 0x34), (unit 0x38, 0x38)]
    else [(k.p 0x10 8 == 0, 0x10), (k.p 0x18 4 == 0, 0x18), (k.p 0x20 4 == 0, 0x20), (k.p 0x24 4 == 0, 0x24), (k.p 0x28 4 == 0, 0x28),
      (k.p 0x2C 4 == 0, 0x2C), (k.p 0x30 4 == 0, 0x30), (k.p 0x34 4 == 0, 0x34), (k.p 0x38 4 == 0, 0x38)])
  let first := (checks.filter (fun x => !x.1)).map Prod.snd
  match first with
  | o :: os => some (0, os.foldl min o)
  | [] => k.samples.findSome? (fun x =>
      let b := 64 + 32 * x.no
      if k.p (b + 6) 2 ≠ 0 then some (x.no, b + 6)
      else if x.len = 0 ∨ 67108864 < x.len then some (x.no, b + 8)
      else if x.dst % 256 ≠ 0 then some (x.no, b + 0x18)
      else if k.p (b + 0x1E) 2 ≠ 0 then some (x.no, b + 0x1E)
      else none)

/-! ### The decode cache (R523) -/

/-- The entry of a key. -/
def DecodeArea.find (a : DecodeArea) (dataset index : Nat) (color : Bool) : Option DcEntry :=
  a.entries.find? (fun e => e.dataset == dataset && e.index == index && e.color == color)

/-- Bytes an entry takes. -/
def DcEntry.bytes (e : DcEntry) : Nat := 2 * e.width * e.height * e.planes.length

/-- Evict the least recently used entries until `need` bytes fit. -/
def evict (cap need : Nat) : List DcEntry → List DcEntry
  | [] => []
  | e :: es => if ((e :: es).map DcEntry.bytes).sum + need ≤ cap then e :: es else evict cap need es

/-- What is free below a limit, lowest first: a walk over the used ranges in ascending order. -/
def freeRanges (limit : Nat) : Nat → List (Nat × Nat) → List (Nat × Nat)
  | at_, [] => [(at_, limit - at_)]
  | at_, (a, n) :: us => (at_, a - at_) :: freeRanges limit (a + n) us

/-- The first n bytes of free ranges. -/
def takeRoom : Nat → List (Nat × Nat) → List (Nat × Nat)
  | _, [] => []
  | n, (a, m) :: rs => if n = 0 then [] else if m = 0 then takeRoom n rs else (a, min m n) :: takeRoom (n - min m n) rs

/-- Insert a decoded sample. -/
def DecodeArea.insert (a : DecodeArea) (e : DcEntry) : DecodeArea :=
  if a.cacheBytes < e.bytes then a
  else
    let rest := a.entries.filter (fun x => !(x.dataset == e.dataset && x.index == e.index && x.color == e.color))
    let kept := evict a.cacheBytes e.bytes rest
    let used := sortBy (fun u v => decide (u.1 ≤ v.1)) (kept.flatMap DcEntry.room)
    { a with entries := kept ++ [{ e with room := takeRoom e.bytes (freeRanges a.cacheBytes 0 used) }] }

/-- A hit makes its entry the most recently used. -/
def DecodeArea.touch (a : DecodeArea) (e : DcEntry) : DecodeArea :=
  if a.entries.contains e then { a with entries := a.entries.filter (fun x => x != e) ++ [e] } else a

/-- Change a context's decode area. -/
def State.updDecode (s : State) (p h : Nat) (f : DecodeArea → DecodeArea) : State :=
  s.updCtx p h (fun k => { k with decode := k.decode.map f })

/-- The bytes of an entry. -/
def DcEntry.data (e : DcEntry) : List Byte := e.planes.flatMap (fun p => p.flatMap (fun v => leBytes 2 v.toNat))

/-- The ranges of DRAM of an entry. -/
def DecodeArea.ranges (a : DecodeArea) (e : DcEntry) : List (Nat × Nat) := e.room.map (fun r => (a.cacheBase + r.1, r.2))

/-- Read an entry: DETAIL of the codeword that is lost, if one is; the entry is then removed (R532). -/
def State.readEntry (s : State) (p h : Nat) (e : DcEntry) : Option Nat × State :=
  match (s.ctx p h).bind Context.decode with
  | none => (none, s)
  | some a =>
    let r := ((a.ranges e).foldl (fun t x => t.fwRead x.1 x.2) s).takeLoss
    match r.1 with
    | none => (none, r.2)
    | some l => (some l.1, r.2.updDecode p h (fun b => { b with entries := b.entries.filter (fun z => z != e) }))

/-- Insert a decoded sample into a context's cache and write its bytes there. -/
def State.insertEntry (s : State) (p h : Nat) (e : DcEntry) : State :=
  let t := s.updDecode p h (fun a => a.insert e)
  match (t.ctx p h).bind Context.decode with
  | none => t
  | some a => match a.entries.getLast? with
    | none => t
    | some z => if a.cacheBytes < e.bytes then t else t.aside (t.fillRanges (a.ranges z) z.data)

/-! ### Augmentation (R525) -/

/-- What an augmentation used. -/
structure Aug where
  cw : Nat
  ch : Nat
  x0 : Nat
  y0 : Nat
  flip : Bool
  bf : Word
  cf : Word
  deriving DecidableEq, Repr

/-- The 24 bits of u(k). -/
def augDraw (seed epoch index k : Nat) : Nat :=
  let a := mix64 (BitVec.ofNat 64 seed ^^^ (BitVec.ofNat 64 epoch <<< 32) ^^^ 0xA06D000000000016#64)
  (mix64 (mix64 (a ^^^ BitVec.ofNat 64 index) ^^^ BitVec.ofNat 64 k)).toNat / 2 ^ 40

/-- u(k) in FP32. -/
def augU (seed epoch index k : Nat) : Word := Float.scalb (Float.ofNat (augDraw seed epoch index k)) (-24)

/-- The floor of a value that is not negative. -/
def floorNat (w : Word) : Nat := match Float.unpack w with
  | .fin _ n => n / Float.one149
  | _ => 0

/-- Try the crop draws from attempt t on. -/
def augCrop (k : Cmd) (index w h : Nat) (lo span wh : Word) : Nat → Nat → Nat × Nat × Nat × Nat
  | 0, _ => (w, h, 0, 0)
  | n + 1, t =>
    let seed := k.p 0x10 8
    let epoch := k.p 0x18 4
    let u (i : Nat) : Word := augU seed epoch index (4 * t + i)
    let f := Float.fma (u 0) (Float.sub (k.pf 0x24) (k.pf 0x20)) (k.pf 0x20)
    let r := Cu.romEval false 0x00 (Float.fma (u 1) span lo)
    let cw := (Float.toInt32 (Float.sqrt (Float.mul (Float.mul f wh) r))).toInt
    let ch := (Float.toInt32 (Float.sqrt (Float.div (Float.mul f wh) r))).toInt
    if 1 ≤ cw ∧ cw ≤ w ∧ 1 ≤ ch ∧ ch ≤ h then
      let a := cw.toNat
      let b := ch.toNat
      let at_ (i m : Nat) : Nat := augDraw seed epoch index (4 * t + i) * (m + 1) / 2 ^ 24
      (a, b, min (at_ 2 (w - a)) (w - a), min (at_ 3 (h - b)) (h - b))
    else augCrop k index w h lo span wh n (t + 1)

/-- The draws of a sample's augmentation. -/
def augOf (k : Cmd) (index w h : Nat) : Aug :=
  let seed := k.p 0x10 8
  let epoch := k.p 0x18 4
  let wh := Float.mul (Float.ofNat w) (Float.ofNat h)
  let lo := Cu.romEval false 0x02 (k.pf 0x28)
  let span := Float.sub (Cu.romEval false 0x02 (k.pf 0x2C)) lo
  let (cw, ch, x0, y0) := augCrop k index w h lo span wh 10 0
  let jit (i o : Nat) : Word :=
    Float.fma (Float.sub (Float.mul 0x40000000#32 (augU seed epoch index i)) Jpeg.one) (k.pf o) Jpeg.one
  { cw := cw, ch := ch, x0 := x0, y0 := y0, flip := Float.lt (augU seed epoch index 40) (k.pf 0x30), bf := jit 41 0x34, cf := jit 42 0x38 }

/-- A source coordinate, clamped to [+0, n - 1], with its cell and fraction. -/
def augCoord (x out n : Nat) : Nat × Word :=
  let half := 0x3F000000#32
  let v := Float.sub (Float.mul (Float.add (Float.ofNat x) half) (Float.div (Float.ofNat n) (Float.ofNat out))) half
  let top := Float.ofNat (n - 1)
  let c := if Float.lt 0#32 v then (if Float.lt top v then top else v) else 0#32
  let i := min (floorNat c) (n - 2)
  (i, Float.sub c (Float.ofNat i))

/-- One augmented plane. -/
def augPlane (a : Aug) (w ow oh : Nat) (d : List Half) : List Half :=
  let da := d.toArray
  (List.range (oh * ow)).map (fun j =>
    let x := if a.flip then ow - 1 - j % ow else j % ow
    let (i, fx) := augCoord x ow a.cw
    let (r, fy) := augCoord (j / ow) oh a.ch
    let p (u v : Nat) : Word := Float.widen (da.getD ((a.y0 + min v (a.ch - 1)) * w + a.x0 + min u (a.cw - 1)) 0)
    let v0 := Float.fma fx (Float.sub (p (i + 1) r) (p i r)) (p i r)
    let v1 := Float.fma fx (Float.sub (p (i + 1) (r + 1)) (p i (r + 1))) (p i (r + 1))
    let v := Float.fma fy (Float.sub v1 v0) v0
    let half := 0x3F000000#32
    Float.toBf (Jpeg.clamp01 (Float.fma a.cf (Float.sub (Float.mul v a.bf) half) half)))

/-! ### OP_JPEG_DECODE (R518, R524) -/

/-- Row pitch of the output. -/
def jpegPitch (w : Nat) : Nat := (2 * w + 255) / 256 * 256

/-- Bytes of an output. -/
def jpegSize (w h planes : Nat) : Nat := 0x100 + planes * jpegPitch w * h

/-- What a sample comes from: a cache entry, or a staged copy that has been walked. -/
inductive SampleSrc where
  | hit (e : DcEntry)
  | miss (conflict : Bool) (w : Jpeg.Walk)
  deriving DecidableEq, Repr

/-- The pieces of an output: the header with its zeros, and each row. -/
def jpegPieces (k : Cmd) (x : Sample) (im : Jpeg.Image) (hit conflict : Bool) : List (Nat × List Byte) :=
  let aug := k.jpegAug
  let a : Aug := if aug then augOf k x.index im.width im.height
    else { cw := im.width, ch := im.height, x0 := 0, y0 := 0, flip := false, bf := Jpeg.one, cf := Jpeg.one }
  let w := if aug then k.p 4 2 else im.width
  let h := if aug then k.p 6 2 else im.height
  let planes := if aug then im.planes.map (augPlane a im.width w h) else im.planes
  let bit (b : Bool) (i : Nat) : Nat := if b then 2 ^ i else 0
  let pitch := jpegPitch w
  let hdr := leBytes 2 w ++ leBytes 2 h ++
    leBytes 4 (planes.length + im.precision * 2 ^ 8 + bit hit 16 + bit conflict 17 + bit a.flip 18 + bit aug 19) ++
    leBytes 2 a.x0 ++ leBytes 2 a.y0 ++ leBytes 2 a.cw ++ leBytes 2 a.ch ++ leBytes 4 a.bf.toNat ++ leBytes 4 a.cf.toNat ++ leBytes 4 pitch
  (x.dst, hdr ++ List.replicate (256 - hdr.length) 0#8) ::
    (planes.zipIdx).flatMap (fun e => (List.range h).map (fun y =>
      (x.dst + 0x100 + e.2 * pitch * h + y * pitch, ((e.1.drop (y * w)).take w).flatMap (fun v => leBytes 2 v.toNat))))

/-- Step 11 (R518): samples in ascending order, each a commit granule. -/
def State.jpegWrite (s : State) (c : CmdRef) (k : Cmd) (p h : Nat) : List (Sample × SampleSrc) → Nat → Nat → State
  | [], done, hits => s.endCmd c { Fin.ok with c0 := done, c1 := hits }
  | (x, src) :: xs, done, hits =>
    let stop (t : State) (st d : Nat) : State := t.endCmd c { status := st, detail := d, c0 := done, c1 := hits, out := [] }
    let got : Except Jpeg.Err (Jpeg.Image × Bool × Bool) := match src with
      | .hit e => .ok ({ width := e.width, height := e.height, precision := e.precision, planes := e.planes }, true, false)
      | .miss conflict w => match Jpeg.decode w k.jpegColor with
        | .error e => .error e
        | .ok im => .ok (im, false, conflict)
    let read : Option Nat × State := match src with
      | .hit e => s.readEntry p h e
      | .miss _ _ => (none, s)
    match got, read with
    | .error e, _ => stop s e.status (decodeDetail x.no e.sub e.at_)
    | .ok _, (some d, s0) => stop s0 stDataLoss d
    | .ok (im, hit, conflict), (none, s0) =>
      match s0.writePieces (k.who c.block) (jpegPieces k x im hit conflict) with
      | .wait => s
      | .bad st d s1 => stop s1 st d
      | .ok _ s1 =>
        let t := s1.granuleDone c
        let s2 := match src with
          | .hit e => t.updDecode p h (fun a => a.touch e)
          | .miss _ _ =>
            if k.jpegCache then t.insertEntry p h {
                dataset := k.p 8 8, index := x.index, color := k.jpegColor, len := x.len, width := im.width,
                height := im.height, precision := im.precision, planes := im.planes, room := [] }
            else t
        s2.jpegWrite c k p h xs (done + 1) (if hit then hits + 1 else hits)

/-- Steps 7 to 10 (R518) over the staged copies: each step for every sample before the next. -/
def jpegCheck (k : Cmd) (xs : List (Sample × SampleSrc)) : Option Fin :=
  let frame (x : SampleSrc) : Option Jpeg.Frame := match x with
    | .hit _ => none
    | .miss _ w => w.frame
  let bad (x : Sample) (e : Jpeg.Err) : Fin := Fin.with e.status (decodeDetail x.no e.sub e.at_)
  let s8 := xs.findSome? (fun e => match e.2 with
    | .hit _ => none
    | .miss _ w => (w.frame.bind (fun f => Jpeg.tooLittle f w)).map (bad e.1))
  let s9 := xs.findSome? (fun e =>
    let (w, h, n) : Nat × Nat × Nat := match e.2 with
      | .hit z => (z.width, z.height, z.planes.length)
      | .miss _ _ => match frame e.2 with
        | none => (0, 0, 0)
        | some f => (f.width, f.height, f.comps.length)
    let (ow, oh) := if k.jpegAug then (k.p 4 2, k.p 6 2) else (w, h)
    if 256 * e.1.units < jpegSize ow oh n then some (bad e.1 (Jpeg.unsupported rDst (64 + 32 * e.1.no + 0xC))) else none)
  s8.orElse (fun _ => s9)

/-- Step 7 (R518): walk each staged miss. -/
def jpegWalks (k : Cmd) : List (Sample × Option DcEntry × Bool) → List (List Byte) → Except Fin (List (Sample × SampleSrc))
  | [], _ => .ok []
  | (x, some e, _) :: xs, bs => match jpegWalks k xs bs with
    | .error f => .error f
    | .ok r => .ok ((x, .hit e) :: r)
  | (x, none, conflict) :: xs, bs => match Jpeg.walk ((bs.headD []).toArray) with
    | .error e => .error (Fin.with e.status (decodeDetail x.no e.sub e.at_))
    | .ok w => match jpegWalks k xs (bs.drop 1) with
      | .error f => .error f
      | .ok r => .ok ((x, .miss conflict w) :: r)

/-- OP_JPEG_DECODE (R514 to R525). Two samples of one command with equal keys both miss. -/
def State.jpegDecode (s : State) (c : CmdRef) (k : Cmd) (p h : Nat) : State :=
  match jpegBad k with
  | some (no, off) => s.endCmd c (badDecode no off)
  | none =>
    if k.p 0 2 = 0 then s.endCmd c (Fin.bare stOkEmpty)
    else match (s.ctx p h).bind Context.decode with
      | none => s.endCmd c noStaging
      | some a =>
        let looked : List (Sample × Option DcEntry × Bool) := k.samples.map (fun x =>
          match (if k.jpegCache then a.find (k.p 8 8) x.index k.jpegColor else none) with
          | none => (x, none, false)
          | some e => if e.len = x.len then (x, some e, false) else (x, none, true))
        let misses := looked.filter (fun e => e.2.1.isNone)
        let need := (misses.map (fun e => e.1.len)).sum
        match s.stage c p h need with
        | .tooBig => s.endCmd c noStaging
        | .wait => s
        | .fits =>
          match s.stageAll (k.who c.block) (misses.map (fun e => (e.1.src, e.1.len))) with
          | .wait => s
          | .bad st d s1 => s1.endCmd c (Fin.with st d)
          | .ok copies s1 =>
            match jpegWalks k looked copies with
            | .error f => s1.endCmd c f
            | .ok xs => match jpegCheck k xs with
              | some f => s1.endCmd c f
              | none =>
                let extra := (xs.map (fun e => match e.2 with
                  | .hit _ => 0
                  | .miss _ w => match w.frame with
                    | none => 0
                    | some f => Jpeg.coeffBytes f)).sum
                match s1.stage c p h (need + extra) with
                | .tooBig => s1.endCmd c noStaging
                | .wait => s
                | .fits =>
                  ((s1.startCmd c).updCmd c (fun j => { j with staged := need + extra })).jpegWrite c k p h xs 0 0

/-- A decode command runs, or waits while the area drains (R514). -/
def State.decodeGate (s : State) (c : CmdRef) (op : Nat) (f : State → Cmd → Nat → Nat → State) : State :=
  s.gate c op false (fun t k p h => match t.ctx p h with
    | none => t
    | some x => if x.dcacheBy.isSome then t else f t k p h)

/-- OP_JPEG_DECODE. -/
def execOpJpegDecode (c : CmdRef) (s : State) : Out := .next (s.decodeGate c 0x0501 (fun t k p h => t.jpegDecode c k p h))

/-! ### Latent streams (R526) -/

/-- Reasons of R533. -/
def rLsfHeader : Nat := 0x20
def rCrc : Nat := 0x21
def rLength : Nat := 0x22
def rOrder : Nat := 0x23
def rToken : Nat := 0x24

/-- CRC-32 of IEEE 802.3, reflected. -/
def crc32 (bs : List Byte) : Word :=
  let step (c : Word) : Word := if c.getLsbD 0 then (c >>> 1) ^^^ 0xEDB88320#32 else c >>> 1
  let byte (c : Word) (b : Byte) : Word := (List.range 8).foldl (fun x _ => step x) (c ^^^ b.setWidth 32)
  bs.foldl byte 0xFFFFFFFF#32 ^^^ 0xFFFFFFFF#32

/-- Bytes of n packed tokens. -/
def packedLen (n tokBits : Nat) : Nat := (n * tokBits + 7) / 8

/-- n packed tokens. -/
def unpackTokens (n tokBits : Nat) (bs : List Byte) : List Nat :=
  let v := leNat bs
  (List.range n).map (fun i => v / 2 ^ (i * tokBits) % 2 ^ tokBits)

/-- Pack tokens, padded with zero bits to whole bytes. -/
def packTokens (tokBits : Nat) (ts : List Nat) : List Byte :=
  leBytes (packedLen ts.length tokBits) (ts.foldr (fun t v => t % 2 ^ tokBits + v * 2 ^ tokBits) 0)

/-- A grid size of R526. -/
def gridOk (h w : Nat) : Bool := decide (1 ≤ h ∧ h ≤ 256 ∧ 1 ≤ w ∧ w ≤ 256 ∧ h * w ≤ 16384)

/-- A valid container header, as an empty slot. -/
def lsfHeader (bs : List Byte) : Option LsfSlot :=
  let h := field bs 8 2
  let w := field bs 10 2
  let tb := field bs 6 1
  if 64 ≤ bs.length ∧ field bs 0 4 = 0x3146534C ∧ field bs 4 2 = 1 ∧ field bs 7 1 = 0 ∧ 1 ≤ tb ∧ tb ≤ 32 ∧ gridOk h w ∧
      (List.range 40).all (fun i => bs.getD (0x18 + i) 0 == 0#8) then
    some { tokBits := tb, height := h, width := w, vocab := field bs 0xC 4, store := [], lastIndex := none, skipping := false, base := 0 }
  else none

/-- Positions of a slot's grid. -/
def LsfSlot.n (x : LsfSlot) : Nat := x.height * x.width

/-- A frame record. -/
structure LsfRec where
  off : Nat
  delta : Bool
  index : Nat
  ref : Nat
  crc : Nat
  time : Nat
  payload : List Byte
  deriving DecidableEq, Repr

/-- Positions set in a delta's bitmap, in raster order. -/
def LsfRec.marks (r : LsfRec) (n : Nat) : List Nat := (List.range n).filter (fun i => (r.payload.getD (i / 8) 0).getLsbD (i % 8))

/-- A record at an offset; none where its structure is invalid or the data end inside it (R528). -/
def lsfRecord (x : LsfSlot) (bs : List Byte) (off : Nat) : Option LsfRec :=
  let h := (bs.drop off).take 32
  let kind := field h 4 4
  let len := field h 0x10 4
  let r : LsfRec := { off := off, delta := kind == 1, index := field h 8 4, ref := field h 0xC 4, crc := field h 0x14 4, time := field h 0x18 8,
                      payload := (bs.drop (off + 32)).take len }
  let want := if r.delta then (x.n + 7) / 8 + packedLen (r.marks x.n).length x.tokBits else packedLen x.n x.tokBits
  if h.length = 32 ∧ field h 0 4 = 0x4C46524D ∧ kind ≤ 1 ∧ (kind = 1 ∨ r.ref = 0) ∧ r.payload.length = len ∧ len = want then some r
  else none

/-- Walk the records from an offset: those that are valid, and where an invalid one stands. -/
def lsfWalk (x : LsfSlot) (bs : List Byte) : Nat → Nat → List LsfRec × Option Nat
  | 0, _ => ([], none)
  | n + 1, off =>
    if bs.length ≤ off then ([], none)
    else match lsfRecord x bs off with
      | none => ([], some off)
      | some r =>
        let (rs, e) := lsfWalk x bs n (off + 32 + r.payload.length)
        (r :: rs, e)

/-! ### OP_LSF_READ (R527 to R530) -/

/-- A slot of a context. -/
def Context.lsfSlot (k : Context) (i : Nat) : Option LsfSlot := SMap.get none k.lsf i

/-- Replace a slot. -/
def State.setLsf (s : State) (p h i : Nat) (x : Option LsfSlot) : State :=
  s.updCtx p h (fun k => { k with lsf := SMap.set none k.lsf i x })

/-- Bytes of a reference store's region. -/
def LsfSlot.storeBytes (x : LsfSlot) : Nat := (64 * x.n + 65535) / 65536 * 65536

/-- Clear a slot and release its reference store. -/
def State.clearLsf (s : State) (p h i : Nat) : State :=
  match (s.ctx p h).bind (fun k => k.lsfSlot i) with
  | none => s
  | some x => (s.dropFw p (fun f => f.kind == .decode && f.owner == h && f.base == x.base)).setLsf p h i none

/-- Bytes of an output record. -/
def LsfSlot.rs (x : LsfSlot) : Nat := (256 + 4 * x.n + 255) / 256 * 256

/-- How a record is handled (R529, R530): its STATE and tokens. -/
def LsfSlot.handle (x : LsfSlot) (r : LsfRec) : Nat × List Nat :=
  if !r.delta then (0, unpackTokens x.n x.tokBits r.payload)
  else if x.skipping then (2, [])
  else match x.store.find? (fun f => f.1 == r.ref) with
    | none => (1, [])
    | some f =>
      let ms := r.marks x.n
      let new := unpackTokens ms.length x.tokBits (r.payload.drop ((x.n + 7) / 8))
      (0, (ms.zip new).foldl (fun g e => g.set e.1 e.2) f.2)

/-- The slot after a record. -/
def LsfSlot.after (x : LsfSlot) (r : LsfRec) (st : Nat) (toks : List Nat) : LsfSlot :=
  if st = 0 then
    { x with
      store := (if 16 ≤ x.store.length then x.store.drop 1 else x.store) ++ [(r.index, toks)]
      lastIndex := some r.index
      skipping := x.skipping && r.delta }
  else { x with lastIndex := some r.index, skipping := true }

/-- The pieces of output record k. -/
def LsfSlot.pieces (x : LsfSlot) (r : LsfRec) (dst k st : Nat) (toks : List Nat) : List (Nat × List Byte) :=
  let hdr := leBytes 4 r.index ++ leBytes 4 st ++ leBytes 4 r.ref ++ leBytes 4 0 ++ leBytes 8 r.time
  let a := dst + k * x.rs
  (a, hdr ++ List.replicate (256 - hdr.length) 0#8) :: (if st = 0 then [(a + 256, toks.flatMap (leBytes 4))] else [])

/-- Why a record ends the command (R528). -/
def LsfSlot.recordFault (x : LsfSlot) (r : LsfRec) : Option Nat :=
  let old := match x.lastIndex with
    | none => false
    | some i => decide (r.index ≤ i)
  let (st, toks) := x.handle r
  if (crc32 r.payload).toNat ≠ r.crc then some rCrc
  else if old then some rOrder
  else if st = 0 ∧ x.vocab ≠ 0 ∧ toks.any (fun t => decide (x.vocab ≤ t)) then some rToken
  else none

/-- Records handled in order: number of the next, skipped so far, and the first SKIPPED_REF record. -/
def State.lsfRecords (s : State) (c : CmdRef) (w : Who) (p h slot dst : Nat) (bad : Option Nat) :
    List LsfRec → Nat → Nat → Option (Nat × Nat) → State
  | [], k, skipped, ref =>
    let out (st d : Nat) : State := s.endCmd c { status := st, detail := d, c0 := k, c1 := skipped, out := [] }
    match bad with
    | some off => out stDecodeCorrupt (decodeDetail k rLength off)
    | none =>
      if skipped = 0 then out stOk 0
      else out stRefMissing (match ref with
        | none => 0
        | some (r, i) => r + i * 2 ^ 32)
  | r :: rs, k, skipped, ref =>
    let out (t : State) (st d : Nat) : State := t.endCmd c { status := st, detail := d, c0 := k, c1 := skipped, out := [] }
    match (s.ctx p h).bind (fun y => y.lsfSlot slot) with
    | none => s
    | some x => match x.recordFault r with
      | some reason => out s stDecodeCorrupt (decodeDetail k reason r.off)
      | none =>
        let (st, toks) := x.handle r
        match s.writePieces w (x.pieces r dst k st toks) with
        | .wait => s
        | .bad e d s1 => out s1 e d
        | .ok _ s1 =>
          let s2 := (s1.setLsf p h slot (some (x.after r st toks))).granuleDone c
          s2.lsfRecords c w p h slot dst bad rs (k + 1) (if st = 0 then skipped else skipped + 1)
            (if st = 1 then ref.orElse (fun _ => some (r.ref, r.index)) else ref)

/-- The first failing offset of the block of OP_LSF_READ. -/
def lsfReadBad (k : Cmd) : Option Nat :=
  if 32 ≤ k.p 0 4 then some 0
  else if k.p 0xE 2 ≠ 0 then some 0xE
  else if k.p 0x10 6 % 256 ≠ 0 then some 0x10
  else if k.p 0x16 2 ≠ 0 then some 0x16
  else if k.p 0x18 4 = 0 ∨ 65535 < k.p 0x18 4 then some 0x18
  else if k.p 0x1C 4 ≠ 0 then some 0x1C
  else none

/-- An earlier OP_LSF_READ of the slot has been validated and has not ended (R527). -/
def State.lsfBehind (s : State) (c : CmdRef) (k : Cmd) : Bool :=
  (s.block c.block).cmds.any (fun j => decide (j.id < k.id) && j.opcode == 0x0503 && j.ctxField == k.ctxField &&
    j.p 0 4 % 16 == k.p 0 4 % 16 && (j.phase == CmdPhase.waiting || j.phase == CmdPhase.started))

/-- The slot as it takes the data: its present header, or the new one with a reference store charged to the quota; where
the header is invalid or does not fit, how the command ends. -/
def State.lsfOpen (s : State) (p h slot : Nat) (fresh : Bool) (hdr : Option LsfSlot) : Except Fin State :=
  if !fresh then .ok s
  else
    let s1 := s.clearLsf p h slot
    match hdr with
    | none => .ok s1
    | some x =>
      if !s1.fitsCtx p h x.storeBytes then .error (Fin.with stQuota 0)
      else match s1.placeFw p .decode h x.storeBytes 0x10000 with
        | none => .error (Fin.with stQuota 0)
        | some (f, s2) => .ok (s2.setLsf p h slot (some { x with base := f.base }))

/-- OP_LSF_READ (R527 to R530). -/
def State.lsfRead (s : State) (c : CmdRef) (k : Cmd) (p h : Nat) : State :=
  let slot := k.p 0 4 % 16
  let len := k.p 4 4
  let w := k.who c.block
  if s.lsfBehind c k then s
  else match lsfReadBad k with
  | some off => s.endCmd c (badDecode 0 off)
  | none =>
    if len = 0 then s.endCmd c (Fin.bare stOkEmpty)
    else match s.stage c p h len with
      | .tooBig => s.endCmd c noStaging
      | .wait => s
      | .fits => match s.readEng w (k.p 8 6) len with
        | .wait => s
        | .bad st d s1 => s1.endCmd c (Fin.with st d)
        | .ok bs s1 =>
          let old := (s1.ctx p h).bind (fun x => x.lsfSlot slot)
          let fresh := bitOf (k.p 0 4) 4 || old.isNone
          let hdr := if fresh then lsfHeader bs else old
          let start := if fresh then 64 else 0
          let (rs, bad) := match hdr with
            | none => ([], none)
            | some x => lsfWalk x bs (len + 1) start
          if k.p 0x18 4 < rs.length then
            s1.endCmd c (Fin.with stDecodeUnsupported (decodeDetail (k.p 0x18 4) rDst ((rs.map LsfRec.off).getD (k.p 0x18 4) 0)))
          else match s1.lsfOpen p h slot fresh hdr with
            | .error f => s1.endCmd c f
            | .ok s2 =>
              let s3 := (s2.startCmd c).updCmd c (fun j => { j with staged := len })
              if hdr.isNone then s3.endCmd c (Fin.with stDecodeCorrupt (decodeDetail 0 rLsfHeader 0))
              else s3.lsfRecords c w p h slot (k.p 0x10 6) bad rs 0 0 none

/-- OP_LSF_READ. -/
def execOpLsfRead (c : CmdRef) (s : State) : Out := .next (s.decodeGate c 0x0503 (fun t k p h => t.lsfRead c k p h))

/-! ### OP_LSF_WRITE (R531) -/

/-- The first failing offset of the block of OP_LSF_WRITE. -/
def lsfWriteBad (k : Cmd) : Option Nat :=
  let tb := k.p 0 1
  if tb = 0 ∨ 32 < tb then some 0
  else if k.p 1 1 ≠ 0 then some 1
  else if k.p 2 2 = 0 then some 2
  else if !gridOk (k.p 4 2) (k.p 6 2) then some 4
  else if 65535 < k.p 8 4 then some 8
  else if k.p 0x16 2 ≠ 0 then some 0x16
  else if k.p 0x1E 2 ≠ 0 then some 0x1E
  else if 2 ^ 32 < k.p 0x24 4 + k.p 8 4 then some 0x24
  else none

/-- One frame record of the output. -/
def lsfFrame (tb n index : Nat) (prev : Option (List Nat)) (g : List Nat) : List Byte :=
  let body : List Byte := match prev with
    | none => packTokens tb g
    | some q =>
      let ms := (List.range n).filter (fun i => q.getD i 0 != g.getD i 0)
      (List.range ((n + 7) / 8)).map (fun j => BitVec.ofNat 8 (((List.range 8).filter (fun b => ms.contains (8 * j + b))).map (fun b => 2 ^ b)).sum) ++
        packTokens tb (ms.map (fun i => g.getD i 0))
  leBytes 4 0x4C46524D ++ leBytes 4 (if prev.isSome then 1 else 0) ++ leBytes 4 index ++ leBytes 4 (if prev.isSome then index - 1 else 0) ++
    leBytes 4 body.length ++ leBytes 4 (crc32 body).toNat ++ leBytes 8 0 ++ body

/-- The container of token grids. -/
def lsfContainer (k : Cmd) (grids : List (List Nat)) : List Byte :=
  let tb := k.p 0 1
  let n := k.p 4 2 * k.p 6 2
  let hdr := leBytes 4 0x3146534C ++ leBytes 2 1 ++ leBytes 2 tb ++ leBytes 2 (k.p 4 2) ++ leBytes 2 (k.p 6 2) ++ leBytes 4 (k.p 0xC 4) ++
    leBytes 8 (k.p 0x28 8) ++ List.replicate 40 0#8
  hdr ++ (grids.zipIdx).flatMap (fun e =>
    lsfFrame tb n (k.p 0x24 4 + e.2) (if e.2 % k.p 2 2 = 0 then none else some (grids.getD (e.2 - 1) [])) e.1)

/-- The first token out of range: frame and staged-copy offset. -/
def lsfBadToken (k : Cmd) (n : Nat) (grids : List (List Nat)) : Option (Nat × Nat) :=
  let lim (t : Nat) : Bool := decide (2 ^ k.p 0 1 ≤ t) || (k.p 0xC 4 != 0 && decide (k.p 0xC 4 ≤ t))
  (grids.zipIdx).findSome? (fun e => (e.1.findIdx? lim).map (fun i => (e.2, 4 * (e.2 * n + i))))

/-- OP_LSF_WRITE (R531): the commit granule is the whole command. -/
def State.lsfWrite (s : State) (c : CmdRef) (k : Cmd) (p h : Nat) : State :=
  let n := k.p 4 2 * k.p 6 2
  let count := k.p 8 4
  let w := k.who c.block
  match lsfWriteBad k with
  | some off => s.endCmd c (badDecode 0 off)
  | none =>
    if count = 0 then s.endCmd c (Fin.bare stOkEmpty)
    else match s.stage c p h (4 * n * count) with
      | .tooBig => s.endCmd c noStaging
      | .wait => s
      | .fits =>
        let step := (4 * n + 255) / 256 * 256
        match s.stageAll w ((List.range count).map (fun i => (k.p 0x10 6 + i * step, 4 * n))) with
        | .wait => s
        | .bad st d s1 => s1.endCmd c (Fin.with st d)
        | .ok copies s1 =>
          let grids := copies.map (fun bs => (List.range n).map (fun i => field bs (4 * i) 4))
          if k.p 0x20 4 < 64 + count * (32 + (n + 7) / 8 + packedLen n (k.p 0 1)) then
            s1.endCmd c (Fin.with stDecodeUnsupported (decodeDetail 0 rDst 0x20))
          else match lsfBadToken k n grids with
            | some (f, o) => s1.endCmd c (Fin.with stDecodeCorrupt (decodeDetail f rToken o))
            | none =>
              let bs := lsfContainer k grids
              match s1.writePieces w [(k.p 0x18 6, bs)] with
              | .wait => s
              | .bad st d s2 => s2.endCmd c (Fin.with st d)
              | .ok _ s2 =>
                (((s2.startCmd c).updCmd c (fun j => { j with staged := 4 * n * count })).granuleDone c).endCmd c
                  { Fin.ok with c0 := count, c1 := bs.length }

/-- OP_LSF_WRITE. -/
def execOpLsfWrite (c : CmdRef) (s : State) : Out := .next (s.decodeGate c 0x0504 (fun t k p h => t.lsfWrite c k p h))

end Sys2Proof.Machine
end

