-- ==== Sys2Proof/Machine/MemCmds.lean ====
section
/-! DEFINITION. Region commands (R341 to R347), OP_MEM_CLASS (R350), OP_MEM_COPY (R450), patrol scrub and channel sparing
(R336 to R340). -/

namespace Sys2Proof.Machine

/-! ### OP_REGION_CREATE and its scrub (R341, R342, R347) -/

/-- A region as its command describes it; COFF comes from step 5. -/
def Cmd.region (k : Cmd) (c : CmdRef) : Region :=
  let w := k.p 0 4
  { mode := w % 4, stack := bitsOf w 4 2, chan := bitsOf w 9 5, owner := if bitOf w 10 then none else k.ctxOf, base := k.p 8 6,
    size := k.p 0x10 6, coff := 0, ready := false, by_ := some (c.block, c.id) }

/-- Step 1 of R342. -/
def regionFields (k : Cmd) (x : Partition) (r : Region) (ctxScope : Bool) : Bool :=
  let n := modeChans r.mode x.chans.length
  decide (k.p 0 4 < 2 ^ 11) && k.p 4 4 == 0 && k.p 0xE 2 == 0 && k.p 0x16 2 == 0 && k.p 0x18 8 == 0 &&
    (if r.mode = 1 ∨ r.mode = 2 then decide (r.stack < 6) else r.stack == 0) &&
    (if r.mode = 2 then x.chans.contains r.chan else r.chan == 0) &&
    r.base % 0x10000 == 0 && decide (0 < r.size) && r.size % (0x10000 * n) == 0 && (r.owner.isNone || ctxScope) &&
    (bitOf (k.p 0 4) 10 || ctxScope)

/-- The lowest free descriptor. -/
def Partition.freeDescriptor (x : Partition) : Option Nat := (List.range 16).find? (fun i => (SMap.get none x.regions i).isNone)

/-- OP_REGION_CREATE (R341, R342): the checks in order; the region is reachable after its scrub. -/
def State.regionCreate (s : State) (c : CmdRef) (k : Cmd) (p h : Nat) : State :=
  match s.part p with
  | none => s
  | some x =>
    let r := k.region c
    if !regionFields k x r (decide (h ≠ 0xFFFF)) then s.endCmd c (Fin.bare stRegionParam)
    else if !x.inWindow r.base r.size ∨ x.overlaps r.base r.size = true then s.endCmd c (Fin.bare stRegionOverlap)
    else match x.freeDescriptor with
      | none => s.endCmd c (Fin.bare stRegionFull)
      | some i =>
        let room := match r.owner with
          | none => s.fitsPart p r.size
          | some o => s.fitsCtx p o r.size
        if !room then s.endCmd c (quotaFin 1)
        else match x.lowestOffset r.backing with
          | none => s.endCmd c (quotaFin 2)
          | some off =>
            (s.startCmd c).updPart p (fun y => { y with regions := SMap.set none y.regions i (some { r with coff := off }) })

/-- OP_REGION_CREATE. -/
def execOpRegionCreate (c : CmdRef) (s : State) : Out := .next (s.gate c 0x0401 false (fun t k p h => t.regionCreate c k p h))

/-- ALLOCATION_SCRUB_DONE (R342, R347): the region holds zeros, is reachable, and its command completes. -/
def execAllocationScrubDone (part : Nat) (region : Nat) (s : State) : Out :=
  .next (match s.part part with
    | none => s
    | some x => match SMap.get none x.regions region with
      | none => s
      | some r =>
        if r.ready then s
        else
          let s1 := s.scrubBacking x r.backing
          let s2 := s1.updPart part (fun y => { y with
            regions := SMap.set none y.regions region (some { r with ready := true, by_ := none }) })
          match r.by_ with
          | none => s2
          | some c => s2.finish { block := c.1, id := c.2 } { Fin.ok with c0 := r.coff, c1 := region })

/-! ### OP_REGION_DESTROY (R343) -/

/-- Every context that a destroy must find at a command boundary. -/
def State.regionBoundary (s : State) (c : CmdRef) (p : Nat) (r : Region) : Bool :=
  match r.owner with
  | some o => s.atBoundary c p o
  | none => match s.part p with
    | none => true
    | some x => x.ctxs.all (fun e => s.atBoundary c p e.1)

/-- OP_REGION_DESTROY (R343): at a command boundary; in a confidential partition the storage is scrubbed first. -/
def State.regionDestroy (s : State) (c : CmdRef) (k : Cmd) (p h : Nat) : State :=
  match s.part p with
  | none => s
  | some x =>
    let i := k.p 0 4
    let r? : Option Region := if 15 < i then none else SMap.get none x.regions i
    match r? with
    | none => s.endCmd c (Fin.bare stRegionParam)
    | some r =>
      let mine := if h = 0xFFFF then r.owner.isNone else r.owner == some h
      if !mine ∨ !r.ready then s.endCmd c (Fin.bare stRegionParam)
      else if !s.regionBoundary c p r then s
      else
        let s1 := if x.confidential then s.scrubBacking x r.backing else s
        (s1.updPart p (fun y => { y with regions := SMap.set none y.regions i none })).endCmd c Fin.ok

/-- OP_REGION_DESTROY. -/
def execOpRegionDestroy (c : CmdRef) (s : State) : Out := .next (s.gate c 0x0402 false (fun t k p h => t.regionDestroy c k p h))

/-! ### OP_MEM_CLASS and OP_MEM_COPY (R350, R450) -/

/-- OP_MEM_CLASS (R350). -/
def execOpMemClass (c : CmdRef) (s : State) : Out :=
  .next (s.gate c 0x0403 false (fun t k p _ =>
    if 16 ≤ k.p 0 4 then t.endCmd c k.badBlock
    else (t.updPart p (fun x => { x with ucap := BitVec.ofNat 4 (k.p 0 4) })).endCmd c Fin.ok))

/-- Granules of OP_MEM_COPY still to be copied, one after another (R450, R467). -/
def State.copyGranules (s : State) (c : CmdRef) (w : Who) (src dst len : Nat) : List Nat → State
  | [] => s.endCmd c { Fin.ok with c0 := (len + 65535) / 65536 }
  | i :: is =>
    let n := min 65536 (len - 65536 * i)
    match s.readEng w (src + 65536 * i) n with
    | .wait => s
    | .bad st d s1 => s1.failCmd c st d
    | .ok bs s1 => match s1.writeEng w (dst + 65536 * i) bs with
      | .wait => s
      | .bad st d s2 => s2.failCmd c st d
      | .ok _ s2 =>
        (s2.updCmd c (fun k => { k with granules := k.granules + 1, progress := k.progress + 1 })).copyGranules c w src dst len is

/-- OP_MEM_COPY (R450). -/
def State.memCopy (s : State) (c : CmdRef) (k : Cmd) : State :=
  let src := k.p 0 6
  let dst := k.p 8 6
  let len := k.p 0x10 8
  let bad := k.p 6 2 != 0 || k.p 0xE 2 != 0 || decide (2 ≤ k.p 0x18 8) || decide (2 ^ 40 < len) ||
    decide (src < dst + len ∧ dst < src + len)
  if bad then s.endCmd c (Fin.bare stMemParam)
  else if len = 0 then s.endCmd c (Fin.bare stOkEmpty)
  else s.copyGranules c (k.who c.block) src dst len
    ((List.range ((len + 65535) / 65536 - k.progress)).map (fun i => k.progress + i))

/-- OP_MEM_COPY. -/
def execOpMemCopy (c : CmdRef) (s : State) : Out := .next (s.gate c 0x0404 false (fun t k _ _ => t.memCopy c k))

/-! ### Patrol scrub and sparing (R336 to R340) -/

/-- A codeword of the firmware reserve (R330). -/
def inReserve (codeword : Nat) : Bool := decide (0x7F800000 ≤ codeword * 64)

/-- An uncorrectable codeword of the reserve may hold part of the flash map; the layout of the reserve is not stated, so a
free value decides (notes/assumptions/2.md). Its pair's map waits for a rebuild (R336). -/
def State.reserveLost (s : State) (chan : Nat) : State :=
  let (w, s1) := s.takeFree
  let k := chan / 4
  let x := SMap.get FlashPair.fresh s1.flash.pairs k
  if w.getLsbD 0 then { s1 with flash := { s1.flash with pairs := SMap.set FlashPair.fresh s1.flash.pairs k { x with mapLost := true } } }
  else s1

/-- PATROL_SCRUB_READ (R333, R334, R336 to R338, R340): corrects or poisons, and ends no command. -/
def execPatrolScrubRead (stack : Nat) (chan : Nat) (codeword : Nat) (err : SymErr) (s : State) : Out :=
  .next (
    let s0 := if err.symbols = 0 then s else s.setLatent stack chan codeword err
    match s0.readCodeword stack chan codeword with
    | (.delivered, s1) => s1
    | (.lost _, s1) => if inReserve codeword ∧ chan < 32 then s1.reserveLost chan else s1)

/-- The sparing copy reads every codeword of a channel with correction (R338): the errors that stand in it are met, and a
codeword that is lost is poisoned in the spare. -/
def State.copyReads (s : State) (stack chan : Nat) : State :=
  s.mem.latent.foldl (fun t e =>
    if e.1 / 2 ^ 25 = chanKey stack chan then (t.readCodeword stack chan (e.1 % 2 ^ 25)).2 else t) s

/-- SPARING_COPY_DONE (R338, R339): reads move to the spare, the failing channel is retired, and the sparing is logged. -/
def execSparingCopyDone (stack : Nat) (chan : Nat) (s : State) : Out :=
  .next (
    let ch := s.chan stack chan
    match ch.copying with
    | none => s
    | some k =>
      let s0 := s.copyReads stack chan
      let s1 := (s0.setChan stack chan { s0.chan stack chan with
        spare := some k, past := ch.past ++ ch.spare.toList, copying := none, retired := true, answers := true, resets := 0 }).releaseHeld
          (chanKey stack chan)
      (s1.record { EventRec.plain 0x0303 with unit := chanUnit stack chan }).noteStatus)

end Sys2Proof.Machine
end

