-- ==== Sys2Proof/Machine/StewardCmds.lean ====
section
/-! DEFINITION. The Steward at work (chapter 18): OP_INVENTORY, OP_SENSOR_READ and OP_EVENT_READ (R575, R582, R583), the
persistent log (R581), lockstep and watchdog (R566, R590, R591), and the end of a Steward-only reset (R567, R579, R591). -/

namespace Sys2Proof.Machine

/-! ### Records -/

/-- The 64 bytes of an event record (R577). -/
def EventRec.bytes (e : EventRec) : List Byte :=
  leBytes 8 e.seq ++ leBytes 8 e.time ++
    leBytes 4 (e.code % 2 ^ 16 + e.sev % 8 * 2 ^ 16 + bitAt e.redacted 19 + e.part % 16 * 2 ^ 24) ++ leBytes 4 e.unit ++
    leBytes 8 e.detail ++ leBytes 4 e.count ++ leBytes 4 e.tag ++ leBytes 16 e.reporters ++ leBytes 6 e.addr ++ leBytes 2 0

/-- Bytes of a log entry that its MAC covers (R581). -/
def LogEntry.body (l : LogEntry) : List Byte := l.ev.bytes ++ leBytes 8 l.boot ++ leBytes 8 0

/-- What a log entry returns: its record, or the mark of an entry whose MAC fails (R581). -/
def LogEntry.record (l : LogEntry) : List Byte :=
  if Config.logMac l.body = l.mac then l.ev.bytes
  else ({ EventRec.plain 0 with seq := l.ev.seq, sev := 4, part := 0, count := 0 } : EventRec).bytes

/-- LOG_WRITE (R581): the oldest queued event enters the log; a full log loses its oldest entry. -/
def execLogWrite (s : State) : Out :=
  .next (match s.stw.logQueue with
    | [] => s
    | e :: es =>
      if !s.stw.running then s
      else
        let l : LogEntry := { ev := e, boot := s.stw.bootCount, mac := 0 }
        let l := { l with mac := Config.logMac l.body }
        let log := s.stw.log ++ [l]
        { s with stw := { s.stw with logQueue := es, log := log.drop (log.length - 524288) } })

/-! ### OP_INVENTORY (R583) -/

/-- Columns of a die whose spare is in use: its gap core does not work (DEDUCED, notes/assumptions/26.md). -/
def State.sparesInUse (s : State) (d : Nat) : Nat := ((List.range 8).filter (fun c => !s.gapWorks d c)).length

/-- Whether the spare channel j of a stack is in use for a channel of some die pair that `own` admits. -/
def State.spareChanInUse (s : State) (stack j : Nat) (own : Nat → Bool) : Bool :=
  (List.range 32).any (fun c =>
    let ch := SMap.get Chan.reset s.mem.chans (stack * 34 + c)
    own (c / 4) && (ch.spare == some (32 + j) || ch.copying == some (32 + j)))

/-- Words of a firmware kind (R583). -/
def State.fwRecord (s : State) (k : Nat) : List Byte :=
  let x := s.fwKind k
  let b := if x.phase = .trial then !x.committedB else x.committedB
  let st := match x.phase with
    | .committed => 0
    | .staged => 1
    | .trial => 2
  leBytes 4 (imgVersion x.slotA) ++ leBytes 4 (imgVersion x.slotB) ++
    leBytes 8 (bitAt b 0 + st * 2 + s.fusedSvn k % 256 * 2 ^ 8 + imgSvn x.slotA * 2 ^ 16 + imgSvn x.slotB * 2 ^ 24)

/-- The 128-byte record. `part` limits bytes 0x50 to 0x5F to a partition's dies, their pairs' channels and the span ports of
its dies. -/
def State.inventory (s : State) (part : Option Partition) : List Byte :=
  let pair (k : Nat) : Bool := match part with
    | none => true
    | some x => bitOf x.pairMask.toNat k
  leBytes 4 engId ++ leBytes 4 engRev ++ leBytes 8 Config.serial.toNat ++ leBytes 4 s.lcFuses ++ leBytes 4 s.glbStatus ++
    leBytes 8 s.sec.lastAuthSeq ++ (List.range 3).flatMap s.fwRecord ++
    leBytes 8 ((List.range 16).foldl (fun m d => m + if pair (d / 2) then s.sparesInUse d * 2 ^ (4 * d) else 0) 0) ++
    leBytes 4 (maskOf 12 (fun i => s.spareChanInUse (i / 2) (i % 2) pair)) ++
    leBytes 4 (maskOf 32 (fun q => pair (q / 4) && (s.port q).spareUsed)) ++
    leBytes 8 s.stw.bootCount ++ leBytes 8 s.stw.nextSeq ++ leBytes 16 0

/-- OP_INVENTORY (R440, R583). -/
def execOpInventory (c : CmdRef) (s : State) : Out :=
  .next (s.gate c 0x0701 false (fun t k _ _ =>
    if k.p 6 2 ≠ 0 then t.endCmd c k.badBlock
    else t.finishOut c k (k.p 0 6) (t.inventory ((partOfBlock c.block).bind t.part)) Fin.ok))

/-! ### OP_SENSOR_READ (R575) -/

/-- CLEAR: MAX starts again from the present VALUE (DEDUCED, notes/assumptions/26.md). -/
def State.clearMax (s : State) (ids : List Nat) : State :=
  (ids.filter (fun i => sensorType i != 0xF)).foldl (fun t i => t.setSensor i { t.sensor i with
    max := (t.sensor i).max.map (fun _ => (t.sensor i).value) }) s

/-- OP_SENSOR_READ. -/
def State.sensorRead (s : State) (c : CmdRef) (k : Cmd) : State :=
  let first := k.p 0 2
  let n := k.p 2 2
  if 2 ≤ k.p 4 4 ∨ k.p 0xE 2 ≠ 0 ∨ n = 0 ∨ 256 < n then s.endCmd c k.badBlock
  else
    let ids := (List.range n).map (fun i => (first + i) % 0x10000)
    match s.output c (k.who c.block) (k.p 8 6) (ids.flatMap s.sensorRecord) { Fin.ok with c0 := n } with
    | (s1, none) => s1
    | (s1, some f) => (if k.p 4 4 = 1 ∧ f.status = stOk then s1.clearMax ids else s1).endCmd c f

/-- OP_SENSOR_READ (R440, R554, R575). -/
def execOpSensorRead (c : CmdRef) (s : State) : Out := .next (s.gate c 0x0702 false (fun t k _ _ => t.sensorRead c k))

/-! ### OP_EVENT_READ (R582) -/

/-- SEQ and bytes of each record a source holds at or above a SEQ, in SEQ order. -/
def State.eventsFrom (s : State) (log : Bool) (from_ : Nat) : List (Nat × List Byte) :=
  if log then (s.stw.log.filter (fun l => decide (from_ ≤ l.ev.seq))).map (fun l => (l.ev.seq, l.record))
  else (s.stw.ring.filter (fun e => decide (from_ ≤ e.seq))).map (fun e => (e.seq, e.bytes))

/-- OP_EVENT_READ. SEQs of a restart's gap count as no longer held (DEDUCED, notes/assumptions/26.md). -/
def State.eventRead (s : State) (c : CmdRef) (k : Cmd) : State :=
  let from_ := k.p 0 8
  let n := k.p 8 2
  let w := k.p 0xA 2
  let log := bitOf w 0
  let ack := bitOf w 1
  if 4 ≤ w ∨ k.p 0xC 4 ≠ 0 ∨ k.p 0x16 2 ≠ 0 ∨ n = 0 ∨ 64 < n ∨ (ack && (log || c.block != 0)) then s.endCmd c k.badBlock
  else
    let rs := (s.eventsFrom log from_).take n
    let missed := match rs with
      | [] => 0
      | r :: _ => r.1 - from_
    match s.output c (k.who c.block) (k.p 0x10 6) (rs.flatMap (fun r => r.2)) { Fin.ok with c0 := rs.length, c1 := missed } with
    | (s1, none) => s1
    | (s1, some f) =>
      let s2 := match ack && decide (f.status = stOk), rs.getLast? with
        | true, some r => { s1 with stw := { s1.stw with evtCons := BitVec.ofNat 32 (r.1 + 1) } }
        | _, _ => s1
      s2.endCmd c f

/-- OP_EVENT_READ (R440, R582). -/
def execOpEventRead (c : CmdRef) (s : State) : Out := .next (s.gate c 0x0703 false (fun t k _ _ => t.eventRead c k))

/-! ### Lockstep, watchdog and restart (R566, R590, R591) -/

/-- LOCKSTEP_MISMATCH (R566, R590): a Steward-only reset; the third mismatch within 24 h tests both processors, and one that
fails is retired. A single processor compares nothing. -/
def execLockstepMismatch (testPass : Bool) (s : State) : Out :=
  .next (
    if !s.stw.running ∨ s.stewardSingle then s
    else
      let recent := s.tb.now :: s.stw.mismatches.filter (fun t => decide (s.tb.now ≤ t + dayNs))
      let third := decide (3 ≤ recent.length)
      let s1 := { s.trialRevert with stw := { s.trialRevert.stw with mismatches := recent } }
      let s2 := s1.stewardReset 2
      if third ∧ testPass = false then
        (({ s2 with stw := { s2.stw with single := true } }).record (EventRec.plain 0x0907)).noteStatus
      else s2)

/-- STEWARD_WATCHDOG (R590, R591): 1 s without a heartbeat. -/
def execStewardWatchdog (s : State) : Out :=
  .next (if s.stw.running then s.trialRevert.stewardReset 4 else s)

/-- At a start of the Steward, the first SEQ is the recorded bound plus 65,536, and the new bound lies 65,536 above it
(R579). -/
def State.seqRestart (s : State) : State :=
  let first := s.stw.seqBound + 65536
  { s with stw := { s.stw with nextSeq := first, seqBound := first + 65536 } }

/-- Events that waited for the Steward are recorded (R567). -/
def State.enterWaiting (s : State) : State :=
  s.stw.waiting.foldl (fun t e => t.enterEvent e) { s with stw := { s.stw with waiting := [] } }

/-- Sparing triggers that waited for the Steward (R567). -/
def State.startWaitingSparing (s : State) : State :=
  (List.range 204).foldl (fun t i => if (SMap.get Chan.reset t.mem.chans i).spareDue then t.startSparing (i / 34) (i % 34) else t) s

/-- Resets of channels reported while the Steward was not running (R567, R655, R659). -/
def State.startWaitingResets (s : State) : State :=
  (s.stw.coal.filter (fun e => e.first.code == 0x0305)).foldl (fun t e =>
    let stack := e.first.unit / 2 ^ 28
    let chan := e.first.unit / 2 ^ 22 % 64
    if (t.chan stack chan).answers then t else t.startChanReset stack chan) s

/-- OP_RESET commands of TYPE 3 that wait for the Steward (R684). -/
def State.endStewardResets (s : State) : State :=
  ((s.block 0).cmds.filter (fun k => k.opcode == 0x0707 && k.phase == CmdPhase.started && k.p 0 4 == 3)).foldl
    (fun t k => t.endCmd { block := 0, id := k.id } Fin.ok) s

/-- A Steward in recovery mode boots the new slot after an update (R671, R672): the committed slot if it holds an image that
passes, otherwise the other one, which then counts as committed. -/
def State.recoveryReboot (s : State) : State :=
  let x := s.fwKind 0
  let ok (img : List Byte) : Bool := decide (img ≠ []) && (s.imgFault img 0 img.length).isNone
  if s.start.phase ≠ .recovery then s
  else if ok x.committedImg then { s with start := { s.start with phase := .aux, altSlot := false, bootSrc := if x.committedB then 1 else 0 } }
  else if ok x.otherImg then
    (({ s with start := { s.start with phase := .aux, altSlot := true, bootSrc := if x.committedB then 0 else 1 } }).updFwKind 0 (fun y => { y with
      committedB := !y.committedB, phase := .committed, byPldm := false })).event 0x0904
  else s

/-- STEWARD_RESTART_DONE (R567, R579, R591): the Steward runs again, logs the reset and what waited, starts what waited, and
completes the commands that asked for the reset. -/
def execStewardRestartDone (dt : Nat) (s : State) : Out :=
  .next (
    let s0 := s.tick dt
    if !s0.stw.resetting then s0
    else
      let cause := s0.stw.lastCause
      let s1 := ({ s0 with stw := { s0.stw with running := true, resetting := false } }).seqRestart
      let waiting := s1.stw.waiting
      let s2 := ({ s1 with stw := { s1.stw with waiting := [] } }).record
        { EventRec.plain 0x0905 with detail := (Config.stewardCause cause).toNat }
      let s3 := if cause = 2 then s2.event 0x0906 else s2
      let s4 := ({ s3 with stw := { s3.stw with waiting := waiting } }).enterWaiting
      let s5 := (s4.recoveryReboot.startWaitingSparing.startWaitingResets).endStewardResets
      ((s5.fwAdvance fwRounds).noteStatus).settle)

end Sys2Proof.Machine
end

