-- ==== Sys2Proof/Machine/Mgmt.lean ====
section
/-! DEFINITION. The MGMT and DEBUG ports: MCTP control, PLDM and command packets (R402, R440, R576, R586). Codes and layouts of
MCTP and PLDM come from the DMTF documents that R576 names (PRESUMED, notes/assumptions/28.md). -/

namespace Sys2Proof.Machine

/-! ### MCTP control -/

/-- MCTP control is answered by the Steward, and by the hub ROM while no source boots (R671). -/
def State.mctpServes (s : State) : Bool := s.stw.running || s.start.phase == .romRetry

/-- Answer an MCTP control message. -/
def State.mctp (s : State) (bs : List Byte) : State := if s.mctpServes then s.answer bs else s

/-- SET_ENDPOINT_ID (R576): operations 0 and 1 set an ID from 8 to 254; the port has no static ID and no discovered flag. -/
def execSetEndpointId (op : Nat) (eid : Nat) (s : State) : Out :=
  .next (
    if !s.mctpServes then s
    else if 2 ≤ op ∨ eid < 8 ∨ 254 < eid then s.answer [0x02#8]
    else ({ s with mgmt := { s.mgmt with eid := eid } }).answer [0x00#8, 0x00#8, BitVec.ofNat 8 eid, 0x00#8])

/-- GET_ENDPOINT_ID (R576). -/
def execGetEndpointId (s : State) : Out := .next (s.mctp [0x00#8, BitVec.ofNat 8 s.mgmt.eid, 0x00#8, 0x00#8])

/-- Message types: MCTP control, PLDM, vendor-defined PCI (R576). -/
def mctpTypes : List Nat := [0x00, 0x01, 0x7E]

/-- GET_MCTP_VERSION_SUPPORT (R576): 0xFF asks for the base protocol. -/
def execGetMctpVersionSupport (ty : Nat) (s : State) : Out :=
  .next (s.mctp (if ty = 0xFF ∨ ty ∈ mctpTypes then [0x00#8, 0x01#8, 0xF1#8, 0xF3#8, 0xF1#8, 0x00#8] else [0x80#8]))

/-- GET_MESSAGE_TYPE_SUPPORT (R576). -/
def execGetMessageTypeSupport (s : State) : Out :=
  .next (s.mctp ([0x00#8, BitVec.ofNat 8 mctpTypes.length] ++ mctpTypes.map (fun t => BitVec.ofNat 8 t)))

/-! ### Command packets (R440) -/

/-- Put the packet of MGMT (9) or DEBUG (10) in flight; a packet that meets another is refused with bit [21]. -/
def State.takePacket (s : State) (b : Nat) (packet : List Byte) : State :=
  let q := s.block b
  let c : CmdRef := { block := b, id := q.nextId }
  let k := Cmd.copied q.nextId 0 packet 0
  let s1 := s.updBlock b (fun x => { x with cmds := x.cmds ++ [k], nextId := x.nextId + 1 })
  if !q.cmds.isEmpty then s1.deny c k (2 ^ 21)
  else if 4096 < k.paramLen then s1.endCmd c (Fin.with stHeaderInvalid 4)
  else s1.settle

/-- MGMT_COMMAND_PACKET (R402, R440): one command packet on MGMT, or on DEBUG, while the Steward runs. -/
def execMgmtCommandPacket (debug : Bool) (packet : List Byte) (s : State) : Out :=
  .next (if s.stw.running then s.takePacket (if debug then 10 else 9) packet else s)

/-! ### PLDM (R576) -/

/-- Answer a PLDM command: the Steward does. -/
def State.pldm (s : State) (bs : List Byte) : State := if s.stw.running then s.answer bs else s

/-- Completion codes. -/
def pldmOk : Byte := 0x00#8
def pldmUnsupportedCmd : Byte := 0x05#8
def pldmBadType : Byte := 0x83#8
def pldmNotInUpdate : Byte := 0x80#8
def pldmAlready : Byte := 0x81#8
def pldmBadState : Byte := 0x84#8
def pldmIncomplete : Byte := 0x85#8

/-- GET_TID (R576): no command sets the terminus ID, which stays 0. -/
def execGetTid (s : State) : Out := .next (s.pldm [pldmOk, 0x00#8])

/-- Versions: Type 2 is 1.2, Type 5 is 1.1 (R576). -/
def pldmVersion (ty : Nat) : Option Nat :=
  if ty = 0 then some 0xF1F0F000 else if ty = 2 then some 0xF1F2F000 else if ty = 5 then some 0xF1F1F000 else none

/-- GET_PLDM_VERSION (R576). -/
def execGetPldmVersion (ty : Nat) (s : State) : Out :=
  .next (s.pldm (match pldmVersion ty with
    | none => [pldmBadType]
    | some v => [pldmOk] ++ leBytes 4 0 ++ [0x05#8] ++ leBytes 4 v))

/-- GET_PLDM_TYPES (R576): 0, 2 and 5. -/
def execGetPldmTypes (s : State) : Out := .next (s.pldm ([pldmOk] ++ leBytes 8 (2 ^ 0 + 2 ^ 2 + 2 ^ 5)))

/-- Command codes of a type. -/
def pldmCommands (ty : Nat) : Option (List Nat) :=
  if ty = 0 then some [0x02, 0x03, 0x04, 0x05]
  else if ty = 2 then some [0x0B, 0x11, 0x50, 0x51]
  else if ty = 5 then some [0x01, 0x02, 0x10, 0x13, 0x14, 0x15, 0x16, 0x17, 0x18, 0x1A, 0x1B, 0x1C, 0x1D]
  else none

/-- GET_PLDM_COMMANDS (R576). -/
def execGetPldmCommands (ty : Nat) (s : State) : Out :=
  .next (s.pldm (match pldmCommands ty with
    | none => [pldmBadType]
    | some cs => [pldmOk] ++ leBytes 32 ((cs.map (fun c => 2 ^ c)).sum)))

/-- PLDM_UNSUPPORTED (R576). -/
def execPldmUnsupported (_ty : Nat) (_cmd : Nat) (s : State) : Out := .next (s.pldm [pldmUnsupportedCmd])

/-! ### PLDM platform monitoring (R576) -/

/-- GET_PDR_REPOSITORY_INFO (R576): one record for each sensor of R573. -/
def execGetPdrRepositoryInfo (s : State) : Out := .next (s.pldm ([pldmOk, 0x00#8] ++ leBytes 4 sensorIds.length))

/-- GET_PDR (R576): record handles are PLDM sensor IDs, ID + 1; handle 0 names the first record. -/
def execGetPdr (record : Nat) (s : State) : Out :=
  .next (s.pldm (
    let id := if record = 0 then 0 else record - 1
    if sensorType id = 0xF then [0x82#8]
    else
      let next := match sensorIds.find? (fun i => decide (id < i)) with
        | none => 0
        | some i => i + 1
      [pldmOk] ++ leBytes 4 next ++ leBytes 4 (id + 1) ++ leBytes 2 (id + 1) ++ leBytes 2 (sensorType id)))

/-- GET_SENSOR_READING (R576): PLDM sensorID = ID + 1, with the values of R575. -/
def execGetSensorReading (sensor : Nat) (s : State) : Out :=
  .next (s.pldm (
    if sensor = 0 ∨ sensorType (sensor - 1) = 0xF then [0x80#8] else [pldmOk] ++ s.sensorRecord (sensor - 1)))

/-- The oldest event at or above a SEQ that the ring holds. -/
def State.eventAt (s : State) (seq : Nat) : Option EventRec := s.stw.ring.find? (fun e => decide (seq ≤ e.seq))

/-- POLL_FOR_PLATFORM_EVENT_MESSAGE (R576): the event that was returned before is acknowledged, and the next one returned. -/
def execPollForPlatformEventMessage (ack : Bool) (s : State) : Out :=
  .next (
    if !s.stw.running then s
    else
      let s1 := match ack, s.eventAt s.mgmt.pollSeq with
        | true, some e => { s with mgmt := { s.mgmt with pollSeq := e.seq + 1 } }
        | _, _ => s
      s1.answer (match s1.eventAt s1.mgmt.pollSeq with
        | none => [pldmOk, 0x00#8]
        | some e => [pldmOk] ++ e.bytes))

/-! ### PLDM firmware update (R576, R586, R672) -/

/-- Replace the management state. -/
def State.setMgmt (s : State) (m : MgmtState) : State := { s with mgmt := m }

/-- Component identifiers that may be updated: all three kinds, in recovery mode the Steward alone (R586, R672). -/
def State.compOk (s : State) (comp : Nat) : Bool :=
  if s.start.phase = .recovery then comp == 1 else decide (1 ≤ comp ∧ comp ≤ 3)

/-- QUERY_DEVICE_IDENTIFIERS (R576): the identity of R37. -/
def execQueryDeviceIdentifiers (s : State) : Out := .next (s.pldm ([pldmOk] ++ leBytes 4 engId ++ leBytes 4 engRev))

/-- GET_FIRMWARE_PARAMETERS (R576, R586): identifier, version that runs, and version that is staged, of each component. -/
def execGetFirmwareParameters (s : State) : Out :=
  .next (s.pldm ([pldmOk, 0x03#8] ++ (List.range 3).flatMap (fun k =>
    let x := s.fwKind k
    leBytes 2 (k + 1) ++ leBytes 4 (imgVersion x.running) ++
      leBytes 4 (if x.phase = .staged then imgVersion x.otherImg else 0))))

/-- REQUEST_UPDATE (R586). -/
def execRequestUpdate (s : State) : Out :=
  .next (
    if !s.stw.running then s
    else if s.mgmt.upd ≠ .idle ∨ s.fw.change.isSome ∨ s.anyTrial then s.answer [pldmAlready]
    else (s.setMgmt { s.mgmt with upd := .learn, table := [], comp := none, compSize := 0, data := [], applied := [] }).answer [pldmOk])

/-- A command of an update that needs a state: refused outside update mode and in another state. -/
def State.inUpdate (s : State) (ok : Bool) (yes : State → State) : State :=
  if !s.stw.running then s
  else if s.mgmt.upd = .idle then s.answer [pldmNotInUpdate]
  else if ok then yes s
  else s.answer [pldmBadState]

/-- PASS_COMPONENT_TABLE (R576). -/
def execPassComponentTable (comps : List Nat) (s : State) : Out :=
  .next (s.inUpdate (s.mgmt.upd == .learn) (fun t =>
    (t.setMgmt { t.mgmt with upd := .ready, table := comps.filter t.compOk }).answer
      ([pldmOk] ++ comps.map (fun c => if t.compOk c then 0x00#8 else 0x01#8))))

/-- UPDATE_COMPONENT (R584, R586): a component of the table, with a size of R584; the engine then requests its data. -/
def execUpdateComponent (comp : Nat) (size : Nat) (s : State) : Out :=
  .next (s.inUpdate (s.mgmt.upd == .ready) (fun t =>
    if t.mgmt.table.contains comp && imgSizeOk size then
      (t.setMgmt { t.mgmt with upd := .download, comp := some comp, compSize := size, data := [], verifyCode := 0, applyCode := 0 }).answer
        [pldmOk, 0x00#8]
    else t.answer [pldmOk, 0x01#8]))

/-- REQUEST_FIRMWARE_DATA_RESPONSE (R586): the block that the engine asked for, the next bytes of the component. -/
def execRequestFirmwareDataResponse (off : Nat) (data : List Byte) (s : State) : Out :=
  .next (
    if s.stw.running ∧ s.mgmt.upd = .download ∧ off = s.mgmt.data.length then
      s.setMgmt { s.mgmt with data := (s.mgmt.data ++ data).take s.mgmt.compSize }
    else s)

/-- TRANSFER_COMPLETE (R576): with result 0 once every byte has arrived, and verification begins. -/
def execTransferComplete (result : Nat) (s : State) : Out :=
  .next (
    if s.stw.running ∧ s.mgmt.upd = .download then
      if result = 0 then
        if s.mgmt.data.length = s.mgmt.compSize then (s.setMgmt { s.mgmt with upd := .verify }).answer [0x00#8] else s
      else s.answer [BitVec.ofNat 8 result]
    else s)

/-- VERIFY_COMPLETE (R585, R586): steps 4 to 6 on the data. After a failure the component waits to be cancelled. -/
def execVerifyComplete (s : State) : Out :=
  .next (match s.mgmt.comp with
    | none => s
    | some comp =>
      if s.stw.running ∧ s.mgmt.upd = .verify then
        match s.imgFault s.mgmt.data (comp - 1) s.mgmt.compSize with
        | none => (s.setMgmt { s.mgmt with upd := .apply, verifyCode := 0 }).answer [0x00#8]
        | some (st, _) => (s.setMgmt { s.mgmt with verifyCode := st }).answer [0x01#8]
      else s)

/-- APPLY_COMPLETE (R585, R586): step 7. -/
def execApplyComplete (slotBad : Bool) (s : State) : Out :=
  .next (match s.mgmt.comp with
    | none => s
    | some comp =>
      if s.stw.running ∧ s.mgmt.upd = .apply then
        if slotBad then (s.setMgmt { s.mgmt with applyCode := stFwState }).answer [0x01#8]
        else
          let s1 := s.stageImage (comp - 1) s.mgmt.data
          (s1.setMgmt { s1.mgmt with
            upd := .ready, comp := none, data := [], applyCode := 0,
            applied := s1.mgmt.applied.filter (fun k => k != comp - 1) ++ [comp - 1] }).answer [0x00#8]
      else s)

/-- ACTIVATE_FIRMWARE (R586): every applied component, in the order die marshal, conductor, Steward. -/
def execActivateFirmware (s : State) : Out :=
  .next (s.inUpdate (s.mgmt.upd == .ready) (fun t =>
    if t.mgmt.applied.isEmpty then t.answer [pldmIncomplete]
    else (((t.answer [pldmOk]).setMgmt { t.mgmt with upd := .activate }).fwAdvance fwRounds).settle))

/-- Code of an update state. -/
def PldmUpd.code : PldmUpd → Nat
  | .idle => 0
  | .learn => 1
  | .ready => 2
  | .download => 3
  | .verify => 4
  | .apply => 5
  | .activate => 6

/-- GET_STATUS (R576): state, and the outcome of the latest verification and application. -/
def execGetStatus (s : State) : Out :=
  .next (s.pldm ([pldmOk] ++ leBytes 1 s.mgmt.upd.code ++ leBytes 2 s.mgmt.verifyCode ++ leBytes 2 s.mgmt.applyCode))

/-- A component is being transferred, verified or applied. -/
def MgmtState.busy (m : MgmtState) : Bool := m.upd == .download || m.upd == .verify || m.upd == .apply

/-- CANCEL_UPDATE_COMPONENT (R576). -/
def execCancelUpdateComponent (s : State) : Out :=
  .next (s.inUpdate s.mgmt.busy (fun t =>
    (t.setMgmt { t.mgmt with upd := .ready, comp := none, compSize := 0, data := [] }).answer [pldmOk]))

/-- CANCEL_UPDATE (R576): update mode ends; images already applied stay STAGED. -/
def execCancelUpdate (s : State) : Out :=
  .next (s.inUpdate (s.mgmt.upd != .activate) (fun t =>
    (t.setMgmt { t.mgmt with upd := .idle, table := [], comp := none, compSize := 0, data := [], applied := [] }).answer [pldmOk]))

end Sys2Proof.Machine
end

