-- ==== Sys2Proof/Machine/Startup.lean ====
section
/-! DEFINITION. Supplies, start-up and reset (chapter 22, R668 to R689), trips (R632 to R634), OP_RESET (R684, R685), the host
port (R35, R537, R677) and the addresses of the I3C port (R702). -/

namespace Sys2Proof.Machine

/-! ### What a reset loses and keeps (R681) -/

/-- A SOLSTICE episode that is cut off is charged in full to the end of its reservation (R639; DEDUCED for resets and power
loss, notes/assumptions/31.md). -/
def PwrState.cutOff (p : PwrState) : PwrState :=
  if p.sol.state = .off then p
  else
    let bins := addBin p.bins 0 (p.sol.reservedMs * 1000000)
    { p with sol := Solstice.reset, bins := bins, binsFlash := bins }

/-- Power after a reset: the bins, TRIP_STAT and THERMTRIP_N are kept (R626, R634, R638). -/
def PwrState.restart (p : PwrState) : PwrState :=
  let q := p.cutOff
  { PwrState.reset with
    bins := q.bins, binsFlash := q.binsFlash, tripped := q.tripped, tripSensor := q.tripSensor, thermtripLow := q.thermtripLow }

/-- A channel after a reset: its spare is kept (R676, R681), and so is nothing else. -/
def Chan.restart (c : Chan) : Chan := { Chan.reset with spare := c.spare, past := c.past, retired := c.retired }

/-- A die after a reset: retired cores are kept. -/
def Die.restart (x : Die) : Die := { Die.reset with retired := x.retired }

/-- A die pair's flash after a reset: units and wear are kept, queued units are lost (R354, R688), counts are zero. A map that was
waiting for a rebuild in DRAM is rebuilt or checked at the start. -/
def FlashPair.restart (x : FlashPair) : FlashPair :=
  { x with jobs := [], readRetries := 0, rebuilds := 0, losses := 0, disturbReloc := 0, mapLost := false }

/-- Stores at a cold or warm reset (R683): persistent ones become orphans, the others are destroyed. -/
def State.orphanStores (s : State) : State :=
  let s1 := s.dropStores (fun t => !t.persistent)
  let stores : List Store := s1.flash.stores.map (fun t => { t with part := none, ctx := none })
  { s1 with flash := { FlashState.reset with
    stores := stores
    nextHandle := s1.flash.nextHandle
    pairs := s1.flash.pairs.map (fun e => (e.1, FlashPair.restart e.2))
    erasing := s.sec.erasePending } }

/-- Scrub every firmware region (R682 step 7). -/
def State.scrubFw (s : State) : State :=
  (List.range 8).foldl (fun t p => match s.part p with
    | none => t
    | some x => x.fw.foldl (fun u f => u.scrubBacking x f.backing) t) s

/-- What a cold or warm reset loses outside the Steward (R681): partitions, queues, capture, cores, clocks, sessions and keys. A
warm reset keeps DRAM, the time base, TSYNC_CTRL, CLKOUT and the counts that a cold reset alone clears. -/
def State.loseEngine (s : State) (warm : Bool) : State :=
  let s1 := (if warm then s.scrubFw else s).orphanStores
  let hub16 := s.pll 16
  { s1 with
    host := { HostRegs.reset with msix := s.host.msix, reply := s.host.reply }
    blocks := []
    mem := { MemState.reset with
      dram := if warm then s1.mem.dram else []
      poison := if warm then s1.mem.poison else []
      latent := if warm then s1.mem.latent else []
      chans := s1.mem.chans.map (fun e => (e.1, e.2.restart))
      hostMem := s1.mem.hostMem
      hostRefused := s1.mem.hostRefused, swapRefused := s1.mem.swapRefused }
    parts := []
    cores := []
    dies := s1.dies.map (fun e => (e.1, e.2.restart))
    hub := { HubState.reset with recoveries := if warm then s1.hub.recoveries else 0 }
    span := { SpanState.reset with
      engineId := s1.span.engineId
      ports := (List.range 32).filterMap (fun n =>
        if (s1.port n).enabled then some (n, { SpanPort.reset with enabled := true, state := .down }) else none) }
    cap := CapState.reset
    sec := { SecState.reset with
      fuses := s1.sec.fuses, lastAuthSeq := s1.sec.lastAuthSeq, erasePending := s1.sec.erasePending, eraseDue := s1.sec.eraseDue,
      nextSession := s1.sec.nextSession }
    fw := { s1.fw with change := none }
    clk := if warm then { ClkState.reset with
        clkout0 := s1.clk.clkout0, clkout1 := s1.clk.clkout1
        plls := [(16, { PllUnit.reset with aFails := hub16.aFails, bFails := hub16.bFails })] } else ClkState.reset
    pwr := s1.pwr.restart
    tb := if warm then { TimeState.reset with now := s1.tb.now, ctrlEn := s1.tb.ctrlEn, periodMs := s1.tb.periodMs }
      else { TimeState.reset with now := s1.tb.now } }

/-- A kind in TRIAL is back to STAGED after a warm or cold reset (R587). -/
def FwKindState.revert (x : FwKindState) : FwKindState :=
  if x.phase = .trial then { x with phase := .staged, byPldm := false } else x

/-- The Steward's own part (R579 to R581, R587): SEQ bound, log and boot count are kept; a warm reset keeps the event ring. -/
def State.loseSteward (s : State) (warm : Bool) : State :=
  { s with
    stw := { Steward.reset with
      resets := if warm then s.stw.resets else 0
      nextSeq := s.stw.nextSeq
      seqBound := s.stw.seqBound
      ring := if warm then s.stw.ring else []
      log := s.stw.log
      bootCount := s.stw.bootCount }
    fw := { s.fw with kinds := s.fw.kinds.map (fun e => (e.1, e.2.revert)), change := none }
    mgmt := MgmtState.reset }

/-- Everything that a cold or warm reset loses. -/
def State.lose (s : State) (warm : Bool) : State := (s.loseEngine warm).loseSteward warm

/-! ### Steward boot (R671, R672) -/

/-- One cold start more (R581). -/
def State.countBoot (s : State) : State := { s with stw := { s.stw with bootCount := s.stw.bootCount + 1 } }

/-- A start is numbered and logged: the SEQ gap of R579, EVT_CONS from the log (R571), and event 0x0909 with CAUSE and the previous
boot's last SEQ (R687). -/
def State.logStart (s : State) : State :=
  let last := (BitVec.ofNat 32 s.stw.nextSeq - 1#32).toNat
  let s1 := s.seqRestart
  let s2 := { s1 with
    stw := { s1.stw with evtCons := BitVec.ofNat 32 s1.stw.nextSeq }
    start := { s1.start with tripSeen := s1.pwr.tripped, eraseResumed := s1.sec.erasePending || s1.sec.eraseDue } }
  s2.record { EventRec.plain 0x0909 with detail := s.start.cause % 16 + (if s.stw.nextSeq = 0 then 0 else last) * 2 ^ 32 }

/-- The Steward runs from a source. -/
def State.runSteward (s : State) (phase : BootPhase) (alt : Bool) : State :=
  let src := if (s.fwKind 0).committedB then 1 else 0
  ({ s with
    stw := { s.stw with running := true }
    start := { s.start with phase := phase, altSlot := alt, bootSrc := src } }).logStart

/-- An image that a source holds passes every check of R671. -/
def State.bootable (s : State) (img : List Byte) : Bool := decide (img ≠ []) && (s.imgFault img 0 img.length).isNone

/-- The hub ROM boots the first source that passes: the committed slot, the other one, which then counts as committed, or the
image on BOOT_SPI, which runs in recovery mode (R671, R672). -/
def State.bootSteward (s : State) (spi : List Byte) : State :=
  let x := s.fwKind 0
  if s.bootable x.committedImg then s.runSteward .aux false
  else if s.bootable x.otherImg then
    ((s.updFwKind 0 (fun y => { y with committedB := !y.committedB, phase := .committed, byPldm := false })).runSteward .aux true).event 0x0904
  else if s.bootable spi then (s.runSteward .recovery false).event 0x0908
  else { s with start := { s.start with phase := .romRetry } }

/-! ### The cold start (R668 to R673) -/

/-- V3P3_AUX_GOOD (R669, R670): steps 1 to 3. TRIP_STAT starts anew (R638), and THERMTRIP_N is released (R634). -/
def execV3p3AuxGood (spi : List Byte) (s : State) : Out :=
  .next (
    if s.start.auxGood then s
    else
      let s1 := s.lose false
      let s2 := { s1 with
        start := { StartState.reset with auxGood := true, perstHigh := s.start.perstHigh, sysResetLow := s.start.sysResetLow }
        pwr := { s1.pwr with tripped := false, tripSensor := 0, thermtripLow := false } }
      s2.countBoot.bootSteward spi)

/-- V3P3_AUX_LOST (R669): every unit stops at once. Operating time not yet written is lost, boost time is not (R628). -/
def execV3p3AuxLost (s : State) : Out :=
  .next (
    if !s.start.auxGood then s
    else
      let b := s.pwr.cutOff
      let boost := match b.bins with
        | [] => 0
        | e :: _ => e.2
      let bins := match b.binsFlash with
        | [] => if boost = 0 then [] else [(0, boost)]
        | e :: es => (e.1, boost) :: es
      let s1 := s.lose false
      { s1 with
        start := { StartState.reset with perstHigh := s.start.perstHigh, sysResetLow := s.start.sysResetLow }
        pwr := { PwrState.reset with bins := bins, binsFlash := bins } })

/-- ROM_BOOT_RETRY (R671): the three sources again. -/
def execRomBootRetry (spi : List Byte) (s : State) : Out :=
  .next (if s.start.phase = .romRetry then s.bootSteward spi else s)

/-- Every trip sensor has been read since the start and stands at least 20 °C below its trip value (R634, R673). -/
def State.cooled (s : State) : Bool :=
  sensorIds.all (fun i => match tripValue i with
    | none => true
    | some t => (s.sensor i).max.isSome && (match fxOf (s.sensor i).value with
      | none => false
      | some v => decide (v ≤ fx (t - 20))))

/-- Steps 2 to 4 of an erasure that is due are completed (R545, R673). A fuse that does not program is logged; the start then never
reaches READY. -/
def State.resumeErase (s : State) (fuseBad : Bool) : State :=
  if !s.sec.eraseDue then s
  else if fuseBad then ({ s with start := { s.start with fuseFailed := true } }).event 0x0803
  else s.killKeys.dropKeys

/-- PWR_EN_ASSERT (R673): steps 2 and 3 of erasure are completed, and after a trip the module must have cooled. -/
def execPwrEnAssert (fuseBad : Bool) (s : State) : Out :=
  .next (
    if s.start.phase ≠ .aux ∨ !s.stw.running ∨ (s.pwr.tripped && !s.cooled) = true then s
    else
      let s1 := s.resumeErase fuseBad
      { s1 with start := { s1.start with phase := .waitVin, pwrEn := true, attempts := 0 } })

/-- VIN48_START_TIMEOUT (R669): PWR_EN is deasserted; three retries at most. -/
def execVin48StartTimeout (s : State) : Out :=
  .next (
    if s.start.phase ≠ .waitVin then s
    else
      let n := s.start.attempts + 1
      ({ s with start := { s.start with
        phase := if n ≤ 3 then .waitRetry else .gaveUp, pwrEn := false, vin48 := false, attempts := n } }).event 0x0705)

/-- VIN48_RETRY (R669). -/
def execVin48Retry (s : State) : Out :=
  .next (
    if s.start.phase ≠ .waitRetry then s
    else { s with start := { s.start with phase := .waitVin, pwrEn := true } })

/-! ### Rails, clocks and self-tests (R670 steps 6 to 8, R674, R675) -/

/-- A core fails its self-test (R651, R674): it is retired and counted. -/
def State.retireAtStart (s : State) (q : CorePos) : State :=
  if !posOk q ∨ (s.die q.die).retired.contains (q.col, q.row) then s
  else
    let s1 := s.updDie q.die (fun x => { x with retired := x.retired ++ [(q.col, q.row)] })
    ({ s1 with start := { s1.start with newRetired := s1.start.newRetired + 1 } }).coreEvent 0x0206 q.die q.col q.row

/-- The gap of a column: a retired core where one exists (R674), otherwise row 16. -/
def Die.startGap (x : Die) (c : Nat) : Nat := ((List.range 17).find? (fun r => x.retired.contains (c, r))).getD 16

/-- Gaps are placed, NB_CTRL follows them (R129), and short dies are noted. -/
def State.placeGaps (s : State) (d : Nat) : State :=
  let s1 := s.updDie d (fun x => { x with gaps := (List.range 8).map x.startGap })
  let s2 := (List.range 8).foldl (fun t c => if t.gap d c = 16 then t else t.writeSel d c) s1
  s2.noteShort d

/-- Conductor cores that fail their test are retired; a half with none left is out of service (R674). -/
def State.testConductors (s : State) (bad : List Nat) : State :=
  let s1 := (bad.filter (fun n => decide (n < 10))).foldl (fun t n => t.setConductor n { t.conductor n with inService := false }) s
  let some_ (b : Bool) : Bool := (halfCores b).any (fun n => (s1.conductor n).inService)
  { s1 with hub := { s1.hub with aOk := some_ false, bOk := some_ true } }

/-- The self-tests of R674: `failed` names the cores that fail, `conductors` the conductor cores. -/
def State.selfTests (s : State) (failed : List CorePos) (conductors : List Nat) : State :=
  let s0 := ({ s with start := { s.start with newRetired := 0 } }).testConductors conductors
  let s1 := failed.foldl State.retireAtStart s0
  let s2 := (List.range 16).foldl (fun t d => t.placeGaps d) s1
  let cols := (failed.filter posOk).map (fun q => (q.die, q.col))
  (cols.dedup.foldl (fun (t : State) (e : Nat × Nat) => if t.spareGone e.1 e.2 then t.coreEvent 0x0204 e.1 e.2 (t.gap e.1 e.2) else t) s2).noteStatus

/-- Every PLL locks to REFCLK_A, or to REFCLK_B; with neither, the groups coast and the span PLLs wait (R600, R675). -/
def State.lockPlls (s : State) (refA refB : Bool) : State :=
  (List.range 24).foldl (fun t n =>
    let u := t.pll n
    let v : PllUnit := { PllUnit.reset with refA := refA, refB := refB, sel := !refA && refB, aFails := u.aFails, bFails := u.bFails }
    if refA || refB then t.setPll n v
    else if n = 23 then t.setPll n { v with phase := .holdover }
    else
      let t1 := (t.setPll n v).enterCoast n 1
      t1.setPll n { t1.pll n with phase := .coasting }) s

/-- Steps 6 to 8 of R670, or step 3 of R682. -/
def State.bringUp (s : State) (refA refB : Bool) (failed : List CorePos) (conductors : List Nat) : State :=
  let s1 := { s with start := { s.start with vin48 := true, railsUp := true, phase := .dram } }
  (s1.lockPlls refA refB).selfTests failed conductors

/-- VIN48_GOOD (R668 to R670, R674, R675). With PWR_EN deasserted the module's behaviour is undefined (R668). -/
def execVin48Good (refA : Bool) (refB : Bool) (failed : List CorePos) (conductors : List Nat) (s : State) : Out :=
  if !s.start.pwrEn then .fault .supplyOutOfOrder
  else if s.start.phase = .waitVin then .next (s.bringUp refA refB failed conductors)
  else .next s

/-- VIN48_LOST (R669): clocks gated, PWR_EN deasserted; the Steward goes on and starts again at the PWR_EN step, with the result of
a cold reset otherwise (the Steward's own firmware stays as it is). -/
def execVin48Lost (s : State) : Out :=
  .next (
    if !s.start.railsUp then s
    else
      let s1 := s.loseEngine false
      let s2 := { s1 with
        start := { s1.start with
          phase := if s1.start.phase = .held then .held else .aux, vin48 := false, pwrEn := false, railsUp := false, cause := 3,
          warm := false, startMs := 0, newRetired := 0, mapRebuilt := false }
        stw := { s1.stw with ring := [], evtLost := 0, resets := 0 }
        fw := { s1.fw with kinds := s1.fw.kinds.map (fun e => (e.1, if e.1 = 0 then e.2 else e.2.revert)) } }
      if s1.start.phase = .held then s2 else s2.countBoot.logStart)

/-! ### DRAM, maps and READY (R676 to R679) -/

/-- The reserve of a channel is lost (R682 step 4). Die pair 0's reserve holds the event ring (R330, R580), whose layout is not stated:
a free value decides whether the records go with it (notes/assumptions/2.md). -/
def State.reserveGone (s : State) (c : Nat) : State :=
  if s.start.warm ∧ c < 4 then
    let (w, s1) := s.takeFree
    if w.getLsbD 0 then { s1 with stw := { s1.stw with ring := [] } } else s1
  else s

/-- A channel fails training: a free spare of its stack replaces it, or its die pair cannot be used (R676). A failing spare is
no longer free, and a channel that it served needs another. -/
def State.trainFailed (s : State) (e : Nat × Nat) : State :=
  let st := e.1
  let ch := e.2
  let replace (t : State) (c : Nat) : State :=
    let x := t.chan st c
    let t0 := t.setChan st c { x with spare := none }
    match [32, 33].find? (fun k => !(t0.sparesUsed st).contains k) with
    | some k =>
      let t1 := t.setChan st c { x with spare := some k, retired := true }
      let t2 := { t1 with mem := { t1.mem with poison := t1.mem.poison.filter (fun p => p.1 / 2 ^ 25 != chanKey st c) } }
      (t2.reserveGone c).record { EventRec.plain 0x0303 with unit := chanUnit st c }
    | none => t.setChan st c { x with spare := none, unusable := true }
  if 6 ≤ st ∨ 34 ≤ ch then s
  else if ch < 32 then (if (s.chan st ch).spare.isSome then s else replace s ch)
  else
    let s1 := s.setChan st ch { s.chan st ch with unusable := true }
    match (List.range 32).find? (fun c => (s1.chan st c).spare == some ch) with
    | none => s1
    | some c => replace s1 c

/-- DRAM_TRAINED (R545, R670 step 9, R676, R678): failing channels, named by stack and channel, spares first. Then the span ports
with PORT_EN train, if their PLLs have a reference. An erasure that is due scrubs every channel and begins to erase the flash. -/
def execDramTrained (failed : List (Nat × Nat)) (s : State) : Out :=
  .next (
    if s.start.phase ≠ .dram then s
    else
      let spares : List (Nat × Nat) := failed.filter (fun e => decide (32 ≤ e.2))
      let s1 : State := (spares ++ failed.filter (fun e => decide (e.2 < 32))).foldl State.trainFailed s
      let s2 : State := { s1 with start := { s1.start with phase := .maps } }
      let s3 : State := if (s2.pll 23).phase = .holdover then s2
        else (List.range 32).foldl (fun t n => if (t.port n).enabled then t.train n else t) s2
      (if s3.sec.eraseDue ∧ s3.start.fuseFailed = false then s3.scrubAll.startErase else s3).noteStatus)

/-- Every map is present, as the last checkpoint and the journal give it (R353). -/
def State.mapsPresent (s : State) : State :=
  { s with flash := { s.flash with mapsReady := true, pairs := s.flash.pairs.map (fun e => (e.1, { e.2 with
      mapLost := false, map := e.2.remade })) } }

/-- FLASH_MAP_REBUILT (R336, R353, R681, R682): at a start the maps are rebuilt, or a warm start reuses those that match their
journal; in operation the maps that waited for a rebuild are present again. A rebuild is logged (R578; DEDUCED,
notes/assumptions/31.md). -/
def execFlashMapRebuilt (rebuilt : Bool) (s : State) : Out :=
  .next (
    if s.start.phase = .maps then
      let again := rebuilt || !s.start.warm
      let s1 := ({ s with start := { s.start with mapRebuilt := again } }).mapsPresent
      if again then s1.event 0x0404 else s1
    else if s.start.phase = .ready ∧ s.stw.running = true then
      (if s.flash.pairs.any (fun e => e.2.mapLost) then s.mapsPresent.event 0x0404 else s).settle
    else s)

/-- READY_SET (R545, R670 step 11, R679): a cold start begins the time base at 0. -/
def execReadySet (ms : Nat) (s : State) : Out :=
  .next (
    if s.start.phase ≠ .maps ∨ !s.flash.mapsReady ∨ !s.stw.running ∨ !(s.hub.aOk || s.hub.bOk) ∨ s.sec.eraseDue = true then s
    else { s with
      start := { s.start with phase := .ready, startMs := min ms 0xFFFF }
      tb := { s.tb with now := if s.start.warm then s.tb.now else 0 } })

/-! ### Resets (R680 to R682) -/

/-- A warm or cold reset is asserted: clocks are gated, commands stop with no record, DRAM refreshes itself (R682 step 1). -/
def State.assertReset (s : State) : State :=
  let s1 := s.lose true
  { s1 with start := { s1.start with phase := .held } }

/-- SYS_RESET_N_ASSERT (R680, R682): the pin has been low for 10 µs. It does not end TRIPPED before it has been low for 1 s. -/
def execSysResetNAssert (s : State) : Out :=
  .next (
    if s.start.sysResetLow then s
    else
      let s1 := { s with start := { s.start with sysResetLow := true } }
      if !s.start.auxGood ∨ s.start.phase = .tripped then s1 else s1.assertReset)

/-- SYS_RESET_N_RELEASE (R680, R689): shorter than 10 µs is ignored, shorter than 1 s is a warm reset, longer a cold one. -/
def execSysResetNRelease (lowUs : Nat) (s : State) : Out :=
  .next (
    let s1 := { s with start := { s.start with sysResetLow := false } }
    if lowUs < 10 ∨ !s.start.auxGood then s1
    else if 1000000 ≤ lowUs then
      let s2 := if s.start.phase = .tripped ∨ s.start.phase = .held then s1 else s1.assertReset
      { s2 with start := { s2.start with pendingReset := some (true, 1) } }
    else if s.start.phase = .tripped then s1
    else
      let s2 := if s.start.phase = .held then s1 else s1.assertReset
      { s2 with start := { s2.start with pendingReset := some (false, 4) } })

/-- The host port is down (R677, R682). -/
def State.portDown (s : State) : State := { s with host := { s.host with linkUp := false, linkWidth := 0 } }

/-- PCIE_PERST_N_FALL (R680, R689, R713): a warm reset once READY has been 1; a warm reset under way waits for the rise; otherwise only
the link goes down. -/
def execPciePerstNFall (s : State) : Out :=
  .next (
    let s1 := ({ s with start := { s.start with perstHigh := false } }).portDown
    if s.start.perstHigh ∧ s.start.phase = .ready then
      let s2 := s1.assertReset
      { s2 with start := { s2.start with pendingReset := some (false, 5), perstWait := true } }
    else if s.start.perstHigh ∧ s.start.phase = .held then { s1 with start := { s1.start with perstWait := true } }
    else s1)

/-- PCIE_PERST_N_RISE (R677, R682): the host port may train. -/
def execPciePerstNRise (s : State) : Out := .next { s with start := { s.start with perstHigh := true, perstWait := false } }

/-- The record of a start under way (R687). -/
def StartState.again (b : StartState) (warm : Bool) (cause : Nat) : StartState :=
  { b with
    cause := cause, warm := warm, pendingReset := none, altSlot := false, mapRebuilt := false, eraseResumed := false,
    newRetired := 0, startMs := 0, fuseFailed := false, perstWait := false }

/-- WARM_RESET (R681, R682): the release of a warm reset, with the rails as they were. A Steward that boots from no slot leaves the
module in AUX (R672; DEDUCED, notes/assumptions/31.md). -/
def execWarmReset (spi : List Byte) (dt : Nat) (refA : Bool) (refB : Bool) (failed : List CorePos) (conductors : List Nat) (fuseBad : Bool)
    (s : State) : Out :=
  .next (match s.start.pendingReset with
    | some (false, cause) =>
      if !s.start.auxGood ∨ s.start.sysResetLow ∨ s.start.perstWait = true then s
      else
        let s1 := (s.tick dt).lose true
        let s2 := ({ s1 with start := s1.start.again true cause }).bootSteward spi
        if s2.start.phase ≠ .aux then
          { s2 with start := { s2.start with pwrEn := false, vin48 := false, railsUp := false, warm := false } }
        else if s2.start.railsUp then (s2.resumeErase fuseBad).bringUp refA refB failed conductors
        else { s2 with start := { s2.start with phase := if s2.start.pwrEn then .waitVin else .aux, warm := false } }
    | _ => s)

/-- COLD_RESET (R634, R680): PWR_EN is deasserted, and the hub ROM starts again. -/
def execColdReset (spi : List Byte) (s : State) : Out :=
  .next (match s.start.pendingReset with
    | some (true, cause) =>
      if !s.start.auxGood ∨ s.start.sysResetLow then s
      else
        let s1 := s.lose false
        let s2 := { s1 with
          start := { s1.start.again false cause with pwrEn := false, vin48 := false, railsUp := false, attempts := 0 }
          pwr := { s1.pwr with thermtripLow := false } }
        s2.countBoot.bootSteward spi
    | _ => s)

/-! ### Trips (R632 to R634) -/

/-- TRIP_COMPARATOR (R632 to R634, R638, R639): everything stops, THERMTRIP_N falls, PWR_EN is deasserted, and the Steward logs the
trip. -/
def execTripComparator (sensor : Nat) (s : State) : Out :=
  .next (
    if !s.start.auxGood ∨ (tripValue sensor).isNone ∨ s.start.phase = .tripped then s
    else
      let s1 := s.loseEngine false
      let s2 := { s1 with
        start := { s1.start with
          phase := .tripped, pwrEn := false, vin48 := false, railsUp := false, warm := false, pendingReset := none }
        pwr := { s1.pwr with
          tripped := true
          tripSensor := if s1.pwr.tripped then s1.pwr.tripSensor else BitVec.ofNat 16 sensor
          thermtripLow := true } }
      s2.record { EventRec.plain 0x0702 with detail := sensor + 2 ^ 16 + (s.sensor sensor).value.toNat * 2 ^ 32 })

/-! ### OP_RESET (R684, R685) -/

/-- R685: the partition's commands end, its contexts and non-persistent stores go, its queue block and streams return to their reset
state, its conductor core is loaded again and its cores are zeroed. -/
def State.resetPart (s : State) (p : Nat) : State :=
  match s.part p with
  | none => s
  | some x =>
    let s1 := s.updPart p (fun y => { y with switch := none })
    let s2 := (s.partCmds p).foldl (fun t r => t.endAtBoundary r stAbortedByDisable 0) s1
    let s3 := (x.ctxs.map (fun e => e.1)).foldl (fun t c => t.releaseCtx p c) s2
    let s4 := s3.dropStores (fun t => t.part == some p && !t.persistent)
    let s5 := s4.setBlock (1 + p) { QBlock.reset with nextId := (s4.block (1 + p)).nextId }
    let s6 := (s5.streamsOf p (fun _ => true)).foldl (fun t n => t.updStream n (fun y => y.cleared .assigned)) s5
    let s7 := if x.served then s6.setConductor x.conductor { s6.conductor x.conductor with loading := false, newFw := false } else s6
    let s8 := s7.updCores (x.dies.flatMap dieKeys) (fun c => Cu.zeroingDone (Cu.zeroAll (Cu.abandon c)))
    let ops := s8.span.ops.filter (fun o => o.part != p)
    let colls := s8.span.colls.filter (fun r => r.part != p)
    ({ s8 with span := { s8.span with ops := ops, colls := colls, survivors := s8.span.survivors.filter (fun v => v.part != p) } }).updPart p (fun y => { y with
      current := none
      lastCurrent := 0xFFFE
      awaitFirst := false
      dispatches := []
      sec := { y.sec with tdi := .unlocked } })

/-- OP_RESET (R684). -/
def State.opReset (s : State) (c : CmdRef) (k : Cmd) (p : Nat) : State :=
  let v := k.p 0 4
  if 4 ≤ v then s.endCmd c (Fin.with stHeaderInvalid 0x16)
  else if v = 0 then
    let s1 := s.endCmd c Fin.ok
    { s1 with start := { s1.start with pendingReset := some (true, 2) } }
  else if v = 1 then
    let s1 := s.endCmd c Fin.ok
    { s1 with start := { s1.start with pendingReset := some (false, 6) } }
  else if v = 3 then (s.startCmd c).stewardReset 1
  else
    let n := ((s.partCmds p).filter (fun r => !s.cmdDone r)).length
    ((s.startCmd c).resetPart p).endCmd c { Fin.ok with c0 := n }

/-- OP_RESET (R684, R685). -/
def execOpReset (c : CmdRef) (s : State) : Out := .next (s.gate c 0x0707 false (fun t k p _ => t.opReset c k p))

/-! ### The host port and I3C -/

/-- HOST_PORT_L0 (R20, R677): the port trains once PCIE_PERST_N is high and the rails are up. -/
def execHostPortL0 (wide : Bool) (s : State) : Out :=
  .next (
    if !s.start.railsUp ∨ !s.start.perstHigh ∨ s.start.phase = .held then s
    else { s with host := { s.host with
      linkUp := true, linkWidth := if wide && s.hub.aOk && s.hub.bOk then 4 else 3 } })

/-- HOST_LINK_DOWN (R537): IDE keys are discarded. -/
def execHostLinkDown (s : State) : Out :=
  .next (if s.host.linkUp then s.portDown.dropIde else s)

/-- SRIOV_ENABLE (R35): a write of PF0 configuration space, which answers once step 8 is complete and the link is up (R677). -/
def execSriovEnable (on : Bool) (s : State) : Out :=
  .next (if s.host.linkUp ∧ s.start.railsUp = true then { s with host := { s.host with sriov := on } } else s)

/-- A dynamic address is taken. -/
def State.setI3c (s : State) (addr : Nat) : State := { s with mgmt := { s.mgmt with i3cAddr := some addr } }

/-- I3C_SETDASA (R702): the static address is 0x3A; a target that has a dynamic address keeps it. -/
def execI3cSetdasa (static : Nat) (addr : Nat) (s : State) : Out :=
  .next (if s.start.auxGood ∧ static = 0x3A ∧ s.mgmt.i3cAddr = none then s.setI3c addr else s)

/-- I3C_ENTDAA (R702): a target without a dynamic address takes part. -/
def execI3cEntdaa (addr : Nat) (s : State) : Out :=
  .next (if s.start.auxGood ∧ s.mgmt.i3cAddr = none then s.setI3c addr else s)

end Sys2Proof.Machine
end

