-- ==== Sys2Proof/Machine/Dispatch.lean ====
section
/-! DEFINITION. The dispatch of one command to its meaning: one arm for each row of the table. -/

namespace Sys2Proof.Machine

/-- The effect of a command on everything but the queue. -/
def exec (i : Instr) (s : State) : Host.Outcome State Fault Refusal :=
  match i with
  | .bar0BadAccess write len => Sys2Proof.Machine.execBar0BadAccess write len s
  | .mirrorWrite part => Sys2Proof.Machine.execMirrorWrite part s
  | .regWrite at_ val => Sys2Proof.Machine.execRegWrite at_ val s
  | .sqTailWrite blk ring val mem iommu => Sys2Proof.Machine.execSqTailWrite blk ring val mem iommu s
  | .cqHeadWrite blk ring val => Sys2Proof.Machine.execCqHeadWrite blk ring val s
  | .sqEnable blk ring val => Sys2Proof.Machine.execSqEnable blk ring val s
  | .sqDisable blk ring => Sys2Proof.Machine.execSqDisable blk ring s
  | .cqEnable blk ring val => Sys2Proof.Machine.execCqEnable blk ring val s
  | .cqDisable blk ring => Sys2Proof.Machine.execCqDisable blk ring s
  | .clrCounts blk => Sys2Proof.Machine.execClrCounts blk s
  | .stwReset => Sys2Proof.Machine.execStwReset s
  | .clrLost => Sys2Proof.Machine.execClrLost s
  | .evtConsWrite val => Sys2Proof.Machine.execEvtConsWrite val s
  | .timebaseLoRead dt => Sys2Proof.Machine.execTimebaseLoRead dt s
  | .steppedClear => Sys2Proof.Machine.execSteppedClear s
  | .trippedClear => Sys2Proof.Machine.execTrippedClear s
  | .clkoutCtrlWrite n val => Sys2Proof.Machine.execClkoutCtrlWrite n val s
  | .apertureRead off len errs => Sys2Proof.Machine.execApertureRead off len errs s
  | .apertureWrite off data => Sys2Proof.Machine.execApertureWrite off data s
  | .clrRbw core => Sys2Proof.Machine.execClrRbw core s
  | .clrWritten core => Sys2Proof.Machine.execClrWritten core s
  | .zeroAll core => Sys2Proof.Machine.execZeroAll core s
  | .zeroingDone core => Sys2Proof.Machine.execZeroingDone core s
  | .clrStat core => Sys2Proof.Machine.execClrStat core s
  | .clrCheck core => Sys2Proof.Machine.execClrCheck core s
  | .go core val => Sys2Proof.Machine.execGo core val s
  | .bankPwrWrite core val => Sys2Proof.Machine.execBankPwrWrite core val s
  | .bankWakeEnd core bank => Sys2Proof.Machine.execBankWakeEnd core bank s
  | .bankScrubEnd core bank => Sys2Proof.Machine.execBankScrubEnd core bank s
  | .bankPowerOff core bank => Sys2Proof.Machine.execBankPowerOff core bank s
  | .packetFetch blk ring => Sys2Proof.Machine.execPacketFetch blk ring s
  | .cqHeldRecordWrite blk ring => Sys2Proof.Machine.execCqHeldRecordWrite blk ring s
  | .cqIrqDelayExpiry blk ring => Sys2Proof.Machine.execCqIrqDelayExpiry blk ring s
  | .commandTimeout c => Sys2Proof.Machine.execCommandTimeout c s
  | .seqBusyResume c => Sys2Proof.Machine.execSeqBusyResume c s
  | .opPartCreate c => Sys2Proof.Machine.execOpPartCreate c s
  | .opPartDestroy c => Sys2Proof.Machine.execOpPartDestroy c s
  | .opPartDisable c => Sys2Proof.Machine.execOpPartDisable c s
  | .opPartStat c => Sys2Proof.Machine.execOpPartStat c s
  | .opCtxCreate c => Sys2Proof.Machine.execOpCtxCreate c s
  | .opCtxDestroy c => Sys2Proof.Machine.execOpCtxDestroy c s
  | .opQuotaSet c => Sys2Proof.Machine.execOpQuotaSet c s
  | .opQuotaStat c => Sys2Proof.Machine.execOpQuotaStat c s
  | .opCmdAbort c => Sys2Proof.Machine.execOpCmdAbort c s
  | .opPlanLoad c => Sys2Proof.Machine.execOpPlanLoad c s
  | .planInstall part ctx => Sys2Proof.Machine.execPlanInstall part ctx s
  | .opWeightLoad c => Sys2Proof.Machine.execOpWeightLoad c s
  | .opPoolBind c errs => Sys2Proof.Machine.execOpPoolBind c errs s
  | .opTensorStat c => Sys2Proof.Machine.execOpTensorStat c s
  | .opRun c => Sys2Proof.Machine.execOpRun c s
  | .opRoll c => Sys2Proof.Machine.execOpRoll c s
  | .opFork c => Sys2Proof.Machine.execOpFork c s
  | .opTrainStep c => Sys2Proof.Machine.execOpTrainStep c s
  | .opSeqCreate c => Sys2Proof.Machine.execOpSeqCreate c s
  | .opSeqRelease c => Sys2Proof.Machine.execOpSeqRelease c s
  | .opSeqThaw c => Sys2Proof.Machine.execOpSeqThaw c s
  | .opKvStat c => Sys2Proof.Machine.execOpKvStat c s
  | .opRegionCreate c => Sys2Proof.Machine.execOpRegionCreate c s
  | .opRegionDestroy c => Sys2Proof.Machine.execOpRegionDestroy c s
  | .opMemClass c => Sys2Proof.Machine.execOpMemClass c s
  | .opMemCopy c => Sys2Proof.Machine.execOpMemCopy c s
  | .opStoreCreate c => Sys2Proof.Machine.execOpStoreCreate c s
  | .opStoreDestroy c => Sys2Proof.Machine.execOpStoreDestroy c s
  | .opStoreAttach c => Sys2Proof.Machine.execOpStoreAttach c s
  | .opStoreWrite c => Sys2Proof.Machine.execOpStoreWrite c s
  | .opStoreRead c errs => Sys2Proof.Machine.execOpStoreRead c errs s
  | .opStoreTrim c => Sys2Proof.Machine.execOpStoreTrim c s
  | .opStoreStat c => Sys2Proof.Machine.execOpStoreStat c s
  | .opJpegDecode c => Sys2Proof.Machine.execOpJpegDecode c s
  | .opDcacheConfig c => Sys2Proof.Machine.execOpDcacheConfig c s
  | .opLsfRead c => Sys2Proof.Machine.execOpLsfRead c s
  | .opLsfWrite c => Sys2Proof.Machine.execOpLsfWrite c s
  | .opCapAssign c => Sys2Proof.Machine.execOpCapAssign c s
  | .opCapConfig c => Sys2Proof.Machine.execOpCapConfig c s
  | .opCapStart c => Sys2Proof.Machine.execOpCapStart c s
  | .opCapStop c => Sys2Proof.Machine.execOpCapStop c s
  | .opHarvest c => Sys2Proof.Machine.execOpHarvest c s
  | .opInventory c => Sys2Proof.Machine.execOpInventory c s
  | .opSensorRead c => Sys2Proof.Machine.execOpSensorRead c s
  | .opEventRead c => Sys2Proof.Machine.execOpEventRead c s
  | .opFwStage c slotBad => Sys2Proof.Machine.execOpFwStage c slotBad s
  | .opFwActivate c => Sys2Proof.Machine.execOpFwActivate c s
  | .opBoost c => Sys2Proof.Machine.execOpBoost c s
  | .opReset c => Sys2Proof.Machine.execOpReset c s
  | .opLcAdvance c bad => Sys2Proof.Machine.execOpLcAdvance c bad s
  | .opKeyProvision c fuseBad => Sys2Proof.Machine.execOpKeyProvision c fuseBad s
  | .opDebugUnlock c nonce => Sys2Proof.Machine.execOpDebugUnlock c nonce s
  | .opConfidential c => Sys2Proof.Machine.execOpConfidential c s
  | .opPlanKey c => Sys2Proof.Machine.execOpPlanKey c s
  | .opSpanConfig c => Sys2Proof.Machine.execOpSpanConfig c s
  | .opSpanRoute c => Sys2Proof.Machine.execOpSpanRoute c s
  | .opSpanWindow c => Sys2Proof.Machine.execOpSpanWindow c s
  | .opCollGroup c => Sys2Proof.Machine.execOpCollGroup c s
  | .opSpanStat c => Sys2Proof.Machine.execOpSpanStat c s
  | .stepDispatch c => Sys2Proof.Machine.execStepDispatch c s
  | .planChangeStep part => Sys2Proof.Machine.execPlanChangeStep part s
  | .dispatchCommit core => Sys2Proof.Machine.execDispatchCommit core s
  | .granuleCommit c => Sys2Proof.Machine.execGranuleCommit c s
  | .expertPoint c errs => Sys2Proof.Machine.execExpertPoint c errs s
  | .quantumExpiry part => Sys2Proof.Machine.execQuantumExpiry part s
  | .switchPoint part => Sys2Proof.Machine.execSwitchPoint part s
  | .switchSaveDone part => Sys2Proof.Machine.execSwitchSaveDone part s
  | .switchRestoreDone part us => Sys2Proof.Machine.execSwitchRestoreDone part us s
  | .drainLimitExpiry u => Sys2Proof.Machine.execDrainLimitExpiry u s
  | .tNop op => Sys2Proof.Machine.execTNop op s
  | .tEnd op => Sys2Proof.Machine.execTEnd op s
  | .tJmp op => Sys2Proof.Machine.execTJmp op s
  | .tBr op => Sys2Proof.Machine.execTBr op s
  | .tLoop op => Sys2Proof.Machine.execTLoop op s
  | .tTrap op => Sys2Proof.Machine.execTTrap op s
  | .tMovi op => Sys2Proof.Machine.execTMovi op s
  | .tAdd op => Sys2Proof.Machine.execTAdd op s
  | .tAddi op => Sys2Proof.Machine.execTAddi op s
  | .tSub op => Sys2Proof.Machine.execTSub op s
  | .tMul op => Sys2Proof.Machine.execTMul op s
  | .tAnd op => Sys2Proof.Machine.execTAnd op s
  | .tOr op => Sys2Proof.Machine.execTOr op s
  | .tShl op => Sys2Proof.Machine.execTShl op s
  | .tShr op => Sys2Proof.Machine.execTShr op s
  | .tLdx op => Sys2Proof.Machine.execTLdx op s
  | .tStx op => Sys2Proof.Machine.execTStx op s
  | .tRdc op => Sys2Proof.Machine.execTRdc op s
  | .tLds op => Sys2Proof.Machine.execTLds op s
  | .loadReady core => Sys2Proof.Machine.execLoadReady core s
  | .tSwp op => Sys2Proof.Machine.execTSwp op s
  | .tPass op => Sys2Proof.Machine.execTPass op s
  | .tTpass op => Sys2Proof.Machine.execTTpass op s
  | .passComplete core chk => Sys2Proof.Machine.execPassComplete core chk s
  | .arrayRampDown core => Sys2Proof.Machine.execArrayRampDown core s
  | .arrayGated core => Sys2Proof.Machine.execArrayGated core s
  | .tFlush op => Sys2Proof.Machine.execTFlush op s
  | .tAclr op => Sys2Proof.Machine.execTAclr op s
  | .tVld op => Sys2Proof.Machine.execTVld op s
  | .tVst op => Sys2Proof.Machine.execTVst op s
  | .gbIdleFlush core line => Sys2Proof.Machine.execGbIdleFlush core line s
  | .tVlda op => Sys2Proof.Machine.execTVlda op s
  | .tVsta op => Sys2Proof.Machine.execTVsta op s
  | .tVadd op => Sys2Proof.Machine.execTVadd op s
  | .tVsub op => Sys2Proof.Machine.execTVsub op s
  | .tVmul op => Sys2Proof.Machine.execTVmul op s
  | .tVfma op => Sys2Proof.Machine.execTVfma op s
  | .tVmax op => Sys2Proof.Machine.execTVmax op s
  | .tVmin op => Sys2Proof.Machine.execTVmin op s
  | .tVcvt op => Sys2Proof.Machine.execTVcvt op s
  | .tVsplit op => Sys2Proof.Machine.execTVsplit op s
  | .tVred op => Sys2Proof.Machine.execTVred op s
  | .tQnt op => Sys2Proof.Machine.execTQnt op s
  | .tSfn op => Sys2Proof.Machine.execTSfn op s
  | .tStbl op => Sys2Proof.Machine.execTStbl op s
  | .tSmp op => Sys2Proof.Machine.execTSmp op s
  | .tSrow op => Sys2Proof.Machine.execTSrow op s
  | .tSsmx op => Sys2Proof.Machine.execTSsmx op s
  | .tStld op => Sys2Proof.Machine.execTStld op s
  | .tStst op => Sys2Proof.Machine.execTStst op s
  | .tSstep op => Sys2Proof.Machine.execTSstep op s
  | .tSout op => Sys2Proof.Machine.execTSout op s
  | .tDmaq op => Sys2Proof.Machine.execTDmaq op s
  | .dmaDescriptorStart core eng errs ecc => Sys2Proof.Machine.execDmaDescriptorStart core eng errs ecc s
  | .dmaComplete core eng => Sys2Proof.Machine.execDmaComplete core eng s
  | .dmaDeadlineExpiry core eng stack chan => Sys2Proof.Machine.execDmaDeadlineExpiry core eng stack chan s
  | .tNbx op => Sys2Proof.Machine.execTNbx op s
  | .nbBeatArrival core port parityBad => Sys2Proof.Machine.execNbBeatArrival core port parityBad s
  | .tWait op => Sys2Proof.Machine.execTWait op s
  | .tCset op => Sys2Proof.Machine.execTCset op s
  | .tFence op => Sys2Proof.Machine.execTFence op s
  | .tBar op => Sys2Proof.Machine.execTBar op s
  | .barRelease part group => Sys2Proof.Machine.execBarRelease part group s
  | .tEvt op => Sys2Proof.Machine.execTEvt op s
  | .watchdogExpiry core => Sys2Proof.Machine.execWatchdogExpiry core s
  | .coreFaultRecovery die faults sourceBad => Sys2Proof.Machine.execCoreFaultRecovery die faults sourceBad s
  | .selfTestDone core pass => Sys2Proof.Machine.execSelfTestDone core pass s
  | .gapTestTimer die => Sys2Proof.Machine.execGapTestTimer die s
  | .coreReset core => Sys2Proof.Machine.execCoreReset core s
  | .marshalCoalesceClose die code unit => Sys2Proof.Machine.execMarshalCoalesceClose die code unit s
  | .faultReport r => Sys2Proof.Machine.execFaultReport r s
  | .stewardCoalesceClose code unit => Sys2Proof.Machine.execStewardCoalesceClose code unit s
  | .conductorTakeover core testPass => Sys2Proof.Machine.execConductorTakeover core testPass s
  | .marshalRestart die testPass => Sys2Proof.Machine.execMarshalRestart die testPass s
  | .hubHalfLoss half => Sys2Proof.Machine.execHubHalfLoss half s
  | .hubHalfRestored half => Sys2Proof.Machine.execHubHalfRestored half s
  | .linkRetryExcess die link bridge => Sys2Proof.Machine.execLinkRetryExcess die link bridge s
  | .patrolScrubRead stack chan codeword err => Sys2Proof.Machine.execPatrolScrubRead stack chan codeword err s
  | .sparingCopyDone stack chan => Sys2Proof.Machine.execSparingCopyDone stack chan s
  | .allocationScrubDone part region => Sys2Proof.Machine.execAllocationScrubDone part region s
  | .flashWriteDone pair programBad => Sys2Proof.Machine.execFlashWriteDone pair programBad s
  | .stripeCloseTimer pair chan => Sys2Proof.Machine.execStripeCloseTimer pair chan s
  | .mapCheckpoint pair => Sys2Proof.Machine.execMapCheckpoint pair s
  | .relocationDone pair chan sb badBlocks => Sys2Proof.Machine.execRelocationDone pair chan sb badBlocks s
  | .staticLevelling pair chan => Sys2Proof.Machine.execStaticLevelling pair chan s
  | .flitReceive port flit uncorrectable corrected => Sys2Proof.Machine.execFlitReceive port flit uncorrectable corrected s
  | .nakReceive port seq => Sys2Proof.Machine.execNakReceive port seq s
  | .laneFailing port lane => Sys2Proof.Machine.execLaneFailing port lane s
  | .laneSpareRequest port lane => Sys2Proof.Machine.execLaneSpareRequest port lane s
  | .portTrainingDone port lanes peerEngine peerPort room => Sys2Proof.Machine.execPortTrainingDone port lanes peerEngine peerPort room s
  | .portRetryTimer port => Sys2Proof.Machine.execPortRetryTimer port s
  | .spanPacketArrival port pkt => Sys2Proof.Machine.execSpanPacketArrival port pkt s
  | .spanLocalCompletion port pkt => Sys2Proof.Machine.execSpanLocalCompletion port pkt s
  | .collectiveComplete part group => Sys2Proof.Machine.execCollectiveComplete part group s
  | .spanTimeout core req => Sys2Proof.Machine.execSpanTimeout core req s
  | .csiFrameStart port vc fn corrected dt => Sys2Proof.Machine.execCsiFrameStart port vc fn corrected dt s
  | .csiLongPacket port vc dt codes crcBad corrected backlog => Sys2Proof.Machine.execCsiLongPacket port vc dt codes crcBad corrected backlog s
  | .csiOtherPacket port vc corrected => Sys2Proof.Machine.execCsiOtherPacket port vc corrected s
  | .csiFrameEnd port vc corrected => Sys2Proof.Machine.execCsiFrameEnd port vc corrected s
  | .frameTimeout stream => Sys2Proof.Machine.execFrameTimeout stream s
  | .pipelineExit stream dt => Sys2Proof.Machine.execPipelineExit stream dt s
  | .tsyncEdge dt => Sys2Proof.Machine.execTsyncEdge dt s
  | .tsyncLost dt => Sys2Proof.Machine.execTsyncLost dt s
  | .refFailure pll refB => Sys2Proof.Machine.execRefFailure pll refB s
  | .refGood pll refB => Sys2Proof.Machine.execRefGood pll refB s
  | .switchoverLock pll => Sys2Proof.Machine.execSwitchoverLock pll s
  | .coastStep pll => Sys2Proof.Machine.execCoastStep pll s
  | .pllLockLoss die => Sys2Proof.Machine.execPllLockLoss die s
  | .sensorSample sensor val outside dt => Sys2Proof.Machine.execSensorSample sensor val outside dt s
  | .throttleStep => Sys2Proof.Machine.execThrottleStep s
  | .throttleRecovery => Sys2Proof.Machine.execThrottleRecovery s
  | .solsticeRampStep dt => Sys2Proof.Machine.execSolsticeRampStep dt s
  | .stepdownStep dt => Sys2Proof.Machine.execStepdownStep dt s
  | .wearBinWrite dt newHour => Sys2Proof.Machine.execWearBinWrite dt newHour s
  | .tripComparator sensor => Sys2Proof.Machine.execTripComparator sensor s
  | .lockstepMismatch testPass => Sys2Proof.Machine.execLockstepMismatch testPass s
  | .stewardWatchdog => Sys2Proof.Machine.execStewardWatchdog s
  | .stewardRestartDone dt => Sys2Proof.Machine.execStewardRestartDone dt s
  | .logWrite => Sys2Proof.Machine.execLogWrite s
  | .fwTrialTimer kind => Sys2Proof.Machine.execFwTrialTimer kind s
  | .conductorLoaded core => Sys2Proof.Machine.execConductorLoaded core s
  | .equinoxHandover part => Sys2Proof.Machine.execEquinoxHandover part s
  | .marshalActivation die => Sys2Proof.Machine.execMarshalActivation die s
  | .setEndpointId op eid => Sys2Proof.Machine.execSetEndpointId op eid s
  | .getEndpointId => Sys2Proof.Machine.execGetEndpointId s
  | .getMctpVersionSupport ty => Sys2Proof.Machine.execGetMctpVersionSupport ty s
  | .getMessageTypeSupport => Sys2Proof.Machine.execGetMessageTypeSupport s
  | .mgmtCommandPacket debug packet => Sys2Proof.Machine.execMgmtCommandPacket debug packet s
  | .getTid => Sys2Proof.Machine.execGetTid s
  | .getPldmVersion ty => Sys2Proof.Machine.execGetPldmVersion ty s
  | .getPldmTypes => Sys2Proof.Machine.execGetPldmTypes s
  | .getPldmCommands ty => Sys2Proof.Machine.execGetPldmCommands ty s
  | .getPdrRepositoryInfo => Sys2Proof.Machine.execGetPdrRepositoryInfo s
  | .getPdr record => Sys2Proof.Machine.execGetPdr record s
  | .getSensorReading sensor => Sys2Proof.Machine.execGetSensorReading sensor s
  | .pollForPlatformEventMessage ack => Sys2Proof.Machine.execPollForPlatformEventMessage ack s
  | .pldmUnsupported ty cmd => Sys2Proof.Machine.execPldmUnsupported ty cmd s
  | .queryDeviceIdentifiers => Sys2Proof.Machine.execQueryDeviceIdentifiers s
  | .getFirmwareParameters => Sys2Proof.Machine.execGetFirmwareParameters s
  | .requestUpdate => Sys2Proof.Machine.execRequestUpdate s
  | .passComponentTable comps => Sys2Proof.Machine.execPassComponentTable comps s
  | .updateComponent comp size => Sys2Proof.Machine.execUpdateComponent comp size s
  | .requestFirmwareDataResponse off data => Sys2Proof.Machine.execRequestFirmwareDataResponse off data s
  | .transferComplete result => Sys2Proof.Machine.execTransferComplete result s
  | .verifyComplete => Sys2Proof.Machine.execVerifyComplete s
  | .applyComplete slotBad => Sys2Proof.Machine.execApplyComplete slotBad s
  | .activateFirmware => Sys2Proof.Machine.execActivateFirmware s
  | .getStatus => Sys2Proof.Machine.execGetStatus s
  | .cancelUpdateComponent => Sys2Proof.Machine.execCancelUpdateComponent s
  | .cancelUpdate => Sys2Proof.Machine.execCancelUpdate s
  | .spdmGetVersion => Sys2Proof.Machine.execSpdmGetVersion s
  | .spdmGetCapabilities version => Sys2Proof.Machine.execSpdmGetCapabilities version s
  | .negotiateAlgorithms offersAll => Sys2Proof.Machine.execNegotiateAlgorithms offersAll s
  | .getDigests => Sys2Proof.Machine.execGetDigests s
  | .getCertificate slot off len => Sys2Proof.Machine.execGetCertificate slot off len s
  | .challenge slot nonce => Sys2Proof.Machine.execChallenge slot nonce s
  | .getMeasurements index => Sys2Proof.Machine.execGetMeasurements index s
  | .keyExchange slot => Sys2Proof.Machine.execKeyExchange slot s
  | .finish session verified => Sys2Proof.Machine.execFinish session verified s
  | .heartbeat session => Sys2Proof.Machine.execHeartbeat session s
  | .keyUpdate session => Sys2Proof.Machine.execKeyUpdate session s
  | .endSession session => Sys2Proof.Machine.execEndSession session s
  | .ideKmKeyProg session stream set => Sys2Proof.Machine.execIdeKmKeyProg session stream set s
  | .kSetGo session stream set => Sys2Proof.Machine.execKSetGo session stream set s
  | .tdispGetVersion session => Sys2Proof.Machine.execTdispGetVersion session s
  | .tdispGetCapabilities session => Sys2Proof.Machine.execTdispGetCapabilities session s
  | .lockInterfaceRequest session part stream => Sys2Proof.Machine.execLockInterfaceRequest session part stream s
  | .getDeviceInterfaceReport session part => Sys2Proof.Machine.execGetDeviceInterfaceReport session part s
  | .getDeviceInterfaceState session part => Sys2Proof.Machine.execGetDeviceInterfaceState session part s
  | .startInterfaceRequest session part => Sys2Proof.Machine.execStartInterfaceRequest session part s
  | .stopInterfaceRequest session part => Sys2Proof.Machine.execStopInterfaceRequest session part s
  | .ideIntegrityFailure stream => Sys2Proof.Machine.execIdeIntegrityFailure stream s
  | .debugSessionExpiry => Sys2Proof.Machine.execDebugSessionExpiry s
  | .challengeExpiry => Sys2Proof.Machine.execChallengeExpiry s
  | .jtagInstruction ir => Sys2Proof.Machine.execJtagInstruction ir s
  | .jtagTrst => Sys2Proof.Machine.execJtagTrst s
  | .flashEraseDone => Sys2Proof.Machine.execFlashEraseDone s
  | .v3p3AuxGood spi => Sys2Proof.Machine.execV3p3AuxGood spi s
  | .v3p3AuxLost => Sys2Proof.Machine.execV3p3AuxLost s
  | .romBootRetry spi => Sys2Proof.Machine.execRomBootRetry spi s
  | .pwrEnAssert fuseBad => Sys2Proof.Machine.execPwrEnAssert fuseBad s
  | .vin48Good refA refB failed conductors => Sys2Proof.Machine.execVin48Good refA refB failed conductors s
  | .vin48StartTimeout => Sys2Proof.Machine.execVin48StartTimeout s
  | .vin48Retry => Sys2Proof.Machine.execVin48Retry s
  | .vin48Lost => Sys2Proof.Machine.execVin48Lost s
  | .dramTrained failed => Sys2Proof.Machine.execDramTrained failed s
  | .flashMapRebuilt rebuilt => Sys2Proof.Machine.execFlashMapRebuilt rebuilt s
  | .readySet ms => Sys2Proof.Machine.execReadySet ms s
  | .sysResetNRelease lowUs => Sys2Proof.Machine.execSysResetNRelease lowUs s
  | .pciePerstNFall => Sys2Proof.Machine.execPciePerstNFall s
  | .pciePerstNRise => Sys2Proof.Machine.execPciePerstNRise s
  | .warmReset spi dt refA refB failed conductors fuseBad => Sys2Proof.Machine.execWarmReset spi dt refA refB failed conductors fuseBad s
  | .coldReset spi => Sys2Proof.Machine.execColdReset spi s
  | .i3cSetdasa static addr => Sys2Proof.Machine.execI3cSetdasa static addr s
  | .i3cEntdaa addr => Sys2Proof.Machine.execI3cEntdaa addr s
  | .sysResetNAssert => Sys2Proof.Machine.execSysResetNAssert s
  | .hostPortL0 wide => Sys2Proof.Machine.execHostPortL0 wide s
  | .hostLinkDown => Sys2Proof.Machine.execHostLinkDown s
  | .sriovEnable on => Sys2Proof.Machine.execSriovEnable on s
  | .pageSetZeroingDone part ctx page => Sys2Proof.Machine.execPageSetZeroingDone part ctx page s
  | .channelResetDone stack chan answers => Sys2Proof.Machine.execChannelResetDone stack chan answers s
  | .solsticeDurationExpiry => Sys2Proof.Machine.execSolsticeDurationExpiry s
  | .firmwareFault kind => Sys2Proof.Machine.execFirmwareFault kind s

end Sys2Proof.Machine
end

