-- ==== Sys2Proof/Safety.lean ====
section
/-! DEFINITION. What the claims call a good state, and the conditions under which a command has its own effect. -/

namespace Sys2Proof.Machine

/-! ### Tile instructions -/

/-- The core that an issue names. -/
abbrev State.coreOf (s : State) (op : TileOp) : Core := s.core (CorePos.key op.core)

/-- The state in which the core of an issue has been replaced and nothing else. -/
abbrev State.leaves (s : State) (op : TileOp) (c : Core) : State := s.setCore (CorePos.key op.core) c

/-- Nothing stands in the way of an issue: the core exists, no core fault stopped it, its sequencer runs (R149, R185), it
is not being zeroed (R118), the word at its PC has a listed opcode (R156), and its hardware checks report nothing (R110, R640). -/
abbrev Issues (s : State) (op : TileOp) : Prop :=
  posOk op.core = true ∧ (s.coreOf op).run.frozen = false ∧ (s.coreOf op).seq.state = .running ∧
  (s.coreOf op).regs.zeroing = false ∧ Cu.fetchListed (s.coreOf op) = true ∧ op.hw = .none

/-- As Issues, for WAIT, which also issues again while it waits at no barrier (R175, R185). -/
abbrev IssuesWait (s : State) (op : TileOp) : Prop :=
  posOk op.core = true ∧ (s.coreOf op).run.frozen = false ∧
  ((s.coreOf op).seq.state = .running ∨ ((s.coreOf op).seq.state = .waiting ∧ (s.coreOf op).seq.atBar = none)) ∧
  (s.coreOf op).regs.zeroing = false ∧ Cu.fetchListed (s.coreOf op) = true ∧ op.hw = .none

/-- A core event reaches its core: the core exists and no core fault stopped it. -/
abbrev Reaches (s : State) (p : CorePos) : Prop := posOk p = true ∧ (s.core (CorePos.key p)).run.frozen = false

/-- The word after the one at PC, with the loops that end there counted down, lies in program memory (R160). -/
abbrev GoesOn (c : Core) : Prop := (Cu.loopEnd c.seq.lc c.seq.pc c.seq.loops).1 ≤ 0x1FFF

/-- The core at its next instruction: PC and the hardware loops moved on, nothing else (R160). -/
def advance (c : Core) : Core :=
  { c with seq := { c.seq with
    pc := (Cu.loopEnd c.seq.lc c.seq.pc c.seq.loops).1
    loops := (Cu.loopEnd c.seq.lc c.seq.pc c.seq.loops).2.1
    lc := (Cu.loopEnd c.seq.lc c.seq.pc c.seq.loops).2.2 } }

/-- The core once an array instruction has been issued to an array that is not ramping down (R95). -/
abbrev clocked (c : Core) : Core := Cu.ramp c

/-- The core with its active and shadow copies exchanged by a swap token behind `before` passes (R83). -/
def swapped (c : Core) (before : Nat) : Core :=
  { c with arr := { c.arr with active := c.arr.shadow, shadow := c.arr.active, token := some before } }

/-! ### Queue commands -/

/-- The queue command that a row performs: its place, its opcode, and whether it waits for no context (R435, R441). -/
def queueRow (i : Instr) : Option (CmdRef × Nat × Bool) :=
  match i with
  | .opPartCreate c => some (c, 0x0101, false)
  | .opPartDestroy c => some (c, 0x0102, false)
  | .opPartDisable c => some (c, 0x0103, false)
  | .opPartStat c => some (c, 0x0104, false)
  | .opCtxCreate c => some (c, 0x0105, false)
  | .opCtxDestroy c => some (c, 0x0106, true)
  | .opQuotaSet c => some (c, 0x0107, false)
  | .opQuotaStat c => some (c, 0x0108, false)
  | .opCmdAbort c => some (c, 0x0109, false)
  | .opPlanLoad c => some (c, 0x0201, false)
  | .opWeightLoad c => some (c, 0x0202, false)
  | .opPoolBind c _ => some (c, 0x0203, false)
  | .opTensorStat c => some (c, 0x0204, false)
  | .opRun c => some (c, 0x0301, false)
  | .opRoll c => some (c, 0x0302, false)
  | .opFork c => some (c, 0x0303, false)
  | .opTrainStep c => some (c, 0x0304, false)
  | .opSeqCreate c => some (c, 0x0305, false)
  | .opSeqRelease c => some (c, 0x0306, false)
  | .opSeqThaw c => some (c, 0x0307, false)
  | .opKvStat c => some (c, 0x0308, false)
  | .opRegionCreate c => some (c, 0x0401, false)
  | .opRegionDestroy c => some (c, 0x0402, false)
  | .opMemClass c => some (c, 0x0403, false)
  | .opMemCopy c => some (c, 0x0404, false)
  | .opStoreCreate c => some (c, 0x0405, false)
  | .opStoreDestroy c => some (c, 0x0406, false)
  | .opStoreAttach c => some (c, 0x0407, false)
  | .opStoreWrite c => some (c, 0x0408, false)
  | .opStoreRead c _ => some (c, 0x0409, false)
  | .opStoreTrim c => some (c, 0x040A, false)
  | .opStoreStat c => some (c, 0x040B, false)
  | .opJpegDecode c => some (c, 0x0501, false)
  | .opDcacheConfig c => some (c, 0x0502, false)
  | .opLsfRead c => some (c, 0x0503, false)
  | .opLsfWrite c => some (c, 0x0504, false)
  | .opCapAssign c => some (c, 0x0601, false)
  | .opCapConfig c => some (c, 0x0602, false)
  | .opCapStart c => some (c, 0x0603, false)
  | .opCapStop c => some (c, 0x0604, false)
  | .opHarvest c => some (c, 0x0605, false)
  | .opInventory c => some (c, 0x0701, false)
  | .opSensorRead c => some (c, 0x0702, false)
  | .opEventRead c => some (c, 0x0703, false)
  | .opFwStage c _ => some (c, 0x0704, false)
  | .opFwActivate c => some (c, 0x0705, false)
  | .opBoost c => some (c, 0x0706, false)
  | .opReset c => some (c, 0x0707, false)
  | .opLcAdvance c _ => some (c, 0x0801, false)
  | .opKeyProvision c _ => some (c, 0x0802, false)
  | .opDebugUnlock c _ => some (c, 0x0803, false)
  | .opConfidential c => some (c, 0x0804, false)
  | .opPlanKey c => some (c, 0x0805, false)
  | .opSpanConfig c => some (c, 0x0901, false)
  | .opSpanRoute c => some (c, 0x0902, false)
  | .opSpanWindow c => some (c, 0x0903, false)
  | .opCollGroup c => some (c, 0x0904, false)
  | .opSpanStat c => some (c, 0x0905, false)
  | _ => none

/-- A queue command that has passed its checks performs its work now: its interpreter runs, and nothing it must wait for
stands in front of it (R433 to R437, R462). -/
abbrev AtPoint (s : State) (c : CmdRef) (k : Cmd) (op : Nat) : Prop :=
  s.cmd c = some k ∧ k.opcode = op ∧ s.serves c.block = true ∧ k.phase = .waiting ∧
  s.ready c k (decide (op = 0x0106)) = true

/-- The partition a command acts for, as the gate numbers it (R442). -/
abbrev Cmd.home (k : Cmd) (c : CmdRef) : Nat := (k.partOf c.block).getD 8

/-! ### Invariants -/

/-- What every step keeps: the life-cycle fuses are blown without a gap (R534, R543); the media root is dead, and an erasure due, only
after FIELD (R544, R545); event numbers stay within the recorded bound (R579); and the throttle steps stand in rising order of die. -/
structure GoodState (s : State) : Prop where
  lcNoGap : ∀ i, i < 3 → s.sec.fuses.lc.getLsbD (i + 1) = true → s.sec.fuses.lc.getLsbD i = true
  killedLate : s.sec.fuses.mediaKill = true → 4 ≤ s.lcState
  dueLate : s.sec.eraseDue = true → 4 ≤ s.lcState
  seqBound : s.stw.nextSeq ≤ s.stw.seqBound
  stepsRise : SMap.risingFrom 0 s.pwr.steps = true

/-- A fuse that is blown in the first state is blown, with the same content, in the second (R534). -/
structure FusesKept (s t : State) : Prop where
  lc : ∀ i, i < 4 → s.sec.fuses.lc.getLsbD i = true → t.sec.fuses.lc.getLsbD i = true
  revoke : ∀ i, i < 4 → s.sec.fuses.ownerRevoke.getLsbD i = true → t.sec.fuses.ownerRevoke.getLsbD i = true
  media : s.sec.fuses.mediaKill = true → t.sec.fuses.mediaKill = true
  owner : ∀ i h, SMap.get none s.sec.fuses.owner i = some h → SMap.get none t.sec.fuses.owner i = some h
  svn : s.sec.fuses.svnSteward ≤ t.sec.fuses.svnSteward ∧ s.sec.fuses.svnConductor ≤ t.sec.fuses.svnConductor ∧
    s.sec.fuses.svnMarshal ≤ t.sec.fuses.svnMarshal

/-! ### Latent streams -/

/-- The grids of records that are all decoded, each against the slot that the records before it left (R528 to R530); none where
one of them ends the command or is skipped. -/
def LsfSlot.decodeAll (x : LsfSlot) : List LsfRec → Option (List (List Nat))
  | [] => some []
  | r :: rs =>
    if x.recordFault r = none ∧ (x.handle r).1 = 0 then
      ((x.after r 0 (x.handle r).2).decodeAll rs).map (fun gs => (x.handle r).2 :: gs)
    else none

end Sys2Proof.Machine
end

