-- ==== Sys2Proof/Certificates/Slice0/Obligations.lean ====
section
/-! DEFINITION. The statements for the provers: what the commands of the block do by the numbered rules of the manual. -/

open Sys2Proof Sys2Proof.Machine

/-! ### The block and its queue -/

/-- The block takes its commands first in, first out: a step runs the command at the front on the rest of the queue, and
an empty queue leaves the block as it is (the model's own choice, notes/assumptions/5.md). -/
def Obligations.StepRunsFrontCommand : Prop :=
  ∀ (s : State) (c : Instr) (rest : List Instr),
    step (s.withPending (c :: rest)) = exec c (s.withPending rest) ∧ step (s.withPending []) = .next (s.withPending [])

/-! ### Tile programs (chapters 3 to 6 and 9) -/

/-- R154: X0 reads zero and a write to X0 is discarded; every other register holds what was written, and no other register
changes. The registers are in canonical form, which every write keeps.
R161, R162: each scalar instruction writes X[F1] with its result and goes on; the rest of the module is as before. Only
RDC of the cycle count (source 34) also takes a free value (notes/assumptions/2.md). -/
def Obligations.ScalarInstructionResults : Prop :=
  (
  ∀ (c : Core) (i j : BitVec 4) (r : Word), SMap.wf 0#32 c.seq.x = true →
    Cu.x c 0 = 0 ∧ Cu.setX c 0 r = c ∧ SMap.wf 0#32 (Cu.setX c i r).seq.x = true ∧
    (i ≠ 0 → Cu.x (Cu.setX c i r) i = r) ∧ (j ≠ i → Cu.x (Cu.setX c i r) j = Cu.x c j)
  ) ∧
  (
  ∀ (s : State) (op : TileOp), Issues s op → GoesOn (s.coreOf op) →
    let c := s.coreOf op
    let w := op.w
    let writes (r : Word) : Out := .next (s.leaves op (advance (Cu.setX c w.f1 r)))
    let three := Cu.usesOnly w true true true false 0 0 = true
    (Cu.usesOnly w true false false false 0 0xFFFFFFFF#32 = true → exec (.tMovi op) s = writes w.imm) ∧
    (three → exec (.tAdd op) s = writes (Cu.x c w.f2 + Cu.x c w.f3)) ∧
    (Cu.usesOnly w true true false false 0 0xFFFFFFFF#32 = true → exec (.tAddi op) s = writes (Cu.x c w.f2 + w.imm)) ∧
    (three → exec (.tSub op) s = writes (Cu.x c w.f2 - Cu.x c w.f3)) ∧
    (three → exec (.tMul op) s = writes (Cu.x c w.f2 * Cu.x c w.f3)) ∧
    (three → exec (.tAnd op) s = writes (Cu.x c w.f2 &&& Cu.x c w.f3)) ∧
    (three → exec (.tOr op) s = writes (Cu.x c w.f2 ||| Cu.x c w.f3)) ∧
    (w.md = 1 → Cu.usesOnly w true true false false 1#8 0x1F#32 = true →
      exec (.tShl op) s = writes (Cu.x c w.f2 <<< (w.imm.toNat % 32)) ∧
      exec (.tShr op) s = writes (Cu.x c w.f2 >>> (w.imm.toNat % 32))) ∧
    (w.md = 0 → three →
      exec (.tShl op) s = writes (Cu.x c w.f2 <<< ((Cu.x c w.f3).toNat % 32)) ∧
      exec (.tShr op) s = writes (Cu.x c w.f2 >>> ((Cu.x c w.f3).toNat % 32))) ∧
    (Cu.usesOnly w true false false false 0x3F#8 0 = true →
      (w.md.toNat < 24 → exec (.tRdc op) s = writes ((Cu.counter c w.md.toNat).setWidth 32)) ∧
      (w.md.toNat = 32 → exec (.tRdc op) s = writes (BitVec.ofNat 32 (s.posWord (CorePos.key op.core)))) ∧
      (w.md.toNat = 33 → c.seq.loops = [] → exec (.tRdc op) s = writes 0) ∧
      (∀ (l : LoopRec) (ls : List LoopRec), w.md.toNat = 33 → c.seq.loops = l :: ls →
        exec (.tRdc op) s = writes (SMap.get 0#32 c.seq.lc l.ctr)) ∧
      (w.md.toNat = 34 → exec (.tRdc op) s =
        .next (({ s with freeCtr := s.freeCtr + 1 } : State).leaves op
          (advance (Cu.setX c w.f1 (Config.freeWord s.freeCtr))))))
  )

/-- R159, R160, R182: where control goes. NOP goes on; JMP and a taken BR go to the target and end every active loop whose
body the target leaves, from the innermost outward; a BR not taken goes on; LOOP sets its counter and starts its body, or
skips to the word after its end for a count of zero; TRAP is the program fault USER with its code.
R160, read as conditions of BR in R159: 0 equal, 1 not equal, 2 below and 3 not below (unsigned), 4 below and 5 not below
(signed).
R156, R182: a reserved field that is not zero is the program fault ILLEGAL at the instruction's PC, with the unit of the
instruction. One of each shape of encoding is named. -/
def Obligations.ControlInstructionResults : Prop :=
  (
  ∀ (s : State) (op : TileOp), Issues s op →
    let c := s.coreOf op
    let w := op.w
    let target := w.imm.toNat % 0x2000
    let inside (l : LoopRec) : Bool := decide (l.first ≤ target ∧ target ≤ l.last)
    let branches : Out := .next (s.leaves op
      { c with seq := { c.seq with pc := target, loops := c.seq.loops.dropWhile (fun l => !inside l) } })
    let goesOn : Out := .next (s.leaves op (advance c))
    (w = ⟨0, 0, 0, 0, 0, 0⟩ → GoesOn c → exec (.tNop op) s = goesOn) ∧
    (Cu.usesOnly w false false false false 0 0x1FFF#32 = true → exec (.tJmp op) s = branches) ∧
    (Cu.usesOnly w false true true false 7#8 0x1FFF#32 = true → w.md.toNat ≤ 5 →
      (Cu.brTaken w.md.toNat (Cu.x c w.f2) (Cu.x c w.f3) = true → exec (.tBr op) s = branches) ∧
      (Cu.brTaken w.md.toNat (Cu.x c w.f2) (Cu.x c w.f3) = false → GoesOn c → exec (.tBr op) s = goesOn)) ∧
    (Cu.usesOnly w false true false false 3#8 0xFFFF1FFF#32 = true →
      c.seq.pc < target → (∀ l ∈ c.seq.loops, l.ctr ≠ w.md.toNat) → (∀ l ∈ c.seq.loops, target ≤ l.last) →
      let n := Cu.x c w.f2 + BitVec.ofNat 32 (w.imm.toNat / 0x10000)
      (n ≠ 0 → exec (.tLoop op) s = .next (s.leaves op { c with seq := { c.seq with
        pc := c.seq.pc + 1
        lc := SMap.set 0#32 c.seq.lc w.md.toNat n
        loops := { ctr := w.md.toNat, first := c.seq.pc + 1, last := target } :: c.seq.loops } })) ∧
      (let skip : Core := { c with seq := { c.seq with pc := target, lc := SMap.set 0#32 c.seq.lc w.md.toNat 0 } }
       n = 0 → GoesOn skip → exec (.tLoop op) s = .next (s.leaves op (advance skip)))) ∧
    (Cu.usesOnly w false false false false 0 0xFFFF#32 = true →
      exec (.tTrap op) s =
        .next (s.programFault (CorePos.key op.core) c.seq.pc 0x0F 0 (w.imm.toNat % 0x10000)))
  ) ∧
  (
  (∀ (a b : Word), (Cu.brTaken 0 a b = true ↔ a = b) ∧ (Cu.brTaken 1 a b = true ↔ a ≠ b) ∧
    (Cu.brTaken 2 a b = true ↔ a.toNat < b.toNat) ∧ (Cu.brTaken 3 a b = true ↔ b.toNat ≤ a.toNat) ∧
    (Cu.brTaken 4 a b = true ↔ a.toInt < b.toInt) ∧ (Cu.brTaken 5 a b = true ↔ b.toInt ≤ a.toInt)) ∧
  (∀ (c : Core), (∀ l ∈ c.seq.loops, l.last ≠ c.seq.pc) → advance c = { c with seq := { c.seq with pc := c.seq.pc + 1 } }) ∧
  (∀ (c : Core) (l : LoopRec) (ls : List LoopRec), c.seq.loops = l :: ls → l.last = c.seq.pc →
    let n := SMap.get 0#32 c.seq.lc l.ctr - 1
    let counted : Core := { c with seq := { c.seq with lc := SMap.set 0#32 c.seq.lc l.ctr n } }
    (n ≠ 0 → advance c = { counted with seq := { counted.seq with pc := l.first } }) ∧
    (n = 0 → advance c = advance { counted with seq := { counted.seq with loops := ls } }))
  ) ∧
  (
  ∀ (s : State) (op : TileOp), Issues s op →
    let c := s.coreOf op
    let w := op.w
    let illegal (unit : Nat) : Out := .next (s.programFault (CorePos.key op.core) c.seq.pc 0x01 unit 0)
    (w ≠ ⟨0, 0, 0, 0, 0, 0⟩ → exec (.tNop op) s = illegal 0 ∧ exec (.tEnd op) s = illegal 0 ∧ exec (.tSwp op) s = illegal 1) ∧
    (w.f4 ≠ 0 → exec (.tMovi op) s = illegal 0 ∧ exec (.tAdd op) s = illegal 0 ∧ exec (.tShl op) s = illegal 0 ∧
      exec (.tLdx op) s = illegal 3 ∧ exec (.tStx op) s = illegal 3 ∧ exec (.tRdc op) s = illegal 0 ∧
      exec (.tVadd op) s = illegal 3 ∧ exec (.tVld op) s = illegal 3 ∧ exec (.tVcvt op) s = illegal 3 ∧
      exec (.tVred op) s = illegal 3 ∧ exec (.tFlush op) s = illegal 2 ∧ exec (.tAclr op) s = illegal 2 ∧
      exec (.tSfn op) s = illegal 4 ∧ exec (.tSmp op) s = illegal 4 ∧ exec (.tSsmx op) s = illegal 4 ∧
      exec (.tStld op) s = illegal 5 ∧ exec (.tSstep op) s = illegal 5 ∧ exec (.tSout op) s = illegal 5 ∧
      exec (.tNbx op) s = illegal 8 ∧ exec (.tCset op) s = illegal 0 ∧ exec (.tFence op) s = illegal 0) ∧
    (5 < w.md.toNat → exec (.tBr op) s = illegal 0) ∧
    (15 < w.md.toNat % 0x40 → exec (.tCset op) s = illegal 0) ∧
    (34 < w.md.toNat ∨ (24 ≤ w.md.toNat ∧ w.md.toNat < 32) → exec (.tRdc op) s = illegal 0)
  )

/-- R119 to R122, R161, R167: LDX, STX, VLD and VST move words between SPAD, as narrow accesses of 32-byte parts, and registers. The offset
is X[F2] plus IMM[21:0], never wrapped (R157).
R157, R161, R167, R182: an offset that is not aligned, or that leaves SPAD, is the program fault SPAD_RANGE with the
offset as argument; a bank that is OFF is SPAD_BANK_OFF (R116); a bank that wakes or is being scrubbed holds the
instruction.
R182 steps 1 and 2: a program fault leaves its core FAULTED with the code, unit, PC and argument recorded, no work
queued or in flight in its units, no gather-buffer entry, and its memories as they were; the rest of the module is as before
when the core runs no dispatch. -/
def Obligations.NarrowAccessResults : Prop :=
  (
  ∀ (s : State) (op : TileOp), Issues s op → GoesOn (s.coreOf op) →
    let c := s.coreOf op
    let w := op.w
    let off := (Cu.x c w.f2).toNat + w.imm.toNat % 0x400000
    let n := w.md.toNat % 8 + 1
    let leaves (d : Core) : Out := .next (s.leaves op (advance d))
    (off % 4 = 0 → off + 4 ≤ 0x400000 → Cu.access c off 4 = .ok →
      (Cu.usesOnly w true true false false 0 0x3FFFFF#32 = true →
        let r := Cu.narrowReads c (off / 32 * 32) 1
        exec (.tLdx op) s = leaves (Cu.setX r.2 w.f1 (BitVec.ofNat 32 (field r.1 (off % 32) 4)))) ∧
      (Cu.usesOnly w false true true false 0 0x3FFFFF#32 = true →
        exec (.tStx op) s = leaves (Cu.narrowWrite c off (leBytes 4 (Cu.x c w.f3).toNat)))) ∧
    (off % 32 = 0 → off + 32 * n ≤ 0x400000 → Cu.access c off (32 * n) = .ok →
      Cu.usesOnly w true true false false 7#8 0x3FFFFF#32 = true →
      exec (.tVld op) s =
        leaves (Cu.setVFrom (Cu.narrowReads c off n).2 w.f1 0 (Cu.wordsOf (Cu.narrowReads c off n).1 (8 * n))) ∧
      exec (.tVst op) s = leaves (Cu.narrowWrites c off n (Cu.bytesOf ((Cu.v c w.f1).take (8 * n)))))
  ) ∧
  (
  ∀ (s : State) (op : TileOp), Issues s op → Cu.usesOnly op.w true true false false 0 0x3FFFFF#32 = true →
    let c := s.coreOf op
    let off := (Cu.x c op.w.f2).toNat + op.w.imm.toNat % 0x400000
    let faults (code arg : Nat) : Out := .next (s.programFault (CorePos.key op.core) c.seq.pc code 3 arg)
    (off % 4 ≠ 0 ∨ 0x400000 < off + 4 → exec (.tLdx op) s = faults 0x09 off) ∧
    (off % 32 ≠ 0 ∨ 0x400000 < off + 32 → exec (.tVld op) s = faults 0x09 off) ∧
    (off % 4 = 0 → off + 4 ≤ 0x400000 → Cu.bank c (off / 0x40000) = .off → exec (.tLdx op) s = faults 0x0A 0) ∧
    (off % 4 = 0 → off + 4 ≤ 0x400000 → Cu.bank c (off / 0x40000) = .waking ∨ Cu.bank c (off / 0x40000) = .scrub →
      exec (.tLdx op) s = .next s)
  ) ∧
  (
  ∀ (s : State) (k pc code unit arg : Nat), s.dispatchOf k = none →
    let c := s.core k
    ∃ d : Core, s.programFault k pc code unit arg = s.setCore k d ∧
      d.seq.state = .faulted ∧ d.seq.faultCode = BitVec.ofNat 8 code ∧ d.seq.faultUnit = BitVec.ofNat 4 unit ∧
      d.seq.faultPc = BitVec.ofNat 13 pc ∧ d.seq.faultArg = BitVec.ofNat 32 arg ∧
      d.arr.loading = none ∧ d.arr.flights = [] ∧ d.dma0.queue = [] ∧ d.dma1.queue = [] ∧
      (∀ p ∈ d.ports, p.2.outbound = []) ∧ d.run.spanWaits = [] ∧
      d.mem = { c.mem with gb := [] } ∧ d.regs = c.regs ∧ d.seq.x = c.seq.x ∧ d.seq.v = c.seq.v ∧ d.seq.sem = c.seq.sem
  )

/-- R112: the first write to a never-written line stores the written bytes, stores zero in the line's other bytes and sets
its written bit; a later partial write leaves the bytes it does not write. Said for a write of consecutive bytes and for
the masked write of one line (a gather-buffer flush). -/
def Obligations.FirstWriteZeroesTheLine : Prop :=
  ∀ c : Core, Memory.wf c.mem.spad = true →
    (∀ (own : Bool) (off : Nat) (bs : List Byte),
      let d := Cu.bankWrite c own off bs
      (∀ i, i < bs.length → Memory.byte d.mem.spad (off + i) = bs.getD i 0 ∧ Cu.lineWritten d ((off + i) / 256) = true) ∧
      (∀ a, (a < off ∨ off + bs.length ≤ a) →
        Memory.byte d.mem.spad a =
          (if off / 256 ≤ a / 256 ∧ a / 256 * 256 < off + bs.length ∧ bs ≠ [] ∧ Cu.lineWritten c (a / 256) = false then 0
           else Memory.byte c.mem.spad a)) ∧
      (∀ l, (l * 256 + 256 ≤ off ∨ off + bs.length ≤ l * 256 ∨ bs = []) → Cu.lineWritten d l = Cu.lineWritten c l)) ∧
    (∀ e : GbEntry, SMap.risingFrom 0 e.data = true → (∀ p ∈ e.data, p.1 < 256) →
      let d := Cu.flushEntry c e
      (∀ k, k < 256 → Memory.byte d.mem.spad (e.line * 256 + k) =
        (if Cu.gbValid e k then Cu.gbByte e k else if Cu.lineWritten c e.line then Memory.byte c.mem.spad (e.line * 256 + k) else 0)) ∧
      (∀ a, a / 256 ≠ e.line → Memory.byte d.mem.spad a = Memory.byte c.mem.spad a) ∧
      (∀ l, Cu.lineWritten d l = (Cu.lineWritten c l || l == e.line)))

/-- R167, R168 (and R50, R93): the lane instructions read Va, Vb (or X[F3] in every lane, BX) and Vc, and write all of Vd;
the FP32 and the BF16 rule is the same for each lane. VRED leaves its result in lane 0 and +0 in the others.
R113, R125, R166, R167, R178: FLUSH copies accumulator rows to SPAD (and clears them if asked), ACLR clears rows, VLDA and
VSTA move one row. A row that a pass in flight still owes holds them.
R63 to R70, R169, R170: QNT turns the 128 values of Va and Vb into codes, packed lowest lane first, with the scale it used
in the top two bytes of Vd, and holds its contribution to the tensor's QSTAT record. Kinds: 0 BG4, 1 BG3, 2 E4M3. -/
def Obligations.LaneInstructionResults : Prop :=
  (
  ∀ (s : State) (op : TileOp), Issues s op → GoesOn (s.coreOf op) →
    let c := s.coreOf op
    let w := op.w
    let a := Cu.v c w.f2
    let bx := w.md.toNat / 2 % 2 = 1
    let b32 := if bx then List.replicate 64 (Cu.x c w.f3) else Cu.v c w.f3
    let b16 := if bx then List.replicate 128 ((Cu.x c w.f3).extractLsb' 0 16) else Cu.halves (Cu.v c w.f3)
    let writes (ws : List Word) : Out := .next (s.leaves op (advance (Cu.setV c w.f1 ws)))
    let lanes (f : Word → Word → Word) (e : Out) : Prop := e = writes (List.zipWith f a b32)
    let lanesB (g : Half → Half → Half) (e : Out) : Prop := e = writes (Cu.ofHalves (List.zipWith g (Cu.halves a) b16))
    (Cu.usesOnly w true true true false 3#8 0 = true → w.md.toNat % 2 = 0 →
      lanes Machine.Float.add (exec (.tVadd op) s) ∧ lanes Machine.Float.sub (exec (.tVsub op) s) ∧ lanes Machine.Float.mul (exec (.tVmul op) s) ∧
      lanes Machine.Float.maxF (exec (.tVmax op) s) ∧ lanes Machine.Float.minF (exec (.tVmin op) s)) ∧
    (Cu.usesOnly w true true true false 3#8 0 = true → w.md.toNat % 2 = 1 →
      lanesB Cu.bfAdd (exec (.tVadd op) s) ∧ lanesB Cu.bfSub (exec (.tVsub op) s) ∧ lanesB Cu.bfMul (exec (.tVmul op) s) ∧
      lanesB Cu.bfMax (exec (.tVmax op) s) ∧ lanesB Cu.bfMin (exec (.tVmin op) s)) ∧
    (Cu.usesOnly w true true true true 3#8 0 = true →
      (w.md.toNat % 2 = 0 → exec (.tVfma op) s = writes (Cu.zip3 Machine.Float.fma a b32 (Cu.v c w.f4))) ∧
      (w.md.toNat % 2 = 1 → exec (.tVfma op) s =
        writes (Cu.ofHalves (Cu.zip3 Cu.bfFma (Cu.halves a) b16 (Cu.halves (Cu.v c w.f4)))))) ∧
    (Cu.usesOnly w true true false false 0x0F#8 0 = true →
      (w.md = 1 → exec (.tVcvt op) s = writes (((Cu.halves a).take 64).map Machine.Float.widen)) ∧
      (w.md = 2 → exec (.tVcvt op) s = writes (((Cu.halves a).drop 64).map Machine.Float.widen)) ∧
      (w.md = 3 → exec (.tVcvt op) s = writes (a.map Machine.Float.ofInt32)) ∧
      (w.md = 4 → exec (.tVcvt op) s = writes (a.map Machine.Float.toInt32))) ∧
    (Cu.usesOnly w true true true false 0 0 = true →
      exec (.tVcvt op) s = writes (Cu.ofHalves (a.map Machine.Float.toBf ++ (Cu.v c w.f3).map Machine.Float.toBf))) ∧
    (Cu.usesOnly w true true false false 0 0 = true →
      let hi := a.map Machine.Float.toBf
      exec (.tVsplit op) s = writes (Cu.ofHalves (hi ++
        List.zipWith (fun z h => Machine.Float.toBf (Machine.Float.sub z (Machine.Float.widen h))) a hi))) ∧
    (Cu.usesOnly w true true false false 0x0D#8 0 = true →
      let xs := if w.md.toNat % 2 = 1 then (Cu.halves a).map Machine.Float.widen else a
      let kind := w.md.toNat / 4
      let r := if kind = 0 then Machine.Float.foldSum xs else if kind = 1 then Cu.foldBy Machine.Float.maxF xs else Cu.foldBy Machine.Float.minF xs
      kind ≤ 2 → exec (.tVred op) s = writes (r :: List.replicate 63 0#32))
  ) ∧
  (
  ∀ (s : State) (op : TileOp), Issues s op → GoesOn (s.coreOf op) →
    let c := s.coreOf op
    let w := op.w
    let leaves (d : Core) : Out := .next (s.leaves op (advance d))
    let r0 := (Cu.x c w.f2).toNat
    let r := (Cu.x c w.f3).toNat
    let rows := List.range r
    let free := ∀ i ∈ rows, Cu.rowBusy c (r0 + i) = false
    let dst := (Cu.x c w.f1).toNat + w.imm.toNat % 0x400000
    let bf := decide (w.imm.toNat / 0x400000 % 2 = 1)
    let clear := decide (w.imm.toNat / 0x800000 % 2 = 1)
    let bytes := if bf then 256 * (r / 2) + 128 * (r % 2) else 256 * r
    let row := (Cu.x c w.f2).toNat + w.imm.toNat % 0x400
    (Cu.usesOnly w true true true false 0 0x00FFFFFF#32 = true →
      (r = 0 → exec (.tFlush op) s = leaves c) ∧
      (0 < r → r0 + r ≤ 1024 → dst % 256 = 0 → dst + bytes ≤ 0x400000 → free → Cu.access c dst bytes = .ok →
        exec (.tFlush op) s = leaves (rows.foldl (fun d i => Cu.flushRow bf clear dst d r0 i) c))) ∧
    (Cu.usesOnly w false true true false 0 0 = true →
      (r = 0 → exec (.tAclr op) s = leaves c) ∧
      (0 < r → r0 + r ≤ 1024 → free →
        exec (.tAclr op) s = leaves (rows.foldl (fun d i => Cu.rowWrite d (r0 + i) (List.replicate 64 0#32)) c))) ∧
    (Cu.usesOnly w true true false false 0 0x3FF#32 = true → row < 1024 →
      (Cu.rowBusy c row = false →
        exec (.tVlda op) s = leaves (Cu.setV (Cu.rowRead c row).2 w.f1 (Cu.rowRead c row).1) ∧
        exec (.tVsta op) s = leaves (Cu.rowWrite c row (Cu.v c w.f1))) ∧
      (Cu.rowBusy c row = true → exec (.tVlda op) s = .next s ∧ exec (.tVsta op) s = .next s))
  ) ∧
  (
  ∀ (s : State) (op : TileOp), Issues s op → GoesOn (s.coreOf op) →
    let c := s.coreOf op
    let w := op.w
    let kind := w.md.toNat % 4
    let derived := decide (w.md.toNat / 4 % 2 = 1)
    let slot := w.md.toNat / 8 % 16
    let index := w.imm.toNat % 256
    let grid := SMap.get [] c.run.grids slot
    let width := if kind = 0 then 4 else if kind = 1 then 3 else 8
    let xs := Cu.v c w.f2 ++ Cu.v c w.f3
    let scale : Half := if derived then Machine.Float.derivedScale (if kind = 2 then none else some grid) xs
      else ((Cu.v c w.f4).headD 0).extractLsb' 0 16
    let codes := xs.map (fun z => if kind = 2 then Machine.Float.qntE4 scale z else Machine.Float.qntGrid grid scale z)
    let value := Cu.packCodes width (codes.map (fun k => k.code)) + scale.toNat * 2 ^ 2032
    Cu.usesOnly w true true true (!derived) 0x7F#8 0xFF#32 = true → kind ≤ 2 → index < c.run.qstatCount →
    (if kind = 2 then slot = 0 else grid.length = 2 ^ width) →
    exec (.tQnt op) s = .next (s.leaves op (advance (Cu.qstatHold
      (Cu.setV c w.f1 ((List.range 64).map (fun i => BitVec.ofNat 32 (value / 2 ^ (32 * i)))))
      (Cu.qstatOf index codes (decide (kind = 2))))))
  )

/-- R168: VRED with the sum kind leaves in word 0 of V[F1] the sum of the lanes in ascending order, each later lane added with
one rounding to FP32; BF16 lanes are widened first. The sum is of the operand alone, so no core gives another one. -/
def Obligations.VectorSumRunsUpTheLanes : Prop :=
  ∀ (s : State) (op : TileOp), Issues s op → GoesOn (s.coreOf op) → SMap.wf 0#32 (s.coreOf op).seq.v = true →
    let c := s.coreOf op
    let w := op.w
    let a (i : Nat) : Word := SMap.get 0#32 c.seq.v (w.f2.toNat * 64 + i)
    let lane (i : Nat) : Word := Machine.Float.widen ((a (i / 2)).extractLsb' (16 * (i % 2)) 16)
    Cu.usesOnly w true true false false 0x01#8 0 = true →
      (w.md = 0 → ∃ d : Core, exec (.tVred op) s = .next (s.leaves op d) ∧ SMap.get 0#32 d.seq.v (w.f1.toNat * 64) =
        (List.range 63).foldl (fun r i => Machine.Float.add r (a (i + 1))) (Machine.Float.canon (a 0))) ∧
      (w.md = 1 → ∃ d : Core, exec (.tVred op) s = .next (s.leaves op d) ∧ SMap.get 0#32 d.seq.v (w.f1.toNat * 64) =
        (List.range 127).foldl (fun r i => Machine.Float.add r (lane (i + 1))) (lane 0))

/-- R191 to R215: the special function unit. SFN applies a ROM function or a loaded table to every lane; SMP a ROM function, a
two-operand ROM function or a loaded micro-program; SROW folds lanes into a statistics record and SSMX into a softmax record
with the weights; STBL loads a slot, which stays empty when the image is not valid (R200).
R172, R292 to R296: the state unit. SSTEP computes fma(a, h, u) in each lane of a segment, or the compensated step on a
pair of segments; SOUT multiplies lane by lane; STLD and STST move whole segments from and to SPAD. -/
def Obligations.SpecialAndStateUnitResults : Prop :=
  (
  ∀ (s : State) (op : TileOp), Issues s op → GoesOn (s.coreOf op) →
    let c := s.coreOf op
    let w := op.w
    let f := w.md.toNat
    let a := Cu.v c w.f2
    let leaves (d : Core) : Out := .next (s.leaves op (advance d))
    let off := (Cu.x c w.f2).toNat + w.imm.toNat % 0x400000
    let one (z : Word) : Word := if f ≤ 0x0C then Cu.romEval c.run.gen2 f z else Cu.tevSlot c (f - 0x40) z
    (f ≤ 0x0C ∨ (0x40 ≤ f ∧ f ≤ 0x4F) → Cu.usesOnly w true true false false 0xFF#8 1#32 = true →
      (w.imm = 0 → exec (.tSfn op) s = leaves (Cu.setV c w.f1 (a.map one))) ∧
      (w.imm = 1 → exec (.tSfn op) s =
        leaves (Cu.setV c w.f1 (Cu.ofHalves ((Cu.halves a).map (fun h => Machine.Float.toBf (one (Machine.Float.widen h)))))))) ∧
    (Cu.usesOnly w true true true false 0xFF#8 0 = true →
      (f ≤ 0x0C → exec (.tSmp op) s = leaves (Cu.setV c w.f1 (a.map (Cu.romEval c.run.gen2 f)))) ∧
      (0x10 ≤ f → f ≤ 0x17 → exec (.tSmp op) s = leaves (Cu.setV c w.f1 (Cu.romPair c.run.gen2 f a (Cu.v c w.f3)))) ∧
      (0x20 ≤ f → f ≤ 0x2F →
        (SMap.get [] c.mem.micros (f - 0x20) = [] →
          exec (.tSmp op) s = leaves (Cu.setV c w.f1 (List.replicate 64 Machine.Float.nan32))) ∧
        (∀ bs : List Byte, bs ≠ [] → SMap.get [] c.mem.micros (f - 0x20) = bs →
          exec (.tSmp op) s = leaves (Cu.setV c w.f1 (Cu.runMicro (Cu.tevBy c) bs a (Cu.v c w.f3)))))) ∧
    (Cu.usesOnly w true true false false 3#8 0 = true →
      exec (.tSrow op) s = leaves (Cu.setV c w.f1 (Cu.srowFold c.run.gen2 (decide (f / 2 = 1)) (Cu.v c w.f1)
        (if f % 2 = 1 then (Cu.halves a).map Machine.Float.widen else a)))) ∧
    (Cu.usesOnly w true true true false 1#8 0 = true →
      let r := Cu.ssmxFold c.run.gen2 (decide (f = 1)) (Cu.v c w.f1) a
      exec (.tSsmx op) s = leaves (Cu.setV (Cu.setV c w.f3 r.2) w.f1 r.1)) ∧
    (Cu.usesOnly w false true false false 0xFF#8 0x3FFFFF#32 = true → off % 32 = 0 →
      (0x20 ≤ f → f ≤ 0x2F → off + 96 ≤ 0x400000 → Cu.access c off 32 = .ok → Cu.access c off 96 = .ok →
        let r := Cu.narrowReads c off 3
        exec (.tStbl op) s = leaves { r.2 with mem := { r.2.mem with
          micros := SMap.set [] r.2.mem.micros (f - 0x20) (if Cu.microValid r.1 then r.1 else []) } }) ∧
      (0x40 ≤ f → f ≤ 0x4F →
        let len := Cu.tableLength (Cu.narrowReads c off 1).1
        let n := (len + 31) / 32
        off + 32 * n ≤ 0x400000 → Cu.access c off 32 = .ok → Cu.access c off (32 * n) = .ok →
        let r := Cu.narrowReads c off n
        exec (.tStbl op) s = leaves { r.2 with mem := { r.2.mem with
          tables := SMap.set [] r.2.mem.tables (f - 0x40) (if Cu.tableValid r.1 then r.1.take len else []) } }))
  ) ∧
  (
  ∀ (s : State) (op : TileOp), Issues s op → GoesOn (s.coreOf op) →
    let c := s.coreOf op
    let w := op.w
    let n := w.md.toNat + 1
    let leaves (d : Core) : Out := .next (s.leaves op (advance d))
    let off := (Cu.x c w.f2).toNat + w.imm.toNat % 0x400000
    let seg := (Cu.x c w.f3).toNat
    let sb := (Cu.x c w.f1).toNat
    let so := (Cu.x c w.f2).toNat
    let a := Cu.v c w.f2
    let u := Cu.v c w.f3
    (Cu.usesOnly w false true true false 0xFF#8 0x3FFFFF#32 = true → seg + n ≤ 256 → off % 32 = 0 → off + 256 * n ≤ 0x400000 →
      Cu.access c off (256 * n) = .ok →
      exec (.tStld op) s = leaves (Cu.loadSegs (Cu.narrowReads c off (8 * n)).2 seg (Cu.narrowReads c off (8 * n)).1 n) ∧
      exec (.tStst op) s =
        leaves (Cu.narrowWrites (Cu.readSegs c seg n).2 off (8 * n) (Cu.bytesOf (Cu.readSegs c seg n).1))) ∧
    (Cu.usesOnly w true true true false 1#8 0 = true →
      (w.md = 0 → sb < 256 → exec (.tSstep op) s = leaves (Cu.segWrite (Cu.segRead c sb).2 sb
        ((List.range 64).map (fun j => Machine.Float.fma (a.getD j 0) ((Cu.segRead c sb).1.getD j 0) (u.getD j 0))))) ∧
      (w.md = 1 → sb + 2 ≤ 256 → sb % 2 = 0 →
        let r := Cu.readSegs c sb 2
        let ps := (List.range 64).map (fun j => Machine.Float.sstepComp (a.getD j 0) (r.1.getD (2 * j) 0) (r.1.getD (2 * j + 1) 0)
          (u.getD j 0))
        let ws := ps.flatMap (fun p => [p.1, p.2])
        exec (.tSstep op) s = leaves (Cu.segWrite (Cu.segWrite r.2 sb (ws.take 64)) (sb + 1) (ws.drop 64))) ∧
      (w.md = 0 → so < 256 →
        let r := Cu.segRead c so
        exec (.tSout op) s = leaves (Cu.setV r.2 w.f1
          (List.zipWith Machine.Float.mul u ((List.range 64).map (fun j => r.1.getD j 0))))) ∧
      (w.md = 1 → so + 2 ≤ 256 → so % 2 = 0 →
        let r := Cu.readSegs c so 2
        exec (.tSout op) s = leaves (Cu.setV r.2 w.f1 (List.zipWith Machine.Float.mul u
          ((List.range 64).map (fun j => Machine.Float.pairValue (r.1.getD (2 * j) 0) (r.1.getD (2 * j + 1) 0)))))))
  )

/-- R296: SOUT writes each lane j of V[F1] with the rounded product of the lane of V[F3] and the state read: h[j] of one segment,
or the rounded v + e of the pair j of two segments under COMP (MD bit 0). -/
def Obligations.StateReadIsScaled : Prop :=
  ∀ (s : State) (op : TileOp) (j : Nat), j < 64 → Issues s op → GoesOn (s.coreOf op) → SMap.wf 0#32 (s.coreOf op).seq.v = true →
    let c := s.coreOf op
    let w := op.w
    let so := (Cu.x c w.f2).toNat
    let k := SMap.get 0#32 c.seq.v (w.f3.toNat * 64 + j)
    Cu.usesOnly w true true true false 1#8 0 = true →
      (w.md = 0 → so < 256 → ∃ d : Core, exec (.tSout op) s = .next (s.leaves op d) ∧
        SMap.get 0#32 d.seq.v (w.f1.toNat * 64 + j) = Machine.Float.mul k ((Cu.segRead c so).1.getD j 0)) ∧
      (w.md = 1 → so + 2 ≤ 256 → so % 2 = 0 → ∃ d : Core, exec (.tSout op) s = .next (s.leaves op d) ∧
        SMap.get 0#32 d.seq.v (w.f1.toNat * 64 + j) =
          Machine.Float.mul k (Machine.Float.add ((Cu.readSegs c so 2).1.getD (2 * j) 0) ((Cu.readSegs c so 2).1.getD (2 * j + 1) 0)))

/-- R82 to R85, R135, R158, R164, R165: LDS starts a stationary load of a tile image, SWP exchanges the copies, PASS and TPASS
put a pass in flight with the active tile and the streams it reads, and swap after it if asked.
R76, R81 to R83, R95, R99 to R104, R110: the array's events. A load becomes the shadow copy. The earliest pass in flight
writes its rows, group by group, and counts its skipped comparisons; the first row in which the comparison of R99 fails stops
the core instead, with its mismatches and the skips decided by then counted, and so does a residue error. An error in the data
or in the check is one such pass with other sums; a corrected read error of the accumulator counts, an uncorrectable one stops
the core. An array with nothing in it ramps down and gates.
R77, R80, R81, R98 to R100: what a pass puts in flight. Row i of the activations is element k of logical row (p + i) mod Ms
at lane k of its line; a group sum is the chain of products in K order, each rounded once; the foot writes, adds to or subtracts
from the row it owns. The comparison of a row and group fails where |C - S| exceeds 2^-15 A + 2^-118, with C and A in units of
2^-298 and S in units of 2^-149, and is skipped where C, A or S is not finite. -/
def Obligations.ArrayResults : Prop :=
  (
  ∀ (s : State) (op : TileOp), Issues s op → GoesOn (s.coreOf op) → (s.coreOf op).arr.mode ≠ .rampDown →
    let c := s.coreOf op
    let w := op.w
    let leaves (d : Core) : Out := .next (s.leaves op (advance d))
    let off := (Cu.x c w.f2).toNat + w.imm.toNat % 0x400000
    let mode := w.md.toNat % 16
    let slot := w.md.toNat / 16
    let scaled := decide (w.imm.toNat / 0x80000000 = 1)
    let n := Cu.imageBytes mode scaled
    let swap := decide (w.imm.toNat / 0x800000 % 2 = 1)
    let acc := w.imm.toNat / 0x200000 % 4
    let p := (Cu.x c w.f3).toNat
    let flies (t : Tile) (streams : List (Nat × Nat)) (m a0 : Nat) : Core :=
      let d := Cu.enterPass (clocked c) t streams p m a0 acc
      if swap then swapped d c.arr.flights.length else d
    (∀ lv : List Half, Cu.usesOnly w false true false false 0xFF#8 0x803FFFFF#32 = true → 1 ≤ mode → mode ≤ 6 →
      (scaled = true → mode = 2) → off % 128 = 0 → off + n ≤ 0x400000 → Cu.gridFor c mode slot = some lv →
      c.arr.loading = none → Cu.access c off n = .ok →
      let r := Cu.wideRead (clocked c) off n
      exec (.tLds op) s = leaves { r.2 with arr := { r.2.arr with
        loading := some { mode := mode, grid := slot, levels := lv, scaled := scaled, image := r.1 } } }) ∧
    (w = ⟨0, 0, 0, 0, 0, 0⟩ → c.arr.loading = none → exec (.tSwp op) s = leaves (swapped (clocked c) c.arr.flights.length)) ∧
    (∀ (m a0 : Nat) (sa : Nat × Nat) (t : Tile), Cu.passLegal w false = true → Cu.passShape c w = some (m, a0) →
      1 ≤ m → a0 + m ≤ 1024 → Cu.stream (Cu.x c w.f1) = some sa → p < sa.2 → (swap = true → c.arr.loading = none) →
      c.arr.active = some t → t.mode ≤ 4 → (∀ l ∈ Cu.streamLines sa.1 sa.2 p m, Cu.bank c (l / 1024) = .on) →
      exec (.tPass op) s = leaves (flies t [sa] m a0)) ∧
    (∀ (m a0 : Nat) (sa sb : Nat × Nat) (t : Tile), Cu.passLegal w true = true → Cu.passShape c w = some (m, a0) →
      1 ≤ m → a0 + m ≤ 1024 → Cu.stream (Cu.x c w.f1) = some sa → Cu.stream (Cu.x c w.f2) = some sb → sa.2 = sb.2 →
      p < sa.2 → (swap = true → c.arr.loading = none) → c.arr.active = some t → 5 ≤ t.mode →
      (∀ l ∈ Cu.streamLines sa.1 sa.2 p m ++ Cu.streamLines sb.1 sb.2 p m, Cu.bank c (l / 1024) = .on) →
      exec (.tTpass op) s = leaves (flies t [sa, sb] m a0)) ∧
    (∀ a0 : Nat, Cu.passLegal w false = true → Cu.passShape c w = some (0, a0) →
      (swap = false → exec (.tPass op) s = leaves (clocked c)) ∧
      (swap = true → c.arr.loading = none →
        exec (.tPass op) s = leaves (swapped (clocked c) c.arr.flights.length)))
  ) ∧
  (
  ∀ (s : State) (q : CorePos), Reaches s q →
    let c := s.core (CorePos.key q)
    let becomes (d : Core) : Out := .next (s.setCore (CorePos.key q) d)
    (∀ t : Tile, c.arr.loading = some t →
      exec (.loadReady q) s = becomes { c with arr := { c.arr with
        shadow := some t, loading := none, mode := if c.arr.mode = .rampUp then .full else c.arr.mode } }) ∧
    (∀ (f : Flight) (fs : List Flight), c.arr.flights = f :: fs →
      exec (.passComplete q .ok) s = becomes (comparePass c) ∧
      (∀ (row g : Nat) (sums : List Word),
        exec (.passComplete q (.dataError row g sums)) s = becomes (comparePass (Cu.wrongSums c row g sums)) ∧
        exec (.passComplete q (.checkError row g)) s = becomes (comparePass (Cu.wrongCheck c row g))) ∧
      (∀ n, exec (.passComplete q (.residue n)) s = becomes { c with
        mem := { c.mem with gb := [] }
        arr := { c.arr with
          csSkip := BitVec.ofNat 12 (min (c.arr.csSkip.toNat + Cu.skipsIn (f.rows.take n)) 0xFFF)
          resMismatch := BitVec.ofNat 8 (min (c.arr.resMismatch.toNat + 1) 0xFF) }
        run := { c.run with frozen := true } }) ∧
      exec (.passComplete q .eccCorrected) s = becomes (comparePass (if f.acc = 0 then c else { c with
        regs := { c.regs with eccCorr := BitVec.ofNat 8 (min (c.regs.eccCorr.toNat + 1) 0xFF) } })) ∧
      exec (.passComplete q .eccUncorrectable) s = becomes (if f.acc = 0 then comparePass c else { c with
        mem := { c.mem with gb := [] }
        regs := { c.regs with eccUncorr := BitVec.ofNat 8 (min (c.regs.eccUncorr.toNat + 1) 0xFF) }
        run := { c.run with frozen := true } })) ∧
    (∀ (d : Core) (f : Flight) (fs : List Flight), d.arr.flights = f :: fs →
      ((∀ row ∈ f.rows, ∀ g ∈ row, Cu.compareRow g ≠ some true) → comparePass d = Cu.countSkips
        ((f.rows.zipIdx).foldl (fun e g => Cu.completeRow f e g.2 g.1) { d with arr := { d.arr with
          flights := fs
          mode := if d.arr.mode = .rampUp then .full else d.arr.mode
          token := d.arr.token.bind (fun n => if n = 0 then none else some (n - 1)) } })
        (Cu.skipsIn f.rows)) ∧
      (∀ row, Cu.firstMismatch f.rows = some row → comparePass d = { d with
        mem := { d.mem with gb := [] }
        arr := { d.arr with
          csSkip := BitVec.ofNat 12 (min (d.arr.csSkip.toNat + Cu.skipsIn (f.rows.take (row + 1))) 0xFFF)
          csMismatch := BitVec.ofNat 12 (min (d.arr.csMismatch.toNat + Cu.mismatchesIn (f.rows.getD row [])) 0xFFF) }
        run := { d.run with frozen := true } })) ∧
    (c.arr.flights = [] → c.arr.loading = none → c.arr.mode = .full ∨ c.arr.mode = .rampUp →
      exec (.arrayRampDown q) s = becomes { c with arr := { c.arr with mode := .rampDown, token := none } }) ∧
    (c.arr.mode = .rampDown → exec (.arrayGated q) s = becomes { c with arr := { c.arr with mode := .gated } })
  ) ∧
  (
  (∀ (c : Core) (b ms p i k : Nat), k < 128 →
    (Cu.streamRow c b ms p i).getD k 0 =
      (let a := (b + ((p + i) % ms + k) % ms) * 256 + 2 * k
       (Cu.spadByte c (a + 1) ++ Cu.spadByte c a : Half))) ∧
  (∀ (a0 w0 : Half) (as ws : List Half),
    Cu.groupSum (a0 :: as) (w0 :: ws) =
      (List.zipWith (fun a w => Machine.Float.mul (Machine.Float.widen a) (Machine.Float.widen w)) as ws).foldl Machine.Float.add
        (Machine.Float.mul (Machine.Float.widen a0) (Machine.Float.widen w0))) ∧
  (∀ (old q : Word),
    Cu.footStep 0 true old q = q ∧ Cu.footStep 0 false old q = Machine.Float.add old q ∧
    Cu.footStep 1 true old q = Machine.Float.add old q ∧ Cu.footStep 1 false old q = Machine.Float.add old q ∧
    Cu.footStep 2 true old q = Machine.Float.add old (Machine.Float.neg q) ∧
    Cu.footStep 2 false old q = Machine.Float.add old (Machine.Float.neg q)) ∧
  (∀ (t : Tile) (g : Nat) (as : List Half),
    (Cu.compareRow (Cu.groupRow t g as) = none ↔ Cu.checkSums t g as = none ∨ ∃ z ∈ Cu.rowSums t g as, Machine.Float.isFinite z = false) ∧
    (∀ (cc : Int) (aa : Nat), Cu.checkSums t g as = some (cc, aa) →
      (Cu.compareRow (Cu.groupRow t g as) = some true ↔ (∀ z ∈ Cu.rowSums t g as, Machine.Float.isFinite z = true) ∧
        aa + 2 ^ 195 < 2 ^ 15 * (cc - ((Cu.rowSums t g as).map Machine.Float.signed).sum * 2 ^ 149).natAbs)))
  )

/-- R120, R149, R175, R176: the synchronizing instructions. WAIT goes on when its counter has met the target, taken modulo
2^16, and waits otherwise; CSET sets or adds to a SEM counter; FENCE holds until the units it names are quiet; BAR flushes the
gather buffer, counts an arrival and holds its core, or waits for its core's descriptors first; EVT leaves a tag and a value with
the die marshal, whose full queue stalls it (its depth is a constant that the model leaves open, and the marshal then takes one post:
notes/assumptions/33.md). Of EVT, the tags of the span range stand in the span statements.
R175, R177: a barrier group's members that have arrived no more often than the least of them go on; the others hold.
R120, R123, R153, R175: END, once every pass, load, descriptor and exchange of its core has completed, flushes the gather
buffer, ends every loop and leaves the sequencer IDLE; the die marshal marks the core's dispatch as ended. Until then it
holds. -/
def Obligations.SynchronizationResults : Prop :=
  (
  ∀ (s : State) (op : TileOp),
    let c := s.coreOf op
    let w := op.w
    let k := CorePos.key op.core
    let leaves (d : Core) : Out := .next (s.leaves op d)
    let target : BitVec 16 := BitVec.ofNat 16 ((Cu.x c w.f2).toNat + w.imm.toNat % 0x10000)
    (IssuesWait s op → Cu.usesOnly w false true false false 0x3F#8 0xFFFF#32 = true → w.md.toNat ≤ 23 →
      let met := (Cu.counter c w.md.toNat - target).toNat < 2 ^ 15
      (met → GoesOn c → exec (.tWait op) s = leaves (advance { c with seq := { c.seq with state := .running } })) ∧
      (¬ met → exec (.tWait op) s = leaves { c with seq := { c.seq with state := .waiting } })) ∧
    (Issues s op → GoesOn c → Cu.usesOnly w false true false false 0x7F#8 0xFFFF#32 = true → w.md.toNat % 0x40 ≤ 15 →
      let i := w.md.toNat % 0x40
      exec (.tCset op) s = leaves (advance { c with seq := { c.seq with
        sem := SMap.set 0#16 c.seq.sem i (if w.md.toNat / 0x40 = 1 then SMap.get 0#16 c.seq.sem i + target else target) } })) ∧
    (Issues s op → Cu.usesOnly w false false false false 0x0F#8 0 = true →
      let quiet := (w.md.getLsbD 1 = true → c.arr.flights = [] ∧ c.arr.loading = none) ∧
        (w.md.getLsbD 3 = true → c.dma0.queue = [] ∧ c.dma1.queue = [])
      (quiet → GoesOn c → exec (.tFence op) s = leaves (advance (if w.md.getLsbD 0 then Cu.flushAll c else c))) ∧
      (¬ quiet → exec (.tFence op) s = .next s)) ∧
    (Issues s op → Cu.usesOnly w false false false false 0x0F#8 0 = true → c.run.barGroups.contains (w.md.toNat % 8) = true →
      let quiet := w.md.toNat / 8 = 1 → c.dma0.queue = [] ∧ c.dma1.queue = []
      let g := w.md.toNat % 8
      let d := Cu.flushAll c
      (quiet → c.run.replay.active = false → exec (.tBar op) s = leaves { d with
        seq := { d.seq with state := .waiting, atBar := some g }
        run := { d.run with barCount := SMap.set 0 d.run.barCount g (SMap.get 0 c.run.barCount g + 1) } }) ∧
      (¬ quiet → exec (.tBar op) s = leaves { c with seq := { c.seq with state := .waiting } })) ∧
    (Issues s op → GoesOn c → Cu.usesOnly w false true false false 0 0xFFFF#32 = true →
      let tag := w.imm.toNat % 0x10000
      tag < 0xF500 ∨ 0xF5FF < tag → c.run.replay.active = false →
      let die := s.die (k / 256)
      (die.evtQueued ≤ Config.eventQueueMore → exec (.tEvt op) s = .next ((s.setDie (k / 256) { die with
        events := (tag, Cu.x c w.f2, s.posWord k) :: die.events, evtQueued := die.evtQueued + 1 }).setCore k
          (advance { c with run := { c.run with nEvt := c.run.nEvt + 1 } }))) ∧
      (Config.eventQueueMore < die.evtQueued →
        exec (.tEvt op) s = .next (s.setDie (k / 256) { die with evtQueued := die.evtQueued - 1 })))
  ) ∧
  (
  ∀ (s : State) (p g h : Nat) (x : Partition) (kx : Context) (pl : PlanInst),
    s.part p = some x → x.current = some h → x.ctx h = some kx → kx.plan = some pl →
    let ks := (Plan.barMembers pl.image g).map (fun q => s.keyAt x q)
    let count (k : Nat) := SMap.get 0 (s.core k).run.barCount g
    let least := (ks.map count).foldl min (2 ^ 64)
    exec (.barRelease p g) s = .next ((ks.filter (fun k => decide (count k ≤ least))).foldl (fun t k => t.release g k) s) ∧
    (∀ (t : State) (k : Nat), (t.core k).seq.atBar = some g → (t.core k).run.frozen = false → GoesOn (t.core k) →
      t.release g k = t.setCore k (advance { t.core k with seq := { (t.core k).seq with state := .running, atBar := none } })) ∧
    (∀ (t : State) (k : Nat), (t.core k).seq.atBar ≠ some g → t.release g k = t)
  ) ∧
  (
  ∀ (s : State) (op : TileOp), Issues s op → op.w = ⟨0, 0, 0, 0, 0, 0⟩ →
    let c := s.coreOf op
    let k := CorePos.key op.core
    (endQuiet c = false → exec (.tEnd op) s = .next s) ∧
    (endQuiet c = true → ∃ d : Core, exec (.tEnd op) s = .next ((s.setCore k d).endReport k) ∧
      d.seq.state = .idle ∧ d.seq.loops = [] ∧ d.seq.x = c.seq.x ∧ d.seq.sem = c.seq.sem ∧ d.run = c.run ∧
      (c.regs.bankPwrNext = none → d.mem = (Cu.flushAll c).mem ∧ d.regs = (Cu.flushAll c).regs)) ∧
    (∀ (t : State), t.dispatchOf k = none → t.endReport k = t)
  )

/-- R126, R132, R133, R138, R173: DMAQ queues the descriptor it reads, from SPAD or from program memory, with its two
patches; DMA_DESCRIPTOR_START moves the data of the head of a queue, which stands open at its destination until DMA_COMPLETE
(R139, R179), which delivers it, increments the descriptor's counter and starts no other.
R126 to R128, R130, R174: NBX reads its bytes and queues them as beats for the port, whose beats enter the neighbour's
queue while it has room; NB_BEAT_ARRIVAL writes the oldest beat in the receiver and counts the last of an exchange; a beat
with bad parity is dropped and stops the sender (R653). Beats whose source was written before they left carry open bytes and
stand in no clause (R127). -/
def Obligations.DataMoverResults : Prop :=
  (
  (∀ (s : State) (op : TileOp), Issues s op → GoesOn (s.coreOf op) → (s.coreOf op).run.replay.active = false →
    let c := s.coreOf op
    let w := op.w
    let e := w.md.toNat % 2
    let off := (Cu.x c w.f1).toNat + w.imm.toNat % 0x400000
    let at_ := w.imm.toNat % 0x2000
    let queued (d : Core) (desc : Desc) : Core :=
      (if desc.toExt then { d with run := { d.run with nDmaOut := d.run.nDmaOut + 1 } } else d).updDma e
        (fun g => { g with queue := g.queue ++ [desc] })
    let reads (d : Core) (bs : List Byte) := Cu.decodeDesc bs (Cu.x d w.f2).toNat (Cu.x d w.f3).toNat d.run.nDmaOut d.seq.pc
    (c.dma e).queue.length < 16 →
    (Cu.usesOnly w true true true false 0x03#8 0x3FFFFF#32 = true → w.md.toNat / 2 = 1 → off % 64 = 0 → off + 64 ≤ 0x400000 →
      Cu.access c off 64 = .ok →
      let r := Cu.narrowReads c off 2
      ∀ desc : Desc, reads r.2 r.1 = some desc → exec (.tDmaq op) s = .next (s.leaves op (advance (queued r.2 desc)))) ∧
    (Cu.usesOnly w false true true false 0x03#8 0x1FFF#32 = true → w.md.toNat / 2 = 0 → at_ % 8 = 0 →
      ∀ desc : Desc, reads c ((SMap.getRange 0#64 c.mem.prog at_ 8).flatMap (fun d => leBytes 8 d.toNat)) = some desc →
        exec (.tDmaq op) s = .next (s.leaves op (advance (queued c desc))))) ∧
  (∀ (s t : State) (q : CorePos) (e p : Nat) (errs : List DramErr) (x : Partition) (desc : Desc) (rest : List Desc)
      (ms : List Moved), e ≤ 1 →
    let s0 := s.strike errs
    let k := CorePos.key q
    Reaches s0 q → ((s0.core k).dma e).queue = desc :: rest → ((s0.core k).dma e).active = false →
    ((s0.core k).dma e).held = none → ownAccess (s0.core k) desc = .ok → s0.partOfDie (k / 256) = some p → s0.part p = some x →
    s0.moveDesc { part := some p, ctx := x.current, core := some k } x k desc = .ok ms t →
    exec (.dmaDescriptorStart q e errs []) s = .next (((arrivalsOf ms).foldl (fun u a => u.openRange k a) t).updCore k (fun c =>
      c.updDma e (fun g => { g with
        active := true, arriving := arrivalsOf ms, leaving := departuresOf ms, raced := [] })))) ∧
  (∀ (s t : State) (q : CorePos) (e : Nat) (w : Who) (desc : Desc) (rest : List Desc), Reaches s q → e ≤ 1 →
    let k := CorePos.key q
    let c := s.core k
    (c.dma e).queue = desc :: rest → (c.dma e).active = true → (c.dma e).held = none → s.whoOf k = some w →
    s.deliverAll w (c.dma e).raced (c.dma e).leaving = .ok () t →
    exec (.dmaComplete q e) s =
      .next ((t.settleArrivals (c.dma e).raced (c.dma e).arriving).2.updCore k (fun g =>
        dmaDone g e desc rest (t.settleArrivals (c.dma e).raced (c.dma e).arriving).1)) ∧
    ((c.dma e).raced = [] → (c.dma e).leaving = [] →
      t = s ∧ t.settleArrivals (c.dma e).raced (c.dma e).arriving = ((c.dma e).arriving, s))) ∧
  (∀ (c : Core) (e : Nat) (desc : Desc) (rest : List Desc) (arr : List Arrival), e ≤ 1 →
    let d := dmaDone c e desc rest arr
    (d.dma e).queue = rest ∧ (d.dma e).active = false ∧ (d.dma e).done = (c.dma e).done + 1 ∧
    d.seq.sem = SMap.set 0#16 c.seq.sem desc.sem (SMap.get 0#16 c.seq.sem desc.sem + 1) ∧
    d.mem = (arr.foldl (fun g a => Cu.wideWrite g true a.1 a.2) c).mem ∧
    (d.dma (1 - e)).queue = (c.dma (1 - e)).queue ∧ (d.dma (1 - e)).active = (c.dma (1 - e)).active ∧
    (d.dma (1 - e)).done = (c.dma (1 - e)).done ∧
    d.run.dmaDone = (if desc.toExt then c.run.dmaDone ++ [desc.outNo] else c.run.dmaDone))
  ) ∧
  (
  (∀ (s : State) (op : TileOp) (r : Nat), Issues s op → GoesOn (s.coreOf op) → (s.coreOf op).run.replay.active = false →
    let c := s.coreOf op
    let w := op.w
    let k := CorePos.key op.core
    let port := w.md.toNat
    let src := (Cu.x c w.f1).toNat
    let dst := (Cu.x c w.f2).toNat
    let len := (Cu.x c w.f3).toNat
    Cu.usesOnly w true true true false 0x03#8 0 = true → src % 64 = 0 → dst % 64 = 0 → len % 64 = 0 → len ≤ 65536 →
    src + len ≤ 0x400000 → dst + len ≤ 0x400000 → s.neighbour k port = some r → portEnabled c port = true →
    ((c.port port).outbound.filter (fun b => b.last)).length < 4 → Cu.access c src len = .ok →
    let read := Cu.wideRead { c with run := { c.run with
      nNbx := SMap.set 0 c.run.nNbx port (SMap.get 0 c.run.nNbx port + 1) } } src len
    exec (.tNbx op) s = .next ((s.leaves op (advance (read.2.setPort port { (read.2.port port) with
      outbound := (read.2.port port).outbound ++ beatsOf src dst read.1 }))).pump k port)) ∧
  (∀ (s : State) (q : CorePos) (port f : Nat) (b : Beat) (rest : List Beat), posOk q = true → port < 4 →
    let k := CorePos.key q
    let c := s.core k
    (c.port port).inbound = b :: rest → s.neighbour k port = some f →
    (Cu.access c b.dst b.data.length = .ok → b.raced = false → portFast (s.core f) (facing port) = false ∨ s.ratioOk k port = true →
      exec (.nbBeatArrival q port false) s =
        .next ((s.setCore k (takeBeat c port b rest b.data)).pump f (facing port))) ∧
    exec (.nbBeatArrival q port true) s = .next ((s.setCore k { c.setPort port { (c.port port) with inbound := rest } with
        regs := { c.regs with nbParErr := BitVec.ofNat 8 (min (c.regs.nbParErr.toNat + 1) 0xFF) }
        run := { c.run with hit := true } }).updCore f (fun d => { d with
          run := { d.run with frozen := true }, mem := { d.mem with gb := [] } })))
  )

/-- R87, R103 to R118, R141 to R148, R311: the registers and the bank power of one core. Every clause says the core that
results; nothing else of the module changes, but that span operations which waited for a bank go on when its scrub ends. -/
def Obligations.CoreRegisterResults : Prop :=
  ∀ (s : State) (q : CorePos), posOk q = true →
    let k := CorePos.key q
    let c := s.core k
    let bankIs (b : Nat) (st : BankState) (d : Core) : Core := { d with regs := { d.regs with banks := SMap.set .off d.regs.banks b st } }
    let lost (b : Nat) (d : Core) : Core := { d with mem := { d.mem with
      spad := Memory.zero d.mem.spad (b * 0x40000) 0x40000
      spadWritten := SMap.clearRange d.mem.spadWritten (b * 1024) 1024
      spadSelf := SMap.clearRange d.mem.spadSelf (b * 1024) 1024 } }
    exec (.clrRbw q) s = .next (s.setCore k { c with regs := { c.regs with spadRbw := 0, accRbw := 0, stateRbw := 0 } }) ∧
    exec (.clrStat q) s = .next (s.setCore k { c with regs := { c.regs with nbParErr := 0, eccCorr := 0, eccUncorr := 0 } }) ∧
    exec (.clrCheck q) s = .next (s.setCore k { c with arr := { c.arr with csSkip := 0, csMismatch := 0, resMismatch := 0 } }) ∧
    exec (.clrWritten q) s = .next (s.setCore k { c with
      mem := { c.mem with spadWritten := [], spadSelf := [], accWritten := [], accSelf := [] }
      arr := { c.arr with active := none, shadow := none, loading := none } }) ∧
    exec (.zeroAll q) s = .next (s.setCore k { c with
      mem := { c.mem with
        spad := [], spadWritten := [], spadSelf := [], acc := [], accWritten := [], accSelf := []
        stateFile := [], stateLoaded := [], gb := [] }
      regs := { c.regs with zeroing := true }
      arr := { c.arr with active := none, shadow := none, loading := none } }) ∧
    exec (.zeroingDone q) s = .next (s.setCore k { c with regs := { c.regs with zeroing := false } }) ∧
    (∀ v : Word, c.seq.state ≠ .idle →
      exec (.bankPwrWrite q v) s = .next (s.setCore k { c with regs := { c.regs with bankPwrNext := some (v.extractLsb' 0 16) } })) ∧
    (∀ v : Word, c.seq.state = .idle → ∃ d : Core, exec (.bankPwrWrite q v) s = .next (s.setCore k d) ∧
      d.regs.bankPwr = v.extractLsb' 0 16 ∧ d.regs.bankPwrNext = none ∧ d.mem = c.mem ∧ d.seq = c.seq ∧ d.arr = c.arr ∧
      ∀ b, b < 16 → Cu.bank d b = if v.getLsbD b ∧ Cu.bank c b = .off then .waking else Cu.bank c b) ∧
    (∀ b, b < 16 → Cu.bank c b = .waking → exec (.bankWakeEnd q b) s = .next (s.setCore k (bankIs b .scrub c))) ∧
    (∀ b, b < 16 → Cu.bank c b = .scrub → exec (.bankScrubEnd q b) s =
      .next ((s.setCore k (bankIs b .on (lost b c))).drainInboxes)) ∧
    (∀ b, b < 16 → Cu.bank c b = .on → c.regs.bankPwr.getLsbD b = false →
      exec (.bankPowerOff q b) s = .next (s.setCore k (bankIs b .off (lost b (Cu.flushWhere c (fun l => decide (l / 1024 = b)))))))

/-- R120, R152, R184, R186, R196, R292, R642, R645, R647, R654, R686: GO starts a dispatch on an IDLE core with its arguments; an entry of
the gather buffer that stands idle is flushed; a first watchdog expiry is a core fault; a core that holds no logical row is
reset by its die marshal. -/
def Obligations.CoreControlResults : Prop :=
  (∀ (s : State) (q : CorePos) (v : Word), Reaches s q →
    let c := s.core (CorePos.key q)
    v.getLsbD 31 = true → c.seq.state = .idle → c.regs.zeroing = false →
    ∃ d : Core, exec (.go q v) s = .next (s.setCore (CorePos.key q) d) ∧
      d.seq.state = .running ∧ d.seq.pc = v.toNat % 0x2000 ∧ d.seq.x = c.seq.args ∧ d.seq.v = [] ∧ d.seq.lc = [] ∧
      d.seq.loops = [] ∧ d.seq.sem = [] ∧ d.seq.arv = c.seq.arv ∧ d.seq.snt = c.seq.snt ∧ d.seq.faultCode = 0 ∧ d.seq.faultArg = 0 ∧
      d.arr.active = none ∧ d.arr.shadow = none ∧ d.mem.tables = [] ∧ d.mem.micros = [] ∧ d.mem.stateLoaded = [] ∧
      d.mem.spad = c.mem.spad ∧ d.mem.acc = c.mem.acc ∧ d.mem.prog = c.mem.prog ∧ d.regs = c.regs ∧
      d.run.nDmaOut = 0 ∧ d.run.nEvt = 0 ∧ d.run.nNbx = [] ∧ d.run.qstat = []) ∧
  (∀ (s : State) (q : CorePos) (l : Nat), Reaches s q →
    let c := s.core (CorePos.key q)
    exec (.gbIdleFlush q l) s = .next (s.setCore (CorePos.key q) ((c.mem.gb.filter (fun e => e.line == l)).foldl Cu.flushEntry c))) ∧
  (∀ (s : State) (q : CorePos), Reaches s q →
    let c := s.core (CorePos.key q)
    c.seq.state = .running ∨ c.seq.state = .waiting → s.watchdogsHeld (CorePos.key q) = false → c.run.replay.wdog = false →
    exec (.watchdogExpiry q) s = .next (s.setCore (CorePos.key q) { c with
      run := { c.run with frozen := true, replay := { c.run.replay with wdog := true } }
      mem := { c.mem with gb := [] } })) ∧
  (∀ (s : State) (q : CorePos), posOk q = true → q.row = s.gap q.die q.col →
    let c := s.core (CorePos.key q)
    exec (.coreReset q) s = .next (s.setCore (CorePos.key q) { Core.reset with mem := { c.mem with
      spad := [], spadWritten := [], spadSelf := [], gb := [], tables := [], micros := [], stateLoaded := [] } }))

/-! ### Plans and execution (chapters 7, 8, 10) -/

/-- R239 to R242: OP_PLAN_LOAD copies and checks its image and waits for its boundary; there the copy becomes the plan.
R22, R363, R450, R469, R551: OP_WEIGHT_LOAD and OP_POOL_BIND on a plan that admits them.
R67, R289, R440: OP_TENSOR_STAT and OP_KV_STAT return their record, and with OPF0 clear what it counts. -/
def Obligations.PlanCommandResults : Prop :=
  (
  ∀ (s t u : State) (c : CmdRef) (k : Cmd) (x : Partition) (f : FwRegion) (img : List Byte),
    let p := k.home c
    let h := k.ctxField
    let size := k.p 8 4
    (AtPoint s c k 0x0201 → k.p 6 2 ≠ 0 ∨ k.p 0xC 4 ≠ 0 ∨ size % 64 ≠ 0 ∨ size < 4096 ∨ 2 ^ 28 < size →
      exec (.opPlanLoad c) s = .next (s.unlessLost c ((s.endCmd c (Fin.with stPlanInvalid 1)).settle))) ∧
    (AtPoint s c k 0x0201 → k.p 6 2 = 0 → k.p 0xC 4 = 0 → size % 64 = 0 → 4096 ≤ size → size ≤ 2 ^ 28 →
      (s.fitsCtx p h size = false → exec (.opPlanLoad c) s = .next (s.unlessLost c ((s.endCmd c (Fin.with stQuota 0)).settle))) ∧
      (s.fitsCtx p h size = true → s.placeFw p .plan h size 0x10000 = some (f, t) → s.part p = some x →
        t.readEng (k.who c.block) (k.p 0 6) size = .ok img u →
        let v := u.putDram f.base img
        let pl : PlanInst := { base := f.base, image := img }
        (∀ st d, Plan.validate img x.dies.length (x.signed img (img.length - 128)) = some (st, d) →
          exec (.opPlanLoad c) s = .next (s.unlessLost c (((v.dropFw p (fun g => g.kind == FwKind.plan && g.base == f.base)).endCmd c
            (Fin.with st d)).settle))) ∧
        (∀ w, Plan.validate img x.dies.length (x.signed img (img.length - 128)) = none → v.installPlan p h pl = some w →
          exec (.opPlanLoad c) s = .next (s.unlessLost c (((v.startCmd c).updCtx p h (fun y => { y with
            staged := some pl, stagedBy := some c.id })).settle))))) ∧
    (∀ (p h id : Nat) (y : Context) (pl : PlanInst), s.ctx p h = some y → y.staged = some pl → y.stagedBy = some id →
      s.atBoundary { block := 1 + p, id := id } p h = true → s.installPlan p h pl = some t →
      exec (.planInstall p h) s = .next ((t.endCmd { block := 1 + p, id := id } Fin.ok).settle))
  ) ∧
  (
  ∀ (s s1 s2 s3 : State) (c : CmdRef) (errs : List UnitErr) (k : Cmd) (x : Partition) (y : Context) (pl : PlanInst),
    let p := k.home c
    let h := k.ctxField
    s.part p = some x → s.ctx p h = some y → y.plan = some pl →
    (∀ (m : List Byte) (base wx : Nat), AtPoint s c k 0x0202 → k.p 6 2 = 0 → k.p 0xC 4 = 0 → k.p 0x16 2 = 0 →
      s.atBoundary c p h = true → 64 ≤ k.p 8 4 → k.p 8 4 ≤ 2 ^ 20 → s.readEng (k.who c.block) (k.p 0 6) (k.p 8 4) = .ok m s1 →
      k.p 8 4 = 64 + 80 * field m 6 2 + 112 → zeroAt m (k.p 8 4 - 112 + 0xA) 6 = true → x.signed m (k.p 8 4 - 112) = true →
      manifestOk pl.image m (k.p 0x18 8) = true →
      s1.fitsCtx p h ((if Plan.trains pl.image then 2 else 1) * weightBytes pl.image) = true →
      s1.placeWeights p h pl.image = some (base, wx, s2) →
      let offs := weightOffsets pl.image 0 (Plan.weightTensors pl.image)
      let isNew (f : FwRegion) : Bool := f.base == base || (wx != 0 && f.base == base + wx)
      s2.copyTensors (k.who c.block) (k.p 0x10 6) base wx offs (manEntries m) = .ok none s3 →
      exec (.opWeightLoad c) s = .next (s.unlessLost c ((((s3.dropFw p (fun f => f.kind == FwKind.weights && f.owner == h && isNew f == false)).updCtx
        p h (fun z => { z with weights := some { base := base, wx := wx, size := weightBytes pl.image, offsets := offs, second := false } })).endCmd
          c { Fin.ok with c0 := (manEntries m).length }).settle))) ∧
    (∀ t : Store, AtPoint s c k 0x0203 → k.p 4 4 = 0 → Plan.experts pl.image = true → s.store (k.p 0 4) = some t →
      t.part = some p → t.ctx = some h → t.keyed = true →
      let n := Plan.expertCount pl.image
      ((List.range n).map (fun e => Plan.expUnitOff pl.image e + Plan.expUnits pl.image e)).foldl max 0 + k.p 8 8 ≤ t.units →
      s.mapsOut p = false → (List.range n).filter (Plan.expPinned pl.image) = [] →
      exec (.opPoolBind c errs) s = .next (s.unlessLost c (((((List.range n).foldl (fun u e => u.putDram (pl.expertEntry e) (leBytes 8 0)) s).updCtx p h
        (fun z => { z with pool := some (t.handle, k.p 8 8), experts := [] })).endCmd c Fin.ok).settle))) ∧
    (AtPoint s c k 0x0203 → k.p 4 4 = 0 → Plan.experts pl.image = true → s.store (k.p 0 4) = none →
      exec (.opPoolBind c errs) s = .next (s.unlessLost c ((s.endCmd c (Fin.bare stStoreInvalid)).settle)))
  ) ∧
  (
  ∀ (s t : State) (c : CmdRef) (k : Cmd) (y : Context) (f : Fin),
    let p := k.home c
    let h := k.ctxField
    (∀ (pl : PlanInst) (i : Nat), AtPoint s c k 0x0204 → s.ctx p h = some y → y.plan = some pl →
      (Plan.qstats pl.image).idxOf? (k.p 0 2) = some i → k.p 2 6 = 0 → k.p 0xE 2 = 0 →
      s.output c (k.who c.block) (k.p 8 6) (leBytes 8 (SMap.get 0#64 y.qstat i).toNat) Fin.ok = (t, some f) →
      exec (.opTensorStat c) s = .next (s.unlessLost c (((if k.opf0 = true ∧ f.status = 0 then
        t.updCtx p h (fun z => { z with qstat := SMap.set 0#64 z.qstat i 0#64 }) else t).endCmd c f).settle))) ∧
    (∀ v : KvState, AtPoint s c k 0x0308 → s.kv p h = some v → k.p 6 2 = 0 →
      s.output c (k.who c.block) (k.p 0 6) v.record Fin.ok = (t, some f) →
      exec (.opKvStat c) s = .next (s.unlessLost c (((if k.opf0 = true ∧ f.status = 0 then t.updKv p h (fun w => { w with
        prefixHits := 0, prefixMisses := 0, collisions := 0, insertSkipped := 0, cowCopies := 0, swapOut := 0, thawIn := 0 })
        else t).endCmd c f).settle)))
  )

/-- R246, R258, R268, R270, R275, R279: creating, releasing, thawing and forking sequences. A BUSY sequence makes the command wait;
a released page set is zeroed and returns to the free list in its place. -/
def Obligations.SequenceCommandResults : Prop :=
  ∀ (s t u : State) (c : CmdRef) (k : Cmd) (v : KvState) (q : Sequence) (n : Nat),
    let p := k.home c
    let h := k.ctxField
    s.kv p h = some v →
    (AtPoint s c k 0x0305 → k.p 0 8 < 8 → s.addSeq p h (Sequence.fresh (k.p 0 1) (BitVec.ofNat 64 (k.p 8 8))) = some (n, t) →
      exec (.opSeqCreate c) s = .next (s.unlessLost c ((t.endCmd c { Fin.ok with c0 := n }).settle))) ∧
    (s.seq p h (k.p 0 4) = some q →
      (AtPoint s c k 0x0306 → q.status = .busy → exec (.opSeqRelease c) s = .next (s.unlessLost c s.settle)) ∧
      (AtPoint s c k 0x0306 → q.status ≠ .busy →
        exec (.opSeqRelease c) s = .next (s.unlessLost c (((s.releaseSeq p h q.handle).endCmd c Fin.ok).settle))) ∧
      (AtPoint s c k 0x0307 → q.status ≠ .busy → q.swap = none → exec (.opSeqThaw c) s = .next (s.unlessLost c ((s.endCmd c Fin.ok).settle))) ∧
      (AtPoint s c k 0x0307 → q.status ≠ .busy → q.swap ≠ none → s.liveShort p h [q.handle] 0 = false → s.thaw p h q.handle = some t →
        exec (.opSeqThaw c) s = .next (s.unlessLost c ((t.endCmd c { Fin.ok with c0 := 1 }).settle))) ∧
      (AtPoint s c k 0x0303 → k.p 0xA 6 = 0 → k.p 0x16 2 = 0 → q.status ≠ .busy → q.swap = none →
        let pos := if k.p 4 4 = 0xFFFFFFFF then q.length else k.p 4 4
        pos ≤ q.length → v.stateKnown q pos = true → 0 < k.p 8 2 → k.p 8 2 ≤ 4096 →
        s.liveShort p h [q.handle] (if k.opf0 then k.p 8 2 - 1 else k.p 8 2) = false →
        let fork (z : State) : Option (List Nat × State) :=
          if k.opf0 then z.forkReleasing p h q.handle pos (k.p 8 2) else z.forkChildren p h q.handle pos (k.p 8 2)
        ∀ ks ks2 w, fork s = some (ks, w) → s.writeEng (k.who c.block) (k.p 0x10 6) (ks.flatMap (leBytes 4)) = .ok () t →
          fork t = some (ks2, u) → exec (.opFork c) s = .next (s.unlessLost c ((u.endCmd c { Fin.ok with c0 := k.p 8 2 }).settle))) ∧
      (AtPoint s c k 0x0303 → k.p 0xA 6 = 0 → k.p 0x16 2 = 0 → q.status ≠ .busy → k.p 4 4 = 0xFFFFFFFF → k.p 8 2 = 0 →
        exec (.opFork c) s = .next (s.unlessLost c ((s.endCmd c (Fin.bare stOkEmpty)).settle)))) ∧
    (∀ a b, s.kv a b = some v → n ∈ v.zeroing → exec (.pageSetZeroingDone a b n) s = .next ((s.zeroPage v n).updKv a b (fun w =>
      { w with zeroing := w.zeroing.filter (fun m => m != n), freePages := insertAsc n w.freePages })))

/-- R260: mix64, root_key and page_key as the manual writes them; block 0 of a sequence has root_key of its DOMAIN as parent
key, and a later block the key of the node before it, which a lookup and an insertion both use. -/
def Obligations.PageKeyIsTheFold : Prop :=
  (∀ x : Dword,
    let x1 := x ^^^ (x >>> 31)
    let x2 := x1 * 0xA4C12E973D58F06B#64
    let x3 := x2 ^^^ (x2 >>> 29)
    let x4 := x3 * 0x6E2BD9751C84A3F9#64
    mix64 x = x4 ^^^ (x4 >>> 32)) ∧
  (∀ domain : Dword, rootKey domain = mix64 (domain ^^^ 0x5EED000000000001#64)) ∧
  (∀ (pk : Dword) (toks : List Word), toks.length = 256 →
    pageKey pk toks = (List.range 128).foldl (fun h i => mix64 (h ^^^ ((toks.getD (2 * i) 0).setWidth 64 |||
      ((toks.getD (2 * i + 1) 0).setWidth 64 <<< 32)))) (mix64 (pk ^^^ 0x5EED000000000100#64))) ∧
  ∀ (s : State) (p c h b n : Nat) (toks : List Word) (v : KvState) (q : Sequence) (pk : Dword),
    s.kv p c = some v → v.seq h = some q → q.offTree = false → q.pages.getD b none = some n → v.tree.length < v.np →
    (pk = if b = 0 then rootKey q.domain else ((q.node.bind v.nodeOf).map (fun x => x.key)).getD 0) →
    (b = 0 ∨ ((q.node.bind v.nodeOf).isSome ∧ q.pages.getD (b - 1) none = q.node)) → (∀ x ∈ v.tree, x.key ≠ pageKey pk toks ∧ x.page ≠ n) →
    v.lookup q b toks = .absent ∧
    ∃ w z y, (s.fullBlock p c h b toks).kv p c = some w ∧ w.seq h = some z ∧ z.node = some n ∧ w.nodeOf n = some y ∧
      y.key = pageKey pk toks ∧ y.tokens = toks ∧ w.parentKey z (b + 1) = some y.key

/-- R258, R269: after a block has been made writable, copied where R269 has its writer copy, its page set belongs to the writer
alone, or the writer is its keeper; no other sequence's list has changed. -/
def Obligations.WrittenPageSetsAreOwn : Prop :=
  ∀ (s t : State) (p c h b : Nat) (writers : List Nat) (v : KvState), s.kv p c = some v →
    (v.seqs.map (fun q => q.handle)).Nodup → (∀ m ∈ v.freePages, v.refs m = 0) →
    s.writable p c h b (v.copies writers h b) = some t →
    ∃ w q n, t.kv p c = some w ∧ w.seq h = some q ∧ q.pages.getD b none = some n ∧ (w.refs n ≤ 1 ∨ v.keeps writers n h = true) ∧
      (∀ g, g ≠ h → (w.seq g).map (fun z => z.pages) = (v.seq g).map (fun z => z.pages))

/-- R243, R276 to R288, R445 to R449, R467, R469: an execution command that passes its checks holds its steps; one that
fails ends with its status.
R231 to R233, R391, R598: the next step of a command goes to every core that is idle; a core receives the entry's
arguments, its program counter, the banks of its placement and its next dispatch number. What of it a lost access undoes stands
in CommandEndResults. -/
def Obligations.ExecutionResults : Prop :=
  (
  ∀ (s t u : State) (c : CmdRef) (k : Cmd) (x : Context) (pl : PlanInst) (e : Nat),
    let p := k.home c
    let h := k.ctxField
    let img := pl.image
    s.ctx p h = some x →
    (∀ f, k.execCheck x = .inl f →
      (AtPoint s c k 0x0301 → exec (.opRun c) s = .next (s.unlessLost c ((s.endCmd c f).settle))) ∧
      (AtPoint s c k 0x0302 → exec (.opRoll c) s = .next (s.unlessLost c ((s.endCmd c f).settle))) ∧
      (AtPoint s c k 0x0304 → exec (.opTrainStep c) s = .next (s.unlessLost c ((s.endCmd c f).settle)))) ∧
    (k.execCheck x = .inr (pl, e) →
      (AtPoint s c k 0x0304 → exec (.opTrainStep c) s =
        .next (s.unlessLost c ((s.beginExec c (ExecRun.start (stepInsts img (k.rounded img) e 0 (some 0)) [] none 1)).settle))) ∧
      (AtPoint s c k 0x0301 → k.p 0x42 2 = 0 → k.p 0x40 2 = 0xFFFF →
        let todo := stepInsts img (k.rounded img) e 0 none
        ∀ bs, s.prepareRun p h k [] = some (bs, t) →
          exec (.opRun c) s = .next (s.unlessLost c ((t.beginExec c (ExecRun.start todo bs none (granuleCount todo))).settle))) ∧
      (∀ q toks, AtPoint s c k 0x0301 → k.p 0x42 2 = 1 → k.p 0x40 2 ≠ 0xFFFF → (k.bound (k.p 0x40 2)).isSome →
        Plan.tRole img (k.p 0x40 2) = 6 → 16 ≤ Plan.elements img (k.rounded img) (k.p 0x40 2) → k.noLookup = false →
        s.seq p h (k.p 0x80 4) = some q → q.status ≠ .busy → q.length + k.p 0x84 4 ≤ 2 ^ 32 →
        s.readTokens (k.who c.block) k.seqBinds = .ok toks t → t.liveShort p h [k.p 0x80 4] 0 = false →
        let todo := stepInsts img (k.rounded img) e 0 (some 0)
        ∀ bs, t.prepareRun p h k toks = some (bs, u) → exec (.opRun c) s =
          .next (s.unlessLost c (((u.updSeq p h (k.p 0x80 4) (fun z => { z with status := .busy })).beginExec c
            (ExecRun.start todo bs none (granuleCount todo))).settle))) ∧
      (∀ o, AtPoint s c k 0x0302 → k.rollFault img = some o →
        exec (.opRoll c) s = .next (s.unlessLost c ((s.endCmd c (Fin.with stRollParam o)).settle))) ∧
      (∀ v q run, AtPoint s c k 0x0302 → k.rollFault img = none → x.kv = some v → s.seq p h k.roll.seq = some q →
        q.status ≠ .busy → k.roll.value = false →
        let pos := if k.roll.pos = 0xFFFFFFFF then q.length else k.roll.pos
        pos ≤ q.length → pos + k.roll.t * k.roll.hw ≤ 2 ^ 32 → v.stateKnown q pos = true → v.seqs.length + k.roll.f ≤ 65536 →
        s.liveShort p h [q.handle] k.roll.mine = false → s.forkRoll k p h pos = some (run, u) →
        exec (.opRoll c) s = .next (s.unlessLost c ((u.startRoll c k p h pl run).settle))))
  ) ∧
  (
  ∀ (s t : State) (c : CmdRef) (k : Cmd) (x : Context) (pl : PlanInst) (e : ExecRun) (i : StepInst) (is : List StepInst),
    s.cmd c = some k → k.phase = .started → s.ctx (k.home c) k.ctxField = some x → k.exec = some e → x.plan = some pl →
    s.runsNow c k (k.home c) = true → e.atPoint = none →
    (e.todo = i :: is → e.stepLeft ≠ [] →
      exec (.stepDispatch c) s = .next ((s.unlessLost c (s.dispatchStep c k (k.home c) x pl e i e.stepLeft)).drainInboxes)) ∧
    (e.todo = i :: is → e.stepLeft = [] → s.openStep c k (k.home c) k.ctxField pl e i = (t, true) →
      exec (.stepDispatch c) s =
        .next ((s.unlessLost c (t.dispatchStep c k (k.home c) x pl e i (Plan.stepCores pl.image i.entry i.step))).drainInboxes)) ∧
    (∀ r, e.todo = [] → e.roll = some r → r.open_ = false →
      exec (.stepDispatch c) s =
        .next ((s.unlessLost c ((s.beginFrame c k (k.home c) k.ctxField pl r).settle)).drainInboxes)) ∧
    (∀ (p : Nat) (img : List Byte) (args : List Word) (pos : Nat × Nat × Nat) (y : Partition), s.part p = some y →
      (s.core (s.keyAt y pos)).regs.zeroing = false →
      let d := s.dispatchTo c p img i args pos
      let g := d.core (s.keyAt y pos)
      let no := SMap.get 0 y.nextDispatch (lposOf pos)
      g.seq.state = .running ∧ g.seq.pc = Plan.sPc img i.entry i.step ∧ g.run.dispatch = no ∧
      (∃ z, d.part p = some z ∧ z.nextDispatch = SMap.set 0 y.nextDispatch (lposOf pos) (no + 1) ∧ z.awaitFirst = false ∧
        z.dispatches = y.dispatches ++ [{
        no := no, pos := pos, block := c.block, cmd := c.id, entryPc := Plan.sPc img i.entry i.step, args := args,
        ended := false, inst := i.no, granule := i.granule }]) ∧
      (∀ a, a ≠ s.keyAt y pos → d.core a = s.core a))
  )

/-- R467, R469, R598, R643: plan changes, dispatch commits and commit granules.
R363, R364: an expert point serves its request list, required experts first; an entry at fault ends the command. -/
def Obligations.CommitResults : Prop :=
  (
  ∀ (s t : State) (c : CmdRef) (k : Cmd) (x : Context) (pl : PlanInst) (e : ExecRun),
    (∀ (p : Nat) (y : Partition), s.part p = some y → y.planChange ≠ none →
      exec (.planChangeStep p) s = .next ((y.dies.foldl (fun u d =>
        if (u.pll d).phase ≠ .locked then u
        else u.setDieClk d { u.dieClk d with
          colMhz := (List.range 8).map (fun j => stepMhz ((u.dieClk d).colMhz.getD j 0) ((u.dieClk d).colTarget j))
          fabMhz := stepMhz (u.dieClk d).fabMhz (u.dieClk d).fabTarget }) s).finishPlan p)) ∧
    (∀ now target : Nat, stepMhz now target =
      if now + 50 ≤ target then now + 50 else if target + 50 ≤ now then now - 50 else target) ∧
    (∀ (q : CorePos) (p : Nat) (y : Partition) (d : DispatchRec), Reaches s q → s.dispatchOf (CorePos.key q) = some (p, y, d) →
      d.ended = true →
      let key := CorePos.key q
      let u := ((s.updCore key (fun g => { g with run := { g.run with qstat := [], replay := ReplayRec.none } })).updPart p (fun z =>
        { z with dispatches := z.dispatches.filter (fun a => a != d) })).updExec d.ref (fun z => { z with
          qstat := z.qstat ++ (s.core key).run.qstat.map (fun a => (d.granule, a)) })
      let done (j : CollJoin) : Bool := j.core == key && reqDispatch j.req == d.no % 2 ^ 16
      exec (.dispatchCommit q) s = .next { u with span := { u.span with
        colls := (u.span.colls.map (fun r => { r with joins := r.joins.filter (fun j => !done j) })).filter (fun r =>
          !(r.finished && r.joins.isEmpty)) } }) ∧
    (∀ y : Partition, s.cmd c = some k → k.phase = .started → s.part (k.home c) = some y → s.ctx (k.home c) k.ctxField = some x →
      k.exec = some e → x.plan = some pl → (y.ofCmd c).any (fun d => d.granule == k.granules) = false →
      e.todo.any (fun i => decide (i.granule ≤ k.granules)) = false → e.atPoint = none →
      let bs := sortBy (fun a b => decide (a.handle ≤ b.handle)) e.binds
      (e.roll = none → s.commitBinds (k.who c.block) (k.home c) k.ctxField bs = .ok () t →
        let u := t.applyQstat c (k.home c) k.ctxField k.granules
        let w := if k.opcode = 0x0304 then u.updCtx (k.home c) k.ctxField (fun z => { z with
          weights := z.weights.map (fun a => if a.wx = 0 then a else { a with second := !a.second }) }) else u
        exec (.granuleCommit c) s = .next (s.unlessLost c ((w.updExec c (fun z => { z with
          binds := []
          committedPositions := (bs.map SeqBind.added).sum
          committedHits := (bs.map (fun b => b.hits.length)).sum })).afterGranule c (fun j => match j.exec with
            | none => Fin.ok
            | some z => { Fin.ok with c0 := z.committedPositions, c1 := z.committedHits })))) ∧
      (∀ r, e.roll = some r → r.open_ = true → r.valuing = false →
        exec (.granuleCommit c) s = .next (s.unlessLost c (s.commitTokens c k (k.home c) k.ctxField pl k.roll r))) ∧
      (∀ r, e.roll = some r → r.open_ = true → r.valuing = true →
        exec (.granuleCommit c) s = .next (s.unlessLost c (s.commitValue c k (k.home c) k.ctxField pl k.roll r))))
  ) ∧
  (
  ∀ (s t u : State) (c : CmdRef) (errs : List UnitErr) (k : Cmd) (x : Context) (y : Partition) (pl : PlanInst) (e : ExecRun)
    (no pt a : Nat) (bs : List Byte),
    let p := k.home c
    let h := k.ctxField
    let img := pl.image
    let w := k.who c.block
    s.cmd c = some k → k.phase = .started → s.ctx p h = some x → k.exec = some e → x.plan = some pl → e.atPoint = some (no, pt) →
    s.part p = some y → (y.ofCmd c).any (fun d => d.inst == no) = false → s.mapsOut p = false →
    x.tensorAddr img k (Plan.ptTensor img pt) = some a →
    (s.readEng w a 4).bind (fun n z => z.readEng w (a + 4) (4 * leNat n)) = .ok bs t →
    let ws := wordsAt bs
    let pick (pre : Bool) : List Nat := ((ws.filter (fun v => v.getLsbD 31 == pre)).map (fun v => v.toNat % 0x100000)).dedup
    (∀ n, badRequest (Plan.expertCount img) (Plan.maxActive img) ws = some n →
      exec (.expertPoint c errs) s = .next (s.unlessLost c ((t.failCmd c stExpertRequest n).settle))) ∧
    (badRequest (Plan.expertCount img) (Plan.maxActive img) ws = none →
      ((t.keepExperts c x pl).updCtx p h (fun z => { z with expertClock := z.expertClock + 1 })).serveExperts p h pl (pick false) errs
        (pick false ++ (pick true).filter (fun v => !(pick false).contains v)) = (none, false, u) →
      exec (.expertPoint c errs) s = .next (s.unlessLost c (u.updExec c (fun q => { q with atPoint := none }))))
  )

/-! ### Memory, regions and stores (chapter 11) -/

/-- R341 to R343, R347, R350: regions. A created region takes the lowest free descriptor and the lowest offset, and is
reachable after its scrub; a destroyed one is gone, scrubbed first in a confidential partition; OP_MEM_CLASS stores UCAP.
R450: OP_MEM_COPY of at most one granule reads its source and writes its destination; overlapping ranges are refused and
a length of 0 does nothing.
R332 to R334, R336 to R339: a patrol scrub read by the number of symbols in error, and the end of a sparing copy. A
codeword already poisoned stays lost; up to three symbols are corrected and logged; four or five are read again. What stands in a
codeword is met by the read and stands there no longer. -/
def Obligations.RegionAndScrubResults : Prop :=
  (
  ∀ (s : State) (c : CmdRef) (k : Cmd) (x : Partition) (i : Nat) (r : Region),
    let p := k.home c
    let h := k.ctxField
    s.part p = some x →
    (∀ off, let g := k.region c
      AtPoint s c k 0x0401 → regionFields k x g (decide (h ≠ 0xFFFF)) = true → x.inWindow g.base g.size = true →
      x.overlaps g.base g.size = false → x.freeDescriptor = some i →
      (match g.owner with
        | none => s.fitsPart p g.size
        | some o => s.fitsCtx p o g.size) = true → x.lowestOffset g.backing = some off →
      exec (.opRegionCreate c) s = .next (s.unlessLost c (((s.startCmd c).updPart p (fun y => { y with
        regions := SMap.set none y.regions i (some { g with coff := off }) })).settle))) ∧
    (AtPoint s c k 0x0401 → regionFields k x (k.region c) (decide (h ≠ 0xFFFF)) = true →
      x.inWindow (k.region c).base (k.region c).size = true → x.overlaps (k.region c).base (k.region c).size = true →
      exec (.opRegionCreate c) s = .next (s.unlessLost c ((s.endCmd c (Fin.bare stRegionOverlap)).settle))) ∧
    (∀ d, SMap.get none x.regions i = some r → r.ready = false → r.by_ = some d →
      exec (.allocationScrubDone p i) s = .next ((((s.scrubBacking x r.backing).updPart p (fun y => { y with
        regions := SMap.set none y.regions i (some { r with ready := true, by_ := none }) })).endCmd { block := d.1, id := d.2 }
          { Fin.ok with c0 := r.coff, c1 := i }).settle)) ∧
    (AtPoint s c k 0x0402 → k.p 0 4 = i → i ≤ 15 → SMap.get none x.regions i = some r → r.ready = true →
      (if h = 0xFFFF then r.owner = none else r.owner = some h) → s.regionBoundary c p r = true →
      exec (.opRegionDestroy c) s = .next (s.unlessLost c ((((if x.confidential then s.scrubBacking x r.backing else s).updPart p (fun y => { y with
        regions := SMap.set none y.regions i none })).endCmd c Fin.ok).settle))) ∧
    (AtPoint s c k 0x0402 → k.p 0 4 = i → SMap.get none x.regions i = none ∨ 15 < i →
      exec (.opRegionDestroy c) s = .next (s.unlessLost c ((s.endCmd c (Fin.bare stRegionParam)).settle))) ∧
    (AtPoint s c k 0x0403 → k.p 0 4 < 16 → exec (.opMemClass c) s =
      .next (s.unlessLost c (((s.updPart p (fun y => { y with ucap := BitVec.ofNat 4 (k.p 0 4) })).endCmd c Fin.ok).settle)))
  ) ∧
  (
  ∀ (s t u : State) (c : CmdRef) (k : Cmd) (bs : List Byte),
    let src := k.p 0 6
    let dst := k.p 8 6
    let len := k.p 0x10 8
    AtPoint s c k 0x0404 → k.p 6 2 = 0 → k.p 0xE 2 = 0 → k.p 0x18 8 < 2 → len ≤ 2 ^ 40 →
    (src < dst + len ∧ dst < src + len → exec (.opMemCopy c) s = .next (s.unlessLost c ((s.endCmd c (Fin.bare stMemParam)).settle))) ∧
    (len = 0 → exec (.opMemCopy c) s = .next (s.unlessLost c ((s.endCmd c (Fin.bare stOkEmpty)).settle))) ∧
    (0 < len → len ≤ 65536 → dst + len ≤ src ∨ src + len ≤ dst → k.progress = 0 →
      s.readEng (k.who c.block) src len = .ok bs t → t.writeEng (k.who c.block) dst bs = .ok () u →
      exec (.opMemCopy c) s = .next (s.unlessLost c (((u.updCmd c (fun j => { j with granules := j.granules + 1, progress := j.progress + 1 })).endCmd c
        { Fin.ok with c0 := 1 }).settle)))
  ) ∧
  (
  ∀ (s : State) (stack ch cw n : Nat) (lanes : List Nat),
    let met (e : SymErr) : State := (s.setLatent stack ch cw e).setLatent stack ch cw SymErr.clean
    (∀ retry, s.poisoned stack ch cw = false → s.latentErr stack ch cw = SymErr.clean →
      exec (.patrolScrubRead stack ch cw { symbols := 0, lanes := lanes, retry := retry }) s = .next (s.setLatent stack ch cw SymErr.clean)) ∧
    (∀ retry, s.poisoned stack ch cw = false → 1 ≤ n → n ≤ 3 →
      let err : SymErr := { symbols := n, lanes := lanes, retry := retry }
      let x := s.chan stack ch
      let log : List EccLog := { time := s.tb.now, codeword := cw, lanes := lanes } ::
        x.log.filter (fun e => decide (s.tb.now ≤ e.time + dayNs))
      let t := (met err).setChan stack ch { x with ceCount := x.ceCount + 1, retryOk := x.retryOk + 0, log := log }
      exec (.patrolScrubRead stack ch cw err) s = .next (if spareTrigger s.tb.now log then t.startSparing stack ch else t)) ∧
    (s.poisoned stack ch cw = false → 4 ≤ n → n ≤ 5 →
      let err : SymErr := { symbols := n, lanes := lanes, retry := 0 }
      exec (.patrolScrubRead stack ch cw err) s =
        .next ((met err).setChan stack ch { s.chan stack ch with retryOk := (s.chan stack ch).retryOk + 1 })) ∧
    (s.poisoned stack ch cw = false → 4 ≤ n → n ≤ 5 → cw * 64 < 0x7F800000 →
      let err : SymErr := { symbols := n, lanes := lanes, retry := 4 }
      let e := { EventRec.plain 0x0301 with unit := chanUnit stack ch, addr := (s.addrOf stack ch cw).getD 0 }
      exec (.patrolScrubRead stack ch cw err) s =
        .next (((((met err).setPoison stack ch cw true).record e).record { e with code := 0x0302, sev := severityOf 0x0302 }).startSparing
          stack ch)) ∧
    (∀ err : SymErr, s.poisoned stack ch cw = true → cw * 64 < 0x7F800000 → err.symbols ≠ 0 →
      exec (.patrolScrubRead stack ch cw err) s = .next ((met err).record { EventRec.plain 0x0301 with
        unit := chanUnit stack ch, addr := (s.addrOf stack ch cw).getD 0 })) ∧
    ((s.chan stack ch).copying = none → exec (.sparingCopyDone stack ch) s = .next s) ∧
    (∀ k, (s.chan stack ch).copying = some k →
      let u := s.copyReads stack ch
      exec (.sparingCopyDone stack ch) s = .next (((((u.setChan stack ch { u.chan stack ch with
        spare := some k, past := (s.chan stack ch).past ++ (s.chan stack ch).spare.toList, copying := none, retired := true
        answers := true, resets := 0 }).releaseHeld (chanKey stack ch)).record
          { EventRec.plain 0x0303 with unit := chanUnit stack ch })).noteStatus)) ∧
    (s.mem.latent = [] → s.copyReads stack ch = s)
  )

/-- R355, R360 to R362, R683: the store commands.
R353, R354, R356, R357: the time at which an open stripe is closed fills it with padding; a checkpoint takes the map and
starts the journal again; a scheduled superblock is emptied and erased; levelling moves the least worn full superblock into the
most worn free one; the oldest waiting unit is programmed, and every change of the map is journalled. -/
def Obligations.StoreCommandResults : Prop :=
  (
  ∀ (s t : State) (c : CmdRef) (k : Cmd) (x : Partition) (z : Context) (a : Store) (f : Fin) (n : Nat),
    let p := k.home c
    let h := k.ctxField
    let pairs := bitsSet x.pairMask.toNat 8
    s.part p = some x → s.ctx p h = some z →
    (AtPoint s c k 0x0405 → k.storeFields = true → 0 < k.p 8 8 → k.p 8 8 ≤ 2 ^ 25 * pairs.length →
      s.flashCharge p (some h) + k.p 8 8 ≤ z.quota.flash → s.mapsOut p = false → s.storeHandle = some n →
      let made : Store := { handle := n, part := some p, ctx := some h, persistent := k.stPersist, units := k.p 8 8, pairs := pairs,
                            data := [], written := [], keyed := true }
      exec (.opStoreCreate c) s = .next (s.unlessLost c ((({ s with flash := { s.flash with
        stores := s.flash.stores ++ [made]
        nextHandle := n % 0xFFFF + 1 } }).endCmd c { Fin.ok with c0 := n }).settle))) ∧
    (s.store (k.p 0 4) = some a → k.storeFields = true →
      (AtPoint s c k 0x0406 → a.part = some p → a.ctx = some h → s.atBoundary c p h = true → s.mapsOut p = false →
        exec (.opStoreDestroy c) s = .next (s.unlessLost c (((s.dropStores (fun y => y.handle == a.handle)).endCmd c Fin.ok).settle))) ∧
      (AtPoint s c k 0x0407 → a.part = some p → a.ctx = none → a.persistent = true →
        s.flashCharge p (some h) + a.units ≤ z.quota.flash → s.mapsOut p = false →
        exec (.opStoreAttach c) s = .next (s.unlessLost c (((s.updStore a.handle (fun y => { y with ctx := some h })).endCmd c Fin.ok).settle))) ∧
      (AtPoint s c k 0x0407 → a.ctx ≠ none →
        exec (.opStoreAttach c) s = .next (s.unlessLost c ((s.endCmd c (Fin.bare stStoreInvalid)).settle)))) ∧
    (s.store (k.p 0 4) = some a → s.unitsFail k p h = none → s.mapsOut p = false →
      (AtPoint s c k 0x0408 → exec (.opStoreWrite c) s = .next (s.unlessLost c (((List.range (k.p 0x10 4)).foldl (fun y i =>
        let job : FlashJob := { store := a.handle, unit := k.p 8 8 + i, addr := k.p 0x18 6 + 65536 * i, block := c.block, cmd := c.id }
        y.updFpair (a.pairOf (k.p 8 8 + i)) (fun q => { q with jobs := q.jobs ++ [job] }))
        (s.startCmd c)).settle))) ∧
      (AtPoint s c k 0x040A → exec (.opStoreTrim c) s = .next (s.unlessLost c ((((List.range (k.p 0x10 4)).foldl (fun y i =>
        (y.trimUnit a (k.p 8 8 + i)).commitUnit c) s).endCmd c Fin.ok).settle))) ∧
      (∀ errs, AtPoint s c k 0x0409 → k.p 0x10 4 = 1 → k.progress = 0 → SMap.get false a.written (k.p 8 8) = false →
        s.writeEng (k.who c.block) (k.p 0x18 6) (List.replicate 65536 0#8) = .ok () t →
        exec (.opStoreRead c errs) s = .next (s.unlessLost c ((((t.commitUnit c).updCmd c (fun j => { j with flashUnwritten := true })).endCmd c
          Fin.ok).settle))) ∧
      (∀ errs m, AtPoint s c k 0x0409 → k.p 0x10 4 = 1 → k.progress = 0 → SMap.get false a.written (k.p 8 8) = true →
        (s.fpair (a.pairOf (k.p 8 8))).map.find? (fun m => m.store == a.handle && m.unit == k.p 8 8) = some m →
        let u := s.countRead (a.pairOf (k.p 8 8)) m
        (outcomeOf errs (k.p 8 8) = none →
          u.writeEng (k.who c.block) (k.p 0x18 6) (Memory.read a.data (65536 * k.p 8 8) 65536) = .ok () t →
          exec (.opStoreRead c errs) s = .next (s.unlessLost c (((t.commitUnit c).endCmd c Fin.ok).settle))) ∧
        (outcomeOf errs (k.p 8 8) = some .lost → (((s.fpair (a.pairOf (k.p 8 8))).chan m.chan).sb m.sb).buffers m.slot = false →
          exec (.opStoreRead c errs) s =
          .next (s.unlessLost c (((((u.updFpair (a.pairOf (k.p 8 8)) (fun q => { q with
            readRetries := satInc32 q.readRetries })).readStripe (a.pairOf (k.p 8 8)) m).updFpair (a.pairOf (k.p 8 8)) (fun q => { q with
              losses := satInc16 q.losses })).failCmd c stDataLoss
              (k.p 8 8 % 2 ^ 32 + a.handle % 2 ^ 16 * 2 ^ 32 + 2 ^ 49)).settle))))) ∧
    (∀ g errs, s.unitsFail k p h = some g →
      (AtPoint s c k 0x0408 → exec (.opStoreWrite c) s = .next (s.unlessLost c ((s.endCmd c g).settle))) ∧
      (AtPoint s c k 0x0409 → exec (.opStoreRead c errs) s = .next (s.unlessLost c ((s.endCmd c g).settle))) ∧
      (AtPoint s c k 0x040A → exec (.opStoreTrim c) s = .next (s.unlessLost c ((s.endCmd c g).settle)))) ∧
    (AtPoint s c k 0x040B → k.storeFields = true → s.mapsOut p = false →
      s.output c (k.who c.block) (k.p 0x18 6) (pairs.flatMap (fun q => (s.fpair q).record)) Fin.ok = (t, some f) →
      exec (.opStoreStat c) s = .next (s.unlessLost c (((if k.opf0 = true ∧ f.status = 0 then pairs.foldl (fun y q => y.updFpair q (fun w =>
        { w with readRetries := 0, rebuilds := 0, losses := 0, disturbReloc := 0 })) t else t).endCmd c f).settle)))
  ) ∧
  (
  ∀ (s t : State) (pair ch sb : Nat) (bad : List Nat) (j : FlashJob) (js : List FlashJob) (k : Cmd) (bs : List Byte) (y : FlashPair),
    let c : CmdRef := { block := j.block, id := j.cmd }
    (((s.fpair pair).chan ch).opened = some sb → exec (.stripeCloseTimer pair ch) s =
      .next (s.updFpair pair (fun x => x.updChan ch (fun q => q.updSb sb (fun b => { b with fill := (b.fill + 15) / 16 * 16 }))))) ∧
    (((s.fpair pair).chan ch).opened = none → exec (.stripeCloseTimer pair ch) s = .next (s.updFpair pair id)) ∧
    exec (.mapCheckpoint pair) s = .next (s.updFpair pair (fun x => { x with journal := [], checkpoint := x.map })) ∧
    ((((s.fpair pair).chan ch).sb sb).relocating = false → exec (.relocationDone pair ch sb bad) s = .next s) ∧
    ((((s.fpair pair).chan ch).sb sb).relocating = true →
      let x := (s.fpair pair).evacuate ch sb
      x.valid ch sb = [] → bad = [] → exec (.relocationDone pair ch sb bad) s =
        .next ((s.setFpair pair { x with disturbReloc := satInc16 x.disturbReloc }).eraseSb pair ch sb)) ∧
    ((∀ n, ((((s.fpair pair).chan ch).sb n).erases ≤ 150)) → exec (.staticLevelling pair ch) s = .next s) ∧
    (∀ low d, let x := s.fpair pair
      let v := x.chan ch
      (List.range sbCount).foldl (fun m n => if (v.sb n).erases < (v.sb m).erases then n else m) 0 = low →
      (v.sb low).erases + 150 < (List.range sbCount).foldl (fun m n => max m (v.sb n).erases) 0 → (v.sb low).use = .full →
      v.oldest = some d →
      let slots := (List.range 4096).filter (fun q => (v.sb d).dataBlocks.contains (q % 16))
      (x.valid ch low).length ≤ slots.length →
      let moved : List MapEntry := ((x.valid ch low).zip slots).map (fun e => { e.1 with sb := d, slot := e.2 })
      exec (.staticLevelling pair ch) s = .next ((s.setFpair pair (moved.foldl (fun y m => y.change m.store m.unit (some m))
        (x.updChan ch (fun z => z.updSb d (fun b => { b with use := .full, fill := 4096 }))))).eraseSb pair ch low)) ∧
    (∀ (x : FlashPair) (m : MapEntry), x.change m.store m.unit (some m) = { x with
      map := x.map.filter (fun q => !(q.store == m.store && q.unit == m.unit)) ++ [m]
      journal := x.journal ++ [{ store := m.store, unit := m.unit, entry := some m }] }) ∧
    ((s.fpair pair).jobs = j :: js → s.cmd c = some k → j.unit = k.stUnit + k.progress →
      s.flash.paused.contains ((s.fpair pair).next % 4 / 2) = false →
      s.readEng (k.who c.block) j.addr 65536 = .ok bs t → (t.fpair pair).place j.store j.unit = some y →
      exec (.flashWriteDone pair false) s = .next (((((t.setFpair pair { y with jobs := y.jobs.drop 1 }).updStore j.store (fun a =>
        { a with
          data := Memory.write (Memory.zero a.data (65536 * j.unit) 65536) (65536 * j.unit) bs
          written := SMap.set false a.written j.unit true })).commitUnit c).writeDone c)))
  )

/-! ### Span (chapter 12) -/

/-- R378, R379: a good DATA flit that is in order is taken with the credit and acknowledgement it carries, its packets are
performed, and an IDLE flit answers where nothing else did. A NAK or LINK flit does what its kind says, any other gives only
credit and acknowledgement. A bad flit, or the first unexpected one, is counted and answered by one NAK; unexpected flits are
then discarded until the expected one comes. A NAK sends its flit and every later one again in order.
R378, R379: a payload waits for its number, credit of the peer and room in the replay buffer of 512 flits; then it is sent
with that number and kept.
R380 to R382: lanes and training. A failing lane asks for the spare, or with the spare in use the port trains again; both
ends move a named lane to the spare. A port trains to UP with 8 lanes, NARROW with 4 or where 8 cannot work, and DOWN
otherwise, where its operations take other ports or fail; DOWN trains again. -/
def Obligations.FlitResults : Prop :=
  (
  ∀ (s : State) (n seq corrected i : Nat) (flit : List Byte) (bad : Bool), n < 32 → (s.port n).listens = true →
    let x := s.port n
    let h := field flit 0 6
    let kind := h / 2 ^ 24 % 4
    let good := !bad && (field flit 206 2 == (crc16 ((List.range 206).map (fun i => flit.getD i 0))).toNat)
    let y := { x with corrSymbols := BitVec.ofNat 32 (min (x.corrSymbols.toNat + corrected) 0xFFFFFFFF) }
    let z := (({ y with credit := y.credit + 2 * (h / 2 ^ 26 % 256) } : SpanPort).ackUpTo (h / 2 ^ 12 % 4096)).pump
    (good = true → kind = 0 → h % 4096 = x.rxSeq.toNat → exec (.flitReceive n flit bad corrected) s =
      .next (((s.setPort n (z.receive ((flit.drop 6).take 200))).drainInbox n).idleFlit n z.sent.length)) ∧
    (good = true → kind = 1 → exec (.flitReceive n flit bad corrected) s = .next (s.setPort n z)) ∧
    (good = true → kind = 2 → exec (.flitReceive n flit bad corrected) s =
      .next (s.setPort n (z.nak ((h / 2 ^ 12 % 4096 + 1) % 4096)))) ∧
    (good = true → kind = 3 → exec (.flitReceive n flit bad corrected) s =
      .next ((s.setPort n z).spareRequest n (((flit.drop 6).getD 0 0).toNat))) ∧
    (good = false ∨ (kind = 0 ∧ h % 4096 ≠ x.rxSeq.toNat ∧ x.discarding = false) → exec (.flitReceive n flit bad corrected) s =
      .next (s.setPort n ({ y with
        rejected := BitVec.ofNat 32 (min (y.rejected.toNat + 1) 0xFFFFFFFF), discarding := true }.sendCtl 2 []))) ∧
    (good = true → kind = 0 → h % 4096 ≠ x.rxSeq.toNat → x.discarding = true →
      exec (.flitReceive n flit bad corrected) s = .next (s.setPort n y)) ∧
    (x.replay.findIdx? (fun e => e.1 % 4096 == seq % 4096) = some i → exec (.nakReceive n seq) s =
      .next (s.setPort n ({ x with
        replay := x.replay.drop i, sent := x.sent ++ (x.replay.drop i).map (fun e => (some e.1, e.2)) } : SpanPort).pump))
  ) ∧
  (
  ∀ (x : SpanPort) (no : Nat) (payload : List Byte) (rest : List (Nat × List Byte)), x.waiting = (no, payload) :: rest →
    (x.listens = false ∨ x.credit = 0 ∨ 512 ≤ x.replay.length → x.sendOne = x) ∧
    (x.listens = true → 0 < x.credit → x.replay.length < 512 →
      let back := if x.inbox.isEmpty then min 255 (x.owed / 2) else 0
      let f := mkFlit no (x.rxSeq - 1).toNat 0 back payload
      x.sendOne = { x with
        waiting := rest, credit := x.credit - 1, owed := x.owed - 2 * back, sent := x.sent ++ [(some no, f)],
        replay := x.replay ++ [(no, f)] })
  ) ∧
  (
  ∀ (s : State) (n lane lanes e q room : Nat), n < 32 →
    let x := s.port n
    let logged (t : State) : State := t.record { EventRec.plain 0x0502 with unit := n * 2 ^ 27 + 0 * 2 ^ 23 }
    let spareIn := x.rx.retired.isSome = true ∨ x.request.isSome = true
    let most := min lanes (if x.tx.failing.length ≤ 1 ∧ x.rx.failing.length ≤ 1 then 8 else 4)
    let linked (st : PortState) (w : Nat) (tx rx : LaneSide) : SpanPort :=
      let y : SpanPort := { x with
        state := st, lanes := w, peerEngine := e % 4096, peerPort := q % 32, credit := room - x.replay.length, owed := 0, tx := tx,
        rx := rx }
      ({ y with
        retiredLane := (y.rx.retired.orElse (fun _ => y.tx.retired)).getD 0xF,
        sent := y.sent ++ y.replay.map (fun r => (some r.1, r.2)) } : SpanPort).pump
    (x.usable = true → x.rx.failing.contains lane = false →
      let y := { x with rx := { x.rx with failing := lane :: x.rx.failing } }
      (lane < 8 → x.rx.retired = none → x.request = none → x.rx.failing.contains 8 = false → exec (.laneFailing n lane) s =
        .next (s.setPort n ({ y with request := some lane }.sendCtl 3 (leBytes 1 lane)))) ∧
      (lane < 8 → spareIn ∨ x.rx.failing.contains 8 = true → exec (.laneFailing n lane) s = .next ((s.setPort n y).train n)) ∧
      (lane = 8 → spareIn → exec (.laneFailing n lane) s = .next ((s.setPort n y).train n)) ∧
      (lane = 8 → ¬spareIn → exec (.laneFailing n lane) s = .next (s.setPort n y))) ∧
    (x.usable = true → lane < 8 →
      (x.request = some lane → exec (.laneSpareRequest n lane) s =
        .next (s.setPort n { x with rx := x.rx.retire lane, retiredLane := lane, request := none })) ∧
      (x.request ≠ some lane → x.tx.retired = none → x.tx.failing.contains 8 = false → exec (.laneSpareRequest n lane) s =
        .next (s.setPort n (let y := ({ x with tx := x.tx.retire lane } : SpanPort).sendCtl 3 (leBytes 1 lane)
          { y with retiredLane := y.retiredOf }))) ∧
      (∀ l, x.request ≠ some lane → x.tx.retired = some l → l ≠ lane → exec (.laneSpareRequest n lane) s =
        .next ((s.updPort n (fun y => { y with tx := y.tx.fail lane })).train n))) ∧
    (x.state = .training → 8 ≤ most → exec (.portTrainingDone n lanes e q room) s =
      .next (logged (s.setPort n (linked .up 8 x.tx.trained x.rx.trained)))) ∧
    (x.state = .training → 4 ≤ most → most < 8 → exec (.portTrainingDone n lanes e q room) s =
      .next (logged (s.setPort n (linked .narrow 4 x.tx x.rx)))) ∧
    (x.state = .training → most < 4 → exec (.portTrainingDone n lanes e q room) s =
      .next (((logged (s.setPort n { x with state := .down, lanes := 0 })).reroute n (some stPeerLost)).updPort n SpanPort.unlink)) ∧
    (x.state = .down → exec (.portRetryTimer n) s = .next (logged (s.updPort n (fun y => { y with
      state := .training, lanes := 0, request := none,
      retrains := if s.start.phase = .ready then satInc16 y.retrains else y.retrains }))))
  )

/-- R384, R385, R388, R391, R394, R403, R466: packets that arrive. An operation that its window admits is performed once and
answered; a duplicate is dropped and acknowledged; any other is refused, counted and logged; a packet for another engine is
forwarded, or without a forwarding route or at its third hop answered as unreachable. A packet that must be held stays in its
port, and an OP that no table lists is counted and logged.
R389, R392, R394, R452: an answer to an operation issued here. The last acknowledgement, or the last bytes of a READ,
complete it; an error, or SPAN_TIMEOUT, ends the command whose dispatch waits for it.
R387, R389, R391, R395: what an issued operation sends. A WRITE carries its bytes in packets of up to 256 and names RSEM and
NOTIFY in its last one, a READ asks for 64 bytes a packet, an ATOMIC_ADD carries its addend as payload; every packet has the
operation's identity. -/
def Obligations.SpanPacketResults : Prop :=
  (
  ∀ (s u t : State) (n : Nat) (pkt : List Byte) (x : Partition) (w : Window) (who : Who) (a : Nat) (key : Option Nat) (bs : List Byte),
    let k := Pkt.of pkt
    let came := (s.updPort n (fun y => { y with inbox := y.inbox ++ [pkt] })).updPort n (fun y => { y with inbox := [] })
    (n < 32 → (s.port n).listens = true → (s.port n).inbox = [] →
      (came.arrive n pkt = some t → exec (.spanPacketArrival n pkt) s = .next (t.updPort n (fun y => y))) ∧
      (came.arrive n pkt = none → exec (.spanPacketArrival n pkt) s =
        .next (came.updPort n (fun y => { y with inbox := pkt :: y.inbox })))) ∧
    (pkt.length = 32 + k.len → k.len ≤ 256 →
      (k.op = 0 ∨ 0xB ≤ k.op → u.arrive n pkt = some ((u.updPort n (fun y => { y with deniedIn := satInc16 y.deniedIn })).record
        { EventRec.plain 0x0103 with part := (u.portPart n).getD 0xF, unit := portUnit n 0, detail := k.op })) ∧
      (k.dstE = u.span.engineId → 1 ≤ k.op → k.op ≤ 3 → k.idx ≠ 0x7FF →
        (u.portPart n ≠ some k.dstP → u.arrive n pkt =
          some (((u.updPort n (fun y => { y with deniedIn := satInc16 y.deniedIn })).record { EventRec.plain 0x0503 with
            part := (u.portPart n).getD 0xF, unit := portUnit n 0, detail := 0 }).reply n k 0xA 1 k.arg [])) ∧
        (u.portPart n = some k.dstP → u.part k.dstP = some x → SMap.get none x.span.windows k.window = none →
          u.arrive n pkt = some (u.refuse n k 1)) ∧
        (u.portPart n = some k.dstP → u.part k.dstP = some x → SMap.get none x.span.windows k.window = some w →
          (w.admits k = false → u.arrive n pkt = some (u.refuse n k 1)) ∧
          (w.admits k = true → w.size < k.offset + k.span → u.arrive n pkt = some (u.refuse n k 2)) ∧
          (w.admits k = true → k.offset + k.span ≤ w.size → w.spad = true → x.spadGate = .deny →
            u.arrive n pkt = some (u.refuse n k 1)) ∧
          (w.admits k = true → k.offset + k.span ≤ w.size → w.spad = true → x.spadGate = .hold → u.arrive n pkt = none) ∧
          (w.admits k = true → k.offset + k.span ≤ w.size → w.spad = false ∨ x.spadGate = .take →
            u.windowAt k.dstP x w k.offset = some (who, a, key) →
            (k.op = 1 → u.newerAt (srcKey k) k = true → u.writeEng who a k.data = .ok () t →
              u.arrive n pkt = some (((t.appliedAt (srcKey k) k).notify k key).reply n k 8 0 0 [])) ∧
            (k.op = 1 ∨ k.op = 3 → u.newerAt (srcKey k) k = false → u.arrive n pkt =
              some ((u.updPort n (fun y => { y with dupDropped := satInc16 y.dupDropped })).reply n k 8 0 0 [])) ∧
            (k.op = 2 → u.readEng who a 64 = .ok bs t → u.arrive n pkt = some ((t.appliedAt (srcKey k) k).reply n k 9 0 0 bs)) ∧
            (∀ v, k.op = 3 → u.newerAt (srcKey k) k = true → u.readEng who a k.span = .ok bs t →
              t.writeEng who a (leBytes k.span (leNat bs + leNat k.data)) = .ok () v →
              u.arrive n pkt = some (((v.appliedAt (srcKey k) k).notify k key).reply n k 8 0 0 []))))) ∧
      (∀ p r, k.dstE ≠ u.span.engineId → 1 ≤ k.op → k.op < 0xB → u.portPart n = some p →
        (u.route p k.dstE = none → u.arrive n pkt = some (u.reply n k 0xA 4 k.arg [])) ∧
        (u.route p k.dstE = some r → r.forward = false ∨ k.hops = 3 → u.arrive n pkt = some (u.reply n k 0xA 4 k.arg [])) ∧
        (∀ m, u.route p k.dstE = some r → r.forward = true → k.hops ≠ 3 →
          (u.routePorts p r.mask)[reqCore k.req % (u.routePorts p r.mask).length]? = some m →
          u.arrive n pkt = some ((u.updPort n (fun y => { y with forwarded := y.forwarded + 1 })).pushPacket m
            (pkt.take 1 ++ leBytes 1 (k.hops + 1 + k.window * 4) ++ pkt.drop 2)))))
  ) ∧
  (
  ∀ (s u t : State) (n : Nat) (pkt : List Byte) (o : SpanOp) (q : CorePos),
    let k := Pkt.of pkt
    let came := (s.updPort n (fun y => { y with inbox := y.inbox ++ [pkt] })).updPort n (fun y => { y with inbox := [] })
    (n < 32 → (s.port n).listens = true → (s.port n).inbox = [] → k.op = 8 ∨ k.op = 9 ∨ k.op = 0xA →
      came.arrive n pkt = some t → exec (.spanLocalCompletion n pkt) s = .next (t.updPort n (fun y => y))) ∧
    (pkt.length = 32 + k.len → k.len ≤ 256 → k.dstE = u.span.engineId →
      u.span.ops.find? (fun o => o.answers k && (k.op == 0xA || k.offset == o.offset + o.got)) = some o →
      (k.op = 8 → o.op = 3 ∨ (o.op = 1 ∧ o.cmd = none ∧ o.length ≤ o.got + 256) →
        u.arrive n pkt = some ((u.opDone o).portDrained o.port)) ∧
      (k.op = 9 → o.op = 2 → o.cmd = none → o.length ≤ o.got + k.len → u.opAlive o = true → u.arrive n pkt =
        some (((u.updCore o.core (fun c => spanPut c o.req (o.dstOff + o.got) (k.data.take (o.length - o.got)))).opDone o).portDrained
          o.port)) ∧
      (k.op = 0xA → u.arrive n pkt = some (u.opFailed o (failStatus o k.status).1 (failStatus o k.status).2))) ∧
    (∀ w, u.opAlive o = true → (u.core o.core).spanWait o.req = some w → w.racedSrc = false → w.racedDst = false →
      u.opDone o = (u.dropOp o).updCore o.core (fun c => spanDone c o.req o.lsem)) ∧
    (∀ r, let mine (z : SpanOp) : Bool := z.core == CorePos.key q && z.cmd.isNone && z.req == r && !z.acked
      let left (v : State) : State := (v.span.ops.filter (fun z => mine z && z.dispatch == o.dispatch)).foldl State.dropOp v
      s.span.ops.find? mine = some o →
      (s.opAlive o = false → exec (.spanTimeout q r) s = .next (left (s.dropOp o))) ∧
      (∀ p x d, s.opAlive o = true → s.dispatchOf o.core = some (p, x, d) →
        exec (.spanTimeout q r) s = .next (left (((s.dropOp o).endAtBoundary d.ref stPeerLost 0).settle))))
  ) ∧
  (
  ∀ (o : SpanOp) (self : Nat),
    let id := o.lpos % 2048 + o.dispatch % 2 ^ 16 * 2 ^ 11 + o.req % 2 ^ 16 * 2 ^ 27
    (o.op = 1 → o.cmd = none → o.got = 0 → 0 < o.length → o.packets self =
      (List.range ((o.length + 255) / 256)).map (fun i =>
        mkPacket 1 0 0 o.window o.engine o.dstPart self o.part (o.offset + 256 * i) id
          (if o.length ≤ 256 * i + 256 then o.arg else 0) ((o.data.drop (256 * i)).take (min 256 (o.length - 256 * i))))) ∧
    (o.op = 2 → o.got = 0 → 0 < o.length → o.packets self = (List.range ((o.length + 63) / 64)).map (fun i =>
      mkPacket 2 0 0 o.window o.engine o.dstPart self o.part (o.offset + 64 * i) id 0 [])) ∧
    (o.op = 3 → o.packets self = [mkPacket 3 0 0 o.window o.engine o.dstPart self o.part o.offset id o.arg o.data])
  )

/-- R397 to R399: a collective completes once every local part has issued it and everything it needs is here; its result then
reaches every core that takes part. R391, R398: a part of an identity that was applied before is a duplicate.
R383 to R386, R396, R400, R401: the span commands. -/
def Obligations.SpanCommandResults : Prop :=
  (
  ∀ (s u : State) (p gi n : Nat) (x : Partition) (g : Group) (r : CollRun) (k : Pkt),
    (s.part p = some x → x.group gi = some g →
      s.span.colls.find? (fun r => r.part == p && r.group == gi && !r.finished && decide (r.op ≠ 0)) = some r →
      (r.joins.length < g.ppe → exec (.collectiveComplete p gi) s = .next s) ∧
      (g.ppe ≤ r.joins.length →
        let o := s.openParts g.parts r
        let q := o.1.foldOwned p g o.2
        let t := q.1.setColl r q.2
        (q.2.joins.mapM (fun j => (q.2.result g.parts j.idx).map (fun bs => (j, bs))) = none →
          exec (.collectiveComplete p gi) s = .next t) ∧
        (∀ rs, q.2.joins.mapM (fun j => (q.2.result g.parts j.idx).map (fun bs => (j, bs))) = some rs →
          exec (.collectiveComplete p gi) s = .next ((rs.foldl (fun u y => u.deliverColl y.1 y.2) t).setColl q.2 { q.2 with
            finished := true })))) ∧
    (u.portPart n = some k.dstP → k.idx ≠ 0x7FF → (u.part k.dstP).bind (fun y => y.group k.group) = some g →
      g.members[k.idx / max g.ppe 1]? = some (k.srcE, k.srcP) →
      u.span.colls.find? (fun r => (r.part == k.dstP && r.group == k.group) && r.ids.contains (k.idx, k.req)) = none →
      u.newerAt (collKey k) k = false → u.arriveColl n k =
        (u.updPort n (fun y => { y with dupDropped := satInc16 y.dupDropped })).reply n k 8 0 k.arg [])
  ) ∧
  (
  ∀ (s t : State) (c : CmdRef) (k : Cmd) (x : Partition) (f : Fin),
    let p := k.home c
    (AtPoint s c k 0x0901 → k.p 0 4 < 0xFFF → k.p 8 4 = 0 ∨ (10 ≤ k.p 8 4 ∧ k.p 8 4 ≤ 1000000) → k.p 12 4 = 0 →
      let s1 := { s with span := { s.span with engineId := k.p 0 4, timeoutUs := if k.p 8 4 = 0 then 1000 else k.p 8 4 } }
      exec (.opSpanConfig c) s = .next (s.unlessLost c ((((List.range 32).foldl (fun (u : State) n =>
        let want := bitOf (k.p 4 4) n
        let v := u.updPort n (fun y => { y with enabled := want })
        if want = true ∧ (u.port n).enabled = false then (v.updPort n (fun y => { y with state := .training })).portEvent n
        else if want = false ∧ (u.port n).enabled = true then
          if (u.port n).usable then ((v.updPort n (fun y => { y with state := .draining })).portEvent n).portDrained n
          else (v.updPort n (fun y => { y.unlink with state := .disabled, lanes := 0 })).portEvent n
        else if want = true ∧ k.p 0 4 ≠ s.span.engineId then v.train n
        else v) s1).endCmd c Fin.ok).settle))) ∧
    (AtPoint s c k 0x0901 → 0xFFF ≤ k.p 0 4 → exec (.opSpanConfig c) s = .next (s.unlessLost c ((s.endCmd c (Fin.bare stSpanParam)).settle))) ∧
    (s.part p = some x → x.confidential = false → s.partQuiet c p = true →
      (AtPoint s c k 0x0902 → k.p 0 4 < 2 ^ 9 → k.p 4 4 < 0xFFF → (bitsSet (k.p 8 4) 32).all (fun n => s.portPart n == some p) = true →
        let r : Option Route := if bitOf (k.p 0 4) 6 then some { dest := k.p 4 4, forward := bitOf (k.p 0 4) 7, mask := k.p 8 4 } else none
        exec (.opSpanRoute c) s = .next (s.unlessLost c (((s.updPart p (fun y => { y with span := { y.span with
          routes := SMap.set none y.span.routes (k.p 0 4 % 64) r } })).endCmd c Fin.ok).settle))) ∧
      (AtPoint s c k 0x0903 → k.p 0 4 < 2 ^ 13 → k.p 0 4 / 64 % 4 = 0 → k.p 4 4 < 2 ^ 28 → k.p 4 4 / 2 ^ 12 % 16 = 0 → k.p 8 4 < 256 →
        k.p 0x10 8 < 2 ^ 48 → k.p 0x18 8 < 2 ^ 48 → k.p 0x18 8 % 64 = 0 → k.p 12 4 < 2 ^ 11 →
        exec (.opSpanWindow c) s = .next (s.unlessLost c (((s.updPart p (fun y => { y with span := { y.span with
          windows := SMap.set none y.span.windows (k.p 0 4 % 64) none } })).endCmd c Fin.ok).settle))) ∧
      (AtPoint s c k 0x0903 → k.p 0 4 < 2 ^ 13 → k.p 0 4 / 64 % 4 = 2 → k.p 4 4 < 2 ^ 28 → k.p 4 4 / 2 ^ 12 % 16 = 0 → k.p 8 4 < 256 →
        k.p 0x10 8 < 2 ^ 48 → k.p 0x18 8 < 2 ^ 48 → k.p 0x18 8 % 64 = 0 → k.p 12 4 < 128 * x.dies.length →
        k.p 0x10 8 + k.p 0x18 8 ≤ 0x400000 →
        let w : Window := { spad := true, perm := bitsOf (k.p 0 4) 10 8, bulk := bitOf (k.p 0 4) 11, srcEngine := k.p 4 4 % 4096,
                            srcMask := bitsOf (k.p 4 4) 27 16, srcParts := k.p 8 1, target := k.p 12 4, base := k.p 0x10 8,
                            size := k.p 0x18 8 }
        exec (.opSpanWindow c) s = .next (s.unlessLost c (((s.updPart p (fun y => { y with span := { y.span with
          windows := SMap.set none y.span.windows (k.p 0 4 % 64) (some w) } })).endCmd c Fin.ok).settle)))) ∧
    (AtPoint s c k 0x0904 → k.p 0 4 < 2 ^ 16 → k.p 4 4 = 0 →
      let e := k.p 0 4 / 16 % 16
      let ms := (List.range e).map (fun i => (k.p (8 + 4 * i) 4 % 4096, k.p (8 + 4 * i) 4 / 2 ^ 12 % 8))
      1 ≤ e → e ≤ 8 → (∀ i, i < 8 → k.p (8 + 4 * i) 4 < 2 ^ 15) → (∀ m ∈ ms, m.1 < 0xFFF) →
      (ms.filter (fun m => m.1 == s.span.engineId)).length = 1 →
      let g : Group := { ppe := k.p 0 4 / 256 % 256 + 1, members := ms, digest := Config.groupDigest (k.pBytes 0 40), mismatch := false }
      exec (.opCollGroup c) s = .next (s.unlessLost c ((((ms.filter (fun m => m.1 != s.span.engineId)).foldl
        (fun u m => u.sendDigest p (k.p 0 4 % 16) m g.digest) (s.updPart p (fun y => ({ y with span := { y.span with
          groups := SMap.set none y.span.groups (k.p 0 4 % 16) (some g) } } : Partition).compareDigests (k.p 0 4 % 16)))).endCmd c
        Fin.ok).settle))) ∧
    (AtPoint s c k 0x0905 → k.p 0 4 < 32 → k.p 4 4 = 0 → k.p 8 8 < 2 ^ 48 → portOf c.block ≠ 1 → portOf c.block ≠ 3 →
      s.output c { part := partOfBlock c.block, ctx := none } (k.p 8 8) (leBytes 32 (s.portRecord (k.p 0 4))) Fin.ok = (t, some f) →
      exec (.opSpanStat c) s = .next (s.unlessLost c ((t.endCmd c f).settle))) ∧
    (AtPoint s c k 0x0905 → portOf c.block = 1 → s.portPart (k.p 0 4 % 32) ≠ some p →
      exec (.opSpanStat c) s = .next (s.unlessLost c ((s.endCmd c (Fin.bare stSpanParam)).settle)))
  )

/-! ### The host interface (chapters 1 and 13) -/

/-- R17, R35: an access of another width or alignment is discarded or reads all ones of its width, a write to a mirror under
SR-IOV is discarded, and both enter the Steward's event ring.
R15, R16, R34, R36, R39, R41, R143, R144, R187, R190, R409, R506, R572: what a write of a register stores. A writable field takes its bits,
every other bit of the value is ignored, and before READY only STW_CTRL and TRIP_STAT take a write. A write of control space
changes nothing and enters the event ring (R28, R206; the model's choice for its code, notes/assumptions/2.md).
R39, R40, R334: the aperture. An access inside one codeword that a region of a partition backs reads and writes that
DRAM; a lost read and one beyond the tier give all ones, and a write beyond it is discarded; a full codeword clears poison, and a
part of a poisoned codeword is refused and recorded. -/
def Obligations.RegisterAccessResults : Prop :=
  (
  ∀ (s : State) (p len : Nat),
    exec (.bar0BadAccess true len) s = .next (s.event 0x0101) ∧
    exec (.bar0BadAccess false len) s = .next ((s.event 0x0101).answer (List.replicate len 0xFF#8)) ∧
    (s.up = true → s.host.sriov = true →
      exec (.mirrorWrite p) s = .next (s.record { EventRec.plain 0x0102 with part := p }))
  ) ∧
  (
  (∀ (s : State) (v : Word), s.up = true →
    exec (.regWrite (.bar0 0 0x1008) v) s = .next { s with host := { s.host with apertureBase := v.extractLsb' 0 9 } } ∧
    exec (.regWrite (.bar0 0 0x1018) v) s = .next { s with tb := { s.tb with
      ctrlEn := v.getLsbD 31, periodMs := v.extractLsb' 0 10 } } ∧
    exec (.regWrite (.bar0 0 0x2010) v) s = .next { s with stw := { s.stw with
      irqEn := v.getLsbD 31, minSev := v.extractLsb' 16 3 } } ∧
    exec (.regWrite (.bar0 0 0x800C) v) s = .next (s.updBlock 0 (fun q => { q with defTimeout := v })) ∧
    (s.host.sriov = true → exec (.regWrite (.bar0 3 0x0C) v) s = .next (s.updBlock 3 (fun q => { q with defTimeout := v }))) ∧
    (s.host.sriov = false →
      exec (.regWrite (.bar0 0 0x1200C) v) s = .next (s.updBlock 3 (fun q => { q with defTimeout := v }))) ∧
    exec (.regWrite (.bar0 0 0x1000) v) s = .next s ∧
    (∀ i, i < 320 → exec (.regWrite (.bar0 0 (0x20000 + 4 * i)) v) s = .next (s.msixWrite 0 (0x20000 + 4 * i) v) ∧
      (s.msixWrite 0 (0x20000 + 4 * i) v).bar0Read 0 (0x20000 + 4 * i) = v.toNat)) ∧
  (∀ (s : State) (fn off : Nat) (v : Word), s.up = false → off ≠ 0x2004 → off ≠ 0x1050 →
    exec (.regWrite (.bar0 fn off) v) s = .next s) ∧
  (∀ (s : State) (a : Nat) (v : Word), s.up = true → exec (.regWrite (.control a) v) s =
    .next (s.record { EventRec.plain Config.controlRefusalCode with addr := a })) ∧
  (∀ (s : State) (q : CorePos) (v : Word), posOk q = true →
    let c := s.core (CorePos.key q)
    let becomes (d : Core) : Out := .next (s.setCore (CorePos.key q) d)
    exec (.regWrite (.core q 0x460030) v) s = becomes { c with regs := { c.regs with nbCtrl := v.extractLsb' 0 11 } } ∧
    exec (.regWrite (.core q 0x460208) v) s = becomes { c with seq := { c.seq with wdog := v } } ∧
    exec (.regWrite (.core q 0x460000) v) s = becomes c ∧
    (∀ n, 1 ≤ n → n ≤ 15 → exec (.regWrite (.core q (0x460240 + 4 * n)) v) s =
      becomes { c with seq := { c.seq with args := SMap.set 0#32 c.seq.args n v } }) ∧
    (∀ a, a < 0x2000 → c.seq.state = .idle →
      let w := SMap.get 0#64 c.mem.prog a
      exec (.regWrite (.core q (0x450000 + 8 * a)) v) s = becomes { c with mem := { c.mem with
        prog := SMap.set 0#64 c.mem.prog a ((w &&& 0xFFFFFFFF00000000#64) ||| v.setWidth 64) } }))
  ) ∧
  (
  ∀ (s : State) (off len : Nat) (data : List Byte) (errs : List DramErr) (st ch cw a : Nat), s.up = true →
    a = s.apertureAddr + off →
    let met := s.strike errs
    let put (t : State) : State := State.spoil { t with mem := { t.mem with dram := Memory.write t.mem.dram a data } } a data.length
    (0 < len → a % 64 + len ≤ 64 → off + len ≤ 2 ^ s.host.barLog2 →
      (∀ t : State, met.apPlace a = .cell st ch cw → met.readCodeword st ch cw = (.delivered, t) →
        exec (.apertureRead off len errs) s = .next (t.answer (Memory.read t.mem.dram a len))) ∧
      (∀ (t : State) was, met.apPlace a = .cell st ch cw → met.readCodeword st ch cw = (.lost was, t) →
        exec (.apertureRead off len errs) s = .next (t.answer (List.replicate len 0xFF#8))) ∧
      (met.apPlace a = .beyond →
        exec (.apertureRead off len errs) s = .next (met.answer (List.replicate len 0xFF#8)))) ∧
    (0 < data.length → a % 64 + data.length ≤ 64 → off + data.length ≤ 2 ^ s.host.barLog2 →
      (s.apPlace a = .cell st ch cw → s.poisoned st ch cw = false → s.latentErr st ch cw = SymErr.clean → data.length < 64 →
        exec (.apertureWrite off data) s = .next (put s)) ∧
      (s.apPlace a = .cell st ch cw → data.length = 64 → exec (.apertureWrite off data) s =
        .next (put ((s.setPoison st ch cw false).setLatent st ch cw SymErr.clean))) ∧
      (s.apPlace a = .cell st ch cw → s.poisoned st ch cw = true → data.length < 64 →
        exec (.apertureWrite off data) s = .next (s.record { EventRec.plain 0x0302 with
          unit := chanUnit st ch, addr := (s.addrOf st ch cw).getD 0 })) ∧
      (s.apPlace a = .beyond ∨ s.apPlace a = .none → exec (.apertureWrite off data) s = .next s))
  )

/-- R412, R413, R418 to R420, R432: enabling and disabling rings. A refused enable sets CFG_ERR and stores nothing else (the
model's choice for what the rules leave open, notes/assumptions/6.md).
R408, R414, R426: doorbells. An index inside the ring is stored; an index at or above the ring's size, or a CQ_HEAD that
passes CQ_TAIL, is discarded and counted in DOORBELL_ERR, which saturates; CLR_COUNTS clears DENIED and every DOORBELL_ERR of
the block. What the host stores and what its IOMMU refuses (R33) stands before the doorbell.
R421, R425, R430, R431, R434: the engine's side of the rings. The ring whose turn it is gives one packet, which becomes a
command in flight with the next number; a held record is written once its ring has room; the delay of a ring that has records
pending signals its vector.
R428, R429, R431: a record that goes to host memory stands, with the phase of the pass in bit 16 of its second word, at
CQ_TAIL, which moves on and inverts the phase at the wrap. -/
def Obligations.RingResults : Prop :=
  (
  ∀ (s : State) (b r : Nat) (v : Word), s.up = true → b < 9 → r < 4 →
    let g := s.ring b r
    let size := v.toNat / 0x10000 % 32
    let loc := v.getLsbD 30
    let sqFits := 7 ≤ size ∧ size ≤ 16 ∧ (loc = true ∨ g.sq.base.toNat + 64 * 2 ^ size ≤ 0xF00000000000) ∧
      s.ringPlace b loc = true ∧ g.cq.state = .enabled
    let cqFits := 6 ≤ size ∧ size ≤ 16 ∧ (loc = true ∨ g.cq.base.toNat + 32 * 2 ^ size ≤ 0xF00000000000) ∧
      s.ringPlace b loc = true
    (g.sq.state ≠ .disabled → exec (.sqEnable b r v) s = .next s) ∧
    (g.sq.state = .disabled → sqFits → exec (.sqEnable b r v) s = .next (s.updSq b r (fun x => { x with
      loc := loc, sizeLog2 := BitVec.ofNat 5 size, cfgErr := false, state := .enabled, head := 0, tail := 0, expectSeq := 0 }))) ∧
    (g.sq.state = .disabled → ¬ sqFits → exec (.sqEnable b r v) s = .next (s.updSq b r (fun x => { x with cfgErr := true }))) ∧
    (g.cq.state = .disabled → cqFits → exec (.cqEnable b r v) s = .next (s.updCq b r (fun x => { x with
      irqEn := v.getLsbD 3, vector := v.extractLsb' 0 3, loc := loc, sizeLog2 := BitVec.ofNat 5 size, cfgErr := false,
      state := .enabled, head := 0, tail := 0, phase := true, pendingIrq := 0, held := [] }))) ∧
    (g.cq.state = .disabled → ¬ cqFits → exec (.cqEnable b r v) s = .next (s.updCq b r (fun x => { x with cfgErr := true }))) ∧
    (g.cq.state ≠ .disabled → exec (.cqEnable b r v) s = .next (s.updCq b r (fun x => { x with
      irqEn := v.getLsbD 3, vector := v.extractLsb' 0 3 }))) ∧
    (g.sq.state = .enabled ∨ g.sq.state = .error → exec (.sqDisable b r) s =
      .next (((s.updSq b r (fun x => { x with state := .draining })).sqDrained b r).settle)) ∧
    (g.sq.state = .disabled → g.cq.state ≠ .disabled → g.cq.held = [] → exec (.cqDisable b r) s =
      .next ((s.updCq b r (fun x => { x with state := .disabled, held := [] })).settle)) ∧
    (g.sq.state ≠ .disabled → exec (.cqDisable b r) s = .next s)
  ) ∧
  (
  ∀ (s : State) (b r : Nat) (v : Word), s.up = true → b < 9 → r < 4 →
    let i := v.toNat % 0x10000
    let sq := (s.ring b r).sq
    let cq := (s.ring b r).cq
    let n := 2 ^ cq.sizeLog2.toNat
    let counted : State := s.updSq b r (fun x => { x with doorbellErr := BitVec.ofNat 8 (min (x.doorbellErr.toNat + 1) 255) })
    let passes := (cq.tail.toNat + n - cq.head.toNat) % n < (i + n - cq.head.toNat) % n
    (i < 2 ^ sq.sizeLog2.toNat → exec (.sqTailWrite b r v [] []) s =
      .next (s.updSq b r (fun x => { x with tail := BitVec.ofNat 16 i }))) ∧
    (2 ^ sq.sizeLog2.toNat ≤ i → exec (.sqTailWrite b r v [] []) s = .next counted) ∧
    (∀ w : HostWrite, exec (.sqTailWrite b r v [w] []) s = exec (.sqTailWrite b r v [] [])
      { s with mem := { s.mem with hostMem := Memory.write s.mem.hostMem w.addr w.data } }) ∧
    (∀ fn base size, 0 < size → exec (.sqTailWrite b r v [] [{ fn := fn, swap := false, base := base, size := size, refuse := true }]) s =
      exec (.sqTailWrite b r v [] []) { s with mem := { s.mem with
        hostRefused := (fn, base, base + size) :: s.mem.hostRefused.flatMap (fun q =>
          if q.1 = fn then (cutRefused base (base + size) q.2).map (fun z => (fn, z)) else [q]) } }) ∧
    (i < n → ¬ passes → exec (.cqHeadWrite b r v) s = .next (s.updCq b r (fun x => { x with head := BitVec.ofNat 16 i }))) ∧
    (n ≤ i ∨ passes → exec (.cqHeadWrite b r v) s = .next counted) ∧
    exec (.clrCounts b) s = .next ((List.range 4).foldl (fun t j => t.updSq b j (fun x => { x with doorbellErr := 0 }))
      (s.updBlock b (fun q => { q with denied := 0 })))
  ) ∧
  (
  ∀ (s : State) (b r : Nat),
    (∀ (hdr rest : List Byte) (s1 s2 : State), s.up = true → b < 9 → b = 0 ∨ s.serves b = true →
      (s.block b).cmds.length < 64 → s.turnRing b = some r →
      let q := (s.ring b r).sq
      let n := slotsOf hdr
      (s.updBlock b (fun x => { x with turn := (r + 1) % 4 })).slotRead b q q.head.toNat = .ok hdr s1 →
      engAll (fun t i => t.slotRead b q (q.head.toNat + i)) s1 ((List.range (n - 1)).map (fun i => i + 1)) = .ok rest s2 →
      let k := Cmd.copied (s2.block b).nextId r (hdr ++ rest)
        (BitVec.ofNat 16 (((s2.ring b r).sq.head.toNat + n) % 2 ^ (s2.ring b r).sq.sizeLog2.toNat))
      k.paramLen ≤ 4096 → k.qseq = (s2.ring b r).sq.expectSeq.toNat →
      exec (.packetFetch b r) s = .next (((s2.updSq b r (fun x => { x with
        head := k.sqHead, expectSeq := x.expectSeq + 1 })).updBlock b (fun x => { x with
          cmds := x.cmds ++ [k], nextId := x.nextId + 1 })).settle)) ∧
    (∀ (h : HeldRec) (hs : List HeldRec), (s.ring b r).cq.held = h :: hs → (s.ring b r).cq.state = .enabled →
      (s.ring b r).cq.isFull = false →
      exec (.cqHeldRecordWrite b r) s = .next (((s.updCq b r (fun x => { x with held := hs })).writeRecord b r h).settle)) ∧
    ((s.ring b r).cq.irqEn = true → (s.ring b r).cq.delay ≠ 0 → 0 < (s.ring b r).cq.pendingIrq →
      let e := s.msixEntry b (s.ring b r).cq.vector.toNat
      exec (.cqIrqDelayExpiry b r) s = .next ((s.updCq b r (fun q => { q with pendingIrq := 0 })).sendMsix e.1 e.2))
  ) ∧
  (
  ∀ (s : State) (b r : Nat) (h : HeldRec),
    let cq := (s.ring b r).cq
    let at_ := cq.base.toNat + 32 * cq.tail.toNat
    let bytes := h.bytes.set 6 (h.bytes.getD 6 0 ||| (if cq.phase then 1#8 else 0#8))
    cq.loc = false → s.hostRefuses ((partOfBlock b).elim 0 (fun p => p + 1)) at_ h.bytes.length = false → cq.irqEn = false →
    h.cmd = none →
    s.writeRecord b r h =
      ({ s with mem := { s.mem with hostMem := Memory.write s.mem.hostMem at_ bytes } } : State).updCq b r (fun q =>
        let t := (q.tail.toNat + 1) % 2 ^ q.sizeLog2.toNat
        { q with
          tail := BitVec.ofNat 16 t
          phase := if t = 0 then !q.phase else q.phase
          pendingIrq := if h.noIrq then q.pendingIrq else q.pendingIrq + 1 })
  )

/-- R505, R507, R570, R571, R591, R608, R610, R638: the registers whose write or read acts at once.
R570, R591: what a Steward-only reset does to a running Steward. -/
def Obligations.ControlRegisterResults : Prop :=
  (
  ∀ (s : State) (v : Word) (n dt : Nat),
    exec .clrLost s = .next { s with stw := { s.stw with evtLost := 0 } } ∧
    exec .trippedClear s = .next { s with pwr := { s.pwr with tripped := false } } ∧
    (s.up = true → exec .steppedClear s = .next { s with tb := { s.tb with stepped := false } }) ∧
    (s.up = true → (v - s.stw.evtCons).toNat ≤ (BitVec.ofNat 32 s.stw.nextSeq - s.stw.evtCons).toNat →
      exec (.evtConsWrite v) s = .next { s with stw := { s.stw with evtCons := v } }) ∧
    (s.up = true → (BitVec.ofNat 32 s.stw.nextSeq - s.stw.evtCons).toNat < (v - s.stw.evtCons).toNat →
      exec (.evtConsWrite v) s = .next s) ∧
    (s.up = true →
      let t := s.tick dt
      exec (.timebaseLoRead dt) s = .next ({ t with host := { t.host with
        timeHiLatch := BitVec.ofNat 32 ((s.tb.now + dt) / 2 ^ 32), reply := leBytes 4 (s.tb.now + dt) } })) ∧
    (s.up = true → v.toNat / 2 ^ 28 % 8 < 4 → v.toNat / 2 ^ 23 % 16 < 9 → v.toNat / 2 ^ 17 % 64 < 0x22 →
      exec (.clkoutCtrlWrite 0 v) s = .next { s with clk := { s.clk with clkout0 := v &&& 0xFFFE0000#32 } } ∧
      exec (.clkoutCtrlWrite 1 v) s = .next { s with clk := { s.clk with clkout1 := v &&& 0xFFFE0000#32 } }) ∧
    (s.up = true → 4 ≤ v.toNat / 2 ^ 28 % 8 ∨ 9 ≤ v.toNat / 2 ^ 23 % 16 ∨ 0x22 ≤ v.toNat / 2 ^ 17 % 64 →
      exec (.clkoutCtrlWrite n v) s = .next s) ∧
    (s.up = true → s.stw.running = true → s.stw.resetting = false → exec .stwReset s = .next (s.stewardReset 0))
  ) ∧
  (
  ∀ (s : State) (cause : Nat), s.stw.running = true → s.stw.resetting = false →
    let t := s.stewardReset cause
    t.stw.running = false ∧ t.stw.resetting = true ∧ t.stw.lastCause = cause ∧
    t.stw.resets.toNat = min (s.stw.resets.toNat + 1) 255 ∧ t.stw.ring = s.stw.ring ∧ t.stw.nextSeq = s.stw.nextSeq ∧
    t.sec.sessions = [] ∧ t.sec.debugSession = none ∧ t.sec.fuses = s.sec.fuses ∧
    t.parts = s.parts ∧ t.cores = s.cores ∧ t.dies = s.dies ∧ t.mem = s.mem ∧ t.hub = s.hub ∧ t.pwr = s.pwr
  )

/-! ### Commands (chapter 13) -/

/-- R404, R433, R434, R436: a copied command waits for its turn; then its checks run: one the port does not permit is
counted, logged and refused, one that fails ends with its status, and one that passes waits for its context. -/
def Obligations.CommandsAreCheckedFirst : Prop :=
  ∀ (s : State) (i : Instr) (c : CmdRef) (op : Nat) (always : Bool) (k : Cmd), queueRow i = some (c, op, always) →
    s.cmd c = some k → k.opcode = op → s.serves c.block = true → k.phase = .copied →
    let waiting := s.updCmd c (fun j => { j with phase := .waiting })
    (s.mayValidate c k = false → exec i s = .next s) ∧
    (s.mayValidate c k = true →
      (∀ x, s.validate c k = .denied x → exec i s = .next ((s.deny c k x).settle)) ∧
      (∀ f, s.validate c k = .fail f → exec i s = .next ((s.endCmd c f).settle)) ∧
      (s.validate c k = .pass → waiting.ready c k always = false → exec i s = .next waiting.settle))

/-- R444: in RETURNED and TERMINATED a command with any other opcode than those five ends with ST_LC_STATE, once its port and
its header have been found right. -/
def Obligations.RetiredStatesAdmitFiveOpcodes : Prop :=
  ∀ (s : State) (i : Instr) (c : CmdRef) (op : Nat) (always : Bool) (k : Cmd), queueRow i = some (c, op, always) →
    s.cmd c = some k → k.opcode = op → s.serves c.block = true → k.phase = .copied → s.mayValidate c k = true →
    k.portOk c.block = true → k.headerFault c.block = none → 4 ≤ s.lcState →
    op ∉ [0x0701, 0x0702, 0x0703, 0x0801, 0x0803] →
    exec i s = .next ((s.endCmd c (Fin.bare stLcState)).settle)

/-- R404, R433, R443, R444, R452: the checks of a command in their order, and what a refusal by the port leaves. -/
def Obligations.CommandChecksInOrder : Prop :=
  ∀ (s : State) (c : CmdRef) (k : Cmd), s.cmd c = some k → k.phase ≠ .ended → c.block ≤ 8 →
    let v := s.validate c k
    let p := k.partOf c.block
    (k.portOk c.block = false → v = .denied 0) ∧
    (k.portOk c.block = true →
      (∀ off, k.headerFault c.block = some off → v = .fail (Fin.with stHeaderInvalid off)) ∧
      (k.headerFault c.block = none →
        (s.lcAdmits k.opcode (portOf c.block) = false → v = .fail (Fin.bare stLcState)) ∧
        (s.lcAdmits k.opcode (portOf c.block) = true → k.scope c.block = .engine → s.confRefuses k c.block = false →
          v = if k.lenReq.2 then .pass else .fail (Fin.with stParamLen (k.paramLen + k.lenReq.1 % 65536 * 65536))) ∧
        (∀ q, s.lcAdmits k.opcode (portOf c.block) = true → k.scope c.block ≠ .engine → p = some q →
          (∀ f, s.partCheck k q = some f → v = .fail f) ∧
          (s.partCheck k q = none → s.confRefuses k c.block = true → v = .denied 0x100000) ∧
          (s.partCheck k q = none → s.confRefuses k c.block = false → k.scope c.block = .context →
            s.ctx q k.ctxField = none → v = .fail (Fin.bare stCtxInvalid))) ∧
        (s.lcAdmits k.opcode (portOf c.block) = true → k.scope c.block = .engine → s.confRefuses k c.block = true →
          v = .denied 0x100000))) ∧
    (∀ x,
      let d := k.opcode + portOf c.block * 0x10000 + x
      s.deny c k x = ((s.updBlock c.block (fun q => { q with denied := BitVec.ofNat 16 (min (q.denied.toNat + 1) 0xFFFF) })).record
        { EventRec.plain 0x0103 with part := p.getD 0xF, detail := d, tag := k.tag }).endCmd c (Fin.with stPortDenied d))

/-- R334, R428, R430, R440, R649: how a command ends. Its record carries the fields of R428 at their places; ST_OK becomes
ST_OK_RECOVERED after a recovery; on MGMT and DEBUG the record is the response, followed by the inline output. Where one of the
command's accesses to DRAM was lost, only the loss stands, and the command ends with ST_DATA_LOSS.
R285, R399, R409, R437, R438: time-out and abort. 0xFFFF_FFFF is no limit, and a default of 0 acts as 1 µs. The targets of OP_CMD_ABORT are the earlier commands of the tag, on the
named ring or with OPF0 on every ring, other than aborts; those without a record end with ST_ABORTED.
R440: an output goes to the named address on a ring, and into the response on MGMT and DEBUG, where ADDR is 0 and the
output has at most 4,096 bytes; else the command ends with ST_PARAM_LEN (R452). -/
def Obligations.CommandEndResults : Prop :=
  (
  (∀ (tag status ring detail c0 c1 us head qseq : Nat),
    let r := recordBytes tag status ring detail c0 c1 us head qseq
    r.length = 32 ∧ field r 0 4 = tag % 2 ^ 32 ∧ field r 4 2 = status % 2 ^ 16 ∧
    (status < 2 ^ 16 → field r 4 4 = status + ring % 4 * 2 ^ 17) ∧ field r 8 8 = detail % 2 ^ 64 ∧
    field r 16 4 = min c0 0xFFFFFFFF ∧ field r 20 4 = min c1 0xFFFFFFFF ∧ field r 24 4 = min us 0xFFFFFFFF ∧
    field r 28 2 = head % 2 ^ 16 ∧ field r 30 2 = qseq % 2 ^ 16) ∧
  (∀ (s : State) (c : CmdRef) (k : Cmd) (f : Fin), s.cmd c = some k → k.phase ≠ .ended →
    let rec_ (status detail : Nat) : List Byte := recordBytes k.tag status (if c.block ≤ 8 then k.ring else 0) detail f.c0 f.c1
      (s.elapsed k) k.sqHead.toNat (k.qseq % 65536)
    let ended := s.updCmd c (fun j => { j with phase := .ended, exec := none })
    (c.block ≤ 8 → f.status ≠ 0 → s.endCmd c f =
      ended.deliver c.block k.ring { cmd := some c.id, bytes := rec_ f.status f.detail, noIrq := bitOf k.flags 1 }) ∧
    (c.block ≤ 8 → f.status = 0 → k.recov.count = 0 → k.flashUnwritten = false → s.endCmd c f =
      ended.deliver c.block k.ring { cmd := some c.id, bytes := rec_ 0 f.detail, noIrq := bitOf k.flags 1 }) ∧
    (c.block ≤ 8 → f.status = 0 → 0 < k.recov.count → k.flashUnwritten = false → s.endCmd c f =
      ended.deliver c.block k.ring { cmd := some c.id, bytes := rec_ 2 (f.detail + k.recov.detail), noIrq := bitOf k.flags 1 }) ∧
    (9 ≤ c.block → f.status ≠ 0 → s.endCmd c f = (ended.dropCmd c).answer (rec_ f.status f.detail ++ f.out))) ∧
  (∀ (s t : State) (c : CmdRef), (t.mem.fwLoss = none → s.unlessLost c t = t) ∧
    (∀ a whole, t.mem.fwLoss = some (a, whole) → s.unlessLost c t = ((s.suffer (a, whole)).failCmd c stDataLoss a).settle))
  ) ∧
  (
  ∀ (s : State) (c : CmdRef) (k : Cmd),
    (k.timeout = 0xFFFFFFFF → s.limitOf c k = none) ∧
    (k.timeout ≠ 0 → k.timeout ≠ 0xFFFFFFFF → s.limitOf c k = some k.timeout) ∧
    (k.timeout = 0 → 9 ≤ c.block → s.limitOf c k = some 1000000) ∧
    (k.timeout = 0 → c.block < 9 → (s.block c.block).defTimeout = 0 → s.limitOf c k = some 1) ∧
    (k.timeout = 0 → c.block < 9 → (s.block c.block).defTimeout = 0xFFFFFFFF#32 → s.limitOf c k = none) ∧
    (s.cmd c = some k → s.limitOf c k = none → exec (.commandTimeout c) s = .next s) ∧
    (s.cmd c = some k → k.phase = .started → s.limitOf c k ≠ none → k.scope c.block ≠ .context →
      exec (.commandTimeout c) s =
        .next ((s.endAtBoundary c (if s.waitsPeer c k (k.home c) then stPeerLost else stTimeout) 0).settle)) ∧
    (∀ x, s.cmd c = some k → k.phase = .started → s.limitOf c k ≠ none → s.part (k.home c) = some x →
      x.current = some k.ctxField → exec (.commandTimeout c) s =
        .next ((s.endAtBoundary c (if s.waitsPeer c k (k.home c) then stPeerLost else stTimeout) 0).settle)) ∧
    (AtPoint s c k 0x0109 → k.p 4 4 < 4 → (k.opf0 = true → k.p 4 4 = 0) →
      let ts := (s.block c.block).cmds.filter (fun j => decide (j.id < k.id) && j.tag == k.p 0 4 && j.opcode != 0x0109 &&
        (k.opf0 || j.ring == k.p 4 4 % 4))
      let open_ := ts.filter (fun j => j.phase != CmdPhase.ended)
      exec (.opCmdAbort c) s = .next (s.unlessLost c (((open_.foldl (fun t j => t.endAtBoundary { block := c.block, id := j.id } stAborted 0)
        (s.startCmd c)).updCmd c (fun j => { j with abortTargets := ts.map (fun t => t.id), abortCount := open_.length })).settle))) ∧
    (AtPoint s c k 0x0109 → 4 ≤ k.p 4 4 ∨ (k.opf0 = true ∧ k.p 4 4 ≠ 0) →
      exec (.opCmdAbort c) s = .next (s.unlessLost c ((s.endCmd c k.badBlock).settle))) ∧
    (∀ q, AtPoint s c k 0x0306 → s.seq (k.home c) k.ctxField (k.p 0 4) = some q → q.status ≠ .busy →
      exec (.seqBusyResume c) s = .next (s.unlessLost c (((s.releaseSeq (k.home c) k.ctxField q.handle).endCmd c Fin.ok).settle)))
  ) ∧
  (
  ∀ (s : State) (c : CmdRef) (w : Who) (a : Nat) (bs : List Byte) (f : Fin) (k : Cmd), s.cmd c = some k →
    (∀ t, c.block ≤ 8 → s.writeEng w a bs = .ok () t → s.output c w a bs f = (t, some f)) ∧
    (∀ st d t, c.block ≤ 8 → s.writeEng w a bs = .bad st d t → s.output c w a bs f = (t, some (Fin.with st d))) ∧
    (9 ≤ c.block → a = 0 → bs.length ≤ 4096 → s.output c w a bs f = (s, some { f with out := bs })) ∧
    (9 ≤ c.block → a ≠ 0 ∨ 4096 < bs.length → s.output c w a bs f =
      (s, some (Fin.with stParamLen (k.paramLen + k.lenReq.1 % 65536 * 65536))))
  )

/-! ### Partitions and contexts (chapter 14) -/

/-- R453 to R457, R470, R472, R475: creating, disabling, enabling and destroying a partition.
R457: the commands that a partition serves in each of its states. -/
def Obligations.PartitionCommandResults : Prop :=
  (
  ∀ (s : State) (c : CmdRef) (k : Cmd) (x : Partition),
    let p := k.p 0 1
    let mask := k.p 1 1
    let pairs := bitsSet mask 8
    (∀ n crossed, AtPoint s c k 0x0101 → s.equinox = false → partBlockOk k = true → pairSetOk mask = true → s.part p = none →
      s.pairsTaken mask = 0 → s.placeConductor p = some (n, crossed) → (k.quotaAt 0x20).malformed true = false →
      quotaLimit (k.quotaAt 0x20) pairs.length = true → ((s.orphans pairs).map Store.units).sum ≤ (k.quotaAt 0x20).flash →
      let s1 := (s.setPart p (some (Partition.new k n crossed))).updCores ((pairDies mask).flatMap dieKeys)
        (fun d => Cu.zeroingDone (Cu.zeroAll d))
      let s2 := (pairDies mask).foldl (fun t d => t.updDie d (fun y => { y with parked := false })) s1
      exec (.opPartCreate c) s = .next (s.unlessLost c ((({ s2 with flash := { s2.flash with stores := s2.flash.stores.map (fun (t : Store) =>
        if t.part = none ∧ t.pairs = pairs then { t with part := some p } else t) } }).endCmd c Fin.ok).settle))) ∧
    (AtPoint s c k 0x0101 → s.equinox = false → partBlockOk k = true → pairSetOk mask = true → s.part p = some x →
      exec (.opPartCreate c) s = .next (s.unlessLost c ((s.endCmd c (Fin.with stPartConflict 1)).settle))) ∧
    (AtPoint s c k 0x0102 → s.part (k.home c) = some x → x.destroyedBy = none → x.state = .active →
      exec (.opPartDestroy c) s = .next (s.unlessLost c ((((s.startCmd c).updPart (k.home c) (fun y => { y with destroyedBy := some c.id })).beginDrain
        (k.home c)).settle))) ∧
    (AtPoint s c k 0x0103 → s.part (k.home c) = some x → k.p 0 4 = 0 → x.state = .active →
      exec (.opPartDisable c) s = .next (s.unlessLost c ((((s.startCmd c).beginDrain (k.home c)).updPart (k.home c) (fun y => { y with
        drainedBy := some c.id })).settle))) ∧
    (AtPoint s c k 0x0103 → s.part (k.home c) = some x → k.p 0 4 = 1 → x.state = .disabled → x.destroyedBy = none →
      exec (.opPartDisable c) s = .next (s.unlessLost c (((s.updPart (k.home c) (fun y => { y with state := .active })).endCmd c Fin.ok).settle))) ∧
    (AtPoint s c k 0x0103 → s.part (k.home c) = some x → k.p 0 4 = 1 → x.state = .active →
      exec (.opPartDisable c) s = .next (s.unlessLost c ((s.endCmd c (Fin.with stPartConflict 4)).settle)))
  ) ∧
  (
  ∀ (s : State) (k : Cmd) (p : Nat) (x : Partition), s.part p = some x → k.accepted = false →
    let refused := some (Fin.with stAbortedByDisable k.granules)
    (x.state = .active → s.partCheck k p = none) ∧
    (x.state = .draining → s.partCheck k p = if k.opcode = 0x0102 then none else refused) ∧
    (x.state = .disabled → s.partCheck k p =
      if k.opcode = 0x0102 ∨ k.opcode = 0x0104 ∨ (k.opcode = 0x0103 ∧ k.p 0 1 % 2 = 1) then none else refused) ∧
    (x.state = .destroying → s.partCheck k p = refused)
  )

/-- R440, R458, R366 to R368: the records of OP_PART_STAT and OP_QUOTA_STAT, and OP_QUOTA_SET, which stores a record that is
well formed and covers the charges, or ends with ST_QUOTA.
R459, R464, R474: contexts. A created context takes the next free handle and a save area of 4,356 KiB a core; a destroyed
one drains.
R461 to R466: a switch is decided when the quantum ends while another context is ready; at its switch point the outgoing
context is saved; the cores are cleared, and the outgoing context is IDLE or READY by its commands (R460); the incoming context
is restored and becomes current, and the switch is counted where it left a context (DEDUCED, notes/assumptions/36.md).
R420, R470, R471, R474, R491, R514: the limit of a drain ends what is still under way. -/
def Obligations.ContextCommandResults : Prop :=
  (
  ∀ (s t : State) (c : CmdRef) (k : Cmd) (f : Fin) (x : Partition),
    let p := k.home c
    let q := k.quotaAt 0
    let shown := if k.ctxField = 0xFFFF then s.partCharges p else s.ctxCharges p k.ctxField
    (AtPoint s c k 0x0104 → s.part p = some x → k.p 6 2 = 0 → s.output c (k.who c.block) (k.p 0 6) x.statRecord Fin.ok = (t, some f) →
      exec (.opPartStat c) s = .next (s.unlessLost c ((t.endCmd c f).settle))) ∧
    (AtPoint s c k 0x0108 → k.p 6 2 = 0 → s.output c (k.who c.block) (k.p 0 6) shown.bytes Fin.ok = (t, some f) →
      exec (.opQuotaStat c) s = .next (s.unlessLost c ((t.endCmd c f).settle))) ∧
    (AtPoint s c k 0x0107 → s.part p = some x → k.ctxField = 0xFFFF → x.tdiLocks = false →
      (q.malformed true = true → exec (.opQuotaSet c) s = .next (s.unlessLost c ((s.endCmd c (Fin.with stQuota 4)).settle))) ∧
      (q.malformed true = false → quotaLimit q (bitsSet x.pairMask.toNat 8).length = true → q.covers (s.partCharges p) = true →
        exec (.opQuotaSet c) s = .next (s.unlessLost c (((s.updPart p (fun y => { y with quota := q })).endCmd c Fin.ok).settle))) ∧
      (q.malformed true = false → q.covers (s.partCharges p) = false →
        exec (.opQuotaSet c) s = .next (s.unlessLost c ((s.endCmd c (Fin.with stQuota 0)).settle)))) ∧
    (AtPoint s c k 0x0107 → s.part p = some x → k.ctxField ≠ 0xFFFF → q.malformed false = false →
      let u := s.updCtx p k.ctxField (fun y => { y with quota := q })
      exec (.opQuotaSet c) s = .next (s.unlessLost c
        (if q.coversCtx (s.ctxCharges p k.ctxField) = true ∧ x.quota.covers (u.partCharges p) = true
        then u.endCmd c Fin.ok else s.endCmd c (Fin.with stQuota 0)).settle))
  ) ∧
  (
  ∀ (s : State) (c : CmdRef) (k : Cmd) (x : Partition) (f : FwRegion) (t : State),
    let p := k.home c
    let q := k.quotaAt 0x10
    let now := s.partCharges p
    let h := x.newHandle
    let area := 4356 * 1024 * x.positions.length
    (AtPoint s c k 0x0105 → s.part p = some x → k.p 0 4 = 0 ∨ (100 ≤ k.p 0 4 ∧ k.p 0 4 ≤ 10000000) →
      (k.pBytes 4 12).all (fun b => b == 0) = true → x.ctxList.length < x.maxCtx → q.malformed false = false →
      now.dram + q.dram + area ≤ x.quota.dram → now.flash + q.flash ≤ x.quota.flash → now.swap + q.swap ≤ x.quota.swap →
      s.placeFw p .save h area 0x10000 = some (f, t) →
      exec (.opCtxCreate c) s = .next (s.unlessLost c (((t.updPart p (fun y => { y.setCtx h (some (Context.new
        (if k.p 0 4 = 0 then y.quantumUs else k.p 0 4) q f.base)) with lastHandle := some h })).endCmd c { Fin.ok with c0 := h }).settle))) ∧
    (AtPoint s c k 0x0105 → s.part p = some x → k.p 0 4 = 0 → (k.pBytes 4 12).all (fun b => b == 0) = true →
      x.maxCtx ≤ x.ctxList.length → exec (.opCtxCreate c) s = .next (s.unlessLost c ((s.endCmd c (Fin.with stQuota 0)).settle))) ∧
    (AtPoint s c k 0x0106 → (∀ n, (s.stream n).part ≠ some p) → exec (.opCtxDestroy c) s =
      .next (s.unlessLost c ((((s.startCmd c).acceptAll (s.ctxCmds p k.ctxField)).updCtx p k.ctxField (fun y => { y with
        state := .destroying, destroyedBy := some (c.block, c.id) })).settle)))
  ) ∧
  (
  ∀ (s : State) (p o i us : Nat) (x : Partition) (k z : Context),
    s.part p = some x →
    (x.current = some o → x.switch = none → x.served = true → s.nextReady p x = some i →
      exec (.quantumExpiry p) s = .next ((s.updPart p (fun y => { y with
        switch := some { outgoing := some o, incoming := i, phase := .decided } })).settle)) ∧
    (x.current = some o → x.switch = none → s.nextReady p x = none → exec (.quantumExpiry p) s = .next s.settle) ∧
    (x.switch = some { outgoing := some o, incoming := i, phase := .decided } → x.ctx o = some k → x.ctx i = some z → o ≠ i →
      k.destroyedBy = none → z.destroyedBy = none → s.atSwitchPoint p x = true →
      exec (.switchPoint p) s = .next ((s.saveCtx x k).setPart p (some
        { (x.setCtx o (some { k with state := .switching, savedValid := true })).setCtx i (some { z with state := .switching }) with
          current := none
          awaitFirst := true
          switch := some { outgoing := some o, incoming := i, phase := .saving } }))) ∧
    (x.switch = some { outgoing := some o, incoming := i, phase := .saving } → x.ctx o = some k → k.state = .switching →
      exec (.switchSaveDone p) s = .next ((((s.clearCores x).setPart p (some { x.setCtx o (some { k with state := .idle }) with
        switch := some { outgoing := some o, incoming := i, phase := .restoring } })).refreshCtx p).settle)) ∧
    (x.switch = some { outgoing := none, incoming := i, phase := .restoring } → x.ctx i = some z → z.savedValid = false →
      exec (.switchRestoreDone p us) s = .next (((s.enterCtx p i).updPart p (fun y => y)).settle)) ∧
    (x.switch = some { outgoing := some o, incoming := i, phase := .restoring } → x.ctx i = some z → z.savedValid = false →
      let t := BitVec.ofNat 32 (min us 0xFFFFFFFF)
      exec (.switchRestoreDone p us) s = .next (((s.enterCtx p i).updPart p (fun y => { y with
        switches := satInc32 y.switches
        lastSwitchUs := t
        switchMaxUs := if y.switchMaxUs.toNat < t.toNat then t else y.switchMaxUs })).settle))
  ) ∧
  (
  ∀ (s : State) (p c b r n : Nat),
    let ends (t : State) (cs : List CmdRef) : State := cs.foldl (fun u d => u.endAtBoundary d stAbortedByDisable 0) t
    (∀ x, s.part p = some x → x.state = .draining →
      exec (.drainLimitExpiry (.partition p)) s = .next ((ends s (s.partCmds p)).settle)) ∧
    (∀ k, s.ctx p c = some k → k.destroyedBy ≠ none →
      exec (.drainLimitExpiry (.context p c)) s = .next ((ends s (s.ctxCmds p c)).settle)) ∧
    ((s.ring b r).sq.state = .draining →
      exec (.drainLimitExpiry (.ring b r)) s = .next (((ends s (s.cmdsOf b (fun k => k.ring == r))).sqDrained b r).settle)) ∧
    ((s.stream n).state = .draining → exec (.drainLimitExpiry (.stream n)) s =
      .next (((s.abortFrames n).streamDrained n (!(s.stream n).frames.isEmpty)).settle)) ∧
    (∀ k, s.ctx p c = some k → k.dcacheBy ≠ none → exec (.drainLimitExpiry (.decodeArea p c)) s =
      .next ((ends s (s.cmdsOf (1 + p) (fun j => j.ctxField == c && decide (0 < j.staged)))).settle))
  )

/-! ### Input decode and capture (chapters 15 and 16) -/

/-- R514, R515, R518, R533: OP_DCACHE_CONFIG and OP_JPEG_DECODE. Checks end the command at the first that fails; a sample found
in the cache, or one decoded, is written and counted; an entry whose bytes are lost ends the command (R532).
R527 to R531: latent streams. One record is decoded, skipped, or ends the command; OP_LSF_WRITE writes the container. -/
def Obligations.InputDecodeResults : Prop :=
  (
  ∀ (s : State) (c : CmdRef) (k : Cmd) (y : Context) (p h : Nat),
    (AtPoint s c k 0x0501 → s.ctx (k.home c) k.ctxField = some y → y.dcacheBy = none →
      exec (.opJpegDecode c) s = .next (s.unlessLost c ((s.jpegDecode c k (k.home c) k.ctxField).settle))) ∧
    (AtPoint s c k 0x0501 → s.ctx (k.home c) k.ctxField = some y → y.dcacheBy.isSome = true → exec (.opJpegDecode c) s = .next (s.unlessLost c s.settle)) ∧
    (AtPoint s c k 0x0502 → s.ctx (k.home c) k.ctxField = some y → y.dcacheBy = none →
      (∀ off, dcacheBad k = some off → exec (.opDcacheConfig c) s = .next (s.unlessLost c ((s.endCmd c (badDecode 0 off)).settle))) ∧
      (dcacheBad k = none → (bitOf (k.p 0xC 4) 0 = true ∨ s.dcacheFits (k.home c) k.ctxField
          (if k.p 8 4 = 0 then 0 else k.p 8 4 + k.p 0 6) = true) →
        exec (.opDcacheConfig c) s = .next (s.unlessLost c (((s.startCmd c).updCtx (k.home c) k.ctxField (fun z => { z with dcacheBy := some c.id })).settle))) ∧
      (dcacheBad k = none → bitOf (k.p 0xC 4) 0 = false → s.dcacheFits (k.home c) k.ctxField
          (if k.p 8 4 = 0 then 0 else k.p 8 4 + k.p 0 6) = false →
        exec (.opDcacheConfig c) s = .next (s.unlessLost c ((s.endCmd c (Fin.with stQuota 0)).settle)))) ∧
    (∀ no off, jpegBad k = some (no, off) →
      s.jpegDecode c k p h = s.endCmd c (Fin.with stDecodeUnsupported (decodeDetail no 1 off))) ∧
    (jpegBad k = none → k.p 0 2 = 0 → s.jpegDecode c k p h = s.endCmd c (Fin.bare stOkEmpty)) ∧
    (jpegBad k = none → k.p 0 2 ≠ 0 → (s.ctx p h).bind Context.decode = none → s.jpegDecode c k p h = s.endCmd c (Fin.with stQuota 3)) ∧
    (∀ (a : DecodeArea) (x : Sample), jpegBad k = none → (s.ctx p h).bind Context.decode = some a → k.samples = [x] →
      let from_ := if k.jpegCache then a.find (k.p 8 8) x.index k.jpegColor else none
      let size (im : Jpeg.Image) : Nat :=
        jpegSize (if k.jpegAug then k.p 4 2 else im.width) (if k.jpegAug then k.p 6 2 else im.height) im.planes.length
      (∀ e t, from_ = some e → e.len = x.len → s.stage c p h 0 = .fits →
        let im : Jpeg.Image := { width := e.width, height := e.height, precision := e.precision, planes := e.planes }
        size im ≤ 256 * x.units →
        let t0 := (s.startCmd c).updCmd c (fun j => { j with staged := 0 })
        (∀ d u, t0.readEntry p h e = (some d, u) → s.jpegDecode c k p h = u.endCmd c (Fin.with stDataLoss d)) ∧
        (∀ u, t0.readEntry p h e = (none, u) → u.writePieces (k.who c.block) (jpegPieces k x im true false) = .ok () t →
          s.jpegDecode c k p h = ((t.granuleDone c).updDecode p h (fun b => b.touch e)).endCmd c { Fin.ok with c0 := 1, c1 := 1 })) ∧
      (∀ bs t, from_ = none → s.stage c p h x.len = .fits → s.readEng (k.who c.block) x.src x.len = .ok bs t →
        (∀ e, Jpeg.walk bs.toArray = .error e →
          s.jpegDecode c k p h = t.endCmd c (Fin.with e.status (decodeDetail x.no e.sub e.at_))) ∧
        (∀ w f e, Jpeg.walk bs.toArray = .ok w → w.frame = some f → Jpeg.tooLittle f w = some e →
          s.jpegDecode c k p h = t.endCmd c (Fin.with e.status (decodeDetail x.no e.sub e.at_))) ∧
        (∀ w f, Jpeg.walk bs.toArray = .ok w → w.frame = some f → Jpeg.tooLittle f w = none →
          let need := x.len + Jpeg.coeffBytes f
          jpegSize (if k.jpegAug then k.p 4 2 else f.width) (if k.jpegAug then k.p 6 2 else f.height) f.comps.length ≤ 256 * x.units →
          t.stage c p h need = .fits →
          let t1 := (t.startCmd c).updCmd c (fun j => { j with staged := need })
          (∀ e, Jpeg.decode w k.jpegColor = .error e →
            s.jpegDecode c k p h = t1.endCmd c (Fin.with e.status (decodeDetail x.no e.sub e.at_))) ∧
          (∀ im t2, Jpeg.decode w k.jpegColor = .ok im →
            t1.writePieces (k.who c.block) (jpegPieces k x im false false) = .ok () t2 →
            (k.jpegCache = false → s.jpegDecode c k p h = (t2.granuleDone c).endCmd c { Fin.ok with c0 := 1 }) ∧
            (k.jpegCache = true → s.jpegDecode c k p h = ((t2.granuleDone c).insertEntry p h {
              dataset := k.p 8 8, index := x.index, color := k.jpegColor, len := x.len, width := im.width, height := im.height,
              precision := im.precision, planes := im.planes, room := [] }).endCmd c { Fin.ok with c0 := 1 }))))) ∧
    (∀ (e : DcEntry) (a : DecodeArea), e.bytes ≤ a.cacheBytes →
      (a.entries.filter (fun z => !(z.dataset == e.dataset && z.index == e.index && z.color == e.color))) = [] →
      a.insert e = { a with entries := [{ e with room := if e.bytes = 0 then [] else [(0, e.bytes)] }] })
  ) ∧
  (
  ∀ (s : State) (c : CmdRef) (k : Cmd) (p h : Nat) (y : Context),
    (AtPoint s c k 0x0503 → s.ctx (k.home c) k.ctxField = some y → y.dcacheBy = none →
      exec (.opLsfRead c) s = .next (s.unlessLost c ((s.lsfRead c k (k.home c) k.ctxField).settle))) ∧
    (AtPoint s c k 0x0504 → s.ctx (k.home c) k.ctxField = some y → y.dcacheBy = none →
      exec (.opLsfWrite c) s = .next (s.unlessLost c ((s.lsfWrite c k (k.home c) k.ctxField).settle))) ∧
    (s.lsfBehind c k = false → lsfReadBad k = none → k.p 4 4 = 0 → s.lsfRead c k p h = s.endCmd c (Fin.bare stOkEmpty)) ∧
    (∀ off, s.lsfBehind c k = false → lsfReadBad k = some off → s.lsfRead c k p h = s.endCmd c (badDecode 0 off)) ∧
    (∀ (x : LsfSlot) (r : LsfRec),
      (r.delta = false → x.handle r = (0, unpackTokens x.n x.tokBits r.payload)) ∧
      (r.delta = true → x.skipping = true → x.handle r = (2, [])) ∧
      (r.delta = true → x.skipping = false → x.store.find? (fun f => f.1 == r.ref) = none → x.handle r = (1, [])) ∧
      ((crc32 r.payload).toNat ≠ r.crc → x.recordFault r = some 0x21) ∧
      (∀ i, (crc32 r.payload).toNat = r.crc → x.lastIndex = some i → r.index ≤ i → x.recordFault r = some 0x23)) ∧
    (∀ (w : Who) (slot dst n skipped : Nat) (bad : Option Nat) (r : LsfRec) (rs : List LsfRec) (ref : Option (Nat × Nat)) (x : LsfSlot) (t : State),
      (s.ctx p h).bind (fun z => z.lsfSlot slot) = some x →
      (∀ reason, x.recordFault r = some reason → s.lsfRecords c w p h slot dst bad (r :: rs) n skipped ref =
        s.endCmd c { status := stDecodeCorrupt, detail := decodeDetail n reason r.off, c0 := n, c1 := skipped, out := [] }) ∧
      (x.recordFault r = none → (x.handle r).1 = 0 →
        s.writePieces w (x.pieces r dst n 0 (x.handle r).2) = .ok () t →
        s.lsfRecords c w p h slot dst bad (r :: rs) n skipped ref =
          ((t.setLsf p h slot (some (x.after r 0 (x.handle r).2))).granuleDone c).lsfRecords c w p h slot dst bad rs (n + 1) skipped ref)) ∧
    (∀ (w : Who) (slot dst n skipped : Nat) (rf ix : Nat),
      s.lsfRecords c w p h slot dst none [] n 0 none = s.endCmd c { status := stOk, detail := 0, c0 := n, c1 := 0, out := [] } ∧
      (0 < skipped → s.lsfRecords c w p h slot dst none [] n skipped (some (rf, ix)) =
        s.endCmd c { status := stRefMissing, detail := rf + ix * 2 ^ 32, c0 := n, c1 := skipped, out := [] })) ∧
    (∀ off, lsfWriteBad k = some off → s.lsfWrite c k p h = s.endCmd c (badDecode 0 off)) ∧
    (lsfWriteBad k = none → k.p 8 4 = 0 → s.lsfWrite c k p h = s.endCmd c (Fin.bare stOkEmpty)) ∧
    (∀ bs t u, lsfWriteBad k = none → k.p 8 4 = 1 →
      let n := k.p 4 2 * k.p 6 2
      s.stage c p h (4 * n) = .fits → s.readEng (k.who c.block) (k.p 0x10 6) (4 * n) = .ok bs t →
      64 + (32 + (n + 7) / 8 + packedLen n (k.p 0 1)) ≤ k.p 0x20 4 →
      let grid := (List.range n).map (fun i => field bs (4 * i) 4)
      (∀ i, i < n → field bs (4 * i) 4 < 2 ^ k.p 0 1 ∧ (k.p 0xC 4 = 0 ∨ field bs (4 * i) 4 < k.p 0xC 4)) →
      t.writePieces (k.who c.block) [(k.p 0x18 6, lsfContainer k [grid])] = .ok () u →
      s.lsfWrite c k p h = (((u.startCmd c).updCmd c (fun j => { j with staged := 4 * n })).granuleDone c).endCmd c
        { Fin.ok with c0 := 1, c1 := (lsfContainer k [grid]).length })
  )

/-- R526, R528 to R531: the container that OP_LSF_WRITE forms has a valid header and one valid record per grid, and reading it
into a cleared slot decodes every record, to the grids it was written from. -/
def Obligations.LatentStreamsRoundTrip : Prop :=
  ∀ (k : Cmd) (grids : List (List Nat)), lsfWriteBad k = none → grids.length = k.p 8 4 →
    (∀ g ∈ grids, g.length = k.p 4 2 * k.p 6 2) → lsfBadToken k (k.p 4 2 * k.p 6 2) grids = none →
    let bs := lsfContainer k grids
    ∃ x rs, lsfHeader bs = some x ∧ lsfWalk x bs (bs.length + 1) 64 = (rs, none) ∧ rs.length = grids.length ∧
      x.decodeAll rs = some grids

/-- R482, R485, R491, R511: the capture commands. -/
def Obligations.CaptureCommandResults : Prop :=
  ∀ (s : State) (c : CmdRef) (k : Cmd),
    (AtPoint s c k 0x0601 → exec (.opCapAssign c) s = .next (s.unlessLost c ((s.capAssign c k (k.home c)).settle))) ∧
    (AtPoint s c k 0x0602 → exec (.opCapConfig c) s = .next (s.unlessLost c ((s.capConfig c k (k.home c) k.ctxField).settle))) ∧
    (AtPoint s c k 0x0603 → exec (.opCapStart c) s = .next (s.unlessLost c ((s.capStart c k (k.home c) k.ctxField).settle))) ∧
    (AtPoint s c k 0x0604 → exec (.opCapStop c) s = .next (s.unlessLost c ((s.capStop c k (k.home c)).settle))) ∧
    (AtPoint s c k 0x0605 → exec (.opHarvest c) s = .next (s.unlessLost c ((s.harvest c k (k.home c) k.ctxField).settle))) ∧
    (∀ p h,
      (∀ off, capAssignBad k = some off → s.capAssign c k p = s.endCmd c (Fin.with stCapParam off)) ∧
      (capAssignBad k = none →
        let port := k.p 0 1 % 2
        let set (t : State) : State := t.updCapPort port (fun x => { x with
          lanes := k.p 1 1, laneMap := k.p 4 1, pol := k.p 5 1, maxRate := k.p 8 4 })
        (s.capHalf port = false → s.capAssign c k p = s.endCmd c (Fin.with stCapState 1)) ∧
        (∀ v, s.capHalf port = true → k.p 2 2 = 2 ^ v → v < 16 → bitOf (k.p 0 1) 1 = false →
          let n := 16 * port + v
          (∀ q, (s.stream n).part = some q → q ≠ p → s.capAssign c k p = s.endCmd c (Fin.with stCapState 2)) ∧
          ((s.stream n).part = none ∨ (s.stream n).part = some p →
            (List.range 16).all (fun u => !(s.stream (16 * port + u)).live) = true → (s.stream n).state = .unassigned →
            s.capAssign c k p = (set (s.updStream n (fun _ => { Stream.reset with state := .assigned, part := some p }))).endCmd c Fin.ok) ∧
          ((s.stream n).part = none ∨ (s.stream n).part = some p → (s.capPort port).same k = false →
            (List.range 16).all (fun u => !(s.stream (16 * port + u)).live) = false →
            s.capAssign c k p = s.endCmd c (Fin.with stCapState 3))) ∧
        (∀ v, s.capHalf port = true → k.p 2 2 = 2 ^ v → v < 16 → bitOf (k.p 0 1) 1 = true →
          let n := 16 * port + v
          (s.stream n).part = some p → (s.stream n).state = .assigned → (List.range 16).all (fun u => !(s.stream (16 * port + u)).live) = true →
          s.capAssign c k p = (set (s.updStream n (fun _ => Stream.reset))).endCmd c Fin.ok)) ∧
      (∀ off, capConfigBad k = some off → s.capConfig c k p h = s.endCmd c (Fin.with stCapParam off)) ∧
      (∀ ps t u, capConfigBad k = none → bitOf (k.p 0 1) 5 = false →
        let n := k.p 0 1 % 32
        let w := k.who c.block
        let cfg := k.capCfg
        (s.stream n).part = some p → (s.stream n).state = .assigned → s.capUncovered w (k.p 0x10 6) 0x9000 = none →
        (∀ b, b < cfg.nbuf → s.capUncovered w (cfg.outBase + b * cfg.bufStride) cfg.bufBytes = none) →
        s.readEng w (k.p 0x10 6) 0x9000 = .ok ps t →
        (∀ o, Pipe.setBad ps = some o → s.capConfig c k p h = t.endCmd c (Fin.with stCapParam (o + 2 ^ 16))) ∧
        (Pipe.setBad ps = none → t.capAreas p h n cfg = some u → s.capConfig c k p h = (u.updStream n (fun y => { y with
          state := .configured, cfg := cfg, params := ps, paramsNext := none, gen := 0, refValid := false, ref := [], ring := [],
          lostSince := 0, frames := [] })).endCmd c Fin.ok)) ∧
      (∀ t, k.p 0 4 < 32 → let n := k.p 0 4
        let x := s.stream n
        x.part = some p → x.ctx = some h → x.state = .configured →
        s.capWrites x.who ((List.range x.cfg.nbuf).map (fun b => statePiece x.cfg b 0)) = (t, none) →
        s.capStart c k p h = (t.updStream n (fun y => { y with
          state := .running, nextBuf := 0, frameNum := 0, refValid := false, counts := CapCounts.zero, frames := [], signalLost := false,
          stopBy := none })).endCmd c Fin.ok) ∧
      (k.p 0 4 < 32 → let n := k.p 0 4
        let x := s.stream n
        (x.state ≠ .configured → s.capStart c k p h = s.endCmd c (Fin.bare stCapState)) ∧
        (x.part ≠ some p → s.capStop c k p = s.endCmd c (Fin.bare stCapState)) ∧
        (x.part = some p → x.state = .faulted → s.capStop c k p = (s.updStream n (fun y => { y with state := .configured })).endCmd c Fin.ok) ∧
        (x.part = some p → x.state = .running → s.capStop c k p =
          (s.startCmd c).updStream n (fun y => y.drain (some (c.block, c.id)))) ∧
        (x.part = some p → x.state = .assigned → s.capStop c k p = s.endCmd c (Fin.bare stCapState))) ∧
      (∀ t, harvestBad k = none → let n := k.p 0 1
        let x := s.stream n
        let rs := x.ring.take (k.p 1 1)
        let a := k.p 8 6
        x.part = some p → x.ctx = some h →
        s.writeList (k.who c.block) ((a, x.status) :: (rs.zipIdx).map (fun e => (a + 0x100 + e.2 * 8448, e.1))) = .ok () t →
        s.harvest c k p h = (t.updStream n (fun y => { y with ring := y.ring.drop rs.length, lostSince := 0 })).endCmd c
          { Fin.ok with c0 := rs.length, c1 := x.lostSince }))

/-- R480, R489, R497 to R499, R503, R508: packets, frames and the time base. -/
def Obligations.CaptureEventResults : Prop :=
  (∀ (s : State) (port vc fn ty dt : Nat) (codes : List Nat) (bad corr backlog : Bool), port < 2 → vc < 16 →
    let n := 16 * port + vc
    let x := s.stream n
    s.capHalf port = true →
    (x.live = false →
      let t := s.updCapPort port (fun q => { q with discards := q.discards + 1, corrections := q.corrections + if corr then 1 else 0 })
      exec (.csiLongPacket port vc ty codes bad corr backlog) s = .next t ∧ exec (.csiOtherPacket port vc corr) s = .next t ∧
      exec (.csiFrameEnd port vc corr) s = .next t) ∧
    (x.live = true → corr = false → ty = 0x2B ∨ ty = 0x2C ∨ ty = 0x2D →
      exec (.csiLongPacket port vc ty codes bad corr backlog) s = .next (s.setStream n (x.updOpen (fun f => { f with
        lines := f.lines ++ [codes.map (fun v => v % 2 ^ capBits ty)]
        badLine := f.badLine || bad
        overrun := f.overrun || backlog
        formatErr := f.formatErr || ty != x.cfg.dt || codes.length != x.cfg.width || decide (x.cfg.height ≤ f.lines.length) })))) ∧
    (x.live = true → corr = false → exec (.csiFrameEnd port vc corr) s = .next (s.updStream n (fun y => y.updOpen (fun f => { f with
      ended := true, formatErr := f.formatErr || decide (f.lines.length < y.cfg.height) })))) ∧
    (x.live = true → corr = true → exec (.csiOtherPacket port vc corr) s = .next (s.updStream n (fun y => { y with
      counts := { y.counts with hdrCorrected := if y.counts.hdrCorrected = 0xFFFF#16 then 0xFFFF#16 else y.counts.hdrCorrected + 1 } }))) ∧
    (let t := (s.tick dt).updStream n (fun y => y.corrected corr)
     (s.tick dt).capHalf port = true → ((s.tick dt).stream n).live = true → (t.stream n).openFrame = none →
     ((t.stream n).state = .running → exec (.csiFrameStart port vc fn corr dt) s = .next ((t.beginCapFrame n fn).settle)) ∧
     ((t.stream n).state ≠ .running → exec (.csiFrameStart port vc fn corr dt) s = .next t.settle)) ∧
    (let t := (s.tick dt).updStream n (fun y => y.corrected corr)
     (s.tick dt).capHalf port = true → ((s.tick dt).stream n).live = true → (t.stream n).openFrame.isSome = true →
     ((t.truncateOpen n).stream n).state = .running →
     exec (.csiFrameStart port vc fn corr dt) s = .next (((t.truncateOpen n).beginCapFrame n fn).settle))) ∧
  (∀ (s : State) (n fn : Nat),
    let x := s.stream n
    let ps := x.paramsNext.getD x.params
    let f (b : Option Nat) : CapFrame := {
      num := x.frameNum, csiFn := BitVec.ofNat 16 fn, paramGen := x.gen, sofTime := s.tb.now, buf := b, params := ps,
      lines := [], badLine := false, formatErr := false, truncated := false, overrun := false, aborted := false, ended := false,
      spoiled := false }
    let y (b : Option Nat) (next : Nat) : Stream := { x with
      params := ps, paramsNext := none, genInUse := x.gen, frameNum := x.frameNum + 1, signalLost := false, nextBuf := next
      counts := { x.counts with started := satInc32 x.counts.started }, frames := x.frames ++ [f b] }
    (∀ bs t u, s.readEng x.who (x.cfg.buf x.nextBuf) 4 = .ok bs t → leNat bs = 0 →
      t.capWrites x.who [(x.cfg.buf x.nextBuf, leBytes 4 1)] = (u, none) →
      s.beginCapFrame n fn = u.setStream n (y (some x.nextBuf) ((x.nextBuf + 1) % x.cfg.nbuf))) ∧
    (∀ bs t, s.readEng x.who (x.cfg.buf x.nextBuf) 4 = .ok bs t → leNat bs ≠ 0 → s.beginCapFrame n fn = t.setStream n (y none x.nextBuf))) ∧
  (∀ (s : State) (n : Nat),
    let x := s.stream n
    (x.state ≠ .running → exec (.frameTimeout n) s = .next s) ∧
    (x.state = .running → x.openFrame = none → exec (.frameTimeout n) s = .next ((s.setStream n { x with signalLost := true }).record
      { EventRec.plain 0x0603 with part := x.part.getD 0xF })) ∧
    (x.state = .running → x.openFrame.isSome = true → exec (.frameTimeout n) s = .next ((s.truncateOpen n).settle))) ∧
  (∀ (s : State) (n dt : Nat) (f : CapFrame) (fs : List CapFrame), let t := s.tick dt
    (t.stream n).frames = f :: fs → (t.stream n).live = true →
    (f.ended = false → exec (.pipelineExit n dt) s = .next t) ∧
    (f.ended = true → fs = [] → ((t.exitFrame n f).stream n).frames = [] → exec (.pipelineExit n dt) s = .next ((t.exitFrame n f).settle)) ∧
    (f.badLine = true ∨ f.formatErr = true → f.buf = none → t.exitFrame n f =
      t.updStream n (fun y => y.leave f (f.outcome false) false 0 []))) ∧
  (∀ (x : Stream) (f : CapFrame) (o exit_ : Nat) (tmp : Bool) (st : List Byte), let y := x.leave f o tmp exit_ st
    (x.ring.length < x.cfg.statDepth → y.ring = x.ring ++ [capRecord f o tmp exit_ st] ∧ y.frames = x.frames.drop 1 ∧
      y.counts = x.counts.count o ∧ y.lostSince = x.lostSince) ∧
    (x.cfg.statDepth ≤ x.ring.length → y.ring = x.ring.drop 1 ++ [capRecord f o tmp exit_ st] ∧ y.lostSince = x.lostSince + 1)) ∧
  (∀ (s : State) (dt : Nat), let t := s.tick dt
    (t.tb.ctrlEn = false → exec (.tsyncEdge dt) s = .next t ∧ exec (.tsyncLost dt) s = .next t) ∧
    (t.tb.ctrlEn = true → exec (.tsyncEdge dt) s = .next { t with tb := t.tb.edge }) ∧
    (t.tb.ctrlEn = true → t.tb.lost = false →
      exec (.tsyncLost dt) s = .next (({ t with tb := { t.tb with lost := true } } : State).event 0x0602))) ∧
  (∀ (b : TimeState), b.periodMs ≠ 0 → let p := b.periodMs.toNat * 1000000
    let m := (2 * b.now + p) / (2 * p) * p
    let e : Int := (b.now : Int) - m
    b.edge.lost = false ∧ b.edge.locked = decide (e.natAbs ≤ 1000) ∧ b.edge.lastErr = BitVec.ofInt 24 (max (-8388608) (min 8388607 e)) ∧
    (e.natAbs ≤ 1000000 → b.edge.now = b.now ∧ b.edge.rate = max (-200000) (min 200000 (-(e * 1000000000) / p))) ∧
    (e < -1000000 → b.edge.now = m ∧ b.edge.stepped = true) ∧
    (1000000 < e → b.edge.now = b.now ∧ b.edge.rate = -200000))

/-! ### Security (chapter 17) -/

/-- R541 to R546: authorized commands. The trailer's checks in their order; a life-cycle transition blows the LC bits of its
target and of every lower state; erasure kills the media key and every owner slot, discards keys and scrubs; a fuse that does not
program ends the command and leaves the erasure due (R545). -/
def Obligations.AuthorizedCommandResults : Prop :=
  ∀ (s : State) (c : CmdRef) (k : Cmd) (bad : Option Nat) (fb : Bool),
    (∀ (off : Nat) (permits : Nat → Bool), let signer := k.p (off + 8) 8
      let x := k.pBytes (off + 0x10) 48
      let y := k.pBytes (off + 0x40) 48
      let key := s.signerHash signer = some (beNat (Config.sha384 (x ++ y)))
      let point := Config.onP384 (beNat x) (beNat y) = true
      let fresh := s.sec.lastAuthSeq < k.p off 8
      let signed := Config.ecdsaVerify (beNat x) (beNat y) (beNat (k.pBytes (off + 0x70) 48)) (beNat (k.pBytes (off + 0xA0) 48))
        (Config.sha384 (leBytes 2 k.opcode ++ leBytes 8 Config.serial.toNat ++ k.pBytes 0 (off + 0x70))) = true
      (permits signer = false → s.trailerFault k off permits = some 7) ∧
      (permits signer = true → ¬ key → s.trailerFault k off permits = some 2) ∧
      (permits signer = true → key → ¬ point → s.trailerFault k off permits = some 4) ∧
      (permits signer = true → key → point → ¬ fresh → s.trailerFault k off permits = some 3) ∧
      (permits signer = true → key → point → fresh → ¬ signed → s.trailerFault k off permits = some 1) ∧
      (permits signer = true → key → point → fresh → signed → s.trailerFault k off permits = none)) ∧
    (∀ i, i < 4 → s.signerHash i = if s.sec.fuses.ownerRevoke.getLsbD i then none else SMap.get none s.sec.fuses.owner i) ∧
    (AtPoint s c k 0x0801 → exec (.opLcAdvance c bad) s = .next (s.unlessLost c ((s.lcAdvance c k bad).settle))) ∧
    (AtPoint s c k 0x0802 → exec (.opKeyProvision c fb) s = .next (s.unlessLost c ((s.keyProvision c k fb).settle))) ∧
    (s.othersRun c = false → s.anyTrial = false → k.p 0 1 < 16 → k.zeros 1 15 = true →
      let to_ := k.p 0 1
      (lcMove s.lcState to_ = none → s.lcAdvance c k bad = s.endCmd c (Fin.with stLcTransition 1)) ∧
      (∀ owner erase, lcMove s.lcState to_ = some (owner, erase) →
        (erase = true ∨ to_ = 3 → s.parts.any (fun e => e.2.isSome) = true →
          s.lcAdvance c k bad = s.endCmd c (Fin.with stLcTransition 2)) ∧
        (s.parts.any (fun e => e.2.isSome) = false →
          (∀ r, s.trailerFault k 0x10 (if owner then byOwner else byEcfer) = some r →
            s.lcAdvance c k bad = s.endCmd c (Fin.with stAuthRequired r)) ∧
          (s.trailerFault k 0x10 (if owner then byOwner else byEcfer) = none →
            let t := (s.startCmd c).storeAuthSeq k 0x10
            let u : State := { t with sec := { t.sec with
              fuses := { t.sec.fuses with lc := t.sec.fuses.lc ||| lcBits to_ }, debugSession := none } }
            (bad = some 0 → s.lcAdvance c k bad = (t.event 0x0803).endCmd c (Fin.with stLcTransition 3)) ∧
            (bad = none → erase = false → to_ ≠ 3 → s.lcAdvance c k bad = (u.event 0x0801).endCmd c Fin.ok) ∧
            (bad = none → erase = false → to_ = 3 → s.lcAdvance c k bad = (u.scrubAll.event 0x0801).endCmd c Fin.ok) ∧
            (bad = none → erase = true →
              s.lcAdvance c k bad = ((u.killKeys.dropKeys.scrubAll.event 0x0801).endCmd c Fin.ok).startErase) ∧
            (∀ n, bad = some (n + 1) → erase = true → u.sec.fuses.lacks n = true → s.lcAdvance c k bad =
              (((u.stopErase n).event 0x0801).event 0x0803).endCmd c (Fin.with stLcTransition 3)))))) ∧
    (∀ t, 1 ≤ t → t ≤ 5 → ∀ i, i < 4 → (lcBits t).getLsbD i = decide (i + 1 < t)) ∧
    (s.killKeys.sec.fuses.mediaKill = true ∧ s.killKeys.sec.fuses.ownerRevoke = 0xF#4 ∧ s.dropKeys.sec.sessions = [] ∧
      s.dropKeys.sec.ide = [] ∧ s.dropKeys.flash.stores = [] ∧ s.scrubAll.mem.dram = [] ∧ s.scrubAll.stw.ring = []) ∧
    (∀ slot, s.othersRun c = false → k.p 0 1 = slot → slot < 4 → k.zeros 1 15 = true →
      (s.slotOk slot false = false → s.keyProvision c k fb = s.endCmd c (Fin.with stAuthRequired 6)) ∧
      (s.slotOk slot false = true → s.lcState = 2 → (List.range 4).any s.ownerSet = false → k.zeros 0x40 208 = true → fb = false →
        let t := s.startCmd c
        s.keyProvision c k fb = ({ t with sec := { t.sec with fuses := { t.sec.fuses with
          owner := SMap.set none t.sec.fuses.owner slot (some (beNat (k.pBytes 0x10 48))) } } } : State).endCmd c Fin.ok) ∧
      (s.slotOk slot false = true → s.lcState = 3 → s.trailerFault k 0x40 byOwner = none → fb = false →
        let t := (s.startCmd c).storeAuthSeq k 0x40
        s.keyProvision c k fb = ({ t with sec := { t.sec with fuses := { t.sec.fuses with
          owner := SMap.set none t.sec.fuses.owner slot (some (beNat (k.pBytes 0x10 48))) } } } : State).endCmd c Fin.ok)) ∧
    (s.sec.erasePending = false → exec .flashEraseDone s = .next s) ∧
    (s.sec.erasePending = true → ∃ t : State, exec .flashEraseDone s = .next (t.event 0x0802) ∧ t.sec.erasePending = false ∧
      t.flash.erasing = false ∧ (∀ e ∈ t.flash.pairs, e.2.map = [] ∧ e.2.jobs = []) ∧ t.stw = s.stw ∧ t.sec.fuses = s.sec.fuses)

/-- R538, R547, R549, R553, R700: debug sessions, plan keys, confidential partitions and the test port. -/
def Obligations.DebugAndKeyResults : Prop :=
  ∀ (s : State) (c : CmdRef) (k : Cmd) (nonce : List Byte) (p : Nat) (x : Partition),
    (AtPoint s c k 0x0803 → exec (.opDebugUnlock c nonce) s = .next (s.unlessLost c ((s.debugUnlock c k nonce).settle))) ∧
    (AtPoint s c k 0x0804 → exec (.opConfidential c) s = .next (s.unlessLost c ((s.confCmd c k (k.home c)).settle))) ∧
    (AtPoint s c k 0x0805 → exec (.opPlanKey c) s = .next (s.unlessLost c ((s.planKey c k (k.home c)).settle))) ∧
    (∀ level, k.p 0 1 = level * 16 → 1 ≤ level → level ≤ 4 → k.zeros 1 15 = true → k.zeros 0x10 192 = true →
      (s.lcState = 1 → s.debugUnlock c k nonce = s.endCmd c Fin.ok) ∧
      (s.lcState ≠ 1 →
        let d : DebugChallenge :=
          { nonce := (nonce ++ List.replicate 32 0#8).take 32, level := level, lcState := s.lcState, issuedAt := s.tb.now }
        s.debugUnlock c k nonce = ({ s with sec := { s.sec with challenge := some d } } : State).endCmd c { Fin.ok with out := d.bytes })) ∧
    (∀ d, k.p 0 1 = 1 → k.zeros 1 15 = true → s.lcState ≠ 1 → s.sec.challenge = some d →
      let t : State := { s with sec := { s.sec with challenge := none } }
      let px := k.pBytes 0x10 48
      let py := k.pBytes 0x40 48
      (d.issuedAt + 60000000000 < s.tb.now → s.debugUnlock c k nonce = t.endCmd c (Fin.with stAuthRequired 5)) ∧
      (s.tb.now ≤ d.issuedAt + 60000000000 → Config.sha384 (px ++ py) ≠ Config.edkHash →
        s.debugUnlock c k nonce = t.endCmd c (Fin.with stAuthRequired 2)) ∧
      (s.tb.now ≤ d.issuedAt + 60000000000 → Config.sha384 (px ++ py) = Config.edkHash →
        Config.ecdsaVerify (beNat px) (beNat py) (beNat (k.pBytes 0x70 48)) (beNat (k.pBytes 0xA0 48)) (Config.sha384 d.bytes) = true →
        s.debugUnlock c k nonce = ({ t with sec := { t.sec with debugSession := some (d.level, s.tb.now) } } : State).endCmd c Fin.ok)) ∧
    (k.p 0 1 = 1 → k.zeros 1 15 = true → s.lcState ≠ 1 → s.sec.challenge = none →
      s.debugUnlock c k nonce = ({ s with sec := { s.sec with challenge := none } } : State).endCmd c (Fin.with stAuthRequired 5)) ∧
    (k.p 0 1 = 2 → k.zeros 1 15 = true → k.zeros 0x10 192 = true → s.lcState ≠ 1 →
      s.debugUnlock c k nonce = ({ s with sec := { s.sec with debugSession := none } } : State).endCmd c Fin.ok) ∧
    (exec .debugSessionExpiry s = .next { s with sec := { s.sec with debugSession := none } }) ∧
    (exec .challengeExpiry s = .next { s with sec := { s.sec with challenge := none } }) ∧
    (s.part p = some x →
      (2 ≤ k.p 0 4 → s.confCmd c k p = s.endCmd c (Fin.with stAuthRequired 7)) ∧
      (k.p 0 4 < 2 → s.partEmpty p x = false → s.confCmd c k p = s.endCmd c (Fin.with stPartConflict 5)) ∧
      (k.p 0 4 = 0 → s.host.sriov = true → s.partEmpty p x = true → x.tdiLocks = true → s.confCmd c k p = s.endCmd c (Fin.with stPartConflict 6)) ∧
      (k.p 0 4 = 0 → s.host.sriov = true → s.partEmpty p x = true → x.tdiLocks = false →
        s.confCmd c k p = (s.updPart p (fun y => { y with confidential := false })).endCmd c Fin.ok) ∧
      (k.p 0 4 = 1 → s.host.sriov = true → s.partEmpty p x = true →
        s.confCmd c k p = ((s.unlockPart p x).updPart p (fun y => { y with confidential := true })).endCmd c Fin.ok)) ∧
    (∀ slot, s.part p = some x → k.p 0 1 = slot → slot < 4 → k.zeros 1 7 = true →
      let px := beNat (k.pBytes 0x10 48)
      let py := beNat (k.pBytes 0x40 48)
      (Config.onP384 px py = false → s.planKey c k p = s.endCmd c (Fin.with stAuthRequired 4)) ∧
      (Config.onP384 px py = true → (SMap.get none x.sec.keys slot).isSome = true → s.planKey c k p = s.endCmd c (Fin.with stAuthRequired 6)) ∧
      (Config.onP384 px py = true → SMap.get none x.sec.keys slot = none → x.tdiLocks = false →
        (∀ e ∈ x.sec.keys, ∀ q, e.2 = some q → q.keyId ≠ k.p 8 8) →
        s.planKey c k p = (s.updPart p (fun y => { y with sec := { y.sec with
          keys := SMap.set none y.sec.keys slot (some { keyId := k.p 8 8, x := px, y := py }) } })).endCmd c Fin.ok)) ∧
    (∀ slot, s.part p = some x → k.p 0 1 = slot + 4 → slot < 4 → k.zeros 1 7 = true → k.zeros 8 104 = true →
      (SMap.get none x.sec.keys slot = none → s.planKey c k p = s.endCmd c (Fin.with stAuthRequired 6)) ∧
      ((SMap.get none x.sec.keys slot).isSome = true → x.tdiLocks = false → s.planKey c k p =
        (s.updPart p (fun y => { y with sec := { y.sec with keys := SMap.set none y.sec.keys slot none } })).endCmd c Fin.ok)) ∧
    (s.start.auxGood = true →
      exec (.jtagInstruction .idcode) s = .next (({ s with mgmt := { s.mgmt with jtagIr := 1 } } : State).answer (leBytes 4 0x25A097C7)) ∧
      exec (.jtagInstruction .bypass) s = .next { s with mgmt := { s.mgmt with jtagIr := 0 } } ∧
      (s.lcState = 5 → exec (.jtagInstruction .extest) s = .next { s with mgmt := { s.mgmt with jtagIr := 0 } }) ∧
      (s.lcState = 1 ∨ s.lcState = 4 → exec (.jtagInstruction .extest) s = .next { s with mgmt := { s.mgmt with jtagIr := 3 } })) ∧
    (exec .jtagTrst s = .next { s with mgmt := { s.mgmt with jtagIr := 1 } })

/-- R555 to R560: SPDM sessions, IDE streams and device interfaces. A request is refused outside its state, and an interface
serves only inside a secured session of a confidential partition. Codes and layouts are the model's (notes/assumptions/28.md). -/
def Obligations.AttestationResults : Prop :=
  ∀ (s : State), s.stw.running = true → s.host.linkUp = true →
    (exec .spdmGetVersion s = .next (({ s with sec := { s.sec with spdmVersion := true, spdmCaps := false, spdmAlgs := false } } : State).answer
      [0x12#8, 0x13#8])) ∧
    (∀ v, s.sec.spdmVersion = true → v = 0x12 ∨ v = 0x13 →
      exec (.spdmGetCapabilities v) s = .next (({ s with sec := { s.sec with spdmCaps := true } } : State).answer [BitVec.ofNat 8 v])) ∧
    (s.sec.spdmCaps = true → exec (.negotiateAlgorithms true) s = .next (({ s with sec := { s.sec with spdmAlgs := true } } : State).answer [])) ∧
    (s.sec.spdmAlgs = false → exec .getDigests s = .next (s.answer [0x7F#8]) ∧ exec (.keyExchange 0) s = .next (s.answer [0x7F#8])) ∧
    (s.sec.spdmAlgs = true → exec .getDigests s = .next (s.answer (Config.sha384 s.chain)) ∧
      (∀ off n, exec (.getCertificate 0 off n) s = .next (s.answer ((s.chain.drop off).take n))) ∧
      (∀ nonce, exec (.challenge 0 nonce) s = .next (s.answer (Config.aliasSign s.stwDigest nonce))) ∧
      (∀ i m, s.measurement i = some m → exec (.getMeasurements i) s = .next (s.answer m)) ∧
      (∀ i, s.measurement i = none → exec (.getMeasurements i) s = .next (s.answer [0x7F#8])) ∧
      (s.sec.sessions.length < 4 → exec (.keyExchange 0) s = .next (({ s with sec := { s.sec with
        sessions := s.sec.sessions ++ [{ id := s.sec.nextSession, phase := .handshake, epoch := 0 }]
        nextSession := s.sec.nextSession + 1 } } : State).answer (leBytes 4 s.sec.nextSession))) ∧
      (4 ≤ s.sec.sessions.length → exec (.keyExchange 0) s = .next (s.answer [0x7F#8]))) ∧
    (∀ id, s.session id .handshake = true →
      exec (.finish id true) s = .next ((s.setSessions (s.sec.sessions.map (fun x => if x.id = id then { x with phase := .secured } else x))).answer
        (leBytes 4 id)) ∧
      exec (.finish id false) s = .next ((s.setSessions (s.sec.sessions.filter (fun x => x.id != id))).answer [0x7F#8])) ∧
    (∀ id, s.session id .secured = true →
      exec (.heartbeat id) s = .next (s.answer (leBytes 4 id)) ∧
      exec (.keyUpdate id) s = .next ((s.setSessions (s.sec.sessions.map (fun x => if x.id = id then { x with epoch := x.epoch + 1 } else x))).answer
        (leBytes 4 id)) ∧
      exec (.endSession id) s = .next ((s.setSessions (s.sec.sessions.filter (fun x => x.id != id))).answer (leBytes 4 id)) ∧
      (∀ n, n ≤ 8 → let x := s.ideStream n
        exec (.ideKmKeyProg id n 0) s = .next ((s.setIde n { x with keyed0 := true }).answer []) ∧
        exec (.ideKmKeyProg id n 1) s = .next ((s.setIde n { x with keyed1 := true }).answer []) ∧
        (x.keyed0 = true → exec (.kSetGo id n 0) s = .next ((s.setIde n { x with active := some 0 }).answer [])) ∧
        (x.keyed1 = true → exec (.kSetGo id n 1) s = .next ((s.setIde n { x with active := some 1 }).answer [])) ∧
        (x.keyed1 = false → exec (.kSetGo id n 1) s = .next (s.answer [0x7F#8]))) ∧
      (exec (.tdispGetVersion id) s = .next (s.answer [0x10#8])) ∧ (exec (.tdispGetCapabilities id) s = .next (s.answer [])) ∧
      (∀ p x, s.part p = some x → x.confidential = true →
        let set (t : TdiState) (n : Option Nat) : State := s.updPart p (fun y => { y with sec := { y.sec with tdi := t, ideStream := n } })
        (∀ n, x.sec.tdi = .unlocked → 1 ≤ n → n ≤ 8 → s.ideSecure n = true →
          exec (.lockInterfaceRequest id p n) s = .next ((set .locked (some n)).answer [])) ∧
        (∀ n, x.sec.tdi ≠ .unlocked ∨ s.ideSecure n = false → exec (.lockInterfaceRequest id p n) s = .next (s.answer [0x7F#8])) ∧
        (x.sec.tdi = .locked → exec (.startInterfaceRequest id p) s = .next ((set .run x.sec.ideStream).answer [])) ∧
        (x.sec.tdi ≠ .locked → exec (.startInterfaceRequest id p) s = .next (s.answer [0x7F#8])) ∧
        (exec (.getDeviceInterfaceState id p) s = .next (s.answer (leBytes 1 x.sec.tdi.code))) ∧
        (x.sec.tdi = .locked ∨ x.sec.tdi = .run → exec (.getDeviceInterfaceReport id p) s = .next (s.answer (s.tdiReport p))) ∧
        (exec (.stopInterfaceRequest id p) s = .next (((((((s.endTenant p none).emptyPart p).unlockPart p x).setTdi p .unlocked none).answer
          []).settle)))) ∧
      (∀ p x n, s.part p = some x → x.confidential = false → exec (.lockInterfaceRequest id p n) s = .next (s.answer [0x7F#8]))) ∧
    (∀ id p n, s.session id .secured = false → exec (.lockInterfaceRequest id p n) s = .next (s.answer [0x7F#8]) ∧
      exec (.heartbeat id) s = .next (s.answer [0x7F#8])) ∧
    (∀ n, n ≤ 8 → (s.ideStream n).active.isSome = true → exec (.ideIntegrityFailure n) s = .next ((s.streamDown n).settle)) ∧
    (∀ n, (s.ideStream n).active = none → exec (.ideIntegrityFailure n) s = .next s)

/-! ### The Steward (chapter 18) -/

/-- R566, R575, R579 to R583, R590, R591: the Steward's own commands, its log, and its resets. Every restart leaves a gap of
more than 65,536 SEQs.
R577 to R581: an event takes the next SEQ, the time and a slot of the ring; NOTICE and above go to the log. -/
def Obligations.StewardResults : Prop :=
  (
  ∀ (s : State) (c : CmdRef) (k : Cmd) (pass : Bool) (dt : Nat),
    (AtPoint s c k 0x0701 → k.p 6 2 = 0 → exec (.opInventory c) s =
      .next (s.unlessLost c ((s.finishOut c k (k.p 0 6) (s.inventory ((partOfBlock c.block).bind s.part)) Fin.ok).settle))) ∧
    (AtPoint s c k 0x0701 → k.p 6 2 ≠ 0 → exec (.opInventory c) s = .next (s.unlessLost c ((s.endCmd c k.badBlock).settle))) ∧
    (AtPoint s c k 0x0702 → exec (.opSensorRead c) s = .next (s.unlessLost c ((s.sensorRead c k).settle))) ∧
    (AtPoint s c k 0x0703 → exec (.opEventRead c) s = .next (s.unlessLost c ((s.eventRead c k).settle))) ∧
    (let n := k.p 2 2
     let ids := (List.range n).map (fun i => (k.p 0 2 + i) % 0x10000)
     (2 ≤ k.p 4 4 ∨ k.p 0xE 2 ≠ 0 ∨ n = 0 ∨ 256 < n → s.sensorRead c k = s.endCmd c k.badBlock) ∧
     (k.p 4 4 = 0 → k.p 0xE 2 = 0 → 1 ≤ n → n ≤ 256 → ∀ t f,
       s.output c (k.who c.block) (k.p 8 6) (ids.flatMap s.sensorRecord) { Fin.ok with c0 := n } = (t, some f) → s.sensorRead c k = t.endCmd c f) ∧
     (k.p 4 4 = 1 → k.p 0xE 2 = 0 → 1 ≤ n → n ≤ 256 → ∀ t f,
       s.output c (k.who c.block) (k.p 8 6) (ids.flatMap s.sensorRecord) { Fin.ok with c0 := n } = (t, some f) → f.status = stOk →
       s.sensorRead c k = (t.clearMax ids).endCmd c f)) ∧
    (∀ id, id < 0x10000 → (sensorType id = 0xF → s.sensorRecord id = leBytes 2 id ++ [0x0F#8] ++ List.replicate 13 0#8) ∧
      (sensorType id ≠ 0xF → s.withheld id = false → powerDie id = none → let x := s.sensor id
        s.sensorRecord id = leBytes 2 id ++ leBytes 2 (sensorType id + x.state.code * 16) ++ leBytes 4 x.value.toNat ++
          leBytes 4 (x.max.getD 0#32).toNat ++ leBytes 4 (min ((s.tb.now - x.at_) / 1000) 0xFFFFFFFF))) ∧
    (k.p 8 2 = 1 → k.p 0xA 2 = 2 → k.p 0xC 4 = 0 → k.p 0x16 2 = 0 → c.block = 0 → ∀ e es t f,
      s.stw.ring.filter (fun e => decide (k.p 0 8 ≤ e.seq)) = e :: es →
      s.output c (k.who c.block) (k.p 0x10 6) (e.bytes ++ []) { Fin.ok with c0 := 1, c1 := e.seq - k.p 0 8 } = (t, some f) → f.status = stOk →
      s.eventRead c k = ({ t with stw := { t.stw with evtCons := BitVec.ofNat 32 (e.seq + 1) } } : State).endCmd c f) ∧
    (∀ e es, s.stw.running = true → s.stw.logQueue = e :: es → ∃ l, exec .logWrite s = .next { s with stw := { s.stw with
        logQueue := es, log := (s.stw.log ++ [l]).drop ((s.stw.log ++ [l]).length - 524288) } } ∧ l.ev = e ∧ l.boot = s.stw.bootCount ∧
        l.mac = Config.logMac l.body) ∧
    (s.stw.logQueue = [] → exec .logWrite s = .next s) ∧
    (s.stw.running = false → exec (.lockstepMismatch pass) s = .next s ∧ exec .stewardWatchdog s = .next s) ∧
    (s.stw.running = true → exec .stewardWatchdog s = .next (s.trialRevert.stewardReset 4)) ∧
    (s.stw.running = true → s.stewardSingle = false →
      (s.stw.mismatches.filter (fun t => decide (s.tb.now ≤ t + 86400000000000))).length < 2 →
      exec (.lockstepMismatch pass) s = .next (({ s.trialRevert with stw := { s.trialRevert.stw with
        mismatches := s.tb.now :: s.stw.mismatches.filter (fun t => decide (s.tb.now ≤ t + 86400000000000)) } } : State).stewardReset 2)) ∧
    (s.stw.resetting = false → exec (.stewardRestartDone dt) s = .next (s.tick dt)) ∧
    (let t := s.seqRestart
     t.stw.nextSeq = s.stw.seqBound + 65536 ∧ t.stw.seqBound = s.stw.seqBound + 131072) ∧
    ((s.tick dt).stw.resetting = true → let a := s.tick dt
      let b := ({ a with stw := { a.stw with running := true, resetting := false } } : State).seqRestart
      let d := ({ b with stw := { b.stw with waiting := [] } } : State).record
        { EventRec.plain 0x0905 with detail := (Config.stewardCause a.stw.lastCause).toNat }
      let e := if a.stw.lastCause = 2 then d.event 0x0906 else d
      let g := ({ e with stw := { e.stw with waiting := b.stw.waiting } } : State).enterWaiting
      exec (.stewardRestartDone dt) s =
        .next ((((((g.recoveryReboot.startWaitingSparing.startWaitingResets).endStewardResets).fwAdvance fwRounds).noteStatus).settle)))
  ) ∧
  (
  ∀ (s : State) (e : EventRec), s.stw.running = true → s.stw.nextSeq ≠ s.stw.seqBound → s.stw.irqEn = false →
    ∃ t, s.enterEvent e = t ∧
      t.stw.nextSeq = s.stw.nextSeq + 1 ∧ t.stw.seqBound = s.stw.seqBound ∧
      t.stw.ring = s.stw.ring.filter (fun x => x.seq % 4096 != s.stw.nextSeq % 4096) ++ [{ e with seq := s.stw.nextSeq, time := s.tb.now }] ∧
      (e.sev = 0 → t.stw.logQueue = s.stw.logQueue) ∧
      (1 ≤ e.sev → s.stw.logQueue.length < 1024 ∨ 3 ≤ e.sev →
        t.stw.logQueue = s.stw.logQueue ++ [{ e with seq := s.stw.nextSeq, time := s.tb.now }]) ∧
      t = { s with stw := t.stw }
  )

/-- R585 to R590, R592: staging, activation, commit and revert of firmware. -/
def Obligations.FirmwareResults : Prop :=
  ∀ (s : State) (c : CmdRef) (k : Cmd) (bad : Bool),
    (AtPoint s c k 0x0704 → exec (.opFwStage c bad) s = .next (s.unlessLost c ((s.fwStage c k bad).settle))) ∧
    (AtPoint s c k 0x0705 → exec (.opFwActivate c) s = .next (s.unlessLost c ((s.fwActivate c k).settle))) ∧
    (let size := k.p 8 4
     let kind := k.p 0xC 4
     (k.p 6 2 ≠ 0 ∨ 3 ≤ kind ∨ imgSizeOk size = false → s.fwStage c k bad = s.endCmd c (Fin.with stFwState 7)) ∧
     (k.p 6 2 = 0 → kind < 3 → imgSizeOk size = true →
       (s.anyTrial = true → s.fwStage c k bad = s.endCmd c (Fin.with stFwState 3)) ∧
       (s.fw.change = none → s.anyTrial = false → s.mgmt.upd = .idle → ∀ img t,
         s.readEng (k.who c.block) (k.p 0 6) size = .ok img t →
         (imgHeaderOk img kind size = false → s.fwStage c k bad = t.endCmd c (Fin.with stFwState 7)) ∧
         (imgHeaderOk img kind size = true → imgSigned img size = false → s.fwStage c k bad = t.endCmd c (Fin.with stImageAuthFail 0xFFF)) ∧
         (imgHeaderOk img kind size = true → imgSigned img size = true → imgSvn img < t.fusedSvn kind → s.fwStage c k bad =
           t.endCmd c (Fin.with stFwRollback (t.fusedSvn kind % 256 + imgSvn img * 2 ^ 8))) ∧
         (imgHeaderOk img kind size = true → imgSigned img size = true → t.fusedSvn kind ≤ imgSvn img →
           (bad = true → s.fwStage c k bad = t.endCmd c (Fin.with stFwState 8)) ∧
           (bad = false → s.fwStage c k bad = ((t.updFwKind kind (fun x => x.program img)).event 0x0901).endCmd c Fin.ok))))) ∧
    (∀ x : FwKindState, ∀ img, let y := x.program img
      y.phase = .staged ∧ y.otherImg = img ∧ y.committedImg = x.committedImg ∧ y.committedB = x.committedB) ∧
    (∀ kind, kind < 3 → s.fw.change = none → let x := s.fwKind kind
      (k.p 0 4 = kind → x.phase ≠ .staged → s.fwActivate c k = s.endCmd c (Fin.with stFwState 1)) ∧
      (k.p 0 4 = kind → x.phase = .staged → s.anyTrial = true → s.fwActivate c k = s.endCmd c (Fin.with stFwState 3)) ∧
      (k.p 0 4 = kind → kind = 1 → x.phase = .staged → s.anyTrial = false → s.halvesSpared = false →
        s.fwActivate c k = s.endCmd c (Fin.with stFwState 4)) ∧
      (k.p 0 4 = kind → kind ≠ 1 → x.phase = .staged → s.anyTrial = false →
        s.fwActivate c k = ((s.startCmd c).startChange kind false false (some c.id)).fwAdvance fwRounds) ∧
      (k.p 0 4 = kind + 4 → x.phase ≠ .trial → s.fwActivate c k = s.endCmd c (Fin.with stFwState 2)) ∧
      (k.p 0 4 = kind + 4 → x.phase = .trial → s.fwActivate c k = (s.fwCommit kind).endCmd c Fin.ok) ∧
      (k.p 0 4 = kind + 8 → x.phase = .trial →
        s.fwActivate c k = ((s.startCmd c).startChange kind true false (some c.id)).fwAdvance fwRounds)) ∧
    (∀ kind, kind < 3 → ((s.blowSvn kind (imgSvn (s.fwKind kind).otherImg)).fusedSvn kind =
      max (s.fusedSvn kind) (imgSvn (s.fwKind kind).otherImg))) ∧
    (∀ kind, kind < 3 → (s.fwKind kind).phase = .trial → (s.fwKind kind).byPldm = true → s.fw.change = none → s.stw.running = true →
      exec (.fwTrialTimer kind) s = .next (s.fwCommit kind)) ∧
    (∀ kind, (s.fwKind kind).byPldm = false → exec (.fwTrialTimer kind) s = .next s ∧ exec (.firmwareFault kind) s = .next s) ∧
    (∀ kind, kind = 1 ∨ kind = 2 → (s.fwKind kind).phase = .trial → (s.fwKind kind).byPldm = true → s.fw.change = none → s.stw.running = true →
      exec (.firmwareFault kind) s = .next (((s.startChange kind true true none).fwAdvance fwRounds).settle)) ∧
    (∀ n f, (s.conductor n).loading = true → s.fw.change = some f → f.kind = 1 → exec (.conductorLoaded n) s =
      .next ((s.setConductor n { s.conductor n with loading := false, newFw := !f.revert }).fwSettle)) ∧
    (∀ n, (s.conductor n).loading = false → exec (.conductorLoaded n) s = .next s) ∧
    (∀ f p ps x n, s.fw.change = some f → f.kind = 1 → f.todo = p :: ps → s.part p = some x → x.served = true →
      s.readyCore (coreHalf x.conductor) (!f.revert) = some n → exec (.equinoxHandover p) s =
        .next ((((s.updPart p (fun y => { y with conductor := n })).setSpare (coreHalf x.conductor) x.conductor).setTodo f
          (f.todo.filter (fun q => q != p))).fwSettle)) ∧
    (∀ f d ds, s.fw.change = some f → f.kind = 2 → f.todo = d :: ds → exec (.marshalActivation d) s =
      .next (((s.updDie d (fun y => { y with newFw := !f.revert })).setTodo f ds).fwSettle)) ∧
    (s.fw.change = none → ∀ p d, exec (.equinoxHandover p) s = .next s ∧ exec (.marshalActivation d) s = .next s)

/-- R402, R576: MCTP control, command packets and platform monitoring on MGMT. Codes and layouts of MCTP and PLDM are the
model's (notes/assumptions/28.md). -/
def Obligations.ManagementPortResults : Prop :=
  ∀ (s : State), s.stw.running = true →
    (∀ eid, 8 ≤ eid → eid ≤ 254 → exec (.setEndpointId 0 eid) s =
      .next (({ s with mgmt := { s.mgmt with eid := eid } } : State).answer [0x00#8, 0x00#8, BitVec.ofNat 8 eid, 0x00#8])) ∧
    (∀ op eid, eid < 8 → exec (.setEndpointId op eid) s = .next (s.answer [0x02#8])) ∧
    (exec .getEndpointId s = .next (s.answer [0x00#8, BitVec.ofNat 8 s.mgmt.eid, 0x00#8, 0x00#8])) ∧
    (∀ ty, ty = 0xFF ∨ ty = 0 ∨ ty = 1 ∨ ty = 0x7E → exec (.getMctpVersionSupport ty) s =
      .next (s.answer [0x00#8, 0x01#8, 0xF1#8, 0xF3#8, 0xF1#8, 0x00#8])) ∧
    (exec (.getMctpVersionSupport 2) s = .next (s.answer [0x80#8])) ∧
    (exec .getMessageTypeSupport s = .next (s.answer [0x00#8, 0x03#8, 0x00#8, 0x01#8, 0x7E#8])) ∧
    (∀ (debug : Bool) pkt, let b := if debug then 10 else 9
      let k := Cmd.copied (s.block b).nextId 0 pkt 0
      let t := s.updBlock b (fun x => { x with cmds := x.cmds ++ [k], nextId := x.nextId + 1 })
      ((s.block b).cmds = [] → k.paramLen ≤ 4096 → exec (.mgmtCommandPacket debug pkt) s = .next t.settle) ∧
      ((s.block b).cmds = [] → 4096 < k.paramLen → exec (.mgmtCommandPacket debug pkt) s =
        .next (t.endCmd { block := b, id := (s.block b).nextId } (Fin.with stHeaderInvalid 4))) ∧
      ((s.block b).cmds ≠ [] → exec (.mgmtCommandPacket debug pkt) s =
        .next (t.deny { block := b, id := (s.block b).nextId } k (2 ^ 21)))) ∧
    (exec .getTid s = .next (s.answer [0x00#8, 0x00#8])) ∧
    (exec (.getPldmVersion 2) s = .next (s.answer ([0x00#8] ++ leBytes 4 0 ++ [0x05#8] ++ leBytes 4 0xF1F2F000))) ∧
    (exec .getPldmTypes s = .next (s.answer ([0x00#8] ++ leBytes 8 0x25))) ∧
    (exec (.getPldmCommands 0) s = .next (s.answer ([0x00#8] ++ leBytes 32 0x3C))) ∧
    (exec (.getPldmCommands 7) s = .next (s.answer [0x83#8])) ∧
    (∀ ty cmd, exec (.pldmUnsupported ty cmd) s = .next (s.answer [0x05#8])) ∧
    (exec .getPdrRepositoryInfo s = .next (s.answer ([0x00#8, 0x00#8] ++ leBytes 4 sensorIds.length))) ∧
    (∀ id, id < 0xB3 → exec (.getPdr (id + 1)) s = .next (s.answer ([0x00#8] ++ leBytes 4 (id + 2) ++ leBytes 4 (id + 1) ++ leBytes 2 (id + 1) ++
      leBytes 2 0))) ∧
    (∀ id, sensorType id ≠ 0xF → exec (.getSensorReading (id + 1)) s = .next (s.answer ([0x00#8] ++ s.sensorRecord id))) ∧
    (∀ id, sensorType id = 0xF → exec (.getSensorReading (id + 1)) s = .next (s.answer [0x80#8])) ∧
    (s.stw.ring.find? (fun e => decide (s.mgmt.pollSeq ≤ e.seq)) = none →
      exec (.pollForPlatformEventMessage false) s = .next (s.answer [0x00#8, 0x00#8])) ∧
    (∀ e, s.stw.ring.find? (fun e => decide (s.mgmt.pollSeq ≤ e.seq)) = some e →
      exec (.pollForPlatformEventMessage false) s = .next (s.answer ([0x00#8] ++ e.bytes))) ∧
    (∀ e f, s.stw.ring.find? (fun e => decide (s.mgmt.pollSeq ≤ e.seq)) = some e → s.stw.ring.find? (fun g => decide (e.seq + 1 ≤ g.seq)) = some f →
      exec (.pollForPlatformEventMessage true) s =
        .next (({ s with mgmt := { s.mgmt with pollSeq := e.seq + 1 } } : State).answer ([0x00#8] ++ f.bytes)))

/-- R576, R585, R586: a firmware update over PLDM, from request to activation. Each component is verified by steps 4 to 6 and
applied by step 7 of R585. -/
def Obligations.PldmUpdateResults : Prop :=
  ∀ (s : State), s.stw.running = true → let m := s.mgmt
    (exec .queryDeviceIdentifiers s = .next (s.answer ([0x00#8] ++ leBytes 4 engId ++ leBytes 4 engRev))) ∧
    (∃ bs, exec .getFirmwareParameters s = .next (s.answer ([0x00#8, 0x03#8] ++ bs)) ∧ bs.length = 30) ∧
    (m.upd = .idle → s.fw.change = none → s.anyTrial = false → exec .requestUpdate s = .next ((s.setMgmt { m with
      upd := .learn, table := [], comp := none, compSize := 0, data := [], applied := [] }).answer [0x00#8])) ∧
    (m.upd ≠ .idle ∨ s.anyTrial = true → exec .requestUpdate s = .next (s.answer [0x81#8])) ∧
    (∀ cs, m.upd = .learn → s.start.phase ≠ .recovery → (∀ x ∈ cs, 1 ≤ x ∧ x ≤ 3) → exec (.passComponentTable cs) s =
      .next ((s.setMgmt { m with upd := .ready, table := cs }).answer ([0x00#8] ++ cs.map (fun _ => 0x00#8)))) ∧
    (∀ comp size, m.upd = .ready → comp ∈ m.table → imgSizeOk size = true → exec (.updateComponent comp size) s = .next ((s.setMgmt { m with
      upd := .download, comp := some comp, compSize := size, data := [], verifyCode := 0, applyCode := 0 }).answer [0x00#8, 0x00#8])) ∧
    (∀ comp size, m.upd = .idle → exec (.updateComponent comp size) s = .next (s.answer [0x80#8])) ∧
    (∀ bs, m.upd = .download → m.data.length + bs.length ≤ m.compSize → exec (.requestFirmwareDataResponse m.data.length bs) s =
      .next (s.setMgmt { m with data := m.data ++ bs })) ∧
    (∀ off bs, off ≠ m.data.length → exec (.requestFirmwareDataResponse off bs) s = .next s) ∧
    (m.upd = .download → m.data.length = m.compSize → exec (.transferComplete 0) s = .next ((s.setMgmt { m with upd := .verify }).answer [0x00#8])) ∧
    (∀ comp, m.comp = some comp → m.upd = .verify →
      (s.imgFault m.data (comp - 1) m.compSize = none →
        exec .verifyComplete s = .next ((s.setMgmt { m with upd := .apply, verifyCode := 0 }).answer [0x00#8])) ∧
      (∀ st d, s.imgFault m.data (comp - 1) m.compSize = some (st, d) →
        exec .verifyComplete s = .next ((s.setMgmt { m with verifyCode := st }).answer [0x01#8]))) ∧
    (∀ comp, m.comp = some comp → m.upd = .apply →
      (exec (.applyComplete true) s = .next ((s.setMgmt { m with applyCode := stFwState }).answer [0x01#8])) ∧
      (exec (.applyComplete false) s = .next ((((s.updFwKind (comp - 1) (fun x => x.program m.data)).event 0x0901).setMgmt { m with
        upd := .ready, comp := none, data := [], applyCode := 0,
        applied := m.applied.filter (fun k => k != comp - 1) ++ [comp - 1] }).answer [0x00#8]))) ∧
    (m.upd = .ready → m.applied ≠ [] → exec .activateFirmware s =
      .next ((((s.answer [0x00#8]).setMgmt { m with upd := .activate }).fwAdvance fwRounds).settle)) ∧
    (m.upd = .ready → m.applied = [] → exec .activateFirmware s = .next (s.answer [0x85#8])) ∧
    (exec .getStatus s = .next (s.answer ([0x00#8] ++ leBytes 1 m.upd.code ++ leBytes 2 m.verifyCode ++ leBytes 2 m.applyCode))) ∧
    (m.upd = .download ∨ m.upd = .verify ∨ m.upd = .apply → exec .cancelUpdateComponent s =
      .next ((s.setMgmt { m with upd := .ready, comp := none, compSize := 0, data := [] }).answer [0x00#8])) ∧
    (m.upd ≠ .idle → m.upd ≠ .activate → exec .cancelUpdate s = .next ((s.setMgmt { m with
      upd := .idle, table := [], comp := none, compSize := 0, data := [], applied := [] }).answer [0x00#8]))

/-! ### Clocks, power and heat (chapters 19 and 20) -/

/-- R600 to R604, R609: a reference that fails is left only if it is in use and the other is good; with neither, the group
coasts, or the span ports go DOWN. Nothing returns merely because a reference recovered. -/
def Obligations.ClockResults : Prop :=
  ∀ (s : State) (n : Nat) (b : Bool), n < 24 → s.start.railsUp = true →
    let u := s.pll n
    let up (x : BitVec 6) : BitVec 6 := if x = 0x3F#6 then x else x + 1
    let v := if b then { u with refB := false } else { u with refA := false }
    let failed : PllUnit := if n ≠ 16 then v else if b then { v with bFails := up u.bFails } else { v with aFails := up u.aFails }
    let okay : PllUnit := if b then { u with refB := true } else { u with refA := true }
    let good := if b then u.refB else u.refA
    let other := if b then u.refA else u.refB
    (good = true → u.sel ≠ b → exec (.refFailure n b) s = .next (s.setPll n failed)) ∧
    (good = true → u.sel = b → u.phase = .locked → other = true →
      exec (.refFailure n b) s = .next (s.setPll n { failed with sel := !b, phase := .holdover })) ∧
    (good = true → u.sel = b → u.phase = .locked → other = false → n ≠ 23 →
      exec (.refFailure n b) s = .next ((s.setPll n failed).enterCoast n 1)) ∧
    (good = true → u.sel = b → u.phase = .locked → other = false → n = 23 →
      exec (.refFailure n b) s = .next (((s.setPll n failed).setPll n { failed with phase := .holdover }).spanPllDown)) ∧
    (good = false → u.lockLost = false → u.phase = .locked → exec (.refGood n b) s = .next (s.setPll n okay)) ∧
    (good = false → u.lockLost = false → u.phase = .coasting → 0 < s.coastSteps n → exec (.refGood n b) s =
      .next (s.setPll n { okay with sel := b, steps := s.coastSteps n, phase := .exiting })) ∧
    (good = false → u.lockLost = true → exec (.refGood n b) s = .next (s.setPll n okay)) ∧
    (u.phase = .holdover → (if u.sel then u.refB else u.refA) = true →
      exec (.switchoverLock n) s = .next (s.setPll n { u with phase := .locked })) ∧
    (u.phase = .entering → exec (.coastStep n) s = .next (s.setPll n { u with
      steps := u.steps + 1, phase := if s.coastSteps n ≤ u.steps + 1 then .coasting else .entering })) ∧
    (u.phase = .exiting → 2 ≤ u.steps → exec (.coastStep n) s = .next (s.setPll n { u with steps := u.steps - 1 })) ∧
    (u.phase = .exiting → u.steps = 1 → exec (.coastStep n) s =
      .next (s.setPll n { u with steps := 0, phase := .locked, cause := 0 })) ∧
    (n < 16 → u.lockLost = false → (if u.sel then u.refB else u.refA) = true → exec (.pllLockLoss n) s =
      .next ((s.setPll n { u with lockLost := true }).enterCoast n 2)) ∧
    (∀ cause, u.phase = .locked → 0 < s.coastSteps n → n ≠ 16 → (s.dieClk n).changing = false →
      s.enterCoast n cause = (s.setPll n { u with phase := .entering, steps := 0, cause := cause }).record
        { EventRec.plain 0x0601 with unit := if n < 16 then n * 2 ^ 28 else 0 }) ∧
    (∀ cause, u.phase = .locked → n = 16 → ∃ t, s.enterCoast n cause = t ∧ (t.pll 16).phase = .entering ∧ t.tb.locked = false)

/-- R574, R618, R619, R630: what a sensor reading does, and how dies are throttled and released. Throttle changes the steps
of the dies and nothing else. -/
def Obligations.SensorAndThrottleResults : Prop :=
  (∀ (s : State) (id : Nat) (val : Word) (outside : Bool) (dt : Nat), s.start.auxGood = true → sensorType id ≠ 0xF →
    let t := (s.tick dt).sample id val outside
    (t.solTrigger = none → exec (.sensorSample id val outside dt) s = .next t) ∧
    (∀ c, t.solTrigger = some c → exec (.sensorSample id val outside dt) s = .next (t.beginStepdown c))) ∧
  (∀ (s : State) (id : Nat) (val : Word) (v : Int), (s.sensor id).state ≠ .failed → fxOf val = some v →
    (s.outlier id v = false → id ≠ 0x0104 →
      let x := (s.sample id val false).sensor id
      x.value = val ∧ x.at_ = s.tb.now ∧ x.state = judge id (s.sensor id).state v ∧
      x.max = some (match (s.sensor id).max with
        | none => val
        | some m => if (fxOf m).getD 0 < v then val else m)) ∧
    (let x := (s.sample id val true).sensor id
     x.value = 0x7FC00000#32 ∧ x.state = .failed) ∧
    (s.outlier id v = true → 9 ≤ (s.sensor id).outliers →
      ((s.sample id val false).sensor id).value = 0x7FC00000#32 ∧ ((s.sample id val false).sensor id).state = .failed)) ∧
  (∀ (id : Nat) (old : SensorState) (v : Int), id < 0x0090 → judge id old v =
    if fx 105 ≤ v ∨ (old = .critical ∧ fx 102 < v) then .critical
    else if fx 95 ≤ v ∨ ((old = .critical ∨ old = .warning) ∧ fx 92 < v) then .warning else .normal) ∧
  (∀ (s : State), s.start.railsUp = true → s.pwr.sol.k = 0 → s.pwr.sol.tail = false → ∃ t, exec .throttleStep s = .next t ∧
    t = { s with pwr := { s.pwr with steps := t.pwr.steps } } ∧ ∀ d, t.thrSteps d =
      if d < 16 ∧ (s.pwr.meanAbove 100000 7500 ∨ s.pwr.meanAbove 1000 8400 ∨ s.pwr.twoAbove 9600 ∨ s.moduleCritical = true ∨
        s.dieCritical d = true) then min (s.thrSteps d + 1) 27 else s.thrSteps d) ∧
  (∀ (s : State), s.start.railsUp = true →
    (s.recovers = false → exec .throttleRecovery s = .next s) ∧
    (s.recovers = true → SMap.risingFrom 0 s.pwr.steps = true → ∃ t, exec .throttleRecovery s = .next t ∧ t = { s with pwr := { s.pwr with steps := t.pwr.steps } } ∧
      ∀ d, t.thrSteps d = if d < 16 then s.thrSteps d - 1 else s.thrSteps d))

/-- R620 to R628: SOLSTICE. A request that passes R624 starts the ramp at k = 1; k rises to LEVEL, and at a trigger falls by
one at once and by one each step to 0, where the episode is charged in whole ms. -/
def Obligations.SolsticeResults : Prop :=
  ∀ (s : State) (dt : Nat),
    let t := s.tick dt
    let o := t.pwr.sol
    (o.state = .ramp → o.k < o.level → t.rampPaused = false → exec (.solsticeRampStep dt) s =
      .next ((t.setSol { o with k := o.k + 1, highest := o.k + 1 }).rampDone)) ∧
    (o.state = .ramp → o.level ≤ o.k → exec (.solsticeRampStep dt) s = .next t) ∧
    (o.state = .stepdown → 2 ≤ o.k → exec (.stepdownStep dt) s = .next (t.setSol { o with k := o.k - 1 })) ∧
    (o.state = .stepdown → o.k = 1 → o.cancels = [] → ∃ u, exec (.stepdownStep dt) s = .next u ∧ u.pwr.sol.state = .off ∧
      u.pwr.sol.k = 0 ∧ u.pwr.sol.reservedMs = 0 ∧ u.pwr.sol.endedAt = some t.tb.now ∧ u.pwr.binsFlash = u.pwr.bins ∧
      u.pwr.bins = addBin t.pwr.bins 0 ((o.chargedNs + 999999) / 1000000 * 1000000)) ∧
    (t.stw.running = true → exec (.wearBinWrite dt true) s = .next { t with pwr := { t.pwr with
      bins := ((0, 0) :: t.pwr.bins).take 720, binsFlash := ((0, 0) :: t.pwr.bins).take 720 } }) ∧
    (t.stw.running = true → exec (.wearBinWrite dt false) s =
      .next { t with pwr := { t.pwr with binsFlash := t.pwr.bins } }) ∧
    (s.pwr.sol.state = .active → 19900000000 ≤ s.pwr.sol.chargedNs → exec .solsticeDurationExpiry s = .next (s.beginStepdown 4)) ∧
    (s.pwr.sol.state = .active → s.pwr.sol.chargedNs < 19900000000 → s.pwr.sol.maxMs * 1000000 ≤ s.pwr.sol.activeNs →
      exec .solsticeDurationExpiry s = .next (s.beginStepdown 7)) ∧
    (∀ c, s.pwr.sol.request = none → 2 ≤ s.pwr.sol.k → s.pwr.sol.state = .active → ∃ u, s.beginStepdown c = u ∧
      u.pwr.sol.state = .stepdown ∧ u.pwr.sol.k = s.pwr.sol.k - 1 ∧ u.pwr.sol.lastEnd = c) ∧
    (∀ (c : CmdRef) (k : Cmd), AtPoint s c k 0x0706 → exec (.opBoost c) s = .next (s.unlessLost c ((s.boost c k).settle))) ∧
    (∀ (c : CmdRef) (k : Cmd), let q := s.pwr.sol
      (boostFieldsOk k = false → s.boost c k = s.endCmd c (Fin.with stBoostDenied 1)) ∧
      (boostFieldsOk k = true → k.p 0 1 = 0 → q.state ≠ .off → s.boost c k = s.endCmd c (Fin.with stBoostDenied 2)) ∧
      (boostFieldsOk k = true → k.p 0 1 = 1 → q.state = .off → s.boost c k = s.endCmd c Fin.ok) ∧
      (boostFieldsOk k = true → k.p 0 1 = 1 → q.state = .ramp → s.boost c k =
        (s.startCmd c).setSol { q with state := .draining, cancels := q.cancels ++ [(c.block, c.id, 0)] }) ∧
      (∀ x, boostFieldsOk k = true → k.p 0 1 = 0 → q.state = .off → k.p 2 1 = 1 → s.part 0 = some x →
        x.dies.all (fun d => (s.pll d).coastingAny) = false →
        (∀ i, s.boostUnfit = some i → s.boost c k = s.endCmd c (Fin.with stBoostDenied (4 + i * 2 ^ 16))) ∧
        (s.boostUnfit = none →
          let ms := if k.p 4 4 = 0 then 20000 else k.p 4 4
          (s.wearLeft < ms → s.boost c k = s.endCmd c (Fin.with stBoostWearLimit (s.wearLeft % 2 ^ 32))) ∧
          (ms ≤ s.wearLeft → 2 ≤ k.p 1 1 → ∃ u, s.boost c k = u ∧ u.pwr.sol.state = .ramp ∧ u.pwr.sol.k = 1 ∧
            u.pwr.sol.level = k.p 1 1 ∧ u.pwr.sol.dies = x.dies ∧ u.pwr.sol.maxMs = ms ∧ u.pwr.sol.reservedMs = ms ∧
            u.pwr.sol.remainBefore = s.wearLeft ∧ u.pwr.sol.request = some (c.block, c.id))))) ∧
    (∀ c, s.pwr.sol.state = .draining → s.pwr.sol.request = some c → exec (.drainLimitExpiry .boost) s = .next ((((s.setSol {
      s.pwr.sol with request := none, cancels := s.pwr.sol.cancels.map (fun q => (q.1, q.2.1, q.2.2 + 1)) }).endAtBoundary
        { block := c.1, id := c.2 } stAbortedByDisable 0).beginStepdown 1)))

/-! ### Faults and recovery (chapter 21) -/

/-- R25, R129, R645: the row map of a column. Its 16 logical rows stand on the 17 physical rows but the gap, one on each, in
order; moving the gap from h to f moves exactly the rows between them, each by one. -/
def Obligations.RowMapSkipsTheGap : Prop :=
  (∀ h r : Nat, r < 16 → h < 17 → physRow h r < 17 ∧ physRow h r ≠ h ∧ logRow h (physRow h r) = some r) ∧
  (∀ h f : Nat, f < 17 → h < 17 → f ≠ h → ∃ r, logRow h f = some r ∧ r < 16 ∧ physRow h r = f) ∧
  (∀ h f r : Nat, r < 16 → h < 17 → f < 17 →
    (f < h → physRow f r = if f ≤ r ∧ r < h then physRow h r + 1 else physRow h r) ∧
    (h < f → physRow f r = if h ≤ r ∧ r < f then physRow h r - 1 else physRow h r))

/-- R645, R649, R651, R652: recovery of core faults. A fault of one core, with a working spare in its column, moves the
rows between fault and gap; four or more faults at once are one shared cause and move nothing.
R651, R662: a core that passes its self-test leaves the test and is its column's spare; one that fails is retired; a core tested in place receives
its partition's settings again (R13); every 24 h the working gap core of each column is tested. -/
def Obligations.CoreFaultResults : Prop :=
  (
  ∀ (s : State) (d c f : Nat) (faults : List (Nat × Nat)), d < 16 → (s.die d).marshalDead = false →
    (c < 8 → f < 17 → (s.core ((d * 8 + c) * 32 + f)).run.frozen = true → (∃ r, logRow (s.gap d c) f = some r) → s.gapWorks d c = true →
      s.hitBy ((d * 8 + c) * 32 + f) = [] →
      let k := (d * 8 + c) * 32 + f
      let t := ((s.relocate d c f (s.core k).run.replay.wdog).mapOut d c f).countRecovery
      exec (.coreFaultRecovery d [(c, f)] false) s = .next ((((((t.coreEvent 0x0201 d c f).coreEvent 0x0202 d c f).resetTested
        d).noteShort d).noteStatus).settle)) ∧
    (c < 8 → f < 17 → (s.core ((d * 8 + c) * 32 + f)).run.frozen = false → exec (.coreFaultRecovery d [(c, f)] false) s = .next s) ∧
    (4 ≤ faults.length → faults.Nodup → (s.die d).lastShared = none →
      (∀ e ∈ faults, e.1 < 8 ∧ e.2 < 17 ∧ (s.core ((d * 8 + e.1) * 32 + e.2)).run.frozen = true ∧ e.2 ≠ s.gap d e.1) →
      let t := faults.foldl (fun u e => u.replayHere ((d * 8 + e.1) * 32 + e.2)) s
      exec (.coreFaultRecovery d faults false) s = .next ((((t.updDie d (fun x => { x with
        lastShared := some t.tb.now })).countRecovery).record { EventRec.plain 0x0201 with
          unit := d * 2 ^ 28, detail := 2 ^ 61, count := faults.length, reporters := reporterBits d (faults.map (fun e => e.1)),
          part := (s.partOfDie d).getD 0xF }).settle))
  ) ∧
  (
  ∀ (s : State) (q : CorePos), posOk q = true →
    let d := q.die
    let here := (q.col, q.row)
    ((s.die d).testing.contains here = false → ∀ pass, exec (.selfTestDone q pass) s = .next s) ∧
    (∀ pass, (s.die d).testing.contains here = true →
      let t := (((s.updDie d (fun x => { x with
        testing := x.testing.filter (fun r => r != here)
        retired := if pass then x.retired else x.retired ++ [here] })).coreEvent (if pass then 0x0205 else 0x0206) d q.col q.row).setupTested
          d q.col q.row).regap d q.col
      exec (.selfTestDone q pass) s = .next ((if t.spareGone d q.col && !s.spareGone d q.col
        then t.coreEvent 0x0204 d q.col (t.gap d q.col) else t).noteShort d).noteStatus) ∧
    (s.start.railsUp = true → (s.die d).marshalDead = false → exec (.gapTestTimer d) s =
      .next ((s.updDie d (fun x => { x with testing := x.testing ++
        ((List.range 8).filter (fun c => s.gapWorks d c)).map (fun c => (c, s.gap d c)) })).resetTested d))
  )

/-- R657 to R659: reports of a suspected unit. The first one passes at once and opens an entry where there is room; further
ones of the same code and unit are counted; a closing entry sends its count, unless it counted none.
R655: a DRAM request that expires is issued once more; at its second expiry it is held and the channel reported; a reset
that restores the channel releases what is held, and two that do not start sparing. -/
def Obligations.CoalescingResults : Prop :=
  (
  ∀ (s : State) (r : Report) (d c code unit : Nat) (q : CoalEntry) (w : StwCoal),
    (r.reporter = none → exec (.faultReport r) s = .next (s.stewardReport (Report.event r 1 0))) ∧
    (r.reporter = some (d, c) → d < 16 → c < 8 → (s.die d).coal.any (fun e => e.code == r.code && e.unit == r.unit) = true →
      exec (.faultReport r) s = .next (s.updDie d (fun x => { x with coal := x.coal.map (fun e =>
        if e.code == r.code && e.unit == r.unit then { e with count := e.count + 1, reporters := e.reporters ||| reporterBits d [c] } else e) }))) ∧
    (r.reporter = some (d, c) → d < 16 → c < 8 → (s.die d).coal.any (fun e => e.code == r.code && e.unit == r.unit) = false →
      (s.die d).coal.length < 16 →
      let e : CoalEntry := { code := r.code, unit := r.unit, count := 0, reporters := 0, sev := r.sev % 5, part := r.part % 16,
                             detail := r.detail }
      exec (.faultReport r) s = .next ((s.updDie d (fun x => { x with coal := x.coal ++ [e] })).stewardReport
        (Report.event r 1 (reporterBits d [c])))) ∧
    ((s.die d).coal.find? (fun e => e.code == code && e.unit == unit) = some q →
      let t := s.updDie d (fun x => { x with coal := x.coal.filter (fun z => z != q) })
      (q.count = 0 → exec (.marshalCoalesceClose d code unit) s = .next t) ∧
      (0 < q.count → exec (.marshalCoalesceClose d code unit) s = .next (t.stewardReport { EventRec.plain q.code with
        sev := q.sev, unit := q.unit, part := q.part, detail := q.detail, count := q.count, reporters := q.reporters }))) ∧
    (s.stw.coal.find? (fun e => e.first.code == code && e.first.unit == unit) = some w → s.stw.running = true →
      exec (.stewardCoalesceClose code unit) s =
        .next (({ s with stw := { s.stw with coal := s.stw.coal.filter (fun z => z != w) } }).record { w.first with
          count := w.count, reporters := w.reporters }))
  ) ∧
  (
  ∀ (s : State) (q : CorePos) (eng stack ch : Nat), posOk q = true → eng < 2 → stack < 6 → ch < 32 →
    let k := CorePos.key q
    let e := (s.core k).dma eng
    (s.core k).run.frozen = false →
    (e.queue ≠ [] → e.held = none → e.expiries = 0 → exec (.dmaDeadlineExpiry q eng stack ch) s =
      .next (s.updCore k (fun c => c.updDma eng (fun d => { d with expiries := 1 })))) ∧
    (e.queue ≠ [] → e.held = none → e.expiries ≠ 0 →
      let t := s.updCore k (fun c => c.updDma eng (fun d => { d with expiries := 2, held := some (chanKey stack ch) }))
      exec (.dmaDeadlineExpiry q eng stack ch) s = .next ((t.setChan stack ch { s.chan stack ch with answers := false }).report
        { code := 0x0305, unit := chanUnit stack ch, reporter := some (q.die, q.col), sev := 2, part := (s.partOfDie q.die).getD 0xF,
          detail := 0 })) ∧
    ((s.chan stack ch).resetting = true → s.stw.running = true →
      let c := s.chan stack ch
      let t := s.record { EventRec.plain 0x0306 with unit := chanUnit stack ch }
      exec (.channelResetDone stack ch true) s =
        .next ((t.setChan stack ch { c with resetting := false, answers := true, resets := 0 }).releaseHeld (chanKey stack ch)) ∧
      (c.resets = 0 → exec (.channelResetDone stack ch false) s = .next (t.setChan stack ch { c with resetting := true, resets := 1 })) ∧
      (1 ≤ c.resets → exec (.channelResetDone stack ch false) s =
        .next ((t.setChan stack ch { c with resetting := false, resets := c.resets + 1 }).startSparing stack ch)))
  )

/-- R20, R373, R592, R663, R664: links, die marshals, conductor cores and hub halves. -/
def Obligations.UnitLossResults : Prop :=
  ∀ (s : State) (d link n m p : Nat) (pass half : Bool),
    (d < 16 → (s.die d).linksOut.contains (2 * link) = false → exec (.linkRetryExcess d link false) s =
      .next (s.updDie d (fun x => { x with linksOut := x.linksOut ++ [2 * link] }))) ∧
    (d < 16 → (s.die d).linksOut.contains (2 * link + 1) = false → exec (.linkRetryExcess d link true) s =
      .next ((s.updDie d (fun x => { x with linksOut := x.linksOut ++ [2 * link + 1] })).event 0x0501)) ∧
    (d < 16 → (s.die d).marshalDead = false → (s.die d).single = false → s.partOfDie d = none →
      let recent := s.tb.now :: (s.die d).mismatches.filter (fun t => decide (s.tb.now ≤ t + 86400 * 1000000000))
      exec (.marshalRestart d pass) s = .next (s.updDie d (fun x => { x with
        mismatches := recent, single := decide (3 ≤ recent.length) && !pass }))) ∧
    (d < 16 → (s.die d).marshalDead = false → (s.die d).single = true → exec (.marshalRestart d false) s =
      .next ((s.updDie d (fun x => { x with marshalDead := true })).noteShort d)) ∧
    (n < 10 → (s.conductor n).inService = true → s.halfOk (coreHalf n) = true →
      ((List.range 8).find? (fun p => match s.part p with
        | none => false
        | some x => x.served && x.conductor == n) = some p) →
      s.halfSpare (coreHalf n) s.canTake = some m →
      let t := (s.noteCmds p (fun v => { v with conductor := true })).takeOver p m
      exec (.conductorTakeover n pass) s =
        .next (let u := t.setConductor n { t.conductor n with inService := pass, loading := false }
          (if pass then u.setSpare (coreHalf n) n else u).equinoxCheck.settle)) ∧
    (s.halfOk half = true → (List.range 8).all (fun p => match s.part p with
        | none => true
        | some x => !(x.served && coreHalf x.conductor == half)) = true →
      (∀ v, v < 32 → (s.stream v).live = false) →
      let t := { s with
        hub := if half then { s.hub with bOk := false } else { s.hub with aOk := false }
        host := { s.host with linkWidth := if s.host.linkUp then 3 else s.host.linkWidth } }
      exec (.hubHalfLoss half) s = .next ((t.equinoxAbort.serveWaiting.dropIde.event 0x0A01).noteStatus.settle)) ∧
    (s.halfOk half = false → s.start.railsUp = true → exec (.hubHalfRestored half) s = .next ((({ s with
      hub := if half then { s.hub with bOk := true } else { s.hub with aOk := true } } : State).event 0x0A02).settle))

/-! ### Start-up and reset (chapter 22) -/

/-- R668 to R673: the supplies and the boot. The hub ROM boots the first source that passes; PWR_EN is asserted only from
AUX with the Steward running, the keys of an erasure that is due killed (R545), and after a trip only when the module has
cooled; three retries of VIN48. VIN48 applied with
PWR_EN deasserted is the one command without a next state, for its effect is undefined. -/
def Obligations.SupplyAndBootResults : Prop :=
  ∀ (s : State) (spi : List Byte) (a b fuse : Bool) (failed : List CorePos) (cores : List Nat),
    let on (t : State) : State := { t with start := { t.start with phase := .waitVin, pwrEn := true, attempts := 0 } }
    (s.start.auxGood = true → exec (.v3p3AuxGood spi) s = .next s) ∧
    (s.start.auxGood = false → ∃ t : State, exec (.v3p3AuxGood spi) s = .next (t.bootSteward spi) ∧ t.start.auxGood = true ∧
      t.pwr.tripped = false ∧ t.pwr.thermtripLow = false ∧ t.stw.bootCount = s.stw.bootCount + 1 ∧ t.start.cause = 0) ∧
    (s.start.auxGood = false → exec .v3p3AuxLost s = .next s) ∧
    (s.start.auxGood = true → ∃ t : State, exec .v3p3AuxLost s = .next t ∧ t.start.auxGood = false ∧ t.start.phase = .off ∧
      t.stw.running = false ∧ t.parts = [] ∧ t.cores = [] ∧ t.pwr.tripped = false ∧ t.sec.fuses = s.sec.fuses ∧
      t.pwr.bins = t.pwr.binsFlash) ∧
    (s.start.phase = .romRetry → exec (.romBootRetry spi) s = .next (s.bootSteward spi)) ∧
    (let x := s.fwKind 0
     (s.bootable x.committedImg = true → s.bootSteward spi = s.runSteward .aux false) ∧
     (s.bootable x.committedImg = false → s.bootable x.otherImg = true → s.bootSteward spi = ((s.updFwKind 0 (fun y => { y with
       committedB := !y.committedB, phase := .committed, byPldm := false })).runSteward .aux true).event 0x0904) ∧
     (s.bootable x.committedImg = false → s.bootable x.otherImg = false → s.bootable spi = true →
       s.bootSteward spi = (s.runSteward .recovery false).event 0x0908) ∧
     (s.bootable x.committedImg = false → s.bootable x.otherImg = false → s.bootable spi = false →
       s.bootSteward spi = { s with start := { s.start with phase := .romRetry } })) ∧
    (let t := s.runSteward .aux a
     t.stw.running = true ∧ t.start.phase = .aux ∧ t.start.altSlot = a ∧ t.start.tripSeen = s.pwr.tripped) ∧
    (s.start.phase = .aux → s.stw.running = true → s.pwr.tripped = false →
      (s.sec.eraseDue = false → exec (.pwrEnAssert fuse) s = .next (on s)) ∧
      (s.sec.eraseDue = true → exec (.pwrEnAssert false) s = .next (on s.killKeys.dropKeys) ∧
        exec (.pwrEnAssert true) s =
          .next (on (({ s with start := { s.start with fuseFailed := true } } : State).event 0x0803)))) ∧
    (s.pwr.tripped = true → s.cooled = false → exec (.pwrEnAssert fuse) s = .next s) ∧
    (s.start.phase ≠ .aux → exec (.pwrEnAssert fuse) s = .next s) ∧
    (s.start.pwrEn = true → s.start.phase = .waitVin → exec (.vin48Good a b failed cores) s = .next ((({ s with
      start := { s.start with vin48 := true, railsUp := true, phase := .dram } } : State).lockPlls a b).selfTests failed cores)) ∧
    (s.start.pwrEn = false → exec (.vin48Good a b failed cores) s = .fault .supplyOutOfOrder) ∧
    (s.start.phase = .waitVin → exec .vin48StartTimeout s = .next (({ s with start := { s.start with
      phase := if s.start.attempts < 3 then .waitRetry else .gaveUp, pwrEn := false, vin48 := false,
      attempts := s.start.attempts + 1 } } : State).event 0x0705)) ∧
    (s.start.phase = .waitRetry → exec .vin48Retry s = .next { s with start := { s.start with phase := .waitVin, pwrEn := true } }) ∧
    (s.start.railsUp = true → s.stw.running = true → s.start.phase = .ready → ∃ t : State, exec .vin48Lost s = .next t ∧ t.start.phase = .aux ∧ t.start.pwrEn = false ∧
      t.start.railsUp = false ∧ t.start.cause = 3 ∧ t.stw.running = true ∧ t.parts = [] ∧ t.cores = [] ∧
      t.sec.fuses = s.sec.fuses)

/-- R353, R674 to R679: from the rails to READY. With a good reference every PLL locks, REFCLK_A first; a channel that fails
training takes a free spare; conductor cores that fail their test are retired; READY rises once the maps are present, a hub half
is in service, and an erasure that was due has scrubbed DRAM (R545).
R20, R35, R537, R677, R702: the host port and the I3C address. -/
def Obligations.BringUpResults : Prop :=
  (
  ∀ (s : State) (n ms : Nat) (a b rebuilt : Bool) (bad : List Nat),
    (a = true ∨ b = true → n < 24 → let u := (s.lockPlls a b).pll n
      u.phase = .locked ∧ u.refA = a ∧ u.refB = b ∧ u.sel = !a ∧ u.aFails = (s.pll n).aFails ∧ u.bFails = (s.pll n).bFails) ∧
    (∀ q : CorePos, posOk q = true → (s.die q.die).retired.contains (q.col, q.row) = false →
      let t := s.retireAtStart q
      (t.die q.die).retired = (s.die q.die).retired ++ [(q.col, q.row)] ∧ t.start.newRetired = s.start.newRetired + 1 ∧
      s.retireAtStart q = (({ s.updDie q.die (fun x => { x with retired := x.retired ++ [(q.col, q.row)] }) with
        start := { s.start with newRetired := s.start.newRetired + 1 } } : State).coreEvent 0x0206 q.die q.col q.row)) ∧
    (∀ (x : Die) (c r : Nat), r < 17 → x.retired.contains (c, r) = true → (∀ i, i < r → x.retired.contains (c, i) = false) →
      x.startGap c = r) ∧
    (s.start.phase = .dram → (∀ i, i < 32 → (s.port i).enabled = false) →
      let t : State := { s with start := { s.start with phase := .maps } }
      (s.sec.eraseDue = false → exec (.dramTrained []) s = .next t.noteStatus) ∧
      (s.sec.eraseDue = true → s.start.fuseFailed = false → exec (.dramTrained []) s = .next t.scrubAll.startErase.noteStatus)) ∧
    (∀ c, c < 10 → c ∈ bad → ((s.testConductors bad).conductor c).inService = false) ∧
    ((s.testConductors bad).hub.aOk = (halfCores false).any (fun c => ((s.testConductors bad).conductor c).inService)) ∧
    ((s.testConductors bad).hub.bOk = (halfCores true).any (fun c => ((s.testConductors bad).conductor c).inService)) ∧
    (∀ (st ch k : Nat), s.start.phase = .dram → st < 6 → ch < 32 → (∀ i, i < 32 → (s.port i).enabled = false) →
      (s.chan st ch).spare = none → s.start.warm = false → s.sec.eraseDue = false →
      [32, 33].find? (fun j => !((s.setChan st ch { s.chan st ch with spare := none }).sparesUsed st).contains j) = some k →
      let t := s.setChan st ch { s.chan st ch with spare := some k, retired := true }
      let u : State := ({ t with mem := { t.mem with poison := t.mem.poison.filter (fun p => p.1 / 2 ^ 25 != chanKey st ch) } } : State).record
        { EventRec.plain 0x0303 with unit := chanUnit st ch }
      exec (.dramTrained [(st, ch)]) s = .next (({ u with start := { u.start with phase := .maps } } : State).noteStatus)) ∧
    (s.start.phase = .maps → ∃ t : State, exec (.flashMapRebuilt rebuilt) s = .next t ∧ t.flash.mapsReady = true ∧
      t.start.mapRebuilt = (rebuilt || !s.start.warm) ∧
      t.flash.pairs = s.flash.pairs.map (fun e => (e.1, { e.2 with mapLost := false, map := e.2.remade }))) ∧
    (s.start.phase = .maps → s.flash.mapsReady = true → s.stw.running = true → s.hub.aOk = true ∨ s.hub.bOk = true →
      s.sec.eraseDue = false → exec (.readySet ms) s = .next { s with
        start := { s.start with phase := .ready, startMs := min ms 0xFFFF }
        tb := { s.tb with now := if s.start.warm then s.tb.now else 0 } }) ∧
    (s.hub.aOk = false → s.hub.bOk = false → exec (.readySet ms) s = .next s) ∧
    (s.flash.mapsReady = false → exec (.readySet ms) s = .next s) ∧
    (s.sec.eraseDue = true → exec (.readySet ms) s = .next s)
  ) ∧
  (
  ∀ (s : State) (wide on : Bool) (static addr : Nat),
    (s.start.railsUp = true → s.start.perstHigh = true → s.start.phase ≠ .held → exec (.hostPortL0 wide) s = .next { s with host := { s.host with
      linkUp := true, linkWidth := if wide = true ∧ s.hub.aOk = true ∧ s.hub.bOk = true then 4 else 3 } }) ∧
    (s.start.perstHigh = false ∨ s.start.railsUp = false → exec (.hostPortL0 wide) s = .next s) ∧
    (s.host.linkUp = true → exec .hostLinkDown s = .next (({ s with host := { s.host with linkUp := false, linkWidth := 0 } } : State).dropIde)) ∧
    (s.host.linkUp = false → exec .hostLinkDown s = .next s) ∧
    (s.host.linkUp = true → s.start.railsUp = true → exec (.sriovEnable on) s = .next { s with host := { s.host with sriov := on } }) ∧
    (s.start.auxGood = true → s.mgmt.i3cAddr = none → exec (.i3cSetdasa 0x3A addr) s =
      .next { s with mgmt := { s.mgmt with i3cAddr := some addr } }) ∧
    (static ≠ 0x3A → exec (.i3cSetdasa static addr) s = .next s) ∧
    (s.start.auxGood = true → s.mgmt.i3cAddr = none → exec (.i3cEntdaa addr) s =
      .next { s with mgmt := { s.mgmt with i3cAddr := some addr } }) ∧
    (∀ x, s.mgmt.i3cAddr = some x → exec (.i3cEntdaa addr) s = .next s)
  )

/-- R681: what a cold and a warm reset keep and lose.
R632 to R634, R680, R682, R684, R689: which event resets what. -/
def Obligations.ResetResults : Prop :=
  (
  ∀ (s : State) (warm : Bool), let t := s.lose warm
    t.sec.fuses = s.sec.fuses ∧ t.sec.lastAuthSeq = s.sec.lastAuthSeq ∧ t.sec.erasePending = s.sec.erasePending ∧
    t.sec.eraseDue = s.sec.eraseDue ∧ t.stw.log = s.stw.log ∧ t.stw.seqBound = s.stw.seqBound ∧
    t.span.engineId = s.span.engineId ∧ t.pwr.tripped = s.pwr.tripped ∧ t.pwr.tripSensor = s.pwr.tripSensor ∧
    (s.pwr.sol.state = .off → t.pwr.bins = s.pwr.bins) ∧ t.pwr.sol.state = .off ∧
    t.parts = [] ∧ t.blocks = [] ∧ t.cores = [] ∧ t.cap = CapState.reset ∧
    t.sec.sessions = [] ∧ t.sec.ide = [] ∧ t.sec.debugSession = none ∧ t.sec.challenge = none ∧ t.stw.running = false ∧
    (∀ x ∈ t.flash.stores, x.persistent = true ∧ x.part = none ∧ x.ctx = none) ∧
    (∀ d, (t.die d).retired = (s.die d).retired) ∧
    (∀ n, n < 32 → (t.port n).enabled = (s.port n).enabled) ∧
    (warm = true → t.stw.ring = s.stw.ring ∧ t.tb.now = s.tb.now ∧ t.clk.clkout0 = s.clk.clkout0 ∧ t.clk.clkout1 = s.clk.clkout1 ∧
      t.tb.ctrlEn = s.tb.ctrlEn ∧ t.tb.periodMs = s.tb.periodMs) ∧
    (warm = false → t.stw.ring = [] ∧ t.mem.dram = [] ∧ t.clk = ClkState.reset ∧ t.tb.ctrlEn = false) ∧
    (∀ k, (t.fwKind k).slotA = (s.fwKind k).slotA ∧ (t.fwKind k).slotB = (s.fwKind k).slotB ∧ (t.fwKind k).phase ≠ .trial)
  ) ∧
  (
  ∀ (s : State) (us sensor : Nat) (spi : List Byte) (dt : Nat) (a b fuse : Bool) (failed : List CorePos) (cores : List Nat),
    let high := { s with start := { s.start with sysResetLow := false } }
    let low := { s with start := { s.start with sysResetLow := true } }
    let ask (r : Bool × Nat) : State := { s with start := { s.start with sysResetLow := false, pendingReset := some r } }
    (s.start.sysResetLow = false → s.start.auxGood = true → s.start.phase ≠ .tripped →
      exec .sysResetNAssert s = .next low.assertReset) ∧
    (s.start.sysResetLow = false → s.start.phase = .tripped → exec .sysResetNAssert s = .next low) ∧
    (us < 10 → exec (.sysResetNRelease us) s = .next high) ∧
    (s.start.phase = .held → 10 ≤ us → us < 1000000 → s.start.auxGood = true → exec (.sysResetNRelease us) s = .next (ask (false, 4))) ∧
    (s.start.phase = .held ∨ s.start.phase = .tripped → 1000000 ≤ us → s.start.auxGood = true → exec (.sysResetNRelease us) s = .next (ask (true, 1))) ∧
    (s.start.phase = .tripped → us < 1000000 → exec (.sysResetNRelease us) s = .next high) ∧
    (s.start.perstHigh = true → s.start.phase = .ready → ∃ t : State, exec .pciePerstNFall s = .next t ∧ t.start.pendingReset = some (false, 5) ∧
      t.start.phase = .held ∧ t.start.perstHigh = false ∧ t.start.perstWait = true ∧ t.host.linkUp = false ∧ t.parts = []) ∧
    (s.start.perstHigh = true → s.start.phase = .held → exec .pciePerstNFall s = .next { s with
      start := { s.start with perstHigh := false, perstWait := true }, host := { s.host with linkUp := false, linkWidth := 0 } }) ∧
    (s.start.phase ≠ .ready ∧ s.start.phase ≠ .held ∨ s.start.perstHigh = false → exec .pciePerstNFall s = .next { s with
      start := { s.start with perstHigh := false }, host := { s.host with linkUp := false, linkWidth := 0 } }) ∧
    (exec .pciePerstNRise s = .next { s with start := { s.start with perstHigh := true, perstWait := false } }) ∧
    (let t := s.assertReset
     t.start.phase = .held ∧ t.parts = [] ∧ t.start.pwrEn = s.start.pwrEn ∧ t.start.railsUp = s.start.railsUp ∧ t.stw.running = false) ∧
    (s.start.pendingReset = none → exec (.warmReset spi dt a b failed cores fuse) s = .next s ∧ exec (.coldReset spi) s = .next s) ∧
    (∀ cause, s.start.pendingReset = some (false, cause) → s.start.auxGood = true → s.start.sysResetLow = false →
      s.start.perstWait = false →
      let t := (s.tick dt).lose true
      let u := ({ t with start := t.start.again true cause } : State).bootSteward spi
      u.start.phase = .aux → u.start.railsUp = true →
      exec (.warmReset spi dt a b failed cores fuse) s = .next ((u.resumeErase fuse).bringUp a b failed cores)) ∧
    (s.start.perstWait = true → exec (.warmReset spi dt a b failed cores fuse) s = .next s) ∧
    (∀ cause, s.start.pendingReset = some (true, cause) → s.start.auxGood = true → s.start.sysResetLow = false →
      ∃ t : State, exec (.coldReset spi) s = .next (t.bootSteward spi) ∧ t.start.pwrEn = false ∧ t.start.railsUp = false ∧
        t.start.cause = cause ∧ t.start.pendingReset = none ∧ t.pwr.thermtripLow = false ∧ t.pwr.tripped = s.pwr.tripped ∧
        t.parts = [] ∧ t.stw.bootCount = s.stw.bootCount + 1) ∧
    (s.start.auxGood = true → (tripValue sensor).isSome = true → s.start.phase ≠ .tripped → ∃ t : State, exec (.tripComparator sensor) s = .next t ∧
      t.start.phase = .tripped ∧ t.start.pwrEn = false ∧ t.start.railsUp = false ∧ t.pwr.tripped = true ∧ t.pwr.thermtripLow = true ∧
      (s.pwr.tripped = false → t.pwr.tripSensor = BitVec.ofNat 16 sensor) ∧ t.parts = [] ∧ t.blocks = [] ∧ t.cores = []) ∧
    (tripValue sensor = none → exec (.tripComparator sensor) s = .next s) ∧
    (∀ (c : CmdRef) (k : Cmd), AtPoint s c k 0x0707 →
      let v := k.p 0 4
      let t := s.endCmd c Fin.ok
      (4 ≤ v → exec (.opReset c) s = .next (s.unlessLost c ((s.endCmd c (Fin.with stHeaderInvalid 0x16)).settle))) ∧
      (v = 0 → exec (.opReset c) s = .next (s.unlessLost c (({ t with start := { t.start with pendingReset := some (true, 2) } } : State).settle))) ∧
      (v = 1 → exec (.opReset c) s = .next (s.unlessLost c (({ t with start := { t.start with pendingReset := some (false, 6) } } : State).settle))) ∧
      (v = 3 → exec (.opReset c) s = .next (s.unlessLost c (((s.startCmd c).stewardReset 1).settle))) ∧
      (v = 2 → exec (.opReset c) s = .next (s.unlessLost c ((((s.startCmd c).resetPart (k.home c)).endCmd c { Fin.ok with
        c0 := ((s.partCmds (k.home c)).filter (fun r => !s.cmdDone r)).length }).settle))))
  )

/-! ### Rules about every step -/

/-- R534: no command clears a fuse: life-cycle bits, owner hashes, revoke bits, the media kill and the rollback counters. -/
def Obligations.FusesAreNeverCleared : Prop :=
  ∀ (s t : State), step s = .next t → FusesKept s t

/-- R579: no step lowers the number of the next event, so that a SEQ never repeats. -/
def Obligations.EventNumbersNeverRepeat : Prop :=
  ∀ (s t : State), s.stw.nextSeq ≤ s.stw.seqBound → step s = .next t → s.stw.nextSeq ≤ t.stw.nextSeq ∧ t.stw.nextSeq ≤ t.stw.seqBound

/-- R534, R543, R544, R579: the invariant of the model, which every step keeps. -/
def Obligations.GoodStateIsKept : Prop :=
  ∀ (s t : State), GoodState s → step s = .next t → GoodState t

/-- R668: the one command without a next state in some states: VIN48 good while PWR_EN is deasserted. No command is refused. -/
def Obligations.OnlySupplyOrderStops : Prop :=
  ∀ (i : Instr) (s : State),
    (∀ f, exec i s = .fault f → f = .supplyOutOfOrder ∧ s.start.pwrEn = false ∧ ∃ a b q cores, i = .vin48Good a b q cores) ∧
    (∀ r, exec i s ≠ .refused r)

/-- The state at reset: the Reset columns of the registers the manual gives, and the invariant. -/
def Obligations.ResetLeavesSpecValues : Prop :=
  let s := State.reset
  GoodState s ∧ s.pending = [] ∧
  (∀ p, s.part p = none) ∧ (∀ n, (s.stream n).state = .unassigned) ∧
  (∀ b r, (s.ring b r).sq.state = .disabled ∧ (s.ring b r).cq.state = .disabled) ∧
  (∀ k, (s.core k).seq.state = .idle ∧ (s.core k).seq.pc = 0 ∧ (s.core k).seq.wdog = 0x01000000#32 ∧ (s.core k).regs.bankPwr = 0 ∧
    (s.core k).arr.active = none ∧ (s.core k).arr.shadow = none ∧ (s.core k).arr.idleHold = 0x100#12) ∧
  s.tb.ctrlEn = false ∧ s.tb.periodMs = 0x3E8#10 ∧ s.tb.locked = false ∧ s.tb.stepped = false ∧
  s.stw.irqEn = false ∧ s.stw.minSev = 2#3 ∧ s.stw.running = false ∧ s.stw.evtLost = 0 ∧
  s.pwr.sol.state = .off ∧ s.pwr.sol.k = 0 ∧ s.pwr.tripped = false ∧ s.span.engineId = 0xFFE ∧
  (∀ n, (s.port n).enabled = false) ∧ (∀ d, (s.dieClk d).fabMhz = 1600 ∧ (s.dieClk d).colMhz = List.replicate 8 400) ∧
  s.sec.debugSession = none ∧ s.sec.sessions = [] ∧ s.sec.ide = []
end

