-- ==== Sys2Proof/Laws/Memory.lean ====
section
/-! SUPPORT. Sparse storage: what a read sees after a write, and that every operation keeps the canonical form. -/

namespace Sys2Proof.Machine

theorem SMap.risingFrom_mono {α : Type} {m : SMap α} {a b : Nat} (h : a ≤ b) (hm : SMap.risingFrom b m = true) :
    SMap.risingFrom a m = true := by
  cases m with
  | nil => rfl
  | cons p m =>
    simp only [SMap.risingFrom, Bool.and_eq_true, decide_eq_true_eq] at hm ⊢
    exact ⟨by omega, hm.2⟩

/-- No key below the bound is listed. -/
theorem SMap.get_of_lt {α : Type} (d : α) {m : SMap α} {lo a : Nat} (hm : SMap.risingFrom lo m = true) (h : a < lo) :
    SMap.get d m a = d := by
  induction m generalizing lo with
  | nil => rfl
  | cons p m ih =>
    obtain ⟨k, v⟩ := p
    simp only [SMap.risingFrom, Bool.and_eq_true, decide_eq_true_eq] at hm
    simp only [SMap.get]
    rw [if_neg (by omega)]
    exact ih hm.2 (by omega)

theorem SMap.get_put_self {α : Type} (d : α) (m : SMap α) (a : Nat) (x : α) : SMap.get d (SMap.put m a x) a = x := by
  induction m with
  | nil => simp [SMap.put, SMap.get]
  | cons p m ih =>
    obtain ⟨k, v⟩ := p
    simp only [SMap.put]
    split
    · simp [SMap.get]
    · split
      · simp [SMap.get]
      · simp only [SMap.get]
        rw [if_neg (by omega)]
        exact ih

theorem SMap.get_put_ne {α : Type} (d : α) (m : SMap α) {a b : Nat} (x : α) (h : b ≠ a) :
    SMap.get d (SMap.put m a x) b = SMap.get d m b := by
  induction m with
  | nil => simp [SMap.put, SMap.get, Ne.symm h]
  | cons p m ih =>
    obtain ⟨k, v⟩ := p
    simp only [SMap.put]
    split
    · simp [SMap.get, Ne.symm h]
    · split
      · rename_i h1 h2
        subst h2
        simp [SMap.get, Ne.symm h]
      · simp only [SMap.get]
        split
        · rfl
        · exact ih

theorem SMap.get_erase_self {α : Type} (d : α) {m : SMap α} {lo : Nat} (hm : SMap.risingFrom lo m = true) (a : Nat) :
    SMap.get d (SMap.erase m a) a = d := by
  induction m generalizing lo with
  | nil => rfl
  | cons p m ih =>
    obtain ⟨k, v⟩ := p
    simp only [SMap.risingFrom, Bool.and_eq_true, decide_eq_true_eq] at hm
    simp only [SMap.erase]
    split
    · rename_i h; subst h
      exact SMap.get_of_lt d hm.2 (by omega)
    · rename_i h
      simp only [SMap.get]
      rw [if_neg h]
      exact ih hm.2

theorem SMap.get_erase_ne {α : Type} (d : α) (m : SMap α) {a b : Nat} (h : b ≠ a) :
    SMap.get d (SMap.erase m a) b = SMap.get d m b := by
  induction m with
  | nil => rfl
  | cons p m ih =>
    obtain ⟨k, v⟩ := p
    simp only [SMap.erase]
    split
    · rename_i h1; subst h1
      simp [SMap.get, Ne.symm h]
    · simp only [SMap.get]
      split
      · rfl
      · exact ih

/-- A key that was written reads back. -/
theorem SMap.get_set_self {α : Type} [DecidableEq α] (d : α) {m : SMap α} {lo : Nat} (hm : SMap.risingFrom lo m = true)
    (a : Nat) (x : α) : SMap.get d (SMap.set d m a x) a = x := by
  unfold SMap.set
  split
  · rename_i h; subst h; exact SMap.get_erase_self _ hm a
  · exact SMap.get_put_self d m a x

/-- A value other than the default reads back in any list. -/
theorem SMap.get_set_self_of_ne {α : Type} [DecidableEq α] (d : α) (m : SMap α) (a : Nat) {x : α} (h : x ≠ d) :
    SMap.get d (SMap.set d m a x) a = x := by
  unfold SMap.set
  rw [if_neg h]
  exact SMap.get_put_self d m a x

/-- A write leaves every other key alone. -/
theorem SMap.get_set_ne {α : Type} [DecidableEq α] (d : α) (m : SMap α) {a b : Nat} (x : α) (h : b ≠ a) :
    SMap.get d (SMap.set d m a x) b = SMap.get d m b := by
  unfold SMap.set
  split
  · exact SMap.get_erase_ne d m h
  · exact SMap.get_put_ne d m x h

theorem SMap.risingFrom_put {α : Type} {m : SMap α} {lo a : Nat} (x : α) (hm : SMap.risingFrom lo m = true) (h : lo ≤ a) :
    SMap.risingFrom lo (SMap.put m a x) = true := by
  induction m generalizing lo with
  | nil => simp [SMap.put, SMap.risingFrom, h]
  | cons p m ih =>
    obtain ⟨k, v⟩ := p
    simp only [SMap.risingFrom, Bool.and_eq_true, decide_eq_true_eq] at hm
    simp only [SMap.put]
    split
    · rename_i h1
      simp only [SMap.risingFrom, Bool.and_eq_true, decide_eq_true_eq]
      exact ⟨h, by omega, hm.2⟩
    · split
      · rename_i h1 h2; subst h2
        simp only [SMap.risingFrom, Bool.and_eq_true, decide_eq_true_eq]
        exact ⟨h, hm.2⟩
      · simp only [SMap.risingFrom, Bool.and_eq_true, decide_eq_true_eq]
        exact ⟨hm.1, ih hm.2 (by omega)⟩

theorem SMap.risingFrom_erase {α : Type} {m : SMap α} {lo : Nat} (a : Nat) (hm : SMap.risingFrom lo m = true) :
    SMap.risingFrom lo (SMap.erase m a) = true := by
  induction m generalizing lo with
  | nil => rfl
  | cons p m ih =>
    obtain ⟨k, v⟩ := p
    simp only [SMap.risingFrom, Bool.and_eq_true, decide_eq_true_eq] at hm
    simp only [SMap.erase]
    split
    · exact SMap.risingFrom_mono (by omega) hm.2
    · simp only [SMap.risingFrom, Bool.and_eq_true, decide_eq_true_eq]
      exact ⟨hm.1, ih hm.2⟩

theorem SMap.mem_put {α : Type} {m : SMap α} {a : Nat} {x : α} {p : Nat × α} (h : p ∈ SMap.put m a x) :
    p = (a, x) ∨ p ∈ m := by
  induction m with
  | nil => simpa [SMap.put] using h
  | cons q m ih =>
    obtain ⟨k, v⟩ := q
    simp only [SMap.put] at h
    split at h
    · simpa using h
    · split at h
      · rcases List.mem_cons.1 h with h | h
        · exact .inl h
        · exact .inr (List.mem_cons_of_mem _ h)
      · rcases List.mem_cons.1 h with h | h
        · exact .inr (h ▸ List.mem_cons_self)
        · rcases ih h with h | h
          · exact .inl h
          · exact .inr (List.mem_cons_of_mem _ h)

theorem SMap.mem_erase {α : Type} {m : SMap α} {a : Nat} {p : Nat × α} (h : p ∈ SMap.erase m a) : p ∈ m := by
  induction m with
  | nil => exact h
  | cons q m ih =>
    obtain ⟨k, v⟩ := q
    simp only [SMap.erase] at h
    split at h
    · exact List.mem_cons_of_mem _ h
    · rcases List.mem_cons.1 h with h | h
      · exact h ▸ List.mem_cons_self
      · exact List.mem_cons_of_mem _ (ih h)

/-- The canonical form says that keys rise and that no entry holds the default. -/
theorem SMap.wf_iff {α : Type} [DecidableEq α] (d : α) (m : SMap α) :
    SMap.wf d m = true ↔ SMap.risingFrom 0 m = true ∧ ∀ p ∈ m, p.2 ≠ d := by
  simp [SMap.wf, List.all_eq_true]

/-- Every write keeps the canonical form. -/
theorem SMap.wf_set {α : Type} [DecidableEq α] (d : α) {m : SMap α} (a : Nat) (x : α) (hm : SMap.wf d m = true) :
    SMap.wf d (SMap.set d m a x) = true := by
  rw [SMap.wf_iff] at hm ⊢
  unfold SMap.set
  split
  · exact ⟨SMap.risingFrom_erase a hm.1, fun p hp => hm.2 p (SMap.mem_erase hp)⟩
  · rename_i h
    refine ⟨SMap.risingFrom_put x hm.1 (Nat.zero_le a), fun p hp => ?_⟩
    rcases SMap.mem_put hp with hp | hp
    · subst hp; exact h
    · exact hm.2 p hp

theorem SMap.risingFrom_filter {α : Type} {m : SMap α} {lo : Nat} (f : Nat × α → Bool) (hm : SMap.risingFrom lo m = true) :
    SMap.risingFrom lo (m.filter f) = true := by
  induction m generalizing lo with
  | nil => rfl
  | cons p m ih =>
    obtain ⟨k, v⟩ := p
    simp only [SMap.risingFrom, Bool.and_eq_true, decide_eq_true_eq] at hm
    rw [List.filter_cons]
    split
    · simp only [SMap.risingFrom, Bool.and_eq_true, decide_eq_true_eq]
      exact ⟨hm.1, ih hm.2⟩
    · exact SMap.risingFrom_mono (by omega) (ih hm.2)

theorem SMap.wf_filter {α : Type} [DecidableEq α] (d : α) {m : SMap α} (f : Nat × α → Bool) (hm : SMap.wf d m = true) :
    SMap.wf d (m.filter f) = true := by
  rw [SMap.wf_iff] at hm ⊢
  exact ⟨SMap.risingFrom_filter f hm.1, fun p hp => hm.2 p (List.mem_of_mem_filter hp)⟩

theorem SMap.wf_clearRange {α : Type} [DecidableEq α] (d : α) {m : SMap α} (a n : Nat) (hm : SMap.wf d m = true) :
    SMap.wf d (SMap.clearRange m a n) = true := SMap.wf_filter d _ hm

theorem SMap.wf_setRange {α : Type} [DecidableEq α] (d : α) (xs : List α) {m : SMap α} (a : Nat) (hm : SMap.wf d m = true) :
    SMap.wf d (SMap.setRange d m a xs) = true := by
  induction xs generalizing m a with
  | nil => exact hm
  | cons x xs ih => exact ih (a + 1) (SMap.wf_set d a x hm)

/-- A cleared range reads as the default; every other key as before. -/
theorem SMap.get_clearRange {α : Type} (d : α) (m : SMap α) (a n b : Nat) :
    SMap.get d (SMap.clearRange m a n) b = if a ≤ b ∧ b < a + n then d else SMap.get d m b := by
  induction m with
  | nil => simp [SMap.clearRange, SMap.get]
  | cons p m ih =>
    obtain ⟨k, v⟩ := p
    unfold SMap.clearRange at ih ⊢
    rw [List.filter_cons]
    split
    · rename_i h
      simp only [decide_eq_true_eq] at h
      simp only [SMap.get]
      split
      · rename_i h1; subst h1
        rw [if_neg (by omega)]
      · exact ih
    · rename_i h
      simp only [decide_eq_true_eq] at h
      rw [ih]
      simp only [SMap.get]
      split
      · rfl
      · rw [if_neg (by omega)]

/-- A run of writes leaves every key outside it alone. -/
theorem SMap.get_setRange_out {α : Type} [DecidableEq α] (d : α) (xs : List α) (m : SMap α) {a b : Nat}
    (h : b < a ∨ a + xs.length ≤ b) : SMap.get d (SMap.setRange d m a xs) b = SMap.get d m b := by
  induction xs generalizing m a with
  | nil => rfl
  | cons x xs ih =>
    simp only [List.length_cons] at h
    simp only [SMap.setRange]
    rw [ih _ (by omega)]
    exact SMap.get_set_ne d m x (by omega)

/-! ### Bytes -/

theorem Memory.byte_setByte_self {m : Memory} (hm : Memory.wf m = true) (a : Nat) (b : Byte) :
    Memory.byte (Memory.setByte m a b) a = b :=
  SMap.get_set_self _ ((SMap.wf_iff _ _).1 hm).1 a b

theorem Memory.byte_setByte_ne (m : Memory) {a x : Nat} (b : Byte) (h : x ≠ a) :
    Memory.byte (Memory.setByte m a b) x = Memory.byte m x := SMap.get_set_ne _ _ _ h

theorem Memory.wf_setByte {m : Memory} (a : Nat) (b : Byte) (hm : Memory.wf m = true) : Memory.wf (Memory.setByte m a b) = true :=
  SMap.wf_set _ _ _ hm

theorem Memory.wf_write (bs : List Byte) {m : Memory} (a : Nat) (hm : Memory.wf m = true) :
    Memory.wf (Memory.write m a bs) = true := by
  induction bs generalizing m a with
  | nil => exact hm
  | cons b bs ih => exact ih (a + 1) (Memory.wf_setByte a b hm)

theorem Memory.wf_zero {m : Memory} (a n : Nat) (hm : Memory.wf m = true) : Memory.wf (Memory.zero m a n) = true :=
  SMap.wf_clearRange _ _ _ hm

theorem Memory.wf_copyFrom (src : Memory) (a n : Nat) {dst : Memory} (b : Nat) (hd : Memory.wf dst = true) :
    Memory.wf (Memory.copyFrom src a n dst b) = true := by
  unfold Memory.copyFrom
  generalize src.filter _ = ps
  have h0 := Memory.wf_zero b n hd
  revert h0
  generalize Memory.zero dst b n = m
  intro h0
  induction ps generalizing m with
  | nil => exact h0
  | cons p ps ih => exact ih _ (Memory.wf_setByte _ _ h0)

/-- Writing leaves every byte outside the run alone. -/
theorem Memory.byte_write_out (bs : List Byte) (m : Memory) {a x : Nat} (h : x < a ∨ a + bs.length ≤ x) :
    Memory.byte (Memory.write m a bs) x = Memory.byte m x := by
  induction bs generalizing m a with
  | nil => rfl
  | cons b bs ih =>
    simp only [List.length_cons] at h
    simp only [Memory.write]
    rw [ih _ (by omega)]
    exact Memory.byte_setByte_ne m b (by omega)

/-- Byte i of a run that was written reads back. -/
theorem Memory.byte_write_in (bs : List Byte) {m : Memory} (hm : Memory.wf m = true) (a i : Nat) (h : i < bs.length) :
    Memory.byte (Memory.write m a bs) (a + i) = bs[i] := by
  induction bs generalizing m a i with
  | nil => simp at h
  | cons b bs ih =>
    simp only [Memory.write]
    cases i with
    | zero =>
      rw [Memory.byte_write_out _ _ (by omega)]
      exact Memory.byte_setByte_self hm a b
    | succ i =>
      have h1 : i < bs.length := by simpa using h
      have h2 := ih (Memory.wf_setByte a b hm) (a + 1) i h1
      rw [show a + 1 + i = a + (i + 1) by omega] at h2
      simpa using h2

/-- A zeroed run reads zero; every other byte as before. -/
theorem Memory.byte_zero (m : Memory) (a n x : Nat) :
    Memory.byte (Memory.zero m a n) x = if a ≤ x ∧ x < a + n then 0 else Memory.byte m x :=
  SMap.get_clearRange _ _ _ _ _

/-- Every memory of the state after reset is canonical. -/
theorem reset_memories_wf :
    Memory.wf State.reset.mem.hostMem = true ∧ SMap.wf Core.reset State.reset.cores = true ∧
    SMap.wf Die.reset State.reset.dies = true ∧ SMap.wf none State.reset.parts = true := by decide

end Sys2Proof.Machine
end

