-- ==== Sys2Proof/Laws/Sort.lean ====
section
/-! SUPPORT. Sorting keeps the elements of a list, and leaves them in order. -/

namespace Sys2Proof.Machine

theorem mergeStep_perm {α : Type} (le : α → α → Bool) (x : α) (xs : List α) (f : List α → List α)
    (hf : ∀ l, (f l).Perm (xs ++ l)) : ∀ ys, (mergeStep le x xs f ys).Perm (x :: xs ++ ys)
  | [] => by simp [mergeStep]
  | y :: ys => by
    unfold mergeStep
    split
    · exact (hf _).cons x
    · exact ((mergeStep_perm le x xs f hf ys).cons y).trans (List.perm_middle.symm)

theorem mergeBy_perm {α : Type} (le : α → α → Bool) : ∀ xs ys : List α, (mergeBy le xs ys).Perm (xs ++ ys)
  | [], _ => List.Perm.refl _
  | x :: xs, ys => mergeStep_perm le x xs _ (fun l => mergeBy_perm le xs l) ys

theorem sortUpTo_perm {α : Type} (le : α → α → Bool) : ∀ (n : Nat) (l : List α), (sortUpTo le n l).Perm l
  | 0, _ => List.Perm.refl _
  | n + 1, l => by
    unfold sortUpTo
    split
    · exact List.Perm.refl _
    · refine (mergeBy_perm le _ _).trans (((sortUpTo_perm le n _).append (sortUpTo_perm le n _)).trans ?_)
      rw [List.take_append_drop]

/-- Sorting keeps the elements. -/
theorem sortBy_perm {α : Type} (le : α → α → Bool) (l : List α) : (sortBy le l).Perm l := sortUpTo_perm le _ l

theorem mergeStep_pairwise {α : Type} (le : α → α → Bool) (tr : ∀ a b c, le a b = true → le b c = true → le a c = true)
    (tot : ∀ a b, le a b = true ∨ le b a = true) (x : α) (xs : List α) (f : List α → List α)
    (hp : ∀ l, (f l).Perm (xs ++ l)) (hf : ∀ l, l.Pairwise (fun a b => le a b = true) → (f l).Pairwise (fun a b => le a b = true))
    (hx : (x :: xs).Pairwise (fun a b => le a b = true)) :
    ∀ ys, ys.Pairwise (fun a b => le a b = true) → (mergeStep le x xs f ys).Pairwise (fun a b => le a b = true)
  | [], _ => by simpa [mergeStep] using hx
  | y :: ys, hy => by
    unfold mergeStep
    have hx' := List.pairwise_cons.mp hx
    have hy' := List.pairwise_cons.mp hy
    split
    · rename_i h
      refine List.pairwise_cons.mpr ⟨fun z hz => ?_, hf _ hy⟩
      rcases List.mem_append.mp ((hp _).mem_iff.mp hz) with hz | hz
      · exact hx'.1 z hz
      · rcases List.mem_cons.mp hz with rfl | hz
        · exact h
        · exact tr _ _ _ h (hy'.1 z hz)
    · rename_i h
      have hyx : le y x = true := (tot x y).resolve_left h
      refine List.pairwise_cons.mpr ⟨fun z hz => ?_, mergeStep_pairwise le tr tot x xs f hp hf hx ys hy'.2⟩
      rcases List.mem_append.mp ((mergeStep_perm le x xs f hp ys).mem_iff.mp hz) with hz | hz
      · rcases List.mem_cons.mp hz with rfl | hz
        · exact hyx
        · exact tr _ _ _ hyx (hx'.1 z hz)
      · exact hy'.1 z hz

theorem mergeBy_pairwise {α : Type} (le : α → α → Bool) (tr : ∀ a b c, le a b = true → le b c = true → le a c = true)
    (tot : ∀ a b, le a b = true ∨ le b a = true) :
    ∀ xs ys : List α, xs.Pairwise (fun a b => le a b = true) → ys.Pairwise (fun a b => le a b = true) →
      (mergeBy le xs ys).Pairwise (fun a b => le a b = true)
  | [], _, _, hy => hy
  | x :: xs, ys, hx, hy => mergeStep_pairwise le tr tot x xs _ (fun l => mergeBy_perm le xs l)
      (fun l hl => mergeBy_pairwise le tr tot xs l (List.pairwise_cons.mp hx).2 hl) hx ys hy

theorem sortUpTo_pairwise {α : Type} (le : α → α → Bool) (tr : ∀ a b c, le a b = true → le b c = true → le a c = true)
    (tot : ∀ a b, le a b = true ∨ le b a = true) :
    ∀ (n : Nat) (l : List α), l.length ≤ 2 ^ n → (sortUpTo le n l).Pairwise (fun a b => le a b = true)
  | 0, l, h => by
    match l, h with
    | [], _ => exact List.Pairwise.nil
    | [a], _ => exact List.pairwise_singleton _ a
    | _ :: _ :: _, h => simp at h
  | n + 1, l, h => by
    unfold sortUpTo
    split
    · rename_i h2
      match l, h2 with
      | [], _ => exact List.Pairwise.nil
      | [a], _ => exact List.pairwise_singleton _ a
      | _ :: _ :: _, h2 => simp at h2
    · rw [pow_succ] at h
      exact mergeBy_pairwise le tr tot _ _
        (sortUpTo_pairwise le tr tot n _ (by rw [List.length_take]; omega))
        (sortUpTo_pairwise le tr tot n _ (by rw [List.length_drop]; omega))

/-- Sorting by a total order leaves the elements in order. -/
theorem sortBy_pairwise {α : Type} (le : α → α → Bool) (tr : ∀ a b c, le a b = true → le b c = true → le a c = true)
    (tot : ∀ a b, le a b = true ∨ le b a = true) (l : List α) : (sortBy le l).Pairwise (fun a b => le a b = true) :=
  sortUpTo_pairwise le tr tot _ l (Nat.lt_log2_self).le

end Sys2Proof.Machine
end

