-- ==== Sys2Proof/Laws/State.lean ====
section
/-! SUPPORT. One lemma for each field of State and each update of it: what an update leaves alone. -/

namespace Sys2Proof.Machine

@[simp] theorem State.setCore_start (s : State) (k : Nat) (c : Core) : (s.setCore k c).start = s.start := rfl
@[simp] theorem State.setCore_host (s : State) (k : Nat) (c : Core) : (s.setCore k c).host = s.host := rfl
@[simp] theorem State.setCore_blocks (s : State) (k : Nat) (c : Core) : (s.setCore k c).blocks = s.blocks := rfl
@[simp] theorem State.setCore_mem (s : State) (k : Nat) (c : Core) : (s.setCore k c).mem = s.mem := rfl
@[simp] theorem State.setCore_parts (s : State) (k : Nat) (c : Core) : (s.setCore k c).parts = s.parts := rfl
@[simp] theorem State.setCore_dies (s : State) (k : Nat) (c : Core) : (s.setCore k c).dies = s.dies := rfl
@[simp] theorem State.setCore_hub (s : State) (k : Nat) (c : Core) : (s.setCore k c).hub = s.hub := rfl
@[simp] theorem State.setCore_flash (s : State) (k : Nat) (c : Core) : (s.setCore k c).flash = s.flash := rfl
@[simp] theorem State.setCore_span (s : State) (k : Nat) (c : Core) : (s.setCore k c).span = s.span := rfl
@[simp] theorem State.setCore_cap (s : State) (k : Nat) (c : Core) : (s.setCore k c).cap = s.cap := rfl
@[simp] theorem State.setCore_sec (s : State) (k : Nat) (c : Core) : (s.setCore k c).sec = s.sec := rfl
@[simp] theorem State.setCore_stw (s : State) (k : Nat) (c : Core) : (s.setCore k c).stw = s.stw := rfl
@[simp] theorem State.setCore_fw (s : State) (k : Nat) (c : Core) : (s.setCore k c).fw = s.fw := rfl
@[simp] theorem State.setCore_clk (s : State) (k : Nat) (c : Core) : (s.setCore k c).clk = s.clk := rfl
@[simp] theorem State.setCore_pwr (s : State) (k : Nat) (c : Core) : (s.setCore k c).pwr = s.pwr := rfl
@[simp] theorem State.setCore_mgmt (s : State) (k : Nat) (c : Core) : (s.setCore k c).mgmt = s.mgmt := rfl
@[simp] theorem State.setCore_tb (s : State) (k : Nat) (c : Core) : (s.setCore k c).tb = s.tb := rfl
@[simp] theorem State.setCore_freeCtr (s : State) (k : Nat) (c : Core) : (s.setCore k c).freeCtr = s.freeCtr := rfl
@[simp] theorem State.setCore_pending (s : State) (k : Nat) (c : Core) : (s.setCore k c).pending = s.pending := rfl

@[simp] theorem State.setDie_start (s : State) (d : Nat) (x : Die) : (s.setDie d x).start = s.start := rfl
@[simp] theorem State.setDie_host (s : State) (d : Nat) (x : Die) : (s.setDie d x).host = s.host := rfl
@[simp] theorem State.setDie_blocks (s : State) (d : Nat) (x : Die) : (s.setDie d x).blocks = s.blocks := rfl
@[simp] theorem State.setDie_mem (s : State) (d : Nat) (x : Die) : (s.setDie d x).mem = s.mem := rfl
@[simp] theorem State.setDie_parts (s : State) (d : Nat) (x : Die) : (s.setDie d x).parts = s.parts := rfl
@[simp] theorem State.setDie_cores (s : State) (d : Nat) (x : Die) : (s.setDie d x).cores = s.cores := rfl
@[simp] theorem State.setDie_hub (s : State) (d : Nat) (x : Die) : (s.setDie d x).hub = s.hub := rfl
@[simp] theorem State.setDie_flash (s : State) (d : Nat) (x : Die) : (s.setDie d x).flash = s.flash := rfl
@[simp] theorem State.setDie_span (s : State) (d : Nat) (x : Die) : (s.setDie d x).span = s.span := rfl
@[simp] theorem State.setDie_cap (s : State) (d : Nat) (x : Die) : (s.setDie d x).cap = s.cap := rfl
@[simp] theorem State.setDie_sec (s : State) (d : Nat) (x : Die) : (s.setDie d x).sec = s.sec := rfl
@[simp] theorem State.setDie_stw (s : State) (d : Nat) (x : Die) : (s.setDie d x).stw = s.stw := rfl
@[simp] theorem State.setDie_fw (s : State) (d : Nat) (x : Die) : (s.setDie d x).fw = s.fw := rfl
@[simp] theorem State.setDie_clk (s : State) (d : Nat) (x : Die) : (s.setDie d x).clk = s.clk := rfl
@[simp] theorem State.setDie_pwr (s : State) (d : Nat) (x : Die) : (s.setDie d x).pwr = s.pwr := rfl
@[simp] theorem State.setDie_mgmt (s : State) (d : Nat) (x : Die) : (s.setDie d x).mgmt = s.mgmt := rfl
@[simp] theorem State.setDie_tb (s : State) (d : Nat) (x : Die) : (s.setDie d x).tb = s.tb := rfl
@[simp] theorem State.setDie_freeCtr (s : State) (d : Nat) (x : Die) : (s.setDie d x).freeCtr = s.freeCtr := rfl
@[simp] theorem State.setDie_pending (s : State) (d : Nat) (x : Die) : (s.setDie d x).pending = s.pending := rfl

@[simp] theorem State.updCore_start (s : State) (k : Nat) (f : Core → Core) : (s.updCore k f).start = s.start := rfl
@[simp] theorem State.updCore_host (s : State) (k : Nat) (f : Core → Core) : (s.updCore k f).host = s.host := rfl
@[simp] theorem State.updCore_blocks (s : State) (k : Nat) (f : Core → Core) : (s.updCore k f).blocks = s.blocks := rfl
@[simp] theorem State.updCore_mem (s : State) (k : Nat) (f : Core → Core) : (s.updCore k f).mem = s.mem := rfl
@[simp] theorem State.updCore_parts (s : State) (k : Nat) (f : Core → Core) : (s.updCore k f).parts = s.parts := rfl
@[simp] theorem State.updCore_dies (s : State) (k : Nat) (f : Core → Core) : (s.updCore k f).dies = s.dies := rfl
@[simp] theorem State.updCore_hub (s : State) (k : Nat) (f : Core → Core) : (s.updCore k f).hub = s.hub := rfl
@[simp] theorem State.updCore_flash (s : State) (k : Nat) (f : Core → Core) : (s.updCore k f).flash = s.flash := rfl
@[simp] theorem State.updCore_span (s : State) (k : Nat) (f : Core → Core) : (s.updCore k f).span = s.span := rfl
@[simp] theorem State.updCore_cap (s : State) (k : Nat) (f : Core → Core) : (s.updCore k f).cap = s.cap := rfl
@[simp] theorem State.updCore_sec (s : State) (k : Nat) (f : Core → Core) : (s.updCore k f).sec = s.sec := rfl
@[simp] theorem State.updCore_stw (s : State) (k : Nat) (f : Core → Core) : (s.updCore k f).stw = s.stw := rfl
@[simp] theorem State.updCore_fw (s : State) (k : Nat) (f : Core → Core) : (s.updCore k f).fw = s.fw := rfl
@[simp] theorem State.updCore_clk (s : State) (k : Nat) (f : Core → Core) : (s.updCore k f).clk = s.clk := rfl
@[simp] theorem State.updCore_pwr (s : State) (k : Nat) (f : Core → Core) : (s.updCore k f).pwr = s.pwr := rfl
@[simp] theorem State.updCore_mgmt (s : State) (k : Nat) (f : Core → Core) : (s.updCore k f).mgmt = s.mgmt := rfl
@[simp] theorem State.updCore_tb (s : State) (k : Nat) (f : Core → Core) : (s.updCore k f).tb = s.tb := rfl
@[simp] theorem State.updCore_freeCtr (s : State) (k : Nat) (f : Core → Core) : (s.updCore k f).freeCtr = s.freeCtr := rfl
@[simp] theorem State.updCore_pending (s : State) (k : Nat) (f : Core → Core) : (s.updCore k f).pending = s.pending := rfl

@[simp] theorem State.updDie_start (s : State) (d : Nat) (f : Die → Die) : (s.updDie d f).start = s.start := rfl
@[simp] theorem State.updDie_host (s : State) (d : Nat) (f : Die → Die) : (s.updDie d f).host = s.host := rfl
@[simp] theorem State.updDie_blocks (s : State) (d : Nat) (f : Die → Die) : (s.updDie d f).blocks = s.blocks := rfl
@[simp] theorem State.updDie_mem (s : State) (d : Nat) (f : Die → Die) : (s.updDie d f).mem = s.mem := rfl
@[simp] theorem State.updDie_parts (s : State) (d : Nat) (f : Die → Die) : (s.updDie d f).parts = s.parts := rfl
@[simp] theorem State.updDie_cores (s : State) (d : Nat) (f : Die → Die) : (s.updDie d f).cores = s.cores := rfl
@[simp] theorem State.updDie_hub (s : State) (d : Nat) (f : Die → Die) : (s.updDie d f).hub = s.hub := rfl
@[simp] theorem State.updDie_flash (s : State) (d : Nat) (f : Die → Die) : (s.updDie d f).flash = s.flash := rfl
@[simp] theorem State.updDie_span (s : State) (d : Nat) (f : Die → Die) : (s.updDie d f).span = s.span := rfl
@[simp] theorem State.updDie_cap (s : State) (d : Nat) (f : Die → Die) : (s.updDie d f).cap = s.cap := rfl
@[simp] theorem State.updDie_sec (s : State) (d : Nat) (f : Die → Die) : (s.updDie d f).sec = s.sec := rfl
@[simp] theorem State.updDie_stw (s : State) (d : Nat) (f : Die → Die) : (s.updDie d f).stw = s.stw := rfl
@[simp] theorem State.updDie_fw (s : State) (d : Nat) (f : Die → Die) : (s.updDie d f).fw = s.fw := rfl
@[simp] theorem State.updDie_clk (s : State) (d : Nat) (f : Die → Die) : (s.updDie d f).clk = s.clk := rfl
@[simp] theorem State.updDie_pwr (s : State) (d : Nat) (f : Die → Die) : (s.updDie d f).pwr = s.pwr := rfl
@[simp] theorem State.updDie_mgmt (s : State) (d : Nat) (f : Die → Die) : (s.updDie d f).mgmt = s.mgmt := rfl
@[simp] theorem State.updDie_tb (s : State) (d : Nat) (f : Die → Die) : (s.updDie d f).tb = s.tb := rfl
@[simp] theorem State.updDie_freeCtr (s : State) (d : Nat) (f : Die → Die) : (s.updDie d f).freeCtr = s.freeCtr := rfl
@[simp] theorem State.updDie_pending (s : State) (d : Nat) (f : Die → Die) : (s.updDie d f).pending = s.pending := rfl

@[simp] theorem State.setPart_start (s : State) (p : Nat) (x : Option Partition) : (s.setPart p x).start = s.start := rfl
@[simp] theorem State.setPart_host (s : State) (p : Nat) (x : Option Partition) : (s.setPart p x).host = s.host := rfl
@[simp] theorem State.setPart_blocks (s : State) (p : Nat) (x : Option Partition) : (s.setPart p x).blocks = s.blocks := rfl
@[simp] theorem State.setPart_mem (s : State) (p : Nat) (x : Option Partition) : (s.setPart p x).mem = s.mem := rfl
@[simp] theorem State.setPart_cores (s : State) (p : Nat) (x : Option Partition) : (s.setPart p x).cores = s.cores := rfl
@[simp] theorem State.setPart_dies (s : State) (p : Nat) (x : Option Partition) : (s.setPart p x).dies = s.dies := rfl
@[simp] theorem State.setPart_hub (s : State) (p : Nat) (x : Option Partition) : (s.setPart p x).hub = s.hub := rfl
@[simp] theorem State.setPart_flash (s : State) (p : Nat) (x : Option Partition) : (s.setPart p x).flash = s.flash := rfl
@[simp] theorem State.setPart_span (s : State) (p : Nat) (x : Option Partition) : (s.setPart p x).span = s.span := rfl
@[simp] theorem State.setPart_cap (s : State) (p : Nat) (x : Option Partition) : (s.setPart p x).cap = s.cap := rfl
@[simp] theorem State.setPart_sec (s : State) (p : Nat) (x : Option Partition) : (s.setPart p x).sec = s.sec := rfl
@[simp] theorem State.setPart_stw (s : State) (p : Nat) (x : Option Partition) : (s.setPart p x).stw = s.stw := rfl
@[simp] theorem State.setPart_fw (s : State) (p : Nat) (x : Option Partition) : (s.setPart p x).fw = s.fw := rfl
@[simp] theorem State.setPart_clk (s : State) (p : Nat) (x : Option Partition) : (s.setPart p x).clk = s.clk := rfl
@[simp] theorem State.setPart_pwr (s : State) (p : Nat) (x : Option Partition) : (s.setPart p x).pwr = s.pwr := rfl
@[simp] theorem State.setPart_mgmt (s : State) (p : Nat) (x : Option Partition) : (s.setPart p x).mgmt = s.mgmt := rfl
@[simp] theorem State.setPart_tb (s : State) (p : Nat) (x : Option Partition) : (s.setPart p x).tb = s.tb := rfl
@[simp] theorem State.setPart_freeCtr (s : State) (p : Nat) (x : Option Partition) : (s.setPart p x).freeCtr = s.freeCtr := rfl
@[simp] theorem State.setPart_pending (s : State) (p : Nat) (x : Option Partition) : (s.setPart p x).pending = s.pending := rfl

@[simp] theorem State.setBlock_start (s : State) (b : Nat) (q : QBlock) : (s.setBlock b q).start = s.start := rfl
@[simp] theorem State.setBlock_host (s : State) (b : Nat) (q : QBlock) : (s.setBlock b q).host = s.host := rfl
@[simp] theorem State.setBlock_mem (s : State) (b : Nat) (q : QBlock) : (s.setBlock b q).mem = s.mem := rfl
@[simp] theorem State.setBlock_parts (s : State) (b : Nat) (q : QBlock) : (s.setBlock b q).parts = s.parts := rfl
@[simp] theorem State.setBlock_cores (s : State) (b : Nat) (q : QBlock) : (s.setBlock b q).cores = s.cores := rfl
@[simp] theorem State.setBlock_dies (s : State) (b : Nat) (q : QBlock) : (s.setBlock b q).dies = s.dies := rfl
@[simp] theorem State.setBlock_hub (s : State) (b : Nat) (q : QBlock) : (s.setBlock b q).hub = s.hub := rfl
@[simp] theorem State.setBlock_flash (s : State) (b : Nat) (q : QBlock) : (s.setBlock b q).flash = s.flash := rfl
@[simp] theorem State.setBlock_span (s : State) (b : Nat) (q : QBlock) : (s.setBlock b q).span = s.span := rfl
@[simp] theorem State.setBlock_cap (s : State) (b : Nat) (q : QBlock) : (s.setBlock b q).cap = s.cap := rfl
@[simp] theorem State.setBlock_sec (s : State) (b : Nat) (q : QBlock) : (s.setBlock b q).sec = s.sec := rfl
@[simp] theorem State.setBlock_stw (s : State) (b : Nat) (q : QBlock) : (s.setBlock b q).stw = s.stw := rfl
@[simp] theorem State.setBlock_fw (s : State) (b : Nat) (q : QBlock) : (s.setBlock b q).fw = s.fw := rfl
@[simp] theorem State.setBlock_clk (s : State) (b : Nat) (q : QBlock) : (s.setBlock b q).clk = s.clk := rfl
@[simp] theorem State.setBlock_pwr (s : State) (b : Nat) (q : QBlock) : (s.setBlock b q).pwr = s.pwr := rfl
@[simp] theorem State.setBlock_mgmt (s : State) (b : Nat) (q : QBlock) : (s.setBlock b q).mgmt = s.mgmt := rfl
@[simp] theorem State.setBlock_tb (s : State) (b : Nat) (q : QBlock) : (s.setBlock b q).tb = s.tb := rfl
@[simp] theorem State.setBlock_freeCtr (s : State) (b : Nat) (q : QBlock) : (s.setBlock b q).freeCtr = s.freeCtr := rfl
@[simp] theorem State.setBlock_pending (s : State) (b : Nat) (q : QBlock) : (s.setBlock b q).pending = s.pending := rfl

@[simp] theorem State.updBlock_start (s : State) (b : Nat) (f : QBlock → QBlock) : (s.updBlock b f).start = s.start := rfl
@[simp] theorem State.updBlock_host (s : State) (b : Nat) (f : QBlock → QBlock) : (s.updBlock b f).host = s.host := rfl
@[simp] theorem State.updBlock_mem (s : State) (b : Nat) (f : QBlock → QBlock) : (s.updBlock b f).mem = s.mem := rfl
@[simp] theorem State.updBlock_parts (s : State) (b : Nat) (f : QBlock → QBlock) : (s.updBlock b f).parts = s.parts := rfl
@[simp] theorem State.updBlock_cores (s : State) (b : Nat) (f : QBlock → QBlock) : (s.updBlock b f).cores = s.cores := rfl
@[simp] theorem State.updBlock_dies (s : State) (b : Nat) (f : QBlock → QBlock) : (s.updBlock b f).dies = s.dies := rfl
@[simp] theorem State.updBlock_hub (s : State) (b : Nat) (f : QBlock → QBlock) : (s.updBlock b f).hub = s.hub := rfl
@[simp] theorem State.updBlock_flash (s : State) (b : Nat) (f : QBlock → QBlock) : (s.updBlock b f).flash = s.flash := rfl
@[simp] theorem State.updBlock_span (s : State) (b : Nat) (f : QBlock → QBlock) : (s.updBlock b f).span = s.span := rfl
@[simp] theorem State.updBlock_cap (s : State) (b : Nat) (f : QBlock → QBlock) : (s.updBlock b f).cap = s.cap := rfl
@[simp] theorem State.updBlock_sec (s : State) (b : Nat) (f : QBlock → QBlock) : (s.updBlock b f).sec = s.sec := rfl
@[simp] theorem State.updBlock_stw (s : State) (b : Nat) (f : QBlock → QBlock) : (s.updBlock b f).stw = s.stw := rfl
@[simp] theorem State.updBlock_fw (s : State) (b : Nat) (f : QBlock → QBlock) : (s.updBlock b f).fw = s.fw := rfl
@[simp] theorem State.updBlock_clk (s : State) (b : Nat) (f : QBlock → QBlock) : (s.updBlock b f).clk = s.clk := rfl
@[simp] theorem State.updBlock_pwr (s : State) (b : Nat) (f : QBlock → QBlock) : (s.updBlock b f).pwr = s.pwr := rfl
@[simp] theorem State.updBlock_mgmt (s : State) (b : Nat) (f : QBlock → QBlock) : (s.updBlock b f).mgmt = s.mgmt := rfl
@[simp] theorem State.updBlock_tb (s : State) (b : Nat) (f : QBlock → QBlock) : (s.updBlock b f).tb = s.tb := rfl
@[simp] theorem State.updBlock_freeCtr (s : State) (b : Nat) (f : QBlock → QBlock) : (s.updBlock b f).freeCtr = s.freeCtr := rfl
@[simp] theorem State.updBlock_pending (s : State) (b : Nat) (f : QBlock → QBlock) : (s.updBlock b f).pending = s.pending := rfl

@[simp] theorem State.updRing_start (s : State) (b r : Nat) (f : Ring → Ring) : (s.updRing b r f).start = s.start := rfl
@[simp] theorem State.updRing_host (s : State) (b r : Nat) (f : Ring → Ring) : (s.updRing b r f).host = s.host := rfl
@[simp] theorem State.updRing_mem (s : State) (b r : Nat) (f : Ring → Ring) : (s.updRing b r f).mem = s.mem := rfl
@[simp] theorem State.updRing_parts (s : State) (b r : Nat) (f : Ring → Ring) : (s.updRing b r f).parts = s.parts := rfl
@[simp] theorem State.updRing_cores (s : State) (b r : Nat) (f : Ring → Ring) : (s.updRing b r f).cores = s.cores := rfl
@[simp] theorem State.updRing_dies (s : State) (b r : Nat) (f : Ring → Ring) : (s.updRing b r f).dies = s.dies := rfl
@[simp] theorem State.updRing_hub (s : State) (b r : Nat) (f : Ring → Ring) : (s.updRing b r f).hub = s.hub := rfl
@[simp] theorem State.updRing_flash (s : State) (b r : Nat) (f : Ring → Ring) : (s.updRing b r f).flash = s.flash := rfl
@[simp] theorem State.updRing_span (s : State) (b r : Nat) (f : Ring → Ring) : (s.updRing b r f).span = s.span := rfl
@[simp] theorem State.updRing_cap (s : State) (b r : Nat) (f : Ring → Ring) : (s.updRing b r f).cap = s.cap := rfl
@[simp] theorem State.updRing_sec (s : State) (b r : Nat) (f : Ring → Ring) : (s.updRing b r f).sec = s.sec := rfl
@[simp] theorem State.updRing_stw (s : State) (b r : Nat) (f : Ring → Ring) : (s.updRing b r f).stw = s.stw := rfl
@[simp] theorem State.updRing_fw (s : State) (b r : Nat) (f : Ring → Ring) : (s.updRing b r f).fw = s.fw := rfl
@[simp] theorem State.updRing_clk (s : State) (b r : Nat) (f : Ring → Ring) : (s.updRing b r f).clk = s.clk := rfl
@[simp] theorem State.updRing_pwr (s : State) (b r : Nat) (f : Ring → Ring) : (s.updRing b r f).pwr = s.pwr := rfl
@[simp] theorem State.updRing_mgmt (s : State) (b r : Nat) (f : Ring → Ring) : (s.updRing b r f).mgmt = s.mgmt := rfl
@[simp] theorem State.updRing_tb (s : State) (b r : Nat) (f : Ring → Ring) : (s.updRing b r f).tb = s.tb := rfl
@[simp] theorem State.updRing_freeCtr (s : State) (b r : Nat) (f : Ring → Ring) : (s.updRing b r f).freeCtr = s.freeCtr := rfl
@[simp] theorem State.updRing_pending (s : State) (b r : Nat) (f : Ring → Ring) : (s.updRing b r f).pending = s.pending := rfl

@[simp] theorem State.updSq_start (s : State) (b r : Nat) (f : SqRegs → SqRegs) : (s.updSq b r f).start = s.start := rfl
@[simp] theorem State.updSq_host (s : State) (b r : Nat) (f : SqRegs → SqRegs) : (s.updSq b r f).host = s.host := rfl
@[simp] theorem State.updSq_mem (s : State) (b r : Nat) (f : SqRegs → SqRegs) : (s.updSq b r f).mem = s.mem := rfl
@[simp] theorem State.updSq_parts (s : State) (b r : Nat) (f : SqRegs → SqRegs) : (s.updSq b r f).parts = s.parts := rfl
@[simp] theorem State.updSq_cores (s : State) (b r : Nat) (f : SqRegs → SqRegs) : (s.updSq b r f).cores = s.cores := rfl
@[simp] theorem State.updSq_dies (s : State) (b r : Nat) (f : SqRegs → SqRegs) : (s.updSq b r f).dies = s.dies := rfl
@[simp] theorem State.updSq_hub (s : State) (b r : Nat) (f : SqRegs → SqRegs) : (s.updSq b r f).hub = s.hub := rfl
@[simp] theorem State.updSq_flash (s : State) (b r : Nat) (f : SqRegs → SqRegs) : (s.updSq b r f).flash = s.flash := rfl
@[simp] theorem State.updSq_span (s : State) (b r : Nat) (f : SqRegs → SqRegs) : (s.updSq b r f).span = s.span := rfl
@[simp] theorem State.updSq_cap (s : State) (b r : Nat) (f : SqRegs → SqRegs) : (s.updSq b r f).cap = s.cap := rfl
@[simp] theorem State.updSq_sec (s : State) (b r : Nat) (f : SqRegs → SqRegs) : (s.updSq b r f).sec = s.sec := rfl
@[simp] theorem State.updSq_stw (s : State) (b r : Nat) (f : SqRegs → SqRegs) : (s.updSq b r f).stw = s.stw := rfl
@[simp] theorem State.updSq_fw (s : State) (b r : Nat) (f : SqRegs → SqRegs) : (s.updSq b r f).fw = s.fw := rfl
@[simp] theorem State.updSq_clk (s : State) (b r : Nat) (f : SqRegs → SqRegs) : (s.updSq b r f).clk = s.clk := rfl
@[simp] theorem State.updSq_pwr (s : State) (b r : Nat) (f : SqRegs → SqRegs) : (s.updSq b r f).pwr = s.pwr := rfl
@[simp] theorem State.updSq_mgmt (s : State) (b r : Nat) (f : SqRegs → SqRegs) : (s.updSq b r f).mgmt = s.mgmt := rfl
@[simp] theorem State.updSq_tb (s : State) (b r : Nat) (f : SqRegs → SqRegs) : (s.updSq b r f).tb = s.tb := rfl
@[simp] theorem State.updSq_freeCtr (s : State) (b r : Nat) (f : SqRegs → SqRegs) : (s.updSq b r f).freeCtr = s.freeCtr := rfl
@[simp] theorem State.updSq_pending (s : State) (b r : Nat) (f : SqRegs → SqRegs) : (s.updSq b r f).pending = s.pending := rfl

@[simp] theorem State.updCq_start (s : State) (b r : Nat) (f : CqRegs → CqRegs) : (s.updCq b r f).start = s.start := rfl
@[simp] theorem State.updCq_host (s : State) (b r : Nat) (f : CqRegs → CqRegs) : (s.updCq b r f).host = s.host := rfl
@[simp] theorem State.updCq_mem (s : State) (b r : Nat) (f : CqRegs → CqRegs) : (s.updCq b r f).mem = s.mem := rfl
@[simp] theorem State.updCq_parts (s : State) (b r : Nat) (f : CqRegs → CqRegs) : (s.updCq b r f).parts = s.parts := rfl
@[simp] theorem State.updCq_cores (s : State) (b r : Nat) (f : CqRegs → CqRegs) : (s.updCq b r f).cores = s.cores := rfl
@[simp] theorem State.updCq_dies (s : State) (b r : Nat) (f : CqRegs → CqRegs) : (s.updCq b r f).dies = s.dies := rfl
@[simp] theorem State.updCq_hub (s : State) (b r : Nat) (f : CqRegs → CqRegs) : (s.updCq b r f).hub = s.hub := rfl
@[simp] theorem State.updCq_flash (s : State) (b r : Nat) (f : CqRegs → CqRegs) : (s.updCq b r f).flash = s.flash := rfl
@[simp] theorem State.updCq_span (s : State) (b r : Nat) (f : CqRegs → CqRegs) : (s.updCq b r f).span = s.span := rfl
@[simp] theorem State.updCq_cap (s : State) (b r : Nat) (f : CqRegs → CqRegs) : (s.updCq b r f).cap = s.cap := rfl
@[simp] theorem State.updCq_sec (s : State) (b r : Nat) (f : CqRegs → CqRegs) : (s.updCq b r f).sec = s.sec := rfl
@[simp] theorem State.updCq_stw (s : State) (b r : Nat) (f : CqRegs → CqRegs) : (s.updCq b r f).stw = s.stw := rfl
@[simp] theorem State.updCq_fw (s : State) (b r : Nat) (f : CqRegs → CqRegs) : (s.updCq b r f).fw = s.fw := rfl
@[simp] theorem State.updCq_clk (s : State) (b r : Nat) (f : CqRegs → CqRegs) : (s.updCq b r f).clk = s.clk := rfl
@[simp] theorem State.updCq_pwr (s : State) (b r : Nat) (f : CqRegs → CqRegs) : (s.updCq b r f).pwr = s.pwr := rfl
@[simp] theorem State.updCq_mgmt (s : State) (b r : Nat) (f : CqRegs → CqRegs) : (s.updCq b r f).mgmt = s.mgmt := rfl
@[simp] theorem State.updCq_tb (s : State) (b r : Nat) (f : CqRegs → CqRegs) : (s.updCq b r f).tb = s.tb := rfl
@[simp] theorem State.updCq_freeCtr (s : State) (b r : Nat) (f : CqRegs → CqRegs) : (s.updCq b r f).freeCtr = s.freeCtr := rfl
@[simp] theorem State.updCq_pending (s : State) (b r : Nat) (f : CqRegs → CqRegs) : (s.updCq b r f).pending = s.pending := rfl

@[simp] theorem State.updCmd_start (s : State) (c : CmdRef) (f : Cmd → Cmd) : (s.updCmd c f).start = s.start := rfl
@[simp] theorem State.updCmd_host (s : State) (c : CmdRef) (f : Cmd → Cmd) : (s.updCmd c f).host = s.host := rfl
@[simp] theorem State.updCmd_mem (s : State) (c : CmdRef) (f : Cmd → Cmd) : (s.updCmd c f).mem = s.mem := rfl
@[simp] theorem State.updCmd_parts (s : State) (c : CmdRef) (f : Cmd → Cmd) : (s.updCmd c f).parts = s.parts := rfl
@[simp] theorem State.updCmd_cores (s : State) (c : CmdRef) (f : Cmd → Cmd) : (s.updCmd c f).cores = s.cores := rfl
@[simp] theorem State.updCmd_dies (s : State) (c : CmdRef) (f : Cmd → Cmd) : (s.updCmd c f).dies = s.dies := rfl
@[simp] theorem State.updCmd_hub (s : State) (c : CmdRef) (f : Cmd → Cmd) : (s.updCmd c f).hub = s.hub := rfl
@[simp] theorem State.updCmd_flash (s : State) (c : CmdRef) (f : Cmd → Cmd) : (s.updCmd c f).flash = s.flash := rfl
@[simp] theorem State.updCmd_span (s : State) (c : CmdRef) (f : Cmd → Cmd) : (s.updCmd c f).span = s.span := rfl
@[simp] theorem State.updCmd_cap (s : State) (c : CmdRef) (f : Cmd → Cmd) : (s.updCmd c f).cap = s.cap := rfl
@[simp] theorem State.updCmd_sec (s : State) (c : CmdRef) (f : Cmd → Cmd) : (s.updCmd c f).sec = s.sec := rfl
@[simp] theorem State.updCmd_stw (s : State) (c : CmdRef) (f : Cmd → Cmd) : (s.updCmd c f).stw = s.stw := rfl
@[simp] theorem State.updCmd_fw (s : State) (c : CmdRef) (f : Cmd → Cmd) : (s.updCmd c f).fw = s.fw := rfl
@[simp] theorem State.updCmd_clk (s : State) (c : CmdRef) (f : Cmd → Cmd) : (s.updCmd c f).clk = s.clk := rfl
@[simp] theorem State.updCmd_pwr (s : State) (c : CmdRef) (f : Cmd → Cmd) : (s.updCmd c f).pwr = s.pwr := rfl
@[simp] theorem State.updCmd_mgmt (s : State) (c : CmdRef) (f : Cmd → Cmd) : (s.updCmd c f).mgmt = s.mgmt := rfl
@[simp] theorem State.updCmd_tb (s : State) (c : CmdRef) (f : Cmd → Cmd) : (s.updCmd c f).tb = s.tb := rfl
@[simp] theorem State.updCmd_freeCtr (s : State) (c : CmdRef) (f : Cmd → Cmd) : (s.updCmd c f).freeCtr = s.freeCtr := rfl
@[simp] theorem State.updCmd_pending (s : State) (c : CmdRef) (f : Cmd → Cmd) : (s.updCmd c f).pending = s.pending := rfl

@[simp] theorem State.dropCmd_start (s : State) (c : CmdRef) : (s.dropCmd c).start = s.start := rfl
@[simp] theorem State.dropCmd_host (s : State) (c : CmdRef) : (s.dropCmd c).host = s.host := rfl
@[simp] theorem State.dropCmd_mem (s : State) (c : CmdRef) : (s.dropCmd c).mem = s.mem := rfl
@[simp] theorem State.dropCmd_parts (s : State) (c : CmdRef) : (s.dropCmd c).parts = s.parts := rfl
@[simp] theorem State.dropCmd_cores (s : State) (c : CmdRef) : (s.dropCmd c).cores = s.cores := rfl
@[simp] theorem State.dropCmd_dies (s : State) (c : CmdRef) : (s.dropCmd c).dies = s.dies := rfl
@[simp] theorem State.dropCmd_hub (s : State) (c : CmdRef) : (s.dropCmd c).hub = s.hub := rfl
@[simp] theorem State.dropCmd_flash (s : State) (c : CmdRef) : (s.dropCmd c).flash = s.flash := rfl
@[simp] theorem State.dropCmd_span (s : State) (c : CmdRef) : (s.dropCmd c).span = s.span := rfl
@[simp] theorem State.dropCmd_cap (s : State) (c : CmdRef) : (s.dropCmd c).cap = s.cap := rfl
@[simp] theorem State.dropCmd_sec (s : State) (c : CmdRef) : (s.dropCmd c).sec = s.sec := rfl
@[simp] theorem State.dropCmd_stw (s : State) (c : CmdRef) : (s.dropCmd c).stw = s.stw := rfl
@[simp] theorem State.dropCmd_fw (s : State) (c : CmdRef) : (s.dropCmd c).fw = s.fw := rfl
@[simp] theorem State.dropCmd_clk (s : State) (c : CmdRef) : (s.dropCmd c).clk = s.clk := rfl
@[simp] theorem State.dropCmd_pwr (s : State) (c : CmdRef) : (s.dropCmd c).pwr = s.pwr := rfl
@[simp] theorem State.dropCmd_mgmt (s : State) (c : CmdRef) : (s.dropCmd c).mgmt = s.mgmt := rfl
@[simp] theorem State.dropCmd_tb (s : State) (c : CmdRef) : (s.dropCmd c).tb = s.tb := rfl
@[simp] theorem State.dropCmd_freeCtr (s : State) (c : CmdRef) : (s.dropCmd c).freeCtr = s.freeCtr := rfl
@[simp] theorem State.dropCmd_pending (s : State) (c : CmdRef) : (s.dropCmd c).pending = s.pending := rfl

@[simp] theorem State.setPll_start (s : State) (n : Nat) (u : PllUnit) : (s.setPll n u).start = s.start := rfl
@[simp] theorem State.setPll_host (s : State) (n : Nat) (u : PllUnit) : (s.setPll n u).host = s.host := rfl
@[simp] theorem State.setPll_blocks (s : State) (n : Nat) (u : PllUnit) : (s.setPll n u).blocks = s.blocks := rfl
@[simp] theorem State.setPll_mem (s : State) (n : Nat) (u : PllUnit) : (s.setPll n u).mem = s.mem := rfl
@[simp] theorem State.setPll_parts (s : State) (n : Nat) (u : PllUnit) : (s.setPll n u).parts = s.parts := rfl
@[simp] theorem State.setPll_cores (s : State) (n : Nat) (u : PllUnit) : (s.setPll n u).cores = s.cores := rfl
@[simp] theorem State.setPll_dies (s : State) (n : Nat) (u : PllUnit) : (s.setPll n u).dies = s.dies := rfl
@[simp] theorem State.setPll_hub (s : State) (n : Nat) (u : PllUnit) : (s.setPll n u).hub = s.hub := rfl
@[simp] theorem State.setPll_flash (s : State) (n : Nat) (u : PllUnit) : (s.setPll n u).flash = s.flash := rfl
@[simp] theorem State.setPll_span (s : State) (n : Nat) (u : PllUnit) : (s.setPll n u).span = s.span := rfl
@[simp] theorem State.setPll_cap (s : State) (n : Nat) (u : PllUnit) : (s.setPll n u).cap = s.cap := rfl
@[simp] theorem State.setPll_sec (s : State) (n : Nat) (u : PllUnit) : (s.setPll n u).sec = s.sec := rfl
@[simp] theorem State.setPll_stw (s : State) (n : Nat) (u : PllUnit) : (s.setPll n u).stw = s.stw := rfl
@[simp] theorem State.setPll_fw (s : State) (n : Nat) (u : PllUnit) : (s.setPll n u).fw = s.fw := rfl
@[simp] theorem State.setPll_pwr (s : State) (n : Nat) (u : PllUnit) : (s.setPll n u).pwr = s.pwr := rfl
@[simp] theorem State.setPll_mgmt (s : State) (n : Nat) (u : PllUnit) : (s.setPll n u).mgmt = s.mgmt := rfl
@[simp] theorem State.setPll_tb (s : State) (n : Nat) (u : PllUnit) : (s.setPll n u).tb = s.tb := rfl
@[simp] theorem State.setPll_freeCtr (s : State) (n : Nat) (u : PllUnit) : (s.setPll n u).freeCtr = s.freeCtr := rfl
@[simp] theorem State.setPll_pending (s : State) (n : Nat) (u : PllUnit) : (s.setPll n u).pending = s.pending := rfl

@[simp] theorem State.setDieClk_start (s : State) (d : Nat) (k : DieClk) : (s.setDieClk d k).start = s.start := rfl
@[simp] theorem State.setDieClk_host (s : State) (d : Nat) (k : DieClk) : (s.setDieClk d k).host = s.host := rfl
@[simp] theorem State.setDieClk_blocks (s : State) (d : Nat) (k : DieClk) : (s.setDieClk d k).blocks = s.blocks := rfl
@[simp] theorem State.setDieClk_mem (s : State) (d : Nat) (k : DieClk) : (s.setDieClk d k).mem = s.mem := rfl
@[simp] theorem State.setDieClk_parts (s : State) (d : Nat) (k : DieClk) : (s.setDieClk d k).parts = s.parts := rfl
@[simp] theorem State.setDieClk_cores (s : State) (d : Nat) (k : DieClk) : (s.setDieClk d k).cores = s.cores := rfl
@[simp] theorem State.setDieClk_dies (s : State) (d : Nat) (k : DieClk) : (s.setDieClk d k).dies = s.dies := rfl
@[simp] theorem State.setDieClk_hub (s : State) (d : Nat) (k : DieClk) : (s.setDieClk d k).hub = s.hub := rfl
@[simp] theorem State.setDieClk_flash (s : State) (d : Nat) (k : DieClk) : (s.setDieClk d k).flash = s.flash := rfl
@[simp] theorem State.setDieClk_span (s : State) (d : Nat) (k : DieClk) : (s.setDieClk d k).span = s.span := rfl
@[simp] theorem State.setDieClk_cap (s : State) (d : Nat) (k : DieClk) : (s.setDieClk d k).cap = s.cap := rfl
@[simp] theorem State.setDieClk_sec (s : State) (d : Nat) (k : DieClk) : (s.setDieClk d k).sec = s.sec := rfl
@[simp] theorem State.setDieClk_stw (s : State) (d : Nat) (k : DieClk) : (s.setDieClk d k).stw = s.stw := rfl
@[simp] theorem State.setDieClk_fw (s : State) (d : Nat) (k : DieClk) : (s.setDieClk d k).fw = s.fw := rfl
@[simp] theorem State.setDieClk_pwr (s : State) (d : Nat) (k : DieClk) : (s.setDieClk d k).pwr = s.pwr := rfl
@[simp] theorem State.setDieClk_mgmt (s : State) (d : Nat) (k : DieClk) : (s.setDieClk d k).mgmt = s.mgmt := rfl
@[simp] theorem State.setDieClk_tb (s : State) (d : Nat) (k : DieClk) : (s.setDieClk d k).tb = s.tb := rfl
@[simp] theorem State.setDieClk_freeCtr (s : State) (d : Nat) (k : DieClk) : (s.setDieClk d k).freeCtr = s.freeCtr := rfl
@[simp] theorem State.setDieClk_pending (s : State) (d : Nat) (k : DieClk) : (s.setDieClk d k).pending = s.pending := rfl

@[simp] theorem State.setPort_start (s : State) (n : Nat) (x : SpanPort) : (s.setPort n x).start = s.start := rfl
@[simp] theorem State.setPort_host (s : State) (n : Nat) (x : SpanPort) : (s.setPort n x).host = s.host := rfl
@[simp] theorem State.setPort_blocks (s : State) (n : Nat) (x : SpanPort) : (s.setPort n x).blocks = s.blocks := rfl
@[simp] theorem State.setPort_mem (s : State) (n : Nat) (x : SpanPort) : (s.setPort n x).mem = s.mem := rfl
@[simp] theorem State.setPort_parts (s : State) (n : Nat) (x : SpanPort) : (s.setPort n x).parts = s.parts := rfl
@[simp] theorem State.setPort_cores (s : State) (n : Nat) (x : SpanPort) : (s.setPort n x).cores = s.cores := rfl
@[simp] theorem State.setPort_dies (s : State) (n : Nat) (x : SpanPort) : (s.setPort n x).dies = s.dies := rfl
@[simp] theorem State.setPort_hub (s : State) (n : Nat) (x : SpanPort) : (s.setPort n x).hub = s.hub := rfl
@[simp] theorem State.setPort_flash (s : State) (n : Nat) (x : SpanPort) : (s.setPort n x).flash = s.flash := rfl
@[simp] theorem State.setPort_cap (s : State) (n : Nat) (x : SpanPort) : (s.setPort n x).cap = s.cap := rfl
@[simp] theorem State.setPort_sec (s : State) (n : Nat) (x : SpanPort) : (s.setPort n x).sec = s.sec := rfl
@[simp] theorem State.setPort_stw (s : State) (n : Nat) (x : SpanPort) : (s.setPort n x).stw = s.stw := rfl
@[simp] theorem State.setPort_fw (s : State) (n : Nat) (x : SpanPort) : (s.setPort n x).fw = s.fw := rfl
@[simp] theorem State.setPort_clk (s : State) (n : Nat) (x : SpanPort) : (s.setPort n x).clk = s.clk := rfl
@[simp] theorem State.setPort_pwr (s : State) (n : Nat) (x : SpanPort) : (s.setPort n x).pwr = s.pwr := rfl
@[simp] theorem State.setPort_mgmt (s : State) (n : Nat) (x : SpanPort) : (s.setPort n x).mgmt = s.mgmt := rfl
@[simp] theorem State.setPort_tb (s : State) (n : Nat) (x : SpanPort) : (s.setPort n x).tb = s.tb := rfl
@[simp] theorem State.setPort_freeCtr (s : State) (n : Nat) (x : SpanPort) : (s.setPort n x).freeCtr = s.freeCtr := rfl
@[simp] theorem State.setPort_pending (s : State) (n : Nat) (x : SpanPort) : (s.setPort n x).pending = s.pending := rfl

@[simp] theorem State.updPort_start (s : State) (n : Nat) (f : SpanPort → SpanPort) : (s.updPort n f).start = s.start := rfl
@[simp] theorem State.updPort_host (s : State) (n : Nat) (f : SpanPort → SpanPort) : (s.updPort n f).host = s.host := rfl
@[simp] theorem State.updPort_blocks (s : State) (n : Nat) (f : SpanPort → SpanPort) : (s.updPort n f).blocks = s.blocks := rfl
@[simp] theorem State.updPort_mem (s : State) (n : Nat) (f : SpanPort → SpanPort) : (s.updPort n f).mem = s.mem := rfl
@[simp] theorem State.updPort_parts (s : State) (n : Nat) (f : SpanPort → SpanPort) : (s.updPort n f).parts = s.parts := rfl
@[simp] theorem State.updPort_cores (s : State) (n : Nat) (f : SpanPort → SpanPort) : (s.updPort n f).cores = s.cores := rfl
@[simp] theorem State.updPort_dies (s : State) (n : Nat) (f : SpanPort → SpanPort) : (s.updPort n f).dies = s.dies := rfl
@[simp] theorem State.updPort_hub (s : State) (n : Nat) (f : SpanPort → SpanPort) : (s.updPort n f).hub = s.hub := rfl
@[simp] theorem State.updPort_flash (s : State) (n : Nat) (f : SpanPort → SpanPort) : (s.updPort n f).flash = s.flash := rfl
@[simp] theorem State.updPort_cap (s : State) (n : Nat) (f : SpanPort → SpanPort) : (s.updPort n f).cap = s.cap := rfl
@[simp] theorem State.updPort_sec (s : State) (n : Nat) (f : SpanPort → SpanPort) : (s.updPort n f).sec = s.sec := rfl
@[simp] theorem State.updPort_stw (s : State) (n : Nat) (f : SpanPort → SpanPort) : (s.updPort n f).stw = s.stw := rfl
@[simp] theorem State.updPort_fw (s : State) (n : Nat) (f : SpanPort → SpanPort) : (s.updPort n f).fw = s.fw := rfl
@[simp] theorem State.updPort_clk (s : State) (n : Nat) (f : SpanPort → SpanPort) : (s.updPort n f).clk = s.clk := rfl
@[simp] theorem State.updPort_pwr (s : State) (n : Nat) (f : SpanPort → SpanPort) : (s.updPort n f).pwr = s.pwr := rfl
@[simp] theorem State.updPort_mgmt (s : State) (n : Nat) (f : SpanPort → SpanPort) : (s.updPort n f).mgmt = s.mgmt := rfl
@[simp] theorem State.updPort_tb (s : State) (n : Nat) (f : SpanPort → SpanPort) : (s.updPort n f).tb = s.tb := rfl
@[simp] theorem State.updPort_freeCtr (s : State) (n : Nat) (f : SpanPort → SpanPort) : (s.updPort n f).freeCtr = s.freeCtr := rfl
@[simp] theorem State.updPort_pending (s : State) (n : Nat) (f : SpanPort → SpanPort) : (s.updPort n f).pending = s.pending := rfl

@[simp] theorem State.setStream_start (s : State) (n : Nat) (x : Stream) : (s.setStream n x).start = s.start := rfl
@[simp] theorem State.setStream_host (s : State) (n : Nat) (x : Stream) : (s.setStream n x).host = s.host := rfl
@[simp] theorem State.setStream_blocks (s : State) (n : Nat) (x : Stream) : (s.setStream n x).blocks = s.blocks := rfl
@[simp] theorem State.setStream_mem (s : State) (n : Nat) (x : Stream) : (s.setStream n x).mem = s.mem := rfl
@[simp] theorem State.setStream_parts (s : State) (n : Nat) (x : Stream) : (s.setStream n x).parts = s.parts := rfl
@[simp] theorem State.setStream_cores (s : State) (n : Nat) (x : Stream) : (s.setStream n x).cores = s.cores := rfl
@[simp] theorem State.setStream_dies (s : State) (n : Nat) (x : Stream) : (s.setStream n x).dies = s.dies := rfl
@[simp] theorem State.setStream_hub (s : State) (n : Nat) (x : Stream) : (s.setStream n x).hub = s.hub := rfl
@[simp] theorem State.setStream_flash (s : State) (n : Nat) (x : Stream) : (s.setStream n x).flash = s.flash := rfl
@[simp] theorem State.setStream_span (s : State) (n : Nat) (x : Stream) : (s.setStream n x).span = s.span := rfl
@[simp] theorem State.setStream_sec (s : State) (n : Nat) (x : Stream) : (s.setStream n x).sec = s.sec := rfl
@[simp] theorem State.setStream_stw (s : State) (n : Nat) (x : Stream) : (s.setStream n x).stw = s.stw := rfl
@[simp] theorem State.setStream_fw (s : State) (n : Nat) (x : Stream) : (s.setStream n x).fw = s.fw := rfl
@[simp] theorem State.setStream_clk (s : State) (n : Nat) (x : Stream) : (s.setStream n x).clk = s.clk := rfl
@[simp] theorem State.setStream_pwr (s : State) (n : Nat) (x : Stream) : (s.setStream n x).pwr = s.pwr := rfl
@[simp] theorem State.setStream_mgmt (s : State) (n : Nat) (x : Stream) : (s.setStream n x).mgmt = s.mgmt := rfl
@[simp] theorem State.setStream_tb (s : State) (n : Nat) (x : Stream) : (s.setStream n x).tb = s.tb := rfl
@[simp] theorem State.setStream_freeCtr (s : State) (n : Nat) (x : Stream) : (s.setStream n x).freeCtr = s.freeCtr := rfl
@[simp] theorem State.setStream_pending (s : State) (n : Nat) (x : Stream) : (s.setStream n x).pending = s.pending := rfl

@[simp] theorem State.setChan_start (s : State) (stack chan : Nat) (c : Chan) : (s.setChan stack chan c).start = s.start := rfl
@[simp] theorem State.setChan_host (s : State) (stack chan : Nat) (c : Chan) : (s.setChan stack chan c).host = s.host := rfl
@[simp] theorem State.setChan_blocks (s : State) (stack chan : Nat) (c : Chan) : (s.setChan stack chan c).blocks = s.blocks := rfl
@[simp] theorem State.setChan_parts (s : State) (stack chan : Nat) (c : Chan) : (s.setChan stack chan c).parts = s.parts := rfl
@[simp] theorem State.setChan_cores (s : State) (stack chan : Nat) (c : Chan) : (s.setChan stack chan c).cores = s.cores := rfl
@[simp] theorem State.setChan_dies (s : State) (stack chan : Nat) (c : Chan) : (s.setChan stack chan c).dies = s.dies := rfl
@[simp] theorem State.setChan_hub (s : State) (stack chan : Nat) (c : Chan) : (s.setChan stack chan c).hub = s.hub := rfl
@[simp] theorem State.setChan_flash (s : State) (stack chan : Nat) (c : Chan) : (s.setChan stack chan c).flash = s.flash := rfl
@[simp] theorem State.setChan_span (s : State) (stack chan : Nat) (c : Chan) : (s.setChan stack chan c).span = s.span := rfl
@[simp] theorem State.setChan_cap (s : State) (stack chan : Nat) (c : Chan) : (s.setChan stack chan c).cap = s.cap := rfl
@[simp] theorem State.setChan_sec (s : State) (stack chan : Nat) (c : Chan) : (s.setChan stack chan c).sec = s.sec := rfl
@[simp] theorem State.setChan_stw (s : State) (stack chan : Nat) (c : Chan) : (s.setChan stack chan c).stw = s.stw := rfl
@[simp] theorem State.setChan_fw (s : State) (stack chan : Nat) (c : Chan) : (s.setChan stack chan c).fw = s.fw := rfl
@[simp] theorem State.setChan_clk (s : State) (stack chan : Nat) (c : Chan) : (s.setChan stack chan c).clk = s.clk := rfl
@[simp] theorem State.setChan_pwr (s : State) (stack chan : Nat) (c : Chan) : (s.setChan stack chan c).pwr = s.pwr := rfl
@[simp] theorem State.setChan_mgmt (s : State) (stack chan : Nat) (c : Chan) : (s.setChan stack chan c).mgmt = s.mgmt := rfl
@[simp] theorem State.setChan_tb (s : State) (stack chan : Nat) (c : Chan) : (s.setChan stack chan c).tb = s.tb := rfl
@[simp] theorem State.setChan_freeCtr (s : State) (stack chan : Nat) (c : Chan) : (s.setChan stack chan c).freeCtr = s.freeCtr := rfl
@[simp] theorem State.setChan_pending (s : State) (stack chan : Nat) (c : Chan) : (s.setChan stack chan c).pending = s.pending := rfl

@[simp] theorem State.setPoison_start (s : State) (stack chan w : Nat) (b : Bool) : (s.setPoison stack chan w b).start = s.start := rfl
@[simp] theorem State.setPoison_host (s : State) (stack chan w : Nat) (b : Bool) : (s.setPoison stack chan w b).host = s.host := rfl
@[simp] theorem State.setPoison_blocks (s : State) (stack chan w : Nat) (b : Bool) : (s.setPoison stack chan w b).blocks = s.blocks := rfl
@[simp] theorem State.setPoison_parts (s : State) (stack chan w : Nat) (b : Bool) : (s.setPoison stack chan w b).parts = s.parts := rfl
@[simp] theorem State.setPoison_cores (s : State) (stack chan w : Nat) (b : Bool) : (s.setPoison stack chan w b).cores = s.cores := rfl
@[simp] theorem State.setPoison_dies (s : State) (stack chan w : Nat) (b : Bool) : (s.setPoison stack chan w b).dies = s.dies := rfl
@[simp] theorem State.setPoison_hub (s : State) (stack chan w : Nat) (b : Bool) : (s.setPoison stack chan w b).hub = s.hub := rfl
@[simp] theorem State.setPoison_flash (s : State) (stack chan w : Nat) (b : Bool) : (s.setPoison stack chan w b).flash = s.flash := rfl
@[simp] theorem State.setPoison_span (s : State) (stack chan w : Nat) (b : Bool) : (s.setPoison stack chan w b).span = s.span := rfl
@[simp] theorem State.setPoison_cap (s : State) (stack chan w : Nat) (b : Bool) : (s.setPoison stack chan w b).cap = s.cap := rfl
@[simp] theorem State.setPoison_sec (s : State) (stack chan w : Nat) (b : Bool) : (s.setPoison stack chan w b).sec = s.sec := rfl
@[simp] theorem State.setPoison_stw (s : State) (stack chan w : Nat) (b : Bool) : (s.setPoison stack chan w b).stw = s.stw := rfl
@[simp] theorem State.setPoison_fw (s : State) (stack chan w : Nat) (b : Bool) : (s.setPoison stack chan w b).fw = s.fw := rfl
@[simp] theorem State.setPoison_clk (s : State) (stack chan w : Nat) (b : Bool) : (s.setPoison stack chan w b).clk = s.clk := rfl
@[simp] theorem State.setPoison_pwr (s : State) (stack chan w : Nat) (b : Bool) : (s.setPoison stack chan w b).pwr = s.pwr := rfl
@[simp] theorem State.setPoison_mgmt (s : State) (stack chan w : Nat) (b : Bool) : (s.setPoison stack chan w b).mgmt = s.mgmt := rfl
@[simp] theorem State.setPoison_tb (s : State) (stack chan w : Nat) (b : Bool) : (s.setPoison stack chan w b).tb = s.tb := rfl
@[simp] theorem State.setPoison_freeCtr (s : State) (stack chan w : Nat) (b : Bool) : (s.setPoison stack chan w b).freeCtr = s.freeCtr := rfl
@[simp] theorem State.setPoison_pending (s : State) (stack chan w : Nat) (b : Bool) : (s.setPoison stack chan w b).pending = s.pending := rfl

@[simp] theorem State.setFpair_start (s : State) (k : Nat) (x : FlashPair) : (s.setFpair k x).start = s.start := rfl
@[simp] theorem State.setFpair_host (s : State) (k : Nat) (x : FlashPair) : (s.setFpair k x).host = s.host := rfl
@[simp] theorem State.setFpair_blocks (s : State) (k : Nat) (x : FlashPair) : (s.setFpair k x).blocks = s.blocks := rfl
@[simp] theorem State.setFpair_mem (s : State) (k : Nat) (x : FlashPair) : (s.setFpair k x).mem = s.mem := rfl
@[simp] theorem State.setFpair_parts (s : State) (k : Nat) (x : FlashPair) : (s.setFpair k x).parts = s.parts := rfl
@[simp] theorem State.setFpair_cores (s : State) (k : Nat) (x : FlashPair) : (s.setFpair k x).cores = s.cores := rfl
@[simp] theorem State.setFpair_dies (s : State) (k : Nat) (x : FlashPair) : (s.setFpair k x).dies = s.dies := rfl
@[simp] theorem State.setFpair_hub (s : State) (k : Nat) (x : FlashPair) : (s.setFpair k x).hub = s.hub := rfl
@[simp] theorem State.setFpair_span (s : State) (k : Nat) (x : FlashPair) : (s.setFpair k x).span = s.span := rfl
@[simp] theorem State.setFpair_cap (s : State) (k : Nat) (x : FlashPair) : (s.setFpair k x).cap = s.cap := rfl
@[simp] theorem State.setFpair_sec (s : State) (k : Nat) (x : FlashPair) : (s.setFpair k x).sec = s.sec := rfl
@[simp] theorem State.setFpair_stw (s : State) (k : Nat) (x : FlashPair) : (s.setFpair k x).stw = s.stw := rfl
@[simp] theorem State.setFpair_fw (s : State) (k : Nat) (x : FlashPair) : (s.setFpair k x).fw = s.fw := rfl
@[simp] theorem State.setFpair_clk (s : State) (k : Nat) (x : FlashPair) : (s.setFpair k x).clk = s.clk := rfl
@[simp] theorem State.setFpair_pwr (s : State) (k : Nat) (x : FlashPair) : (s.setFpair k x).pwr = s.pwr := rfl
@[simp] theorem State.setFpair_mgmt (s : State) (k : Nat) (x : FlashPair) : (s.setFpair k x).mgmt = s.mgmt := rfl
@[simp] theorem State.setFpair_tb (s : State) (k : Nat) (x : FlashPair) : (s.setFpair k x).tb = s.tb := rfl
@[simp] theorem State.setFpair_freeCtr (s : State) (k : Nat) (x : FlashPair) : (s.setFpair k x).freeCtr = s.freeCtr := rfl
@[simp] theorem State.setFpair_pending (s : State) (k : Nat) (x : FlashPair) : (s.setFpair k x).pending = s.pending := rfl

@[simp] theorem State.setConductor_start (s : State) (n : Nat) (x : Conductor) : (s.setConductor n x).start = s.start := rfl
@[simp] theorem State.setConductor_host (s : State) (n : Nat) (x : Conductor) : (s.setConductor n x).host = s.host := rfl
@[simp] theorem State.setConductor_blocks (s : State) (n : Nat) (x : Conductor) : (s.setConductor n x).blocks = s.blocks := rfl
@[simp] theorem State.setConductor_mem (s : State) (n : Nat) (x : Conductor) : (s.setConductor n x).mem = s.mem := rfl
@[simp] theorem State.setConductor_parts (s : State) (n : Nat) (x : Conductor) : (s.setConductor n x).parts = s.parts := rfl
@[simp] theorem State.setConductor_cores (s : State) (n : Nat) (x : Conductor) : (s.setConductor n x).cores = s.cores := rfl
@[simp] theorem State.setConductor_dies (s : State) (n : Nat) (x : Conductor) : (s.setConductor n x).dies = s.dies := rfl
@[simp] theorem State.setConductor_flash (s : State) (n : Nat) (x : Conductor) : (s.setConductor n x).flash = s.flash := rfl
@[simp] theorem State.setConductor_span (s : State) (n : Nat) (x : Conductor) : (s.setConductor n x).span = s.span := rfl
@[simp] theorem State.setConductor_cap (s : State) (n : Nat) (x : Conductor) : (s.setConductor n x).cap = s.cap := rfl
@[simp] theorem State.setConductor_sec (s : State) (n : Nat) (x : Conductor) : (s.setConductor n x).sec = s.sec := rfl
@[simp] theorem State.setConductor_stw (s : State) (n : Nat) (x : Conductor) : (s.setConductor n x).stw = s.stw := rfl
@[simp] theorem State.setConductor_fw (s : State) (n : Nat) (x : Conductor) : (s.setConductor n x).fw = s.fw := rfl
@[simp] theorem State.setConductor_clk (s : State) (n : Nat) (x : Conductor) : (s.setConductor n x).clk = s.clk := rfl
@[simp] theorem State.setConductor_pwr (s : State) (n : Nat) (x : Conductor) : (s.setConductor n x).pwr = s.pwr := rfl
@[simp] theorem State.setConductor_mgmt (s : State) (n : Nat) (x : Conductor) : (s.setConductor n x).mgmt = s.mgmt := rfl
@[simp] theorem State.setConductor_tb (s : State) (n : Nat) (x : Conductor) : (s.setConductor n x).tb = s.tb := rfl
@[simp] theorem State.setConductor_freeCtr (s : State) (n : Nat) (x : Conductor) : (s.setConductor n x).freeCtr = s.freeCtr := rfl
@[simp] theorem State.setConductor_pending (s : State) (n : Nat) (x : Conductor) : (s.setConductor n x).pending = s.pending := rfl

@[simp] theorem State.setSensor_start (s : State) (i : Nat) (x : Sensor) : (s.setSensor i x).start = s.start := rfl
@[simp] theorem State.setSensor_host (s : State) (i : Nat) (x : Sensor) : (s.setSensor i x).host = s.host := rfl
@[simp] theorem State.setSensor_blocks (s : State) (i : Nat) (x : Sensor) : (s.setSensor i x).blocks = s.blocks := rfl
@[simp] theorem State.setSensor_mem (s : State) (i : Nat) (x : Sensor) : (s.setSensor i x).mem = s.mem := rfl
@[simp] theorem State.setSensor_parts (s : State) (i : Nat) (x : Sensor) : (s.setSensor i x).parts = s.parts := rfl
@[simp] theorem State.setSensor_cores (s : State) (i : Nat) (x : Sensor) : (s.setSensor i x).cores = s.cores := rfl
@[simp] theorem State.setSensor_dies (s : State) (i : Nat) (x : Sensor) : (s.setSensor i x).dies = s.dies := rfl
@[simp] theorem State.setSensor_hub (s : State) (i : Nat) (x : Sensor) : (s.setSensor i x).hub = s.hub := rfl
@[simp] theorem State.setSensor_flash (s : State) (i : Nat) (x : Sensor) : (s.setSensor i x).flash = s.flash := rfl
@[simp] theorem State.setSensor_span (s : State) (i : Nat) (x : Sensor) : (s.setSensor i x).span = s.span := rfl
@[simp] theorem State.setSensor_cap (s : State) (i : Nat) (x : Sensor) : (s.setSensor i x).cap = s.cap := rfl
@[simp] theorem State.setSensor_sec (s : State) (i : Nat) (x : Sensor) : (s.setSensor i x).sec = s.sec := rfl
@[simp] theorem State.setSensor_fw (s : State) (i : Nat) (x : Sensor) : (s.setSensor i x).fw = s.fw := rfl
@[simp] theorem State.setSensor_clk (s : State) (i : Nat) (x : Sensor) : (s.setSensor i x).clk = s.clk := rfl
@[simp] theorem State.setSensor_pwr (s : State) (i : Nat) (x : Sensor) : (s.setSensor i x).pwr = s.pwr := rfl
@[simp] theorem State.setSensor_mgmt (s : State) (i : Nat) (x : Sensor) : (s.setSensor i x).mgmt = s.mgmt := rfl
@[simp] theorem State.setSensor_tb (s : State) (i : Nat) (x : Sensor) : (s.setSensor i x).tb = s.tb := rfl
@[simp] theorem State.setSensor_freeCtr (s : State) (i : Nat) (x : Sensor) : (s.setSensor i x).freeCtr = s.freeCtr := rfl
@[simp] theorem State.setSensor_pending (s : State) (i : Nat) (x : Sensor) : (s.setSensor i x).pending = s.pending := rfl

@[simp] theorem State.setSessions_start (s : State) (l : List SpdmSession) : (s.setSessions l).start = s.start := rfl
@[simp] theorem State.setSessions_host (s : State) (l : List SpdmSession) : (s.setSessions l).host = s.host := rfl
@[simp] theorem State.setSessions_blocks (s : State) (l : List SpdmSession) : (s.setSessions l).blocks = s.blocks := rfl
@[simp] theorem State.setSessions_mem (s : State) (l : List SpdmSession) : (s.setSessions l).mem = s.mem := rfl
@[simp] theorem State.setSessions_parts (s : State) (l : List SpdmSession) : (s.setSessions l).parts = s.parts := rfl
@[simp] theorem State.setSessions_cores (s : State) (l : List SpdmSession) : (s.setSessions l).cores = s.cores := rfl
@[simp] theorem State.setSessions_dies (s : State) (l : List SpdmSession) : (s.setSessions l).dies = s.dies := rfl
@[simp] theorem State.setSessions_hub (s : State) (l : List SpdmSession) : (s.setSessions l).hub = s.hub := rfl
@[simp] theorem State.setSessions_flash (s : State) (l : List SpdmSession) : (s.setSessions l).flash = s.flash := rfl
@[simp] theorem State.setSessions_span (s : State) (l : List SpdmSession) : (s.setSessions l).span = s.span := rfl
@[simp] theorem State.setSessions_cap (s : State) (l : List SpdmSession) : (s.setSessions l).cap = s.cap := rfl
@[simp] theorem State.setSessions_stw (s : State) (l : List SpdmSession) : (s.setSessions l).stw = s.stw := rfl
@[simp] theorem State.setSessions_fw (s : State) (l : List SpdmSession) : (s.setSessions l).fw = s.fw := rfl
@[simp] theorem State.setSessions_clk (s : State) (l : List SpdmSession) : (s.setSessions l).clk = s.clk := rfl
@[simp] theorem State.setSessions_pwr (s : State) (l : List SpdmSession) : (s.setSessions l).pwr = s.pwr := rfl
@[simp] theorem State.setSessions_mgmt (s : State) (l : List SpdmSession) : (s.setSessions l).mgmt = s.mgmt := rfl
@[simp] theorem State.setSessions_tb (s : State) (l : List SpdmSession) : (s.setSessions l).tb = s.tb := rfl
@[simp] theorem State.setSessions_freeCtr (s : State) (l : List SpdmSession) : (s.setSessions l).freeCtr = s.freeCtr := rfl
@[simp] theorem State.setSessions_pending (s : State) (l : List SpdmSession) : (s.setSessions l).pending = s.pending := rfl

@[simp] theorem State.setIde_start (s : State) (n : Nat) (x : IdeStream) : (s.setIde n x).start = s.start := rfl
@[simp] theorem State.setIde_host (s : State) (n : Nat) (x : IdeStream) : (s.setIde n x).host = s.host := rfl
@[simp] theorem State.setIde_blocks (s : State) (n : Nat) (x : IdeStream) : (s.setIde n x).blocks = s.blocks := rfl
@[simp] theorem State.setIde_mem (s : State) (n : Nat) (x : IdeStream) : (s.setIde n x).mem = s.mem := rfl
@[simp] theorem State.setIde_parts (s : State) (n : Nat) (x : IdeStream) : (s.setIde n x).parts = s.parts := rfl
@[simp] theorem State.setIde_cores (s : State) (n : Nat) (x : IdeStream) : (s.setIde n x).cores = s.cores := rfl
@[simp] theorem State.setIde_dies (s : State) (n : Nat) (x : IdeStream) : (s.setIde n x).dies = s.dies := rfl
@[simp] theorem State.setIde_hub (s : State) (n : Nat) (x : IdeStream) : (s.setIde n x).hub = s.hub := rfl
@[simp] theorem State.setIde_flash (s : State) (n : Nat) (x : IdeStream) : (s.setIde n x).flash = s.flash := rfl
@[simp] theorem State.setIde_span (s : State) (n : Nat) (x : IdeStream) : (s.setIde n x).span = s.span := rfl
@[simp] theorem State.setIde_cap (s : State) (n : Nat) (x : IdeStream) : (s.setIde n x).cap = s.cap := rfl
@[simp] theorem State.setIde_stw (s : State) (n : Nat) (x : IdeStream) : (s.setIde n x).stw = s.stw := rfl
@[simp] theorem State.setIde_fw (s : State) (n : Nat) (x : IdeStream) : (s.setIde n x).fw = s.fw := rfl
@[simp] theorem State.setIde_clk (s : State) (n : Nat) (x : IdeStream) : (s.setIde n x).clk = s.clk := rfl
@[simp] theorem State.setIde_pwr (s : State) (n : Nat) (x : IdeStream) : (s.setIde n x).pwr = s.pwr := rfl
@[simp] theorem State.setIde_mgmt (s : State) (n : Nat) (x : IdeStream) : (s.setIde n x).mgmt = s.mgmt := rfl
@[simp] theorem State.setIde_tb (s : State) (n : Nat) (x : IdeStream) : (s.setIde n x).tb = s.tb := rfl
@[simp] theorem State.setIde_freeCtr (s : State) (n : Nat) (x : IdeStream) : (s.setIde n x).freeCtr = s.freeCtr := rfl
@[simp] theorem State.setIde_pending (s : State) (n : Nat) (x : IdeStream) : (s.setIde n x).pending = s.pending := rfl

@[simp] theorem State.setSol_start (s : State) (o : Solstice) : (s.setSol o).start = s.start := rfl
@[simp] theorem State.setSol_host (s : State) (o : Solstice) : (s.setSol o).host = s.host := rfl
@[simp] theorem State.setSol_blocks (s : State) (o : Solstice) : (s.setSol o).blocks = s.blocks := rfl
@[simp] theorem State.setSol_mem (s : State) (o : Solstice) : (s.setSol o).mem = s.mem := rfl
@[simp] theorem State.setSol_parts (s : State) (o : Solstice) : (s.setSol o).parts = s.parts := rfl
@[simp] theorem State.setSol_cores (s : State) (o : Solstice) : (s.setSol o).cores = s.cores := rfl
@[simp] theorem State.setSol_dies (s : State) (o : Solstice) : (s.setSol o).dies = s.dies := rfl
@[simp] theorem State.setSol_hub (s : State) (o : Solstice) : (s.setSol o).hub = s.hub := rfl
@[simp] theorem State.setSol_flash (s : State) (o : Solstice) : (s.setSol o).flash = s.flash := rfl
@[simp] theorem State.setSol_span (s : State) (o : Solstice) : (s.setSol o).span = s.span := rfl
@[simp] theorem State.setSol_cap (s : State) (o : Solstice) : (s.setSol o).cap = s.cap := rfl
@[simp] theorem State.setSol_sec (s : State) (o : Solstice) : (s.setSol o).sec = s.sec := rfl
@[simp] theorem State.setSol_stw (s : State) (o : Solstice) : (s.setSol o).stw = s.stw := rfl
@[simp] theorem State.setSol_fw (s : State) (o : Solstice) : (s.setSol o).fw = s.fw := rfl
@[simp] theorem State.setSol_clk (s : State) (o : Solstice) : (s.setSol o).clk = s.clk := rfl
@[simp] theorem State.setSol_mgmt (s : State) (o : Solstice) : (s.setSol o).mgmt = s.mgmt := rfl
@[simp] theorem State.setSol_tb (s : State) (o : Solstice) : (s.setSol o).tb = s.tb := rfl
@[simp] theorem State.setSol_freeCtr (s : State) (o : Solstice) : (s.setSol o).freeCtr = s.freeCtr := rfl
@[simp] theorem State.setSol_pending (s : State) (o : Solstice) : (s.setSol o).pending = s.pending := rfl

@[simp] theorem State.setMgmt_start (s : State) (m : MgmtState) : (s.setMgmt m).start = s.start := rfl
@[simp] theorem State.setMgmt_host (s : State) (m : MgmtState) : (s.setMgmt m).host = s.host := rfl
@[simp] theorem State.setMgmt_blocks (s : State) (m : MgmtState) : (s.setMgmt m).blocks = s.blocks := rfl
@[simp] theorem State.setMgmt_mem (s : State) (m : MgmtState) : (s.setMgmt m).mem = s.mem := rfl
@[simp] theorem State.setMgmt_parts (s : State) (m : MgmtState) : (s.setMgmt m).parts = s.parts := rfl
@[simp] theorem State.setMgmt_cores (s : State) (m : MgmtState) : (s.setMgmt m).cores = s.cores := rfl
@[simp] theorem State.setMgmt_dies (s : State) (m : MgmtState) : (s.setMgmt m).dies = s.dies := rfl
@[simp] theorem State.setMgmt_hub (s : State) (m : MgmtState) : (s.setMgmt m).hub = s.hub := rfl
@[simp] theorem State.setMgmt_flash (s : State) (m : MgmtState) : (s.setMgmt m).flash = s.flash := rfl
@[simp] theorem State.setMgmt_span (s : State) (m : MgmtState) : (s.setMgmt m).span = s.span := rfl
@[simp] theorem State.setMgmt_cap (s : State) (m : MgmtState) : (s.setMgmt m).cap = s.cap := rfl
@[simp] theorem State.setMgmt_sec (s : State) (m : MgmtState) : (s.setMgmt m).sec = s.sec := rfl
@[simp] theorem State.setMgmt_stw (s : State) (m : MgmtState) : (s.setMgmt m).stw = s.stw := rfl
@[simp] theorem State.setMgmt_fw (s : State) (m : MgmtState) : (s.setMgmt m).fw = s.fw := rfl
@[simp] theorem State.setMgmt_clk (s : State) (m : MgmtState) : (s.setMgmt m).clk = s.clk := rfl
@[simp] theorem State.setMgmt_pwr (s : State) (m : MgmtState) : (s.setMgmt m).pwr = s.pwr := rfl
@[simp] theorem State.setMgmt_tb (s : State) (m : MgmtState) : (s.setMgmt m).tb = s.tb := rfl
@[simp] theorem State.setMgmt_freeCtr (s : State) (m : MgmtState) : (s.setMgmt m).freeCtr = s.freeCtr := rfl
@[simp] theorem State.setMgmt_pending (s : State) (m : MgmtState) : (s.setMgmt m).pending = s.pending := rfl

@[simp] theorem State.answer_start (s : State) (bs : List Byte) : (s.answer bs).start = s.start := rfl
@[simp] theorem State.answer_blocks (s : State) (bs : List Byte) : (s.answer bs).blocks = s.blocks := rfl
@[simp] theorem State.answer_mem (s : State) (bs : List Byte) : (s.answer bs).mem = s.mem := rfl
@[simp] theorem State.answer_parts (s : State) (bs : List Byte) : (s.answer bs).parts = s.parts := rfl
@[simp] theorem State.answer_cores (s : State) (bs : List Byte) : (s.answer bs).cores = s.cores := rfl
@[simp] theorem State.answer_dies (s : State) (bs : List Byte) : (s.answer bs).dies = s.dies := rfl
@[simp] theorem State.answer_hub (s : State) (bs : List Byte) : (s.answer bs).hub = s.hub := rfl
@[simp] theorem State.answer_flash (s : State) (bs : List Byte) : (s.answer bs).flash = s.flash := rfl
@[simp] theorem State.answer_span (s : State) (bs : List Byte) : (s.answer bs).span = s.span := rfl
@[simp] theorem State.answer_cap (s : State) (bs : List Byte) : (s.answer bs).cap = s.cap := rfl
@[simp] theorem State.answer_sec (s : State) (bs : List Byte) : (s.answer bs).sec = s.sec := rfl
@[simp] theorem State.answer_stw (s : State) (bs : List Byte) : (s.answer bs).stw = s.stw := rfl
@[simp] theorem State.answer_fw (s : State) (bs : List Byte) : (s.answer bs).fw = s.fw := rfl
@[simp] theorem State.answer_clk (s : State) (bs : List Byte) : (s.answer bs).clk = s.clk := rfl
@[simp] theorem State.answer_pwr (s : State) (bs : List Byte) : (s.answer bs).pwr = s.pwr := rfl
@[simp] theorem State.answer_mgmt (s : State) (bs : List Byte) : (s.answer bs).mgmt = s.mgmt := rfl
@[simp] theorem State.answer_tb (s : State) (bs : List Byte) : (s.answer bs).tb = s.tb := rfl
@[simp] theorem State.answer_freeCtr (s : State) (bs : List Byte) : (s.answer bs).freeCtr = s.freeCtr := rfl
@[simp] theorem State.answer_pending (s : State) (bs : List Byte) : (s.answer bs).pending = s.pending := rfl

@[simp] theorem State.sendMsix_start (s : State) (fn entry : Nat) : (s.sendMsix fn entry).start = s.start := rfl
@[simp] theorem State.sendMsix_blocks (s : State) (fn entry : Nat) : (s.sendMsix fn entry).blocks = s.blocks := rfl
@[simp] theorem State.sendMsix_mem (s : State) (fn entry : Nat) : (s.sendMsix fn entry).mem = s.mem := rfl
@[simp] theorem State.sendMsix_parts (s : State) (fn entry : Nat) : (s.sendMsix fn entry).parts = s.parts := rfl
@[simp] theorem State.sendMsix_cores (s : State) (fn entry : Nat) : (s.sendMsix fn entry).cores = s.cores := rfl
@[simp] theorem State.sendMsix_dies (s : State) (fn entry : Nat) : (s.sendMsix fn entry).dies = s.dies := rfl
@[simp] theorem State.sendMsix_hub (s : State) (fn entry : Nat) : (s.sendMsix fn entry).hub = s.hub := rfl
@[simp] theorem State.sendMsix_flash (s : State) (fn entry : Nat) : (s.sendMsix fn entry).flash = s.flash := rfl
@[simp] theorem State.sendMsix_span (s : State) (fn entry : Nat) : (s.sendMsix fn entry).span = s.span := rfl
@[simp] theorem State.sendMsix_cap (s : State) (fn entry : Nat) : (s.sendMsix fn entry).cap = s.cap := rfl
@[simp] theorem State.sendMsix_sec (s : State) (fn entry : Nat) : (s.sendMsix fn entry).sec = s.sec := rfl
@[simp] theorem State.sendMsix_stw (s : State) (fn entry : Nat) : (s.sendMsix fn entry).stw = s.stw := rfl
@[simp] theorem State.sendMsix_fw (s : State) (fn entry : Nat) : (s.sendMsix fn entry).fw = s.fw := rfl
@[simp] theorem State.sendMsix_clk (s : State) (fn entry : Nat) : (s.sendMsix fn entry).clk = s.clk := rfl
@[simp] theorem State.sendMsix_pwr (s : State) (fn entry : Nat) : (s.sendMsix fn entry).pwr = s.pwr := rfl
@[simp] theorem State.sendMsix_mgmt (s : State) (fn entry : Nat) : (s.sendMsix fn entry).mgmt = s.mgmt := rfl
@[simp] theorem State.sendMsix_tb (s : State) (fn entry : Nat) : (s.sendMsix fn entry).tb = s.tb := rfl
@[simp] theorem State.sendMsix_freeCtr (s : State) (fn entry : Nat) : (s.sendMsix fn entry).freeCtr = s.freeCtr := rfl
@[simp] theorem State.sendMsix_pending (s : State) (fn entry : Nat) : (s.sendMsix fn entry).pending = s.pending := rfl

@[simp] theorem State.withPending_start (s : State) (q : List Instr) : (s.withPending q).start = s.start := rfl
@[simp] theorem State.withPending_host (s : State) (q : List Instr) : (s.withPending q).host = s.host := rfl
@[simp] theorem State.withPending_blocks (s : State) (q : List Instr) : (s.withPending q).blocks = s.blocks := rfl
@[simp] theorem State.withPending_mem (s : State) (q : List Instr) : (s.withPending q).mem = s.mem := rfl
@[simp] theorem State.withPending_parts (s : State) (q : List Instr) : (s.withPending q).parts = s.parts := rfl
@[simp] theorem State.withPending_cores (s : State) (q : List Instr) : (s.withPending q).cores = s.cores := rfl
@[simp] theorem State.withPending_dies (s : State) (q : List Instr) : (s.withPending q).dies = s.dies := rfl
@[simp] theorem State.withPending_hub (s : State) (q : List Instr) : (s.withPending q).hub = s.hub := rfl
@[simp] theorem State.withPending_flash (s : State) (q : List Instr) : (s.withPending q).flash = s.flash := rfl
@[simp] theorem State.withPending_span (s : State) (q : List Instr) : (s.withPending q).span = s.span := rfl
@[simp] theorem State.withPending_cap (s : State) (q : List Instr) : (s.withPending q).cap = s.cap := rfl
@[simp] theorem State.withPending_sec (s : State) (q : List Instr) : (s.withPending q).sec = s.sec := rfl
@[simp] theorem State.withPending_stw (s : State) (q : List Instr) : (s.withPending q).stw = s.stw := rfl
@[simp] theorem State.withPending_fw (s : State) (q : List Instr) : (s.withPending q).fw = s.fw := rfl
@[simp] theorem State.withPending_clk (s : State) (q : List Instr) : (s.withPending q).clk = s.clk := rfl
@[simp] theorem State.withPending_pwr (s : State) (q : List Instr) : (s.withPending q).pwr = s.pwr := rfl
@[simp] theorem State.withPending_mgmt (s : State) (q : List Instr) : (s.withPending q).mgmt = s.mgmt := rfl
@[simp] theorem State.withPending_tb (s : State) (q : List Instr) : (s.withPending q).tb = s.tb := rfl
@[simp] theorem State.withPending_freeCtr (s : State) (q : List Instr) : (s.withPending q).freeCtr = s.freeCtr := rfl

@[simp] theorem State.tick_start (s : State) (dt : Nat) : (s.tick dt).start = s.start := rfl
@[simp] theorem State.tick_host (s : State) (dt : Nat) : (s.tick dt).host = s.host := rfl
@[simp] theorem State.tick_blocks (s : State) (dt : Nat) : (s.tick dt).blocks = s.blocks := rfl
@[simp] theorem State.tick_mem (s : State) (dt : Nat) : (s.tick dt).mem = s.mem := rfl
@[simp] theorem State.tick_parts (s : State) (dt : Nat) : (s.tick dt).parts = s.parts := rfl
@[simp] theorem State.tick_cores (s : State) (dt : Nat) : (s.tick dt).cores = s.cores := rfl
@[simp] theorem State.tick_dies (s : State) (dt : Nat) : (s.tick dt).dies = s.dies := rfl
@[simp] theorem State.tick_hub (s : State) (dt : Nat) : (s.tick dt).hub = s.hub := rfl
@[simp] theorem State.tick_flash (s : State) (dt : Nat) : (s.tick dt).flash = s.flash := rfl
@[simp] theorem State.tick_span (s : State) (dt : Nat) : (s.tick dt).span = s.span := rfl
@[simp] theorem State.tick_cap (s : State) (dt : Nat) : (s.tick dt).cap = s.cap := rfl
@[simp] theorem State.tick_sec (s : State) (dt : Nat) : (s.tick dt).sec = s.sec := rfl
@[simp] theorem State.tick_stw (s : State) (dt : Nat) : (s.tick dt).stw = s.stw := rfl
@[simp] theorem State.tick_fw (s : State) (dt : Nat) : (s.tick dt).fw = s.fw := rfl
@[simp] theorem State.tick_clk (s : State) (dt : Nat) : (s.tick dt).clk = s.clk := rfl
@[simp] theorem State.tick_mgmt (s : State) (dt : Nat) : (s.tick dt).mgmt = s.mgmt := rfl
@[simp] theorem State.tick_freeCtr (s : State) (dt : Nat) : (s.tick dt).freeCtr = s.freeCtr := rfl
@[simp] theorem State.tick_pending (s : State) (dt : Nat) : (s.tick dt).pending = s.pending := rfl

@[simp] theorem State.updPart_start (s : State) (p : Nat) (f : Partition → Partition) : (s.updPart p f).start = s.start := by unfold State.updPart; split <;> rfl
@[simp] theorem State.updPart_host (s : State) (p : Nat) (f : Partition → Partition) : (s.updPart p f).host = s.host := by unfold State.updPart; split <;> rfl
@[simp] theorem State.updPart_blocks (s : State) (p : Nat) (f : Partition → Partition) : (s.updPart p f).blocks = s.blocks := by unfold State.updPart; split <;> rfl
@[simp] theorem State.updPart_mem (s : State) (p : Nat) (f : Partition → Partition) : (s.updPart p f).mem = s.mem := by unfold State.updPart; split <;> rfl
@[simp] theorem State.updPart_cores (s : State) (p : Nat) (f : Partition → Partition) : (s.updPart p f).cores = s.cores := by unfold State.updPart; split <;> rfl
@[simp] theorem State.updPart_dies (s : State) (p : Nat) (f : Partition → Partition) : (s.updPart p f).dies = s.dies := by unfold State.updPart; split <;> rfl
@[simp] theorem State.updPart_hub (s : State) (p : Nat) (f : Partition → Partition) : (s.updPart p f).hub = s.hub := by unfold State.updPart; split <;> rfl
@[simp] theorem State.updPart_flash (s : State) (p : Nat) (f : Partition → Partition) : (s.updPart p f).flash = s.flash := by unfold State.updPart; split <;> rfl
@[simp] theorem State.updPart_span (s : State) (p : Nat) (f : Partition → Partition) : (s.updPart p f).span = s.span := by unfold State.updPart; split <;> rfl
@[simp] theorem State.updPart_cap (s : State) (p : Nat) (f : Partition → Partition) : (s.updPart p f).cap = s.cap := by unfold State.updPart; split <;> rfl
@[simp] theorem State.updPart_sec (s : State) (p : Nat) (f : Partition → Partition) : (s.updPart p f).sec = s.sec := by unfold State.updPart; split <;> rfl
@[simp] theorem State.updPart_stw (s : State) (p : Nat) (f : Partition → Partition) : (s.updPart p f).stw = s.stw := by unfold State.updPart; split <;> rfl
@[simp] theorem State.updPart_fw (s : State) (p : Nat) (f : Partition → Partition) : (s.updPart p f).fw = s.fw := by unfold State.updPart; split <;> rfl
@[simp] theorem State.updPart_clk (s : State) (p : Nat) (f : Partition → Partition) : (s.updPart p f).clk = s.clk := by unfold State.updPart; split <;> rfl
@[simp] theorem State.updPart_pwr (s : State) (p : Nat) (f : Partition → Partition) : (s.updPart p f).pwr = s.pwr := by unfold State.updPart; split <;> rfl
@[simp] theorem State.updPart_mgmt (s : State) (p : Nat) (f : Partition → Partition) : (s.updPart p f).mgmt = s.mgmt := by unfold State.updPart; split <;> rfl
@[simp] theorem State.updPart_tb (s : State) (p : Nat) (f : Partition → Partition) : (s.updPart p f).tb = s.tb := by unfold State.updPart; split <;> rfl
@[simp] theorem State.updPart_freeCtr (s : State) (p : Nat) (f : Partition → Partition) : (s.updPart p f).freeCtr = s.freeCtr := by unfold State.updPart; split <;> rfl
@[simp] theorem State.updPart_pending (s : State) (p : Nat) (f : Partition → Partition) : (s.updPart p f).pending = s.pending := by unfold State.updPart; split <;> rfl

@[simp] theorem State.updCtx_start (s : State) (p c : Nat) (f : Context → Context) : (s.updCtx p c f).start = s.start := by simp [State.updCtx]
@[simp] theorem State.updCtx_host (s : State) (p c : Nat) (f : Context → Context) : (s.updCtx p c f).host = s.host := by simp [State.updCtx]
@[simp] theorem State.updCtx_blocks (s : State) (p c : Nat) (f : Context → Context) : (s.updCtx p c f).blocks = s.blocks := by simp [State.updCtx]
@[simp] theorem State.updCtx_mem (s : State) (p c : Nat) (f : Context → Context) : (s.updCtx p c f).mem = s.mem := by simp [State.updCtx]
@[simp] theorem State.updCtx_cores (s : State) (p c : Nat) (f : Context → Context) : (s.updCtx p c f).cores = s.cores := by simp [State.updCtx]
@[simp] theorem State.updCtx_dies (s : State) (p c : Nat) (f : Context → Context) : (s.updCtx p c f).dies = s.dies := by simp [State.updCtx]
@[simp] theorem State.updCtx_hub (s : State) (p c : Nat) (f : Context → Context) : (s.updCtx p c f).hub = s.hub := by simp [State.updCtx]
@[simp] theorem State.updCtx_flash (s : State) (p c : Nat) (f : Context → Context) : (s.updCtx p c f).flash = s.flash := by simp [State.updCtx]
@[simp] theorem State.updCtx_span (s : State) (p c : Nat) (f : Context → Context) : (s.updCtx p c f).span = s.span := by simp [State.updCtx]
@[simp] theorem State.updCtx_cap (s : State) (p c : Nat) (f : Context → Context) : (s.updCtx p c f).cap = s.cap := by simp [State.updCtx]
@[simp] theorem State.updCtx_sec (s : State) (p c : Nat) (f : Context → Context) : (s.updCtx p c f).sec = s.sec := by simp [State.updCtx]
@[simp] theorem State.updCtx_stw (s : State) (p c : Nat) (f : Context → Context) : (s.updCtx p c f).stw = s.stw := by simp [State.updCtx]
@[simp] theorem State.updCtx_fw (s : State) (p c : Nat) (f : Context → Context) : (s.updCtx p c f).fw = s.fw := by simp [State.updCtx]
@[simp] theorem State.updCtx_clk (s : State) (p c : Nat) (f : Context → Context) : (s.updCtx p c f).clk = s.clk := by simp [State.updCtx]
@[simp] theorem State.updCtx_pwr (s : State) (p c : Nat) (f : Context → Context) : (s.updCtx p c f).pwr = s.pwr := by simp [State.updCtx]
@[simp] theorem State.updCtx_mgmt (s : State) (p c : Nat) (f : Context → Context) : (s.updCtx p c f).mgmt = s.mgmt := by simp [State.updCtx]
@[simp] theorem State.updCtx_tb (s : State) (p c : Nat) (f : Context → Context) : (s.updCtx p c f).tb = s.tb := by simp [State.updCtx]
@[simp] theorem State.updCtx_freeCtr (s : State) (p c : Nat) (f : Context → Context) : (s.updCtx p c f).freeCtr = s.freeCtr := by simp [State.updCtx]
@[simp] theorem State.updCtx_pending (s : State) (p c : Nat) (f : Context → Context) : (s.updCtx p c f).pending = s.pending := by simp [State.updCtx]

@[simp] theorem State.updKv_start (s : State) (p c : Nat) (f : KvState → KvState) : (s.updKv p c f).start = s.start := by simp [State.updKv]
@[simp] theorem State.updKv_host (s : State) (p c : Nat) (f : KvState → KvState) : (s.updKv p c f).host = s.host := by simp [State.updKv]
@[simp] theorem State.updKv_blocks (s : State) (p c : Nat) (f : KvState → KvState) : (s.updKv p c f).blocks = s.blocks := by simp [State.updKv]
@[simp] theorem State.updKv_mem (s : State) (p c : Nat) (f : KvState → KvState) : (s.updKv p c f).mem = s.mem := by simp [State.updKv]
@[simp] theorem State.updKv_cores (s : State) (p c : Nat) (f : KvState → KvState) : (s.updKv p c f).cores = s.cores := by simp [State.updKv]
@[simp] theorem State.updKv_dies (s : State) (p c : Nat) (f : KvState → KvState) : (s.updKv p c f).dies = s.dies := by simp [State.updKv]
@[simp] theorem State.updKv_hub (s : State) (p c : Nat) (f : KvState → KvState) : (s.updKv p c f).hub = s.hub := by simp [State.updKv]
@[simp] theorem State.updKv_flash (s : State) (p c : Nat) (f : KvState → KvState) : (s.updKv p c f).flash = s.flash := by simp [State.updKv]
@[simp] theorem State.updKv_span (s : State) (p c : Nat) (f : KvState → KvState) : (s.updKv p c f).span = s.span := by simp [State.updKv]
@[simp] theorem State.updKv_cap (s : State) (p c : Nat) (f : KvState → KvState) : (s.updKv p c f).cap = s.cap := by simp [State.updKv]
@[simp] theorem State.updKv_sec (s : State) (p c : Nat) (f : KvState → KvState) : (s.updKv p c f).sec = s.sec := by simp [State.updKv]
@[simp] theorem State.updKv_stw (s : State) (p c : Nat) (f : KvState → KvState) : (s.updKv p c f).stw = s.stw := by simp [State.updKv]
@[simp] theorem State.updKv_fw (s : State) (p c : Nat) (f : KvState → KvState) : (s.updKv p c f).fw = s.fw := by simp [State.updKv]
@[simp] theorem State.updKv_clk (s : State) (p c : Nat) (f : KvState → KvState) : (s.updKv p c f).clk = s.clk := by simp [State.updKv]
@[simp] theorem State.updKv_pwr (s : State) (p c : Nat) (f : KvState → KvState) : (s.updKv p c f).pwr = s.pwr := by simp [State.updKv]
@[simp] theorem State.updKv_mgmt (s : State) (p c : Nat) (f : KvState → KvState) : (s.updKv p c f).mgmt = s.mgmt := by simp [State.updKv]
@[simp] theorem State.updKv_tb (s : State) (p c : Nat) (f : KvState → KvState) : (s.updKv p c f).tb = s.tb := by simp [State.updKv]
@[simp] theorem State.updKv_freeCtr (s : State) (p c : Nat) (f : KvState → KvState) : (s.updKv p c f).freeCtr = s.freeCtr := by simp [State.updKv]
@[simp] theorem State.updKv_pending (s : State) (p c : Nat) (f : KvState → KvState) : (s.updKv p c f).pending = s.pending := by simp [State.updKv]

@[simp] theorem State.takeFree_start (s : State) : s.takeFree.2.start = s.start := rfl
@[simp] theorem State.takeFree_host (s : State) : s.takeFree.2.host = s.host := rfl
@[simp] theorem State.takeFree_blocks (s : State) : s.takeFree.2.blocks = s.blocks := rfl
@[simp] theorem State.takeFree_mem (s : State) : s.takeFree.2.mem = s.mem := rfl
@[simp] theorem State.takeFree_parts (s : State) : s.takeFree.2.parts = s.parts := rfl
@[simp] theorem State.takeFree_cores (s : State) : s.takeFree.2.cores = s.cores := rfl
@[simp] theorem State.takeFree_dies (s : State) : s.takeFree.2.dies = s.dies := rfl
@[simp] theorem State.takeFree_hub (s : State) : s.takeFree.2.hub = s.hub := rfl
@[simp] theorem State.takeFree_flash (s : State) : s.takeFree.2.flash = s.flash := rfl
@[simp] theorem State.takeFree_span (s : State) : s.takeFree.2.span = s.span := rfl
@[simp] theorem State.takeFree_cap (s : State) : s.takeFree.2.cap = s.cap := rfl
@[simp] theorem State.takeFree_sec (s : State) : s.takeFree.2.sec = s.sec := rfl
@[simp] theorem State.takeFree_stw (s : State) : s.takeFree.2.stw = s.stw := rfl
@[simp] theorem State.takeFree_fw (s : State) : s.takeFree.2.fw = s.fw := rfl
@[simp] theorem State.takeFree_clk (s : State) : s.takeFree.2.clk = s.clk := rfl
@[simp] theorem State.takeFree_pwr (s : State) : s.takeFree.2.pwr = s.pwr := rfl
@[simp] theorem State.takeFree_mgmt (s : State) : s.takeFree.2.mgmt = s.mgmt := rfl
@[simp] theorem State.takeFree_tb (s : State) : s.takeFree.2.tb = s.tb := rfl
@[simp] theorem State.takeFree_pending (s : State) : s.takeFree.2.pending = s.pending := rfl

/-- Free values change the count of free values alone. -/
theorem State.takeFrees_eq (n : Nat) (s : State) : (State.takeFrees n s).2 = { s with freeCtr := s.freeCtr + n } := by
  induction n generalizing s with
  | zero => rfl
  | succ n ih => simp only [State.takeFrees, ih, State.takeFree]; congr 1; omega

end Sys2Proof.Machine
end

