-- ==== Sys2Proof/Laws/Tile.lean ====
section
/-! SUPPORT. One issue of a tile instruction, and what the storage operations of a core leave alone. -/

namespace Sys2Proof.Machine

/-! ### Storage operations leave the sequencer, the array, the engines and the run alone -/

namespace Cu

@[simp] theorem countSpadRbw_seq (c : Core) (n : Nat) : (countSpadRbw c n).seq = c.seq := by unfold countSpadRbw; split <;> rfl
@[simp] theorem countSpadRbw_arr (c : Core) (n : Nat) : (countSpadRbw c n).arr = c.arr := by unfold countSpadRbw; split <;> rfl
@[simp] theorem countSpadRbw_dma0 (c : Core) (n : Nat) : (countSpadRbw c n).dma0 = c.dma0 := by unfold countSpadRbw; split <;> rfl
@[simp] theorem countSpadRbw_dma1 (c : Core) (n : Nat) : (countSpadRbw c n).dma1 = c.dma1 := by unfold countSpadRbw; split <;> rfl
@[simp] theorem countSpadRbw_ports (c : Core) (n : Nat) : (countSpadRbw c n).ports = c.ports := by unfold countSpadRbw; split <;> rfl
@[simp] theorem countSpadRbw_run (c : Core) (n : Nat) : (countSpadRbw c n).run = c.run := by unfold countSpadRbw; split <;> rfl

@[simp] theorem countAccRbw_seq (c : Core) (n : Nat) : (countAccRbw c n).seq = c.seq := by unfold countAccRbw; split <;> rfl
@[simp] theorem countAccRbw_arr (c : Core) (n : Nat) : (countAccRbw c n).arr = c.arr := by unfold countAccRbw; split <;> rfl
@[simp] theorem countAccRbw_dma0 (c : Core) (n : Nat) : (countAccRbw c n).dma0 = c.dma0 := by unfold countAccRbw; split <;> rfl
@[simp] theorem countAccRbw_dma1 (c : Core) (n : Nat) : (countAccRbw c n).dma1 = c.dma1 := by unfold countAccRbw; split <;> rfl
@[simp] theorem countAccRbw_ports (c : Core) (n : Nat) : (countAccRbw c n).ports = c.ports := by unfold countAccRbw; split <;> rfl
@[simp] theorem countAccRbw_run (c : Core) (n : Nat) : (countAccRbw c n).run = c.run := by unfold countAccRbw; split <;> rfl

@[simp] theorem countStateRbw_seq (c : Core) (n : Nat) : (countStateRbw c n).seq = c.seq := by unfold countStateRbw; split <;> rfl
@[simp] theorem countStateRbw_arr (c : Core) (n : Nat) : (countStateRbw c n).arr = c.arr := by unfold countStateRbw; split <;> rfl
@[simp] theorem countStateRbw_dma0 (c : Core) (n : Nat) : (countStateRbw c n).dma0 = c.dma0 := by unfold countStateRbw; split <;> rfl
@[simp] theorem countStateRbw_dma1 (c : Core) (n : Nat) : (countStateRbw c n).dma1 = c.dma1 := by unfold countStateRbw; split <;> rfl
@[simp] theorem countStateRbw_ports (c : Core) (n : Nat) : (countStateRbw c n).ports = c.ports := by unfold countStateRbw; split <;> rfl
@[simp] theorem countStateRbw_run (c : Core) (n : Nat) : (countStateRbw c n).run = c.run := by unfold countStateRbw; split <;> rfl

@[simp] theorem bankRead_seq (c : Core) (off n : Nat) : ((bankRead c off n).2).seq = c.seq := countSpadRbw_seq _ _
@[simp] theorem bankRead_arr (c : Core) (off n : Nat) : ((bankRead c off n).2).arr = c.arr := countSpadRbw_arr _ _
@[simp] theorem bankRead_dma0 (c : Core) (off n : Nat) : ((bankRead c off n).2).dma0 = c.dma0 := countSpadRbw_dma0 _ _
@[simp] theorem bankRead_dma1 (c : Core) (off n : Nat) : ((bankRead c off n).2).dma1 = c.dma1 := countSpadRbw_dma1 _ _
@[simp] theorem bankRead_ports (c : Core) (off n : Nat) : ((bankRead c off n).2).ports = c.ports := countSpadRbw_ports _ _
@[simp] theorem bankRead_run (c : Core) (off n : Nat) : ((bankRead c off n).2).run = c.run := countSpadRbw_run _ _

@[simp] theorem openLine_seq (own : Bool) (c : Core) (l : Nat) : (openLine own c l).seq = c.seq := rfl
@[simp] theorem openLine_arr (own : Bool) (c : Core) (l : Nat) : (openLine own c l).arr = c.arr := rfl
@[simp] theorem openLine_dma0 (own : Bool) (c : Core) (l : Nat) : (openLine own c l).dma0 = c.dma0 := rfl
@[simp] theorem openLine_dma1 (own : Bool) (c : Core) (l : Nat) : (openLine own c l).dma1 = c.dma1 := rfl
@[simp] theorem openLine_ports (own : Bool) (c : Core) (l : Nat) : (openLine own c l).ports = c.ports := rfl
@[simp] theorem openLine_run (own : Bool) (c : Core) (l : Nat) : (openLine own c l).run = c.run := rfl

theorem foldl_openLine_seq (own : Bool) (ls : List Nat) (c : Core) : (ls.foldl (openLine own) c).seq = c.seq := by
  induction ls generalizing c with
  | nil => rfl
  | cons l ls ih => rw [List.foldl_cons, ih, openLine_seq]
theorem foldl_noteWrite_seq (ps : Memory) (b : Nat) (c : Core) :
    (ps.foldl (fun d p => noteWrite d (b + p.1) 1) c).seq = c.seq := by
  induction ps generalizing c with
  | nil => rfl
  | cons p ps ih => rw [List.foldl_cons, ih]; rfl
theorem foldl_openLine_arr (own : Bool) (ls : List Nat) (c : Core) : (ls.foldl (openLine own) c).arr = c.arr := by
  induction ls generalizing c with
  | nil => rfl
  | cons l ls ih => rw [List.foldl_cons, ih, openLine_arr]
theorem foldl_noteWrite_arr (ps : Memory) (b : Nat) (c : Core) :
    (ps.foldl (fun d p => noteWrite d (b + p.1) 1) c).arr = c.arr := by
  induction ps generalizing c with
  | nil => rfl
  | cons p ps ih => rw [List.foldl_cons, ih]; rfl

/-! Writes of SPAD may race with moves in progress, which engines, ports and span operations note; the rest stays. -/

@[simp] theorem noteWrite_seq (c : Core) (off n : Nat) : (noteWrite c off n).seq = c.seq := rfl
@[simp] theorem noteWrite_arr (c : Core) (off n : Nat) : (noteWrite c off n).arr = c.arr := rfl

@[simp] theorem bankWrite_seq (c : Core) (own : Bool) (off : Nat) (bs : List Byte) : (bankWrite c own off bs).seq = c.seq := by
  simp only [bankWrite]; rw [foldl_openLine_seq]; rfl
@[simp] theorem bankWrite_arr (c : Core) (own : Bool) (off : Nat) (bs : List Byte) : (bankWrite c own off bs).arr = c.arr := by
  simp only [bankWrite]; rw [foldl_openLine_arr]; rfl

@[simp] theorem flushEntry_seq (c : Core) (e : GbEntry) : (flushEntry c e).seq = c.seq := by
  simp only [flushEntry, openLine_seq]; exact foldl_noteWrite_seq _ _ c
@[simp] theorem flushEntry_arr (c : Core) (e : GbEntry) : (flushEntry c e).arr = c.arr := by
  simp only [flushEntry, openLine_arr]; exact foldl_noteWrite_arr _ _ c

theorem foldl_flushEntry_seq (es : List GbEntry) (c : Core) : (es.foldl flushEntry c).seq = c.seq := by
  induction es generalizing c with
  | nil => rfl
  | cons e es ih => rw [List.foldl_cons, ih, flushEntry_seq]
theorem foldl_flushEntry_arr (es : List GbEntry) (c : Core) : (es.foldl flushEntry c).arr = c.arr := by
  induction es generalizing c with
  | nil => rfl
  | cons e es ih => rw [List.foldl_cons, ih, flushEntry_arr]

@[simp] theorem flushWhere_seq (c : Core) (p : Nat → Bool) : (flushWhere c p).seq = c.seq := foldl_flushEntry_seq _ c
@[simp] theorem flushWhere_arr (c : Core) (p : Nat → Bool) : (flushWhere c p).arr = c.arr := foldl_flushEntry_arr _ c

@[simp] theorem flushAll_seq (c : Core) : (flushAll c).seq = c.seq := flushWhere_seq c _
@[simp] theorem flushAll_arr (c : Core) : (flushAll c).arr = c.arr := flushWhere_arr c _

@[simp] theorem snoop_seq (c : Core) (off n : Nat) : (snoop c off n).seq = c.seq := flushWhere_seq c _
@[simp] theorem snoop_arr (c : Core) (off n : Nat) : (snoop c off n).arr = c.arr := flushWhere_arr c _

@[simp] theorem narrowPart_seq (c : Core) (off : Nat) : ((narrowPart c off).2).seq = c.seq := by
  unfold narrowPart
  split
  · split
    · rfl
    · simp
  · rfl
@[simp] theorem narrowPart_arr (c : Core) (off : Nat) : ((narrowPart c off).2).arr = c.arr := by
  unfold narrowPart
  split
  · split
    · rfl
    · simp
  · rfl

@[simp] theorem flushIfFull_seq (c : Core) (e : GbEntry) : (flushIfFull c e).seq = c.seq := by unfold flushIfFull; split <;> simp
@[simp] theorem flushIfFull_arr (c : Core) (e : GbEntry) : (flushIfFull c e).arr = c.arr := by unfold flushIfFull; split <;> simp

@[simp] theorem narrowMerge_seq (c : Core) (off : Nat) (bs : List Byte) : (narrowMerge c off bs).seq = c.seq := by
  unfold narrowMerge
  split
  · simp
  · simp only [flushIfFull_seq]
    split
    · rfl
    · split <;> simp
@[simp] theorem narrowMerge_arr (c : Core) (off : Nat) (bs : List Byte) : (narrowMerge c off bs).arr = c.arr := by
  unfold narrowMerge
  split
  · simp
  · simp only [flushIfFull_arr]
    split
    · rfl
    · split <;> simp

@[simp] theorem narrowWrite_seq (c : Core) (off : Nat) (bs : List Byte) : (narrowWrite c off bs).seq = c.seq := by simp [narrowWrite]
@[simp] theorem narrowWrite_arr (c : Core) (off : Nat) (bs : List Byte) : (narrowWrite c off bs).arr = c.arr := by simp [narrowWrite]

@[simp] theorem narrowParts_seq (c : Core) (off k : Nat) : (narrowParts c off k).2.seq = c.seq := by
  induction k generalizing c off with
  | zero => rfl
  | succ k ih => simp only [narrowParts]; rw [ih, narrowPart_seq]
@[simp] theorem narrowReads_seq (c : Core) (off k : Nat) : (narrowReads c off k).2.seq = c.seq := by simp [narrowReads]
@[simp] theorem narrowWrites_seq (c : Core) (off k : Nat) (bs : List Byte) : (narrowWrites c off k bs).seq = c.seq := by
  induction k generalizing c off bs with
  | zero => rfl
  | succ k ih => simp only [narrowWrites]; rw [ih, narrowWrite_seq]
@[simp] theorem narrowParts_arr (c : Core) (off k : Nat) : (narrowParts c off k).2.arr = c.arr := by
  induction k generalizing c off with
  | zero => rfl
  | succ k ih => simp only [narrowParts]; rw [ih, narrowPart_arr]
@[simp] theorem narrowReads_arr (c : Core) (off k : Nat) : (narrowReads c off k).2.arr = c.arr := by simp [narrowReads]
@[simp] theorem narrowWrites_arr (c : Core) (off k : Nat) (bs : List Byte) : (narrowWrites c off k bs).arr = c.arr := by
  induction k generalizing c off bs with
  | zero => rfl
  | succ k ih => simp only [narrowWrites]; rw [ih, narrowWrite_arr]

@[simp] theorem wideRead_seq (c : Core) (off n : Nat) : ((wideRead c off n).2).seq = c.seq := by simp [wideRead]
@[simp] theorem wideRead_arr (c : Core) (off n : Nat) : ((wideRead c off n).2).arr = c.arr := by simp [wideRead]

@[simp] theorem wideWrite_seq (c : Core) (own : Bool) (off : Nat) (bs : List Byte) : (wideWrite c own off bs).seq = c.seq := by simp [wideWrite]
@[simp] theorem wideWrite_arr (c : Core) (own : Bool) (off : Nat) (bs : List Byte) : (wideWrite c own off bs).arr = c.arr := by simp [wideWrite]

@[simp] theorem rowRead_seq (c : Core) (r : Nat) : ((rowRead c r).2).seq = c.seq := by simp [rowRead]
@[simp] theorem rowRead_arr (c : Core) (r : Nat) : ((rowRead c r).2).arr = c.arr := by simp [rowRead]
@[simp] theorem rowRead_dma0 (c : Core) (r : Nat) : ((rowRead c r).2).dma0 = c.dma0 := by simp [rowRead]
@[simp] theorem rowRead_dma1 (c : Core) (r : Nat) : ((rowRead c r).2).dma1 = c.dma1 := by simp [rowRead]
@[simp] theorem rowRead_ports (c : Core) (r : Nat) : ((rowRead c r).2).ports = c.ports := by simp [rowRead]
@[simp] theorem rowRead_run (c : Core) (r : Nat) : ((rowRead c r).2).run = c.run := by simp [rowRead]

@[simp] theorem rowWrite_seq (c : Core) (r : Nat) (ws : List Word) : (rowWrite c r ws).seq = c.seq := rfl
@[simp] theorem rowWrite_arr (c : Core) (r : Nat) (ws : List Word) : (rowWrite c r ws).arr = c.arr := rfl
@[simp] theorem rowWrite_dma0 (c : Core) (r : Nat) (ws : List Word) : (rowWrite c r ws).dma0 = c.dma0 := rfl
@[simp] theorem rowWrite_dma1 (c : Core) (r : Nat) (ws : List Word) : (rowWrite c r ws).dma1 = c.dma1 := rfl
@[simp] theorem rowWrite_ports (c : Core) (r : Nat) (ws : List Word) : (rowWrite c r ws).ports = c.ports := rfl
@[simp] theorem rowWrite_run (c : Core) (r : Nat) (ws : List Word) : (rowWrite c r ws).run = c.run := rfl

@[simp] theorem segRead_seq (c : Core) (s : Nat) : ((segRead c s).2).seq = c.seq := by simp [segRead]
@[simp] theorem segRead_arr (c : Core) (s : Nat) : ((segRead c s).2).arr = c.arr := by simp [segRead]
@[simp] theorem segRead_dma0 (c : Core) (s : Nat) : ((segRead c s).2).dma0 = c.dma0 := by simp [segRead]
@[simp] theorem segRead_dma1 (c : Core) (s : Nat) : ((segRead c s).2).dma1 = c.dma1 := by simp [segRead]
@[simp] theorem segRead_ports (c : Core) (s : Nat) : ((segRead c s).2).ports = c.ports := by simp [segRead]
@[simp] theorem segRead_run (c : Core) (s : Nat) : ((segRead c s).2).run = c.run := by simp [segRead]

@[simp] theorem segWrite_seq (c : Core) (s : Nat) (ws : List Word) : (segWrite c s ws).seq = c.seq := rfl
@[simp] theorem segWrite_arr (c : Core) (s : Nat) (ws : List Word) : (segWrite c s ws).arr = c.arr := rfl
@[simp] theorem segWrite_dma0 (c : Core) (s : Nat) (ws : List Word) : (segWrite c s ws).dma0 = c.dma0 := rfl
@[simp] theorem segWrite_dma1 (c : Core) (s : Nat) (ws : List Word) : (segWrite c s ws).dma1 = c.dma1 := rfl
@[simp] theorem segWrite_ports (c : Core) (s : Nat) (ws : List Word) : (segWrite c s ws).ports = c.ports := rfl
@[simp] theorem segWrite_run (c : Core) (s : Nat) (ws : List Word) : (segWrite c s ws).run = c.run := rfl

@[simp] theorem readSegs_seq (c : Core) (s n : Nat) : (readSegs c s n).2.seq = c.seq := by
  induction n with
  | zero => rfl
  | succ n ih => simp only [readSegs]; rw [segRead_seq, ih]
@[simp] theorem loadSegs_seq (c : Core) (s : Nat) (bs : List Byte) (n : Nat) : (loadSegs c s bs n).seq = c.seq := by
  induction n with
  | zero => rfl
  | succ n ih => simp only [loadSegs]; rw [segWrite_seq, ih]
@[simp] theorem readSegs_arr (c : Core) (s n : Nat) : (readSegs c s n).2.arr = c.arr := by
  induction n with
  | zero => rfl
  | succ n ih => simp only [readSegs]; rw [segRead_arr, ih]
@[simp] theorem loadSegs_arr (c : Core) (s : Nat) (bs : List Byte) (n : Nat) : (loadSegs c s bs n).arr = c.arr := by
  induction n with
  | zero => rfl
  | succ n ih => simp only [loadSegs]; rw [segWrite_arr, ih]
@[simp] theorem readSegs_dma0 (c : Core) (s n : Nat) : (readSegs c s n).2.dma0 = c.dma0 := by
  induction n with
  | zero => rfl
  | succ n ih => simp only [readSegs]; rw [segRead_dma0, ih]
@[simp] theorem loadSegs_dma0 (c : Core) (s : Nat) (bs : List Byte) (n : Nat) : (loadSegs c s bs n).dma0 = c.dma0 := by
  induction n with
  | zero => rfl
  | succ n ih => simp only [loadSegs]; rw [segWrite_dma0, ih]
@[simp] theorem readSegs_dma1 (c : Core) (s n : Nat) : (readSegs c s n).2.dma1 = c.dma1 := by
  induction n with
  | zero => rfl
  | succ n ih => simp only [readSegs]; rw [segRead_dma1, ih]
@[simp] theorem loadSegs_dma1 (c : Core) (s : Nat) (bs : List Byte) (n : Nat) : (loadSegs c s bs n).dma1 = c.dma1 := by
  induction n with
  | zero => rfl
  | succ n ih => simp only [loadSegs]; rw [segWrite_dma1, ih]
@[simp] theorem readSegs_ports (c : Core) (s n : Nat) : (readSegs c s n).2.ports = c.ports := by
  induction n with
  | zero => rfl
  | succ n ih => simp only [readSegs]; rw [segRead_ports, ih]
@[simp] theorem loadSegs_ports (c : Core) (s : Nat) (bs : List Byte) (n : Nat) : (loadSegs c s bs n).ports = c.ports := by
  induction n with
  | zero => rfl
  | succ n ih => simp only [loadSegs]; rw [segWrite_ports, ih]
@[simp] theorem readSegs_run (c : Core) (s n : Nat) : (readSegs c s n).2.run = c.run := by
  induction n with
  | zero => rfl
  | succ n ih => simp only [readSegs]; rw [segRead_run, ih]
@[simp] theorem loadSegs_run (c : Core) (s : Nat) (bs : List Byte) (n : Nat) : (loadSegs c s bs n).run = c.run := by
  induction n with
  | zero => rfl
  | succ n ih => simp only [loadSegs]; rw [segWrite_run, ih]
@[simp] theorem flushRow_seq (bf clear : Bool) (d : Nat) (c : Core) (r0 i : Nat) : (flushRow bf clear d c r0 i).seq = c.seq := by
  unfold flushRow; dsimp only; (split <;> split) <;> simp [-List.reduceReplicate]
@[simp] theorem flushRow_arr (bf clear : Bool) (d : Nat) (c : Core) (r0 i : Nat) : (flushRow bf clear d c r0 i).arr = c.arr := by
  unfold flushRow; dsimp only; (split <;> split) <;> simp [-List.reduceReplicate]

/-! ### Register writes keep the program counter and the loops -/

@[simp] theorem setX_pc (c : Core) (i : BitVec 4) (r : Word) : (setX c i r).seq.pc = c.seq.pc := by unfold setX; split <;> rfl
@[simp] theorem setX_loops (c : Core) (i : BitVec 4) (r : Word) : (setX c i r).seq.loops = c.seq.loops := by
  unfold setX; split <;> rfl
@[simp] theorem setX_lc (c : Core) (i : BitVec 4) (r : Word) : (setX c i r).seq.lc = c.seq.lc := by unfold setX; split <;> rfl
@[simp] theorem setV_pc (c : Core) (i : BitVec 4) (ws : List Word) : (setV c i ws).seq.pc = c.seq.pc := rfl
@[simp] theorem setV_loops (c : Core) (i : BitVec 4) (ws : List Word) : (setV c i ws).seq.loops = c.seq.loops := rfl
@[simp] theorem setV_lc (c : Core) (i : BitVec 4) (ws : List Word) : (setV c i ws).seq.lc = c.seq.lc := rfl
@[simp] theorem setVFrom_pc (c : Core) (i : BitVec 4) (k : Nat) (ws : List Word) : (setVFrom c i k ws).seq.pc = c.seq.pc := rfl
@[simp] theorem setVFrom_loops (c : Core) (i : BitVec 4) (k : Nat) (ws : List Word) :
    (setVFrom c i k ws).seq.loops = c.seq.loops := rfl
@[simp] theorem setVFrom_lc (c : Core) (i : BitVec 4) (k : Nat) (ws : List Word) : (setVFrom c i k ws).seq.lc = c.seq.lc := rfl
@[simp] theorem setSem_pc (c : Core) (i : Nat) (n : BitVec 16) : (setSem c i n).seq.pc = c.seq.pc := rfl
@[simp] theorem setSem_loops (c : Core) (i : Nat) (n : BitVec 16) : (setSem c i n).seq.loops = c.seq.loops := rfl
@[simp] theorem setSem_lc (c : Core) (i : Nat) (n : BitVec 16) : (setSem c i n).seq.lc = c.seq.lc := rfl
@[simp] theorem qstatHold_seq (c : Core) (d : QstatDelta) : (qstatHold c d).seq = c.seq := rfl

/-! ### Checks -/

theorem legal_pos {ok : Bool} (h : ok = true) (u : Nat) (k : Res) : legal ok u k = k := if_pos h
theorem legal_neg {ok : Bool} (h : ok = false) (u : Nat) (k : Res) : legal ok u k = .fault fIllegal u 0 := by
  unfold legal; rw [h]; rfl
theorem spadRange_pos {off n align : Nat} (h1 : off % align = 0) (h2 : off + n ≤ spadBytes) (u : Nat) (k : Res) :
    spadRange off n align u k = k := by
  unfold spadRange; rw [if_neg (by omega)]
theorem withAccess_pos {c : Core} {off n : Nat} (h : access c off n = .ok) (u : Nat) (k : Res) : withAccess c off n u k = k := by
  unfold withAccess; rw [h]

/-- The offset of a SPAD operand (R157). -/
theorem ea_low22 (c : Core) (w : TileWord) (i : BitVec 4) :
    ea c i (immBits w 21 0) = (x c i).toNat + w.imm.toNat % 0x400000 := by simp [ea, immBits, bitsOf]

/-- An instruction that goes on leaves the core at its next instruction. -/
theorem next_eq {c : Core} (h : GoesOn c) : next c = .done (advance c) := by
  unfold next continueFrom advance
  simp only
  rw [if_neg (by omega)]

/-- What decides whether an instruction goes on. -/
theorem goesOn_congr {c d : Core} (h1 : d.seq.pc = c.seq.pc) (h2 : d.seq.loops = c.seq.loops) (h3 : d.seq.lc = c.seq.lc)
    (h : GoesOn c) : GoesOn d := by
  unfold GoesOn; rw [h1, h2, h3]; exact h

/-- Goes on after a change that leaves the program counter and the loops alone. -/
theorem next_of {c d : Core} (h : GoesOn c) (h1 : d.seq.pc = c.seq.pc) (h2 : d.seq.loops = c.seq.loops)
    (h3 : d.seq.lc = c.seq.lc) : next d = .done (advance d) := next_eq (goesOn_congr h1 h2 h3 h)

theorem next_setX {c : Core} (h : GoesOn c) (i : BitVec 4) (r : Word) : next (setX c i r) = .done (advance (setX c i r)) :=
  next_of h (by simp) (by simp) (by simp)

theorem next_setV {c : Core} (h : GoesOn c) (i : BitVec 4) (ws : List Word) :
    next (setV c i ws) = .done (advance (setV c i ws)) := next_of h rfl rfl rfl

theorem next_qstatHold {c : Core} (h : GoesOn c) (i : BitVec 4) (ws : List Word) (d : QstatDelta) :
    next (qstatHold (setV c i ws) d) = .done (advance (qstatHold (setV c i ws) d)) := next_of h rfl rfl rfl

end Cu

/-! ### Issue -/

theorem Issues.canIssue {s : State} {op : TileOp} (h : Issues s op) (w : Bool) : canIssue (s.coreOf op) w = true := by
  obtain ⟨_, _, h3, h4, _⟩ := h
  simp [Machine.canIssue, h3, h4]

/-- An issue runs the instruction on its core. -/
theorem issueWith_eq {s : State} {op : TileOp} (h : Issues s op) (w : Bool) (f : State → Nat → State) :
    s.issueWith op w f = f s (CorePos.key op.core) := by
  have hc := h.canIssue w
  obtain ⟨h1, h2, _, _, h5⟩ := h
  simp [State.issueWith, State.onCore, h1, h2, h5, hc]

/-- The issue of an instruction that acts on its core alone. -/
theorem issue_eq {s : State} {op : TileOp} (h : Issues s op) (f : Core → TileWord → Cu.Res) :
    s.issue op f = s.settleRes (CorePos.key op.core) (s.coreOf op).seq.pc (f (s.coreOf op) op.w) :=
  issueWith_eq h _ _

theorem settleRes_done (s : State) (k pc : Nat) (c : Core) : s.settleRes k pc (.done c) = s.setCore k c := rfl
theorem settleRes_held (s : State) (k pc : Nat) : s.settleRes k pc .held = s := rfl
theorem settleRes_fault (s : State) (k pc code unit arg : Nat) :
    s.settleRes k pc (.fault code unit arg) = s.programFault k pc code unit arg := rfl

/-- A core event reaches its core. -/
theorem onCore_eq {s : State} {p : CorePos} (h : Reaches s p) (f : Nat → State) : s.onCore p f = f (CorePos.key p) := by
  simp [State.onCore, h.1, h.2]

end Sys2Proof.Machine
end

