-- ==== Sys2Proof/WellFormed.lean ====
section
/-! DEFINITION. Which commands are well formed: every operand names something the manual says exists. -/

namespace Sys2Proof

/-- A physical core position exists (R18, R25). -/
def CorePos.wf (p : CorePos) : Bool := decide (p.die < 16) && decide (p.col < 8) && decide (p.row < 17)

/-- A command reference names a queue block or single-command port. -/
def CmdRef.wf (c : CmdRef) : Bool := decide (c.block < 11)

/-- A register address names a function and a word of its BAR0, a word of a core's slot, or an address of control space (R28,
R30, R34, R41). -/
def RegAddr.wf : RegAddr → Bool
  | .bar0 fn off => decide (fn < 9) && decide (off % 4 = 0) && decide (off < (if fn = 0 then 0x4000000 else 0x4000))
  | .core pos off => pos.wf && decide (off % 4 = 0) && decide (0x450000 ≤ off) && decide (off < 0x461000)
  | .control addr => decide (0xC000000000 ≤ addr) && decide (addr < 0xC400000000)

/-- A unit that can drain exists. -/
def DrainUnit.wf : DrainUnit → Bool
  | .partition p => decide (p < 8)
  | .context p _ => decide (p < 8)
  | .stream n => decide (n < 32)
  | .ring b r => decide (b < 9) && decide (r < 4)
  | .decodeArea p _ => decide (p < 8)
  | .boost => true
  | .spanPort n => decide (n < 32)

/-- The fields of a report fit the record of R577. -/
def Report.wf (r : Report) : Bool :=
  decide (r.code < 0x10000) && decide (r.unit < 2 ^ 32) && decide (r.sev < 5) && decide (r.part < 16)
    && decide (r.detail < 2 ^ 64) && (match r.reporter with
      | none => true
      | some (d, c) => decide (d < 16) && decide (c < 8))

/-- The command is well formed. -/
def Instr.wf : Instr → Bool
  | .bar0BadAccess _ len => decide (0 < len)
  | .mirrorWrite part => decide (part < 8)
  | .regWrite at_ _ => at_.wf
  | .sqTailWrite blk ring _ _ _ => decide (blk < 9) && decide (ring < 4)
  | .cqHeadWrite blk ring _ => decide (blk < 9) && decide (ring < 4)
  | .sqEnable blk ring _ => decide (blk < 9) && decide (ring < 4)
  | .sqDisable blk ring => decide (blk < 9) && decide (ring < 4)
  | .cqEnable blk ring _ => decide (blk < 9) && decide (ring < 4)
  | .cqDisable blk ring => decide (blk < 9) && decide (ring < 4)
  | .clrCounts blk => decide (blk < 9)
  | .stwReset => true
  | .clrLost => true
  | .evtConsWrite _ => true
  | .timebaseLoRead _ => true
  | .steppedClear => true
  | .trippedClear => true
  | .clkoutCtrlWrite n _ => decide (n < 2)
  | .apertureRead _ len _ => decide (len ≤ 4096)
  | .apertureWrite _ data => decide (data.length ≤ 4096)
  | .clrRbw core => core.wf
  | .clrWritten core => core.wf
  | .zeroAll core => core.wf
  | .zeroingDone core => core.wf
  | .clrStat core => core.wf
  | .clrCheck core => core.wf
  | .go core _ => core.wf
  | .bankPwrWrite core _ => core.wf
  | .bankWakeEnd core bank => core.wf && decide (bank < 16)
  | .bankScrubEnd core bank => core.wf && decide (bank < 16)
  | .bankPowerOff core bank => core.wf && decide (bank < 16)
  | .packetFetch blk ring => decide (blk < 9) && decide (ring < 4)
  | .cqHeldRecordWrite blk ring => decide (blk < 9) && decide (ring < 4)
  | .cqIrqDelayExpiry blk ring => decide (blk < 9) && decide (ring < 4)
  | .commandTimeout c => c.wf
  | .seqBusyResume c => c.wf
  | .opPartCreate c => c.wf
  | .opPartDestroy c => c.wf
  | .opPartDisable c => c.wf
  | .opPartStat c => c.wf
  | .opCtxCreate c => c.wf
  | .opCtxDestroy c => c.wf
  | .opQuotaSet c => c.wf
  | .opQuotaStat c => c.wf
  | .opCmdAbort c => c.wf
  | .opPlanLoad c => c.wf
  | .planInstall part _ => decide (part < 8)
  | .opWeightLoad c => c.wf
  | .opPoolBind c _ => c.wf
  | .opTensorStat c => c.wf
  | .opRun c => c.wf
  | .opRoll c => c.wf
  | .opFork c => c.wf
  | .opTrainStep c => c.wf
  | .opSeqCreate c => c.wf
  | .opSeqRelease c => c.wf
  | .opSeqThaw c => c.wf
  | .opKvStat c => c.wf
  | .opRegionCreate c => c.wf
  | .opRegionDestroy c => c.wf
  | .opMemClass c => c.wf
  | .opMemCopy c => c.wf
  | .opStoreCreate c => c.wf
  | .opStoreDestroy c => c.wf
  | .opStoreAttach c => c.wf
  | .opStoreWrite c => c.wf
  | .opStoreRead c _ => c.wf
  | .opStoreTrim c => c.wf
  | .opStoreStat c => c.wf
  | .opJpegDecode c => c.wf
  | .opDcacheConfig c => c.wf
  | .opLsfRead c => c.wf
  | .opLsfWrite c => c.wf
  | .opCapAssign c => c.wf
  | .opCapConfig c => c.wf
  | .opCapStart c => c.wf
  | .opCapStop c => c.wf
  | .opHarvest c => c.wf
  | .opInventory c => c.wf
  | .opSensorRead c => c.wf
  | .opEventRead c => c.wf
  | .opFwStage c _ => c.wf
  | .opFwActivate c => c.wf
  | .opBoost c => c.wf
  | .opReset c => c.wf
  | .opLcAdvance c bad => c.wf && bad.all (fun n => decide (n < 6))
  | .opKeyProvision c _ => c.wf
  | .opDebugUnlock c nonce => c.wf && decide (nonce.length = 32)
  | .opConfidential c => c.wf
  | .opPlanKey c => c.wf
  | .opSpanConfig c => c.wf
  | .opSpanRoute c => c.wf
  | .opSpanWindow c => c.wf
  | .opCollGroup c => c.wf
  | .opSpanStat c => c.wf
  | .stepDispatch c => c.wf
  | .planChangeStep part => decide (part < 8)
  | .dispatchCommit core => core.wf
  | .granuleCommit c => c.wf
  | .expertPoint c _ => c.wf
  | .quantumExpiry part => decide (part < 8)
  | .switchPoint part => decide (part < 8)
  | .switchSaveDone part => decide (part < 8)
  | .switchRestoreDone part _ => decide (part < 8)
  | .drainLimitExpiry u => u.wf
  | .tNop op => op.core.wf
  | .tEnd op => op.core.wf
  | .tJmp op => op.core.wf
  | .tBr op => op.core.wf
  | .tLoop op => op.core.wf
  | .tTrap op => op.core.wf
  | .tMovi op => op.core.wf
  | .tAdd op => op.core.wf
  | .tAddi op => op.core.wf
  | .tSub op => op.core.wf
  | .tMul op => op.core.wf
  | .tAnd op => op.core.wf
  | .tOr op => op.core.wf
  | .tShl op => op.core.wf
  | .tShr op => op.core.wf
  | .tLdx op => op.core.wf
  | .tStx op => op.core.wf
  | .tRdc op => op.core.wf
  | .tLds op => op.core.wf
  | .loadReady core => core.wf
  | .tSwp op => op.core.wf
  | .tPass op => op.core.wf
  | .tTpass op => op.core.wf
  | .passComplete core _ => core.wf
  | .arrayRampDown core => core.wf
  | .arrayGated core => core.wf
  | .tFlush op => op.core.wf
  | .tAclr op => op.core.wf
  | .tVld op => op.core.wf
  | .tVst op => op.core.wf
  | .gbIdleFlush core line => core.wf && decide (line < 2 ^ 22)
  | .tVlda op => op.core.wf
  | .tVsta op => op.core.wf
  | .tVadd op => op.core.wf
  | .tVsub op => op.core.wf
  | .tVmul op => op.core.wf
  | .tVfma op => op.core.wf
  | .tVmax op => op.core.wf
  | .tVmin op => op.core.wf
  | .tVcvt op => op.core.wf
  | .tVsplit op => op.core.wf
  | .tVred op => op.core.wf
  | .tQnt op => op.core.wf
  | .tSfn op => op.core.wf
  | .tStbl op => op.core.wf
  | .tSmp op => op.core.wf
  | .tSrow op => op.core.wf
  | .tSsmx op => op.core.wf
  | .tStld op => op.core.wf
  | .tStst op => op.core.wf
  | .tSstep op => op.core.wf
  | .tSout op => op.core.wf
  | .tDmaq op => op.core.wf
  | .dmaDescriptorStart core eng _ _ => core.wf && decide (eng < 2)
  | .dmaComplete core eng => core.wf && decide (eng < 2)
  | .dmaDeadlineExpiry core eng stack chan => core.wf && decide (eng < 2) && decide (stack < 6) && decide (chan < 32)
  | .tNbx op => op.core.wf
  | .nbBeatArrival core port _ => core.wf && decide (port < 4)
  | .tWait op => op.core.wf
  | .tCset op => op.core.wf
  | .tFence op => op.core.wf
  | .tBar op => op.core.wf
  | .barRelease part group => decide (part < 8) && decide (group < 8)
  | .tEvt op => op.core.wf
  | .watchdogExpiry core => core.wf
  | .coreFaultRecovery die faults _ => decide (die < 16) && faults.all (fun p => decide (p.1 < 8 ∧ p.2 < 17))
  | .selfTestDone core _ => core.wf
  | .gapTestTimer die => decide (die < 16)
  | .coreReset core => core.wf
  | .marshalCoalesceClose die _ _ => decide (die < 16)
  | .faultReport r => r.wf
  | .stewardCoalesceClose _ _ => true
  | .conductorTakeover core _ => decide (core < 10)
  | .marshalRestart die _ => decide (die < 16)
  | .hubHalfLoss _ => true
  | .hubHalfRestored _ => true
  | .linkRetryExcess die link _ => decide (die < 16) && decide (link < 256)
  | .patrolScrubRead stack chan codeword _ => decide (stack < 6) && decide (chan < 34) && decide (codeword < 2 ^ 25)
  | .sparingCopyDone stack chan => decide (stack < 6) && decide (chan < 32)
  | .allocationScrubDone part region => decide (part < 8) && decide (region < 16)
  | .flashWriteDone pair _ => decide (pair < 8)
  | .stripeCloseTimer pair chan => decide (pair < 8) && decide (chan < 4)
  | .mapCheckpoint pair => decide (pair < 8)
  | .relocationDone pair chan sb _ => decide (pair < 8) && decide (chan < 4) && decide (sb < 2560)
  | .staticLevelling pair chan => decide (pair < 8) && decide (chan < 4)
  | .flitReceive port flit _ _ => decide (port < 32) && decide (flit.length = 224)
  | .nakReceive port seq => decide (port < 32) && decide (seq < 4096)
  | .laneFailing port lane => decide (port < 32) && decide (lane < 9)
  | .laneSpareRequest port lane => decide (port < 32) && decide (lane < 9)
  | .portTrainingDone port _ _ _ _ => decide (port < 32)
  | .portRetryTimer port => decide (port < 32)
  | .spanPacketArrival port pkt => decide (port < 32) && decide (32 ≤ pkt.length ∧ pkt.length ≤ 288)
  | .spanLocalCompletion port pkt => decide (port < 32) && decide (32 ≤ pkt.length ∧ pkt.length ≤ 288)
  | .collectiveComplete part group => decide (part < 8) && decide (group < 16)
  | .spanTimeout core _ => core.wf
  | .csiFrameStart port vc fn _ _ => decide (port < 2) && decide (vc < 16) && decide (fn < 65536)
  | .csiLongPacket port vc dt _ _ _ _ => decide (port < 2) && decide (vc < 16) && decide (dt < 64)
  | .csiOtherPacket port vc _ => decide (port < 2) && decide (vc < 16)
  | .csiFrameEnd port vc _ => decide (port < 2) && decide (vc < 16)
  | .frameTimeout stream => decide (stream < 32)
  | .pipelineExit stream _ => decide (stream < 32)
  | .tsyncEdge _ => true
  | .tsyncLost _ => true
  | .refFailure pll _ => decide (pll < 24)
  | .refGood pll _ => decide (pll < 24)
  | .switchoverLock pll => decide (pll < 24)
  | .coastStep pll => decide (pll < 24)
  | .pllLockLoss die => decide (die < 16)
  | .sensorSample sensor _ _ _ => decide (sensor < 0x10000)
  | .throttleStep => true
  | .throttleRecovery => true
  | .solsticeRampStep _ => true
  | .stepdownStep _ => true
  | .wearBinWrite _ _ => true
  | .tripComparator sensor => decide (sensor < 0x10000)
  | .lockstepMismatch _ => true
  | .stewardWatchdog => true
  | .stewardRestartDone _ => true
  | .logWrite => true
  | .fwTrialTimer kind => decide (kind < 3)
  | .conductorLoaded core => decide (core < 10)
  | .equinoxHandover part => decide (part < 8)
  | .marshalActivation die => decide (die < 16)
  | .setEndpointId _ _ => true
  | .getEndpointId => true
  | .getMctpVersionSupport _ => true
  | .getMessageTypeSupport => true
  | .mgmtCommandPacket _ packet => decide (packet.length ≤ 4160)
  | .getTid => true
  | .getPldmVersion _ => true
  | .getPldmTypes => true
  | .getPldmCommands _ => true
  | .getPdrRepositoryInfo => true
  | .getPdr _ => true
  | .getSensorReading sensor => decide (sensor < 0x10000)
  | .pollForPlatformEventMessage _ => true
  | .pldmUnsupported _ _ => true
  | .queryDeviceIdentifiers => true
  | .getFirmwareParameters => true
  | .requestUpdate => true
  | .passComponentTable _ => true
  | .updateComponent _ _ => true
  | .requestFirmwareDataResponse _ _ => true
  | .transferComplete _ => true
  | .verifyComplete => true
  | .applyComplete _ => true
  | .activateFirmware => true
  | .getStatus => true
  | .cancelUpdateComponent => true
  | .cancelUpdate => true
  | .spdmGetVersion => true
  | .spdmGetCapabilities _ => true
  | .negotiateAlgorithms _ => true
  | .getDigests => true
  | .getCertificate _ _ len => decide (len < 65536)
  | .challenge _ nonce => decide (nonce.length = 32)
  | .getMeasurements _ => true
  | .keyExchange _ => true
  | .finish _ _ => true
  | .heartbeat _ => true
  | .keyUpdate _ => true
  | .endSession _ => true
  | .ideKmKeyProg _ stream set => decide (stream < 9) && decide (set < 2)
  | .kSetGo _ stream set => decide (stream < 9) && decide (set < 2)
  | .tdispGetVersion _ => true
  | .tdispGetCapabilities _ => true
  | .lockInterfaceRequest _ part stream => decide (part < 8) && decide (1 ≤ stream ∧ stream < 9)
  | .getDeviceInterfaceReport _ part => decide (part < 8)
  | .getDeviceInterfaceState _ part => decide (part < 8)
  | .startInterfaceRequest _ part => decide (part < 8)
  | .stopInterfaceRequest _ part => decide (part < 8)
  | .ideIntegrityFailure stream => decide (stream < 9)
  | .debugSessionExpiry => true
  | .challengeExpiry => true
  | .jtagInstruction _ => true
  | .jtagTrst => true
  | .flashEraseDone => true
  | .v3p3AuxGood _ => true
  | .v3p3AuxLost => true
  | .romBootRetry _ => true
  | .pwrEnAssert _ => true
  | .vin48Good _ _ failed conductors => failed.all CorePos.wf && conductors.all (fun n => decide (n < 10))
  | .vin48StartTimeout => true
  | .vin48Retry => true
  | .vin48Lost => true
  | .dramTrained failed => failed.all (fun p => decide (p.1 < 6 ∧ p.2 < 34))
  | .flashMapRebuilt _ => true
  | .readySet _ => true
  | .sysResetNRelease _ => true
  | .pciePerstNFall => true
  | .pciePerstNRise => true
  | .warmReset _ _ _ _ failed conductors _ => failed.all CorePos.wf && conductors.all (fun n => decide (n < 10))
  | .coldReset _ => true
  | .i3cSetdasa _ _ => true
  | .i3cEntdaa _ => true
  | .sysResetNAssert => true
  | .hostPortL0 _ => true
  | .hostLinkDown => true
  | .sriovEnable _ => true
  | .pageSetZeroingDone part _ _ => decide (part < 8)
  | .channelResetDone stack chan _ => decide (stack < 6) && decide (chan < 32)
  | .solsticeDurationExpiry => true
  | .firmwareFault kind => decide (kind < 3)

end Sys2Proof
end

