-- ==== Sys2Proof/Tests/Slice0.lean ====
section
/-! SUPPORT. The model's own tests, from the manual's words and examples, and the witnesses of its statements. -/

namespace Sys2Proof.Tests

open Sys2Proof.Machine

set_option maxRecDepth 20000
set_option Elab.async false

/-! ### Small states -/

/-- A running core with every bank on. -/
def coreRun : Core := { Core.reset with
  seq := { Core.reset.seq with state := .running }
  regs := { Core.reset.regs with banks := (List.range 16).map (fun b => (b, BankState.on)) } }

/-- The module with that core, changed, at die 0, column 0, row 0. -/
def runs (f : Core → Core) : State := State.reset.setCore 0 (f coreRun)

/-- A word from its fields. -/
def word (f1 f2 f3 f4 : BitVec 4) (md : BitVec 8) (imm : BitVec 32) : TileWord := ⟨f1, f2, f3, f4, md, imm⟩

/-- An issue of that core. -/
def iss (w : TileWord) : TileOp := ⟨⟨0, 0, 0⟩, w, .none⟩

/-- Scalar registers set from a list of pairs. -/
def withX (l : List (Nat × Word)) (c : Core) : Core := { c with seq := { c.seq with x := l } }

/-- A packet: opcode, FLAGS, CTX, PART and parameters (R423). -/
def packet (op fl ctx part : Nat) (ps : List Byte) : List Byte :=
  leBytes 2 op ++ leBytes 2 fl ++ leBytes 2 ps.length ++ [1, 0] ++ leBytes 4 7 ++ leBytes 4 0 ++ leBytes 4 0 ++
    leBytes 2 ctx ++ leBytes 1 part ++ List.replicate 41 0 ++ ps

/-- A command in flight, number 1 of its block and on ring 0. -/
def cmdOf (ph : CmdPhase) (op fl ctx part : Nat) (ps : List Byte) : Cmd :=
  { id := 1, ring := 0, packet := packet op fl ctx part ps, sqHead := 0, phase := ph, startAt := none, accepted := true, granules := 0,
    recov := Recov.none, flashUnwritten := false, exec := none, progress := 0, staged := 0, abortTargets := [], abortCount := 0,
    preempted := false }

/-- The module with its Steward running and that command in flight in a block. -/
def holds (blk : Nat) (k : Cmd) (s : State) : State :=
  { s with
    stw := { s.stw with running := true }
    blocks := SMap.put s.blocks blk { QBlock.reset with cmds := [k], nextId := 2 } }

/-- A quota record of some size. -/
def quota1 : Quota := { dram := 0x40000000, kv := 0x10000000, flash := 100, swap := 0x10000000 }

/-- A context that is current. -/
def ctx1 : Context := { Context.new 2000 quota1 0x1000000 with state := .current }

/-- Partition 0 on die pair 0, with a context that is current. -/
def part1 : Partition := { Partition.new (cmdOf .waiting 0x0101 0 0xFFFF 0 (0 :: 1 :: [4, 0])) 0 false with
  quota := { dram := 0x100000000, kv := 0, flash := 1000, swap := 0x100000000 }, ctxs := [(0, some ctx1)], current := some 0, lastCurrent := 0, lastHandle := some 0 }

/-- The module with that partition, changed. -/
def hasPart (f : Partition → Partition) (s : State) : State := { s with parts := [(0, some (f part1))] }

/-- The partition with its context changed. -/
def onCtx (f : Context → Context) (x : Partition) : Partition := { x with ctxs := [(0, some (f ctx1))] }
/-! ### Tile programs: witnesses and tests -/

theorem wit_scalarRegisters : SMap.wf 0#32 (withX [(1, 5), (15, 0xFFFFFFFF)] coreRun).seq.x = true := by decide

theorem wit_issues : Issues (runs id) (iss (word 1 0 0 0 0 0)) ∧ GoesOn ((runs id).coreOf (iss (word 1 0 0 0 0 0))) := by decide

theorem wit_scalarForms :
    Cu.usesOnly (word 15 0 0 0 0 0xFFFFFFFF) true false false false 0 0xFFFFFFFF#32 = true ∧
    Cu.usesOnly (word 15 15 15 0 0 0) true true true false 0 0 = true ∧
    Cu.usesOnly (word 15 15 0 0 0 0xFFFFFFFF) true true false false 0 0xFFFFFFFF#32 = true ∧
    Cu.usesOnly (word 15 15 0 0 1 0x1F) true true false false 1#8 0x1F#32 = true ∧
    Cu.usesOnly (word 15 0 0 0 34 0) true false false false 0x3F#8 0 = true ∧
    Cu.usesOnly (word 15 0 0 0 23 0) true false false false 0x3F#8 0 = true := by decide

/-- A core inside one loop, at the last word of its body. -/
def inLoop : State := runs (fun c => { c with seq := { c.seq with pc := 9, lc := [(3, 2)], loops := [{ ctr := 3, first := 1, last := 9 }] } })

theorem wit_rdcLoop : Issues inLoop (iss (word 1 0 0 0 33 0)) ∧ GoesOn (inLoop.coreOf (iss (word 1 0 0 0 33 0))) ∧
    (inLoop.coreOf (iss (word 1 0 0 0 33 0))).seq.loops = [{ ctr := 3, first := 1, last := 9 }] := by decide

theorem wit_control :
    Cu.usesOnly (word 0 0 0 0 0 0x1FFF) false false false false 0 0x1FFF#32 = true ∧
    Cu.usesOnly (word 0 15 15 0 5 0x1FFF) false true true false 7#8 0x1FFF#32 = true ∧
    Cu.brTaken 5 0x80000000 0x7FFFFFFF = false ∧ Cu.brTaken 4 0x80000000 0x7FFFFFFF = true ∧
    Cu.usesOnly (word 0 0 0 0 0 0xFFFF) false false false false 0 0xFFFF#32 = true := by decide

theorem wit_loop :
    let s := runs (withX [(1, 0xFFFFFFFF)])
    let w := word 0 1 0 0 3 0x00011FFF
    let c := s.coreOf (iss w)
    Issues s (iss w) ∧ Cu.usesOnly w false true false false 3#8 0xFFFF1FFF#32 = true ∧ c.seq.pc < w.imm.toNat % 0x2000 ∧
    c.seq.loops = [] ∧ Cu.x c w.f2 + BitVec.ofNat 32 (w.imm.toNat / 0x10000) = 0 := by decide

theorem wit_loopSkip : GoesOn { coreRun with seq := { coreRun.seq with pc := 0x1FFE } } := by decide

theorem wit_reserved : word 0 0 0 1 0 0 ≠ ⟨0, 0, 0, 0, 0, 0⟩ ∧ (word 0 0 0 1 0 0).f4 ≠ 0 ∧ 5 < (word 0 0 0 0 6 0).md.toNat ∧
    15 < (word 0 0 0 0 16 0).md.toNat % 0x40 ∧ 34 < (word 0 0 0 0 35 0).md.toNat ∧
    24 ≤ (word 0 0 0 0 24 0).md.toNat ∧ (word 0 0 0 0 31 0).md.toNat < 32 := by decide

theorem wit_narrow :
    let s := runs (withX [(1, 0x3FFFFC), (2, 0x3FFF00)])
    let a := word 3 1 0 0 0 0
    let b := word 3 2 0 0 7 0
    Issues s (iss a) ∧ GoesOn (s.coreOf (iss a)) ∧ Cu.access (s.coreOf (iss a)) 0x3FFFFC 4 = .ok ∧
    Cu.usesOnly a true true false false 0 0x3FFFFF#32 = true ∧ Cu.usesOnly (word 0 1 3 0 0 0) false true true false 0 0x3FFFFF#32 = true ∧
    Cu.usesOnly b true true false false 7#8 0x3FFFFF#32 = true ∧ 0x3FFF00 + 32 * 8 ≤ 0x400000 ∧
    Cu.access (s.coreOf (iss b)) 0x3FFF00 (32 * 8) = .ok := by decide

theorem wit_narrowFaults :
    let s := runs (withX [(1, 0x3FFFFD)])
    let off := runs (fun c => { c with regs := { c.regs with banks := [(1, .waking), (2, .scrub)] } })
    let w := word 3 1 0 0 0 0
    Issues s (iss w) ∧ Cu.usesOnly w true true false false 0 0x3FFFFF#32 = true ∧ (Cu.x (s.coreOf (iss w)) 1).toNat % 4 ≠ 0 ∧
    Issues off (iss w) ∧ Cu.bank (off.coreOf (iss w)) 0 = .off ∧ Cu.bank (off.coreOf (iss w)) 1 = .waking ∧
    Cu.bank (off.coreOf (iss w)) 2 = .scrub := by decide

theorem wit_programFault : (runs id).dispatchOf 0 = none := by decide

/-- A line of SPAD that is written, with one byte, and a gather-buffer entry of another line. -/
def spad1 : Core := { coreRun with mem := { coreRun.mem with spad := [(5, 7)], spadWritten := [(0, true)] } }

theorem wit_firstWrite : Memory.wf spad1.mem.spad = true ∧ SMap.risingFrom 0 [(0, (1 : Byte)), (255, 2)] = true ∧
    (∀ p ∈ [(0, (1 : Byte)), (255, 2)], p.1 < 256) := by decide

/-- R112: the first write to line 1 leaves zero beside the written byte; the written line 0 keeps its other byte. -/
theorem test_firstWrite :
    let c := { spad1 with mem := { spad1.mem with spad := [(5, 7), (300, 9)] } }
    let d := Cu.bankWrite c true 254 [1, 2, 3]
    (Cu.spadByte d 5, Cu.spadByte d 255, Cu.spadByte d 256, Cu.spadByte d 300, Cu.lineWritten d 1) = (7, 2, 3, 0, true) := by decide

theorem wit_lanes :
    Cu.usesOnly (word 1 2 3 0 2 0) true true true false 3#8 0 = true ∧ (2 : BitVec 8).toNat % 2 = 0 ∧
    Cu.usesOnly (word 1 2 3 0 3 0) true true true false 3#8 0 = true ∧ (3 : BitVec 8).toNat % 2 = 1 ∧
    Cu.usesOnly (word 1 2 3 4 0 0) true true true true 3#8 0 = true ∧ Cu.usesOnly (word 1 2 3 4 1 0) true true true true 3#8 0 = true ∧
    Cu.usesOnly (word 1 2 0 0 4 0) true true false false 0x0F#8 0 = true ∧ Cu.usesOnly (word 1 2 3 0 0 0) true true true false 0 0 = true ∧
    Cu.usesOnly (word 1 2 0 0 0 0) true true false false 0 0 = true ∧
    Cu.usesOnly (word 1 2 0 0 9 0) true true false false 0x0D#8 0 = true ∧ (9 : BitVec 8).toNat / 4 ≤ 2 := by decide

theorem wit_vectorSum : Cu.usesOnly (word 1 2 0 0 0 0) true true false false 0x01#8 0 = true ∧
    Cu.usesOnly (word 1 2 0 0 1 0) true true false false 0x01#8 0 = true ∧
    SMap.wf 0#32 ((runs id).coreOf (iss (word 1 2 0 0 1 0))).seq.v = true := by decide

theorem wit_accumulator :
    let s := runs (withX [(1, 0x3FFF00), (2, 1023), (3, 1)])
    let w := word 1 2 3 0 0 0
    let c := s.coreOf (iss w)
    Issues s (iss w) ∧ GoesOn c ∧ Cu.usesOnly w true true true false 0 0x00FFFFFF#32 = true ∧ Cu.usesOnly (word 0 2 3 0 0 0) false true true false 0 0 = true ∧
    Cu.usesOnly (word 1 0 0 0 0 0x3FF) true true false false 0 0x3FF#32 = true ∧
    (Cu.x c 3).toNat = 1 ∧ (Cu.x c 2).toNat + 1 ≤ 1024 ∧ (Cu.x c 1).toNat % 256 = 0 ∧ (Cu.x c 1).toNat + 256 ≤ 0x400000 ∧
    Cu.rowBusy c 1023 = false ∧ Cu.access c 0x3FFF00 256 = .ok ∧ (Cu.x c 0).toNat = 0 := by decide

/-- A pass in flight that owes rows 0 and 1. -/
def flight1 : Flight := {
  firstRow := 0, acc := 0, streams := [(0, 4)], start := 0, slot := some 0, scales := [],
  rows := [[{ sums := [0x3F800000], check := none }], [{ sums := [0], check := some (2 ^ 200, 0) }]] }

theorem wit_rowBusy : Cu.rowBusy { coreRun with arr := { coreRun.arr with flights := [flight1] } } 1 = true := by decide

theorem wit_quantize :
    let s := runs (fun c => { c with run := { c.run with qstatCount := 1, grids := [(15, List.replicate 8 0x3F80)] } })
    let w := word 1 2 3 4 0x79 0
    let e := word 1 2 3 0 6 0
    let c := s.coreOf (iss w)
    Issues s (iss w) ∧ GoesOn c ∧ Cu.usesOnly w true true true true 0x7F#8 0xFF#32 = true ∧ w.md.toNat % 4 = 1 ∧
    0 < c.run.qstatCount ∧ (SMap.get [] c.run.grids (w.md.toNat / 8 % 16)).length = 2 ^ 3 ∧
    Cu.usesOnly e true true true false 0x7F#8 0xFF#32 = true ∧ e.md.toNat % 4 = 2 ∧ e.md.toNat / 8 % 16 = 0 := by decide

theorem wit_special :
    let s := runs (withX [(1, 0x3FFFA0)])
    let w := word 0 1 0 0 0x2F 0
    let c := s.coreOf (iss w)
    Issues s (iss w) ∧ GoesOn c ∧ Cu.usesOnly (word 1 2 0 0 0x4F 1) true true false false 0xFF#8 1#32 = true ∧
    Cu.usesOnly (word 1 2 3 0 0x17 0) true true true false 0xFF#8 0 = true ∧ SMap.get [] c.mem.micros 15 = [] ∧
    SMap.get [] [(15, [(1 : Byte)])] 15 ≠ [] ∧
    Cu.usesOnly (word 1 2 0 0 3 0) true true false false 3#8 0 = true ∧ Cu.usesOnly (word 1 2 3 0 1 0) true true true false 1#8 0 = true ∧
    Cu.usesOnly w false true false false 0xFF#8 0x3FFFFF#32 = true ∧ (Cu.x c 1).toNat + 96 ≤ 0x400000 ∧
    Cu.access c 0x3FFFA0 32 = .ok ∧ Cu.access c 0x3FFFA0 96 = .ok := by decide

theorem wit_tableLoad :
    let c := (runs id).coreOf (iss (word 0 1 0 0 0x40 0))
    let n := (Cu.tableLength (Cu.narrowReads c 0 1).1 + 31) / 32
    32 * n ≤ 0x400000 ∧ Cu.access c 0 32 = .ok ∧ Cu.access c 0 (32 * n) = .ok := by decide

theorem wit_stateUnit :
    let s := runs (withX [(1, 254), (2, 0), (3, 255)])
    let w := word 0 2 3 0 0 0
    let c := s.coreOf (iss w)
    Issues s (iss w) ∧ GoesOn c ∧ Cu.usesOnly w false true true false 0xFF#8 0x3FFFFF#32 = true ∧ (Cu.x c 3).toNat + 1 ≤ 256 ∧
    Cu.access c 0 256 = .ok ∧ Cu.usesOnly (word 1 2 3 0 1 0) true true true false 1#8 0 = true ∧ (Cu.x c 1).toNat + 2 ≤ 256 ∧
    (Cu.x c 1).toNat % 2 = 0 ∧ (Cu.x c 2).toNat < 256 ∧ SMap.wf 0#32 c.seq.v = true := by decide

/-- The worked example of R297: three compensated steps of a = 1 and u = 2^-25 from 1. -/
theorem test_compensated :
    let st (p : Word × Word) := Float.sstepComp 0x3F800000 p.1 p.2 0x33000000
    (st (0x3F800000, 0), st (st (0x3F800000, 0)), st (st (st (0x3F800000, 0)))) =
      ((0x3F800000, 0x33000000), (0x3F800001, 0xB3800000), (0x3F800001, 0xB3000000)) := by decide

/-- The example of R46: 0x3F80_8000 rounds away from zero to BF16 0x3F81. -/
theorem test_bfTies : (Float.toBf 0x3F808000, Float.toBf 0xBF808000, Float.toBf 0x3F807FFF) = (0x3F81, 0xBF81, 0x3F80) := by decide

/-- The tile modes 1 and 5, a stream of four lines at line 0, and the array with both copies held. -/
def tile1 (mode : Nat) : Tile := { mode := mode, grid := 0, levels := [], scaled := false, image := [] }

def arrays (mode : Nat) (c : Core) : Core := { withX [(1, 0), (2, 1), (3, 0), (4, 0x10001), (5, 128)] c with
  arr := { c.arr with mode := .full, active := some (tile1 mode), shadow := some (tile1 mode) } }
theorem wit_array :
    let s := runs (arrays 1)
    let c := s.coreOf (iss (word 0 0 0 0 0 0))
    Issues s (iss (word 0 0 0 0 0 0)) ∧ GoesOn c ∧ c.arr.mode ≠ .rampDown ∧
    Cu.usesOnly (word 0 1 0 0 2 0x80000000) false true false false 0xFF#8 0x803FFFFF#32 = true ∧
    Cu.imageBytes 2 true ≤ 0x400000 ∧ Cu.gridFor c 2 0 = some [] ∧ c.arr.loading = none ∧ Cu.access c 0 (Cu.imageBytes 2 true) = .ok ∧
    Cu.gridFor { c with run := { c.run with grids := [(15, List.replicate 16 0x3F80)] } } 5 15 ≠ none := by decide

theorem wit_pass :
    let s := runs (arrays 4)
    let w := word 4 0 3 0 0 0x00800801
    let c := s.coreOf (iss w)
    Issues s (iss w) ∧ Cu.passLegal w false = true ∧ Cu.passShape c w = some (1, 1) ∧ Cu.stream (Cu.x c w.f1) = some (1, 1) ∧
    (Cu.x c w.f3).toNat < 1 ∧ c.arr.active = some (tile1 4) ∧ (∀ l ∈ Cu.streamLines 1 1 0 1, Cu.bank c (l / 1024) = .on) ∧
    c.arr.loading = none ∧
    Cu.passShape (withX [(5, 0x03FF0001)] c) (word 4 0 3 5 1 0) = some (1, 1023) := by decide

theorem wit_tpass :
    let s := runs (arrays 5)
    let w := word 4 4 3 0 0 0x00000001
    let c := s.coreOf (iss w)
    Issues s (iss w) ∧ Cu.passLegal w true = true ∧ Cu.passShape c w = some (1, 0) ∧ Cu.stream (Cu.x c w.f2) = some (1, 1) ∧
    c.arr.active = some (tile1 5) ∧ 5 ≤ (tile1 5).mode ∧ 1 ≤ 1 ∧ (Cu.x c w.f3).toNat < 1 ∧
    (∀ l ∈ Cu.streamLines 1 1 0 1 ++ Cu.streamLines 1 1 0 1, Cu.bank c (l / 1024) = .on) := by decide

theorem wit_passOfNone : Cu.passLegal (word 4 0 3 0 0 0x1FF800) false = true ∧
    Cu.passShape coreRun (word 4 0 3 0 0 0x1FF800) = some (0, 1023) := by decide

theorem wit_arrayEvents :
    let s := runs (fun c => { arrays 1 c with arr := { (arrays 1 c).arr with loading := some (tile1 1), flights := [flight1] } })
    let g := runs (fun c => { c with arr := { c.arr with mode := .rampDown } })
    let f := runs (fun c => { c with arr := { c.arr with mode := .full } })
    Reaches s ⟨0, 0, 0⟩ ∧ (s.core 0).arr.loading = some (tile1 1) ∧ (s.core 0).arr.flights = [flight1] ∧
    (g.core 0).arr.mode = .rampDown ∧ (f.core 0).arr.flights = [] ∧ (f.core 0).arr.loading = none ∧ (f.core 0).arr.mode = .full := by decide

/-- R99, R100: a flight whose first comparison is skipped and whose second row is a mismatch. -/
theorem wit_comparison : Cu.firstMismatch flight1.rows = some 1 ∧ Cu.skipsIn (flight1.rows.take 2) = 1 ∧
    (∀ row ∈ flight1.rows.take 1, ∀ g ∈ row, Cu.compareRow g ≠ some true) ∧
    Cu.checkSums (tile1 1) 0 [] = some (0, 0) := by decide

/-- A running core that waits, and one that holds at barrier group 7. -/
theorem wit_wait :
    let s := runs (fun c => { c with seq := { c.seq with state := .waiting, sem := [(0, 0x7FFF)] } })
    let w := word 0 0 0 0 0 0
    let v := word 0 0 0 0 0 0x8000
    let c := s.coreOf (iss w)
    IssuesWait s (iss w) ∧ Cu.usesOnly w false true false false 0x3F#8 0xFFFF#32 = true ∧ GoesOn c ∧
    (Cu.counter c 0 - BitVec.ofNat 16 0).toNat < 2 ^ 15 ∧ Cu.usesOnly v false true false false 0x3F#8 0xFFFF#32 = true ∧
    ¬ (Cu.counter c 0 - BitVec.ofNat 16 0x8000).toNat < 2 ^ 15 := by decide

theorem wit_synchronize :
    let s := runs (fun c => { c with run := { c.run with barGroups := [7] } })
    let busy := runs (fun c => { c with arr := { c.arr with flights := [flight1] } })
    let c := s.coreOf (iss (word 0 0 0 0 7 0))
    Cu.usesOnly (word 0 1 0 0 0x4F 0) false true false false 0x7F#8 0xFFFF#32 = true ∧ (0x4F : BitVec 8).toNat % 0x40 ≤ 15 ∧
    Cu.usesOnly (word 0 0 0 0 15 0) false false false false 0x0F#8 0 = true ∧ c.arr.flights = [] ∧ c.arr.loading = none ∧
    c.dma0.queue = [] ∧ c.dma1.queue = [] ∧ (busy.core 0).arr.flights ≠ [] ∧ (2 : BitVec 8).getLsbD 1 = true ∧
    Issues s (iss (word 0 0 0 0 15 0)) ∧ c.run.barGroups.contains 7 = true ∧ c.run.replay.active = false ∧
    Cu.usesOnly (word 0 1 0 0 0 0xFFFF) false true false false 0 0xFFFF#32 = true ∧ 0xF5FF < 0xF600 := by decide

/-- A plan image of zeros defines no barrier member; a core that holds at group 3. -/
theorem wit_barRelease :
    let x := part1
    let s := hasPart (onCtx (fun k => { k with plan := some { base := 0, image := List.replicate 64 0 } })) State.reset
    let t := runs (fun c => { c with seq := { c.seq with state := .waiting, atBar := some 3 } })
    (s.part 0).isSome ∧ x.current = some 0 ∧ ((s.part 0).bind (fun y => y.ctx 0)).isSome ∧
    (t.core 0).seq.atBar = some 3 ∧ (t.core 0).run.frozen = false ∧ GoesOn (t.core 0) := by decide

theorem wit_end :
    let s := runs id
    let busy := runs (fun c => { c with arr := { c.arr with loading := some (tile1 1) } })
    endQuiet (s.core 0) = true ∧ endQuiet (busy.core 0) = false ∧ s.dispatchOf 0 = none ∧ (s.core 0).regs.bankPwrNext = none := by decide

/-- A LINEAR descriptor of 64 bytes from the scratchpad window of core (0, 0, 0) at 0x1000 to offset 0. -/
def desc1 : Desc := {
  mode := 0, toExt := false, bulk := false, remote := true, elem := 0, sem := 15, spad := 0, ext := 0x1000,
  params := [64, 0, 0, 0, 0, 0, 0, 0], aux := 0, outNo := 0, pc := 0 }

/-- A core with a descriptor at the head of DMA0's queue. -/
def moving (active : Bool) : State :=
  hasPart id (runs (fun c => { c with dma0 := { c.dma0 with queue := [desc1], active := active } }))

theorem wit_dma :
    let s := runs id
    let c := s.coreOf (iss (word 1 2 3 0 2 0))
    let bs := [(0 : Byte), 0, 0, 0] ++ leBytes 4 0 ++ leBytes 8 0x1000 ++ leBytes 4 64 ++ List.replicate 44 0
    Issues s (iss (word 1 2 3 0 2 0)) ∧ GoesOn c ∧ c.run.replay.active = false ∧ (c.dma 0).queue.length < 16 ∧
    Cu.usesOnly (word 1 2 3 0 3 0) true true true false 0x03#8 0x3FFFFF#32 = true ∧ (3 : BitVec 8).toNat / 2 = 1 ∧
    Cu.access c 0x3FFFC0 64 = .ok ∧ (Cu.decodeDesc bs 0 0 0 0).isSome ∧
    Cu.usesOnly (word 0 2 3 0 1 0x1FF8) false true true false 0x03#8 0x1FFF#32 = true ∧ 0x1FF8 % 8 = 0 := by decide

theorem wit_dmaStart :
    let s := moving false
    Reaches s ⟨0, 0, 0⟩ ∧ ((s.core 0).dma 0).queue = [desc1] ∧ ((s.core 0).dma 0).active = false ∧ ((s.core 0).dma 0).held = none ∧
    ownAccess (s.core 0) desc1 = .ok ∧ s.partOfDie 0 = some 0 ∧ s.part 0 = some part1 ∧
    (match s.moveDesc { part := some 0, ctx := some 0, core := some 0 } part1 0 desc1 with
      | .ok _ _ => true
      | _ => false) = true := by decide

theorem wit_dmaComplete : ((moving true).core 0).dma0.queue = [desc1] ∧ ((moving true).core 0).dma0.active = true ∧
    ((moving true).core 0).dma0.held = none ∧ ((moving true).whoOf 0).isSome ∧ ((moving true).core 0).dma0.leaving = [] ∧
    (match (moving true).deliverAll ({ part := some 0, ctx := some 0, core := some 0 }) [] [] with
      | .ok _ _ => true
      | _ => false) = true := by decide

/-- The queue of the die marshal's posts, with room and full. -/
theorem wit_eventQueue : (State.reset.die 0).evtQueued ≤ Config.eventQueueMore ∧
    Config.eventQueueMore < ((State.reset.setDie 0 { (State.reset.die 0) with evtQueued := Config.eventQueueMore + 1 }).die 0).evtQueued :=
  ⟨Nat.zero_le _, Nat.lt_succ_self _⟩

theorem wit_neighbour :
    let s := runs (fun c => { withX [(1, 0x3F0000), (2, 0), (3, 0x10000)] c with regs := { c.regs with nbCtrl := 0x7FF } })
    let w := word 1 2 3 0 2 0
    let c := s.coreOf (iss w)
    Issues s (iss w) ∧ GoesOn c ∧ Cu.usesOnly w true true true false 0x03#8 0 = true ∧ (Cu.x c 1).toNat + 0x10000 ≤ 0x400000 ∧
    s.neighbour 0 2 = some 1 ∧ portEnabled c 2 = true ∧ (c.port 2).outbound = [] ∧ Cu.access c 0x3F0000 0x10000 = .ok := by decide

theorem wit_beat :
    let b : Beat := { src := 64, dst := 0, data := [1, 2], last := true, raced := false }
    let s := runs (fun c => { c with ports := [(2, { inbound := [b], outbound := [] })] })
    (s.core 0).port 2 = { inbound := [b], outbound := [] } ∧ s.neighbour 0 2 = some 1 ∧ b.raced = false ∧
    Cu.access (s.core 0) 0 2 = .ok ∧ portFast (s.core 1) (facing 2) = false := by decide

theorem wit_coreRegisters :
    let s := runs (fun c => { c with regs := { c.regs with banks := [(0, .waking), (1, .scrub), (15, .on)] } })
    posOk ⟨0, 0, 0⟩ = true ∧ (s.core 0).seq.state ≠ .idle ∧ (State.reset.core 0).seq.state = .idle ∧
    Cu.bank (s.core 0) 0 = .waking ∧ Cu.bank (s.core 0) 1 = .scrub ∧ Cu.bank (s.core 0) 15 = .on ∧
    (s.core 0).regs.bankPwr.getLsbD 15 = false := by decide

theorem wit_coreControl :
    let s := State.reset
    Reaches s ⟨15, 7, 16⟩ ∧ (0x80001FFF : Word).getLsbD 31 = true ∧ (s.core (CorePos.key ⟨15, 7, 16⟩)).seq.state = .idle ∧
    (s.core (CorePos.key ⟨15, 7, 16⟩)).regs.zeroing = false ∧ (runs id).watchdogsHeld 0 = false ∧
    ((runs id).core 0).run.replay.wdog = false ∧ s.gap 15 7 = 16 := by decide

/-- R154, R161: the counter of ADD wraps, and a destination that is also a source is read first. -/
theorem test_addWraps :
    (match step ((runs (withX [(1, 0xFFFFFFFF)])).withPending [.tAdd (iss (word 1 1 1 0 0 0))]) with
      | .next t => (Cu.x (t.core 0) 1, (t.core 0).seq.pc, t.pending.length)
      | _ => (0, 9, 9)) = (0xFFFFFFFE, 1, 0) := by decide

/-- R160: the last word of a loop body goes back to its first word and counts down. -/
theorem test_loopBack :
    (match exec (.tNop (iss (word 0 0 0 0 0 0))) inLoop with
      | .next t => ((t.core 0).seq.pc, SMap.get 0 (t.core 0).seq.lc 3)
      | _ => (0, 0)) = (1, 1) := by decide
/-! ### Plans, sequences and execution -/

/-- A small plan image: one entry, of one step, on core (0, 0, 0) from word 5, and one tensor of 64 token identifiers. It is not
signed. -/
def img1 : List Byte :=
  List.replicate 0x18 0 ++ [2, 0, 1, 0, 1, 0] ++ List.replicate (0x100 - 0x1E) 0 ++
  (leBytes 4 2 ++ leBytes 4 0x120 ++ leBytes 4 144 ++ leBytes 4 0) ++ (leBytes 4 3 ++ leBytes 4 0x1B0 ++ leBytes 4 32 ++ leBytes 4 0) ++
  ([0, 0, 7, 0] ++ leBytes 16 0 ++ leBytes 4 64 ++ [1, 0] ++ List.replicate 38 0) ++
  ([0, 0, 0, 0, 1, 0, 1, 0, 1, 0, 5, 0] ++ List.replicate 68 0) ++
  (leBytes 4 0x67 ++ leBytes 4 64 ++ leBytes 4 1 ++ leBytes 4 1 ++ leBytes 4 1 ++ leBytes 4 0 ++ leBytes 2 0xFFFF ++ leBytes 6 0)

/-- A key-value state with one sequence of 10 positions, page set 3 in its first block, and pages 4 and 5 free. -/
def seq1 : Sequence := { Sequence.fresh 0 9 with handle := 1, length := 10, pages := [some 3], tokens := List.replicate 10 1 }

def kv1 : KvState := {
  np := 8, pools := [], ctlBase := 0, statePool := 0, liveBase := 0, liveCount := 0, sb := 0, sbx := 0, seqs := [seq1],
  tree := [], freePages := [4, 5], zeroing := [6], freeLive := [], keepers := [], clock := 0, prefixHits := 0,
  prefixMisses := 0, collisions := 0, insertSkipped := 0, cowCopies := 0, swapOut := 0, thawIn := 0 }

/-- A context with that plan and state. -/
def planned : Context := { ctx1 with plan := some { base := 0x2000000, image := img1 }, kv := some kv1 }

/-- The module after its flash maps have been read. -/
def mapped : State := { State.reset with flash := { State.reset.flash with mapsReady := true } }

/-- A command of the partition's own block that stands at its work. -/
def atWork (op : Nat) (ps : List Byte) : State :=
  holds 1 (cmdOf .waiting op 0 0 0xFF ps) (hasPart (onCtx (fun _ => planned)) mapped)

theorem wit_atPointTenant : ∀ op ∈ [0x0201, 0x0202, 0x0203, 0x0204, 0x0301, 0x0302, 0x0303, 0x0304, 0x0305, 0x0306, 0x0307, 0x0308,
    0x0401, 0x0402, 0x0403, 0x0404, 0x0405, 0x0406, 0x0407, 0x0408, 0x0409, 0x040A, 0x040B, 0x0501, 0x0502, 0x0503, 0x0504,
    0x0602, 0x0603, 0x0604, 0x0605, 0x0902, 0x0903, 0x0904],
    AtPoint (atWork op []) ⟨1, 1⟩ (cmdOf .waiting op 0 0 0xFF []) op := by decide +kernel

theorem wit_atPointAdmin : ∀ op ∈ [0x0101, 0x0102, 0x0103, 0x0104, 0x0107, 0x0108, 0x0109, 0x0601, 0x0701, 0x0702, 0x0703, 0x0704, 0x0705,
    0x0706, 0x0707, 0x0801, 0x0802, 0x0803, 0x0804, 0x0805, 0x0901, 0x0905],
    AtPoint (holds 0 (cmdOf .waiting op 0 0xFFFF 0 []) State.reset) ⟨0, 1⟩ (cmdOf .waiting op 0 0xFFFF 0 []) op ∧
    AtPoint (holds 9 (cmdOf .waiting op 0 0xFFFF 0 []) State.reset) ⟨9, 1⟩ (cmdOf .waiting op 0 0xFFFF 0 []) op := by decide +kernel

theorem wit_planLoad :
    let k := cmdOf .waiting 0x0201 0 0 0xFF (leBytes 6 0x100000000000 ++ [0, 0] ++ leBytes 4 0x1000 ++ leBytes 4 0)
    let s := atWork 0x0201 (leBytes 6 0x100000000000 ++ [0, 0] ++ leBytes 4 0x1000 ++ leBytes 4 0)
    AtPoint s ⟨1, 1⟩ k 0x0201 ∧ k.p 6 2 = 0 ∧ k.p 0xC 4 = 0 ∧ k.p 8 4 = 4096 ∧ s.fitsCtx 0 0 4096 = true ∧
    (s.placeFw 0 .plan 0 4096 0x10000).isSome ∧ Plan.validate img1 2 true = some (512, 2) ∧
    (match s.readEng (k.who 1) (k.p 0 6) 64 with
      | .ok bs _ => bs == List.replicate 64 0
      | _ => false) = true := by decide +kernel

theorem wit_planInstall :
    let x := { planned with staged := some { base := 0, image := img1 }, stagedBy := some 1 }
    let s := hasPart (onCtx (fun _ => x)) (holds 1 (cmdOf .started 0x0201 0 0 0xFF []) State.reset)
    s.ctx 0 0 = some x ∧ s.atBoundary ⟨1, 1⟩ 0 0 = true ∧ (s.installPlan 0 0 { base := 0, image := img1 }).isSome := by decide +kernel

theorem wit_poolBind :
    let k := cmdOf .waiting 0x0203 0 0 0xFF (leBytes 16 1)
    let s := atWork 0x0203 (leBytes 16 1)
    AtPoint s ⟨1, 1⟩ k 0x0203 ∧ k.p 4 4 = 0 ∧ Plan.experts (img1.set 0xB 1) = true ∧ s.store 1 = none ∧ s.mapsOut 0 = false ∧
    s.ctx 0 0 = some planned := by decide +kernel

theorem wit_sequences :
    let s := atWork 0x0305 (leBytes 8 7 ++ leBytes 8 9)
    let k := cmdOf .waiting 0x0305 0 0 0xFF (leBytes 8 7 ++ leBytes 8 9)
    let r := cmdOf .waiting 0x0303 0 0 0xFF (leBytes 4 1 ++ leBytes 4 10 ++ leBytes 2 1 ++ List.replicate 14 0)
    s.kv 0 0 = some kv1 ∧ k.p 0 8 < 8 ∧ (s.addSeq 0 0 (Sequence.fresh (k.p 0 1) 9)).isSome ∧ s.seq 0 0 1 = some seq1 ∧
    seq1.status ≠ .busy ∧ seq1.swap = none ∧ r.p 0 4 = 1 ∧ r.p 0xA 6 = 0 ∧ r.p 0x16 2 = 0 ∧ r.p 4 4 ≤ seq1.length ∧
    kv1.stateKnown seq1 10 = true ∧ r.p 8 2 = 1 ∧ 6 ∈ kv1.zeroing := by decide +kernel

theorem wit_pageKey :
    let s := atWork 0x0305 []
    s.kv 0 0 = some kv1 ∧ kv1.seq 1 = some seq1 ∧ seq1.offTree = false ∧ seq1.pages.getD 0 none = some 3 ∧ kv1.tree.length < kv1.np ∧
    (∀ x ∈ kv1.tree, x.key ≠ 0 ∧ x.page ≠ 3) := by decide +kernel

/-- The premises with block 1, whose parent is the node of page 3. -/
theorem wit_pageKeyLater :
    let n : TreeNode := { page := 3, key := 5, parent := none, tokens := [], ckpt := false }
    let q := { seq1 with pages := [some 3, some 4], node := some 3 }
    let v := { kv1 with seqs := [q], tree := [n] }
    v.seq 1 = some q ∧ q.pages.getD 1 none = some 4 ∧ (q.node.bind v.nodeOf).isSome ∧ q.pages.getD 0 none = q.node ∧
    (∀ x ∈ v.tree, x.key ≠ pageKey 5 [] ∧ x.page ≠ 4) := by decide +kernel

theorem wit_writable :
    let s := atWork 0x0305 []
    (kv1.seqs.map (fun q => q.handle)).Nodup ∧ (∀ m ∈ kv1.freePages, kv1.refs m = 0) ∧ (s.writable 0 0 1 0 (kv1.copies [1] 1 0)).isSome ∧
    (s.writable 0 0 1 1 (kv1.copies [1] 1 1)).isSome := by decide +kernel

/-- Parameters of OP_RUN for entry 0, without sequences. -/
def runPars : List Byte := List.replicate 0x40 0 ++ [0xFF, 0xFF] ++ List.replicate 0x3E 0

theorem wit_run :
    let k := cmdOf .waiting 0x0301 0 0 0xFF runPars
    let s := atWork 0x0301 runPars
    AtPoint s ⟨1, 1⟩ k 0x0301 ∧ k.execCheck planned = .inr ({ base := 0x2000000, image := img1 }, 0) ∧ k.p 0x42 2 = 0 ∧ k.p 0x40 2 = 0xFFFF ∧
    (s.prepareRun 0 0 k []).isSome ∧ k.execCheck ctx1 = .inl (Fin.bare stNoPlan) ∧
    (cmdOf .waiting 0x0304 0 0 0xFF (List.replicate 0x80 0)).execCheck planned = .inr ({ base := 0x2000000, image := img1 }, 0) := by decide +kernel

/-- Parameters of OP_RUN with one sequence, 1, and no token, and its record tensor, 0, bound at the start of host memory. -/
def seqPars : List Byte :=
  [0, 0, 1, 0] ++ List.replicate 0x3C 0 ++ [0, 0, 1, 0] ++ List.replicate 0x3C 0 ++ (leBytes 4 1 ++ leBytes 4 0 ++ leBytes 8 0) ++
    (leBytes 8 0 ++ leBytes 8 0x100000000000)

theorem wit_runSequence :
    let k := cmdOf .waiting 0x0301 0 0 0xFF seqPars
    let s := atWork 0x0301 seqPars
    k.execCheck planned = .inr ({ base := 0x2000000, image := img1 }, 0) ∧ k.p 0x42 2 = 1 ∧ k.p 0x40 2 ≠ 0xFFFF ∧
    (k.bound 0).isSome ∧ Plan.tRole img1 0 = 6 ∧ 16 ≤ Plan.elements img1 (k.rounded img1) 0 ∧ k.noLookup = false ∧ s.seq 0 0 (k.p 0x80 4) = some seq1 ∧
    seq1.length + k.p 0x84 4 ≤ 2 ^ 32 ∧ s.liveShort 0 0 [1] 0 = false ∧
    (match s.readTokens (k.who 1) k.seqBinds with
      | .ok toks t => (t.prepareRun 0 0 k toks).isSome
      | _ => false) = true := by decide +kernel

/-- Parameters of OP_ROLL: sequence 1 at its end, one future, one frame of one position, two tokens, table tensor 0. -/
def rollPars : List Byte :=
  [0, 0, 1, 0] ++ List.replicate 0x3C 0 ++
  (leBytes 4 1 ++ leBytes 4 0xFFFFFFFF ++ leBytes 2 1 ++ leBytes 2 1 ++ leBytes 2 1 ++ leBytes 2 1 ++ [1, 1, 1, 0] ++ leBytes 4 0x3F800000 ++
   leBytes 2 0 ++ leBytes 2 2 ++ leBytes 2 0 ++ leBytes 2 0 ++ leBytes 8 5 ++ leBytes 8 0x100000000000 ++ leBytes 8 0x100000001000 ++
   leBytes 2 0 ++ [1, 0] ++ List.replicate 0x44 0) ++ (leBytes 8 0 ++ leBytes 8 0x100000002000)

theorem wit_roll :
    let k := cmdOf .waiting 0x0302 0 0 0xFF rollPars
    let s := atWork 0x0302 rollPars
    AtPoint s ⟨1, 1⟩ k 0x0302 ∧ k.execCheck planned = .inr ({ base := 0x2000000, image := img1 }, 0) ∧ k.rollFault img1 = none ∧
    s.seq 0 0 k.roll.seq = some seq1 ∧ k.roll.value = false ∧ seq1.length + k.roll.t * k.roll.hw ≤ 2 ^ 32 ∧ kv1.stateKnown seq1 10 = true ∧
    kv1.seqs.length + k.roll.f ≤ 65536 ∧ s.liveShort 0 0 [1] 0 = false ∧ s.thaw 0 0 1 = some s ∧
    (cmdOf .waiting 0x0302 0 0 0xFF (rollPars.set 0x48 0)).rollFault img1 = some 0x48 := by decide +kernel

/-- A command that has started, with one step to dispatch. -/
def exec1 : ExecRun := ExecRun.start [{ no := 0, entry := 0, step := 0, idx := [], granule := 0 }] [] none 1

def started1 (e : ExecRun) : State :=
  hasPart (onCtx (fun _ => planned)) (holds 1 { cmdOf .started 0x0301 0 0 0xFF runPars with exec := some e } State.reset)

theorem wit_dispatch :
    let s := started1 exec1
    let k := { cmdOf .started 0x0301 0 0 0xFF runPars with exec := some exec1 }
    s.cmd ⟨1, 1⟩ = some k ∧ s.ctx (k.home ⟨1, 1⟩) k.ctxField = some planned ∧ s.runsNow ⟨1, 1⟩ k 0 = true ∧ exec1.atPoint = none ∧
    exec1.stepLeft = [] ∧ Plan.stepCores img1 0 0 = [(0, 0, 0)] ∧ s.part 0 = some (onCtx (fun _ => planned) part1) ∧
    (s.core (s.keyAt part1 (0, 0, 0))).regs.zeroing = false := by decide +kernel

/-- A dispatch that has ended, on core 0. -/
def disp1 : DispatchRec :=
  { no := 0, pos := (0, 0, 0), block := 1, cmd := 1, entryPc := 5, args := [], ended := true, inst := 0, granule := 0 }

theorem wit_commit :
    let x := onCtx (fun _ => planned) { part1 with dispatches := [disp1], nextDispatch := [(lposOf (0, 0, 0), 1)] }
    let s := { started1 { exec1 with todo := [] } with parts := [(0, some x)] }
    posOk ⟨0, 0, 0⟩ = true ∧ s.dispatchOf 0 = some (0, x, disp1) ∧ disp1.ended = true ∧ (x.ofCmd ⟨1, 2⟩).any (fun d => d.granule == 0) = false ∧
    ({ exec1 with todo := [] } : ExecRun).todo.any (fun i => decide (i.granule ≤ 0)) = false := by decide +kernel

theorem wit_commitBinds :
    let s := started1 { exec1 with todo := [] }
    (match s.commitBinds { part := some 0, ctx := some 0 } 0 0 [] with
      | .ok _ _ => true
      | _ => false) = true := by decide +kernel
/-! ### Memory, regions and stores -/

/-- A read of the host window that nothing refuses delivers the bytes of host memory. -/
theorem host_read (s : State) (w : Who) (h n : Nat) (hn : n ≠ 0) (hp : place (0x100000000000 + h) = .host h)
    (hr : s.hostRefuses w.requester h n = false) (ht : s.tdiRefuses w = false) :
    s.readEng w (0x100000000000 + h) n = .ok (Memory.read s.mem.hostMem h n) s := by
  simp [State.readEng, hn, hp, hr, ht]

/-- A write to the host window that nothing refuses is made. -/
theorem host_write (s : State) (w : Who) (h : Nat) (bs : List Byte) (hn : bs.length ≠ 0) (hp : place (0x100000000000 + h) = .host h)
    (hr : s.hostRefuses w.requester h bs.length = false) (ht : s.tdiRefuses w = false) :
    s.writeEng w (0x100000000000 + h) bs = .ok () { s with mem := { s.mem with hostMem := Memory.write s.mem.hostMem h bs } } := by
  simp [State.writeEng, hn, hp, hr, ht]

/-- Parameters of OP_REGION_CREATE: FINE, of the partition, 0x180000 bytes at 0x10000. -/
def regionPars : List Byte := leBytes 8 0x400 ++ leBytes 8 0x10000 ++ leBytes 8 0x180000 ++ leBytes 8 0

theorem wit_regionCreate :
    let k := cmdOf .waiting 0x0401 0 0 0xFF regionPars
    let s := atWork 0x0401 regionPars
    let x := onCtx (fun _ => planned) part1
    let g := k.region ⟨1, 1⟩
    AtPoint s ⟨1, 1⟩ k 0x0401 ∧ s.part 0 = some x ∧ regionFields k x g true = true ∧ x.inWindow g.base g.size = true ∧
    x.overlaps g.base g.size = false ∧ x.freeDescriptor = some 0 ∧ g.owner = none ∧ s.fitsPart 0 g.size = true ∧
    x.lowestOffset g.backing = some 0 ∧
    { x with regions := [(0, some g)] }.overlaps g.base g.size = true := by decide +kernel

theorem wit_regions :
    let r : Region := { mode := 0, stack := 0, chan := 0, owner := some 0, base := 0x10000, size := 0x180000, coff := 0, ready := false,
                        by_ := some (1, 1) }
    let x : Partition := { onCtx (fun _ => planned) part1 with regions := [(0, some r), (15, some { r with ready := true, by_ := none })] }
    let s := { atWork 0x0402 (leBytes 4 15) with parts := [(0, some x)] }
    s.part 0 = some x ∧ SMap.get none x.regions 0 = some r ∧ r.ready = false ∧
    SMap.get none x.regions 15 = some { r with ready := true, by_ := none } ∧
    s.regionBoundary ⟨1, 1⟩ 0 { r with ready := true, by_ := none } = true ∧
    AtPoint s ⟨1, 1⟩ (cmdOf .waiting 0x0402 0 0 0xFF (leBytes 4 15)) 0x0402 ∧ SMap.get none x.regions 1 = none ∧
    (cmdOf .waiting 0x0403 0 0 0xFF (leBytes 4 15)).p 0 4 < 16 := by decide +kernel

/-- Parameters of OP_MEM_COPY in host memory. -/
def copyPars (src dst len : Nat) : List Byte := leBytes 8 (0x100000000000 + src) ++ leBytes 8 (0x100000000000 + dst) ++ leBytes 8 len ++ leBytes 8 0

theorem wit_memCopyFields :
    let k := cmdOf .waiting 0x0404 0 0 0xFF (copyPars 0 0x10000 0x10000)
    let z := cmdOf .waiting 0x0404 0 0 0xFF (copyPars 0 8 16)
    let s := atWork 0x0404 (copyPars 0 0x10000 0x10000)
    AtPoint s ⟨1, 1⟩ k 0x0404 ∧ k.p 6 2 = 0 ∧ k.p 0xE 2 = 0 ∧ k.p 0x18 8 < 2 ∧ k.p 0x10 8 = 65536 ∧ k.p 0 6 + 65536 ≤ k.p 8 6 ∧ k.progress = 0 ∧
    z.p 0 6 < z.p 8 6 + z.p 0x10 8 ∧ z.p 8 6 < z.p 0 6 + z.p 0x10 8 ∧
    (cmdOf .waiting 0x0404 0 0 0xFF (copyPars 0 8 0)).p 0x10 8 = 0 := by decide +kernel

theorem wit_memCopyMoves : ∃ bs t u, (atWork 0x0404 []).readEng { part := some 0, ctx := some 0 } 0x100000000000 65536 = .ok bs t ∧
    t.writeEng { part := some 0, ctx := some 0 } (0x100000000000 + 0x10000) bs = .ok () u :=
  ⟨_, _, _, host_read _ _ 0 65536 (by decide) (by decide) (by decide) (by decide),
    host_write _ _ 0x10000 _ (by simp [Memory.read]) (by decide) (by simp only [Memory.read, List.length_map, List.length_range]; decide)
      (by decide)⟩

theorem wit_scrubRead :
    let s := { State.reset with mem := { State.reset.mem with poison := [(5, true)] } }
    (State.reset).poisoned 5 31 0xFE0000 = false ∧ s.poisoned 0 0 5 = true ∧ 0x1FDFFFF * 64 < 0x7F800000 ∧ (s.chan 0 0).copying = none ∧
    ((s.setChan 5 31 { Chan.reset with copying := some 32 }).chan 5 31).copying = some 32 := by decide +kernel

/-- A persistent store of the partition, number 1, of 8 units, attached to the context or not; unit 0 is written. -/
def store1 (c : Option Nat) : Store :=
  { handle := 1, part := some 0, ctx := c, persistent := true, units := 8, pairs := [0], data := [], written := [(0, true)], keyed := true }

def withStore (c : Option Nat) (s : State) : State := { s with flash := { s.flash with stores := [store1 c] } }

/-- Parameters of a store command: store, OPTIONS, unit or units, count, address. -/
def storePars (st unit n a : Nat) : List Byte := leBytes 8 st ++ leBytes 8 unit ++ leBytes 8 n ++ leBytes 8 a

theorem wit_storeCreate :
    let k := cmdOf .waiting 0x0405 0 0 0xFF (storePars 0 8 0 0)
    let s := atWork 0x0405 (storePars 0 8 0 0)
    AtPoint s ⟨1, 1⟩ k 0x0405 ∧ k.storeFields = true ∧ k.p 8 8 = 8 ∧ s.ctx 0 0 = some planned ∧
    s.flashCharge 0 (some 0) + 8 ≤ planned.quota.flash := by decide +kernel

theorem wit_storeOps :
    let s := withStore (some 0) (atWork 0x0406 (storePars 1 0 0 0))
    let d := cmdOf .waiting 0x0406 0 0 0xFF (storePars 1 0 0 0)
    s.store (d.p 0 4) = some (store1 (some 0)) ∧ d.storeFields = true ∧ s.atBoundary ⟨1, 1⟩ 0 0 = true ∧ s.mapsOut 0 = false ∧
    s.flashCharge 0 (some 0) + (store1 none).units ≤ planned.quota.flash ∧
    (cmdOf .waiting 0x0407 0 0 0xFF (storePars 1 0 0 0)).storeFields = true := by decide +kernel

theorem wit_storeUnits :
    let s := withStore (some 0) (atWork 0x0409 (storePars 1 0 1 0x100000000000))
    let r (op u : Nat) := cmdOf .waiting op 0 0 0xFF (storePars 1 u 1 0x100000000000)
    s.unitsFail (r 0x0409 0) 0 0 = none ∧ s.unitsFail (r 0x0408 7) 0 0 = none ∧ s.unitsFail (r 0x0409 8) 0 0 ≠ none ∧
    s.unitsFail (cmdOf .waiting 0x040A 0 0 0xFF (storePars 1 0 1 0)) 0 0 = none ∧ (r 0x0409 0).p 0x10 4 = 1 ∧ (r 0x0409 0).progress = 0 ∧
    SMap.get false (store1 none).written 7 = false ∧ SMap.get false (store1 none).written 0 = true ∧
    outcomeOf [] 0 = none ∧ outcomeOf [{ unit := 0, outcome := .lost }] 0 = some .lost := by decide +kernel

theorem wit_storeReadWrites (t : State) (h1 : t.hostRefuses 1 0 65536 = false) (h2 : t.tdiRefuses { part := some 0, ctx := some 0 } = false) :
    ∃ u, t.writeEng { part := some 0, ctx := some 0 } 0x100000000000 (List.replicate 65536 0#8) = .ok () u :=
  ⟨_, host_write t _ 0 _ (by rw [List.length_replicate]; decide) (by decide) (by rw [List.length_replicate]; exact h1) h2⟩

theorem wit_storeStat :
    let k := cmdOf .waiting 0x040B 0x100 0 0xFF (storePars 0 0 0 0x100000000000)
    let s := atWork 0x040B (storePars 0 0 0 0x100000000000)
    k.storeFields = true ∧ k.opf0 = true ∧ (s.output ⟨1, 1⟩ (k.who 1) (k.p 0x18 6) ((s.fpair 0).record) Fin.ok).2 = some Fin.ok := by decide +kernel

/-- Flash of pair 0 with superblock 3 open on channel 0, and a unit of store 1 to be written there. -/
def flashing : State :=
  let ch : FlashChan := { FlashChan.fresh with opened := some 3, sbs := [(3, { Superblock.fresh with use := .opened, fill := 1 }), (4, { Superblock.fresh with relocating := true })] }
  let s := withStore (some 0) (hasPart (onCtx (fun _ => planned)) (holds 1 (cmdOf .started 0x0408 0 0 0xFF (storePars 1 0 1 0x100000000000)) mapped))
  { s with flash := { s.flash with pairs := [(0, { FlashPair.fresh with chans := [(0, ch)], jobs := [{ store := 1, unit := 0, addr := 0x100000000000, block := 1, cmd := 1 }] })] } }

theorem wit_flash :
    ((flashing.fpair 0).chan 0).opened = some 3 ∧ ((flashing.fpair 0).chan 1).opened = none ∧
    (((flashing.fpair 0).chan 0).sb 3).relocating = false ∧ (((flashing.fpair 0).chan 0).sb 4).relocating = true ∧
    ((flashing.fpair 0).evacuate 0 4).valid 0 4 = [] ∧ flashing.flash.paused.contains 0 = false ∧
    (flashing.cmd ⟨1, 1⟩).isSome ∧ ((flashing.fpair 0).place 1 0).isSome := by decide +kernel

/-! ### Span -/

/-- Port 0 up, with a flit in its replay buffer. -/
def portUp : SpanPort := { SpanPort.reset with state := .up, enabled := true, lanes := 8, replay := [(4, [1]), (5, [2])] }

def linked (f : SpanPort → SpanPort) (s : State) : State := { s with span := { s.span with ports := [(0, f portUp)] } }

theorem wit_flit :
    let s := linked id State.reset
    let g := mkFlit 0 4 0 3 [9]
    (s.port 0).listens = true ∧ field g 206 2 = (crc16 ((List.range 206).map (fun i => g.getD i 0))).toNat ∧ field g 0 6 % 4096 = 0 ∧
    field (mkFlit 1 0 0 0 []) 0 6 % 4096 ≠ 0 ∧ ((linked (fun x => { x with discarding := true }) State.reset).port 0).discarding = true ∧
    (s.port 0).discarding = false ∧ (s.port 0).replay.findIdx? (fun e => e.1 % 4096 == 5 % 4096) = some 1 ∧
    (∀ kind ∈ [1, 2, 3], field (mkFlit 0 4 kind 0 []) 0 6 / 2 ^ 24 % 4 = kind) := by decide +kernel

/-- The replay buffer with room and full, and a payload that waits. -/
theorem wit_replay :
    let x : SpanPort := { portUp with credit := 1, waiting := [(6, [3])] }
    let full : SpanPort := { x with replay := List.replicate 512 (4, []) }
    x.waiting = (6, [3]) :: [] ∧ x.listens = true ∧ 0 < x.credit ∧ x.replay.length < 512 ∧ 512 ≤ full.replay.length ∧
    ({ x with credit := 0 } : SpanPort).credit = 0 ∧ ({ x with state := .down } : SpanPort).listens = false := by decide

theorem wit_lanes12 :
    let s := linked id State.reset
    let d (st : PortState) := (linked (fun x => { x with state := st, rx := { x.rx with retired := some 3 }, request := some 2,
                                                          tx := { x.tx with retired := some 4 } }) State.reset).port 0
    (s.port 0).usable = true ∧ (s.port 0).rx.failing.contains 8 = false ∧ (s.port 0).rx.retired = none ∧ (s.port 0).request = none ∧
    (s.port 0).tx.retired = none ∧ (s.port 0).tx.failing.contains 8 = false ∧ (d .up).usable = true ∧ (d .up).rx.retired.isSome = true ∧
    (d .up).request = some 2 ∧ (d .up).request ≠ some 5 ∧ (d .up).tx.retired = some 4 ∧
    (d .training).state = .training ∧ (d .training).tx.failing.length ≤ 1 ∧ 8 ≤ min 8 8 ∧ 4 ≤ min 7 8 ∧ min 3 8 < 4 ∧ (d .down).state = .down := by decide

/-- A window on the SPAD of logical core (0, 0, 0), open to engine 7 and partition 0. -/
def window1 : Window :=
  { spad := true, perm := 7, bulk := false, srcEngine := 7, srcMask := 0xFFF, srcParts := 1, target := 0, base := 0x1000, size := 0x1000 }

/-- A partition with that window, and a route to engine 9 that forwards nothing. -/
def spanPart : Partition :=
  { part1 with span := { routes := [(0, some { dest := 9, forward := false, mask := 1 })], windows := [(3, some window1)], groups := [(0, some { ppe := 1, members := [(0xFFE, 0)], digest := 0, mismatch := false })], digests := [] } }

def spanned : State := { linked id (runs id) with parts := [(0, some spanPart)] }

/-- A packet to window 3 of this engine from engine 7. -/
def pkt1 (op off arg : Nat) (data : List Byte) : List Byte := mkPacket op 0 0 3 0xFFE 0 7 0 off (reqId 5 6 7) arg data

theorem wit_spanPackets :
    let s := spanned
    let w := pkt1 1 0xFFC 0 [1, 2, 3, 4]
    let r := pkt1 2 0xFC0 0 []
    let a := pkt1 3 0xFFC 5 [0, 0, 0, 0]
    (s.port 0).listens = true ∧ (s.port 0).inbox = [] ∧ w.length = 32 + (Pkt.of w).len ∧ (Pkt.of w).len ≤ 256 ∧ (Pkt.of w).idx ≠ 0x7FF ∧ (Pkt.of w).dstE = s.span.engineId ∧ s.portPart 0 = some 0 ∧
    s.part 0 = some spanPart ∧ SMap.get none spanPart.span.windows (Pkt.of w).window = some window1 ∧ window1.admits (Pkt.of w) = true ∧
    spanPart.spadGate = .take ∧ (s.windowAt 0 spanPart window1 0xFFC).isSome ∧ (Pkt.of w).op = 1 ∧ s.newerAt (srcKey (Pkt.of w)) (Pkt.of w) = true ∧
    (s.appliedAt (srcKey (Pkt.of w)) (Pkt.of w)).newerAt (srcKey (Pkt.of w)) { Pkt.of w with offset := 0 } = false ∧
    (Pkt.of r).op = 2 ∧ window1.admits (Pkt.of r) = true ∧ (Pkt.of r).offset + (Pkt.of r).span ≤ window1.size ∧
    (Pkt.of a).op = 3 ∧ window1.admits (Pkt.of a) = true ∧ (Pkt.of a).offset + (Pkt.of a).span ≤ window1.size ∧
    (Pkt.of (pkt1 0xB 0 0 [])).op = 0xB ∧ ({ spanPart with current := none } : Partition).spadGate = .deny ∧ ({ spanPart with awaitFirst := true } : Partition).spadGate = .hold ∧
    window1.admits { Pkt.of w with srcE := 8 } = false ∧
    window1.size < (Pkt.of (pkt1 1 0xFFD 0 [1, 2, 3, 4])).offset + (Pkt.of (pkt1 1 0xFFD 0 [1, 2, 3, 4])).span ∧
    s.portPart 0 ≠ some (Pkt.of (mkPacket 1 0 0 3 0xFFE 1 7 0 0 0 0 [])).dstP := by decide +kernel

theorem wit_spanAccess :
    let s := spanned
    (match s.windowAt 0 spanPart window1 0xFFC with
      | none => false
      | some (who, a, _) => (match s.readEng who a 4 with
        | .ok _ t => (match t.writeEng who a [1, 2, 3, 4] with
          | .ok _ _ => true
          | _ => false)
        | _ => false)) = true := by decide +kernel

theorem wit_forward :
    let k := Pkt.of (mkPacket 1 0 3 0 9 0 7 0 0 0 0 [])
    k.dstE ≠ spanned.span.engineId ∧ k.hops = 3 ∧ spanned.route 0 9 = some { dest := 9, forward := false, mask := 1 } ∧
    spanned.route 0 10 = none ∧ spanned.routePorts 0 1 = [0] := by decide

/-- A write issued by core 0, in dispatch 6, that waits for its acknowledgement. -/
def op1 : SpanOp :=
  { core := 0, cmd := none, part := 0, lpos := 5, op := 1, lsem := 0, dispatch := 6, req := 7, engine := 7, dstPart := 0, window := 0, offset := 0,
    arg := 0, length := 256, dstOff := 0, data := [], port := 0, got := 0, acked := false, flits := [] }

theorem wit_spanCompletion :
    let s := { spanned with span := { spanned.span with ops := [op1] } }
    let ack := mkPacket 8 0 0 0 0xFFE 0 7 0 0 (reqId 5 6 7) 0 []
    let err := mkPacket 0xA 2 0 0 0xFFE 0 7 0 0 (reqId 5 6 7) 0 []
    let find (b : List Byte) := s.span.ops.find? (fun o => o.answers (Pkt.of b) && ((Pkt.of b).op == 0xA || (Pkt.of b).offset == o.offset + o.got))
    find ack = some op1 ∧ (Pkt.of ack).op = 8 ∧ op1.length ≤ op1.got + 256 ∧ find err = some op1 ∧ (Pkt.of err).op = 0xA ∧
    s.span.ops.find? (fun z => z.core == 0 && z.cmd.isNone && z.req == 7 && !z.acked) = some op1 ∧ s.opAlive op1 = false ∧
    op1.cmd = none ∧ ack.length = 32 + (Pkt.of ack).len ∧ (Pkt.of ack).dstE = s.span.engineId := by decide +kernel

theorem wit_spanTimeout :
    let x := { spanPart with dispatches := [disp1] }
    let w : SpanWait := { tag := 0xF500, opId := 7, src := (0, 256), dst := (0, 0), racedSrc := false, racedDst := false }
    let c (d : Core) : Core := { d with run := { d.run with dispatch := 6, spanWaits := [w] } }
    let s := { linked id (runs c) with parts := [(0, some x)], span := { spanned.span with ops := [op1] } }
    s.opAlive op1 = true ∧ (s.dispatchOf 0).isSome ∧ (s.core 0).spanWait 7 = some w ∧
    s.span.ops.find? (fun z => z.core == 0 && z.cmd.isNone && z.req == 7 && !z.acked) = some op1 := by decide +kernel

/-- Operations to be sent: a WRITE, a READ and an ATOMIC_ADD. -/
theorem wit_operations : op1.op = 1 ∧ op1.cmd = none ∧ op1.got = 0 ∧ 0 < op1.length ∧ ({ op1 with op := 2 } : SpanOp).op = 2 ∧
    ({ op1 with op := 3 } : SpanOp).op = 3 := by decide

/-- A broadcast-like gather (op 6) of one part on this engine. -/
def coll1 : CollRun :=
  { part := 0, group := 0, op := 6, ty := 0, redop := 0, length := 4, joins := [{ idx := 0, core := 0, lsem := 0, dst := 0, req := 0 }], ids := [], data := [(0, some [1, 2, 3, 4])],
    sent := false, finished := false }

theorem wit_collective :
    let s := { spanned with span := { spanned.span with colls := [coll1] } }
    let g : Group := { ppe := 1, members := [(0xFFE, 0)], digest := 0, mismatch := false }
    let o := s.openParts g.parts coll1
    let q := o.1.foldOwned 0 g o.2
    spanPart.group 0 = some g ∧ s.span.colls.find? (fun r => r.part == 0 && r.group == 0 && !r.finished && decide (r.op ≠ 0)) = some coll1 ∧
    g.ppe ≤ coll1.joins.length ∧ ({ coll1 with joins := [] } : CollRun).joins.length < g.ppe ∧
    (q.2.joins.mapM (fun j => ((q.2.result g.parts j.idx).map (fun bs => (j, bs))))).isSome ∧
    (({ q.2 with data := [] } : CollRun).joins.mapM (fun j => ((({ q.2 with data := [] } : CollRun).result g.parts j.idx).map (fun bs => (j, bs))))) = none := by
  decide +kernel

/-- A segment of part 0 of group 0, from this engine, whose identity has been applied. -/
theorem wit_collDuplicate :
    let k := Pkt.of (mkPacket 4 0 0 0 0xFFE 0 0xFFE 0 0 (reqId 5 6 7) (collArg 0 0 0) [1])
    let u := ({ spanned with span := { spanned.span with colls := [] } } : State).appliedAt (collKey k) k
    u.portPart 0 = some k.dstP ∧ k.idx ≠ 0x7FF ∧ (u.part k.dstP).bind (fun y => y.group k.group) = spanPart.group 0 ∧
    ([(0xFFE, 0)] : List (Nat × Nat))[k.idx / max 1 1]? = some (k.srcE, k.srcP) ∧
    u.span.colls.find? (fun r => (r.part == k.dstP && r.group == k.group) && r.ids.contains (k.idx, k.req)) = none ∧
    u.newerAt (collKey k) k = false := by decide +kernel

theorem wit_spanCommands :
    let cfg := cmdOf .waiting 0x0901 0 0xFFFF 0xFF (leBytes 4 0xFFE ++ leBytes 4 1 ++ leBytes 4 1000000 ++ leBytes 4 0)
    let rt := cmdOf .waiting 0x0902 0 0 0xFF (leBytes 4 0x1FF ++ leBytes 4 0xFFE ++ leBytes 4 3)
    let wn := cmdOf .waiting 0x0903 0 0 0xFF (leBytes 4 0xFBF ++ leBytes 4 0xFFF0FFF ++ leBytes 4 255 ++ leBytes 4 255 ++ leBytes 8 0x3FFFC0 ++ leBytes 8 0x40)
    let cl := cmdOf .waiting 0x0904 0 0 0xFF (leBytes 4 0xFF1F ++ leBytes 4 0 ++ leBytes 4 0xFFE ++ List.replicate 28 0)
    let s := atWork 0x0902 []
    cfg.p 0 4 < 0xFFF ∧ 10 ≤ cfg.p 8 4 ∧ cfg.p 8 4 ≤ 1000000 ∧ cfg.p 12 4 = 0 ∧
    (cmdOf .waiting 0x0901 0 0xFFFF 0xFF (leBytes 4 0xFFF)).p 0 4 = 0xFFF ∧
    rt.p 0 4 < 2 ^ 9 ∧ rt.p 4 4 < 0xFFF ∧ (bitsSet (rt.p 8 4) 32).all (fun n => s.portPart n == some 0) = true ∧ s.partQuiet ⟨1, 1⟩ 0 = true ∧
    wn.p 0 4 < 2 ^ 13 ∧ wn.p 0 4 / 64 % 4 = 2 ∧ wn.p 4 4 < 2 ^ 28 ∧ wn.p 4 4 / 2 ^ 12 % 16 = 0 ∧ wn.p 8 4 < 256 ∧
    wn.p 0x18 8 % 64 = 0 ∧ wn.p 12 4 < 128 * part1.dies.length ∧ wn.p 0x10 8 + wn.p 0x18 8 ≤ 0x400000 ∧
    cl.p 0 4 < 2 ^ 16 ∧ cl.p 4 4 = 0 ∧ cl.p 0 4 / 16 % 16 = 1 ∧ (∀ i, i < 8 → cl.p (8 + 4 * i) 4 < 2 ^ 15) ∧
    ((List.range 1).map (fun i => (cl.p (8 + 4 * i) 4 % 4096, cl.p (8 + 4 * i) 4 / 2 ^ 12 % 8))) = [(0xFFE, 0)] ∧
    ([(0xFFE, 0)].filter (fun m => m.1 == s.span.engineId)).length = 1 := by decide +kernel

theorem wit_spanStat :
    let k := cmdOf .waiting 0x0905 0 0xFFFF 0xFF (leBytes 8 31 ++ leBytes 8 0x100000000000)
    let s := holds 0 k State.reset
    k.p 0 4 < 32 ∧ k.p 4 4 = 0 ∧ k.p 8 8 < 2 ^ 48 ∧ portOf 0 ≠ 1 ∧ portOf 0 ≠ 3 ∧ portOf 1 = 1 ∧
    (s.output ⟨0, 1⟩ { part := none, ctx := none } (k.p 8 8) (leBytes 32 (s.portRecord 31)) Fin.ok).2 = some Fin.ok ∧
    (atWork 0x0905 []).portPart 4 ≠ some 0 := by decide +kernel

/-! ### Host interface -/

/-- The module in service. -/
def ready : State := { mapped with start := { mapped.start with phase := .ready }, stw := { mapped.stw with running := true } }

/-- Ring pair 0 of block 1, changed. -/
def ringed (f : Ring → Ring) (s : State) : State := { s with blocks := [(1, { QBlock.reset with rings := [(0, f Ring.reset)] })] }

/-- Both rings enabled, of 128 slots and 64 records; the first packet of a fresh OP_KV_STAT lies at the ring's start. -/
def ringOn (g : Ring) : Ring :=
  { sq := { g.sq with state := .enabled, sizeLog2 := 7, base := 0x1000, tail := 2 }, cq := { g.cq with state := .enabled, sizeLog2 := 6, base := 0x8000 } }

def fetching : State :=
  let s := hasPart (onCtx (fun _ => planned)) (ringed ringOn ready)
  { s with mem := { s.mem with hostMem := Memory.write [] 0x1000 (packet 0x0308 0 0 0xFF (leBytes 8 0x100000000000)) } }

theorem wit_registers :
    let vf := { ready with host := { ready.host with sriov := true } }
    ready.up = true ∧ ready.host.sriov = false ∧ vf.up = true ∧ vf.host.sriov = true ∧ State.reset.up = false ∧ posOk ⟨0, 0, 0⟩ = true ∧
    (ready.core 0).seq.state = .idle ∧ (0 : Nat) ≠ 0x2004 := by decide

theorem wit_ringEnable :
    let s := hasPart id (ringed (fun g => { ringOn g with sq := { (ringOn g).sq with state := .disabled } }) ready)
    let e := hasPart id (ringed ringOn ready)
    let d := hasPart id (ringed id ready)
    (s.ring 1 0).sq.state = .disabled ∧ s.ringPlace 1 false = true ∧ (s.ring 1 0).cq.state = .enabled ∧
    (s.ring 1 0).sq.base.toNat + 64 * 2 ^ 16 ≤ 0xF00000000000 ∧ (0x00100008 : Word).toNat / 0x10000 % 32 = 16 ∧ (0x00060008 : Word).toNat / 0x10000 % 32 = 6 ∧
    (e.ring 1 0).sq.state = .enabled ∧ (e.ring 1 0).cq.state ≠ .disabled ∧ (d.ring 1 0).cq.state = .disabled ∧
    (d.ring 1 0).cq.base.toNat + 32 * 2 ^ 16 ≤ 0xF00000000000 ∧ (s.ring 1 0).cq.held = [] := by decide

theorem wit_doorbells :
    let e := hasPart id (ringed ringOn ready)
    127 < 2 ^ (e.ring 1 0).sq.sizeLog2.toNat ∧ 2 ^ (e.ring 1 0).sq.sizeLog2.toNat ≤ 128 ∧ (e.ring 1 0).cq.tail = 0 ∧
    ¬ ((0 + 64 - 0) % 64 < (0 + 64 - 0) % 64) ∧ ((0 + 64 - 0) % 64 < (1 + 64 - 0) % 64) := by decide

theorem wit_packetFetch :
    let s := fetching
    let q := (s.ring 1 0).sq
    s.up = true ∧ (s.block 1).cmds.length < 64 ∧ s.turnRing 1 = some 0 ∧
    (match (s.updBlock 1 (fun x => { x with turn := 1 })).slotRead 1 q q.head.toNat with
      | .ok hdr s1 => (slotsOf hdr == 2 && (match engAll (fun t i => t.slotRead 1 q (q.head.toNat + i)) s1 [1] with
        | .ok rest _ => decide ((Cmd.copied 0 0 (hdr ++ rest) 2).paramLen = 8) && decide ((Cmd.copied 0 0 (hdr ++ rest) 2).qseq = 0)
        | _ => false))
      | _ => false) = true ∧ (s.ring 1 0).sq.expectSeq = 0 := by decide +kernel

theorem wit_recordWrite :
    let h : HeldRec := { cmd := none, bytes := List.replicate 32 0, noIrq := false }
    let s := ringed (fun g => { ringOn g with cq := { (ringOn g).cq with held := [h] } }) ready
    let i := ringed (fun g => { ringOn g with cq := { (ringOn g).cq with irqEn := true, delay := 1, pendingIrq := 1 } }) ready
    (s.ring 1 0).cq.held = [h] ∧ (s.ring 1 0).cq.state = .enabled ∧ (s.ring 1 0).cq.isFull = false ∧ (s.ring 1 0).cq.loc = false ∧
    s.hostRefuses 1 0x8000 32 = false ∧ (s.ring 1 0).cq.irqEn = false ∧ (i.ring 1 0).cq.irqEn = true ∧ (i.ring 1 0).cq.delay ≠ 0 ∧
    0 < (i.ring 1 0).cq.pendingIrq := by decide

theorem wit_controlRegisters :
    let s := { ready with stw := { ready.stw with nextSeq := 5 } }
    ready.up = true ∧ ((5 : Word) - s.stw.evtCons).toNat ≤ (BitVec.ofNat 32 s.stw.nextSeq - s.stw.evtCons).toNat ∧
    (BitVec.ofNat 32 s.stw.nextSeq - s.stw.evtCons).toNat < ((6 : Word) - s.stw.evtCons).toNat ∧
    (0xB4420000 : Word).toNat / 2 ^ 28 % 8 < 4 ∧ (0xB4420000 : Word).toNat / 2 ^ 23 % 16 = 8 ∧ (0xB4420000 : Word).toNat / 2 ^ 17 % 64 = 0x21 ∧
    4 ≤ (0x40000000 : Word).toNat / 2 ^ 28 % 8 ∧ ready.stw.running = true ∧ ready.stw.resetting = false := by decide

/-- A region at the start of partition 0's window, with codeword 1 poisoned. -/
def apertured : State :=
  let r : Region := { mode := 0, stack := 0, chan := 0, owner := none, base := 0, size := 0x180000, coff := 0, ready := true, by_ := none }
  { hasPart (fun x => { x with regions := [(0, some r)] }) ready with mem := { ready.mem with poison := [(1, true)] } }

theorem wit_aperture :
    let s := apertured
    s.up = true ∧ s.apertureAddr = 0 ∧ 63 % 64 + 1 ≤ 64 ∧ 0x80 + 64 ≤ 2 ^ s.host.barLog2 ∧ s.apPlace 0x80 = .cell 0 0 2 ∧
    (s.readCodeword 0 0 2).1 = .delivered ∧ (match (s.readCodeword 0 0 1).1 with
      | .lost _ => true
      | _ => false) = true ∧ s.latentErr 0 0 2 = SymErr.clean ∧ s.poisoned 0 0 2 = false ∧ s.apPlace 0x40 = .cell 0 0 1 ∧
    s.poisoned 0 0 1 = true ∧ s.apPlace 0x6000000000 = .beyond ∧ s.apPlace 0xC00000000 = .none := by decide +kernel

/-- R429, R431: a held record of the first pass carries phase 1 and moves CQ_TAIL. -/
theorem test_recordPhase :
    let h : HeldRec := { cmd := none, bytes := List.replicate 32 0, noIrq := false }
    let s := ringed (fun g => { ringOn g with cq := { (ringOn g).cq with phase := true, tail := 63 } }) ready
    let t := s.writeRecord 1 0 h
    (Memory.byte t.mem.hostMem (0x8000 + 63 * 32 + 6), (t.ring 1 0).cq.tail, (t.ring 1 0).cq.phase) = (1, 0, false) := by decide

/-! ### Commands -/

/-- OP_KV_STAT just copied, in a block of partition 0. -/
def copied1 (s : State) : State := holds 1 (cmdOf .copied 0x0308 0 0 0xFF (leBytes 8 0x100000000000)) (hasPart (onCtx (fun _ => planned)) s)

theorem wit_checks :
    let k := cmdOf .copied 0x0308 0 0 0xFF (leBytes 8 0x100000000000)
    let s := copied1 ready
    queueRow (.opKvStat ⟨1, 1⟩) = some (⟨1, 1⟩, 0x0308, false) ∧ s.cmd ⟨1, 1⟩ = some k ∧ k.opcode = 0x0308 ∧ s.serves 1 = true ∧
    s.mayValidate ⟨1, 1⟩ k = true ∧ s.validate ⟨1, 1⟩ k = .pass ∧
    (s.updCmd ⟨1, 1⟩ (fun j => { j with phase := .waiting })).ready ⟨1, 1⟩ k false = true := by decide +kernel

/-- The verdicts other than passing, and a turn not yet come. -/
theorem wit_refusals :
    let v (k : Cmd) := (copied1 ready).validate ⟨1, 1⟩ k
    v (cmdOf .copied 0x0101 0 0xFFFF 0xFF []) = .denied 0 ∧ v (cmdOf .copied 0x0308 0 0 0 (leBytes 8 0)) = .fail (Fin.with stHeaderInvalid 0x16) ∧
    v (cmdOf .copied 0x0308 0 5 0xFF (leBytes 8 0)) = .fail (Fin.bare stCtxInvalid) ∧
    v (cmdOf .copied 0x0308 0 0 0xFF []) = .fail (Fin.with stParamLen (8 * 65536)) ∧
    (holds 1 (cmdOf .copied 0x0308 0 0 0xFF []) State.reset).validate ⟨1, 1⟩ (cmdOf .copied 0x0308 0 0 0xFF []) = .fail (Fin.bare stPartInvalid) := by
  decide +kernel

theorem wit_turn :
    let a := cmdOf .started 0x0308 0 0 0xFF []
    let k := { cmdOf .copied 0x0308 1 0 0xFF (leBytes 8 0) with id := 2 }
    let s := { copied1 ready with blocks := [(1, { QBlock.reset with cmds := [a, k] })] }
    s.cmd ⟨1, 2⟩ = some k ∧ s.mayValidate ⟨1, 2⟩ k = false := by decide +kernel

theorem wit_retired :
    let k := cmdOf .copied 0x0308 0 0 0xFF (leBytes 8 0x100000000000)
    let s := copied1 { ready with sec := { ready.sec with fuses := { ready.sec.fuses with lc := 7 } } }
    s.lcState = 4 ∧ k.portOk 1 = true ∧ k.headerFault 1 = none ∧ s.mayValidate ⟨1, 1⟩ k = true ∧ 0x0308 ∉ [0x0701, 0x0702, 0x0703, 0x0801, 0x0803] ∧
    s.lcAdmits 0x0308 1 = false ∧ ready.lcAdmits 0x0308 1 = true := by decide +kernel

theorem wit_commandEnds :
    let k := cmdOf .started 0x0404 0 0 0xFF []
    let s := holds 1 k State.reset
    let m := holds 9 (cmdOf .started 0x0701 0 0xFFFF 0xFF []) State.reset
    s.cmd ⟨1, 1⟩ = some k ∧ k.phase ≠ .ended ∧ k.recov.count = 0 ∧ k.flashUnwritten = false ∧ m.cmd ⟨9, 1⟩ ≠ none ∧
    (cmdOf .started 0x0101 0 0xFFFF 0 []).scope 0 ≠ .context ∧ s.limitOf ⟨1, 1⟩ k ≠ none ∧
    (State.reset.block 1).defTimeout ≠ 0 ∧ s.mem.fwLoss = none := by decide +kernel

theorem wit_abort :
    let k := cmdOf .waiting 0x0109 0x100 0xFFFF 0xFF (leBytes 8 7)
    let s := holds 1 k (hasPart id ready)
    AtPoint s ⟨1, 1⟩ k 0x0109 ∧ k.p 4 4 < 4 ∧ (k.opf0 = true → k.p 4 4 = 0) ∧
    4 ≤ (cmdOf .waiting 0x0109 0 0xFFFF 0xFF (leBytes 4 7 ++ leBytes 4 4)).p 4 4 := by decide +kernel

theorem wit_output :
    (match (holds 1 (cmdOf .started 0x0308 0 0 0xFF []) State.reset).writeEng { part := none, ctx := none } 0x100000000000 [1] with
      | .ok _ _ => true
      | _ => false) = true ∧
    (match (holds 1 (cmdOf .started 0x0308 0 0 0xFF []) State.reset).writeEng { part := none, ctx := none } 0x7000000000 [1] with
      | .bad _ _ _ => true
      | _ => false) = true := by decide +kernel

/-! ### Partitions, contexts and switches -/

/-- Parameters of OP_PART_CREATE: partition 1 on die pair 1, two contexts, a quota of 1 GiB. -/
def partPars : List Byte :=
  [1, 2] ++ leBytes 2 2 ++ leBytes 4 0 ++ leBytes 4 0 ++ List.replicate 20 0 ++ leBytes 8 0x40000000 ++ leBytes 8 0 ++ leBytes 8 100 ++ leBytes 8 0

/-- A command of ADMIN that stands at its work, beside partition 0. -/
def adminWork (op part : Nat) (ps : List Byte) (f : Partition → Partition) : State := holds 0 (cmdOf .waiting op 0 0xFFFF part ps) (hasPart f mapped)

theorem wit_partCreate :
    let k := cmdOf .waiting 0x0101 0 0xFFFF 1 partPars
    let b := adminWork 0x0101 1 partPars id
    let s : State := { b with hub := { b.hub with aOk := true, bOk := true } }
    AtPoint s ⟨0, 1⟩ k 0x0101 ∧ s.equinox = false ∧ partBlockOk k = true ∧ pairSetOk (k.p 1 1) = true ∧ s.part (k.p 0 1) = none ∧
    s.pairsTaken (k.p 1 1) = 0 ∧ (s.placeConductor (k.p 0 1)).isSome ∧ (k.quotaAt 0x20).malformed true = false ∧
    quotaLimit (k.quotaAt 0x20) (bitsSet (k.p 1 1) 8).length = true ∧
    ((s.orphans (bitsSet (k.p 1 1) 8)).map Store.units).sum ≤ (k.quotaAt 0x20).flash ∧
    (s.part 0).isSome = true := by decide +kernel

theorem wit_partCommands :
    let d := cmdOf .waiting 0x0102 0 0xFFFF 0 []
    let a := cmdOf .waiting 0x0103 0 0xFFFF 0 (leBytes 4 0)
    let b := cmdOf .waiting 0x0103 0 0xFFFF 0 (leBytes 4 1)
    AtPoint (adminWork 0x0102 0 [] id) ⟨0, 1⟩ d 0x0102 ∧ (adminWork 0x0102 0 [] id).part (d.home ⟨0, 1⟩) = some part1 ∧
    part1.destroyedBy = none ∧ part1.state = .active ∧
    AtPoint (adminWork 0x0103 0 (leBytes 4 0) id) ⟨0, 1⟩ a 0x0103 ∧ a.p 0 4 = 0 ∧
    AtPoint (adminWork 0x0103 0 (leBytes 4 1) (fun x => { x with state := .disabled })) ⟨0, 1⟩ b 0x0103 ∧ b.p 0 4 = 1 ∧ b.home ⟨0, 1⟩ = 0 := by
  decide +kernel

theorem wit_partStates : ∀ st ∈ [PartState.active, .draining, .disabled, .destroying],
    (hasPart (fun x => { x with state := st }) State.reset).part 0 = some { part1 with state := st } ∧
    { cmdOf .copied 0x0308 0 0 0xFF [] with accepted := false }.accepted = false := by decide

theorem wit_quota :
    let out := leBytes 8 0x100000000000
    let s := adminWork 0x0104 0 out id
    let set := Quota.bytes { dram := 0x80000000, kv := 0, flash := 2000, swap := 0x20000000 }
    let bad := Quota.bytes { dram := 1, kv := 0, flash := 0, swap := 0 }
    let low := Quota.bytes { dram := 0x10000, kv := 0, flash := 2000, swap := 0 }
    let k := cmdOf .waiting 0x0104 0 0xFFFF 0 out
    let q (ps : List Byte) := (cmdOf .waiting 0x0107 0 0xFFFF 0 ps).quotaAt 0
    let u (ps : List Byte) := adminWork 0x0107 0 ps id
    let r : Region := { mode := 0, stack := 0, chan := 0, owner := none, base := 0, size := 0x180000, coff := 0, ready := true, by_ := none }
    let used (t : State) : State := { t with parts := [(0, some { part1 with regions := [(0, some r)] })] }
    AtPoint s ⟨0, 1⟩ k 0x0104 ∧ (s.part 0).isSome ∧ k.p 6 2 = 0 ∧ (s.output ⟨0, 1⟩ (k.who 0) (k.p 0 6) part1.statRecord Fin.ok).2.isSome ∧
    AtPoint (u set) ⟨0, 1⟩ (cmdOf .waiting 0x0107 0 0xFFFF 0 set) 0x0107 ∧ part1.tdiLocks = false ∧
    (q bad).malformed true = true ∧ (q set).malformed true = false ∧ quotaLimit (q set) (bitsSet part1.pairMask.toNat 8).length = true ∧
    (q set).covers ((u set).partCharges 0) = true ∧ (q low).malformed true = false ∧ (q low).covers ((used (u low)).partCharges 0) = false := by
  decide +kernel

theorem wit_quotaContext :
    let set := Quota.bytes { dram := 0x80000000, kv := 0x10000, flash := 50, swap := 0 }
    let k := cmdOf .waiting 0x0107 0 0 0xFF set
    AtPoint (atWork 0x0107 set) ⟨1, 1⟩ k 0x0107 ∧ k.home ⟨1, 1⟩ = 0 ∧ k.ctxField ≠ 0xFFFF ∧ (k.quotaAt 0).malformed false = false := by decide +kernel

theorem wit_contexts :
    let ps := leBytes 4 0 ++ List.replicate 12 0 ++ Quota.bytes { dram := 0x10000000, kv := 0, flash := 10, swap := 0 }
    let k := cmdOf .waiting 0x0105 0 0xFFFF 0xFF ps
    let x : Partition := { part1 with maxCtx := 2 }
    let s := holds 1 k (hasPart (fun _ => x) mapped)
    let q := k.quotaAt 0x10
    let d := cmdOf .waiting 0x0106 0 0 0xFF []
    AtPoint s ⟨1, 1⟩ k 0x0105 ∧ s.part 0 = some x ∧ k.p 0 4 = 0 ∧ (k.pBytes 4 12).all (fun b => b == 0) = true ∧ x.ctxList.length < x.maxCtx ∧
    q.malformed false = false ∧ (s.partCharges 0).dram + q.dram + 4356 * 1024 * x.positions.length ≤ x.quota.dram ∧
    (s.partCharges 0).flash + q.flash ≤ x.quota.flash ∧ (s.partCharges 0).swap + q.swap ≤ x.quota.swap ∧
    (s.placeFw 0 .save x.newHandle (4356 * 1024 * x.positions.length) 0x10000).isSome ∧
    part1.ctxList.length = 1 ∧ { part1 with maxCtx := 1 }.maxCtx ≤ part1.ctxList.length ∧
    AtPoint (atWork 0x0106 []) ⟨1, 1⟩ d 0x0106 ∧ (∀ n, ((atWork 0x0106 []).stream n).part ≠ some 0) := by
  repeat' refine And.intro ?_ ?_
  all_goals first | decide +kernel | exact fun n h => nomatch h

/-- Partition 0 with a second context that is ready. -/
def twoCtx (f : Partition → Partition) : State :=
  hasPart (fun x => f { x with ctxs := [(0, some ctx1), (1, some { ctx1 with state := .ready })] }) mapped

theorem wit_switch :
    let s := twoCtx id
    let x : Partition := { part1 with ctxs := [(0, some ctx1), (1, some { ctx1 with state := .ready })] }
    let w (ph : SwitchPhase) : Partition := { x with switch := some { outgoing := some 0, incoming := 1, phase := ph } }
    s.part 0 = some x ∧ x.current = some 0 ∧ x.switch = none ∧ x.served = true ∧ s.nextReady 0 x = some 1 ∧
    (hasPart id mapped).nextReady 0 part1 = none ∧
    (w .restoring).switch = some { outgoing := some 0, incoming := 1, phase := .restoring } ∧
    (w .decided).ctx 0 = some ctx1 ∧ ((w .decided).ctx 1).isSome ∧ (0 : Nat) ≠ 1 ∧ ctx1.destroyedBy = none ∧
    (twoCtx (fun _ => w .decided)).atSwitchPoint 0 (w .decided) = true ∧
    ((w .saving).setCtx 0 (some { ctx1 with state := .switching })).ctx 0 = some { ctx1 with state := .switching } ∧
    { ctx1 with state := .switching }.savedValid = false := by decide +kernel

theorem wit_drainLimits :
    let s := hasPart (fun x => { x with state := .draining }) State.reset
    let c := onCtx (fun y => { y with destroyedBy := some (1, 1), dcacheBy := some 1 }) part1
    let r := ringed (fun g => { g with sq := { g.sq with state := .draining } }) State.reset
    let n : State := { State.reset with cap := { State.reset.cap with streams := [(0, { Stream.reset with state := .draining })] } }
    (s.part 0).isSome ∧ c.ctx 0 = some { ctx1 with destroyedBy := some (1, 1), dcacheBy := some 1 } ∧ (r.ring 1 0).sq.state = .draining ∧
    (n.stream 0).state = .draining := by decide
/-! ### Input decode and capture -/

/-- An 8 by 8 grey image of baseline JPEG: one table of ones, and one block of category 0 and an end-of-block, padded with ones. -/
def jpeg1 : List Byte :=
  [0xFF, 0xD8, 0xFF, 0xDB, 0, 67, 0] ++ List.replicate 64 1 ++
  [0xFF, 0xC0, 0, 11, 8, 0, 8, 0, 8, 1, 1, 0x11, 0] ++
  [0xFF, 0xC4, 0, 20, 0, 1] ++ List.replicate 15 0 ++ [0] ++ [0xFF, 0xC4, 0, 20, 0x10, 1] ++ List.replicate 15 0 ++ [0] ++
  [0xFF, 0xDA, 0, 8, 1, 1, 0, 0, 63, 0, 0x3F, 0xFF, 0xD9]

/-- Parameters of OP_JPEG_DECODE: one sample of host memory, written to DRAM. -/
def jpegPars (flags len units : Nat) : List Byte :=
  leBytes 2 1 ++ leBytes 2 flags ++ List.replicate 60 0 ++
    (leBytes 8 0x100000000000 ++ leBytes 4 len ++ leBytes 4 units ++ leBytes 8 9 ++ leBytes 8 0)

/-- A decode area, of 1 MiB each, that holds one entry. -/
def dcEntry1 : DcEntry :=
  { dataset := 0, index := 9, color := false, len := jpeg1.length, width := 8, height := 8, precision := 8, planes := [List.replicate 64 0],
    room := [(0, 4096)] }

def area1 : DecodeArea := { cacheBytes := 2 ^ 20, stageBytes := 2 ^ 20, cacheBase := 0, entries := [dcEntry1] }

/-- The context with that area; DRAM offset 0 of the partition lies in a region, and the image in host memory. -/
def decoding (ps : List Byte) (op : Nat) : State :=
  let r : Region := { mode := 0, stack := 0, chan := 0, owner := none, base := 0, size := 0x180000, coff := 0, ready := true, by_ := none }
  let k := cmdOf .waiting op 0 0 0xFF ps
  let s := holds 1 k (hasPart (fun x => { onCtx (fun _ => { planned with decode := some area1 }) x with regions := [(0, some r)] }) mapped)
  { s with mem := { s.mem with hostMem := Memory.write [] 0 jpeg1 } }

theorem wit_jpegChecks :
    let k (ps : List Byte) := cmdOf .waiting 0x0501 0 0 0xFF ps
    let good := jpegPars 0 jpeg1.length 16
    AtPoint (decoding good 0x0501) ⟨1, 1⟩ (k good) 0x0501 ∧ ((decoding good 0x0501).ctx 0 0).isSome ∧ planned.dcacheBy = none ∧
    { planned with dcacheBy := some 1 }.dcacheBy.isSome = true ∧ jpegBad (k good) = none ∧ (k good).p 0 2 ≠ 0 ∧
    (k good).samples.length = 1 ∧ (jpegBad (k (jpegPars 8 1 8))).isSome ∧ jpegBad (k (List.replicate 64 0)) = none ∧
    (k (List.replicate 64 0)).p 0 2 = 0 ∧ ((hasPart id mapped).ctx 0 0).bind Context.decode = none := by decide +kernel

theorem wit_jpegHit :
    let ps := jpegPars 4 jpeg1.length 16
    let k := cmdOf .waiting 0x0501 0 0 0xFF ps
    let s := decoding ps 0x0501
    let x := k.samples.getD 0 ⟨0, 0, 0, 0, 0, 0⟩
    let im : Jpeg.Image := { width := 8, height := 8, precision := 8, planes := dcEntry1.planes }
    k.jpegCache = true ∧ k.jpegAug = false ∧ area1.find (k.p 8 8) x.index k.jpegColor = some dcEntry1 ∧ dcEntry1.len = x.len ∧
    (match s.stage ⟨1, 1⟩ 0 0 0 with
      | .fits => true
      | _ => false) = true ∧ jpegSize 8 8 1 ≤ 256 * x.units ∧
    (match s.writePieces (k.who 1) (jpegPieces k x im true false) with
      | .ok _ _ => true
      | _ => false) = true := by decide +kernel

/-- The bytes of the entry are there, and lost (R532). -/
theorem wit_jpegEntry :
    let s := decoding (jpegPars 4 jpeg1.length 16) 0x0501
    (s.readEntry 0 0 dcEntry1).1 = none ∧
    ({ s with mem := { s.mem with poison := [(0, true)] } }.readEntry 0 0 dcEntry1).1.isSome = true := by decide +kernel

theorem wit_jpegMiss :
    let ps := jpegPars 0 jpeg1.length 16
    let s := decoding ps 0x0501
    (match s.readEng { part := some 0, ctx := some 0 } 0x100000000000 jpeg1.length with
      | .ok bs _ => bs == jpeg1
      | _ => false) = true ∧
    (match Jpeg.walk jpeg1.toArray with
      | .ok w => (match w.frame with
        | none => false
        | some f => (Jpeg.tooLittle f w).isNone && decide (jpegSize f.width f.height f.comps.length ≤ 256 * 16) && (match s.stage ⟨1, 1⟩ 0 0 (jpeg1.length + Jpeg.coeffBytes f) with
          | .fits => true
          | _ => false) && (match Jpeg.decode w false with
          | .ok im => im.width == 8 && im.planes.length == 1
          | .error _ => false))
      | .error _ => false) = true := by decide +kernel

theorem wit_jpegErrors :
    (match Jpeg.walk (jpeg1.drop 1).toArray with
      | .error _ => true
      | .ok _ => false) = true ∧
    area1.entries.filter (fun z => !(z.dataset == 0 && z.index == 9 && z.color == false)) = [] ∧ dcEntry1.bytes ≤ area1.cacheBytes := by decide +kernel

theorem wit_dcacheConfig :
    let k (ps : List Byte) := cmdOf .waiting 0x0502 0 0 0xFF ps
    let fit := leBytes 8 0x100000 ++ leBytes 4 0x100000 ++ leBytes 4 0
    let big := leBytes 8 0x100000000000 ++ leBytes 4 0x100000 ++ leBytes 4 0
    AtPoint (decoding fit 0x0502) ⟨1, 1⟩ (k fit) 0x0502 ∧ dcacheBad (k fit) = none ∧ (decoding fit 0x0502).dcacheFits 0 0 (0x100000 + (k fit).p 0 6) = true ∧
    (dcacheBad (k (leBytes 16 1))).isSome ∧ dcacheBad (k (leBytes 6 0x10000000000 ++ [0, 0] ++ leBytes 4 0x100000 ++ leBytes 4 0)) = none ∧
    (decoding big 0x0502).dcacheFits 0 0 (0x100000 + 0x10000000000) = false := by decide +kernel

/-- Parameters of OP_LSF_WRITE: one grid of 2 by 2 tokens of 4 bits. -/
def lsfPars (count : Nat) : List Byte :=
  [4, 0] ++ leBytes 2 1 ++ leBytes 2 2 ++ leBytes 2 2 ++ leBytes 4 count ++ leBytes 4 16 ++ leBytes 8 0x100000000000 ++ leBytes 8 0 ++
    leBytes 4 4096 ++ leBytes 4 0

theorem wit_lsfWrite :
    let k := cmdOf .waiting 0x0504 0 0 0xFF (lsfPars 1)
    let s := decoding (lsfPars 1) 0x0504
    AtPoint s ⟨1, 1⟩ k 0x0504 ∧ lsfWriteBad k = none ∧ k.p 8 4 = 1 ∧ k.p 4 2 * k.p 6 2 = 4 ∧
    (match s.stage ⟨1, 1⟩ 0 0 16 with
      | .fits => true
      | _ => false) = true ∧ 64 + (32 + (4 + 7) / 8 + packedLen 4 (k.p 0 1)) ≤ k.p 0x20 4 ∧
    (match { s with mem := { s.mem with hostMem := [] } }.readEng (k.who 1) (k.p 0x10 6) 16 with
      | .ok bs _ => bs == List.replicate 16 0
      | _ => false) = true ∧
    (match s.writePieces (k.who 1) [(k.p 0x18 6, lsfContainer k [[0, 0, 0, 0]])] with
      | .ok _ _ => true
      | _ => false) = true ∧
    (lsfWriteBad (cmdOf .waiting 0x0504 0 0 0xFF (List.replicate 40 0))).isSome ∧
    lsfWriteBad (cmdOf .waiting 0x0504 0 0 0xFF (lsfPars 0)) = none := by decide +kernel

/-- Tokens below the vocabulary, whose second grid differs in one position, and the records read back. -/
theorem wit_lsfRoundTrip :
    let k := cmdOf .waiting 0x0504 0 0 0xFF (lsfPars 2)
    let gs := [[1, 2, 3, 4], [1, 2, 9, 4]]
    lsfWriteBad k = none ∧ gs.length = k.p 8 4 ∧ (∀ g ∈ gs, g.length = k.p 4 2 * k.p 6 2) ∧ lsfBadToken k (k.p 4 2 * k.p 6 2) gs = none := by
  decide +kernel

theorem wit_lsfRead :
    let good := leBytes 4 0 ++ leBytes 4 0 ++ leBytes 8 0x100000000000 ++ leBytes 8 0 ++ leBytes 4 1 ++ leBytes 4 0
    let k := cmdOf .waiting 0x0503 0 0 0xFF good
    let s := decoding good 0x0503
    let b := cmdOf .waiting 0x0503 0 0 0xFF (leBytes 32 32)
    let x : LsfSlot := { tokBits := 4, height := 2, width := 2, vocab := 16, store := [], lastIndex := none, skipping := false, base := 0 }
    let pay : List Byte := [0x21, 0x43]
    let r : LsfRec := { off := 64, delta := false, index := 0, ref := 0, time := 0, crc := (crc32 pay).toNat, payload := pay }
    AtPoint s ⟨1, 1⟩ k 0x0503 ∧ s.lsfBehind ⟨1, 1⟩ k = false ∧ lsfReadBad k = none ∧ k.p 4 4 = 0 ∧ (lsfReadBad b).isSome ∧
    x.recordFault r = none ∧ (x.handle r).1 = 0 ∧ x.recordFault { r with crc := r.crc + 1 } = some 0x21 ∧
    { x with lastIndex := some 0 }.recordFault r = some 0x23 ∧ { x with skipping := true }.handle { r with delta := true } = (2, []) ∧
    x.store.find? (fun f => f.1 == r.ref) = none ∧
    (match s.writePieces { part := some 0, ctx := some 0 } (x.pieces r 0 0 0 (x.handle r).2) with
      | .ok _ _ => true
      | _ => false) = true := by decide +kernel

/-- Parameters of OP_CAP_ASSIGN: port 0, 2 lanes, virtual channel 3. -/
def assignPars (op : Nat) : List Byte := [BitVec.ofNat 8 op, 2] ++ leBytes 2 8 ++ [4, 0, 0, 0] ++ leBytes 4 1000 ++ leBytes 4 0

/-- Hub half A in service, and stream 3 changed. -/
def streamed (f : Stream → Stream) (s : State) : State :=
  { s with hub := { s.hub with aOk := true, bOk := true }, cap := { s.cap with streams := [(3, f Stream.reset)] } }

theorem wit_capAssign :
    let k := cmdOf .waiting 0x0601 0 0 0xFF (assignPars 0)
    let r := cmdOf .waiting 0x0601 0 0 0xFF (assignPars 2)
    let s := streamed id (atWork 0x0601 (assignPars 0))
    let o := streamed (fun x => { x with part := some 1 }) s
    let m := streamed (fun x => { x with part := some 0, state := .assigned }) s
    let l := streamed (fun x => { x with part := some 0, state := .running }) s
    capAssignBad k = none ∧ (capAssignBad (cmdOf .waiting 0x0601 0 0 0xFF (leBytes 16 4))).isSome ∧ k.p 0 1 % 2 = 0 ∧ s.capHalf 0 = true ∧
    (atWork 0x0601 []).capHalf 0 = false ∧ k.p 2 2 = 2 ^ 3 ∧ bitOf (k.p 0 1) 1 = false ∧ bitOf (r.p 0 1) 1 = true ∧ (s.stream 3).part = none ∧
    (s.stream 3).state = .unassigned ∧ (List.range 16).all (fun u => !(s.stream u).live) = true ∧ (o.stream 3).part = some 1 ∧
    (m.stream 3).part = some 0 ∧ (m.stream 3).state = .assigned ∧ capAssignBad r = none ∧ (l.capPort 0).same k = false ∧ (l.stream 3).part = some 0 ∧
    (List.range 16).all (fun u => !(l.stream u).live) = false := by decide +kernel

/-- Parameters of OP_CAP_CONFIG of stream 3: 16 by 16 pixels of RAW10, two buffers in DRAM. -/
def configPars : List Byte :=
  [3, 0x2B] ++ leBytes 2 4 ++ leBytes 2 16 ++ leBytes 2 16 ++ leBytes 4 1000 ++ leBytes 4 0 ++ leBytes 8 0 ++ leBytes 8 0x100000 ++
    leBytes 4 0x2000 ++ [2, 4, 0, 0] ++ leBytes 4 256 ++ leBytes 4 0

theorem wit_capConfig :
    let k := cmdOf .waiting 0x0602 0 0 0xFF configPars
    let s := streamed (fun x => { x with part := some 0, state := .assigned }) (decoding configPars 0x0602)
    let cfg := k.capCfg
    capConfigBad k = none ∧ bitOf (k.p 0 1) 5 = false ∧ k.p 0 1 % 32 = 3 ∧ (s.stream 3).part = some 0 ∧ (s.stream 3).state = .assigned ∧
    s.capUncovered (k.who 1) (k.p 0x10 6) 0x9000 = none ∧
    ((List.range cfg.nbuf).all (fun b => (s.capUncovered (k.who 1) (cfg.outBase + b * cfg.bufStride) cfg.bufBytes).isNone)) = true ∧
    (capConfigBad (cmdOf .waiting 0x0602 0 0 0xFF (List.replicate 48 0))).isSome ∧ (s.capAreas 0 0 3 cfg).isSome := by decide +kernel

theorem wit_capStart :
    let x : Stream := { Stream.reset with part := some 0, ctx := some 0, state := .configured, cfg := { Stream.reset.cfg with nbuf := 2, outBase := 0x100000000000, bufStride := 4096 } }
    let s := streamed (fun _ => x) (atWork 0x0603 (leBytes 4 3))
    let k := cmdOf .waiting 0x0603 0 0 0xFF (leBytes 4 3)
    k.p 0 4 = 3 ∧ (s.stream 3).part = some 0 ∧ (s.stream 3).ctx = some 0 ∧ (s.stream 3).state = .configured ∧
    (s.capWrites x.who ((List.range x.cfg.nbuf).map (fun b => statePiece x.cfg b 0))).2 = none ∧
    (s.stream 4).state ≠ .configured ∧ (s.stream 4).part ≠ some 0 := by decide +kernel

theorem wit_capStop : ∀ st ∈ [StreamState.faulted, .running, .assigned],
    ((streamed (fun x => { x with part := some 0, state := st }) State.reset).stream 3).state = st ∧
    ((streamed (fun x => { x with part := some 0, state := st }) State.reset).stream 3).part = some 0 := by decide

theorem wit_harvest :
    let k := cmdOf .waiting 0x0605 0 0 0xFF ([3, 4] ++ leBytes 6 0 ++ leBytes 8 0x100000000000)
    let x : Stream := { Stream.reset with part := some 0, ctx := some 0, state := .running }
    let s := streamed (fun _ => x) State.reset
    harvestBad k = none ∧ (s.stream 3).part = some 0 ∧ (s.stream 3).ctx = some 0 ∧
    (match s.writeList (k.who 1) ((k.p 8 6, x.status) :: []) with
      | .ok _ _ => true
      | _ => false) = true := by decide +kernel

/-- A frame of the first line. -/
def frame1 : CapFrame :=
  { num := 0, csiFn := 1, paramGen := 0, sofTime := 0, buf := none, params := [], lines := [], badLine := false, formatErr := true, truncated := false,
    overrun := false, aborted := false, ended := true, spoiled := false }

theorem wit_capEvents :
    let run (f : Stream → Stream) : State := streamed (fun x => f { x with part := some 0, ctx := some 0, state := .running }) State.reset
    let r := run (fun x => { x with cfg := { x.cfg with nbuf := 2, outBase := 0x100000000000, bufStride := 4096 } })
    let u := run (fun x => { x with frames := [{ frame1 with ended := false }] })
    let e := run (fun x => { x with frames := [frame1] })
    r.capHalf 0 = true ∧ (r.stream 3).live = true ∧ (State.reset.stream 3).live = false ∧ (r.tick 10).capHalf 0 = true ∧
    (((r.tick 10).updStream 3 (fun y => y.corrected false)).stream 3).openFrame = none ∧
    (((r.tick 10).updStream 3 (fun y => y.corrected false)).stream 3).state = .running ∧
    (((u.tick 10).updStream 3 (fun y => y.corrected true)).stream 3).openFrame.isSome = true ∧
    ((((u.tick 10).updStream 3 (fun y => y.corrected true)).truncateOpen 3).stream 3).state = .running ∧ (u.stream 3).openFrame.isSome = true ∧
    ((e.tick 5).stream 3).frames = [frame1] ∧ (((e.tick 5).exitFrame 3 frame1).stream 3).frames = [] ∧
    ((u.tick 5).stream 3).frames = [{ frame1 with ended := false }] ∧ (frame1.badLine = true ∨ frame1.formatErr = true) := by decide +kernel

theorem wit_capBuffer :
    let run (f : Stream → Stream) : State := streamed (fun x => f { x with part := some 0, ctx := some 0, state := .running }) State.reset
    let r := run (fun x => { x with cfg := { x.cfg with nbuf := 2, outBase := 0x100000000000, bufStride := 4096 } })
    let x := r.stream 3
    (match r.readEng x.who (x.cfg.buf x.nextBuf) 4 with
      | .ok bs t => leNat bs == 0 && (t.capWrites x.who [(x.cfg.buf x.nextBuf, leBytes 4 1)]).2.isNone
      | _ => false) = true ∧
    (match { r with mem := { r.mem with hostMem := Memory.write [] 0 [1] } }.readEng x.who (x.cfg.buf x.nextBuf) 4 with
      | .ok bs _ => leNat bs != 0
      | _ => false) = true := by decide +kernel

theorem wit_timeBase :
    let t := State.reset.tick 10
    let c : TimeState := { TimeState.reset with ctrlEn := true, periodMs := 100 }
    t.tb.ctrlEn = false ∧ ({ State.reset with tb := c }.tick 10).tb.ctrlEn = true ∧ ({ State.reset with tb := c }.tick 10).tb.lost = false ∧
    c.periodMs ≠ 0 ∧ { c with now := 200000000 }.edge.rate = 0 ∧ { c with now := 197000000 }.edge.stepped = true ∧
    { c with now := 203000000 }.edge.rate = -200000 := by decide +kernel
/-! ### Security -/

/-- Life-cycle bits set. -/
def fused (lc : BitVec 8) (s : State) : State := { s with sec := { s.sec with fuses := { s.sec.fuses with lc := BitVec.ofNat _ lc.toNat } } }

/-- A module with no partition and one ADMIN command at its work. -/
def aloneWork (op : Nat) (ps : List Byte) : State := holds 0 (cmdOf .waiting op 0 0xFFFF 0xFF ps) mapped

/-- The premises of the life-cycle commands; a signature's outcome is a free value of Config and stays a premise. -/
theorem wit_lcAdvance :
    let go (t : Nat) := cmdOf .waiting 0x0801 0 0xFFFF 0xFF ([BitVec.ofNat 8 t] ++ List.replicate 15 0 ++ List.replicate 208 0)
    let s := aloneWork 0x0801 ([2] ++ List.replicate 223 0)
    AtPoint s ⟨0, 1⟩ (go 2) 0x0801 ∧ s.othersRun ⟨0, 1⟩ = false ∧ s.anyTrial = false ∧ (go 2).p 0 1 < 16 ∧ (go 2).zeros 1 15 = true ∧
    lcMove s.lcState 2 = some (false, false) ∧ lcMove s.lcState 4 = none ∧ lcMove s.lcState 5 = some (false, true) ∧
    s.parts.any (fun e => e.2.isSome) = false ∧ (hasPart id s).parts.any (fun e => e.2.isSome) = true ∧
    (fused 3 s).lcState = 3 ∧ (fused 1 s).lcState = 2 ∧ lcMove 2 3 = some (true, false) ∧
    (fused 1 { s with sec := { s.sec with fuses := { s.sec.fuses with ownerRevoke := 1 } } }).signerHash 0 = none ∧ s.sec.erasePending = false ∧
    { s.sec with erasePending := true }.erasePending = true ∧ s.sec.fuses.lacks 0 = true ∧ s.sec.fuses.lacks 4 = true := by decide +kernel

/-- A trailer whose signer a role does not permit; a signer with no key. -/
theorem wit_trailer :
    let k := cmdOf .waiting 0x0801 0 0xFFFF 0xFF (List.replicate 16 0 ++ leBytes 8 1 ++ leBytes 8 2 ++ List.replicate 192 0)
    byEcfer (k.p 0x18 8) = false ∧ byOwner (k.p 0x18 8) = true ∧ (aloneWork 0x0801 []).signerHash (k.p 0x18 8) = none ∧
    (aloneWork 0x0801 []).sec.lastAuthSeq < k.p 0x10 8 := by decide +kernel

theorem wit_keyProvision :
    let ps := [1] ++ List.replicate 271 0
    let k := cmdOf .waiting 0x0802 0 0xFFFF 0xFF ps
    let s := fused 1 (aloneWork 0x0802 ps)
    AtPoint s ⟨0, 1⟩ k 0x0802 ∧ s.othersRun ⟨0, 1⟩ = false ∧ k.p 0 1 = 1 ∧ k.zeros 1 15 = true ∧ s.slotOk 1 false = true ∧ s.lcState = 2 ∧
    (List.range 4).any s.ownerSet = false ∧ k.zeros 0x40 208 = true ∧ (fused 3 s).slotOk 1 false = true ∧ (fused 3 s).lcState = 3 ∧
    { s with sec := { s.sec with fuses := { s.sec.fuses with owner := [(1, some 5)] } } }.slotOk 1 false = false := by decide +kernel

theorem wit_debugUnlock :
    let ps (a : Byte) := [a] ++ List.replicate 207 0
    let k (a : Byte) := cmdOf .waiting 0x0803 0 0xFFFF 0xFF (ps a)
    let d : DebugChallenge := { nonce := [], level := 2, lcState := 2, issuedAt := 0 }
    let s := fused 1 (aloneWork 0x0803 (ps 0x20))
    let c (now : Nat) : State := { s with sec := { s.sec with challenge := some d }, tb := { s.tb with now := now } }
    AtPoint s ⟨0, 1⟩ (k 0x20) 0x0803 ∧ (k 0x20).p 0 1 = 2 * 16 ∧ (k 0x20).zeros 1 15 = true ∧ (k 0x20).zeros 0x10 192 = true ∧
    s.lcState ≠ 1 ∧ (aloneWork 0x0803 []).lcState = 1 ∧ (k 1).p 0 1 = 1 ∧ (c 0).sec.challenge = some d ∧ d.issuedAt + 60000000000 < (c 60000000001).tb.now ∧
    (c 60000000000).tb.now ≤ d.issuedAt + 60000000000 ∧ s.sec.challenge = none ∧ (k 2).p 0 1 = 2 ∧ (k 2).zeros 0x10 192 = true := by decide +kernel

theorem wit_confidential :
    let k (n : Nat) := cmdOf .waiting 0x0804 0 0xFFFF 0 (leBytes 4 n)
    let v (s : State) : State := { s with host := { s.host with sriov := true } }
    let e : Partition := { part1 with ctxs := [], current := none }
    let s := v (adminWork 0x0804 0 (leBytes 4 1) (fun _ => e))
    AtPoint s ⟨0, 1⟩ (k 1) 0x0804 ∧ s.part 0 = some e ∧ s.host.sriov = true ∧ s.partEmpty 0 e = true ∧ (k 1).p 0 4 = 1 ∧ 2 ≤ (k 2).p 0 4 ∧
    (k 0).p 0 4 = 0 ∧ s.partEmpty 0 part1 = false ∧ e.tdiLocks = false ∧
    { e with confidential := true, sec := { e.sec with tdi := .run } }.tdiLocks = true := by decide +kernel

/-- The premises of OP_PLAN_KEY; whether a point lies on P-384 is a free value of Config and stays a premise. -/
theorem wit_planKey :
    let k (a : Byte) := cmdOf .waiting 0x0805 0 0xFFFF 0 ([a] ++ List.replicate 111 0)
    let q : PlanKey := { keyId := 7, x := 1, y := 2 }
    let x : Partition := { part1 with sec := { part1.sec with keys := [(2, some q)] } }
    let s := adminWork 0x0805 0 ([1] ++ List.replicate 111 0) (fun _ => x)
    AtPoint s ⟨0, 1⟩ (k 1) 0x0805 ∧ s.part 0 = some x ∧ (k 1).p 0 1 = 1 ∧ (k 1).zeros 1 7 = true ∧ SMap.get none x.sec.keys 1 = none ∧
    (SMap.get none x.sec.keys 2).isSome = true ∧ x.tdiLocks = false ∧ (∀ e ∈ x.sec.keys, ∀ q, e.2 = some q → q.keyId ≠ (k 1).p 8 8) ∧
    (k 6).p 0 1 = 2 + 4 ∧ (k 6).zeros 8 104 = true := by
  have keys : ∀ e ∈ [((2 : Nat), some ({ keyId := 7, x := 1, y := 2 } : PlanKey))], ∀ q, e.2 = some q →
      q.keyId ≠ (cmdOf .waiting 0x0805 0 0xFFFF 0 ([1] ++ List.replicate 111 0)).p 8 8 := by
    simp; decide +kernel
  refine ⟨?_, ?_, ?_, ?_, ?_, ?_, ?_, keys, ?_, ?_⟩ <;> decide +kernel

theorem wit_testPort :
    let s : State := { State.reset with start := { State.reset.start with auxGood := true } }
    s.start.auxGood = true ∧ (fused 31 s).lcState = 5 ∧ s.lcState = 1 := by decide +kernel

/-- SPDM negotiated, one secured session, IDE stream 1 active, and a confidential partition. -/
def secured1 (t : TdiState) : State :=
  let s := hasPart (fun x => { x with confidential := true, sec := { x.sec with tdi := t } }) ready
  { s with
    host := { s.host with linkUp := true }
    sec := { s.sec with
      spdmVersion := true, spdmCaps := true, spdmAlgs := true
      sessions := [{ id := 1, phase := .secured, epoch := 0 }, { id := 2, phase := .handshake, epoch := 0 }]
      nextSession := 3
      ide := [(1, { IdeStream.reset with keyed0 := true, active := some 0 })] } }

theorem wit_attestation :
    let s := secured1 .unlocked
    s.stw.running = true ∧ s.host.linkUp = true ∧ s.sec.spdmVersion = true ∧ s.sec.spdmCaps = true ∧ s.sec.spdmAlgs = true ∧
    { s.sec with spdmAlgs := false }.spdmAlgs = false ∧ (s.measurement 1).isSome ∧ (s.measurement 0x80) = none ∧ s.sec.sessions.length < 4 ∧
    4 ≤ (List.replicate 4 ({ id := 1, phase := .secured, epoch := 0 } : SpdmSession)).length ∧ s.session 2 .handshake = true ∧
    s.session 1 .secured = true ∧ s.session 3 .secured = false ∧ (s.ideStream 1).keyed0 = true ∧ (s.ideStream 1).keyed1 = false ∧
    { s.ideStream 1 with keyed1 := true }.keyed1 = true ∧ (s.part 0).isSome ∧ s.ideSecure 1 = true ∧ s.ideSecure 2 = false ∧
    ((secured1 .locked).part 0).map (fun x => x.sec.tdi) = some .locked ∧ ((secured1 .run).part 0).map (fun x => x.sec.tdi) = some .run ∧
    (s.ideStream 1).active.isSome = true ∧ (s.ideStream 2).active = none ∧ (ready.part 0) = none ∧
    ((hasPart id s).part 0).map (fun x => x.confidential) = some false := by decide +kernel
/-! ### The Steward, firmware and the management port -/

/-- An event as it waits. -/
def ev1 (sev : Nat) : EventRec := { EventRec.plain 0x0901 with sev := sev }

/-- The Steward running, with that event in the ring at SEQ 3. -/
def logged : State :=
  { ready with stw := { ready.stw with ring := [{ ev1 1 with seq := 3 }, { ev1 1 with seq := 4 }], nextSeq := 5, seqBound := 100 } }

theorem wit_stewardReads :
    let inv := leBytes 8 0x100000000000
    let sen (f n : Nat) := leBytes 2 0 ++ leBytes 2 n ++ leBytes 4 f ++ leBytes 8 0x100000000000
    let evs := leBytes 8 3 ++ leBytes 2 1 ++ leBytes 2 2 ++ leBytes 4 0 ++ leBytes 8 0x100000000000
    let k (f n : Nat) := cmdOf .waiting 0x0702 0 0xFFFF 0 (sen f n)
    let e := cmdOf .waiting 0x0703 0 0xFFFF 0 evs
    let out (f n : Nat) := (aloneWork 0x0702 (sen f n)).output ⟨0, 1⟩ ((k f n).who 0) ((k f n).p 8 6)
      (((List.range n).map (fun i => ((k f n).p 0 2 + i) % 0x10000)).flatMap (aloneWork 0x0702 (sen f n)).sensorRecord) { Fin.ok with c0 := n }
    let s := holds 0 e logged
    AtPoint (aloneWork 0x0701 inv) ⟨0, 1⟩ (cmdOf .waiting 0x0701 0 0xFFFF 0xFF inv) 0x0701 ∧ (cmdOf .waiting 0x0701 0 0xFFFF 0xFF inv).p 6 2 = 0 ∧
    (cmdOf .waiting 0x0701 0 0xFFFF 0xFF (leBytes 8 (2 ^ 50))).p 6 2 ≠ 0 ∧ (k 0 2).p 4 4 = 0 ∧ (k 0 2).p 0xE 2 = 0 ∧ (k 0 2).p 2 2 = 2 ∧
    (k 1 2).p 4 4 = 1 ∧ (out 0 2).2.isSome ∧ (out 1 2).2.map Fin.status = some stOk ∧ (k 2 2).p 4 4 = 2 ∧ (k 0 257).p 2 2 = 257 ∧
    AtPoint s ⟨0, 1⟩ e 0x0703 ∧ e.p 8 2 = 1 ∧ e.p 0xA 2 = 2 ∧ e.p 0xC 4 = 0 ∧ e.p 0x16 2 = 0 ∧
    s.stw.ring.filter (fun x => decide (e.p 0 8 ≤ x.seq)) = [{ ev1 1 with seq := 3 }, { ev1 1 with seq := 4 }] ∧
    (s.output ⟨0, 1⟩ (e.who 0) (e.p 0x10 6) (({ ev1 1 with seq := 3 } : EventRec).bytes ++ []) { Fin.ok with c0 := 1, c1 := 0 }).2.map Fin.status = some stOk := by
  decide +kernel

theorem wit_sensorRecords :
    sensorType 0x00C0 = 0xF ∧ sensorType 0x0050 ≠ 0xF ∧ State.reset.withheld 0x0050 = false ∧ powerDie 0x0050 = none := by decide

theorem wit_stewardEvents :
    let q : State := { logged with stw := { logged.stw with logQueue := [ev1 1] } }
    let r : State := { State.reset with stw := { State.reset.stw with resetting := true, lastCause := 2 } }
    q.stw.running = true ∧ q.stw.logQueue = [ev1 1] ∧ State.reset.stw.logQueue = [] ∧ State.reset.stw.running = false ∧
    { ready with hub := { ready.hub with aOk := true, bOk := true } }.stewardSingle = false ∧
    (ready.stw.mismatches.filter (fun t => decide (ready.tb.now ≤ t + 86400000000000))).length < 2 ∧ ready.stw.resetting = false ∧
    (r.tick 7).stw.resetting = true ∧ logged.stw.nextSeq ≠ logged.stw.seqBound ∧ logged.stw.irqEn = false ∧ (ev1 0).sev = 0 ∧ 1 ≤ (ev1 1).sev ∧
    logged.stw.logQueue.length < 1024 ∧ 3 ≤ (ev1 4).sev := by decide

/-- A marshal image of 64 KiB, all of it zero but its header. -/
def fwHead (svn : Byte) : List Byte :=
  [0x53, 0x4B, 0x46, 0x57, 2, 0, 0, 0, 0, 0, 0, 0, svn, 0, 0, 0] ++ leBytes 4 0x10000 ++ [9]

/-- The premises of OP_FW_STAGE; a signature's outcome is a free value of Config and stays a premise. -/
theorem wit_fwStage :
    let ps (kind : Nat) := leBytes 8 0x100000000000 ++ leBytes 4 0x10000 ++ leBytes 4 kind
    let k := cmdOf .waiting 0x0704 0 0xFFFF 0xFF (ps 2)
    let s := aloneWork 0x0704 (ps 2)
    AtPoint s ⟨0, 1⟩ k 0x0704 ∧ k.p 6 2 = 0 ∧ k.p 0xC 4 = 2 ∧ imgSizeOk (k.p 8 4) = true ∧ s.anyTrial = false ∧ s.fw.change = none ∧
    s.mgmt.upd = .idle ∧ k.p 0 6 = 0x100000000000 ∧ k.p 8 4 = 0x10000 ∧ 3 ≤ (cmdOf .waiting 0x0704 0 0xFFFF 0xFF (ps 3)).p 0xC 4 ∧
    imgHeaderOk (fwHead 1) 2 0x10000 = true ∧ imgHeaderOk [] 2 0x10000 = false ∧ s.fusedSvn 2 ≤ imgSvn (fwHead 1) ∧
    imgSvn (fwHead 1) < { s with sec := { s.sec with fuses := { s.sec.fuses with svnMarshal := 7 } } }.fusedSvn 2 := by decide +kernel

theorem wit_fwStageReads : ∃ img t, (aloneWork 0x0704 []).readEng { part := none, ctx := none } 0x100000000000 0x10000 = .ok img t ∧
    img.length = 0x10000 := by
  refine ⟨_, _, host_read _ _ 0 0x10000 (by decide) (by decide +kernel) (by decide +kernel) (by decide +kernel), ?_⟩
  simp [Memory.read]

/-- Kind n in a phase. -/
def kindIn (n : Nat) (ph : FwPhase) (pldm : Bool) (s : State) : State :=
  { s with fw := { s.fw with kinds := SMap.set FwKindState.reset s.fw.kinds n { s.fwKind n with phase := ph, byPldm := pldm } } }

theorem wit_fwActivate :
    let k (a : Nat) := cmdOf .waiting 0x0705 0 0xFFFF 0xFF (leBytes 4 a)
    let s := aloneWork 0x0705 (leBytes 4 2)
    AtPoint s ⟨0, 1⟩ (k 2) 0x0705 ∧ s.fw.change = none ∧ (k 2).p 0 4 = 2 ∧ (s.fwKind 2).phase ≠ .staged ∧ ((kindIn 2 .staged false s).fwKind 2).phase = .staged ∧
    (kindIn 2 .staged false s).anyTrial = false ∧ (kindIn 0 .trial false (kindIn 2 .staged false s)).anyTrial = true ∧
    ((kindIn 1 .staged false s).fwKind 1).phase = .staged ∧
    ([1, 2, 3, 8].foldl (fun t n => t.setConductor n { t.conductor n with inService := false }) (kindIn 1 .staged false (hasPart id s))).halvesSpared = false ∧ (k 6).p 0 4 = 2 + 4 ∧
    (s.fwKind 2).phase ≠ .trial ∧ ((kindIn 2 .trial false s).fwKind 2).phase = .trial ∧ (k 10).p 0 4 = 2 + 8 ∧
    ((kindIn 2 .trial true s).fwKind 2).byPldm = true ∧ (s.fwKind 2).byPldm = false ∧ s.stw.running = true := by decide +kernel

theorem wit_fwChanges :
    let f : FwChange := { kind := 1, revert := false, todo := [0], cmd := none }
    let g : FwChange := { kind := 2, revert := false, todo := [3, 4], cmd := none }
    let s : State := { hasPart id ready with hub := { ready.hub with aOk := true, bOk := true }, fw := { ready.fw with change := some f } }
    let l := s.setConductor 1 { s.conductor 1 with loading := true }
    let r := s.setConductor 8 { s.conductor 8 with newFw := true }
    (l.conductor 1).loading = true ∧ l.fw.change = some f ∧ (s.conductor 1).loading = false ∧ f.todo = 0 :: [] ∧ (r.part 0) = some part1 ∧
    part1.served = true ∧ r.readyCore (coreHalf part1.conductor) true = some 8 ∧ r.fw.change = some f ∧ g.kind = 2 ∧ g.todo = 3 :: [4] ∧
    ready.fw.change = none := by decide +kernel

theorem wit_management :
    let k := cmdOf .copied 0x0702 0 0xFFFF 0 []
    ready.stw.running = true ∧ (8 : Nat) ≤ 8 ∧ 254 ≤ 254 ∧ (ready.block 9).cmds = [] ∧ (Cmd.copied (ready.block 9).nextId 0 k.packet 0).paramLen ≤ 4096 ∧
    4096 < (Cmd.copied 1 0 (leBytes 4 0 ++ leBytes 2 4100 ++ List.replicate 58 0) 0).paramLen ∧ (holds 9 k ready).block 9 ≠ ready.block 9 ∧
    (holds 9 k ready).block 9 = { QBlock.reset with cmds := [k], nextId := 2 } ∧ sensorType 0x50 ≠ 0xF ∧ sensorType 0xFFFF = 0xF ∧
    ready.stw.ring.find? (fun e => decide (ready.mgmt.pollSeq ≤ e.seq)) = none ∧
    logged.stw.ring.find? (fun e => decide (logged.mgmt.pollSeq ≤ e.seq)) = some { ev1 1 with seq := 3 } ∧
    logged.stw.ring.find? (fun g => decide (3 + 1 ≤ g.seq)) = some { ev1 1 with seq := 4 } := by decide +kernel

theorem wit_pldm :
    let m (u : PldmUpd) : MgmtState := { ready.mgmt with upd := u, table := [3], comp := some 3, compSize := 2, data := [1] }
    ready.mgmt.upd = .idle ∧ ready.fw.change = none ∧ ready.anyTrial = false ∧ (m .learn).upd ≠ .idle ∧ (m .learn).upd = .learn ∧
    ready.start.phase ≠ .recovery ∧ (∀ x ∈ [3], 1 ≤ x ∧ x ≤ 3) ∧ (m .ready).upd = .ready ∧ 3 ∈ (m .ready).table ∧ imgSizeOk 0x10000 = true ∧
    (m .download).upd = .download ∧ (m .download).data.length + [(2 : Byte)].length ≤ (m .download).compSize ∧ 5 ≠ (m .download).data.length ∧
    { m .download with data := [1, 2] }.data.length = (m .download).compSize ∧ (m .verify).comp = some 3 ∧ (m .verify).upd = .verify ∧
    ready.imgFault (m .verify).data 2 2 = some (stFwState, 7) ∧ (m .apply).upd = .apply ∧ { m .ready with applied := [2] }.applied ≠ [] ∧
    (m .ready).applied = [] ∧ (m .apply).upd ≠ .activate := by decide +kernel
/-! ### Clocks, sensors and power -/

/-- Rails up, and PLL group n changed. -/
def clocked (n : Nat) (f : PllUnit → PllUnit) : State :=
  let s : State := { State.reset with start := { State.reset.start with auxGood := true, railsUp := true } }
  s.setPll n (f { PllUnit.reset with refA := true, refB := true, phase := .locked, sel := false, lockLost := false })

theorem wit_clocks :
    let s := clocked 3 id
    let a := clocked 3 (fun u => { u with refB := false })
    let c := clocked 3 (fun u => { u with refA := false, refB := false, phase := .coasting })
    let h := clocked 23 (fun u => { u with refB := false })
    s.start.railsUp = true ∧ (s.pll 3).refB = true ∧ (s.pll 3).sel ≠ true ∧ (s.pll 3).refA = true ∧ (s.pll 3).sel = false ∧ (s.pll 3).phase = .locked ∧
    (a.pll 3).refB = false ∧ (h.pll 23).sel = false ∧ (h.pll 23).phase = .locked ∧ (h.pll 23).refB = false ∧ (a.pll 3).lockLost = false ∧
    (c.pll 3).phase = .coasting ∧ 0 < c.coastSteps 3 ∧ ((clocked 3 (fun u => { u with lockLost := true, refA := false })).pll 3).lockLost = true ∧
    ((clocked 3 (fun u => { u with phase := .holdover })).pll 3).phase = .holdover ∧
    ((clocked 3 (fun u => { u with phase := .entering })).pll 3).phase = .entering ∧
    ((clocked 3 (fun u => { u with phase := .exiting, steps := 2 })).pll 3).steps = 2 ∧
    ((clocked 3 (fun u => { u with phase := .exiting, steps := 1 })).pll 3).phase = .exiting ∧ (s.dieClk 3).changing = false ∧
    ((clocked 16 id).pll 16).phase = .locked ∧ 0 < s.coastSteps 3 := by decide +kernel

theorem wit_sensors :
    let s := clocked 0 id
    let q (k : Nat) (st : SolState) : State := s.setSol { s.pwr.sol with state := st, k := k, level := 3 }
    let hot : State := { s with stw := { s.stw with sensors := [(4, { Sensor.reset with value := 0x42D40000, state := .critical })] } }
    s.start.auxGood = true ∧ sensorType 4 ≠ 0xF ∧ ((s.tick 0).sample 4 0x42480000 false).solTrigger = none ∧
    (((q 3 .active).tick 0).sample 4 0x42D40000 false).solTrigger = some 5 ∧ (s.sensor 4).state ≠ .failed ∧ (fxOf 0x42480000).isSome ∧
    s.outlier 0 ((fxOf 0x42480000).getD 0) = false ∧ (s.sensor 0).state ≠ .failed ∧ (0 : Nat) ≠ 0x0104 ∧ s.outlier 4 (fx 300) = true ∧
    9 ≤ { s.sensor 4 with outliers := 9 }.outliers ∧ s.pwr.sol.k = 0 ∧ s.pwr.sol.tail = false ∧ hot.recovers = false ∧ s.recovers = true ∧
    SMap.risingFrom 0 s.pwr.steps = true := by decide +kernel

theorem wit_solstice :
    let s := clocked 0 id
    let q (k : Nat) (st : SolState) (f : Solstice → Solstice) : State := s.setSol (f { s.pwr.sol with state := st, k := k, level := 3 })
    ((q 1 .ramp id).tick 5).pwr.sol.state = .ramp ∧ ((q 1 .ramp id).tick 5).rampPaused = false ∧ (3 : Nat) ≤ ((q 3 .ramp id).tick 5).pwr.sol.k ∧
    2 ≤ ((q 2 .stepdown id).tick 5).pwr.sol.k ∧ ((q 1 .stepdown id).tick 5).pwr.sol.cancels = [] ∧ ({ ready with tb := ready.tb }.tick 5).stw.running = true ∧
    19900000000 ≤ (q 3 .active (fun o => { o with chargedNs := 19900000000 })).pwr.sol.chargedNs ∧
    (q 3 .active (fun o => { o with maxMs := 1, activeNs := 1000000 })).pwr.sol.chargedNs < 19900000000 ∧
    (q 3 .active (fun o => { o with maxMs := 1, activeNs := 1000000 })).pwr.sol.maxMs * 1000000 ≤ 1000000 ∧
    (q 2 .active id).pwr.sol.request = none ∧ (q 2 .active id).pwr.sol.state = .active ∧
    (q 2 .draining (fun o => { o with request := some (0, 1) })).pwr.sol.request = some (0, 1) := by decide +kernel

theorem wit_boost :
    let ps (a l p : Byte) (ms : Nat) := [a, l, p, 0] ++ leBytes 4 ms
    let k (a l p : Byte) (ms : Nat) := cmdOf .waiting 0x0706 0 0xFFFF 0xFF (ps a l p ms)
    let s := hasPart id (aloneWork 0x0706 (ps 0 3 1 1000))
    let busy (st : SolState) := s.setSol { s.pwr.sol with state := st }
    AtPoint s ⟨0, 1⟩ (k 0 3 1 1000) 0x0706 ∧ boostFieldsOk (k 0 6 1 1000) = false ∧ boostFieldsOk (k 0 3 1 1000) = true ∧ (k 0 3 1 1000).p 0 1 = 0 ∧
    (busy .ramp).pwr.sol.state ≠ .off ∧ boostFieldsOk (k 1 0 0 0) = true ∧ (k 1 0 0 0).p 0 1 = 1 ∧ s.pwr.sol.state = .off ∧ (busy .ramp).pwr.sol.state = .ramp ∧
    (k 0 3 1 1000).p 2 1 = 1 ∧ s.part 0 = some part1 ∧ part1.dies.all (fun d => (s.pll d).coastingAny) = false ∧ s.boostUnfit = none ∧
    1000 ≤ { s with pwr := { s.pwr with bins := [(20000000000000, 0)] } }.wearLeft ∧ 2 ≤ (k 0 3 1 1000).p 1 1 ∧ s.wearLeft < 1000 ∧
    (s.setSol { s.pwr.sol with endedAt := some 0 }).boostUnfit = some 0xFFFF := by decide +kernel
/-! ### Faults and recovery -/

/-- The module with the cores of some keys frozen. -/
def frozen (ks : List Nat) : State :=
  ks.foldl (fun s k => s.updCore k (fun c => { c with run := { c.run with frozen := true } })) ready

theorem wit_coreFault :
    let s := frozen [2 * 256 + 3 * 32 + 5]
    let four := frozen [512, 512 + 32, 512 + 64, 512 + 96]
    let fs := [(0, 0), (1, 0), (2, 0), (3, 0)]
    (s.die 2).marshalDead = false ∧ (s.core ((2 * 8 + 3) * 32 + 5)).run.frozen = true ∧ logRow (s.gap 2 3) 5 = some 5 ∧ s.gapWorks 2 3 = true ∧
    s.hitBy ((2 * 8 + 3) * 32 + 5) = [] ∧ (s.core ((2 * 8 + 3) * 32 + 6)).run.frozen = false ∧ 4 ≤ fs.length ∧ fs.Nodup ∧ (four.die 2).lastShared = none ∧
    (fs.all (fun e => decide (e.1 < 8 ∧ e.2 < 17 ∧ (four.core ((2 * 8 + e.1) * 32 + e.2)).run.frozen = true ∧ e.2 ≠ four.gap 2 e.1))) = true := by
  decide +kernel

theorem wit_selfTest :
    let q : CorePos := ⟨2, 3, 5⟩
    let t := ready.updDie 2 (fun x => { x with testing := [(3, 5)] })
    let u : State := { ready with start := { ready.start with railsUp := true } }
    posOk q = true ∧ (ready.die 2).testing.contains (3, 5) = false ∧ (t.die 2).testing.contains (3, 5) = true ∧ u.start.railsUp = true ∧
    (u.die 2).marshalDead = false := by decide +kernel

theorem wit_coalescing :
    let e : CoalEntry := { code := 0x0201, unit := 5, count := 0, reporters := 0, sev := 2, part := 0, detail := 0 }
    let r : Report := { code := 0x0201, unit := 5, reporter := some (2, 3), sev := 2, part := 0, detail := 0 }
    let t := ready.updDie 2 (fun x => { x with coal := [e] })
    let w : StwCoal := { first := { EventRec.plain 0x0201 with unit := 5 }, count := 3, reporters := 0 }
    let u : State := { ready with stw := { ready.stw with coal := [w] } }
    { r with reporter := none }.reporter.isNone = true ∧ r.reporter = some (2, 3) ∧ (t.die 2).coal.any (fun e => e.code == r.code && e.unit == r.unit) = true ∧
    (ready.die 2).coal.any (fun e => e.code == r.code && e.unit == r.unit) = false ∧ (ready.die 2).coal.length < 16 ∧
    (t.die 2).coal.find? (fun z => z.code == 0x0201 && z.unit == 5) = some e ∧ e.count = 0 ∧ 0 < { e with count := 2 }.count ∧
    (u.stw.coal.find? (fun z => z.first.code == 0x0201 && z.first.unit == 5)).map StwCoal.count = some 3 ∧ u.stw.running = true := by decide +kernel

theorem wit_dramFaults :
    let q : CorePos := ⟨2, 3, 5⟩
    let k := CorePos.key q
    let d : Desc := { mode := 0, toExt := false, bulk := false, remote := false, elem := 1, sem := 0, spad := 0, ext := 0, params := [], aux := 0, outNo := 0, pc := 0 }
    let e : DmaEngine := { DmaEngine.reset with queue := [d] }
    let s := ready.updCore k (fun c => c.updDma 0 (fun _ => e))
    let t := ready.updCore k (fun c => c.updDma 0 (fun _ => { e with expiries := 1 }))
    let c := ready.setChan 1 2 { ready.chan 1 2 with resetting := true }
    posOk q = true ∧ (s.core k).run.frozen = false ∧ ((s.core k).dma 0).queue ≠ [] ∧ ((s.core k).dma 0).held = none ∧ ((s.core k).dma 0).expiries = 0 ∧
    ((t.core k).dma 0).expiries ≠ 0 ∧ (c.chan 1 2).resetting = true ∧ c.stw.running = true ∧ (c.chan 1 2).resets = 0 ∧
    1 ≤ { c.chan 1 2 with resets := 1 }.resets := by decide +kernel

theorem wit_unitLoss :
    let s : State := { ready with hub := { ready.hub with aOk := true, bOk := true }, start := { ready.start with railsUp := true } }
    let l := hasPart id s
    (s.die 2).linksOut.contains 4 = false ∧ (s.die 2).linksOut.contains 5 = false ∧ (s.die 2).marshalDead = false ∧ (s.die 2).single = false ∧
    s.partOfDie 2 = none ∧ ((s.updDie 2 (fun x => { x with single := true })).die 2).single = true ∧ (l.conductor 0).inService = true ∧
    l.halfOk (coreHalf 0) = true ∧ ((List.range 8).find? (fun p => match l.part p with
        | none => false
        | some x => x.served && x.conductor == 0)) = some 0 ∧ l.halfSpare (coreHalf 0) l.canTake = some 8 ∧ (∀ v, v < 32 → (s.stream v).live = false) ∧
    s.halfOk true = true ∧ ((List.range 8).all (fun p => match l.part p with
        | none => true
        | some x => !(x.served && coreHalf x.conductor == true))) = true ∧ { s with hub := { s.hub with aOk := false } }.halfOk false = false := by
  decide +kernel
/-! ### Start-up and reset -/

/-- Reset, with the boot state changed. -/
def booting (f : StartState → StartState) : State := { State.reset with start := f State.reset.start }

theorem wit_supplies :
    let aux := booting (fun b => { b with auxGood := true, phase := .aux })
    let run : State := { aux with stw := { aux.stw with running := true } }
    let hot : State := { aux with pwr := { aux.pwr with tripped := true } }
    State.reset.start.auxGood = false ∧ aux.start.auxGood = true ∧ (booting (fun b => { b with phase := .romRetry })).start.phase = .romRetry ∧
    State.reset.bootable (State.reset.fwKind 0).committedImg = false ∧ State.reset.bootable (State.reset.fwKind 0).otherImg = false ∧
    State.reset.bootable [] = false ∧ run.start.phase = .aux ∧ run.stw.running = true ∧ run.pwr.tripped = false ∧ run.sec.eraseDue = false ∧
    { run with sec := { run.sec with eraseDue := true } }.sec.eraseDue = true ∧ hot.pwr.tripped = true ∧ hot.cooled = false ∧
    State.reset.start.phase ≠ .aux ∧ (booting (fun b => { b with pwrEn := true, phase := .waitVin })).start.pwrEn = true ∧ State.reset.start.pwrEn = false ∧
    (booting (fun b => { b with phase := .waitRetry })).start.phase = .waitRetry ∧ ready.start.phase = .ready ∧ ready.stw.running = true := by decide +kernel

theorem wit_bringUp :
    let d := booting (fun b => { b with phase := .dram })
    let m : State := { booting (fun b => { b with phase := .maps }) with
      flash := { State.reset.flash with mapsReady := true }, stw := { State.reset.stw with running := true }
      hub := { State.reset.hub with aOk := true } }
    let x : Die := { State.reset.die 0 with retired := [(3, 4)] }
    posOk ⟨1, 2, 3⟩ = true ∧ (State.reset.die 1).retired.contains (2, 3) = false ∧ x.retired.contains (3, 4) = true ∧
    (∀ i, i < 4 → x.retired.contains (3, i) = false) ∧ d.start.phase = .dram ∧ (∀ i, i < 32 → (d.port i).enabled = false) ∧
    (d.chan 1 2).spare = none ∧ d.start.warm = false ∧
    [32, 33].find? (fun j => !((d.setChan 1 2 { d.chan 1 2 with spare := none }).sparesUsed 1).contains j) = some 32 ∧ m.start.phase = .maps ∧
    m.flash.mapsReady = true ∧ m.stw.running = true ∧ m.hub.aOk = true ∧ d.hub.aOk = false ∧ d.hub.bOk = false ∧ d.flash.mapsReady = false ∧
    d.sec.eraseDue = false ∧ { d with sec := { d.sec with eraseDue := true } }.sec.eraseDue = true ∧ d.start.fuseFailed = false ∧
    3 ∈ [3, 9] := by
  decide +kernel

theorem wit_resets :
    let up := booting (fun b => { b with auxGood := true, phase := .aux, sysResetLow := false })
    let held := booting (fun b => { b with auxGood := true, phase := .held })
    let ask (r : Bool × Nat) := booting (fun b => { b with auxGood := true, sysResetLow := false, perstHigh := true, pendingReset := some r })
    up.start.sysResetLow = false ∧ up.start.phase ≠ .tripped ∧ (booting (fun b => { b with phase := .tripped, sysResetLow := false })).start.phase = .tripped ∧
    held.start.phase = .held ∧ held.start.auxGood = true ∧ (booting (fun b => { b with perstHigh := true, phase := .ready })).start.phase = .ready ∧
    State.reset.start.pendingReset = none ∧ (ask (false, 5)).start.pendingReset = some (false, 5) ∧ (ask (false, 5)).start.perstWait = false ∧
    (booting (fun b => { b with perstWait := true })).start.perstWait = true ∧ (ask (false, 5)).start.sysResetLow = false ∧
    (ask (true, 2)).start.pendingReset = some (true, 2) ∧ (tripValue 0).isSome = true ∧ tripValue 0xFFFF = none ∧
    State.reset.pwr.sol.state = .off ∧ (State.reset.lose true).start.phase ≠ .ready := by decide +kernel

theorem wit_opReset : ∀ v ∈ [0, 1, 2, 3, 4],
    let k := cmdOf .waiting 0x0707 0 0xFFFF 0 (leBytes 4 v)
    AtPoint (adminWork 0x0707 0 (leBytes 4 v) id) ⟨0, 1⟩ k 0x0707 ∧ k.p 0 4 = v := by decide +kernel

theorem wit_hostPort :
    let s := booting (fun b => { b with railsUp := true, perstHigh := true, phase := .ready, auxGood := true })
    let l : State := { s with host := { s.host with linkUp := true } }
    s.start.railsUp = true ∧ s.start.perstHigh = true ∧ s.start.phase ≠ .held ∧ State.reset.start.railsUp = false ∧ l.host.linkUp = true ∧
    s.host.linkUp = false ∧ s.mgmt.i3cAddr = none ∧ s.start.auxGood = true ∧ (0x3B : Nat) ≠ 0x3A ∧ { s.mgmt with i3cAddr := some 9 }.i3cAddr = some 9 := by
  decide

/-! ### Rules about every step -/

/-- Reset satisfies the invariant, and a step from it, or from it with a command in front, has a next state. -/
theorem wit_invariant : GoodState State.reset ∧ State.reset.stw.nextSeq ≤ State.reset.stw.seqBound ∧ (∃ t, step State.reset = .next t) ∧
    (∃ t, step (State.reset.withPending [.logWrite]) = .next t) := 
  ⟨⟨by decide, by decide, by decide, by decide, by decide⟩, by decide, ⟨_, rfl⟩, ⟨_, rfl⟩⟩
/-! ### Ill-formed commands are refused by `Instr.wf` -/

theorem test_wf_positions : ∀ p ∈ [(⟨16, 0, 0⟩ : CorePos), ⟨0, 8, 0⟩, ⟨0, 0, 17⟩],
    CorePos.wf p = false ∧ (Instr.zeroAll p).wf = false ∧ (Instr.go p 0).wf = false ∧ (Instr.tAdd ⟨p, word 0 0 0 0 0 0, .none⟩).wf = false ∧
    (Instr.dmaComplete p 0).wf = false ∧ (Instr.bankWakeEnd p 0).wf = false ∧ (Instr.selfTestDone p true).wf = false ∧
    (Instr.vin48Good true true [p] []).wf = false ∧ (Instr.warmReset [] 0 true true [p] [] false).wf = false ∧ (Instr.regWrite (.core p 0x450000) 0).wf = false := by decide

theorem test_wf_queues :
    let c : CmdRef := ⟨11, 0⟩
    (Instr.opRun c).wf = false ∧ (Instr.commandTimeout c).wf = false ∧ (Instr.opFwStage c true).wf = false ∧
    (Instr.opDebugUnlock ⟨0, 0⟩ []).wf = false ∧ (Instr.sqTailWrite 9 0 0 [] []).wf = false ∧ (Instr.sqTailWrite 0 4 0 [] []).wf = false ∧
    (Instr.packetFetch 9 0).wf = false ∧ (Instr.packetFetch 0 4).wf = false ∧ (Instr.cqDisable 0 4).wf = false ∧ (Instr.clrCounts 9).wf = false ∧
    (Instr.drainLimitExpiry (.ring 9 0)).wf = false ∧ (Instr.drainLimitExpiry (.ring 0 4)).wf = false := by decide

theorem test_wf_registers : ∀ a ∈ [RegAddr.bar0 9 0, .bar0 0 2, .bar0 0 0x4000000, .bar0 1 0x4000, .core ⟨0, 0, 0⟩ 0x450001,
    .core ⟨0, 0, 0⟩ 0x44FFFC, .core ⟨0, 0, 0⟩ 0x461000, .control 0xBFFFFFFFFF, .control 0xC400000000], (Instr.regWrite a 0).wf = false := by decide

theorem test_wf_units : ∀ i ∈ [Instr.mirrorWrite 8, .clkoutCtrlWrite 2 0, .bankScrubEnd ⟨0, 0, 0⟩ 16, .gbIdleFlush ⟨0, 0, 0⟩ 0x400000,
    .dmaDescriptorStart ⟨0, 0, 0⟩ 2 [] [], .dmaDeadlineExpiry ⟨0, 0, 0⟩ 0 6 0, .dmaDeadlineExpiry ⟨0, 0, 0⟩ 0 0 32, .barRelease 8 0, .barRelease 0 8,
    .coreFaultRecovery 16 [] true, .coreFaultRecovery 0 [(8, 0)] true, .coreFaultRecovery 0 [(0, 17)] true, .gapTestTimer 16,
    .marshalCoalesceClose 16 0 0, .conductorTakeover 10 true, .vin48Good true true [] [10], .warmReset [] 0 true true [] [10] false, .bar0BadAccess true 0,
    .opLcAdvance ⟨0, 0⟩ (some 6), .portTrainingDone 32 8 0 0 0, .marshalRestart 16 true, .linkRetryExcess 16 0 true, .linkRetryExcess 0 256 true,
    .planInstall 8 0, .quantumExpiry 8, .switchRestoreDone 8 0, .drainLimitExpiry (.partition 8), .drainLimitExpiry (.context 8 0),
    .drainLimitExpiry (.stream 32), .drainLimitExpiry (.decodeArea 8 0), .drainLimitExpiry (.spanPort 32)], i.wf = false := by decide

theorem test_wf_memory : ∀ i ∈ [Instr.apertureRead 0 4097 [], .sparingCopyDone 6 0, .sparingCopyDone 0 32, .allocationScrubDone 8 0,
    .allocationScrubDone 0 16, .stripeCloseTimer 8 0, .stripeCloseTimer 0 4, .mapCheckpoint 8, .staticLevelling 8 0, .staticLevelling 0 4,
    .pageSetZeroingDone 8 0 0, .channelResetDone 6 0 true, .channelResetDone 0 32 true, .dramTrained [(6, 0)], .dramTrained [(0, 34)]],
    i.wf = false := by decide

theorem test_wf_links : ∀ i ∈ [Instr.flitReceive 32 (List.replicate 224 0) true 0, .flitReceive 0 [] true 0, .nakReceive 32 0, .nakReceive 0 4096,
    .laneFailing 32 0, .laneFailing 0 9, .portRetryTimer 32, .spanPacketArrival 32 (List.replicate 32 0), .spanPacketArrival 0 [],
    .spanLocalCompletion 0 (List.replicate 289 0), .collectiveComplete 8 0, .collectiveComplete 0 16, .csiFrameStart 2 0 0 true 0,
    .csiFrameStart 0 16 0 true 0, .csiFrameStart 0 0 65536 true 0, .csiLongPacket 0 0 64 [] true true true, .csiOtherPacket 2 0 true, .csiFrameEnd 0 16 true,
    .frameTimeout 32, .pipelineExit 32 0], i.wf = false := by decide

theorem test_wf_management : ∀ i ∈ [Instr.refFailure 24 true, .refGood 24 true, .switchoverLock 24, .coastStep 24, .pllLockLoss 16,
    .sensorSample 0x10000 0 true 0, .tripComparator 0x10000, .fwTrialTimer 3, .firmwareFault 3, .conductorLoaded 10, .equinoxHandover 8,
    .marshalActivation 16, .getSensorReading 0x10000, .getCertificate 0 0 65536, .challenge 0 [], .ideKmKeyProg 0 9 0, .ideKmKeyProg 0 0 2, .kSetGo 0 9 0,
    .kSetGo 0 0 2, .lockInterfaceRequest 0 8 1, .lockInterfaceRequest 0 0 0, .lockInterfaceRequest 0 0 9, .startInterfaceRequest 0 8,
    .ideIntegrityFailure 9, .mgmtCommandPacket true (List.replicate 4161 0)], i.wf = false := by decide

theorem test_wf_reports :
    let r : Report := { code := 0x0201, unit := 0, reporter := none, sev := 0, part := 0, detail := 0 }
    (Instr.faultReport r).wf = true ∧ (∀ q ∈ [{ r with code := 0x10000 }, { r with unit := 2 ^ 32 }, { r with sev := 5 }, { r with part := 16 },
      { r with detail := 2 ^ 64 }, { r with reporter := some (16, 0) }, { r with reporter := some (0, 8) }], (Instr.faultReport q).wf = false) := by decide
end Sys2Proof.Tests
end

section
/-! SUPPORT. The row map of a column (R25, R129, R645, O49). -/

namespace Sys2Proof.Machine

/-- A logical row stands on a physical row other than the gap, and the maps are inverse there (R25, R645). -/
theorem logRow_physRow {h r : Nat} (hr : r < 16) :
    physRow h r < 17 ∧ physRow h r ≠ h ∧ logRow h (physRow h r) = some r := by
  rcases Nat.lt_or_ge r h with hlt | hge
  · have hp : physRow h r = r := if_pos hlt
    have hl : logRow h r = some r := by rw [logRow, if_neg (by omega), if_pos hlt]
    rw [hp]
    exact ⟨by omega, by omega, hl⟩
  · have hp : physRow h r = r + 1 := if_neg (by omega)
    have hl : logRow h (r + 1) = some r := by rw [logRow, if_neg (by omega), if_neg (by omega), Nat.add_sub_cancel]
    rw [hp]
    exact ⟨by omega, by omega, hl⟩

/-- Every physical row but the gap carries a logical row. -/
theorem exists_logRow_of_ne_gap {h f : Nat} (hf : f < 17) (hh : h < 17) (hne : f ≠ h) :
    ∃ r, logRow h f = some r ∧ r < 16 ∧ physRow h r = f := by
  rcases Nat.lt_or_gt_of_ne hne with hlt | hgt
  · exact ⟨f, by rw [logRow, if_neg hne, if_pos hlt], by omega, if_pos hlt⟩
  · refine ⟨f - 1, by rw [logRow, if_neg hne, if_neg (by omega)], by omega, ?_⟩
    rw [physRow, if_neg (by omega)]
    omega

/-- A gap moved down the column pushes the rows from its new place to its old one up by one. -/
theorem physRow_of_gap_lowered {h f : Nat} (r : Nat) (hfh : f < h) :
    physRow f r = if f ≤ r ∧ r < h then physRow h r + 1 else physRow h r := by
  unfold physRow
  split_ifs <;> omega

/-- A gap moved up the column pulls the rows from its old place to its new one down by one. -/
theorem physRow_of_gap_raised {h f : Nat} (r : Nat) (hhf : h < f) :
    physRow f r = if h ≤ r ∧ r < f then physRow h r - 1 else physRow h r := by
  unfold physRow
  split_ifs <;> omega

/-- Settles O49: the map and its inverse by the side of the gap a row lies on, the moved gap by comparing the two maps. -/
theorem rowMapSkipsTheGap : Obligations.RowMapSkipsTheGap :=
  ⟨fun _ _ hr _ => logRow_physRow hr, fun _ _ hf hh hne => exists_logRow_of_ne_gap hf hh hne,
    fun _ _ r _ _ _ => ⟨physRow_of_gap_lowered r, physRow_of_gap_raised r⟩⟩

end Sys2Proof.Machine
end

section
/-! SUPPORT. What reset leaves (O60). -/

namespace Sys2Proof.Machine

/-- The state at reset meets the invariant of every step: no fuse is blown, nothing is due, and no step of the throttle is taken. -/
theorem State.reset_good : GoodState State.reset where
  lcNoGap := by decide
  killedLate := by decide
  dueLate := by decide
  seqBound := by decide
  stepsRise := by decide

/-- Settles O60: each register reads its Reset value, since nothing is listed in the maps of the state at reset. -/
theorem resetLeavesSpecValues : Obligations.ResetLeavesSpecValues := by
  unfold Obligations.ResetLeavesSpecValues
  refine ⟨State.reset_good, rfl, fun _ => rfl, fun _ => rfl, fun _ _ => ⟨rfl, rfl⟩, fun _ => ⟨rfl, rfl, rfl, rfl, rfl, rfl, rfl⟩,
    rfl, rfl, rfl, rfl, rfl, rfl, rfl, rfl, rfl, rfl, rfl, rfl, fun _ => rfl, fun _ => ⟨rfl, rfl⟩, rfl, rfl, rfl⟩

end Sys2Proof.Machine
end

section
/-! SUPPORT. Plans, weights, pools and statistics at the gate (chapters 7 and 13, O15). -/

namespace Sys2Proof.Machine

/-! ### The gate at a command's point (R433 to R437) -/

/-- A command at its point passes the gate and performs its work, unless an access of it was lost (R334). -/
theorem State.gate_of_atPoint {s : State} {c : CmdRef} {k : Cmd} {op : Nat} {always : Bool} (h : AtPoint s c k op)
    (ha : decide (op = 0x0106) = always) (f : State → Cmd → Nat → Nat → State) :
    s.gate c op always f = s.unlessLost c (f s k (k.home c) k.ctxField).settle := by
  obtain ⟨hcmd, hop, hserves, hphase, hready⟩ := h
  subst ha
  simp [State.gate, hcmd, hop, hserves, hphase, hready]

/-! ### OP_PLAN_LOAD and PLAN_INSTALL (R239 to R242) -/

theorem exec_opPlanLoad_of_atPoint {s : State} {c : CmdRef} {k : Cmd} (h : AtPoint s c k 0x0201) :
    exec (.opPlanLoad c) s = .next (s.unlessLost c (s.planLoad c k (k.home c) k.ctxField).settle) :=
  congrArg Host.Outcome.next (State.gate_of_atPoint h rfl fun t k p h => t.planLoad c k p h)

theorem State.planLoad_of_bad_fields {s : State} {c : CmdRef} {k : Cmd} {p h : Nat}
    (hk : k.p 6 2 ≠ 0 ∨ k.p 0xC 4 ≠ 0 ∨ k.p 8 4 % 64 ≠ 0 ∨ k.p 8 4 < 4096 ∨ 2 ^ 28 < k.p 8 4) :
    s.planLoad c k p h = s.endCmd c (Fin.with stPlanInvalid 1) := if_pos hk

section PlanLoad
variable {s t u : State} {c : CmdRef} {k : Cmd} {p h : Nat}
  (hk : ¬ (k.p 6 2 ≠ 0 ∨ k.p 0xC 4 ≠ 0 ∨ k.p 8 4 % 64 ≠ 0 ∨ k.p 8 4 < 4096 ∨ 2 ^ 28 < k.p 8 4))
include hk

theorem State.planLoad_of_quota_short (hfit : s.fitsCtx p h (k.p 8 4) = false) :
    s.planLoad c k p h = s.endCmd c (quotaFin 0) := by
  unfold State.planLoad
  rw [if_neg hk, hfit]
  rfl

theorem State.planLoad_of_read {x : Partition} {f : FwRegion} {img : List Byte} (hfit : s.fitsCtx p h (k.p 8 4) = true)
    (hplace : s.placeFw p .plan h (k.p 8 4) 0x10000 = some (f, t)) (hpart : s.part p = some x)
    (hread : t.readEng (k.who c.block) (k.p 0 6) (k.p 8 4) = .ok img u) :
    s.planLoad c k p h = (u.putDram f.base img).planStaged c p h x f.base img := by
  unfold State.planLoad
  rw [if_neg hk, hfit]
  simp only [Bool.not_true, Bool.false_eq_true, if_false, hplace, hpart, hread]
end PlanLoad

theorem State.planStaged_of_fault {s : State} {x : Partition} {img : List Byte} {st d : Nat} (c : CmdRef) (p h base : Nat)
    (hv : Plan.validate img x.dies.length (x.signed img (img.length - 128)) = some (st, d)) :
    s.planStaged c p h x base img =
      (s.dropFw p (fun f => f.kind == FwKind.plan && f.base == base)).endCmd c (Fin.with st d) := by
  simp only [State.planStaged, hv]

theorem State.planStaged_of_installs {s w : State} {x : Partition} {img : List Byte} {p h base : Nat} (c : CmdRef)
    (hv : Plan.validate img x.dies.length (x.signed img (img.length - 128)) = none)
    (hi : s.installPlan p h { base := base, image := img } = some w) :
    s.planStaged c p h x base img = (s.startCmd c).updCtx p h (fun y => { y with
      staged := some { base := base, image := img }, stagedBy := some c.id }) := by
  simp only [State.planStaged, hv, hi]

/-- At its boundary the staged copy becomes the plan, and its command ends (R242). -/
theorem exec_planInstall_of_boundary {s t : State} {p h id : Nat} {y : Context} {pl : PlanInst} (hy : s.ctx p h = some y)
    (hs : y.staged = some pl) (hb : y.stagedBy = some id) (hat : s.atBoundary { block := 1 + p, id := id } p h = true)
    (hi : s.installPlan p h pl = some t) :
    exec (.planInstall p h) s = .next ((t.endCmd { block := 1 + p, id := id } Fin.ok).settle) := by
  show execPlanInstall p h s = _
  simp [execPlanInstall, hy, hs, hb, hat, hi, State.finish]

/-! ### OP_WEIGHT_LOAD (R22, R450, R551) -/

theorem exec_opWeightLoad_of_atPoint {s : State} {c : CmdRef} {k : Cmd} (h : AtPoint s c k 0x0202) :
    exec (.opWeightLoad c) s = .next (s.unlessLost c (s.weightLoad c k (k.home c) k.ctxField).settle) :=
  congrArg Host.Outcome.next (State.gate_of_atPoint h rfl fun t k p h => t.weightLoad c k p h)

/-- The command reads its manifest, and goes on to the data once the manifest has passed its checks. -/
theorem State.weightLoad_of_manifest {s s1 : State} {c : CmdRef} {k : Cmd} {p h : Nat} {x : Partition} {y : Context} {pl : PlanInst}
    {m : List Byte} (hx : s.part p = some x) (hy : s.ctx p h = some y) (hpl : y.plan = some pl)
    (h6 : k.p 6 2 = 0) (hC : k.p 0xC 4 = 0) (h16 : k.p 0x16 2 = 0) (hat : s.atBoundary c p h = true)
    (hlo : 64 ≤ k.p 8 4) (hhi : k.p 8 4 ≤ 2 ^ 20) (hread : s.readEng (k.who c.block) (k.p 0 6) (k.p 8 4) = .ok m s1)
    (hsize : k.p 8 4 = 64 + 80 * field m 6 2 + 112) (hzero : zeroAt m (k.p 8 4 - 112 + 0xA) 6 = true)
    (hsig : x.signed m (k.p 8 4 - 112) = true) (hman : manifestOk pl.image m (k.p 0x18 8) = true) :
    s.weightLoad c k p h = s1.weightData c k p h pl.image (manEntries m) := by
  have hrange : ¬ (k.p 8 4 < 64 ∨ 2 ^ 20 < k.p 8 4) := by omega
  have hform : ¬ (k.p 8 4 ≠ 64 + 80 * field m 6 2 + 112 ∨ !zeroAt m (k.p 8 4 - 112 + 0xA) 6 = true) := by
    simpa [hzero] using hsize
  simp only [State.weightLoad, hx, hy, Option.bind_some, hpl, h6, hC, h16, hat, if_neg hrange, hread, if_neg hform, hsig, hman]
  rfl

/-- Weights whose tensors are all copied with their digests replace the previous ones (R450, R551). -/
theorem State.weightData_of_copied {s s2 s3 : State} {c : CmdRef} {k : Cmd} {p h base wx : Nat} {img : List Byte} {es : List ManEntry}
    (hfit : s.fitsCtx p h ((if Plan.trains img then 2 else 1) * weightBytes img) = true)
    (hplace : s.placeWeights p h img = some (base, wx, s2))
    (hcopy : s2.copyTensors (k.who c.block) (k.p 0x10 6) base wx (weightOffsets img 0 (Plan.weightTensors img)) es = .ok none s3) :
    s.weightData c k p h img es = ((s3.dropFw p (fun f => f.kind == FwKind.weights && f.owner == h &&
      ((f.base == base || (wx != 0 && f.base == base + wx)) == false))).updCtx p h (fun z => { z with weights := some {
        base := base, wx := wx, size := weightBytes img, offsets := weightOffsets img 0 (Plan.weightTensors img),
        second := false } })).endCmd c { Fin.ok with c0 := es.length } := by
  simp only [State.weightData, hfit, hplace, hcopy]
  rfl

/-! ### OP_POOL_BIND (R355, R363, R450) -/

theorem exec_opPoolBind_of_atPoint {s : State} {c : CmdRef} {k : Cmd} (errs : List UnitErr) (h : AtPoint s c k 0x0203) :
    exec (.opPoolBind c errs) s = .next (s.unlessLost c (s.poolBind c k (k.home c) k.ctxField errs).settle) :=
  congrArg Host.Outcome.next (State.gate_of_atPoint h rfl fun t k p h => t.poolBind c k p h errs)

section PoolBind
variable {s : State} {c : CmdRef} {k : Cmd} {p h : Nat} {y : Context} {pl : PlanInst}
  (hy : s.ctx p h = some y) (hpl : y.plan = some pl) (hk : k.p 4 4 = 0) (hexp : Plan.experts pl.image = true)
include hy hpl hk hexp

theorem State.poolBind_of_no_store (errs : List UnitErr) (hst : s.store (k.p 0 4) = none) :
    s.poolBind c k p h errs = s.endCmd c (Fin.bare stStoreInvalid) := by
  simp [State.poolBind, hy, hpl, hk, hexp, hst]

/-- With no expert pinned, binding empties the residency table and names the pool. -/
theorem State.poolBind_of_none_pinned {t : Store} (errs : List UnitErr) (hst : s.store (k.p 0 4) = some t) (hpart : t.part = some p)
    (hctx : t.ctx = some h) (hkey : t.keyed = true)
    (hroom : ((List.range (Plan.expertCount pl.image)).map (fun e => Plan.expUnitOff pl.image e + Plan.expUnits pl.image e)).foldl max 0 +
      k.p 8 8 ≤ t.units)
    (hmaps : s.mapsOut p = false) (hpin : (List.range (Plan.expertCount pl.image)).filter (Plan.expPinned pl.image) = []) :
    s.poolBind c k p h errs =
      (((List.range (Plan.expertCount pl.image)).foldl (fun u e => u.putDram (pl.expertEntry e) (leBytes 8 0)) s).updCtx p h
        (fun z => { z with pool := some (t.handle, k.p 8 8), experts := [] })).endCmd c Fin.ok := by
  rw [Nat.add_comm] at hroom
  simp [State.poolBind, hy, hpl, hk, hexp, hst, hpart, hctx, hkey, Nat.not_lt.mpr hroom, hmaps, hpin]
end PoolBind

/-! ### OP_TENSOR_STAT and OP_KV_STAT (R67, R289) -/

theorem exec_opTensorStat_of_output {s t : State} {c : CmdRef} {k : Cmd} {y : Context} {pl : PlanInst} {i : Nat} {f : Fin}
    (h : AtPoint s c k 0x0204) (hy : s.ctx (k.home c) k.ctxField = some y) (hpl : y.plan = some pl)
    (hi : (Plan.qstats pl.image).idxOf? (k.p 0 2) = some i) (h2 : k.p 2 6 = 0) (hE : k.p 0xE 2 = 0)
    (hout : s.output c (k.who c.block) (k.p 8 6) (leBytes 8 (SMap.get 0#64 y.qstat i).toNat) Fin.ok = (t, some f)) :
    exec (.opTensorStat c) s = .next (s.unlessLost c (((if k.opf0 = true ∧ f.status = stOk then
      t.updCtx (k.home c) k.ctxField (fun z => { z with qstat := SMap.set 0#64 z.qstat i 0#64 }) else t).endCmd c f).settle)) := by
  show execOpTensorStat c s = _
  rw [execOpTensorStat, State.gate_of_atPoint (always := false) h rfl]
  simp [hy, hpl, hi, h2, hE, hout]

theorem exec_opKvStat_of_output {s t : State} {c : CmdRef} {k : Cmd} {v : KvState} {f : Fin} (h : AtPoint s c k 0x0308)
    (hv : s.kv (k.home c) k.ctxField = some v) (h6 : k.p 6 2 = 0)
    (hout : s.output c (k.who c.block) (k.p 0 6) v.record Fin.ok = (t, some f)) :
    exec (.opKvStat c) s = .next (s.unlessLost c (((if k.opf0 = true ∧ f.status = stOk then
      t.updKv (k.home c) k.ctxField KvState.clearCounts else t).endCmd c f).settle)) := by
  show execOpKvStat c s = _
  rw [execOpKvStat, State.gate_of_atPoint (always := false) h rfl]
  simp [hv, h6, hout]

/-- Settles O15: each command at its point does what its own lemma says of an admitted or refused block. -/
theorem planCommandResults : Obligations.PlanCommandResults := by
  refine ⟨?plan, ?weights, ?stats⟩
  case plan =>
    intro s t u c k x f img p h size
    refine ⟨fun hat hk => ?_, fun hat h6 hC hmod hlo hhi => ?_, fun _ _ _ _ _ hy hs hb hbd hi => exec_planInstall_of_boundary hy hs hb hbd hi⟩
    · rw [exec_opPlanLoad_of_atPoint hat, State.planLoad_of_bad_fields hk]
    · have hk : ¬ (k.p 6 2 ≠ 0 ∨ k.p 0xC 4 ≠ 0 ∨ size % 64 ≠ 0 ∨ size < 4096 ∨ 2 ^ 28 < size) := by omega
      refine ⟨fun hfit => ?_, fun hfit hplace hx hread => ⟨fun st d hv => ?_, fun w hv hi => ?_⟩⟩
      · rw [exec_opPlanLoad_of_atPoint hat, State.planLoad_of_quota_short hk hfit]
        rfl
      · rw [exec_opPlanLoad_of_atPoint hat, State.planLoad_of_read hk hfit hplace hx hread, State.planStaged_of_fault _ _ _ _ hv]
      · rw [exec_opPlanLoad_of_atPoint hat, State.planLoad_of_read hk hfit hplace hx hread, State.planStaged_of_installs _ hv hi]
  case weights =>
    intro s s1 s2 s3 c errs k x y pl p h hx hy hpl
    refine ⟨fun m base wx hat h6 hC h16 hbd hlo hhi hread hsize hzero hsig hman hfit hplace hcopy => ?_,
      fun t hat hk hexp hst hpart hctx hkey hroom hmaps hpin => ?_, fun hat hk hexp hst => ?_⟩
    · rw [exec_opWeightLoad_of_atPoint hat,
        State.weightLoad_of_manifest hx hy hpl h6 hC h16 hbd hlo hhi hread hsize hzero hsig hman,
        State.weightData_of_copied hfit hplace hcopy]
    · rw [exec_opPoolBind_of_atPoint errs hat, State.poolBind_of_none_pinned hy hpl hk hexp errs hst hpart hctx hkey hroom hmaps hpin]
    · rw [exec_opPoolBind_of_atPoint errs hat, State.poolBind_of_no_store hy hpl hk hexp errs hst]
  case stats =>
    exact fun s t c k y f => ⟨fun pl i hat hy hpl hi h2 hE hout => exec_opTensorStat_of_output hat hy hpl hi h2 hE hout,
      fun v hat hv h6 hout => exec_opKvStat_of_output hat hv h6 hout⟩

end Sys2Proof.Machine
end

section
/-! SUPPORT. Loss of links, die marshals, conductor cores and hub halves (R20, R373, R592, R663, R664, O52). -/

namespace Sys2Proof.Machine

/-! ### Links and die marshals (R373, R664) -/

/-- A mesh link over its retry limit goes on at half bandwidth, with no event (R373). -/
theorem exec_linkRetryExcess_mesh {s : State} {d link : Nat} (hd : d < 16) (hin : (s.die d).linksOut.contains (2 * link) = false) :
    exec (.linkRetryExcess d link false) s = .next (s.updDie d (fun x => { x with linksOut := x.linksOut ++ [2 * link] })) := by
  show execLinkRetryExcess d link false s = _
  simp only [execLinkRetryExcess, Nat.not_le.mpr hd, hin, Bool.false_eq_true, or_self, if_false, Nat.add_zero]

/-- A bridge link over its retry limit is retired and logged (R373, R664). -/
theorem exec_linkRetryExcess_bridge {s : State} {d link : Nat} (hd : d < 16)
    (hin : (s.die d).linksOut.contains (2 * link + 1) = false) :
    exec (.linkRetryExcess d link true) s =
      .next ((s.updDie d (fun x => { x with linksOut := x.linksOut ++ [2 * link + 1] })).event 0x0501) := by
  show execLinkRetryExcess d link true s = _
  simp only [execLinkRetryExcess, Nat.not_le.mpr hd, hin, Bool.false_eq_true, or_self, if_false, if_true]

/-- Which partition owns a die follows from the partitions alone. -/
theorem State.partOfDie_congr {s t : State} (h : t.parts = s.parts) (d : Nat) : t.partOfDie d = s.partOfDie d := by
  simp only [State.partOfDie, State.part, h]

/-- A lockstep mismatch of a die that no partition owns is noted; the third within 24 h is tested. -/
theorem exec_marshalRestart_of_unowned {s : State} {d : Nat} (pass : Bool) (hd : d < 16) (hm : (s.die d).marshalDead = false)
    (hs : (s.die d).single = false) (hp : s.partOfDie d = none) :
    let recent := s.tb.now :: (s.die d).mismatches.filter (fun t => decide (s.tb.now ≤ t + 86400 * 1000000000))
    exec (.marshalRestart d pass) s = .next (s.updDie d (fun x => { x with
      mismatches := recent, single := decide (3 ≤ recent.length) && !pass })) := by
  intro recent
  show execMarshalRestart d pass s = _
  have hown := fun f => (State.partOfDie_congr (State.updDie_parts s d f) d).trans hp
  simp only [execMarshalRestart, Nat.not_le.mpr hd, hm, hs, hown, Bool.false_eq_true, or_self, if_false]
  rfl

/-- A marshal in single mode whose processor fails its test is lost. -/
theorem exec_marshalRestart_of_single {s : State} {d : Nat} (hd : d < 16) (hm : (s.die d).marshalDead = false)
    (hs : (s.die d).single = true) :
    exec (.marshalRestart d false) s = .next ((s.updDie d (fun x => { x with marshalDead := true })).noteShort d) := by
  show execMarshalRestart d false s = _
  simp only [execMarshalRestart, Nat.not_le.mpr hd, hm, hs, Bool.false_eq_true, or_self, if_false, if_true]

/-! ### Conductor cores (R592, R663) -/

/-- The first partition that a conductor core serves. -/
def State.servedBy (s : State) (n : Nat) : Option Nat :=
  (List.range 8).find? (fun p => match s.part p with
    | none => false
    | some x => x.served && x.conductor == n)

/-- The spare of the failed core's own half takes its partition over; the failed core is tested. -/
theorem exec_conductorTakeover_of_spare {s : State} {n p m : Nat} (pass : Bool) (hn : n < 10) (hin : (s.conductor n).inService = true)
    (hhalf : s.halfOk (coreHalf n) = true) (hserv : s.servedBy n = some p) (hspare : s.halfSpare (coreHalf n) s.canTake = some m) :
    let t := (s.noteCmds p (fun v => { v with conductor := true })).takeOver p m
    exec (.conductorTakeover n pass) s =
      .next (let u := t.setConductor n { t.conductor n with inService := pass, loading := false }
        (if pass then u.setSpare (coreHalf n) n else u).equinoxCheck.settle) := by
  intro t
  show execConductorTakeover n pass s = _
  simp only [execConductorTakeover, Nat.not_le.mpr hn, hin, hhalf, Bool.not_true, Bool.false_eq_true, or_self, if_false]
  generalize hfind : List.find? _ (List.range 8) = serving
  obtain rfl : serving = some p := hfind.symm.trans hserv
  simp only [hspare, Option.orElse_some, t]

/-! ### Hub halves (R20, R592) -/

/-- A hub half goes out of service and the host port to x8, before anything follows from it. -/
def State.halfOut (s : State) (half : Bool) : State :=
  { s with
    hub := if half then { s.hub with bOk := false } else { s.hub with aOk := false }
    host := { s.host with linkWidth := if s.host.linkUp then 3 else s.host.linkWidth } }

/-- The partitions served by a conductor core of a half. -/
def State.servedOnHalf (s : State) (half : Bool) : List Nat :=
  (List.range 8).filter (fun p => match s.part p with
    | none => false
    | some x => x.served && coreHalf x.conductor == half)

/-- Streams that are not live take no fault from the loss of their port. -/
theorem State.faultStreams_of_none_live {s : State} {half : Bool} (h : ∀ v, v < 32 → (s.stream v).live = false) :
    ((List.range 16).map (fun v => 16 * (if half then 1 else 0) + v)).foldl
      (fun t n => if (t.stream n).live then t.faultStream n else t) s = s := by
  refine List.foldlRecOn (motive := fun t => t = s) _ _ rfl fun t ht n hn => ?_
  obtain rfl : t = s := ht
  obtain ⟨v, hv, rfl⟩ := List.mem_map.mp hn
  have hv16 : v < 16 := List.mem_range.mp hv
  have hlt : 16 * (if half then 1 else 0) + v < 32 := by split <;> omega
  simp only [h _ hlt, Bool.false_eq_true, if_false]

theorem State.servedOnHalf_eq_nil {s : State} {half : Bool} (h : (List.range 8).all (fun p => match s.part p with
    | none => true
    | some x => !(x.served && coreHalf x.conductor == half)) = true) : s.servedOnHalf half = [] := by
  refine List.filter_eq_nil_iff.mpr fun p hp => ?_
  have hpart := List.all_eq_true.mp h p hp
  cases hx : s.part p with
  | none => simp
  | some x => simpa [hx, imp_iff_not_or] using hpart

/-- The loss of a half that serves no partition and no live stream. -/
theorem exec_hubHalfLoss_of_idle {s : State} {half : Bool} (hhalf : s.halfOk half = true) (hserv : s.servedOnHalf half = [])
    (hlive : ∀ v, v < 32 → (s.stream v).live = false) :
    exec (.hubHalfLoss half) s =
      .next ((((s.halfOut half).equinoxAbort.serveWaiting.dropIde.event 0x0A01).noteStatus).settle) := by
  show execHubHalfLoss half s = _
  simp only [execHubHalfLoss, hhalf, Bool.not_true, Bool.false_eq_true, if_false]
  generalize hfault : List.foldl _ _ (List.map _ (List.range 16)) = t
  obtain rfl : t = s.halfOut half := hfault.symm.trans (State.faultStreams_of_none_live (s := s.halfOut half) hlive)
  generalize hfilter : List.filter _ (List.range 8) = lost
  obtain rfl : lost = [] := hfilter.symm.trans hserv
  simp only [List.foldl_nil]

theorem exec_hubHalfRestored_of_out {s : State} {half : Bool} (hhalf : s.halfOk half = false) (hrails : s.start.railsUp = true) :
    exec (.hubHalfRestored half) s = .next ((({ s with
      hub := if half then { s.hub with bOk := true } else { s.hub with aOk := true } } : State).event 0x0A02).settle) := by
  show execHubHalfRestored half s = _
  simp only [execHubHalfRestored, hhalf, hrails, Bool.not_true, Bool.false_eq_true, or_self, if_false]

/-- Settles O52: one lemma for each loss. -/
theorem unitLossResults : Obligations.UnitLossResults := by
  intro s d link n m p pass half
  exact ⟨exec_linkRetryExcess_mesh, exec_linkRetryExcess_bridge, exec_marshalRestart_of_unowned pass, exec_marshalRestart_of_single,
    exec_conductorTakeover_of_spare pass, fun hhalf hserv hlive => exec_hubHalfLoss_of_idle hhalf (State.servedOnHalf_eq_nil hserv) hlive,
    exec_hubHalfRestored_of_out⟩

end Sys2Proof.Machine
end

section
/-! SUPPORT. From the rails to READY, the host port and the I3C address (chapter 22, O54). -/

namespace Sys2Proof.Machine

/-! ### What an event leaves alone (R577 to R581) -/

/-- An event changes nothing but the Steward's records and the messages sent to the host. -/
theorem State.record_eq (s : State) (e : EventRec) : ∃ stw host, s.record e = { s with stw := stw, host := host } := by
  unfold State.record State.enterEvent
  split
  · dsimp only
    split <;> exact ⟨_, _, rfl⟩
  · exact ⟨_, _, rfl⟩

@[simp] theorem State.record_start (s : State) (e : EventRec) : (s.record e).start = s.start := by
  obtain ⟨_, _, h⟩ := s.record_eq e; rw [h]
@[simp] theorem State.record_dies (s : State) (e : EventRec) : (s.record e).dies = s.dies := by
  obtain ⟨_, _, h⟩ := s.record_eq e; rw [h]
@[simp] theorem State.record_flash (s : State) (e : EventRec) : (s.record e).flash = s.flash := by
  obtain ⟨_, _, h⟩ := s.record_eq e; rw [h]
@[simp] theorem State.record_span (s : State) (e : EventRec) : (s.record e).span = s.span := by
  obtain ⟨_, _, h⟩ := s.record_eq e; rw [h]
@[simp] theorem State.record_sec (s : State) (e : EventRec) : (s.record e).sec = s.sec := by
  obtain ⟨_, _, h⟩ := s.record_eq e; rw [h]

/-! ### Clocks (R600, R675) -/

theorem State.pll_setPll_self (s : State) (n : Nat) {u : PllUnit} (h : u ≠ PllUnit.reset) : (s.setPll n u).pll n = u :=
  SMap.get_set_self_of_ne _ _ _ h

theorem State.pll_setPll_ne (s : State) {m n : Nat} (u : PllUnit) (h : n ≠ m) : (s.setPll m u).pll n = s.pll n :=
  SMap.get_set_ne _ _ _ h

/-- A PLL group locked to the first good reference; its counts of failures stay. -/
def PllUnit.lockedTo (u : PllUnit) (a b : Bool) : PllUnit :=
  { PllUnit.reset with refA := a, refB := b, sel := !a && b, aFails := u.aFails, bFails := u.bFails }

theorem PllUnit.lockedTo_ne_reset (u : PllUnit) {a b : Bool} (h : (a || b) = true) : u.lockedTo a b ≠ PllUnit.reset := by
  intro he
  have ha : a = false := congrArg PllUnit.refA he
  have hb : b = false := congrArg PllUnit.refB he
  simp [ha, hb] at h

/-- With a good reference, locking the PLL groups in turn locks each of them from its own state. -/
theorem State.pll_lockFold (s : State) {a b : Bool} (h : (a || b) = true) (m n : Nat) :
    ((List.range m).foldl (fun t i => t.setPll i ((t.pll i).lockedTo a b)) s).pll n =
      if n < m then (s.pll n).lockedTo a b else s.pll n := by
  induction m with
  | zero => rfl
  | succ m ih =>
    rw [List.range_succ, List.foldl_append, List.foldl_cons, List.foldl_nil]
    by_cases hn : n = m
    · subst hn
      rw [State.pll_setPll_self _ _ (PllUnit.lockedTo_ne_reset _ h), ih, if_neg (lt_irrefl n), if_pos n.lt_succ_self]
    · rw [State.pll_setPll_ne _ _ hn, ih]
      congr 1
      exact propext ⟨fun hlt => by omega, fun hlt => by omega⟩

theorem State.pll_lockPlls (s : State) {a b : Bool} (h : (a || b) = true) {n : Nat} (hn : n < 24) :
    (s.lockPlls a b).pll n = (s.pll n).lockedTo a b := by
  have hfold : s.lockPlls a b = (List.range 24).foldl (fun t i => t.setPll i ((t.pll i).lockedTo a b)) s := by
    simp only [State.lockPlls, h, if_true, PllUnit.lockedTo]
  rw [hfold, State.pll_lockFold s h, if_pos hn]

/-! ### Self-tests (R651, R674) -/

theorem State.die_updDie_self (s : State) (d : Nat) {f : Die → Die} (h : f (s.die d) ≠ Die.reset) : (s.updDie d f).die d = f (s.die d) :=
  SMap.get_set_self_of_ne _ _ _ h

theorem State.retireAtStart_of_fresh {s : State} {q : CorePos} (hq : posOk q = true)
    (hnew : (s.die q.die).retired.contains (q.col, q.row) = false) :
    s.retireAtStart q = (({ s.updDie q.die (fun x => { x with retired := x.retired ++ [(q.col, q.row)] }) with
      start := { s.start with newRetired := s.start.newRetired + 1 } } : State).coreEvent 0x0206 q.die q.col q.row) := by
  simp only [State.retireAtStart, hq, hnew, Bool.not_true, Bool.false_eq_true, or_self, if_false, State.updDie_start]

theorem State.retired_retireAtStart {s : State} {q : CorePos} (hq : posOk q = true)
    (hnew : (s.die q.die).retired.contains (q.col, q.row) = false) :
    ((s.retireAtStart q).die q.die).retired = (s.die q.die).retired ++ [(q.col, q.row)] := by
  have hne : { s.die q.die with retired := (s.die q.die).retired ++ [(q.col, q.row)] } ≠ Die.reset := fun he =>
    List.append_ne_nil_of_right_ne_nil _ (List.cons_ne_nil _ _) (congrArg Die.retired he)
  have hdie := State.die_updDie_self s q.die (f := fun x => { x with retired := x.retired ++ [(q.col, q.row)] }) hne
  rw [State.retireAtStart_of_fresh hq hnew, State.die, State.coreEvent, State.record_dies]
  exact congrArg Die.retired hdie

theorem State.newRetired_retireAtStart {s : State} {q : CorePos} (hq : posOk q = true)
    (hnew : (s.die q.die).retired.contains (q.col, q.row) = false) :
    (s.retireAtStart q).start.newRetired = s.start.newRetired + 1 := by
  rw [State.retireAtStart_of_fresh hq hnew, State.coreEvent, State.record_start]

/-- A start places the gap of a column on its lowest retired row. -/
theorem Die.startGap_eq_of_lowest {x : Die} {c r : Nat} (hr : r < 17) (hret : x.retired.contains (c, r) = true)
    (hlow : ∀ i, i < r → x.retired.contains (c, i) = false) : x.startGap c = r := by
  have hfind : (List.range 17).find? (fun i => x.retired.contains (c, i)) = some r :=
    List.find?_range_eq_some.mpr ⟨hret, List.mem_range.mpr hr, fun i hi => by rw [hlow i hi]; rfl⟩
  rw [Die.startGap, hfind]
  rfl

/-- A conductor core leaves service. -/
def State.retireConductor (s : State) (n : Nat) : State := s.setConductor n { s.conductor n with inService := false }

theorem State.inService_retireConductor (s : State) (n c : Nat) :
    ((s.retireConductor n).conductor c).inService = ((s.conductor c).inService && !(c == n)) := by
  by_cases h : c = n
  · subst h
    have hne : { s.conductor c with inService := false } ≠ Conductor.reset := fun he => nomatch congrArg Conductor.inService he
    rw [State.retireConductor, State.conductor, State.setConductor, SMap.get_set_self_of_ne _ _ _ hne]
    simp
  · rw [State.retireConductor, State.conductor, State.setConductor, SMap.get_set_ne _ _ _ h, State.conductor]
    simp [h]

theorem State.inService_foldl_retireConductor (l : List Nat) (s : State) (c : Nat) :
    ((l.foldl State.retireConductor s).conductor c).inService = ((s.conductor c).inService && !l.contains c) := by
  induction l generalizing s with
  | nil => simp
  | cons n l ih => rw [List.foldl_cons, ih, State.inService_retireConductor, List.contains_cons, Bool.not_or, Bool.and_assoc]

/-- The conductor cores after their tests are those of the fold over the failing ones. -/
theorem State.conductor_testConductors (s : State) (bad : List Nat) (c : Nat) :
    (s.testConductors bad).conductor c = ((bad.filter (fun n => decide (n < 10))).foldl State.retireConductor s).conductor c := rfl

theorem State.inService_testConductors_of_bad (s : State) {bad : List Nat} {c : Nat} (hc : c < 10) (hbad : c ∈ bad) :
    ((s.testConductors bad).conductor c).inService = false := by
  rw [State.conductor_testConductors, State.inService_foldl_retireConductor]
  simp [hc, hbad]

/-! ### DRAM training (R545, R670 step 9, R676, R678) -/

/-- The failing channels of a start are replaced, spares first. -/
def State.trainAll (s : State) (failed : List (Nat × Nat)) : State :=
  (failed.filter (fun e => decide (32 ≤ e.2)) ++ failed.filter (fun e => decide (e.2 < 32))).foldl State.trainFailed s

theorem State.trainAll_channel (s : State) (st : Nat) {ch : Nat} (h : ch < 32) : s.trainAll [(st, ch)] = s.trainFailed (st, ch) := by
  simp [State.trainAll, h]

/-- Ports that are not enabled do not train. -/
theorem State.trainPorts_of_none_enabled {s : State} (h : ∀ i, i < 32 → (s.port i).enabled = false) :
    (List.range 32).foldl (fun t n => if (t.port n).enabled then t.train n else t) s = s := by
  refine List.foldlRecOn (motive := fun t => t = s) _ _ rfl fun t ht n hn => ?_
  obtain rfl : t = s := ht
  simp only [h n (List.mem_range.mp hn), Bool.false_eq_true, if_false]

section DramTrained
variable {s t : State} {failed : List (Nat × Nat)} (hphase : s.start.phase = .dram) (ht : s.trainAll failed = t)
  (hoff : ∀ i, i < 32 → (t.port i).enabled = false)
include hphase ht hoff

/-- After DRAM training with no port enabled the module waits for its maps; an erasure that is due scrubs first. -/
theorem exec_dramTrained_of_ports_off :
    let u : State := { t with start := { t.start with phase := .maps } }
    exec (.dramTrained failed) s =
      .next (if u.sec.eraseDue = true ∧ u.start.fuseFailed = false then u.scrubAll.startErase else u).noteStatus := by
  intro u
  show execDramTrained failed s = _
  unfold State.trainAll at ht
  have hports := State.trainPorts_of_none_enabled (s := u) hoff
  simp only [execDramTrained, hphase, ne_eq, not_true_eq_false, if_false, ht, hports, ite_self, u]

theorem exec_dramTrained_of_no_erasure (hdue : t.sec.eraseDue = false) :
    exec (.dramTrained failed) s = .next ({ t with start := { t.start with phase := .maps } } : State).noteStatus := by
  have hno : ¬ (t.sec.eraseDue = true ∧ t.start.fuseFailed = false) := fun h => Bool.false_ne_true (hdue.symm.trans h.1)
  exact (exec_dramTrained_of_ports_off hphase ht hoff).trans (congrArg (fun v => Host.Outcome.next (State.noteStatus v)) (if_neg hno))

theorem exec_dramTrained_of_erasure (hdue : t.sec.eraseDue = true) (hfuse : t.start.fuseFailed = false) :
    exec (.dramTrained failed) s =
      .next ({ t with start := { t.start with phase := .maps } } : State).scrubAll.startErase.noteStatus :=
  (exec_dramTrained_of_ports_off hphase ht hoff).trans (congrArg (fun v => Host.Outcome.next (State.noteStatus v)) (if_pos ⟨hdue, hfuse⟩))
end DramTrained

/-- The reserve of a channel is not asked for at a cold start. -/
theorem State.reserveGone_of_cold {s : State} (c : Nat) (h : s.start.warm = false) : s.reserveGone c = s :=
  if_neg fun hw => by simp [h] at hw

/-- A channel is served by a spare from now on, and no longer poisoned. -/
def State.useSpare (s : State) (st ch k : Nat) : State :=
  let t := s.setChan st ch { s.chan st ch with spare := some k, retired := true }
  { t with mem := { t.mem with poison := t.mem.poison.filter (fun p => p.1 / 2 ^ 25 != chanKey st ch) } }

/-- At a cold start a channel that fails training takes the first spare that is free, which is logged (R676). -/
theorem State.trainFailed_of_free_spare {s : State} {st ch k : Nat} (hst : st < 6) (hch : ch < 32) (hnone : (s.chan st ch).spare = none)
    (hcold : s.start.warm = false)
    (hfree : [32, 33].find? (fun j => !((s.setChan st ch { s.chan st ch with spare := none }).sparesUsed st).contains j) = some k) :
    s.trainFailed (st, ch) = (s.useSpare st ch k).record { EventRec.plain 0x0303 with unit := chanUnit st ch } := by
  have hin : ¬ (6 ≤ st ∨ 34 ≤ ch) := by omega
  simp only [State.trainFailed, if_neg hin, hch, if_true, hnone, Option.isSome_none, Bool.false_eq_true, if_false, hfree]
  exact congrArg (State.record · { EventRec.plain 0x0303 with unit := chanUnit st ch })
    (State.reserveGone_of_cold (s := s.useSpare st ch k) ch hcold)

/-! ### Maps and READY (R353, R545, R679) -/

/-- At a start the maps are present, rebuilt unless a warm start reuses them. -/
theorem exec_flashMapRebuilt_at_start {s : State} (rebuilt : Bool) (hphase : s.start.phase = .maps) :
    ∃ t : State, exec (.flashMapRebuilt rebuilt) s = .next t ∧ t.flash.mapsReady = true ∧
      t.start.mapRebuilt = (rebuilt || !s.start.warm) ∧
      t.flash.pairs = s.flash.pairs.map (fun e => (e.1, { e.2 with mapLost := false, map := e.2.remade })) := by
  let u : State := ({ s with start := { s.start with mapRebuilt := rebuilt || !s.start.warm } } : State).mapsPresent
  refine ⟨if rebuilt || !s.start.warm then u.event 0x0404 else u, congrArg Host.Outcome.next (if_pos hphase), ?_⟩
  split <;> simp [State.event, State.mapsPresent, u]

/-- What READY waits for (R545, R679). -/
def State.readyDue (s : State) : Prop :=
  s.start.phase = .maps ∧ s.flash.mapsReady = true ∧ s.stw.running = true ∧ (s.hub.aOk = true ∨ s.hub.bOk = true) ∧
    s.sec.eraseDue = false

theorem exec_readySet_of_due {s : State} (ms : Nat) (h : s.readyDue) :
    exec (.readySet ms) s = .next { s with
      start := { s.start with phase := .ready, startMs := min ms 0xFFFF }
      tb := { s.tb with now := if s.start.warm then s.tb.now else 0 } } := by
  obtain ⟨hphase, hmaps, hrun, hhub, herase⟩ := h
  have hhub' : (s.hub.aOk || s.hub.bOk) = true := by simpa using hhub
  show execReadySet ms s = _
  simp only [execReadySet, hphase, hmaps, hrun, hhub', herase, ne_eq, not_true_eq_false, Bool.not_true, Bool.false_eq_true, or_self,
    if_false]

theorem exec_readySet_of_not_due {s : State} (ms : Nat) (h : ¬ s.readyDue) : exec (.readySet ms) s = .next s := by
  show execReadySet ms s = _
  unfold execReadySet
  rw [if_pos]
  by_contra hc
  simp only [not_or, ne_eq, not_not, Bool.not_eq_true', Bool.not_eq_false, Bool.or_eq_true, Bool.not_eq_true] at hc
  exact h hc

/-! ### The host port and the I3C address (R20, R35, R537, R677, R702) -/

theorem exec_hostPortL0_of_up {s : State} (wide : Bool) (hrails : s.start.railsUp = true) (hperst : s.start.perstHigh = true)
    (hheld : s.start.phase ≠ .held) :
    exec (.hostPortL0 wide) s = .next { s with host := { s.host with
      linkUp := true, linkWidth := if wide = true ∧ s.hub.aOk = true ∧ s.hub.bOk = true then 4 else 3 } } := by
  show execHostPortL0 wide s = _
  simp [execHostPortL0, hrails, hperst, hheld, and_assoc]

theorem exec_hostPortL0_of_down {s : State} (wide : Bool) (h : s.start.perstHigh = false ∨ s.start.railsUp = false) :
    exec (.hostPortL0 wide) s = .next s := by
  show execHostPortL0 wide s = _
  rcases h with h | h <;> simp [execHostPortL0, h]

theorem exec_hostLinkDown_of_up {s : State} (h : s.host.linkUp = true) :
    exec .hostLinkDown s = .next (({ s with host := { s.host with linkUp := false, linkWidth := 0 } } : State).dropIde) :=
  congrArg Host.Outcome.next (if_pos h)

theorem exec_hostLinkDown_of_down {s : State} (h : s.host.linkUp = false) : exec .hostLinkDown s = .next s :=
  congrArg Host.Outcome.next (if_neg (by simp [h]))

theorem exec_sriovEnable_of_up {s : State} (on : Bool) (hlink : s.host.linkUp = true) (hrails : s.start.railsUp = true) :
    exec (.sriovEnable on) s = .next { s with host := { s.host with sriov := on } } :=
  congrArg Host.Outcome.next (if_pos ⟨hlink, hrails⟩)

theorem exec_i3cSetdasa_of_free {s : State} (addr : Nat) (haux : s.start.auxGood = true) (hfree : s.mgmt.i3cAddr = none) :
    exec (.i3cSetdasa 0x3A addr) s = .next { s with mgmt := { s.mgmt with i3cAddr := some addr } } :=
  congrArg Host.Outcome.next (if_pos ⟨haux, rfl, hfree⟩)

theorem exec_i3cSetdasa_of_other {s : State} {static : Nat} (addr : Nat) (h : static ≠ 0x3A) :
    exec (.i3cSetdasa static addr) s = .next s :=
  congrArg Host.Outcome.next (if_neg fun ⟨_, hstatic, _⟩ => h hstatic)

theorem exec_i3cEntdaa_of_free {s : State} (addr : Nat) (haux : s.start.auxGood = true) (hfree : s.mgmt.i3cAddr = none) :
    exec (.i3cEntdaa addr) s = .next { s with mgmt := { s.mgmt with i3cAddr := some addr } } :=
  congrArg Host.Outcome.next (if_pos ⟨haux, hfree⟩)

theorem exec_i3cEntdaa_of_taken {s : State} {x : Nat} (addr : Nat) (h : s.mgmt.i3cAddr = some x) : exec (.i3cEntdaa addr) s = .next s :=
  congrArg Host.Outcome.next (if_neg fun ⟨_, hfree⟩ => nomatch h.symm.trans hfree)

/-- Settles O54: every clause is the lemma of its step; the cases left here are the clauses that combine several. -/
theorem bringUpResults : Obligations.BringUpResults := by
  refine ⟨fun s n ms a b rebuilt bad => ⟨fun hab hn => ?locks, fun q hq hnew => ?retires, fun x c r => Die.startGap_eq_of_lowest,
    fun hphase hoff => ?trained, fun c => State.inService_testConductors_of_bad s, rfl, rfl,
    fun st ch k hphase hst hch hoff hnone hcold hdue hfree => ?spared, exec_flashMapRebuilt_at_start rebuilt,
    fun hphase hmaps hrun hhub hdue => exec_readySet_of_due ms ⟨hphase, hmaps, hrun, hhub, hdue⟩, fun ha hb => ?noHub,
    fun hmaps => ?noMaps, fun hdue => ?erasing⟩, fun s wide on static addr => ?host⟩
  case locks =>
    have href : (a || b) = true := by simpa using hab
    have hsel : (!a && b) = !a := by
      cases a with
      | true => rfl
      | false => simpa using hab
    rw [State.pll_lockPlls s href hn]
    exact ⟨rfl, rfl, rfl, hsel, rfl, rfl⟩
  case retires =>
    exact ⟨State.retired_retireAtStart hq hnew, State.newRetired_retireAtStart hq hnew, State.retireAtStart_of_fresh hq hnew⟩
  case trained =>
    exact ⟨exec_dramTrained_of_no_erasure (failed := []) hphase rfl hoff, exec_dramTrained_of_erasure (failed := []) hphase rfl hoff⟩
  case spared =>
    have htrain := (s.trainAll_channel st hch).trans (State.trainFailed_of_free_spare hst hch hnone hcold hfree)
    refine exec_dramTrained_of_no_erasure hphase htrain (fun i hi => ?_) ?_
    · rw [State.port, State.record_span]
      exact hoff i hi
    · rw [State.record_sec]
      exact hdue
  case noHub => exact exec_readySet_of_not_due ms fun ⟨_, _, _, hhub, _⟩ => by simp [ha, hb] at hhub
  case noMaps => exact exec_readySet_of_not_due ms fun ⟨_, hready, _⟩ => by simp [hmaps] at hready
  case erasing => exact exec_readySet_of_not_due ms fun ⟨_, _, _, _, hnot⟩ => by simp [hdue] at hnot
  case host =>
    exact ⟨exec_hostPortL0_of_up wide, exec_hostPortL0_of_down wide, exec_hostLinkDown_of_up, exec_hostLinkDown_of_down,
      exec_sriovEnable_of_up on, exec_i3cSetdasa_of_free addr, exec_i3cSetdasa_of_other addr, exec_i3cEntdaa_of_free addr,
      fun _ => exec_i3cEntdaa_of_taken addr⟩

end Sys2Proof.Machine
end

section
/-! SUPPORT. The lane instructions, the accumulator moves and QNT (R50, R63 to R70, R113, R125, R166 to R170, R178, O6). -/

namespace Sys2Proof.Machine

/-! ### A command that issues an instruction of its core alone -/

section Issue
variable {s : State} {op : TileOp} {i : Instr} {f : Core → TileWord → Cu.Res}
  (hi : exec i s = .next (s.issue op f)) (h : Issues s op)
include hi h

theorem exec_of_issue_done {d : Core} (hf : f (s.coreOf op) op.w = .done d) : exec i s = .next (s.leaves op d) := by
  rw [hi, issue_eq h, hf, settleRes_done]

theorem exec_of_issue_held (hf : f (s.coreOf op) op.w = .held) : exec i s = .next s := by
  rw [hi, issue_eq h, hf, settleRes_held]
end Issue

namespace Cu

/-! ### Fields (R155, R156) -/

theorem modBits_eq (w : TileWord) (hi lo : Nat) : modBits w hi lo = w.md.toNat / 2 ^ lo % 2 ^ (hi + 1 - lo) := rfl
theorem immBits_eq (w : TileWord) (hi lo : Nat) : immBits w hi lo = w.imm.toNat / 2 ^ lo % 2 ^ (hi + 1 - lo) := rfl

@[simp] theorem modBits_0_0 (w : TileWord) : modBits w 0 0 = w.md.toNat % 2 := by simp [modBits_eq]
@[simp] theorem modBits_1_1 (w : TileWord) : modBits w 1 1 = w.md.toNat / 2 % 2 := by simp [modBits_eq]

theorem md_eq_zero_of_usesOnly {w : TileWord} {u1 u2 u3 u4 : Bool} {imm : BitVec 32}
    (hu : usesOnly w u1 u2 u3 u4 0 imm = true) : w.md = 0 := by
  simp only [usesOnly, Bool.and_eq_true] at hu
  obtain ⟨⟨_, hmd⟩, _⟩ := hu
  rwa [show ~~~(0 : BitVec 8) = BitVec.allOnes 8 from rfl, BitVec.and_allOnes, beq_iff_eq] at hmd

/-- Where an instruction uses no modifier, none that it might use is set. -/
theorem usesOnly_of_no_md {w : TileWord} {u1 u2 u3 u4 : Bool} {imm : BitVec 32}
    (hu : usesOnly w u1 u2 u3 u4 0 imm = true) (md : BitVec 8) : usesOnly w u1 u2 u3 u4 md imm = true := by
  have hmd := md_eq_zero_of_usesOnly hu
  simpa [usesOnly, hmd] using hu

/-- A legal instruction that writes all of a vector register goes on. -/
theorem legal_next_setV {c : Core} (h : GoesOn c) {ok : Bool} (hok : ok = true) (u : Nat) (i : BitVec 4) (ws : List Word) :
    legal ok u (next (setV c i ws)) = .done (advance (setV c i ws)) := by
  rw [legal_pos hok, next_setV h]

/-! ### Lane arithmetic (R167) -/

theorem halves_replicate (n : Nat) (h : Half) : halves (List.replicate n (h ++ h)) = List.replicate (n * 2) h := by
  have hlo : (h ++ h).extractLsb' 0 16 = h := BitVec.extractLsb'_append_eq_right
  have hhi : (h ++ h).extractLsb' 16 16 = h := BitVec.extractLsb'_append_eq_left
  rw [halves, List.flatMap_replicate, hlo, hhi, ← List.flatten_replicate_replicate]
  rfl

theorem operandB_fp32 (c : Core) (w : TileWord) :
    operandB c w false = if w.md.toNat / 2 % 2 = 1 then List.replicate 64 (x c w.f3) else v c w.f3 := by
  simp only [operandB, modBits_1_1, Bool.false_eq_true, if_false]

theorem halves_operandB_bf16 (c : Core) (w : TileWord) :
    halves (operandB c w true) =
      if w.md.toNat / 2 % 2 = 1 then List.replicate 128 ((x c w.f3).extractLsb' 0 16) else halves (v c w.f3) := by
  simp only [operandB, modBits_1_1, if_true, apply_ite halves, halves_replicate]

/-- What VCVT makes of Va and Vb, by its kind. -/
def cvtWords (kind : Nat) (a b : List Word) : List Word :=
  match kind with
  | 0 => ofHalves (a.map Float.toBf ++ b.map Float.toBf)
  | 1 => ((halves a).take 64).map Float.widen
  | 2 => ((halves a).drop 64).map Float.widen
  | 3 => a.map Float.ofInt32
  | _ => a.map Float.toInt32

/-- What VRED leaves in lane 0, by its kind. -/
def redResult (kind : Nat) (xs : List Word) : Word :=
  if kind = 0 then Float.foldSum xs else if kind = 1 then foldBy Float.maxF xs else foldBy Float.minF xs

theorem redValues_eq (c : Core) (w : TileWord) :
    redValues c w = if w.md.toNat % 2 = 1 then (halves (v c w.f2)).map Float.widen else v c w.f2 := by
  rw [redValues, modBits_0_0]

section Lanes
variable {c : Core} {w : TileWord} (h : GoesOn c)
include h

section Two
variable (hu : usesOnly w true true true false 0x03#8 0 = true) (f : Word → Word → Word) (g : Half → Half → Half)
include hu

theorem lanes2_of_fp32 (hm : w.md.toNat % 2 = 0) : lanes2 c w f g = .done (advance (setV c w.f1
    (List.zipWith f (v c w.f2) (if w.md.toNat / 2 % 2 = 1 then List.replicate 64 (x c w.f3) else v c w.f3)))) := by
  have hbf : decide (modBits w 0 0 = 1) = false := by simp [hm]
  unfold lanes2
  simp only [hbf, operandB_fp32, Bool.false_eq_true, if_false]
  exact legal_next_setV h hu _ _ _

theorem lanes2_of_bf16 (hm : w.md.toNat % 2 = 1) : lanes2 c w f g = .done (advance (setV c w.f1
    (ofHalves (List.zipWith g (halves (v c w.f2))
      (if w.md.toNat / 2 % 2 = 1 then List.replicate 128 ((x c w.f3).extractLsb' 0 16) else halves (v c w.f3)))))) := by
  have hbf : decide (modBits w 0 0 = 1) = true := by simp [hm]
  unfold lanes2
  simp only [hbf, halves_operandB_bf16, if_true]
  exact legal_next_setV h hu _ _ _
end Two

theorem vfma_of_fp32 (hu : usesOnly w true true true true 0x03#8 0 = true) (hm : w.md.toNat % 2 = 0) :
    vfma c w = .done (advance (setV c w.f1 (zip3 Float.fma (v c w.f2)
      (if w.md.toNat / 2 % 2 = 1 then List.replicate 64 (x c w.f3) else v c w.f3) (v c w.f4)))) := by
  have hbf : decide (modBits w 0 0 = 1) = false := by simp [hm]
  unfold vfma
  simp only [hbf, operandB_fp32, Bool.false_eq_true, if_false]
  exact legal_next_setV h hu _ _ _

theorem vfma_of_bf16 (hu : usesOnly w true true true true 0x03#8 0 = true) (hm : w.md.toNat % 2 = 1) :
    vfma c w = .done (advance (setV c w.f1 (ofHalves (zip3 bfFma (halves (v c w.f2))
      (if w.md.toNat / 2 % 2 = 1 then List.replicate 128 ((x c w.f3).extractLsb' 0 16) else halves (v c w.f3))
      (halves (v c w.f4)))))) := by
  have hbf : decide (modBits w 0 0 = 1) = true := by simp [hm]
  unfold vfma
  simp only [hbf, halves_operandB_bf16, if_true]
  exact legal_next_setV h hu _ _ _

/-! ### Conversions, the split and the reduction (R50, R93, R167, R168) -/

theorem vcvt_of_kind {k : Nat} (hk : modBits w 3 0 = k) (hle : k ≤ 4)
    (hu : usesOnly w true true (decide (k = 0)) false 0x0F#8 0 = true) :
    vcvt c w = .done (advance (setV c w.f1 (cvtWords k (v c w.f2) (v c w.f3)))) := by
  subst hk
  exact legal_next_setV h (by rw [hu, decide_eq_true hle, Bool.and_self]) _ _ _

theorem vsplit_of_legal (hu : usesOnly w true true false false 0 0 = true) :
    vsplit c w = .done (advance (setV c w.f1 (ofHalves ((v c w.f2).map Float.toBf ++
      List.zipWith (fun z h => Float.toBf (Float.sub z (Float.widen h))) (v c w.f2) ((v c w.f2).map Float.toBf))))) :=
  legal_next_setV h hu _ _ _

theorem vred_of_kind (hu : usesOnly w true true false false 0x0D#8 0 = true) (hk : w.md.toNat / 4 ≤ 2) :
    vred c w = .done (advance (setV c w.f1 (redResult (w.md.toNat / 4) (redValues c w) :: List.replicate 63 0#32))) := by
  have hop : modBits w 3 2 = w.md.toNat / 4 := by
    rw [modBits_eq]
    exact Nat.mod_eq_of_lt (by omega)
  unfold vred
  simp only [hop]
  exact legal_next_setV h (by rw [hu, decide_eq_true hk, Bool.and_self]) _ _ _

end Lanes

/-! ### Accumulator moves (R113, R125, R166, R167, R178) -/

/-- The rows of FLUSH and ACLR can be taken: there is one, all lie in accumulator memory, and no pass in flight owes one. -/
structure RowsReady (c : Core) (r0 r : Nat) : Prop where
  pos : 0 < r
  range : r0 + r ≤ 1024
  free : ∀ i ∈ List.range r, rowBusy c (r0 + i) = false

theorem RowsReady.accRange_eq {c : Core} {r0 r : Nat} (h : RowsReady c r0 r) (k : Res) : accRange r0 r k = k := by
  obtain ⟨hpos, hrange, _⟩ := h
  rw [accRange, if_neg (by omega), if_neg (by omega)]

theorem RowsReady.rowsFree_eq {c : Core} {r0 r : Nat} (h : RowsReady c r0 r) (k : Res) : rowsFree c r0 r k = k := by
  rw [rowsFree, if_neg]
  simpa using h.free

/-- A fold of steps that leave the sequencer alone leaves it alone. -/
theorem foldl_seq {α : Type} {f : Core → α → Core} (hf : ∀ d i, (f d i).seq = d.seq) (is : List α) (c : Core) :
    (is.foldl f c).seq = c.seq := by
  induction is generalizing c with
  | nil => rfl
  | cons i is ih => rw [List.foldl_cons, ih, hf]

/-- Goes on after a change that leaves the sequencer alone. -/
theorem next_of_seq_eq {c d : Core} (h : GoesOn c) (hd : d.seq = c.seq) : next d = .done (advance d) :=
  next_of h (congrArg _ hd) (congrArg _ hd) (congrArg _ hd)

/-- The offset of an accumulator row (R167). -/
theorem ea_low10 (c : Core) (w : TileWord) (i : BitVec 4) :
    ea c i (immBits w 9 0) = (x c i).toNat + w.imm.toNat % 0x400 := by simp [ea, immBits_eq]

section Row
variable {c : Core} {w : TileWord} {r : Nat} (hr : (x c w.f2).toNat + w.imm.toNat % 0x400 = r) (hlt : r < 1024)
include hr hlt

theorem accRow_of_free (hfree : rowBusy c r = false) (k : Nat → Res) : accRow c w k = k r := by
  unfold accRow
  rw [ea_low10, hr, if_neg (by omega), hfree, if_neg Bool.false_ne_true]

theorem accRow_of_busy (hbusy : rowBusy c r = true) (k : Nat → Res) : accRow c w k = .held := by
  unfold accRow
  rw [ea_low10, hr, if_neg (by omega), if_pos hbusy]

variable (hu : usesOnly w true true false false 0 0x3FF#32 = true)
include hu

theorem vlda_of_free (h : GoesOn c) (hfree : rowBusy c r = false) :
    vlda c w = .done (advance (setV (rowRead c r).2 w.f1 (rowRead c r).1)) := by
  rw [vlda, legal_pos hu, accRow_of_free hr hlt hfree]
  exact next_setV (goesOn_congr (by simp) (by simp) (by simp) h) _ _

theorem vsta_of_free (h : GoesOn c) (hfree : rowBusy c r = false) :
    vsta c w = .done (advance (rowWrite c r (v c w.f1))) := by
  rw [vsta, legal_pos hu, accRow_of_free hr hlt hfree]
  exact next_of_seq_eq h (rowWrite_seq c r _)

theorem vlda_of_busy (hbusy : rowBusy c r = true) : vlda c w = .held := by
  rw [vlda, legal_pos hu, accRow_of_busy hr hlt hbusy]

theorem vsta_of_busy (hbusy : rowBusy c r = true) : vsta c w = .held := by
  rw [vsta, legal_pos hu, accRow_of_busy hr hlt hbusy]
end Row

section Rows
variable {c : Core} {w : TileWord} (h : GoesOn c)
include h

theorem aclr_of_no_rows (hu : usesOnly w false true true false 0 0 = true) (hr : (x c w.f3).toNat = 0) :
    aclr c w = .done (advance c) := by
  rw [aclr, legal_pos hu, if_pos hr, next_eq h]

theorem aclr_of_rowsReady (hu : usesOnly w false true true false 0 0 = true)
    (hrows : RowsReady c (x c w.f2).toNat (x c w.f3).toNat) :
    aclr c w = .done (advance ((List.range (x c w.f3).toNat).foldl
      (fun d i => rowWrite d ((x c w.f2).toNat + i) (List.replicate 64 0#32)) c)) := by
  rw [aclr, legal_pos hu, if_neg hrows.pos.ne', hrows.accRange_eq, hrows.rowsFree_eq]
  exact next_of_seq_eq h (foldl_seq (fun d i => rowWrite_seq d _ _) _ c)

theorem flush_of_no_rows (hu : usesOnly w true true true false 0 0x00FFFFFF#32 = true) (hr : (x c w.f3).toNat = 0) :
    flush c w = .done (advance c) := by
  rw [flush, legal_pos hu, if_pos hr, next_eq h]

theorem flush_of_rowsReady {bf : Bool} {r dst n : Nat} (hu : usesOnly w true true true false 0 0x00FFFFFF#32 = true)
    (hbf : decide (w.imm.toNat / 0x400000 % 2 = 1) = bf) (hr : (x c w.f3).toNat = r)
    (hrows : RowsReady c (x c w.f2).toNat r) (hdst : (x c w.f1).toNat + w.imm.toNat % 0x400000 = dst)
    (hn : (if bf then 256 * (r / 2) + 128 * (r % 2) else 256 * r) = n) (halign : dst % 256 = 0) (hend : dst + n ≤ 0x400000)
    (hacc : access c dst n = .ok) :
    flush c w = .done (advance ((List.range r).foldl
      (fun d i => flushRow bf (decide (w.imm.toNat / 0x800000 % 2 = 1)) dst d (x c w.f2).toNat i) c)) := by
  have h22 : immBits w 22 22 = w.imm.toNat / 0x400000 % 2 := by simp [immBits_eq]
  have h23 : immBits w 23 23 = w.imm.toNat / 0x800000 % 2 := by simp [immBits_eq]
  subst hbf hn
  simp only [decide_eq_true_eq] at hend hacc
  unfold flush
  simp only [h22, h23, ea_low22, hdst, hr]
  rw [legal_pos hu, if_neg hrows.pos.ne', hrows.accRange_eq, spadRange_pos halign hend, hrows.rowsFree_eq, withAccess_pos hacc]
  exact next_of_seq_eq h (foldl_seq (fun d i => flushRow_seq _ _ _ d _ i) _ c)
end Rows

/-! ### QNT (R63 to R70, R169, R170) -/

section Quantize
variable (c : Core) (w : TileWord)

/-- The levels of the grid slot that a QNT names. -/
def qntLevels : List Half := SMap.get [] c.run.grids (w.md.toNat / 8 % 16)

/-- The bits of a code, by the kind of the QNT. -/
def qntWidth : Nat := if w.md.toNat % 4 = 0 then 4 else if w.md.toNat % 4 = 1 then 3 else 8

/-- The 128 values of the group, those of Va first. -/
def qntValues : List Word := v c w.f2 ++ v c w.f3

/-- The scale that a QNT uses: derived from the group, or given in Vc. -/
def qntScale : Half :=
  if decide (w.md.toNat / 4 % 2 = 1) then
    Float.derivedScale (if w.md.toNat % 4 = 2 then none else some (qntLevels c w)) (qntValues c w)
  else ((v c w.f4).headD 0).extractLsb' 0 16

/-- The codes of the group, lowest lane first. -/
def qntCodes : List Float.Code :=
  (qntValues c w).map (fun z =>
    if w.md.toNat % 4 = 2 then Float.qntE4 (qntScale c w) z else Float.qntGrid (qntLevels c w) (qntScale c w) z)

/-- The words of the result: the packed codes, the scale in the top two bytes. -/
def qntWords : List Word :=
  (List.range 64).map (fun i => BitVec.ofNat 32
    ((packCodes (qntWidth w) ((qntCodes c w).map (fun k => k.code)) + (qntScale c w).toNat * 2 ^ 2032) / 2 ^ (32 * i)))

/-- The slot that a QNT names fits its kind: none for E4M3, else a grid of the width of the code. -/
def qntSlotFits : Prop :=
  if w.md.toNat % 4 = 2 then w.md.toNat / 8 % 16 = 0 else (qntLevels c w).length = 2 ^ qntWidth w

end Quantize

theorem qnt_of_slot_fits {c : Core} {w : TileWord} (h : GoesOn c)
    (hu : usesOnly w true true true (!decide (w.md.toNat / 4 % 2 = 1)) 0x7F#8 0xFF#32 = true) (hk : w.md.toNat % 4 ≤ 2)
    (hix : w.imm.toNat % 256 < c.run.qstatCount) (hslot : qntSlotFits c w) :
    qnt c w = .done (advance (qstatHold (setV c w.f1 (qntWords c w))
      (qstatOf (w.imm.toNat % 256) (qntCodes c w) (decide (w.md.toNat % 4 = 2))))) := by
  have hkind : modBits w 1 0 = w.md.toNat % 4 := by simp [modBits_eq]
  have hderived : modBits w 2 2 = w.md.toNat / 4 % 2 := by simp [modBits_eq]
  have hgrid : modBits w 6 3 = w.md.toNat / 8 % 16 := by simp [modBits_eq]
  have hindex : immBits w 7 0 = w.imm.toNat % 256 := by simp [immBits_eq]
  unfold qnt
  simp only [hkind, hderived, hgrid, hindex]
  rw [legal_pos (by rw [hu, decide_eq_true hk, decide_eq_true hix]; rfl)]
  exact (if_neg (not_not_intro hslot)).trans (next_qstatHold h _ _ _)

end Cu

/-! ### O6 -/

/-- Settles O6: each instruction passes its checks, and the issue leaves what the lemma of the instruction says of its core. -/
theorem laneInstructionResults : Obligations.LaneInstructionResults := by
  unfold Obligations.LaneInstructionResults
  refine ⟨fun s op h hg => ⟨fun hu hm => ?fp32, fun hu hm => ?bf16, fun hu => ⟨fun hm => ?fma32, fun hm => ?fma16⟩,
      fun hu => ?convert, fun hu => ?pack, fun hu => ?split, fun hu hk => ?reduce⟩,
    fun s op h hg => ⟨fun hu => ⟨fun hr => ?flushNone, fun hr hle halign hend hfree hacc => ?flush⟩,
      fun hu => ⟨fun hr => ?clearNone, fun hr hle hfree => ?clear⟩,
      fun hu hlt => ⟨fun hfree => ?moves, fun hbusy => ?waits⟩⟩,
    fun s op h hg hu hk hix hslot => ?quantize⟩
  case fp32 =>
    have hlanes (f g) := Cu.lanes2_of_fp32 hg hu f g hm
    exact ⟨exec_of_issue_done rfl h (hlanes Float.add Cu.bfAdd), exec_of_issue_done rfl h (hlanes Float.sub Cu.bfSub),
      exec_of_issue_done rfl h (hlanes Float.mul Cu.bfMul), exec_of_issue_done rfl h (hlanes Float.maxF Cu.bfMax),
      exec_of_issue_done rfl h (hlanes Float.minF Cu.bfMin)⟩
  case bf16 =>
    have hlanes (f g) := Cu.lanes2_of_bf16 hg hu f g hm
    exact ⟨exec_of_issue_done rfl h (hlanes Float.add Cu.bfAdd), exec_of_issue_done rfl h (hlanes Float.sub Cu.bfSub),
      exec_of_issue_done rfl h (hlanes Float.mul Cu.bfMul), exec_of_issue_done rfl h (hlanes Float.maxF Cu.bfMax),
      exec_of_issue_done rfl h (hlanes Float.minF Cu.bfMin)⟩
  case fma32 => exact exec_of_issue_done rfl h (Cu.vfma_of_fp32 hg hu hm)
  case fma16 => exact exec_of_issue_done rfl h (Cu.vfma_of_bf16 hg hu hm)
  case convert =>
    have hkind (k : BitVec 8) (hm : op.w.md = k) : Cu.modBits op.w 3 0 = k.toNat % 16 := by simp [Cu.modBits_eq, hm]
    exact ⟨fun hm => exec_of_issue_done rfl h (Cu.vcvt_of_kind (k := 1) hg (hkind 1 hm) (by decide) hu),
      fun hm => exec_of_issue_done rfl h (Cu.vcvt_of_kind (k := 2) hg (hkind 2 hm) (by decide) hu),
      fun hm => exec_of_issue_done rfl h (Cu.vcvt_of_kind (k := 3) hg (hkind 3 hm) (by decide) hu),
      fun hm => exec_of_issue_done rfl h (Cu.vcvt_of_kind (k := 4) hg (hkind 4 hm) (by decide) hu)⟩
  case pack =>
    have hkind : Cu.modBits op.w 3 0 = 0 := by simp [Cu.modBits_eq, Cu.md_eq_zero_of_usesOnly hu]
    exact exec_of_issue_done rfl h (Cu.vcvt_of_kind (k := 0) hg hkind (by decide) (Cu.usesOnly_of_no_md hu 0x0F#8))
  case split => exact exec_of_issue_done rfl h (Cu.vsplit_of_legal hg hu)
  case reduce =>
    have hred := exec_of_issue_done (i := .tVred op) rfl h (Cu.vred_of_kind hg hu hk)
    rw [Cu.redValues_eq] at hred
    exact hred
  case flushNone => exact exec_of_issue_done rfl h (Cu.flush_of_no_rows hg hu hr)
  case flush => exact exec_of_issue_done rfl h (Cu.flush_of_rowsReady hg hu rfl rfl ⟨hr, hle, hfree⟩ rfl rfl halign hend hacc)
  case clearNone => exact exec_of_issue_done rfl h (Cu.aclr_of_no_rows hg hu hr)
  case clear => exact exec_of_issue_done rfl h (Cu.aclr_of_rowsReady hg hu ⟨hr, hle, hfree⟩)
  case moves =>
    exact ⟨exec_of_issue_done rfl h (Cu.vlda_of_free rfl hlt hu hg hfree),
      exec_of_issue_done rfl h (Cu.vsta_of_free rfl hlt hu hg hfree)⟩
  case waits =>
    exact ⟨exec_of_issue_held rfl h (Cu.vlda_of_busy rfl hlt hu hbusy),
      exec_of_issue_held rfl h (Cu.vsta_of_busy rfl hlt hu hbusy)⟩
  case quantize => exact exec_of_issue_done rfl h (Cu.qnt_of_slot_fits hg hu hk hix hslot)

end Sys2Proof.Machine
end

section
/-! SUPPORT. The registers and the bank power of one core (R87, R103 to R118, R141 to R148, R311, O13). -/

namespace Sys2Proof.Machine

namespace Cu

/-! ### A write of BANK_PWR (R116, R117) -/

/-- BANK_PWR takes its value by waking, one after another, the OFF banks whose bit is set (R116). -/
def wakeBank (mask : BitVec 16) (c : Core) (b : Nat) : Core :=
  if mask.getLsbD b && bank c b == .off then setBank c b .waking else c

theorem setBankPwr_eq (c : Core) (mask : BitVec 16) : setBankPwr c mask =
    (List.range 16).foldl (wakeBank mask) { c with regs := { c.regs with bankPwr := mask, bankPwrNext := none } } := rfl

theorem bank_setBank_waking (c : Core) (a b : Nat) :
    bank (setBank c a .waking) b = if b = a then .waking else bank c b := by
  unfold bank setBank
  split
  · next hab => exact hab ▸ SMap.get_set_self_of_ne .off c.regs.banks b (x := .waking) (by decide)
  · next hab => exact SMap.get_set_ne .off c.regs.banks .waking hab

theorem bank_wakeBank (mask : BitVec 16) (c : Core) (a b : Nat) :
    bank (wakeBank mask c a) b = if b = a ∧ mask.getLsbD b = true ∧ bank c b = .off then .waking else bank c b := by
  unfold wakeBank
  split
  · next hwakes =>
    rw [bank_setBank_waking]
    simp only [Bool.and_eq_true, beq_iff_eq] at hwakes
    grind
  · next hstays =>
    simp only [Bool.and_eq_true, beq_iff_eq] at hstays
    grind

/-- A bank that has begun to wake is no longer OFF, so a list of banks may name it again. -/
theorem bank_foldl_wakeBank (mask : BitVec 16) (bs : List Nat) (c : Core) (b : Nat) :
    bank (bs.foldl (wakeBank mask) c) b =
      if b ∈ bs ∧ mask.getLsbD b = true ∧ bank c b = .off then .waking else bank c b := by
  induction bs generalizing c with
  | nil => simp
  | cons a bs ih =>
    rw [List.foldl_cons, ih, bank_wakeBank]
    grind

/-- Waking banks changes the states of banks and nothing else. -/
theorem foldl_wakeBank_frame (mask : BitVec 16) (bs : List Nat) (c : Core) :
    ∃ m : SMap BankState, bs.foldl (wakeBank mask) c = { c with regs := { c.regs with banks := m } } := by
  induction bs generalizing c with
  | nil => exact ⟨c.regs.banks, rfl⟩
  | cons a bs ih =>
    obtain ⟨m, hm⟩ := ih (wakeBank mask c a)
    refine ⟨m, hm.trans ?_⟩
    unfold wakeBank
    split <;> rfl

theorem bank_setBankPwr {c : Core} {mask : BitVec 16} {b : Nat} (hb : b < 16) :
    bank (setBankPwr c mask) b = if mask.getLsbD b = true ∧ bank c b = .off then .waking else bank c b := by
  rw [setBankPwr_eq, bank_foldl_wakeBank]
  simp only [List.mem_range, hb, true_and]
  rfl

theorem setBankPwr_frame (c : Core) (mask : BitVec 16) :
    let d := setBankPwr c mask
    d.regs.bankPwr = mask ∧ d.regs.bankPwrNext = none ∧ d.mem = c.mem ∧ d.seq = c.seq ∧ d.arr = c.arr := by
  obtain ⟨m, hm⟩ := foldl_wakeBank_frame mask (List.range 16)
    { c with regs := { c.regs with bankPwr := mask, bankPwrNext := none } }
  rw [setBankPwr_eq, hm]
  exact ⟨rfl, rfl, rfl, rfl, rfl⟩

theorem writeBankPwr_of_idle {c : Core} (h : c.seq.state = .idle) (mask : BitVec 16) :
    writeBankPwr c mask = setBankPwr c mask := if_pos h

theorem writeBankPwr_of_not_idle {c : Core} (h : c.seq.state ≠ .idle) (mask : BitVec 16) :
    writeBankPwr c mask = { c with regs := { c.regs with bankPwrNext := some mask } } := if_neg h

/-! ### The stages of a bank's power (R114, R116, R117) -/

theorem wakeEnd_of_waking {c : Core} {b : Nat} (h : bank c b = .waking) : wakeEnd c b = setBank c b .scrub := if_pos h

theorem scrubEnd_of_scrub {c : Core} {b : Nat} (h : bank c b = .scrub) :
    scrubEnd c b = setBank (loseBank c b) b .on := if_pos h

theorem bankPowerOff_of_bit_clear {c : Core} {b : Nat} (h : bank c b = .on) (hbit : c.regs.bankPwr.getLsbD b = false) :
    bankPowerOff c b = powerOff c b := if_pos (by rw [h, hbit]; rfl)

end Cu

/-! ### The commands -/

section Reach
variable {s : State} {q : CorePos} {i : Instr} {f : Core → Core} (hq : posOk q = true)
include hq

/-- A command to a core that exists leaves the core its operation gives, and nothing else. -/
theorem exec_of_core_command (hi : exec i s = .next (if posOk q then s.updCore (CorePos.key q) f else s)) :
    exec i s = .next (s.setCore (CorePos.key q) (f (s.core (CorePos.key q)))) :=
  hi.trans (congrArg Host.Outcome.next (if_pos hq))

variable {b : Nat} (hb : b < 16)
include hb

theorem bank_in_range : (posOk q && decide (b < 16)) = true := by rw [hq, decide_eq_true hb, Bool.and_self]

/-- As exec_of_core_command, for a command to one of the banks of a core. -/
theorem exec_of_bank_command
    (hi : exec i s = .next (if posOk q && decide (b < 16) then s.updCore (CorePos.key q) f else s)) :
    exec i s = .next (s.setCore (CorePos.key q) (f (s.core (CorePos.key q)))) :=
  hi.trans (congrArg Host.Outcome.next (if_pos (bank_in_range hq hb)))

/-- Span operations that waited for the bank go on when its scrub ends. -/
theorem exec_bankScrubEnd_of_in_range : exec (.bankScrubEnd q b) s =
    .next (s.setCore (CorePos.key q) (Cu.scrubEnd (s.core (CorePos.key q)) b)).drainInboxes :=
  congrArg Host.Outcome.next (if_pos (bank_in_range hq hb))
end Reach

/-- Settles O13: a command that reaches its core leaves the core its register operation gives; a write of BANK_PWR on an idle
core wakes the OFF banks whose bit is set. -/
theorem coreRegisterResults : Obligations.CoreRegisterResults := by
  unfold Obligations.CoreRegisterResults
  intro s q hq k c bankIs lost
  refine ⟨exec_of_core_command (f := Cu.clrRbw) hq rfl, exec_of_core_command (f := Cu.clrStat) hq rfl,
    exec_of_core_command (f := Cu.clrCheck) hq rfl, exec_of_core_command (f := Cu.clrWritten) hq rfl,
    exec_of_core_command (f := Cu.zeroAll) hq rfl, exec_of_core_command (f := Cu.zeroingDone) hq rfl,
    fun v hrun => ?later, fun v hidle => ?now, fun b hb h => ?wake, fun b hb h => ?scrub, fun b hb h hbit => ?off⟩
  case later =>
    rw [exec_of_core_command (i := .bankPwrWrite q v) hq rfl, Cu.writeBankPwr_of_not_idle hrun]
  case now =>
    obtain ⟨hpwr, hnext, hmem, hseq, harr⟩ := Cu.setBankPwr_frame c (v.extractLsb' 0 16)
    refine ⟨Cu.setBankPwr c (v.extractLsb' 0 16), ?_, hpwr, hnext, hmem, hseq, harr, fun b hb => ?_⟩
    · rw [exec_of_core_command (i := .bankPwrWrite q v) hq rfl, Cu.writeBankPwr_of_idle hidle]
    · simp only [Cu.bank_setBankPwr hb, BitVec.getLsbD_extractLsb', hb, decide_true, Bool.true_and, Nat.zero_add]
  case wake =>
    rw [exec_of_bank_command (i := .bankWakeEnd q b) hq hb rfl, Cu.wakeEnd_of_waking h]
    rfl
  case scrub =>
    rw [exec_bankScrubEnd_of_in_range hq hb, Cu.scrubEnd_of_scrub h]
    rfl
  case off =>
    rw [exec_of_bank_command (i := .bankPowerOff q b) hq hb rfl, Cu.bankPowerOff_of_bit_clear h hbit]
    rfl

end Sys2Proof.Machine
end

section
/-! SUPPORT. The matrix array: loads, swaps, passes, their completion and their arithmetic (chapter 3, R135, R158, R164, R165, O10). -/

namespace Sys2Proof.Machine

namespace Cu

/-! ### Issue to an array that is clocked (R95, R96) -/

@[simp] theorem ramp_seq (c : Core) : (ramp c).seq = c.seq := rfl

theorem arrayReady_of_not_rampDown {c : Core} (h : c.arr.mode ≠ .rampDown) (k : Core → Res) : arrayReady c k = k (ramp c) :=
  if_neg h

theorem swapNow_of_no_load {c : Core} (hg : GoesOn c) (hm : c.arr.mode ≠ .rampDown) (hl : c.arr.loading = none) :
    swapNow c = .done (advance (swapped (clocked c) c.arr.flights.length)) := by
  rw [swapNow, hl, if_neg (by decide), arrayReady_of_not_rampDown hm]
  exact next_of_seq_eq hg rfl

theorem swp_of_zero_word {c : Core} {w : TileWord} (hg : GoesOn c) (hm : c.arr.mode ≠ .rampDown) (hl : c.arr.loading = none)
    (hw : w = ⟨0, 0, 0, 0, 0, 0⟩) : swp c w = .done (advance (swapped (clocked c) c.arr.flights.length)) := by
  rw [hw, swp, legal_pos (by decide), swapNow_of_no_load hg hm hl]

/-! ### LDS (R82, R84, R135, R164, R165) -/

theorem lds_of_image_in_range {c : Core} {w : TileWord} {mode slot off n : Nat} {scaled : Bool} {lv : List Half}
    (hg : GoesOn c) (hm : c.arr.mode ≠ .rampDown) (hl : c.arr.loading = none)
    (hmode : w.md.toNat % 16 = mode) (hslot : w.md.toNat / 16 = slot) (hscaled : decide (w.imm.toNat / 0x80000000 = 1) = scaled)
    (hoff : (x c w.f2).toNat + w.imm.toNat % 0x400000 = off) (hn : imageBytes mode scaled = n)
    (hu : usesOnly w false true false false 0xFF#8 0x803FFFFF#32 = true) (hlo : 1 ≤ mode) (hhi : mode ≤ 6)
    (hsc : scaled = true → mode = 2) (halign : off % 128 = 0) (hend : off + n ≤ spadBytes)
    (hgrid : gridFor c mode slot = some lv) (hacc : access c off n = .ok) :
    lds c w = .done (advance { (wideRead (clocked c) off n).2 with arr := { (wideRead (clocked c) off n).2.arr with
      loading := some {
        mode := mode, grid := slot, levels := lv, scaled := scaled, image := (wideRead (clocked c) off n).1 } } }) := by
  have hmodBits : modBits w 3 0 = mode := by rw [modBits_eq]; omega
  have hslotBits : modBits w 7 4 = slot := by
    have := w.md.isLt
    rw [modBits_eq]; omega
  have hscaledBit : immBits w 31 31 = w.imm.toNat / 0x80000000 := by
    have := w.imm.isLt
    rw [immBits_eq]; omega
  have hform : (!scaled || decide (mode = 2)) = true := by
    cases hs : scaled with
    | false => rfl
    | true => rw [decide_eq_true (hsc hs)]; rfl
  unfold lds
  simp only [hmodBits, hslotBits, hscaledBit, hscaled, ea_low22, hoff, hn]
  rw [legal_pos (by rw [hu, hform, decide_eq_true ⟨hlo, hhi⟩]; rfl), if_neg (not_not_intro halign), if_neg (Nat.not_lt.mpr hend)]
  simp only [hgrid, hl, Option.isSome_none, Bool.false_eq_true, if_false]
  rw [withAccess_pos hacc, arrayReady_of_not_rampDown hm]
  exact next_of_seq_eq hg (wideRead_seq _ off n)

/-! ### PASS and TPASS (R74, R78, R83, R85, R158, R164, R165) -/

theorem enterPass_seq (c : Core) (t : Tile) (streams : List (Nat × Nat)) (p m a0 acc : Nat) :
    (enterPass c t streams p m a0 acc).seq = c.seq := by
  simp [enterPass]

/-- A pass reads where every bank of its rows is ON (R116). -/
theorem streamsAccess_of_on {c : Core} {streams : List (Nat × Nat)} {p m : Nat}
    (h : ∀ l ∈ streams.flatMap (fun q => streamLines q.1 q.2 p m), bank c (l / 1024) = .on) (k : Res) :
    streamsAccess c streams p m k = k := by
  have hon : ∀ b ∈ ((streams.flatMap (fun q => streamLines q.1 q.2 p m)).map (fun l => l / 1024)).dedup, bank c b = .on := by
    intro b hb
    obtain ⟨l, hl, rfl⟩ := List.mem_map.mp (List.mem_dedup.mp hb)
    exact h l hl
  unfold streamsAccess
  rw [if_neg, if_pos]
  · exact List.all_eq_true.mpr fun b hb => by rw [hon b hb]; rfl
  · intro hoff
    obtain ⟨b, hb, hbank⟩ := List.any_eq_true.mp hoff
    rw [hon b hb] at hbank
    exact absurd hbank (by decide)

/-- The streams of a pass: one, and a second one in a table mode (R88). -/
def passStreams (tab : Bool) (sa sb : Nat × Nat) : List (Nat × Nat) := if tab then [sa, sb] else [sa]

/-- The core with a pass in flight, and its copies exchanged behind the passes ahead of it if the instruction asks (R83). -/
def flown (c : Core) (w : TileWord) (t : Tile) (streams : List (Nat × Nat)) (m a0 : Nat) : Core :=
  let d := enterPass (clocked c) t streams (x c w.f3).toNat m a0 (immBits w 22 21)
  if decide (immBits w 23 23 = 1) then swapped d c.arr.flights.length else d

theorem flown_seq (c : Core) (w : TileWord) (t : Tile) (streams : List (Nat × Nat)) (m a0 : Nat) :
    (flown c w t streams m a0).seq = c.seq := by
  unfold flown
  split <;> exact enterPass_seq (clocked c) t streams _ m a0 (immBits w 22 21)

/-- The operands of a pass of at least one row pass every check of R158 and R165, and nothing makes the pass wait. -/
structure PassReady (c : Core) (w : TileWord) (tab : Bool) (m a0 : Nat) (sa sb : Nat × Nat) (t : Tile) : Prop where
  pos : 1 ≤ m
  range : a0 + m ≤ 1024
  streamA : stream (x c w.f1) = some sa
  streamB : (if tab then stream (x c w.f2) else some (0, 0)) = some sb
  sameLength : tab = true → sa.2 = sb.2
  start : (x c w.f3).toNat < sa.2
  loaded : decide (immBits w 23 23 = 1) = true → c.arr.loading = none
  active : c.arr.active = some t
  mode : isTab t.mode = tab
  banksOn : ∀ l ∈ (passStreams tab sa sb).flatMap (fun q => streamLines q.1 q.2 (x c w.f3).toNat m), bank c (l / 1024) = .on

theorem runPass_of_ready {c : Core} {w : TileWord} {tab : Bool} {m a0 : Nat} {sa sb : Nat × Nat} {t : Tile}
    (hg : GoesOn c) (hm : c.arr.mode ≠ .rampDown) (h : PassReady c w tab m a0 sa sb t) :
    runPass c w tab m a0 = .done (advance (flown c w t (passStreams tab sa sb) m a0)) := by
  obtain ⟨hpos, hrange, hA, hB, hlen, hstart, hload, hact, hmode, hon⟩ := h
  have hsame : (tab && decide (sa.2 ≠ sb.2)) = false := by
    cases ht : tab with
    | false => rfl
    | true => rw [decide_eq_false (not_not_intro (hlen ht))]; rfl
  have hfree : (decide (immBits w 23 23 = 1) && c.arr.loading.isSome) = false := by
    cases hswap : decide (immBits w 23 23 = 1) with
    | false => rfl
    | true => rw [hload hswap]; rfl
  unfold runPass
  simp only [hA, hB, hact]
  rw [if_neg (by omega), if_neg (by omega), if_neg (by omega), if_neg (Nat.not_le.mpr hstart), hsame, hfree, hmode, bne_self_eq_false]
  simp only [Bool.false_eq_true, if_false]
  exact (streamsAccess_of_on hon _).trans ((arrayReady_of_not_rampDown hm _).trans
    (next_of_seq_eq hg (flown_seq c w t (passStreams tab sa sb) m a0)))

/-- A pass of no rows does nothing but exchange the copies if asked (R85). -/
theorem runPass_of_no_rows {c : Core} {w : TileWord} (tab : Bool) (a0 : Nat) (hm : c.arr.mode ≠ .rampDown) (hg : GoesOn c) :
    runPass c w tab 0 a0 = if decide (immBits w 23 23 = 1) then swapNow c else .done (advance (clocked c)) := by
  rw [runPass, if_pos rfl, arrayReady_of_not_rampDown hm, next_of_seq_eq hg (ramp_seq c)]

theorem passInstr_of_shape {c : Core} {w : TileWord} {tab : Bool} {m a0 : Nat} (hlegal : passLegal w tab = true)
    (hshape : passShape c w = some (m, a0)) : passInstr c w tab = runPass c w tab m a0 := by
  rw [passInstr, legal_pos hlegal, hshape]

/-! ### The end of a pass (R76, R81, R99 to R102, R110) -/

theorem skipsOfFirst_of_cons {c : Core} {f : Flight} {fs : List Flight} (h : c.arr.flights = f :: fs) (n : Nat) :
    skipsOfFirst c n = skipsIn (f.rows.take n) := by
  rw [skipsOfFirst, h]

theorem passMismatch_of_cons {c : Core} {f : Flight} {fs : List Flight} (h : c.arr.flights = f :: fs) :
    passMismatch c = (firstMismatch f.rows).map (fun i => (i, mismatchesIn (f.rows.getD i []))) := by
  rw [passMismatch, h]

/-- A pass without a mismatch has no first row with one (R99). -/
theorem firstMismatch_eq_none {rows : List (List GroupRow)} (h : ∀ row ∈ rows, ∀ g ∈ row, compareRow g ≠ some true) :
    firstMismatch rows = none := by
  refine List.findIdx?_eq_none_iff.mpr fun row hrow => decide_eq_false (Nat.not_lt.mpr ?_)
  have hnone : row.filter (fun g => compareRow g == some true) = [] :=
    List.filter_eq_nil_iff.mpr fun g hg hmis => h row hrow g hg (beq_iff_eq.mp hmis)
  rw [mismatchesIn, hnone, List.length_nil]

theorem loadReady_of_loading {c : Core} {t : Tile} (h : c.arr.loading = some t) : loadReady c =
    { c with arr := { c.arr with shadow := some t, loading := none, mode := rampedUp c.arr.mode } } := by
  rw [loadReady, h]

theorem passComplete_of_cons {c : Core} {f : Flight} {fs : List Flight} (h : c.arr.flights = f :: fs) : passComplete c =
    countSkips ((f.rows.zipIdx).foldl (fun d p => completeRow f d p.2 p.1) { c with arr := { c.arr with
      flights := fs, mode := rampedUp c.arr.mode, token := c.arr.token.bind (fun n => if n = 0 then none else some (n - 1)) } })
      (skipsIn f.rows) := by
  rw [passComplete, h]

theorem rampDown_of_empty {c : Core} (hf : c.arr.flights = []) (hl : c.arr.loading = none)
    (hm : c.arr.mode = .full ∨ c.arr.mode = .rampUp) :
    rampDown c = { c with arr := { c.arr with mode := .rampDown, token := none } } := by
  have hmode : (c.arr.mode == .full || c.arr.mode == .rampUp) = true := by simpa using hm
  rw [rampDown, if_pos]
  rw [hmode, arrayEmpty, hf, hl]
  rfl

theorem gateArray_of_rampDown {c : Core} (h : c.arr.mode = .rampDown) :
    gateArray c = { c with arr := { c.arr with mode := .gated } } := if_pos (by rw [h]; rfl)

/-! ### The arithmetic of a pass (R77, R80, R81, R98 to R100) -/

/-- The activation row of a pass, lane by lane (R77, R78). -/
theorem getD_streamRow (c : Core) (b ms p i : Nat) {k : Nat} (h : k < 128) :
    (streamRow c b ms p i).getD k 0 = streamElem c b ms ((p + i) % ms) k := by
  simp [streamRow, h]

theorem compareRow_of_no_check {r : GroupRow} (h : r.check = none) : compareRow r = none := by
  rw [compareRow, h]

/-- A comparison with its checking sums is made where every group sum is finite (R99, R100). -/
theorem compareRow_of_check {r : GroupRow} {cc : Int} {aa : Nat} (h : r.check = some (cc, aa)) : compareRow r =
    if ∀ z ∈ r.sums, Float.isFinite z = true then
      some (decide (aa + 2 ^ 195 < 2 ^ 15 * (cc - (r.sums.map Float.signed).sum * 2 ^ 149).natAbs))
    else none := by
  simp only [compareRow, h, List.all_eq_true]

theorem compareRow_eq_none_iff (r : GroupRow) :
    compareRow r = none ↔ r.check = none ∨ ∃ z ∈ r.sums, Float.isFinite z = false := by
  cases h : r.check with
  | none => simp [compareRow_of_no_check h]
  | some p => simp [compareRow_of_check (cc := p.1) (aa := p.2) h]

theorem compareRow_eq_true_iff {r : GroupRow} {cc : Int} {aa : Nat} (h : r.check = some (cc, aa)) :
    compareRow r = some true ↔ (∀ z ∈ r.sums, Float.isFinite z = true) ∧
      aa + 2 ^ 195 < 2 ^ 15 * (cc - (r.sums.map Float.signed).sum * 2 ^ 149).natAbs := by
  rw [compareRow_of_check h]
  split
  · next hfin => rw [Option.some_inj, decide_eq_true_iff, and_iff_right hfin]
  · next hnot => exact ⟨nofun, fun hyes => absurd hyes.1 hnot⟩

end Cu

/-! ### The comparison of the earliest pass (R99, R100, R102) -/

theorem comparePass_of_no_mismatch {c : Core} {f : Flight} {fs : List Flight} (h : c.arr.flights = f :: fs)
    (hok : ∀ row ∈ f.rows, ∀ g ∈ row, Cu.compareRow g ≠ some true) : comparePass c = Cu.passComplete c := by
  rw [comparePass, Cu.passMismatch_of_cons h, Cu.firstMismatch_eq_none hok]
  rfl

theorem comparePass_of_mismatch {c : Core} {f : Flight} {fs : List Flight} {row : Nat} (h : c.arr.flights = f :: fs)
    (hrow : Cu.firstMismatch f.rows = some row) : comparePass c = { c with
      mem := { c.mem with gb := [] }
      arr := { c.arr with
        csSkip := Cu.sat12 c.arr.csSkip (Cu.skipsIn (f.rows.take (row + 1)))
        csMismatch := Cu.sat12 c.arr.csMismatch (Cu.mismatchesIn (f.rows.getD row [])) }
      run := { c.run with frozen := true } } := by
  rw [comparePass, Cu.passMismatch_of_cons h, hrow, ← Cu.skipsOfFirst_of_cons h]
  rfl

theorem residueError_of_cons {c : Core} {f : Flight} {fs : List Flight} (h : c.arr.flights = f :: fs) (n : Nat) :
    residueError c n = { c with
      mem := { c.mem with gb := [] }
      arr := { c.arr with
        csSkip := Cu.sat12 c.arr.csSkip (Cu.skipsIn (f.rows.take n))
        resMismatch := Cu.sat8 c.arr.resMismatch 1 }
      run := { c.run with frozen := true } } := by
  rw [← Cu.skipsOfFirst_of_cons h]
  rfl

/-- A pass reads accumulator memory unless it overwrites it (R81). -/
theorem passReads_iff {c : Core} {f : Flight} {fs : List Flight} (h : c.arr.flights = f :: fs) :
    passReads c = true ↔ ¬ f.acc = 0 := by
  simp [passReads, h]

theorem endPass_eccCorrected_of_cons {c : Core} {f : Flight} {fs : List Flight} (h : c.arr.flights = f :: fs) :
    endPass c .eccCorrected = comparePass (if f.acc = 0 then c else countCorr c) := by
  simp only [endPass, passReads_iff h, ite_not]

theorem endPass_eccUncorrectable_of_cons {c : Core} {f : Flight} {fs : List Flight} (h : c.arr.flights = f :: fs) :
    endPass c .eccUncorrectable = if f.acc = 0 then comparePass c else countUncorr c := by
  simp only [endPass, passReads_iff h, ite_not]

/-! ### Commands of the array -/

section Event
variable {s : State} {q : CorePos} (h : Reaches s q)
include h

/-- An event that reaches its core leaves the core its operation gives, and nothing else. -/
theorem exec_of_core_event {i : Instr} {f : Core → Core} (hi : exec i s = .next (s.onCore q (fun k => s.updCore k f))) :
    exec i s = .next (s.setCore (CorePos.key q) (f (s.core (CorePos.key q)))) :=
  hi.trans (congrArg Host.Outcome.next (onCore_eq h _))

theorem exec_passComplete_of_cons {f : Flight} {fs : List Flight} (hf : (s.core (CorePos.key q)).arr.flights = f :: fs)
    (chk : PassCheck) :
    exec (.passComplete q chk) s = .next (s.setCore (CorePos.key q) (endPass (s.core (CorePos.key q)) chk)) := by
  rw [exec_of_core_event (i := .passComplete q chk) h rfl, if_neg (by simp [hf])]
end Event

/-- Settles O10: an instruction that passes its checks leaves what the lemma of its operation says; an event ends the earliest
load or pass as its check decides; the sums of a pass follow from the rows it read. -/
theorem arrayResults : Obligations.ArrayResults := by
  unfold Obligations.ArrayResults
  refine ⟨?instructions, ?events, ?arithmetic⟩
  case instructions =>
    intro s op h hg hm c w leaves off mode slot scaled n swap acc p flies
    refine ⟨fun lv hu hlo hhi hsc halign hend hgrid hload hacc => ?load, fun hw hload => ?swap,
      fun m a0 sa t hlegal hshape hpos hrange hA hstart hload hact hmode hon => ?pass,
      fun m a0 sa sb t hlegal hshape hpos hrange hA hB hlen hstart hload hact hmode hon => ?table,
      fun a0 hlegal hshape => ⟨fun hswap => ?none, fun hswap hload => ?noneSwap⟩⟩
    case load =>
      exact exec_of_issue_done rfl h
        (Cu.lds_of_image_in_range hg hm hload rfl rfl rfl rfl rfl hu hlo hhi hsc halign hend hgrid hacc)
    case swap => exact exec_of_issue_done rfl h (Cu.swp_of_zero_word hg hm hload hw)
    case pass =>
      have hready : Cu.PassReady c w false m a0 sa (0, 0) t :=
        ⟨hpos, hrange, hA, rfl, nofun, hstart, hload, hact, decide_eq_false (by omega),
          by simpa [Cu.passStreams] using hon⟩
      exact exec_of_issue_done rfl h ((Cu.passInstr_of_shape hlegal hshape).trans (Cu.runPass_of_ready hg hm hready))
    case table =>
      have hready : Cu.PassReady c w true m a0 sa sb t :=
        ⟨hpos, hrange, hA, hB, fun _ => hlen, hstart, hload, hact, decide_eq_true hmode,
          by simpa [Cu.passStreams] using hon⟩
      exact exec_of_issue_done rfl h ((Cu.passInstr_of_shape hlegal hshape).trans (Cu.runPass_of_ready hg hm hready))
    case none =>
      refine exec_of_issue_done rfl h ((Cu.passInstr_of_shape hlegal hshape).trans ((Cu.runPass_of_no_rows _ _ hm hg).trans ?_))
      exact if_neg (Bool.eq_false_iff.mp hswap)
    case noneSwap =>
      refine exec_of_issue_done rfl h ((Cu.passInstr_of_shape hlegal hshape).trans ((Cu.runPass_of_no_rows _ _ hm hg).trans ?_))
      exact (if_pos hswap).trans (Cu.swapNow_of_no_load hg hm hload)
  case events =>
    intro s q h c becomes
    refine ⟨fun t hload => ?load, fun f fs hf => ⟨exec_passComplete_of_cons h hf .ok, fun row g sums => ?errors, fun n => ?residue,
      ?corrected, ?uncorrectable⟩, fun d f fs hf => ⟨fun hok => ?complete, fun row hrow => ?mismatch⟩,
      fun hf hload hmode => ?rampDown, fun hmode => ?gate⟩
    case load => rw [exec_of_core_event (i := .loadReady q) h rfl, Cu.loadReady_of_loading hload]; rfl
    case errors =>
      exact ⟨exec_passComplete_of_cons h hf (.dataError row g sums), exec_passComplete_of_cons h hf (.checkError row g)⟩
    case residue =>
      exact (exec_passComplete_of_cons h hf _).trans (congrArg becomes (residueError_of_cons hf n))
    case corrected =>
      exact (exec_passComplete_of_cons h hf _).trans (congrArg becomes (endPass_eccCorrected_of_cons hf))
    case uncorrectable =>
      exact (exec_passComplete_of_cons h hf _).trans (congrArg becomes (endPass_eccUncorrectable_of_cons hf))
    case complete => exact (comparePass_of_no_mismatch hf hok).trans (Cu.passComplete_of_cons hf)
    case mismatch => exact comparePass_of_mismatch hf hrow
    case rampDown => rw [exec_of_core_event (i := .arrayRampDown q) h rfl, Cu.rampDown_of_empty hf hload hmode]
    case gate => rw [exec_of_core_event (i := .arrayGated q) h rfl, Cu.gateArray_of_rampDown hmode]
  case arithmetic =>
    refine ⟨fun c b ms p i k hk => Cu.getD_streamRow c b ms p i hk, fun a0 w0 as ws => rfl,
      fun old q => ⟨rfl, rfl, rfl, rfl, rfl, rfl⟩, fun t g as => ⟨Cu.compareRow_eq_none_iff _, fun cc aa hcheck => ?_⟩⟩
    exact Cu.compareRow_eq_true_iff (r := Cu.groupRow t g as) hcheck

end Sys2Proof.Machine
end

section
/-! SUPPORT. What an access of SPAD changes of its core: memory as a function of memory, and notes of the operations in
progress that a write met (R112, R119 to R121, R127, R139, R179, R392). -/

namespace Sys2Proof.Machine

namespace Cu

/-! ### Memory after a write depends on memory before it alone -/

section Memory
variable {c d : Core} (h : c.mem = d.mem)
include h

theorem openLine_mem_congr (own : Bool) (l : Nat) : (openLine own c l).mem = (openLine own d l).mem :=
  congrArg (fun m => (openLine own { c with mem := m } l).mem) h

/-- Steps whose memory depends on memory alone make up such a step. -/
theorem foldl_mem_congr {α : Type} {f : Core → α → Core} (hf : ∀ {c d : Core} (a : α), c.mem = d.mem → (f c a).mem = (f d a).mem)
    (as : List α) : (as.foldl f c).mem = (as.foldl f d).mem := by
  induction as generalizing c d with
  | nil => exact h
  | cons a as ih => exact ih (hf a h)
end Memory

theorem foldl_noteWrite_mem (ps : Memory) (b : Nat) (c : Core) :
    (ps.foldl (fun d p => noteWrite d (b + p.1) 1) c).mem = c.mem :=
  List.foldlRecOn (motive := fun d : Core => d.mem = c.mem) ps _ rfl fun _ hd _ _ => hd

/-- A flush opens the line of its entry, stores the valid bytes and drops the entry. -/
theorem flushEntry_mem (c : Core) (e : GbEntry) :
    let m := (openLine true c e.line).mem
    (flushEntry c e).mem = { m with
      spad := e.data.foldl (fun m p => Memory.setByte m (e.line * 256 + p.1) p.2) m.spad
      gb := m.gb.filter (fun f => f.line != e.line) } := by
  rw [← openLine_mem_congr (foldl_noteWrite_mem e.data (e.line * 256) c) true e.line]
  rfl

section Memory
variable {c d : Core} (h : c.mem = d.mem)
include h

theorem flushEntry_mem_congr (e : GbEntry) : (flushEntry c e).mem = (flushEntry d e).mem := by
  rw [flushEntry_mem, flushEntry_mem, openLine_mem_congr h]

theorem flushWhere_mem_congr (p : Nat → Bool) : (flushWhere c p).mem = (flushWhere d p).mem := by
  unfold flushWhere
  rw [h]
  exact foldl_mem_congr h (fun e hm => flushEntry_mem_congr hm e) _

theorem bankWrite_mem_congr (own : Bool) (off : Nat) (bs : List Byte) :
    (bankWrite c own off bs).mem = (bankWrite d own off bs).mem :=
  congrArg (fun m : CoreMem => { m with spad := Memory.write m.spad off bs })
    (foldl_mem_congr (c := noteWrite c off bs.length) (d := noteWrite d off bs.length) h
      (fun l hm => openLine_mem_congr hm own l) (linesOf off bs.length))

theorem wideWrite_mem_congr (own : Bool) (off : Nat) (bs : List Byte) :
    (wideWrite c own off bs).mem = (wideWrite d own off bs).mem :=
  bankWrite_mem_congr (flushWhere_mem_congr h _) own off bs
end Memory

/-! ### What a write leaves alone -/

/-- Between two cores lie writes of SPAD: no register differs, an engine differs in the ranges that raced with its move, the run
in the notes of its span operations. -/
structure NotesOnly (c d : Core) : Prop where
  regs : d.regs = c.regs
  dma : ∀ e, ∃ r, d.dma e = { c.dma e with raced := r }
  run : ∃ f : SpanWait → SpanWait, d.run = { c.run with spanWaits := c.run.spanWaits.map f }

theorem NotesOnly.of_mem (c : Core) (m : CoreMem) : NotesOnly c { c with mem := m } :=
  ⟨rfl, fun _ => ⟨_, rfl⟩, id, by rw [List.map_id]⟩

theorem NotesOnly.refl (c : Core) : NotesOnly c c := .of_mem c c.mem

theorem NotesOnly.trans {b c d : Core} (h1 : NotesOnly b c) (h2 : NotesOnly c d) : NotesOnly b d := by
  obtain ⟨f, hf⟩ := h1.run
  obtain ⟨g, hg⟩ := h2.run
  refine ⟨h2.regs.trans h1.regs, fun e => ?_, g ∘ f, by rw [hg, hf, List.map_map]⟩
  obtain ⟨r, hr⟩ := h1.dma e
  obtain ⟨q, hq⟩ := h2.dma e
  exact ⟨q, by rw [hq, hr]⟩

theorem NotesOnly.foldl {α : Type} {f : Core → α → Core} (hf : ∀ d a, NotesOnly d (f d a)) (as : List α) (c : Core) :
    NotesOnly c (as.foldl f c) :=
  List.foldlRecOn (motive := NotesOnly c) as f (.refl c) fun _ hd a _ => hd.trans (hf _ a)

theorem noteRace_eq (off n : Nat) (e : DmaEngine) : ∃ r, noteRace off n e = { e with raced := r } := by
  unfold noteRace
  split
  · exact ⟨_, rfl⟩
  · exact ⟨e.raced, rfl⟩

theorem noteWrite_dma (c : Core) (off n e : Nat) : (noteWrite c off n).dma e = noteRace off n (c.dma e) := by
  unfold Core.dma
  split <;> rfl

theorem noteWrite_notesOnly (c : Core) (off n : Nat) : NotesOnly c (noteWrite c off n) :=
  ⟨rfl, fun e => noteWrite_dma c off n e ▸ noteRace_eq off n (c.dma e), noteSpan off n, rfl⟩

theorem openLine_notesOnly (own : Bool) (c : Core) (l : Nat) : NotesOnly c (openLine own c l) := .of_mem c _

theorem flushEntry_notesOnly (c : Core) (e : GbEntry) : NotesOnly c (flushEntry c e) :=
  (NotesOnly.foldl (fun d p => noteWrite_notesOnly d (e.line * 256 + p.1) 1) e.data c).trans (.of_mem _ _)

theorem flushWhere_notesOnly (c : Core) (p : Nat → Bool) : NotesOnly c (flushWhere c p) :=
  NotesOnly.foldl flushEntry_notesOnly _ c

theorem bankWrite_notesOnly (c : Core) (own : Bool) (off : Nat) (bs : List Byte) : NotesOnly c (bankWrite c own off bs) :=
  ((noteWrite_notesOnly c off bs.length).trans (NotesOnly.foldl (openLine_notesOnly own) (linesOf off bs.length) _)).trans
    (.of_mem _ _)

theorem wideWrite_notesOnly (c : Core) (own : Bool) (off : Nat) (bs : List Byte) : NotesOnly c (wideWrite c own off bs) :=
  (flushWhere_notesOnly c _).trans (bankWrite_notesOnly _ own off bs)

/-- A narrow read writes where it flushes an entry that holds the part incompletely. -/
theorem narrowPart_notesOnly (c : Core) (off : Nat) : NotesOnly c (narrowPart c off).2 := by
  unfold narrowPart
  split
  · next e _ =>
    split
    · exact .refl c
    · exact flushEntry_notesOnly c e
  · exact .refl c

theorem narrowParts_notesOnly (c : Core) (off k : Nat) : NotesOnly c (narrowParts c off k).2 := by
  induction k generalizing c off with
  | zero => exact .refl c
  | succ k ih => exact (narrowPart_notesOnly c off).trans (ih _ _)

/-- A narrow read leaves the run of its core, but for the notes of its span operations. -/
theorem narrowReads_run (c : Core) (off k : Nat) :
    ∃ f : SpanWait → SpanWait, (narrowReads c off k).2.run = { c.run with spanWaits := c.run.spanWaits.map f } := by
  unfold narrowReads
  rw [countSpadRbw_run]
  exact (narrowParts_notesOnly c off k).run

/-- A flush of a core without span operations in progress leaves its run. -/
theorem flushAll_run_of_no_waits {c : Core} (h : c.run.spanWaits = []) : (flushAll c).run = c.run := by
  obtain ⟨f, hf⟩ := (flushWhere_notesOnly c fun _ => true).run
  rw [h, List.map_nil, ← h] at hf
  exact hf

end Cu

end Sys2Proof.Machine
end

section
/-! SUPPORT. What a SPAD write leaves in the bytes and written bits of the lines (R111, R112, R120, O5). -/

namespace Sys2Proof.Machine

/-! ### Masked writes of a memory (R120) -/

/-- No key below the bound is listed. -/
theorem SMap.any_key_eq_false_of_lt {α : Type} {m : SMap α} {lo a : Nat} (hm : SMap.risingFrom lo m = true) (h : a < lo) :
    m.any (fun p => p.1 == a) = false := by
  induction m generalizing lo with
  | nil => rfl
  | cons p m ih =>
    simp only [SMap.risingFrom, Bool.and_eq_true, decide_eq_true_eq] at hm
    obtain ⟨hlo, hrest⟩ := hm
    rw [List.any_cons, ih hrest (by omega), Bool.or_false]
    exact beq_false_of_ne (by omega)

/-- A masked write stores the listed bytes, each listed once, and leaves the others. -/
theorem Memory.byte_foldl_setByte {ps : Memory} {lo : Nat} (hps : SMap.risingFrom lo ps = true) {m : Memory} (hm : Memory.wf m = true)
    (b k : Nat) :
    Memory.byte (ps.foldl (fun m p => Memory.setByte m (b + p.1) p.2) m) (b + k) =
      if ps.any (fun p => p.1 == k) then SMap.get 0#8 ps k else Memory.byte m (b + k) := by
  induction ps generalizing lo m with
  | nil => rfl
  | cons p ps ih =>
    obtain ⟨j, v⟩ := p
    simp only [SMap.risingFrom, Bool.and_eq_true] at hps
    obtain ⟨-, hrest⟩ := hps
    rw [List.foldl_cons, ih hrest (Memory.wf_setByte _ _ hm), List.any_cons, SMap.get]
    rcases eq_or_ne j k with rfl | hne
    · simp [SMap.any_key_eq_false_of_lt hrest (Nat.lt_succ_self j), Memory.byte_setByte_self hm]
    · have hk : b + k ≠ b + j := by omega
      simp [hne, Memory.byte_setByte_ne m v hk]

theorem Memory.byte_foldl_setByte_out (ps : Memory) (m : Memory) {b a : Nat} (ha : ∀ p ∈ ps, a ≠ b + p.1) :
    Memory.byte (ps.foldl (fun m p => Memory.setByte m (b + p.1) p.2) m) a = Memory.byte m a :=
  List.foldlRecOn (motive := fun n => Memory.byte n a = Memory.byte m a) ps _ rfl fun n hn p hp =>
    (Memory.byte_setByte_ne n p.2 (ha p hp)).trans hn

namespace Cu

/-! ### Opening lines (R112) -/

theorem lineWritten_openLine (own : Bool) (c : Core) (l m : Nat) :
    lineWritten (openLine own c l) m = (lineWritten c m || m == l) := by
  rcases eq_or_ne m l with rfl | hne
  · rw [beq_self_eq_true, Bool.or_true]
    exact SMap.get_set_self_of_ne false c.mem.spadWritten m (x := true) (by decide)
  · rw [beq_false_of_ne hne, Bool.or_false]
    exact SMap.get_set_ne false c.mem.spadWritten true hne

/-- The first write to a line zeroes it; a line that is written keeps its bytes. -/
theorem byte_openLine (own : Bool) (c : Core) (l a : Nat) :
    Memory.byte (openLine own c l).mem.spad a =
      if a / 256 = l ∧ lineWritten c l = false then 0 else Memory.byte c.mem.spad a := by
  unfold openLine
  cases hw : lineWritten c l with
  | true => simp
  | false =>
    simp only [Bool.false_eq_true, if_false, and_true, Memory.byte_zero]
    exact if_congr (by omega) rfl rfl

theorem wf_openLine (own : Bool) {c : Core} (l : Nat) (hc : Memory.wf c.mem.spad = true) :
    Memory.wf (openLine own c l).mem.spad = true := by
  unfold openLine
  dsimp only
  split
  · exact hc
  · exact Memory.wf_zero _ _ hc

theorem lineWritten_foldl_openLine (own : Bool) (ls : List Nat) (c : Core) (m : Nat) :
    lineWritten (ls.foldl (openLine own) c) m = (lineWritten c m || ls.contains m) := by
  induction ls generalizing c with
  | nil => simp
  | cons l ls ih => rw [List.foldl_cons, ih, lineWritten_openLine, Bool.or_assoc, List.contains_cons]

theorem byte_foldl_openLine (own : Bool) (ls : List Nat) (c : Core) (a : Nat) :
    Memory.byte (ls.foldl (openLine own) c).mem.spad a =
      if a / 256 ∈ ls ∧ lineWritten c (a / 256) = false then 0 else Memory.byte c.mem.spad a := by
  induction ls generalizing c with
  | nil => simp
  | cons l ls ih =>
    rw [List.foldl_cons, ih, lineWritten_openLine, byte_openLine]
    rcases eq_or_ne (a / 256) l with rfl | hne
    · simp
    · simp [hne]

theorem wf_foldl_openLine (own : Bool) (ls : List Nat) {c : Core} (hc : Memory.wf c.mem.spad = true) :
    Memory.wf (ls.foldl (openLine own) c).mem.spad = true :=
  List.foldlRecOn (motive := fun d : Core => Memory.wf d.mem.spad = true) ls _ hc fun _ hd l _ => wf_openLine own l hd

/-- The lines of a range are those that it overlaps. -/
theorem mem_linesOf {off n l : Nat} : l ∈ linesOf off n ↔ n ≠ 0 ∧ off / 256 ≤ l ∧ l * 256 < off + n := by
  unfold linesOf
  split
  · next hn => simp [hn]
  · next hn =>
    simp only [List.mem_map, List.mem_range]
    constructor
    · rintro ⟨i, hi, rfl⟩
      omega
    · rintro ⟨-, hlo, hhi⟩
      exact ⟨l - off / 256, by omega, by omega⟩

/-! ### A write of consecutive bytes (R112) -/

section Bank
variable (c : Core) (own : Bool) (off : Nat) (bs : List Byte)

theorem lineWritten_bankWrite (l : Nat) :
    lineWritten (bankWrite c own off bs) l = (lineWritten c l || (linesOf off bs.length).contains l) :=
  lineWritten_foldl_openLine own (linesOf off bs.length) (noteWrite c off bs.length) l

theorem byte_bankWrite_in (hc : Memory.wf c.mem.spad = true) {i : Nat} (hi : i < bs.length) :
    Memory.byte (bankWrite c own off bs).mem.spad (off + i) = bs[i] :=
  Memory.byte_write_in bs (wf_foldl_openLine own (linesOf off bs.length) (c := noteWrite c off bs.length) hc) off i hi

theorem byte_bankWrite_out {a : Nat} (ha : a < off ∨ off + bs.length ≤ a) :
    Memory.byte (bankWrite c own off bs).mem.spad a =
      if a / 256 ∈ linesOf off bs.length ∧ lineWritten c (a / 256) = false then 0 else Memory.byte c.mem.spad a :=
  (Memory.byte_write_out bs _ ha).trans
    (byte_foldl_openLine own (linesOf off bs.length) (noteWrite c off bs.length) a)
end Bank

/-! ### The masked write of one line (R120) -/

section Flush
variable (c : Core) (e : GbEntry)

theorem lineWritten_flushEntry (l : Nat) : lineWritten (flushEntry c e) l = (lineWritten c l || l == e.line) := by
  rw [← lineWritten_openLine true, lineWritten, flushEntry_mem, lineWritten]

theorem byte_flushEntry_in (hc : Memory.wf c.mem.spad = true) (he : SMap.risingFrom 0 e.data = true) {k : Nat} (hk : k < 256) :
    Memory.byte (flushEntry c e).mem.spad (e.line * 256 + k) =
      if gbValid e k then gbByte e k
      else if lineWritten c e.line then Memory.byte c.mem.spad (e.line * 256 + k) else 0 := by
  have hline : (e.line * 256 + k) / 256 = e.line := by omega
  rw [flushEntry_mem, Memory.byte_foldl_setByte he (wf_openLine true e.line hc), byte_openLine, gbValid, gbByte, Nat.mod_eq_of_lt hk]
  cases hw : lineWritten c e.line <;> simp [hline]

theorem byte_flushEntry_out (he : ∀ p ∈ e.data, p.1 < 256) {a : Nat} (ha : a / 256 ≠ e.line) :
    Memory.byte (flushEntry c e).mem.spad a = Memory.byte c.mem.spad a := by
  have hout : ∀ p ∈ e.data, a ≠ e.line * 256 + p.1 := fun p hp => by
    have := he p hp
    omega
  rw [flushEntry_mem, Memory.byte_foldl_setByte_out _ _ hout, byte_openLine, if_neg (fun h => ha h.1)]
end Flush

end Cu

/-- Settles O5: a write opens the lines that its range overlaps, a flush the line of its entry; what is opened there and was
never written is zero but for the bytes then stored. -/
theorem firstWriteZeroesTheLine : Obligations.FirstWriteZeroesTheLine := by
  unfold Obligations.FirstWriteZeroesTheLine
  intro c hc
  refine ⟨fun own off bs => ⟨fun i hi => ⟨?stored, ?written⟩, fun a ha => ?others, fun l hl => ?untouched⟩,
    fun e hrise hkeys => ⟨fun k hk => Cu.byte_flushEntry_in c e hc hrise hk, fun a ha => Cu.byte_flushEntry_out c e hkeys ha,
      fun l => Cu.lineWritten_flushEntry c e l⟩⟩
  case stored =>
    rw [Cu.byte_bankWrite_in c own off bs hc hi, List.getD_eq_getElem _ _ hi]
  case written =>
    have hmem : (off + i) / 256 ∈ Cu.linesOf off bs.length := Cu.mem_linesOf.mpr (by omega)
    rw [Cu.lineWritten_bankWrite, List.contains_iff_mem.mpr hmem, Bool.or_true]
  case others =>
    rw [Cu.byte_bankWrite_out c own off bs ha]
    refine if_congr ?_ rfl rfl
    rw [Cu.mem_linesOf, Ne, List.length_eq_zero_iff]
    tauto
  case untouched =>
    have hmem : l ∉ Cu.linesOf off bs.length := by
      rw [← List.length_eq_zero_iff] at hl
      rw [Cu.mem_linesOf]
      omega
    rw [Cu.lineWritten_bankWrite, Bool.eq_false_iff.mpr (List.contains_iff_mem.not.mpr hmem), Bool.or_false]

end Sys2Proof.Machine
end

section
/-! SUPPORT. LDX, STX, VLD, VST and what a program fault records (R116, R119 to R122, R157, R161, R167, R182, O4). -/

namespace Sys2Proof.Machine

/-- A command whose instruction faults is a program fault of its core at its PC. -/
theorem exec_of_issue_fault {s : State} {op : TileOp} {i : Instr} {f : Core → TileWord → Cu.Res} {code unit arg : Nat}
    (hi : exec i s = .next (s.issue op f)) (h : Issues s op) (hf : f (s.coreOf op) op.w = .fault code unit arg) :
    exec i s = .next (s.programFault (CorePos.key op.core) (s.coreOf op).seq.pc code unit arg) := by
  rw [hi, issue_eq h, hf, settleRes_fault]

/-- On a core without a dispatch a program fault changes nothing but that core (R182). -/
theorem State.programFault_of_no_dispatch {s : State} {k : Nat} (h : s.dispatchOf k = none) (pc code unit arg : Nat) :
    s.programFault k pc code unit arg = s.setCore k (Cu.recordFault (s.core k) pc code unit arg) := by
  unfold State.programFault
  rw [h]
  rfl

namespace Cu

/-! ### Checks that fail (R116, R157) -/

theorem spadRange_neg {off n align : Nat} (h : off % align ≠ 0 ∨ spadBytes < off + n) (u : Nat) (k : Res) :
    spadRange off n align u k = .fault fSpadRange u off := if_pos h

theorem withAccess_of_off {c : Core} {off n : Nat} (h : access c off n = .off) (u : Nat) (k : Res) :
    withAccess c off n u k = .fault fBankOff u 0 := by
  unfold withAccess
  rw [h]

theorem withAccess_of_held {c : Core} {off n : Nat} (h : access c off n = .held) (u : Nat) (k : Res) :
    withAccess c off n u k = .held := by
  unfold withAccess
  rw [h]

/-- An aligned word lies in one bank, whose state decides its access. -/
theorem access_word {off : Nat} (h : off % 4 = 0) (c : Core) : access c off 4 =
    if bank c (off / 0x40000) = .off then .off else if bank c (off / 0x40000) = .on then .ok else .held := by
  have hone : (off + 3) / 0x40000 + 1 - off / 0x40000 = 1 := by omega
  unfold access
  simp [hone]

/-- A bank that is waking or being scrubbed holds the access (R116). -/
theorem access_word_of_not_ready {c : Core} {off : Nat} (h : off % 4 = 0)
    (hbank : bank c (off / 0x40000) = .waking ∨ bank c (off / 0x40000) = .scrub) : access c off 4 = .held := by
  rw [access_word h]
  rcases hbank with hbank | hbank <;> rw [hbank] <;> rfl

/-! ### The four instructions -/

@[simp] theorem modBits_2_0 (w : TileWord) : modBits w 2 0 = w.md.toNat % 8 := by simp [modBits_eq]

section Narrow
variable {c : Core} {w : TileWord} {off : Nat} (hoff : (x c w.f2).toNat + w.imm.toNat % 0x400000 = off)
include hoff

section Word
variable (halign : off % 4 = 0) (hend : off + 4 ≤ spadBytes)
include halign hend

theorem ldx_eq (hu : usesOnly w true true false false 0 0x3FFFFF#32 = true) : ldx c w = withAccess c off 4 uVector
    (next (setX (narrowReads c (off / 32 * 32) 1).2 w.f1
      (BitVec.ofNat 32 (field (narrowReads c (off / 32 * 32) 1).1 (off % 32) 4)))) := by
  unfold ldx
  simp only [ea_low22, hoff]
  rw [legal_pos hu, spadRange_pos halign hend]

variable (hg : GoesOn c) (hacc : access c off 4 = .ok)
include hg hacc

theorem ldx_of_accessible (hu : usesOnly w true true false false 0 0x3FFFFF#32 = true) :
    ldx c w = .done (advance (setX (narrowReads c (off / 32 * 32) 1).2 w.f1
      (BitVec.ofNat 32 (field (narrowReads c (off / 32 * 32) 1).1 (off % 32) 4)))) := by
  rw [ldx_eq hoff halign hend hu, withAccess_pos hacc]
  exact next_setX (goesOn_congr (by simp) (by simp) (by simp) hg) _ _

theorem stx_of_accessible (hu : usesOnly w false true true false 0 0x3FFFFF#32 = true) :
    stx c w = .done (advance (narrowWrite c off (leBytes 4 (x c w.f3).toNat))) := by
  unfold stx
  simp only [ea_low22, hoff]
  rw [legal_pos hu, spadRange_pos halign hend, withAccess_pos hacc]
  exact next_of_seq_eq hg (narrowWrite_seq c off _)
end Word

theorem ldx_of_out_of_range (hu : usesOnly w true true false false 0 0x3FFFFF#32 = true)
    (hbad : off % 4 ≠ 0 ∨ spadBytes < off + 4) : ldx c w = .fault fSpadRange uVector off := by
  unfold ldx
  simp only [ea_low22, hoff]
  rw [legal_pos hu, spadRange_neg hbad]

section Vector
variable {n : Nat} (hn : w.md.toNat % 8 + 1 = n) (hu : usesOnly w true true false false 7#8 0x3FFFFF#32 = true)
include hn hu

theorem vld_of_out_of_range (hbad : off % 32 ≠ 0 ∨ spadBytes < off + 32 * n) : vld c w = .fault fSpadRange uVector off := by
  have hparts : modBits w 2 0 + 1 = n := by rw [modBits_2_0, hn]
  unfold vld
  simp only [ea_low22, hoff, hparts]
  rw [legal_pos hu, spadRange_neg hbad]

variable (halign : off % 32 = 0) (hend : off + 32 * n ≤ spadBytes) (hg : GoesOn c) (hacc : access c off (32 * n) = .ok)
include halign hend hg hacc

theorem vld_of_accessible : vld c w =
    .done (advance (setVFrom (narrowReads c off n).2 w.f1 0 (wordsOf (narrowReads c off n).1 (8 * n)))) := by
  have hparts : modBits w 2 0 + 1 = n := by rw [modBits_2_0, hn]
  unfold vld
  simp only [ea_low22, hoff, hparts]
  rw [legal_pos hu, spadRange_pos halign hend, withAccess_pos hacc]
  exact next_of hg (by simp) (by simp) (by simp)

theorem vst_of_accessible : vst c w =
    .done (advance (narrowWrites c off n (bytesOf ((v c w.f1).take (8 * n))))) := by
  have hparts : modBits w 2 0 + 1 = n := by rw [modBits_2_0, hn]
  unfold vst
  simp only [ea_low22, hoff, hparts]
  rw [legal_pos hu, spadRange_pos halign hend, withAccess_pos hacc]
  exact next_of_seq_eq hg (narrowWrites_seq c off n _)
end Vector
end Narrow

/-! ### What a program fault leaves of its core (R182) -/

theorem recordFault_drops_work (c : Core) (pc code unit arg : Nat) :
    let d := recordFault c pc code unit arg
    d.arr.loading = none ∧ d.arr.flights = [] ∧ d.dma0.queue = [] ∧ d.dma1.queue = [] ∧
      (∀ p ∈ d.ports, p.2.outbound = []) ∧ d.run.spanWaits = [] := by
  refine ⟨rfl, rfl, rfl, rfl, fun p hp => ?_, rfl⟩
  obtain ⟨q, -, rfl⟩ := List.mem_map.mp hp
  rfl

end Cu

/-- Settles O4: each access passes its checks or fails the one that its lemma names; a program fault leaves the core that
recordFault gives. -/
theorem narrowAccessResults : Obligations.NarrowAccessResults := by
  unfold Obligations.NarrowAccessResults
  refine ⟨fun s op h hg => ⟨fun halign hend hacc => ⟨fun hu => ?ldx, fun hu => ?stx⟩, fun halign hend hacc hu => ⟨?vld, ?vst⟩⟩,
    fun s op h hu => ⟨fun hbad => ?wordRange, fun hbad => ?vectorRange, fun halign hend hoff => ?bankOff,
      fun halign hend hwakes => ?bankHeld⟩,
    fun s k pc code unit arg hnone => ?fault⟩
  case ldx => exact exec_of_issue_done rfl h (Cu.ldx_of_accessible rfl halign hend hg hacc hu)
  case stx => exact exec_of_issue_done rfl h (Cu.stx_of_accessible rfl halign hend hg hacc hu)
  case vld => exact exec_of_issue_done rfl h (Cu.vld_of_accessible rfl rfl hu halign hend hg hacc)
  case vst => exact exec_of_issue_done rfl h (Cu.vst_of_accessible rfl rfl hu halign hend hg hacc)
  case wordRange => exact exec_of_issue_fault rfl h (Cu.ldx_of_out_of_range rfl hu hbad)
  case vectorRange =>
    have hone : op.w.md.toNat % 8 + 1 = 1 := by rw [Cu.md_eq_zero_of_usesOnly hu]; rfl
    exact exec_of_issue_fault rfl h (Cu.vld_of_out_of_range rfl hone (Cu.usesOnly_of_no_md hu 7#8) hbad)
  case bankOff =>
    have hacc := (Cu.access_word halign (s.coreOf op)).trans (if_pos hoff)
    exact exec_of_issue_fault rfl h ((Cu.ldx_eq rfl halign hend hu).trans (Cu.withAccess_of_off hacc _ _))
  case bankHeld =>
    have hacc := Cu.access_word_of_not_ready halign hwakes
    exact exec_of_issue_held rfl h ((Cu.ldx_eq rfl halign hend hu).trans (Cu.withAccess_of_held hacc _ _))
  case fault =>
    have hdrops := Cu.recordFault_drops_work (s.core k) pc code unit arg
    obtain ⟨hload, hflights, hdma0, hdma1, hports, hwaits⟩ := hdrops
    exact ⟨_, State.programFault_of_no_dispatch hnone pc code unit arg, rfl, rfl, rfl, rfl, rfl, hload, hflights, hdma0, hdma1,
      hports, hwaits, rfl, rfl, rfl, rfl, rfl⟩

end Sys2Proof.Machine
end

section
/-! SUPPORT. The synchronizing instructions, the release of a barrier and END (R120, R123, R149, R153, R175 to R177, O11). -/

namespace Sys2Proof.Machine

/-! ### An issue that may repeat while its core waits (R149, R185) -/

theorem Issues.issuesWait {s : State} {op : TileOp} (h : Issues s op) : IssuesWait s op := by
  obtain ⟨hpos, hfrozen, hrun, hrest⟩ := h
  exact ⟨hpos, hfrozen, .inl hrun, hrest⟩

theorem canIssue_of_issuesWait {s : State} {op : TileOp} (h : IssuesWait s op) : canIssue (s.coreOf op) true = true := by
  obtain ⟨_, _, hstate, hzero, _⟩ := h
  rcases hstate with hrun | ⟨hwait, hbar⟩
  · simp [canIssue, hrun, hzero]
  · simp [canIssue, hwait, hbar, hzero]

theorem issueWith_eq_of_issuesWait {s : State} {op : TileOp} (h : IssuesWait s op) (f : State → Nat → State) :
    s.issueWith op true f = f s (CorePos.key op.core) := by
  have hcan := canIssue_of_issuesWait h
  obtain ⟨hpos, hfrozen, _, _, hlisted, hhw⟩ := h
  simp [State.issueWith, State.onCore, hpos, hfrozen, hlisted, hcan, hhw]

/-- As exec_of_issue_done, for an instruction that issues again while it waits. -/
theorem exec_of_repeated_issue_done {s : State} {op : TileOp} {i : Instr} {f : Core → TileWord → Cu.Res} {d : Core}
    (hi : exec i s = .next (s.issueWith op true (fun t k => t.settleRes k (t.core k).seq.pc (f (t.core k) op.w))))
    (h : IssuesWait s op) (hf : f (s.coreOf op) op.w = .done d) : exec i s = .next (s.leaves op d) := by
  rw [hi, issueWith_eq_of_issuesWait h, hf, settleRes_done]

/-! ### Modifier bits (R155, R156) -/

namespace Cu

/-- A modifier has no bits but those its instruction uses. -/
theorem md_le_of_usesOnly {w : TileWord} {u1 u2 u3 u4 : Bool} {m : BitVec 8} {imm : BitVec 32}
    (hu : usesOnly w u1 u2 u3 u4 m imm = true) : w.md.toNat ≤ m.toNat := by
  simp only [usesOnly, Bool.and_eq_true, beq_iff_eq] at hu
  obtain ⟨⟨_, hunused⟩, _⟩ := hu
  have hused : w.md = w.md &&& m := by
    ext i hi
    have hbit := congrArg (fun b : BitVec 8 => b[i]) hunused
    simp only [BitVec.getElem_and, BitVec.getElem_not] at hbit ⊢
    revert hbit
    cases w.md[i] <;> simp
  rw [hused, BitVec.toNat_and]
  exact Nat.and_le_right

theorem decide_modBit (w : TileWord) (i : Nat) : decide (modBits w i i = 1) = w.md.getLsbD i := by
  rw [modBits_eq, Nat.add_sub_cancel_left, Nat.pow_one, BitVec.getLsbD, Nat.testBit_eq_decide_div_mod_eq]

@[simp] theorem modBits_5_0 (w : TileWord) : modBits w 5 0 = w.md.toNat % 0x40 := by simp [modBits_eq]
@[simp] theorem immBits_15_0 (w : TileWord) : immBits w 15 0 = w.imm.toNat % 0x10000 := by simp [immBits_eq]

theorem arrayEmpty_iff (c : Core) : arrayEmpty c = true ↔ c.arr.flights = [] ∧ c.arr.loading = none := by
  simp [arrayEmpty]

end Cu

theorem dmaQuiet_iff (c : Core) : dmaQuiet c = true ↔ c.dma0.queue = [] ∧ c.dma1.queue = [] := by
  simp [dmaQuiet]

/-! ### WAIT and CSET (R175, R176) -/

section Counter
variable {c : Core} {w : TileWord}

/-- The counter that a WAIT names has met its target, modulo 2^16. -/
def WaitMet (c : Core) (w : TileWord) : Prop :=
  (Cu.counter c w.md.toNat - BitVec.ofNat 16 ((Cu.x c w.f2).toNat + w.imm.toNat % 0x10000)).toNat < 2 ^ 15

theorem atOrBelow_iff (n counter : BitVec 16) : atOrBelow n counter = true ↔ (counter - n).toNat < 2 ^ 15 := by
  rw [atOrBelow, decide_eq_true_iff]

section Wait
variable (hu : Cu.usesOnly w false true false false 0x3F#8 0xFFFF#32 = true) (hlt : w.md.toNat ≤ 23)
include hu hlt

theorem wait_of_met (hmet : WaitMet c w) (hg : GoesOn c) :
    wait c w = .done (advance { c with seq := { c.seq with state := .running } }) := by
  have hi : Cu.modBits w 5 0 = w.md.toNat := (Cu.modBits_5_0 w).trans (Nat.mod_eq_of_lt (by omega))
  unfold wait
  simp only [hi, Cu.immBits_15_0]
  rw [Cu.legal_pos (by rw [hu, decide_eq_true hlt]; rfl), if_pos ((atOrBelow_iff _ _).mpr hmet)]
  exact Cu.next_of hg rfl rfl rfl

theorem wait_of_not_met (hmet : ¬ WaitMet c w) :
    wait c w = .done { c with seq := { c.seq with state := .waiting } } := by
  have hi : Cu.modBits w 5 0 = w.md.toNat := (Cu.modBits_5_0 w).trans (Nat.mod_eq_of_lt (by omega))
  unfold wait
  simp only [hi, Cu.immBits_15_0]
  rw [Cu.legal_pos (by rw [hu, decide_eq_true hlt]; rfl), if_neg ((atOrBelow_iff _ _).not.mpr hmet)]
end Wait

theorem cset_of_sem {i : Nat} {n : BitVec 16} (hi : w.md.toNat % 0x40 = i)
    (hn : BitVec.ofNat 16 ((Cu.x c w.f2).toNat + w.imm.toNat % 0x10000) = n)
    (hu : Cu.usesOnly w false true false false 0x7F#8 0xFFFF#32 = true) (hlt : i ≤ 15) (hg : GoesOn c) :
    cset c w = .done (advance { c with seq := { c.seq with
      sem := SMap.set 0#16 c.seq.sem i (if w.md.toNat / 0x40 = 1 then SMap.get 0#16 c.seq.sem i + n else n) } }) := by
  have hmd : w.md.toNat ≤ 0x7F := Cu.md_le_of_usesOnly hu
  have hadd : Cu.modBits w 6 6 = w.md.toNat / 0x40 := (Cu.modBits_eq w 6 6).trans (Nat.mod_eq_of_lt (by omega))
  unfold cset
  simp only [Cu.modBits_5_0, hi, Cu.immBits_15_0, hn, hadd]
  rw [Cu.legal_pos (by rw [hu, decide_eq_true hlt]; rfl)]
  exact Cu.next_of hg rfl rfl rfl
end Counter

/-! ### FENCE and BAR (R120, R175, R177) -/

/-- The units that a FENCE names have completed what was issued to them. -/
def FenceQuiet (c : Core) (w : TileWord) : Prop :=
  (w.md.getLsbD 1 = true → c.arr.flights = [] ∧ c.arr.loading = none) ∧
    (w.md.getLsbD 3 = true → c.dma0.queue = [] ∧ c.dma1.queue = [])

/-- The descriptors that a BAR waits for have completed. -/
def BarQuiet (c : Core) (w : TileWord) : Prop := w.md.toNat / 8 = 1 → c.dma0.queue = [] ∧ c.dma1.queue = []

theorem fenceQuiet_iff (c : Core) (w : TileWord) : FenceQuiet c w ↔
    ((w.md.getLsbD 1 && !Cu.arrayEmpty c) || (w.md.getLsbD 3 && !dmaQuiet c)) = false := by
  rw [FenceQuiet, ← Cu.arrayEmpty_iff, ← dmaQuiet_iff]
  simp

/-- A core that has flushed its gather buffer, counted an arrival at a group and holds there (R177). -/
def barArrived (c : Core) (g : Nat) : Core :=
  let d := Cu.flushAll c
  { d with
    seq := { d.seq with state := .waiting, atBar := some g }
    run := { d.run with barCount := SMap.set 0 d.run.barCount g (SMap.get 0 c.run.barCount g + 1) } }

section Units
variable {c : Core} {w : TileWord} (hu : Cu.usesOnly w false false false false 0x0F#8 0 = true)
include hu

theorem fence_of_quiet (hg : GoesOn c) (hq : FenceQuiet c w) :
    fence c w = .done (advance (if w.md.getLsbD 0 then Cu.flushAll c else c)) := by
  unfold fence
  simp only [Cu.decide_modBit]
  rw [Cu.legal_pos hu, if_neg (Bool.eq_false_iff.mp ((fenceQuiet_iff c w).mp hq))]
  refine Cu.next_of_seq_eq hg ?_
  split
  · exact Cu.flushAll_seq c
  · rfl

theorem fence_of_not_quiet (hq : ¬ FenceQuiet c w) : fence c w = .held := by
  unfold fence
  simp only [Cu.decide_modBit]
  rw [Cu.legal_pos hu, if_pos (Bool.eq_true_of_not_eq_false ((fenceQuiet_iff c w).not.mp hq))]

theorem barQuiet_iff : BarQuiet c w ↔ ¬ (Cu.modBits w 3 3 = 1 ∧ (!dmaQuiet c) = true) := by
  have hmd : w.md.toNat ≤ 0x0F := Cu.md_le_of_usesOnly hu
  have hd : Cu.modBits w 3 3 = w.md.toNat / 8 := (Cu.modBits_eq w 3 3).trans (Nat.mod_eq_of_lt (by omega))
  rw [hd, BarQuiet, ← dmaQuiet_iff]
  simp

variable {g : Nat} (hg : w.md.toNat % 8 = g) (hgroup : c.run.barGroups.contains g = true)
include hg hgroup

theorem bar_of_quiet (hq : BarQuiet c w) (hreplay : c.run.replay.active = false) : bar c w = .done (barArrived c g) := by
  have hbits : Cu.modBits w 2 0 = g := (Cu.modBits_2_0 w).trans hg
  unfold bar
  simp only [hbits]
  rw [Cu.legal_pos (by rw [hu, hgroup]; rfl), if_neg ((barQuiet_iff hu).mp hq), hreplay]
  rfl

theorem bar_of_not_quiet (hq : ¬ BarQuiet c w) : bar c w = .done { c with seq := { c.seq with state := .waiting } } := by
  have hbits : Cu.modBits w 2 0 = g := (Cu.modBits_2_0 w).trans hg
  unfold bar
  simp only [hbits]
  rw [Cu.legal_pos (by rw [hu, hgroup]; rfl), if_pos (not_not.mp ((barQuiet_iff hu).not.mp hq))]
end Units

/-! ### EVT (R175) -/

theorem evtNext_of_goesOn {c : Core} (h : GoesOn c) :
    evtNext c = .done (advance { c with run := { c.run with nEvt := c.run.nEvt + 1 } }) := Cu.next_of h rfl rfl rfl

theorem Die.post_of_room {d : Die} (h : d.evtQueued ≤ Config.eventQueueMore) (e : Nat × Word × Nat) :
    d.post e = some { d with events := e :: d.events, evtQueued := d.evtQueued + 1 } := if_pos h

theorem Die.post_of_full {d : Die} (h : Config.eventQueueMore < d.evtQueued) (e : Nat × Word × Nat) :
    d.post e = none := if_neg (Nat.not_le.mpr h)

section Evt
variable {s : State} {op : TileOp} (h : Issues s op) (hu : Cu.usesOnly op.w false true false false 0 0xFFFF#32 = true)
  {tag : Nat} (htag : op.w.imm.toNat % 0x10000 = tag) (hspan : tag < 0xF500 ∨ 0xF5FF < tag)
  (hreplay : (s.coreOf op).run.replay.active = false)
include h hu htag hspan hreplay

/-- A post that the queue of the die marshal has room for enters it, and the core goes on. -/
theorem exec_tEvt_of_room (hg : GoesOn (s.coreOf op)) (hroom : (s.die (CorePos.key op.core / 256)).evtQueued ≤ Config.eventQueueMore) :
    exec (.tEvt op) s = .next ((s.setDie (CorePos.key op.core / 256) { s.die (CorePos.key op.core / 256) with
      events := (tag, Cu.x (s.coreOf op) op.w.f2, s.posWord (CorePos.key op.core)) :: (s.die (CorePos.key op.core / 256)).events
      evtQueued := (s.die (CorePos.key op.core / 256)).evtQueued + 1 }).setCore (CorePos.key op.core)
        (advance { s.coreOf op with run := { (s.coreOf op).run with nEvt := (s.coreOf op).run.nEvt + 1 } })) := by
  have hlegal : evtLegal op.w = true := hu
  have hout : ¬ (0xF500 ≤ tag ∧ tag ≤ 0xF5FF) := by omega
  show execTEvt op s = _
  rw [execTEvt, issueWith_eq h]
  simp only [Cu.immBits_15_0, htag, hlegal, if_neg hout, hreplay, Bool.not_true, Bool.false_and, Bool.false_eq_true, if_false,
    Die.post_of_room hroom, evtNext_of_goesOn hg, settleRes_done]

/-- A full queue stalls the core, and the marshal takes one post. -/
theorem exec_tEvt_of_full (hfull : Config.eventQueueMore < (s.die (CorePos.key op.core / 256)).evtQueued) :
    exec (.tEvt op) s = .next (s.updDie (CorePos.key op.core / 256) Die.takePost) := by
  have hlegal : evtLegal op.w = true := hu
  have hout : ¬ (0xF500 ≤ tag ∧ tag ≤ 0xF5FF) := by omega
  show execTEvt op s = _
  rw [execTEvt, issueWith_eq h]
  simp only [Cu.immBits_15_0, htag, hlegal, if_neg hout, hreplay, Bool.not_true, Bool.false_and, Bool.false_eq_true, if_false,
    Die.post_of_full hfull]
end Evt

/-! ### The release of a barrier (R175, R177) -/

theorem State.release_of_held {t : State} {g k : Nat} (hbar : (t.core k).seq.atBar = some g) (hfrozen : (t.core k).run.frozen = false)
    (hg : GoesOn (t.core k)) : t.release g k =
      t.setCore k (advance { t.core k with seq := { (t.core k).seq with state := .running, atBar := none } }) := by
  unfold State.release
  simp only [hbar, hfrozen, Bool.not_false, and_self, if_true]
  have hnext := Cu.next_of (d := { t.core k with seq := { (t.core k).seq with state := .running, atBar := none } }) hg rfl rfl rfl
  exact congrArg (t.settleRes k (t.core k).seq.pc) hnext

theorem State.release_of_elsewhere {t : State} {g k : Nat} (hbar : (t.core k).seq.atBar ≠ some g) : t.release g k = t :=
  if_neg fun h => hbar h.1

theorem exec_barRelease_of_plan {s : State} {p h : Nat} {x : Partition} {y : Context} {pl : PlanInst} (g : Nat)
    (hx : s.part p = some x) (hcur : x.current = some h) (hy : x.ctx h = some y) (hpl : y.plan = some pl) :
    let ks := (Plan.barMembers pl.image g).map (fun q => s.keyAt x q)
    let count (k : Nat) := SMap.get 0 (s.core k).run.barCount g
    let least := (ks.map count).foldl min (2 ^ 64)
    exec (.barRelease p g) s =
      .next ((ks.filter (fun k => decide (count k ≤ least))).foldl (fun t k => t.release g k) s) := by
  show execBarRelease p g s = _
  simp only [execBarRelease, hx, hcur, Option.bind_some, hy, hpl]

/-! ### END (R120, R123, R153, R175) -/

theorem spanWaits_of_endQuiet {c : Core} (h : endQuiet c = true) : c.run.spanWaits = [] := by
  rw [endQuiet, Bool.and_eq_true, List.isEmpty_iff] at h
  exact h.2

/-- A held write of BANK_PWR changes the bank registers alone; without one the end of a program changes nothing (R117). -/
theorem Cu.programEnded_frame (c : Core) :
    (programEnded c).seq = c.seq ∧ (programEnded c).run = c.run ∧ (c.regs.bankPwrNext = none → programEnded c = c) := by
  unfold programEnded
  split
  · exact ⟨rfl, rfl, fun _ => rfl⟩
  · next mask hnext =>
    obtain ⟨m, hm⟩ := foldl_wakeBank_frame mask (List.range 16)
      { c with regs := { c.regs with bankPwr := mask, bankPwrNext := none } }
    rw [setBankPwr_eq, hm]
    exact ⟨rfl, rfl, fun hnone => nomatch hnext.symm.trans hnone⟩

/-- The core that END leaves. -/
def endedCore (c : Core) : Core :=
  let d := Cu.flushAll c
  Cu.programEnded { d with seq := { d.seq with state := .idle, loops := [] } }

theorem endedCore_frame {c : Core} (h : endQuiet c = true) :
    (endedCore c).seq.state = .idle ∧ (endedCore c).seq.loops = [] ∧ (endedCore c).seq.x = c.seq.x ∧ (endedCore c).seq.sem = c.seq.sem ∧
      (endedCore c).run = c.run ∧
      (c.regs.bankPwrNext = none → (endedCore c).mem = (Cu.flushAll c).mem ∧ (endedCore c).regs = (Cu.flushAll c).regs) := by
  obtain ⟨hseq, hrun, hnone⟩ := Cu.programEnded_frame
    { Cu.flushAll c with seq := { (Cu.flushAll c).seq with state := .idle, loops := [] } }
  have hidle : (endedCore c).seq = { c.seq with state := .idle, loops := [] } :=
    hseq.trans (congrArg (fun q : SeqRegs => { q with state := .idle, loops := [] }) (Cu.flushAll_seq c))
  refine ⟨by rw [hidle], by rw [hidle], by rw [hidle], by rw [hidle],
    hrun.trans (Cu.flushAll_run_of_no_waits (spanWaits_of_endQuiet h)), fun hnext => ?_⟩
  have hsame := hnone ((congrArg CoreRegs.bankPwrNext (Cu.flushWhere_notesOnly c fun _ => true).regs).trans hnext)
  exact ⟨(congrArg Core.mem hsame :), (congrArg Core.regs hsame :)⟩

section End
variable {s : State} {op : TileOp} (h : Issues s op) (hw : op.w = ⟨0, 0, 0, 0, 0, 0⟩)
include h hw

theorem exec_tEnd_of_busy (hbusy : endQuiet (s.coreOf op) = false) : exec (.tEnd op) s = .next s := by
  show execTEnd op s = _
  rw [execTEnd, issueWith_eq h, hw, endCore, Cu.legal_pos (by decide), hbusy]
  rfl

theorem exec_tEnd_of_quiet (hquiet : endQuiet (s.coreOf op) = true) :
    exec (.tEnd op) s = .next ((s.leaves op (endedCore (s.coreOf op))).endReport (CorePos.key op.core)) := by
  show execTEnd op s = _
  rw [execTEnd, issueWith_eq h, hw, endCore, Cu.legal_pos (by decide), hquiet]
  rfl
end End

theorem State.endReport_of_no_dispatch {t : State} {k : Nat} (h : t.dispatchOf k = none) : t.endReport k = t := by
  unfold State.endReport
  rw [h]

/-- Settles O11: each synchronizing instruction as its condition decides; a release lets the members at the group go on; END
leaves the core that endedCore gives once all is quiet. -/
theorem synchronizationResults : Obligations.SynchronizationResults := by
  unfold Obligations.SynchronizationResults
  refine ⟨fun s op => ⟨fun h hu hlt => ⟨fun hmet hg => ?met, fun hmet => ?notMet⟩, fun h hg hu hlt => ?cset,
      fun h hu => ⟨fun hq hg => ?fence, fun hq => ?fenceHeld⟩, fun h hu hgroup => ⟨fun hq hreplay => ?bar, fun hq => ?barWaits⟩,
      fun h hg hu hspan hreplay => ⟨fun hroom => ?post, fun hfull => ?stall⟩⟩,
    fun s p g h x y pl hx hcur hy hpl => ⟨exec_barRelease_of_plan g hx hcur hy hpl,
      fun t k hbar hfrozen hg => State.release_of_held hbar hfrozen hg, fun t k hbar => State.release_of_elsewhere hbar⟩,
    fun s op h hw => ⟨exec_tEnd_of_busy h hw,
      fun hquiet => ⟨endedCore (s.coreOf op), exec_tEnd_of_quiet h hw hquiet, endedCore_frame hquiet⟩,
      fun t hnone => State.endReport_of_no_dispatch hnone⟩⟩
  case met => exact exec_of_repeated_issue_done rfl h (wait_of_met hu hlt hmet hg)
  case notMet => exact exec_of_repeated_issue_done rfl h (wait_of_not_met hu hlt hmet)
  case cset => exact exec_of_issue_done rfl h (cset_of_sem rfl rfl hu hlt hg)
  case fence => exact exec_of_issue_done rfl h (fence_of_quiet hu hg hq)
  case fenceHeld => exact exec_of_issue_held rfl h (fence_of_not_quiet hu hq)
  case bar => exact exec_of_repeated_issue_done rfl h.issuesWait (bar_of_quiet hu rfl hgroup hq hreplay)
  case barWaits => exact exec_of_repeated_issue_done rfl h.issuesWait (bar_of_not_quiet hu rfl hgroup hq)
  case post => exact exec_tEvt_of_room h hu rfl hspan hreplay hg hroom
  case stall => exact exec_tEvt_of_full h hu rfl hspan hreplay hfull

end Sys2Proof.Machine
end

section
/-! SUPPORT. DMAQ, the stages of a descriptor, NBX and the arrival of beats (R126 to R139, R173, R174, R179, R653, O12). -/

namespace Sys2Proof.Machine

/-! ### Access to one engine of a core -/

namespace Core

theorem dma_updDma_same (c : Core) (e : Nat) (f : DmaEngine → DmaEngine) : (c.updDma e f).dma e = f (c.dma e) := by
  unfold updDma dma
  split <;> rfl

theorem dma_updDma_other (c : Core) {e : Nat} (he : e ≤ 1) (f : DmaEngine → DmaEngine) :
    (c.updDma e f).dma (1 - e) = c.dma (1 - e) := by
  obtain rfl | rfl : e = 0 ∨ e = 1 := by omega
  · rfl
  · rfl

@[simp] theorem updDma_seq (c : Core) (e : Nat) (f : DmaEngine → DmaEngine) : (c.updDma e f).seq = c.seq := by
  unfold updDma
  split <;> rfl

@[simp] theorem updDma_mem (c : Core) (e : Nat) (f : DmaEngine → DmaEngine) : (c.updDma e f).mem = c.mem := by
  unfold updDma
  split <;> rfl

@[simp] theorem updDma_run (c : Core) (e : Nat) (f : DmaEngine → DmaEngine) : (c.updDma e f).run = c.run := by
  unfold updDma
  split <;> rfl

end Core

/-! ### DMAQ (R132, R133, R173) -/

/-- The core with a descriptor at the end of a queue, counted if it moves data outward (R642). -/
def descQueued (c : Core) (e : Nat) (desc : Desc) : Core :=
  (if desc.toExt then { c with run := { c.run with nDmaOut := c.run.nDmaOut + 1 } } else c).updDma e
    (fun g => { g with queue := g.queue ++ [desc] })

theorem descQueued_seq (c : Core) (e : Nat) (desc : Desc) : (descQueued c e desc).seq = c.seq := by
  unfold descQueued
  rw [Core.updDma_seq]
  split <;> rfl

/-- Outside a replay a descriptor is descQueued, and none completes at issue (R646). -/
theorem queueDesc_of_no_replay {c : Core} (h : c.run.replay.active = false) (e : Nat) (desc : Desc) :
    queueDesc c e desc = descQueued c e desc := by
  simp only [queueDesc, h, Bool.and_false, Bool.false_and, Bool.false_eq_true, if_false]
  rfl

theorem queueBytes_of_desc {c d : Core} {w : TileWord} {e : Nat} {bs : List Byte} {desc : Desc} (hg : GoesOn c)
    (hseq : d.seq = c.seq) (hreplay : d.run.replay.active = false)
    (hdesc : Cu.decodeDesc bs (Cu.x d w.f2).toNat (Cu.x d w.f3).toNat d.run.nDmaOut d.seq.pc = some desc) :
    queueBytes d w e bs = .done (advance (descQueued d e desc)) := by
  unfold queueBytes
  rw [hdesc]
  exact (congrArg Cu.next (queueDesc_of_no_replay hreplay e desc)).trans
    (Cu.next_of_seq_eq hg ((descQueued_seq d e desc).trans hseq))

section Dmaq
variable {c : Core} {w : TileWord} {e : Nat} (he : w.md.toNat % 2 = e) (hroom : (c.dma e).queue.length < 16) (hg : GoesOn c)
  (hreplay : c.run.replay.active = false) {desc : Desc}
include he hroom hg hreplay

/-- The descriptor lies in SPAD. -/
theorem dmaq_of_spad {off : Nat} (hu : Cu.usesOnly w true true true false 0x03#8 0x3FFFFF#32 = true)
    (hspad : w.md.toNat / 2 = 1) (hoff : (Cu.x c w.f1).toNat + w.imm.toNat % 0x400000 = off) (halign : off % 64 = 0)
    (hend : off + 64 ≤ Cu.spadBytes) (hacc : Cu.access c off 64 = .ok)
    (hdesc : Cu.decodeDesc (Cu.narrowReads c off 2).1 (Cu.x (Cu.narrowReads c off 2).2 w.f2).toNat
      (Cu.x (Cu.narrowReads c off 2).2 w.f3).toNat (Cu.narrowReads c off 2).2.run.nDmaOut (Cu.narrowReads c off 2).2.seq.pc =
        some desc) :
    dmaq c w = .done (advance (descQueued (Cu.narrowReads c off 2).2 e desc)) := by
  have hkept : (Cu.narrowReads c off 2).2.run.replay.active = false := by
    obtain ⟨f, hf⟩ := Cu.narrowReads_run c off 2
    rw [hf]
    exact hreplay
  unfold dmaq
  simp only [Cu.modBits_0_0, Cu.modBits_1_1, he, hspad, Cu.ea_low22, hoff, decide_true, if_true]
  rw [Cu.legal_pos hu, if_neg (Nat.not_le.mpr hroom), Cu.spadRange_pos halign hend, Cu.withAccess_pos hacc]
  exact queueBytes_of_desc hg (Cu.narrowReads_seq c off 2) hkept hdesc

/-- The descriptor lies in program memory. -/
theorem dmaq_of_program {at_ : Nat} (hu : Cu.usesOnly w false true true false 0x03#8 0x1FFF#32 = true)
    (hprog : w.md.toNat / 2 = 0) (hat : w.imm.toNat % 0x2000 = at_) (halign : at_ % 8 = 0)
    (hdesc : Cu.decodeDesc ((SMap.getRange 0#64 c.mem.prog at_ 8).flatMap (fun d => leBytes 8 d.toNat)) (Cu.x c w.f2).toNat
      (Cu.x c w.f3).toNat c.run.nDmaOut c.seq.pc = some desc) :
    dmaq c w = .done (advance (descQueued c e desc)) := by
  have himm : Cu.immBits w 12 0 = at_ := by simpa [Cu.immBits_eq] using hat
  unfold dmaq
  simp only [Cu.modBits_0_0, Cu.modBits_1_1, he, hprog, himm]
  simp only [Nat.zero_mod, Nat.zero_ne_one, decide_false, Bool.false_eq_true, if_false]
  rw [Cu.legal_pos hu, if_neg (Nat.not_le.mpr hroom), if_neg (not_not_intro halign)]
  exact queueBytes_of_desc hg rfl hreplay hdesc
end Dmaq

theorem exec_tDmaq_of_done {s : State} {op : TileOp} {d : Core} (h : Issues s op) (hd : dmaq (s.coreOf op) op.w = .done d) :
    exec (.tDmaq op) s = .next (s.leaves op d) := by
  show execTDmaq op s = _
  rw [execTDmaq, issueWith_eq h]
  simp only [hd, settleRes_done]

/-! ### The start of a descriptor (R132, R138, R139) -/

theorem State.whoOf_of_part {s : State} {k p : Nat} {x : Partition} (hdie : s.partOfDie (k / 256) = some p)
    (hx : s.part p = some x) : s.whoOf k = some { part := some p, ctx := x.current, core := some k } := by
  simp only [State.whoOf, hdie, hx, Option.map_some]

/-- A head whose banks are ON starts its move, and what it will write stands open meanwhile. -/
theorem State.dmaStart_of_ready {s t : State} {k e p : Nat} {x : Partition} {desc : Desc} {rest : List Desc} {ms : List Moved}
    (hqueue : ((s.core k).dma e).queue = desc :: rest) (hidle : ((s.core k).dma e).active = false)
    (hheld : ((s.core k).dma e).held = none) (hacc : ownAccess (s.core k) desc = .ok) (hdie : s.partOfDie (k / 256) = some p)
    (hx : s.part p = some x)
    (hmove : s.moveDesc { part := some p, ctx := x.current, core := some k } x k desc = .ok ms t) :
    s.dmaStart k e [] = ((arrivalsOf ms).foldl (fun u a => u.openRange k a) t).updCore k (fun c =>
      c.updDma e (fun g => { g with
        active := true, arriving := arrivalsOf ms, leaving := departuresOf ms, raced := [] })) := by
  simp only [State.dmaStart, hqueue, State.whoOf_of_part hdie hx, hdie, hidle, hheld, hacc, hx, List.foldl_nil, List.any_nil,
    State.dmaMove, hmove]
  rfl

/-! ### The completion of a descriptor (R138, R139, R179) -/

/-- The bytes of a move that met no other writer stand as they are. -/
theorem State.settleArrivals_of_not_raced (s : State) (as : List Arrival) : s.settleArrivals [] as = (as, s) := by
  induction as with
  | nil => rfl
  | cons a as ih =>
    show ((a.1, a.2) :: (s.settleArrivals [] as).1, (s.settleArrivals [] as).2) = _
    rw [ih]

theorem exec_dmaComplete_of_delivered {s t : State} {q : CorePos} {e : Nat} {w : Who} {desc : Desc} {rest : List Desc}
    (h : Reaches s q) (he : e ≤ 1) (hqueue : ((s.core (CorePos.key q)).dma e).queue = desc :: rest)
    (hactive : ((s.core (CorePos.key q)).dma e).active = true) (hheld : ((s.core (CorePos.key q)).dma e).held = none)
    (hwho : s.whoOf (CorePos.key q) = some w)
    (hdeliver : s.deliverAll w ((s.core (CorePos.key q)).dma e).raced ((s.core (CorePos.key q)).dma e).leaving = .ok () t) :
    let settled := t.settleArrivals ((s.core (CorePos.key q)).dma e).raced ((s.core (CorePos.key q)).dma e).arriving
    exec (.dmaComplete q e) s = .next (settled.2.updCore (CorePos.key q) (fun g => dmaDone g e desc rest settled.1)) := by
  show execDmaComplete q e s = _
  rw [execDmaComplete, if_pos he, onCore_eq h]
  simp only [hqueue, hwho, hactive, hheld, State.dmaFinish, hdeliver]
  rfl

/-- The core before the bytes of a completing move are written: its engine has given up the move. -/
def moveEnded (c : Core) (e : Nat) (rest : List Desc) : Core :=
  c.updDma e (fun g => { g.dropWork with queue := rest, done := g.done + 1 })

/-- A completing move writes its bytes once its engine has given it up. -/
def moveWritten (c : Core) (e : Nat) (rest : List Desc) (arr : List Arrival) : Core :=
  arr.foldl (fun g a => Cu.wideWrite g true a.1 a.2) (moveEnded c e rest)

theorem moveWritten_notesOnly (c : Core) (e : Nat) (rest : List Desc) (arr : List Arrival) :
    Cu.NotesOnly (moveEnded c e rest) (moveWritten c e rest arr) :=
  .foldl (fun d a => Cu.wideWrite_notesOnly d true a.1 a.2) arr _

theorem moveWritten_seq (c : Core) (e : Nat) (rest : List Desc) (arr : List Arrival) : (moveWritten c e rest arr).seq = c.seq :=
  (Cu.foldl_seq (fun d (a : Arrival) => Cu.wideWrite_seq d true a.1 a.2) arr _).trans (Core.updDma_seq c e _)

theorem dmaDone_eq (c : Core) (e : Nat) (desc : Desc) (rest : List Desc) (arr : List Arrival) :
    dmaDone c e desc rest arr = { Cu.incSem (moveWritten c e rest arr) desc.sem with
      run := { (moveWritten c e rest arr).run with
        dmaDone := (moveWritten c e rest arr).run.dmaDone ++ if desc.toExt then [desc.outNo] else [] } } := by
  unfold dmaDone
  cases desc.toExt with
  | true => rfl
  | false =>
    simp only [Bool.false_eq_true, if_false, List.append_nil]
    rfl

/-- An engine once a completing move of engine e has been written, but for the ranges that raced with its own move. -/
theorem dmaDone_dma (c : Core) (e i : Nat) (desc : Desc) (rest : List Desc) (arr : List Arrival) :
    ∃ r, (dmaDone c e desc rest arr).dma i = { (moveEnded c e rest).dma i with raced := r } := by
  rw [dmaDone_eq]
  exact (moveWritten_notesOnly c e rest arr).dma i

section Done
variable (c : Core) (e : Nat) (desc : Desc) (rest : List Desc) (arr : List Arrival)

theorem dmaDone_dma_same : ∃ r, (dmaDone c e desc rest arr).dma e =
    { (c.dma e).dropWork with queue := rest, done := (c.dma e).done + 1, raced := r } := by
  obtain ⟨r, hr⟩ := dmaDone_dma c e e desc rest arr
  rw [moveEnded, Core.dma_updDma_same] at hr
  exact ⟨r, hr⟩

theorem dmaDone_dma_other (he : e ≤ 1) :
    ∃ r, (dmaDone c e desc rest arr).dma (1 - e) = { c.dma (1 - e) with raced := r } := by
  obtain ⟨r, hr⟩ := dmaDone_dma c e (1 - e) desc rest arr
  rw [moveEnded, Core.dma_updDma_other c he] at hr
  exact ⟨r, hr⟩

theorem dmaDone_sem : (dmaDone c e desc rest arr).seq.sem =
    SMap.set 0#16 c.seq.sem desc.sem (SMap.get 0#16 c.seq.sem desc.sem + 1) := by
  rw [dmaDone_eq]
  show SMap.set 0#16 (moveWritten c e rest arr).seq.sem desc.sem _ = _
  rw [moveWritten_seq]

theorem dmaDone_mem : (dmaDone c e desc rest arr).mem = (arr.foldl (fun g a => Cu.wideWrite g true a.1 a.2) c).mem := by
  rw [dmaDone_eq]
  exact Cu.foldl_mem_congr (f := fun g a => Cu.wideWrite g true a.1 a.2) (Core.updDma_mem c e _)
    (fun a hm => Cu.wideWrite_mem_congr hm true a.1 a.2) arr

theorem dmaDone_run_dmaDone : (dmaDone c e desc rest arr).run.dmaDone =
    if desc.toExt then c.run.dmaDone ++ [desc.outNo] else c.run.dmaDone := by
  obtain ⟨f, hf⟩ := (moveWritten_notesOnly c e rest arr).run
  rw [moveEnded, Core.updDma_run] at hf
  rw [dmaDone_eq, hf]
  cases desc.toExt with
  | true => rfl
  | false => exact List.append_nil _
end Done

/-! ### NBX (R126 to R128, R174) -/

/-- The operands of an NBX pass the checks of R174: whole beats, at most 65,536 bytes, inside SPAD on both sides. -/
structure ExchangeOk (src dst len : Nat) : Prop where
  srcAlign : src % 64 = 0
  dstAlign : dst % 64 = 0
  lenAlign : len % 64 = 0
  short : len ≤ 65536
  srcEnd : src + len ≤ Cu.spadBytes
  dstEnd : dst + len ≤ Cu.spadBytes

/-- The modifiers of an NBX name its port and nothing else. -/
theorem modBits_port {w : TileWord} (hu : Cu.usesOnly w true true true false 0x03#8 0 = true) : Cu.modBits w 1 0 = w.md.toNat := by
  have hmd : w.md.toNat ≤ 3 := Cu.md_le_of_usesOnly hu
  exact (Cu.modBits_eq w 1 0).trans (by omega)

/-- The core that counts an exchange at a port (R642). -/
def exchangeCounted (c : Core) (port : Nat) : Core :=
  { c with run := { c.run with nNbx := SMap.set 0 c.run.nNbx port (SMap.get 0 c.run.nNbx port + 1) } }

theorem nbx_of_ready {c : Core} {w : TileWord} {port src dst len : Nat} (arrived : BitVec 16) (hg : GoesOn c)
    (hreplay : c.run.replay.active = false) (hu : Cu.usesOnly w true true true false 0x03#8 0 = true)
    (hport : w.md.toNat = port) (hsrc : (Cu.x c w.f1).toNat = src) (hdst : (Cu.x c w.f2).toNat = dst)
    (hlen : (Cu.x c w.f3).toNat = len) (hok : ExchangeOk src dst len) (hen : portEnabled c port = true)
    (hroom : ((c.port port).outbound.filter (fun b => b.last)).length < 4) (hacc : Cu.access c src len = .ok) :
    let read := Cu.wideRead (exchangeCounted c port) src len
    nbx false arrived c w = .done (advance (read.2.setPort port { (read.2.port port) with
      outbound := (read.2.port port).outbound ++ beatsOf src dst read.1 })) := by
  obtain ⟨hsa, hda, hla, hshort, hse, hde⟩ := hok
  have hbits : Cu.modBits w 1 0 = port := (modBits_port hu).trans hport
  unfold nbx
  simp only [hbits, hsrc, hdst, hlen]
  rw [Cu.legal_pos hu, if_neg (by omega), hen, if_neg (by decide), if_neg (Nat.not_le.mpr hroom), hreplay,
    if_neg (by simp), Cu.withAccess_pos hacc]
  exact Cu.next_of_seq_eq hg (Cu.wideRead_seq (exchangeCounted c port) src len)

theorem exec_tNbx_of_done {s : State} {op : TileOp} {r port : Nat} {d : Core} (h : Issues s op)
    (hport : Cu.modBits op.w 1 0 = port) (hr : s.neighbour (CorePos.key op.core) port = some r)
    (hd : nbx false (SMap.get 0#16 (s.core r).seq.arv (facing port)) (s.coreOf op) op.w = .done d) :
    exec (.tNbx op) s = .next ((s.leaves op d).pump (CorePos.key op.core) port) := by
  show execTNbx op s = _
  rw [execTNbx, issueWith_eq h]
  simp only [hport, hr, Option.isNone_some, hd]

/-! ### The arrival of a beat (R112, R126, R127, R130, R131, R653) -/

section Beat
variable {s : State} {q : CorePos} {port f : Nat} {b : Beat} {rest : List Beat} (hq : posOk q = true) (hport : port < 4)
  (hin : ((s.core (CorePos.key q)).port port).inbound = b :: rest) (hf : s.neighbour (CorePos.key q) port = some f)
include hq hport hin hf

theorem exec_nbBeatArrival_of_good (hacc : Cu.access (s.core (CorePos.key q)) b.dst b.data.length = .ok) (hraced : b.raced = false)
    (hratio : portFast (s.core f) (facing port) = false ∨ s.ratioOk (CorePos.key q) port = true) :
    exec (.nbBeatArrival q port false) s = .next
      ((s.setCore (CorePos.key q) (takeBeat (s.core (CorePos.key q)) port b rest b.data)).pump f (facing port)) := by
  have hfast : (portFast (s.core f) (facing port) && !s.ratioOk (CorePos.key q) port) = false := by
    rcases hratio with hslow | hok
    · rw [hslow, Bool.false_and]
    · rw [hok, Bool.not_true, Bool.and_false]
  show execNbBeatArrival q port false s = _
  simp only [execNbBeatArrival, hq, hin, hf, hacc, hraced, hfast, Nat.not_le.mpr hport, Bool.not_true, Bool.false_eq_true,
    or_self, if_false, ne_eq, not_true_eq_false]
  rfl

/-- A beat with bad parity is counted and dropped, and its sender stops (R653). -/
theorem exec_nbBeatArrival_of_bad_parity :
    exec (.nbBeatArrival q port true) s = .next (
      let c1 := (s.core (CorePos.key q)).setPort port { ((s.core (CorePos.key q)).port port) with inbound := rest }
      (s.setCore (CorePos.key q) { c1 with
        regs := { c1.regs with nbParErr := Cu.sat8 c1.regs.nbParErr 1 }, run := { c1.run with hit := true } }).updCore f freeze) := by
  show execNbBeatArrival q port true s = _
  simp only [execNbBeatArrival, hq, hin, hf, Nat.not_le.mpr hport, Bool.not_true, Bool.false_eq_true, or_self, if_false, if_true]
end Beat

/-- Settles O12: DMAQ and NBX pass their checks and queue; the head of a queue starts and completes; a beat that arrives is
written or, with bad parity, dropped. -/
theorem dataMoverResults : Obligations.DataMoverResults := by
  unfold Obligations.DataMoverResults
  refine ⟨⟨fun s op h hg hreplay => ?queue, ?start, ?complete, fun c e desc rest arr he => ?done⟩,
    fun s op r h hg hreplay => ?exchange, fun s q port f b rest hq hport => ?arrival⟩
  case queue =>
    intro c w e off at_ queued reads hroom
    exact ⟨fun hu hspad halign hend hacc desc hdesc =>
        exec_tDmaq_of_done h (dmaq_of_spad rfl hroom hg hreplay hu hspad rfl halign hend hacc hdesc),
      fun hu hprog halign desc hdesc => exec_tDmaq_of_done h (dmaq_of_program rfl hroom hg hreplay hu hprog rfl halign hdesc)⟩
  case start =>
    intro s t q e p errs x desc rest ms he s0 k h hqueue hidle hheld hacc hdie hx hmove
    show execDmaDescriptorStart q e errs [] s = _
    simp only [execDmaDescriptorStart, if_pos he]
    rw [onCore_eq h, State.dmaStart_of_ready hqueue hidle hheld hacc hdie hx hmove]
  case complete =>
    intro s t q e w desc rest h he k c hqueue hactive hheld hwho hdeliver
    refine ⟨exec_dmaComplete_of_delivered h he hqueue hactive hheld hwho hdeliver, fun hraced hleaving => ?_⟩
    rw [hraced, hleaving] at hdeliver
    obtain rfl : s = t := by injection hdeliver
    rw [hraced]
    exact ⟨rfl, State.settleArrivals_of_not_raced s _⟩
  case done =>
    obtain ⟨r, hsame⟩ := dmaDone_dma_same c e desc rest arr
    obtain ⟨r', hother⟩ := dmaDone_dma_other c e desc rest arr he
    intro d
    exact ⟨(congrArg DmaEngine.queue hsame :), (congrArg DmaEngine.active hsame :), (congrArg DmaEngine.done hsame :),
      dmaDone_sem c e desc rest arr, dmaDone_mem c e desc rest arr, (congrArg DmaEngine.queue hother :),
      (congrArg DmaEngine.active hother :), (congrArg DmaEngine.done hother :), dmaDone_run_dmaDone c e desc rest arr⟩
  case exchange =>
    intro c w k port src dst len hu hsa hda hla hshort hse hde hr hen hroom hacc
    exact exec_tNbx_of_done h (modBits_port hu) hr
      (nbx_of_ready _ hg hreplay hu rfl rfl rfl rfl ⟨hsa, hda, hla, hshort, hse, hde⟩ hen hroom hacc)
  case arrival =>
    intro k c hin hf
    exact ⟨exec_nbBeatArrival_of_good hq hport hin hf, exec_nbBeatArrival_of_bad_parity hq hport hin hf⟩

end Sys2Proof.Machine
end

section
/-! SUPPORT. The sum of VRED over the lanes in ascending order (R80, R154, R168, O7). -/

namespace Sys2Proof.Machine

/-- A run of writes reads back in a canonical list. -/
theorem SMap.get_setRange_in {α : Type} [DecidableEq α] (d : α) (xs : List α) {m : SMap α} (hm : SMap.wf d m = true)
    (a : Nat) {i : Nat} (hi : i < xs.length) : SMap.get d (SMap.setRange d m a xs) (a + i) = xs[i] := by
  induction xs generalizing m a i with
  | nil => exact absurd hi (Nat.not_lt_zero i)
  | cons x xs ih =>
    rw [SMap.setRange]
    cases i with
    | zero =>
      rw [SMap.get_setRange_out d xs _ (.inl (by omega))]
      exact SMap.get_set_self d ((SMap.wf_iff d m).mp hm).1 a x
    | succ i =>
      rw [show a + (i + 1) = a + 1 + i by omega]
      exact ih (SMap.wf_set d a x hm) (a + 1) (Nat.lt_of_succ_lt_succ hi)

/-! ### Sums in ascending order (R48, R80) -/

namespace Float

theorem canon_canon (w : Word) : canon (canon w) = canon w := by
  cases h : isNan w with
  | true =>
    have hnan : canon w = nan32 := if_pos h
    rw [hnan]
    decide
  | false =>
    have hsame : canon w = w := if_neg (Bool.eq_false_iff.mp h)
    rw [hsame, hsame]

/-- A widened BF16 value is canonical already (R50). -/
theorem canon_widen (h : Half) : canon (widen h) = widen h := canon_canon _

/-- The running sum starts at value 0 and adds each later one. -/
theorem foldSum_map_range (f : Nat → Word) (n : Nat) : foldSum ((List.range (n + 1)).map f) =
    (List.range n).foldl (fun r i => add r (f (i + 1))) (canon (f 0)) := by
  rw [List.range_succ_eq_map, List.map_cons, List.map_map, foldSum, List.foldl_map]
  rfl

end Float

namespace Cu

/-- Lane j of a list of words is the low half of word j / 2 where j is even, and its high half where j is odd (R154). -/
theorem halves_map_range (f : Nat → Word) (n : Nat) : halves ((List.range n).map f) =
    (List.range (2 * n)).map (fun j => (f (j / 2)).extractLsb' (16 * (j % 2)) 16) := by
  induction n with
  | zero => rfl
  | succ n ih =>
    have hlow : 2 * n / 2 = n ∧ 2 * n % 2 = 0 := by omega
    have hhigh : (2 * n + 1) / 2 = n ∧ (2 * n + 1) % 2 = 1 := by omega
    have happend (xs ys : List Word) : halves (xs ++ ys) = halves xs ++ halves ys := List.flatMap_append
    rw [List.range_succ, List.map_append, happend, ih, show 2 * (n + 1) = 2 * n + 1 + 1 by omega,
      List.range_succ, List.range_succ]
    simp [halves, hlow, hhigh]

/-- An instruction that uses the modifiers set in a word may use others besides. -/
theorem usesOnly_of_md {w : TileWord} {u1 u2 u3 u4 : Bool} {m k : BitVec 8} {imm : BitVec 32}
    (hu : usesOnly w u1 u2 u3 u4 m imm = true) (hk : w.md &&& ~~~k = 0) : usesOnly w u1 u2 u3 u4 k imm = true := by
  simp only [usesOnly, Bool.and_eq_true] at hu ⊢
  obtain ⟨⟨hregs, -⟩, himm⟩ := hu
  exact ⟨⟨hregs, beq_iff_eq.mpr hk⟩, himm⟩

/-- The first word that a write of a vector register gives reads back. -/
theorem get_setV_zero {c : Core} (hv : SMap.wf 0#32 c.seq.v = true) (i : BitVec 4) (r : Word) (ws : List Word) :
    SMap.get 0#32 (setV c i (r :: ws)).seq.v (i.toNat * 64) = r :=
  SMap.get_setRange_in 0#32 ((r :: ws).take 64) hv (i.toNat * 64 + 0) (i := 0) (by simp)

end Cu

@[simp] theorem advance_v (c : Core) : (advance c).seq.v = c.seq.v := rfl

/-- VRED leaves its result in word 0 of V[F1]. -/
theorem exec_tVred_word_zero {s : State} {op : TileOp} (h : Issues s op) (hg : GoesOn (s.coreOf op))
    (hv : SMap.wf 0#32 (s.coreOf op).seq.v = true) (hu : Cu.usesOnly op.w true true false false 0x0D#8 0 = true)
    (hk : op.w.md.toNat / 4 ≤ 2) : ∃ d : Core, exec (.tVred op) s = .next (s.leaves op d) ∧
      SMap.get 0#32 d.seq.v (op.w.f1.toNat * 64) = Cu.redResult (op.w.md.toNat / 4) (Cu.redValues (s.coreOf op) op.w) := by
  refine ⟨_, exec_of_issue_done rfl h (Cu.vred_of_kind hg hu hk), ?_⟩
  rw [advance_v]
  exact Cu.get_setV_zero hv _ _ _

/-- Settles O7: word 0 holds the running sum over the lanes; as BF16 lanes they are the halves of the words, widened. -/
theorem vectorSumRunsUpTheLanes : Obligations.VectorSumRunsUpTheLanes := by
  unfold Obligations.VectorSumRunsUpTheLanes
  intro s op h hg hv c w a lane hu
  refine ⟨fun hm => ?fp32, fun hm => ?bf16⟩
  case fp32 =>
    have hm' : op.w.md = 0 := hm
    obtain ⟨d, hexec, hword⟩ := exec_tVred_word_zero h hg hv (Cu.usesOnly_of_md hu (by rw [hm']; decide)) (by rw [hm']; decide)
    have hkind : Cu.redResult (op.w.md.toNat / 4) (Cu.redValues (s.coreOf op) op.w) = Float.foldSum ((List.range 64).map a) := by
      rw [Cu.redValues_eq, hm']
      rfl
    exact ⟨d, hexec, hword.trans (hkind.trans (Float.foldSum_map_range a 63))⟩
  case bf16 =>
    have hm' : op.w.md = 1 := hm
    obtain ⟨d, hexec, hword⟩ := exec_tVred_word_zero h hg hv (Cu.usesOnly_of_md hu (by rw [hm']; decide)) (by rw [hm']; decide)
    have hkind : Cu.redResult (op.w.md.toNat / 4) (Cu.redValues (s.coreOf op) op.w) =
        Float.foldSum ((Cu.halves ((List.range 64).map a)).map Float.widen) := by
      rw [Cu.redValues_eq, hm']
      rfl
    rw [Cu.halves_map_range, List.map_map] at hkind
    refine ⟨d, hexec, hword.trans (hkind.trans ((Float.foldSum_map_range lane 127).trans ?_))⟩
    rw [Float.canon_widen]

end Sys2Proof.Machine
end

section
/-! SUPPORT. The scalar registers and the scalar instructions (R154, R157, R161, R162, O2). -/

namespace Sys2Proof.Machine

namespace Cu

/-! ### Scalar registers (R154) -/

theorem setX_zero (c : Core) (r : Word) : setX c 0 r = c := if_pos rfl

theorem setX_x {i : BitVec 4} (hi : i ≠ 0) (c : Core) (r : Word) : (setX c i r).seq.x = SMap.set 0#32 c.seq.x i.toNat r := by
  rw [setX, if_neg hi]

theorem x_of_ne_zero {i : BitVec 4} (hi : i ≠ 0) (c : Core) : x c i = SMap.get 0#32 c.seq.x i.toNat := if_neg hi

theorem wf_setX {c : Core} (hx : SMap.wf 0#32 c.seq.x = true) (i : BitVec 4) (r : Word) :
    SMap.wf 0#32 (setX c i r).seq.x = true := by
  rcases eq_or_ne i 0 with rfl | hi
  · rwa [setX_zero]
  · rw [setX_x hi]
    exact SMap.wf_set 0#32 _ r hx

theorem x_setX_same {c : Core} (hx : SMap.wf 0#32 c.seq.x = true) {i : BitVec 4} (hi : i ≠ 0) (r : Word) :
    x (setX c i r) i = r := by
  rw [x_of_ne_zero hi, setX_x hi]
  exact SMap.get_set_self 0#32 ((SMap.wf_iff 0#32 c.seq.x).mp hx).1 _ r

theorem x_setX_ne (c : Core) {i j : BitVec 4} (hij : j ≠ i) (r : Word) : x (setX c i r) j = x c j := by
  rcases eq_or_ne i 0 with rfl | hi
  · rw [setX_zero]
  rcases eq_or_ne j 0 with rfl | hj
  · rfl
  · rw [x_of_ne_zero hj, x_of_ne_zero hj, setX_x hi]
    exact SMap.get_set_ne 0#32 _ r fun h => hij (BitVec.eq_of_toNat_eq h)

/-! ### Scalar instructions (R161, R162) -/

@[simp] theorem immBits_4_0 (w : TileWord) : immBits w 4 0 = w.imm.toNat % 32 := by simp [immBits_eq]

section Scalar
variable {c : Core} {w : TileWord} (hg : GoesOn c)
include hg

/-- A legal scalar instruction writes X[F1] and goes on. -/
theorem legal_writeX {ok : Bool} (hok : ok = true) (u : Nat) (r : Word) :
    legal ok u (writeX c w r) = .done (advance (setX c w.f1 r)) := by
  rw [legal_pos hok, writeX, next_setX hg]

/-- The count of SHL and SHR is in the immediate. -/
theorem shift_of_immediate (hm : w.md = 1) (hu : usesOnly w true true false false 1#8 0x1F#32 = true) :
    shl c w = .done (advance (setX c w.f1 (x c w.f2 <<< (w.imm.toNat % 32)))) ∧
      shr c w = .done (advance (setX c w.f1 (x c w.f2 >>> (w.imm.toNat % 32)))) := by
  have hbit : modBits w 0 0 = 1 := by rw [modBits_0_0, hm]; rfl
  have huses : shiftUses w = true := (if_pos hbit).trans hu
  have hcount : shiftCount c w = w.imm.toNat % 32 := (if_pos hbit).trans (immBits_4_0 w)
  rw [shl, shr, hcount]
  exact ⟨legal_writeX hg huses _ _, legal_writeX hg huses _ _⟩

/-- The count of SHL and SHR is in X[F3]. -/
theorem shift_of_register (hm : w.md = 0) (hu : usesOnly w true true true false 0 0 = true) :
    shl c w = .done (advance (setX c w.f1 (x c w.f2 <<< ((x c w.f3).toNat % 32)))) ∧
      shr c w = .done (advance (setX c w.f1 (x c w.f2 >>> ((x c w.f3).toNat % 32)))) := by
  have hbit : ¬ modBits w 0 0 = 1 := by rw [modBits_0_0, hm]; decide
  have huses : shiftUses w = true := (if_neg hbit).trans (usesOnly_of_no_md hu 1#8)
  have hcount : shiftCount c w = (x c w.f3).toNat % 32 := by simp [shiftCount, hm, bitsOf]
  rw [shl, shr, hcount]
  exact ⟨legal_writeX hg huses _ _, legal_writeX hg huses _ _⟩
end Scalar

/-! ### RDC (R162) -/

/-- The sources that RDC lists. -/
abbrev RdcSource (src : Nat) : Prop := src < 24 ∨ src = 32 ∨ src = 33 ∨ src = 34

/-- The iteration counter of the innermost loop, 0 outside every loop. -/
def innermostCount (c : Core) : Word := c.seq.loops.head?.elim 0 fun l => SMap.get 0#32 c.seq.lc l.ctr

/-- What RDC reads from a listed source. -/
def rdcValue (pos : Nat) (free : Word) (c : Core) (src : Nat) : Word :=
  if src < 24 then (counter c src).setWidth 32
  else if src = 32 then BitVec.ofNat 32 pos
  else if src = 33 then innermostCount c
  else free

theorem rdc_eq (pos : Nat) (free : Word) (c : Core) (w : TileWord) : rdc pos free c w =
    legal (usesOnly w true false false false 0x3F#8 0 && decide (RdcSource (modBits w 5 0))) uSeq
      (writeX c w (rdcValue pos free c (modBits w 5 0))) := by
  unfold rdc rdcValue innermostCount
  cases c.seq.loops with
  | nil => rfl
  | cons l ls => rfl

theorem rdc_of_source {c : Core} {w : TileWord} (hg : GoesOn c) (pos : Nat) (free : Word)
    (hu : usesOnly w true false false false 0x3F#8 0 = true) (hsrc : RdcSource w.md.toNat) :
    rdc pos free c w = .done (advance (setX c w.f1 (rdcValue pos free c w.md.toNat))) := by
  have hmd : modBits w 5 0 = w.md.toNat := by
    have hle : w.md.toNat ≤ 0x3F := md_le_of_usesOnly hu
    exact (modBits_5_0 w).trans (Nat.mod_eq_of_lt (by omega))
  rw [rdc_eq, hmd]
  exact legal_writeX hg (Bool.and_eq_true_iff.mpr ⟨hu, decide_eq_true hsrc⟩) uSeq _

end Cu

section Rdc
variable {s : State} {op : TileOp} (h : Issues s op) (hg : GoesOn (s.coreOf op))
  (hu : Cu.usesOnly op.w true false false false 0x3F#8 0 = true)
include h hg hu

/-- RDC of a source that the state fixes. -/
theorem exec_tRdc_of_fixed {r : Word} (hsrc : Cu.RdcSource op.w.md.toNat) (hne : op.w.md.toNat ≠ 34)
    (hr : Cu.rdcValue (s.posWord (CorePos.key op.core)) 0#32 (s.coreOf op) op.w.md.toNat = r) :
    exec (.tRdc op) s = .next (s.leaves op (advance (Cu.setX (s.coreOf op) op.w.f1 r))) := by
  have hmd : ¬ (Cu.modBits op.w 5 0 = 34 ∧ Cu.usesOnly op.w true false false false 0x3F#8 0 = true) := by
    have hle : op.w.md.toNat ≤ 0x3F := Cu.md_le_of_usesOnly hu
    rw [Cu.modBits_5_0]
    omega
  show execTRdc op s = _
  rw [execTRdc, issueWith_eq h, if_neg hmd, Cu.rdc_of_source hg _ _ hu hsrc, hr, settleRes_done]

/-- RDC of the cycle count takes a free value. -/
theorem exec_tRdc_of_cycles (hsrc : op.w.md.toNat = 34) : exec (.tRdc op) s =
    .next (({ s with freeCtr := s.freeCtr + 1 } : State).leaves op
      (advance (Cu.setX (s.coreOf op) op.w.f1 (Config.freeWord s.freeCtr)))) := by
  have hmd : Cu.modBits op.w 5 0 = 34 := by rw [Cu.modBits_5_0, hsrc]
  have hvalue (pos : Nat) : Cu.rdcValue pos s.takeFree.1 (s.coreOf op) op.w.md.toNat = Config.freeWord s.freeCtr := by
    rw [hsrc]
    rfl
  show execTRdc op s = _
  rw [execTRdc, issueWith_eq h, if_pos ⟨hmd, hu⟩, Cu.rdc_of_source hg _ _ hu (.inr (.inr (.inr hsrc))), hvalue, settleRes_done]
  rfl
end Rdc

/-- A scalar instruction whose encoding passes its check leaves X[F1] with its result, and the core at its next instruction. -/
theorem exec_writes_scalar {s : State} {op : TileOp} {i : Instr} {f : Core → TileWord → Cu.Res} {ok : Bool} {r : Word}
    (h : Issues s op) (hg : GoesOn (s.coreOf op)) (hi : exec i s = .next (s.issue op f))
    (hf : f (s.coreOf op) op.w = Cu.legal ok Cu.uSeq (Cu.writeX (s.coreOf op) op.w r)) (hok : ok = true) :
    exec i s = .next (s.leaves op (advance (Cu.setX (s.coreOf op) op.w.f1 r))) :=
  exec_of_issue_done hi h (hf.trans (Cu.legal_writeX hg hok Cu.uSeq r))

/-- Settles O2: reads after writes of the scalar registers; each instruction passes its checks, and its issue leaves X[F1] with
the value that its lemma gives. -/
theorem scalarInstructionResults : Obligations.ScalarInstructionResults := by
  unfold Obligations.ScalarInstructionResults
  refine ⟨fun c i j r hx => ?registers, fun s op h hg => ?instructions⟩
  case registers =>
    exact ⟨rfl, Cu.setX_zero c r, Cu.wf_setX hx i r, fun hi => Cu.x_setX_same hx hi r, fun hij => Cu.x_setX_ne c hij r⟩
  case instructions =>
    refine ⟨exec_writes_scalar h hg rfl rfl, exec_writes_scalar h hg rfl rfl, exec_writes_scalar h hg rfl rfl,
      exec_writes_scalar h hg rfl rfl, exec_writes_scalar h hg rfl rfl, exec_writes_scalar h hg rfl rfl,
      exec_writes_scalar h hg rfl rfl, fun hm hu => ?shiftImmediate, fun hm hu => ?shiftRegister,
      fun hu => ⟨fun hlt => ?counter, fun hsrc => ?position, fun hsrc hnone => ?noLoop, fun l ls hsrc hloop => ?inLoop,
        fun hsrc => exec_tRdc_of_cycles h hg hu hsrc⟩⟩
    case shiftImmediate =>
      obtain ⟨hshl, hshr⟩ := Cu.shift_of_immediate hg hm hu
      exact ⟨exec_of_issue_done rfl h hshl, exec_of_issue_done rfl h hshr⟩
    case shiftRegister =>
      obtain ⟨hshl, hshr⟩ := Cu.shift_of_register hg hm hu
      exact ⟨exec_of_issue_done rfl h hshl, exec_of_issue_done rfl h hshr⟩
    case counter =>
      exact exec_tRdc_of_fixed h hg hu (.inl hlt) (fun h34 => by omega) (if_pos hlt)
    case position =>
      exact exec_tRdc_of_fixed h hg hu (.inr (.inl hsrc)) (fun h34 => by omega) (by rw [hsrc]; rfl)
    case noLoop =>
      have hcount : Cu.innermostCount (s.coreOf op) = 0 := by rw [Cu.innermostCount, hnone]; rfl
      exact exec_tRdc_of_fixed h hg hu (.inr (.inr (.inl hsrc))) (fun h34 => by omega) (by rw [hsrc]; exact hcount)
    case inLoop =>
      have hcount : Cu.innermostCount (s.coreOf op) = SMap.get 0#32 (s.coreOf op).seq.lc l.ctr := by
        rw [Cu.innermostCount, hloop]
        rfl
      exact exec_tRdc_of_fixed h hg hu (.inr (.inr (.inl hsrc))) (fun h34 => by omega) (by rw [hsrc]; exact hcount)

end Sys2Proof.Machine
end

section
/-! SUPPORT. Jumps, branches, hardware loops, TRAP, and the reserved fields of an encoding (R155, R156, R159, R160, R182, O3). -/

namespace Sys2Proof.Machine

namespace Cu

/-! ### Jumps and branches (R159, R160) -/

@[simp] theorem immBits_12_0 (w : TileWord) : immBits w 12 0 = w.imm.toNat % 0x2000 := by simp [immBits_eq]
@[simp] theorem immBits_31_16 (w : TileWord) : immBits w 31 16 = w.imm.toNat / 0x10000 := by
  rw [immBits_eq]
  exact Nat.mod_eq_of_lt (by omega)

section Control
variable {c : Core} {w : TileWord}

theorem nop_of_zero_word (hg : GoesOn c) (hw : w = ⟨0, 0, 0, 0, 0, 0⟩) : nop c w = .done (advance c) := by
  rw [nop, hw, legal_pos (by decide), next_eq hg]

theorem jmp_of_legal (hu : usesOnly w false false false false 0 0x1FFF#32 = true) :
    jmp c w = .done (jump c (w.imm.toNat % 0x2000)) := by
  rw [jmp, legal_pos hu, immBits_12_0]

theorem trap_of_legal (hu : usesOnly w false false false false 0 0xFFFF#32 = true) :
    trap c w = .fault fUser uSeq (w.imm.toNat % 0x10000) := by
  rw [trap, legal_pos hu, immBits_15_0]

theorem br_of_legal (hu : usesOnly w false true true false 7#8 0x1FFF#32 = true) (hcond : w.md.toNat ≤ 5) : br c w =
    if brTaken w.md.toNat (x c w.f2) (x c w.f3) then .done (jump c (w.imm.toNat % 0x2000)) else next c := by
  have hmd : modBits w 2 0 = w.md.toNat := (modBits_2_0 w).trans (Nat.mod_eq_of_lt (by omega))
  unfold br
  rw [hmd, legal_pos (by rw [hu, decide_eq_true hcond]; rfl), immBits_12_0]

/-! ### LOOP (R159, R160) -/

/-- A LOOP at its PC whose body ends at `last` nests in the loops around it and takes a counter that none of them uses. -/
structure LoopNests (c : Core) (ctr last : Nat) : Prop where
  forward : c.seq.pc < last
  fresh : ∀ l ∈ c.seq.loops, l.ctr ≠ ctr
  inside : ∀ l ∈ c.seq.loops, last ≤ l.last

/-- A LOOP starts its body, or skips to its end with its counter 0. -/
theorem loop_of_nests {last : Nat} {n : Word} (hu : usesOnly w false true false false 3#8 0xFFFF1FFF#32 = true)
    (hlast : w.imm.toNat % 0x2000 = last) (hn : x c w.f2 + BitVec.ofNat 32 (w.imm.toNat / 0x10000) = n)
    (hnest : LoopNests c w.md.toNat last) : loop c w =
      if n = 0 then continueFrom { c with seq := { c.seq with lc := SMap.set 0#32 c.seq.lc w.md.toNat n } } last
      else .done { c with seq := { c.seq with
        pc := c.seq.pc + 1
        lc := SMap.set 0#32 c.seq.lc w.md.toNat n
        loops := { ctr := w.md.toNat, first := c.seq.pc + 1, last := last } :: c.seq.loops } } := by
  obtain ⟨hforward, hfresh, hinside⟩ := hnest
  have hctr : modBits w 1 0 = w.md.toNat := by
    have hle : w.md.toNat ≤ 3 := md_le_of_usesOnly hu
    rw [modBits_eq]
    exact (Nat.mod_eq_of_lt (by omega)).trans (Nat.div_one _)
  have hused : ¬ c.seq.loops.any (fun l => l.ctr == w.md.toNat) = true := by
    simpa using hfresh
  unfold loop
  simp only [immBits_12_0, immBits_31_16, hlast, hn, hctr]
  rw [legal_pos hu, if_neg]
  rintro (hback | hout | hsame)
  · omega
  · cases hloops : c.seq.loops with
    | nil =>
      rw [hloops] at hout
      exact Bool.false_ne_true hout
    | cons l ls =>
      rw [hloops] at hout
      exact Nat.not_lt.mpr (hinside l (by rw [hloops]; exact List.mem_cons_self)) (of_decide_eq_true hout)
  · exact hused hsame

/-- A skipped body is left as its last word is. -/
theorem continueFrom_eq_next (c : Core) (at_ : Nat) :
    continueFrom c at_ = next { c with seq := { c.seq with pc := at_ } } := rfl
end Control

/-! ### The ends of loops (R160) -/

theorem loopEnd_of_no_end {lc : SMap Word} {pc : Nat} {ls : List LoopRec} (h : ∀ l ∈ ls, l.last ≠ pc) :
    loopEnd lc pc ls = (pc + 1, ls, lc) := by
  cases ls with
  | nil => rfl
  | cons l ls => rw [loopEnd, if_neg (h l List.mem_cons_self)]

theorem loopEnd_of_end {lc : SMap Word} {pc : Nat} {l : LoopRec} (hl : l.last = pc) (ls : List LoopRec) :
    loopEnd lc pc (l :: ls) =
      let n := SMap.get 0#32 lc l.ctr - 1
      if n = 0 then loopEnd (SMap.set 0#32 lc l.ctr n) pc ls else (l.first, l :: ls, SMap.set 0#32 lc l.ctr n) := by
  rw [loopEnd, if_pos hl]

end Cu

theorem advance_of_no_end {c : Core} (h : ∀ l ∈ c.seq.loops, l.last ≠ c.seq.pc) :
    advance c = { c with seq := { c.seq with pc := c.seq.pc + 1 } } := by
  rw [advance, Cu.loopEnd_of_no_end h]

/-- The innermost loop, which ends here, has been counted down to n. -/
def loopCounted (c : Core) (l : LoopRec) (n : Word) : Core :=
  { c with seq := { c.seq with lc := SMap.set 0#32 c.seq.lc l.ctr n } }

section LoopEnd
variable {c : Core} {l : LoopRec} {ls : List LoopRec} {n : Word} (hloops : c.seq.loops = l :: ls) (hlast : l.last = c.seq.pc)
  (hn : SMap.get 0#32 c.seq.lc l.ctr - 1 = n)
include hloops hlast hn

theorem advance_of_loop_repeats (hne : n ≠ 0) :
    advance c = { loopCounted c l n with seq := { (loopCounted c l n).seq with pc := l.first } } := by
  have hend : Cu.loopEnd c.seq.lc c.seq.pc c.seq.loops = (l.first, c.seq.loops, SMap.set 0#32 c.seq.lc l.ctr n) := by
    rw [hloops, Cu.loopEnd_of_end hlast, hn]
    exact if_neg hne
  rw [advance, hend]
  rfl

theorem advance_of_loop_ends (hz : n = 0) :
    advance c = advance { loopCounted c l n with seq := { (loopCounted c l n).seq with loops := ls } } := by
  have hend : Cu.loopEnd c.seq.lc c.seq.pc c.seq.loops = Cu.loopEnd (SMap.set 0#32 c.seq.lc l.ctr n) c.seq.pc ls := by
    rw [hloops, Cu.loopEnd_of_end hlast, hn]
    exact if_pos hz
  rw [advance, hend]
  rfl
end LoopEnd

/-! ### Reserved fields (R155, R156) -/

namespace Cu

theorem usesOnly_none_iff (w : TileWord) : usesOnly w false false false false 0 0 = true ↔ w = ⟨0, 0, 0, 0, 0, 0⟩ := by
  obtain ⟨f1, f2, f3, f4, md, imm⟩ := w
  have hmd : md &&& 255#8 = md := BitVec.and_allOnes
  have himm : imm &&& 4294967295#32 = imm := BitVec.and_allOnes
  simp [usesOnly, hmd, himm, and_assoc]

theorem usesOnly_eq_false_of_f4 {w : TileWord} (h : w.f4 ≠ 0) (u1 u2 u3 : Bool) (md : BitVec 8) (imm : BitVec 32) :
    usesOnly w u1 u2 u3 false md imm = false := by
  have hf : (w.f4 == 0) = false := beq_false_of_ne h
  simp only [usesOnly, hf, Bool.or_false, Bool.and_false, Bool.false_and]

theorem usesOnly_eq_false_of_md {w : TileWord} (m : BitVec 8) (h : m.toNat < w.md.toNat) (u1 u2 u3 u4 : Bool) (imm : BitVec 32) :
    usesOnly w u1 u2 u3 u4 m imm = false :=
  Bool.eq_false_iff.mpr fun hu => Nat.not_le.mpr h (md_le_of_usesOnly hu)

theorem shiftUses_eq_false_of_f4 {w : TileWord} (h : w.f4 ≠ 0) : shiftUses w = false := by
  unfold shiftUses
  split
  · exact usesOnly_eq_false_of_f4 h _ _ _ _ _
  · exact usesOnly_eq_false_of_f4 h _ _ _ _ _

end Cu

section Illegal
variable {s : State} {op : TileOp} (h : Issues s op)
include h

/-- An instruction whose encoding fails its check is the program fault ILLEGAL with its unit. -/
theorem exec_of_illegal {i : Instr} {f : Core → TileWord → Cu.Res} {ok : Bool} {u : Nat} {r : Cu.Res}
    (hi : exec i s = .next (s.issue op f)) (hf : f (s.coreOf op) op.w = Cu.legal ok u r) (hok : ok = false) :
    exec i s = .next (s.programFault (CorePos.key op.core) (s.coreOf op).seq.pc 0x01 u 0) :=
  exec_of_issue_fault hi h (hf.trans (Cu.legal_neg hok u r))

theorem exec_tEnd_of_illegal (hu : Cu.usesOnly op.w false false false false 0 0 = false) : exec (.tEnd op) s =
    .next (s.programFault (CorePos.key op.core) (s.coreOf op).seq.pc 0x01 0 0) := by
  show execTEnd op s = _
  rw [execTEnd, issueWith_eq h, endCore, Cu.legal_neg hu]
  rfl

theorem exec_tNbx_of_illegal (hu : Cu.usesOnly op.w true true true false 0x03#8 0 = false) : exec (.tNbx op) s =
    .next (s.programFault (CorePos.key op.core) (s.coreOf op).seq.pc 0x01 8 0) := by
  have hfault (edge : Bool) (arrived : BitVec 16) : nbx edge arrived (s.coreOf op) op.w = .fault 0x01 8 0 := Cu.legal_neg hu _ _
  show execTNbx op s = _
  rw [execTNbx, issueWith_eq h]
  simp only [hfault]
  rfl

theorem exec_tRdc_of_illegal
    (hbad : Cu.usesOnly op.w true false false false 0x3F#8 0 = false ∨ ¬ Cu.RdcSource (op.w.md.toNat % 0x40)) :
    exec (.tRdc op) s = .next (s.programFault (CorePos.key op.core) (s.coreOf op).seq.pc 0x01 0 0) := by
  have hcycles : ¬ (Cu.modBits op.w 5 0 = 34 ∧ Cu.usesOnly op.w true false false false 0x3F#8 0 = true) := by
    rintro ⟨hsrc, hu⟩
    rcases hbad with hno | hno
    · exact Bool.false_ne_true (hno.symm.trans hu)
    · exact hno (.inr (.inr (.inr ((Cu.modBits_5_0 op.w).symm.trans hsrc))))
  have hfault (pos : Nat) (free : Word) : Cu.rdc pos free (s.coreOf op) op.w = .fault 0x01 0 0 := by
    refine Cu.legal_neg ?_ _ _
    rcases hbad with hno | hno
    · rw [hno, Bool.false_and]
    · rw [Cu.modBits_5_0, decide_eq_false hno, Bool.and_false]
  show execTRdc op s = _
  rw [execTRdc, issueWith_eq h, if_neg hcycles, hfault, settleRes_fault]

section ReservedField
variable (hf : op.w.f4 ≠ 0) {i : Instr} {f : Core → TileWord → Cu.Res} {u1 u2 u3 : Bool} {md : BitVec 8} {imm : BitVec 32}
  {u : Nat} {r : Cu.Res} (hi : exec i s = .next (s.issue op f))
include hf hi

/-- F4 is not zero in an instruction that does not use it. -/
theorem exec_of_reserved_f4 (hlegal : f (s.coreOf op) op.w = Cu.legal (Cu.usesOnly op.w u1 u2 u3 false md imm) u r) :
    exec i s = .next (s.programFault (CorePos.key op.core) (s.coreOf op).seq.pc 0x01 u 0) :=
  exec_of_illegal h hi hlegal (Cu.usesOnly_eq_false_of_f4 hf _ _ _ _ _)

/-- As exec_of_reserved_f4, for an instruction with a second condition on its encoding. -/
theorem exec_of_reserved_f4_and {b : Bool}
    (hlegal : f (s.coreOf op) op.w = Cu.legal (Cu.usesOnly op.w u1 u2 u3 false md imm && b) u r) :
    exec i s = .next (s.programFault (CorePos.key op.core) (s.coreOf op).seq.pc 0x01 u 0) :=
  exec_of_illegal h hi hlegal (by rw [Cu.usesOnly_eq_false_of_f4 hf, Bool.false_and])
end ReservedField
end Illegal

/-- Settles O3: the encodings pass their checks and control goes where the lemma of the instruction says, or a check fails and the
core faults. -/
theorem controlInstructionResults : Obligations.ControlInstructionResults := by
  unfold Obligations.ControlInstructionResults
  refine ⟨fun s op h => ⟨fun hw hg => ?nop, fun hu => ?jmp, fun hu hcond => ⟨fun htaken => ?taken, fun hnot hg => ?notTaken⟩,
      fun hu hforward hfresh hinside => ⟨fun hn => ?loopStarts, fun hn hg => ?loopSkips⟩, fun hu => ?trap⟩,
    ⟨fun a b => ?conditions, fun c hends => advance_of_no_end hends, fun c l ls hloops hlast =>
      ⟨advance_of_loop_repeats hloops hlast rfl, advance_of_loop_ends hloops hlast rfl⟩⟩,
    fun s op h => ⟨fun hw => ?notZero, fun hf => ?reservedF4, fun hcond => ?reservedCondition, fun hsem => ?reservedCounter,
      fun hsrc => ?reservedSource⟩⟩
  case nop => exact exec_of_issue_done rfl h (Cu.nop_of_zero_word hg hw)
  case jmp => exact exec_of_issue_done rfl h (Cu.jmp_of_legal hu)
  case taken => exact exec_of_issue_done rfl h ((Cu.br_of_legal hu hcond).trans (if_pos htaken))
  case notTaken =>
    exact exec_of_issue_done rfl h
      ((Cu.br_of_legal hu hcond).trans ((if_neg (Bool.eq_false_iff.mp hnot)).trans (Cu.next_eq hg)))
  case loopStarts =>
    exact exec_of_issue_done rfl h ((Cu.loop_of_nests hu rfl rfl ⟨hforward, hfresh, hinside⟩).trans (if_neg hn))
  case loopSkips =>
    have hskip := (Cu.loop_of_nests hu rfl hn ⟨hforward, hfresh, hinside⟩).trans (if_pos rfl)
    rw [Cu.continueFrom_eq_next, Cu.next_eq hg] at hskip
    exact exec_of_issue_done rfl h hskip
  case trap => exact exec_of_issue_fault rfl h (Cu.trap_of_legal hu)
  case conditions =>
    exact ⟨beq_iff_eq, bne_iff_ne, decide_eq_true_iff, decide_eq_true_iff, decide_eq_true_iff, decide_eq_true_iff⟩
  case notZero =>
    have hu : Cu.usesOnly op.w false false false false 0 0 = false :=
      Bool.eq_false_iff.mpr fun hu => hw ((Cu.usesOnly_none_iff op.w).mp hu)
    exact ⟨exec_of_illegal h rfl rfl hu, exec_tEnd_of_illegal h hu, exec_of_illegal h rfl rfl hu⟩
  case reservedF4 =>
    have hu := Cu.usesOnly_eq_false_of_f4 hf
    exact ⟨exec_of_reserved_f4 h hf rfl rfl, exec_of_reserved_f4 h hf rfl rfl,
      exec_of_illegal h rfl rfl (Cu.shiftUses_eq_false_of_f4 hf), exec_of_reserved_f4 h hf rfl rfl,
      exec_of_reserved_f4 h hf rfl rfl, exec_tRdc_of_illegal h (.inl (hu _ _ _ _ _)), exec_of_reserved_f4 h hf rfl rfl,
      exec_of_reserved_f4 h hf rfl rfl, exec_of_reserved_f4_and h hf rfl rfl, exec_of_reserved_f4_and h hf rfl rfl,
      exec_of_reserved_f4 h hf rfl rfl, exec_of_reserved_f4 h hf rfl rfl, exec_of_reserved_f4_and h hf rfl rfl,
      exec_of_reserved_f4_and h hf rfl rfl, exec_of_reserved_f4 h hf rfl rfl, exec_of_reserved_f4 h hf rfl rfl,
      exec_of_reserved_f4 h hf rfl rfl, exec_of_reserved_f4 h hf rfl rfl, exec_tNbx_of_illegal h (hu _ _ _ _ _),
      exec_of_reserved_f4_and h hf rfl rfl, exec_of_reserved_f4 h hf rfl rfl⟩
  case reservedCondition =>
    refine exec_of_illegal h rfl rfl ?_
    rcases Nat.lt_or_ge 7 op.w.md.toNat with hlt | hle
    · rw [Cu.usesOnly_eq_false_of_md 7#8 hlt, Bool.false_and]
    · have hbits : ¬ Cu.modBits op.w 2 0 ≤ 5 := by
        rw [Cu.modBits_2_0]
        omega
      rw [decide_eq_false hbits, Bool.and_false]
  case reservedCounter =>
    have hbits : ¬ Cu.modBits op.w 5 0 ≤ 15 := by
      rw [Cu.modBits_5_0]
      omega
    exact exec_of_illegal h rfl rfl (by rw [decide_eq_false hbits, Bool.and_false])
  case reservedSource =>
    refine exec_tRdc_of_illegal h ?_
    rcases Nat.lt_or_ge 0x3F op.w.md.toNat with hlt | hle
    · exact .inl (Cu.usesOnly_eq_false_of_md 0x3F#8 hlt _ _ _ _ _)
    · right
      rintro (hsem | h32 | h33 | h34) <;> omega

end Sys2Proof.Machine
end

section
/-! SUPPORT. The special function unit and the state unit (R171, R172, R191 to R215, R292 to R296, O8). -/

namespace Sys2Proof.Machine

namespace Cu

/-! ### Special functions (R191, R194, R203) -/

/-- What SFN makes of one value: a ROM function's result, or that of a loaded table. -/
def sfnLane (c : Core) (f : Nat) (z : Word) : Word := if f ≤ 0x0C then romEval c.run.gen2 f z else tevSlot c (f - 0x40) z

/-- The result of SMP with a loaded micro-program, whose image is empty where the slot is. -/
def microResult (c : Core) (image : List Byte) (a b : List Word) : List Word :=
  if image = [] then List.replicate 64 Float.nan32 else runMicro (tevBy c) image a b

/-- The identifiers that SFN lists pass its check. -/
theorem sfn_legal {w : TileWord} (hf : w.md.toNat ≤ 0x0C ∨ (0x40 ≤ w.md.toNat ∧ w.md.toNat ≤ 0x4F))
    (hu : usesOnly w true true false false 0xFF#8 1#32 = true) : (usesOnly w true true false false 0xFF#8 1#32 &&
      decide (w.md.toNat ≤ 0x0C ∨ (0x40 ≤ w.md.toNat ∧ w.md.toNat ≤ 0x4F))) = true := by
  rw [hu, decide_eq_true hf, Bool.and_self]

section Functions
variable {c : Core} {w : TileWord} (hg : GoesOn c)
include hg

section Sfn
variable (hf : w.md.toNat ≤ 0x0C ∨ (0x40 ≤ w.md.toNat ∧ w.md.toNat ≤ 0x4F))
  (hu : usesOnly w true true false false 0xFF#8 1#32 = true)
include hf hu

theorem sfn_of_fp32 (hi : w.imm = 0) :
    sfn c w = .done (advance (setV c w.f1 ((v c w.f2).map (sfnLane c w.md.toNat)))) := by
  have htype : ¬ immBits w 0 0 = 1 := by rw [immBits_eq, hi]; decide
  unfold sfn
  simp only [if_neg htype]
  exact legal_next_setV hg (sfn_legal hf hu) _ _ _

theorem sfn_of_bf16 (hi : w.imm = 1) : sfn c w = .done (advance (setV c w.f1
    (ofHalves ((halves (v c w.f2)).map fun h => Float.toBf (sfnLane c w.md.toNat (Float.widen h)))))) := by
  have htype : immBits w 0 0 = 1 := by rw [immBits_eq, hi]; decide
  unfold sfn
  simp only [if_pos htype]
  exact legal_next_setV hg (sfn_legal hf hu) _ _ _
end Sfn

section Smp
variable (hu : usesOnly w true true true false 0xFF#8 0 = true)
include hu

theorem smp_of_rom (hf : w.md.toNat ≤ 0x0C) :
    smp c w = .done (advance (setV c w.f1 ((v c w.f2).map (romEval c.run.gen2 w.md.toNat)))) := by
  unfold smp
  simp only [if_pos hf]
  exact legal_next_setV hg (by rw [hu, decide_eq_true (.inl hf), Bool.and_self]) _ _ _

theorem smp_of_pair (hlo : 0x10 ≤ w.md.toNat) (hhi : w.md.toNat ≤ 0x17) :
    smp c w = .done (advance (setV c w.f1 (romPair c.run.gen2 w.md.toNat (v c w.f2) (v c w.f3)))) := by
  have hrom : ¬ w.md.toNat ≤ 0x0C := by omega
  unfold smp
  simp only [if_neg hrom, if_pos hhi]
  exact legal_next_setV hg (by rw [hu, decide_eq_true (.inr (.inl ⟨hlo, hhi⟩)), Bool.and_self]) _ _ _

theorem smp_of_slot (hlo : 0x20 ≤ w.md.toNat) (hhi : w.md.toNat ≤ 0x2F) {image : List Byte}
    (himage : SMap.get [] c.mem.micros (w.md.toNat - 0x20) = image) :
    smp c w = .done (advance (setV c w.f1 (microResult c image (v c w.f2) (v c w.f3)))) := by
  have hrom : ¬ w.md.toNat ≤ 0x0C := by omega
  have hpair : ¬ w.md.toNat ≤ 0x17 := by omega
  unfold smp
  simp only [if_neg hrom, if_neg hpair, himage]
  rw [legal_next_setV hg (by rw [hu, decide_eq_true (.inr (.inr ⟨hlo, hhi⟩)), Bool.and_self])]
  cases image <;> rfl
end Smp

/-! ### Row statistics and softmax (R208, R212) -/

theorem srow_of_legal (hu : usesOnly w true true false false 3#8 0 = true) : srow c w =
    .done (advance (setV c w.f1 (srowFold c.run.gen2 (decide (w.md.toNat / 2 = 1)) (v c w.f1)
      (if w.md.toNat % 2 = 1 then (halves (v c w.f2)).map Float.widen else v c w.f2)))) := by
  have hinit : modBits w 1 1 = w.md.toNat / 2 := by
    have hle : w.md.toNat ≤ 3 := md_le_of_usesOnly hu
    exact (modBits_1_1 w).trans (Nat.mod_eq_of_lt (by omega))
  unfold srow
  rw [hinit, modBits_0_0]
  exact legal_next_setV hg hu _ _ _

/-- The record is written over the weights where one register is named for both. -/
theorem ssmx_of_legal (hu : usesOnly w true true true false 1#8 0 = true) {r : List Word × List Word}
    (hr : ssmxFold c.run.gen2 (decide (w.md.toNat = 1)) (v c w.f1) (v c w.f2) = r) :
    ssmx c w = .done (advance (setV (setV c w.f3 r.2) w.f1 r.1)) := by
  have hinit : modBits w 0 0 = w.md.toNat := by
    have hle : w.md.toNat ≤ 1 := md_le_of_usesOnly hu
    exact (modBits_0_0 w).trans (Nat.mod_eq_of_lt (by omega))
  unfold ssmx
  rw [hinit, hr]
  exact legal_next_setV (goesOn_congr (setV_pc c _ _) (setV_loops c _ _) (setV_lc c _ _) hg) hu _ _ _

end Functions

/-! ### STBL (R197, R199, R200, R204) -/

/-- A slot for micro-programs takes an image. -/
def setMicro (c : Core) (slot : Nat) (image : List Byte) : Core :=
  { c with mem := { c.mem with micros := SMap.set [] c.mem.micros slot image } }

/-- A slot for tables takes an image. -/
def setTable (c : Core) (slot : Nat) (image : List Byte) : Core :=
  { c with mem := { c.mem with tables := SMap.set [] c.mem.tables slot image } }

section Stbl
variable {c : Core} {w : TileWord} (hg : GoesOn c) {off : Nat} (hoff : (x c w.f2).toNat + w.imm.toNat % 0x400000 = off)
  (hu : usesOnly w false true false false 0xFF#8 0x3FFFFF#32 = true) (halign : off % 32 = 0) (hhead : access c off 32 = .ok)
include hg hoff hu halign hhead

theorem stbl_of_micro (hlo : 0x20 ≤ w.md.toNat) (hhi : w.md.toNat ≤ 0x2F) (hend : off + 96 ≤ spadBytes)
    (hacc : access c off 96 = .ok) {r : List Byte × Core} (hr : narrowReads c off 3 = r) :
    stbl c w = .done (advance (setMicro r.2 (w.md.toNat - 0x20) (if microValid r.1 then r.1 else []))) := by
  have hmicro : decide (w.md.toNat < 0x40) = true := decide_eq_true (by omega)
  have hseq : r.2.seq = c.seq := hr ▸ narrowReads_seq c off 3
  unfold stbl
  simp only [ea_low22, hoff, hmicro, if_true, hr]
  rw [legal_pos (by rw [hu, decide_eq_true (.inl ⟨hlo, hhi⟩), Bool.and_self]), spadRange_pos halign hend, withAccess_pos hhead,
    spadRange_pos halign hend, withAccess_pos hacc]
  exact next_of_seq_eq hg hseq

theorem stbl_of_table (hlo : 0x40 ≤ w.md.toNat) (hhi : w.md.toNat ≤ 0x4F) {len n : Nat}
    (hlen : tableLength (narrowReads c off 1).1 = len) (hn : (len + 31) / 32 = n) (hend : off + 32 * n ≤ spadBytes)
    (hacc : access c off (32 * n) = .ok) {r : List Byte × Core} (hr : narrowReads c off n = r) :
    stbl c w = .done (advance (setTable r.2 (w.md.toNat - 0x40) (if tableValid r.1 then r.1.take len else []))) := by
  have hmicro : decide (w.md.toNat < 0x40) = false := decide_eq_false (by omega)
  have hseq : r.2.seq = c.seq := hr ▸ narrowReads_seq c off n
  have hlen' : tableLength (narrowParts c off 1).1 = len := hlen
  have hleast : off + 32 * 2 ≤ spadBytes := by
    have hsegment : 48 ≤ len := by rw [← hlen, tableLength]; omega
    omega
  unfold stbl
  simp only [ea_low22, hoff, hmicro, Bool.false_eq_true, if_false, hlen', hn, hr]
  rw [legal_pos (by rw [hu, decide_eq_true (.inr ⟨hlo, hhi⟩), Bool.and_self]), spadRange_pos halign hleast, withAccess_pos hhead,
    spadRange_pos halign hend, withAccess_pos hacc]
  exact next_of_seq_eq hg hseq
end Stbl

/-! ### Segments (R172, R292) -/

theorem stateRange_of_fits {s n : Nat} (h : s + n ≤ 256) (k : Res) : stateRange s n false k = k := by
  rw [stateRange, if_neg (Nat.not_lt.mpr h), Bool.false_and, if_neg Bool.false_ne_true]

theorem stateRange_of_pair_fits {s n : Nat} (h : s + n ≤ 256) (heven : s % 2 = 0) (k : Res) : stateRange s n true k = k := by
  rw [stateRange, if_neg (Nat.not_lt.mpr h), Bool.true_and, if_neg]
  simp [heven]

section Segments
variable {c : Core} {w : TileWord} (hg : GoesOn c) {off seg n : Nat}
  (hoff : (x c w.f2).toNat + w.imm.toNat % 0x400000 = off) (hseg : (x c w.f3).toNat = seg)
  (hn : w.md.toNat + 1 = n) (hu : usesOnly w false true true false 0xFF#8 0x3FFFFF#32 = true) (hrange : seg + n ≤ 256)
  (halign : off % 32 = 0) (hend : off + 256 * n ≤ spadBytes) (hacc : access c off (256 * n) = .ok)
include hg hoff hseg hn hu hrange halign hend hacc

theorem stld_of_accessible : stld c w =
    .done (advance (loadSegs (narrowReads c off (8 * n)).2 seg (narrowReads c off (8 * n)).1 n)) := by
  unfold stld
  simp only [ea_low22, hoff, hseg, hn]
  rw [legal_pos hu, stateRange_of_fits hrange, spadRange_pos halign hend, withAccess_pos hacc]
  exact next_of_seq_eq hg (by rw [loadSegs_seq, narrowReads_seq])

theorem stst_of_accessible : stst c w =
    .done (advance (narrowWrites (readSegs c seg n).2 off (8 * n) (bytesOf (readSegs c seg n).1))) := by
  unfold stst
  simp only [ea_low22, hoff, hseg, hn]
  rw [legal_pos hu, stateRange_of_fits hrange, spadRange_pos halign hend, withAccess_pos hacc]
  exact next_of_seq_eq hg (by rw [narrowWrites_seq, readSegs_seq])
end Segments

/-! ### SSTEP and SOUT (R172, R294 to R296) -/

/-- The words of two segments after the compensated step: each lane's value, then its compensation. -/
def compWords (a h u : List Word) : List Word :=
  ((List.range 64).map fun j => Float.sstepComp (a.getD j 0) (h.getD (2 * j) 0) (h.getD (2 * j + 1) 0) (u.getD j 0)).flatMap
    fun p => [p.1, p.2]

section Lanes
variable {c : Core} {w : TileWord} (hg : GoesOn c) (hu : usesOnly w true true true false 1#8 0 = true) {seg : Nat}
include hg hu

theorem sstep_of_single (hm : w.md = 0) (hseg : (x c w.f1).toNat = seg) (hlt : seg < 256) : sstep c w =
    .done (advance (segWrite (segRead c seg).2 seg ((List.range 64).map fun j =>
      Float.fma ((v c w.f2).getD j 0) ((segRead c seg).1.getD j 0) ((v c w.f3).getD j 0)))) := by
  have hcomp : decide (modBits w 0 0 = 1) = false := by rw [modBits_0_0, hm]; rfl
  unfold sstep
  simp only [hcomp, hseg, Bool.false_eq_true, if_false]
  rw [legal_pos hu, stateRange_of_fits hlt]
  exact next_of_seq_eq hg (by rw [segWrite_seq, segRead_seq])

theorem sstep_of_pair (hm : w.md = 1) (hseg : (x c w.f1).toNat = seg) (hrange : seg + 2 ≤ 256) (heven : seg % 2 = 0)
    {r : List Word × Core} (hr : readSegs c seg 2 = r) {ws : List Word} (hws : compWords (v c w.f2) r.1 (v c w.f3) = ws) :
    sstep c w = .done (advance (segWrite (segWrite r.2 seg (ws.take 64)) (seg + 1) (ws.drop 64))) := by
  have hcomp : decide (modBits w 0 0 = 1) = true := by rw [modBits_0_0, hm]; rfl
  have hseq : r.2.seq = c.seq := hr ▸ readSegs_seq c seg 2
  subst hws
  unfold sstep
  simp only [hcomp, hseg, hr, if_true]
  rw [legal_pos hu, stateRange_of_pair_fits hrange heven]
  exact next_of_seq_eq hg (by rw [segWrite_seq, segWrite_seq, hseq])

theorem sout_of_single (hm : w.md = 0) (hseg : (x c w.f2).toNat = seg) (hlt : seg < 256) {r : List Word × Core}
    (hr : segRead c seg = r) : sout c w =
    .done (advance (setV r.2 w.f1 (List.zipWith Float.mul (v c w.f3) ((List.range 64).map fun j => r.1.getD j 0)))) := by
  have hcomp : decide (modBits w 0 0 = 1) = false := by rw [modBits_0_0, hm]; rfl
  have hread : readSegs c seg 1 = r := hr
  have hseq : r.2.seq = c.seq := hr ▸ segRead_seq c seg
  unfold sout
  simp only [hcomp, hseg, Bool.false_eq_true, if_false, hread]
  rw [stateRange_of_fits hlt]
  exact legal_next_setV (goesOn_congr (by rw [hseq]) (by rw [hseq]) (by rw [hseq]) hg) hu _ _ _

theorem sout_of_pair (hm : w.md = 1) (hseg : (x c w.f2).toNat = seg) (hrange : seg + 2 ≤ 256) (heven : seg % 2 = 0)
    {r : List Word × Core} (hr : readSegs c seg 2 = r) : sout c w =
    .done (advance (setV r.2 w.f1 (List.zipWith Float.mul (v c w.f3)
      ((List.range 64).map fun j => Float.pairValue (r.1.getD (2 * j) 0) (r.1.getD (2 * j + 1) 0))))) := by
  have hcomp : decide (modBits w 0 0 = 1) = true := by rw [modBits_0_0, hm]; rfl
  have hseq : r.2.seq = c.seq := hr ▸ readSegs_seq c seg 2
  unfold sout
  simp only [hcomp, hseg, if_true, hr]
  rw [stateRange_of_pair_fits hrange heven]
  exact legal_next_setV (goesOn_congr (by rw [hseq]) (by rw [hseq]) (by rw [hseq]) hg) hu _ _ _
end Lanes

end Cu

/-- Settles O8: each instruction passes its checks, and the issue leaves what the lemma of the instruction says of its core. -/
theorem specialAndStateUnitResults : Obligations.SpecialAndStateUnitResults := by
  unfold Obligations.SpecialAndStateUnitResults
  refine ⟨fun s op h hg => ⟨fun hf hu => ⟨fun hi => ?sfn32, fun hi => ?sfn16⟩,
      fun hu => ⟨fun hf => ?rom, fun hlo hhi => ?pair, fun hlo hhi => ⟨fun hempty => ?emptySlot, fun bs hne hbs => ?micro⟩⟩,
      fun hu => ?srow, fun hu => ?ssmx,
      fun hu halign => ⟨fun hlo hhi hend hhead hacc => ?loadMicro, fun hlo hhi hend hhead hacc => ?loadTable⟩⟩,
    fun s op h hg => ⟨fun hu hrange halign hend hacc => ⟨?stld, ?stst⟩,
      fun hu => ⟨fun hm hlt => ?step, fun hm hrange heven => ?stepPair, fun hm hlt => ?out, fun hm hrange heven => ?outPair⟩⟩⟩
  case sfn32 => exact exec_of_issue_done rfl h (Cu.sfn_of_fp32 hg hf hu hi)
  case sfn16 => exact exec_of_issue_done rfl h (Cu.sfn_of_bf16 hg hf hu hi)
  case rom => exact exec_of_issue_done rfl h (Cu.smp_of_rom hg hu hf)
  case pair => exact exec_of_issue_done rfl h (Cu.smp_of_pair hg hu hlo hhi)
  case emptySlot =>
    have hsmp := Cu.smp_of_slot hg hu hlo hhi hempty
    rw [Cu.microResult, if_pos rfl] at hsmp
    exact exec_of_issue_done rfl h hsmp
  case micro =>
    have hsmp := Cu.smp_of_slot hg hu hlo hhi hbs
    rw [Cu.microResult, if_neg hne] at hsmp
    exact exec_of_issue_done rfl h hsmp
  case srow => exact exec_of_issue_done rfl h (Cu.srow_of_legal hg hu)
  case ssmx => exact exec_of_issue_done rfl h (Cu.ssmx_of_legal hg hu rfl)
  case loadMicro => exact exec_of_issue_done rfl h (Cu.stbl_of_micro hg rfl hu halign hhead hlo hhi hend hacc rfl)
  case loadTable => exact exec_of_issue_done rfl h (Cu.stbl_of_table hg rfl hu halign hhead hlo hhi rfl rfl hend hacc rfl)
  case stld => exact exec_of_issue_done rfl h (Cu.stld_of_accessible hg rfl rfl rfl hu hrange halign hend hacc)
  case stst => exact exec_of_issue_done rfl h (Cu.stst_of_accessible hg rfl rfl rfl hu hrange halign hend hacc)
  case step => exact exec_of_issue_done rfl h (Cu.sstep_of_single hg hu hm rfl hlt)
  case stepPair => exact exec_of_issue_done rfl h (Cu.sstep_of_pair hg hu hm rfl hrange heven rfl rfl)
  case out => exact exec_of_issue_done rfl h (Cu.sout_of_single hg hu hm rfl hlt rfl)
  case outPair => exact exec_of_issue_done rfl h (Cu.sout_of_pair hg hu hm rfl hrange heven rfl)

end Sys2Proof.Machine
end

section
/-! SUPPORT. The execution commands at the gate, the next step of a command, and one dispatch to one core (R231 to R235, R243,
R276 to R280, R391, R445 to R449, R598, O19). -/

namespace Sys2Proof.Machine

/-! ### Between bank power and GO (R116, R117, R152, R190) -/

namespace Cu

@[simp] theorem powerOff_seq (c : Core) (b : Nat) : (powerOff c b).seq = c.seq := flushWhere_seq c _

@[simp] theorem powerOff_zeroing (c : Core) (b : Nat) : (powerOff c b).regs.zeroing = c.regs.zeroing := by
  show (flushWhere c fun l => decide (l / 1024 = b)).regs.zeroing = _
  rw [(flushWhere_notesOnly c _).regs]

@[simp] theorem setBankPwr_zeroing (c : Core) (mask : BitVec 16) : (setBankPwr c mask).regs.zeroing = c.regs.zeroing := by
  obtain ⟨m, hm⟩ := foldl_wakeBank_frame mask (List.range 16)
    { c with regs := { c.regs with bankPwr := mask, bankPwrNext := none } }
  rw [setBankPwr_eq, hm]

/-- Between tile programs a bank outside the mask of the next program powers down (R117, R235). -/
def restBank (mask : BitVec 16) (c : Core) (b : Nat) : Core := if mask.getLsbD b || bank c b == .off then c else powerOff c b

theorem restBank_frame (mask : BitVec 16) (c : Core) (b : Nat) :
    (restBank mask c b).seq = c.seq ∧ (restBank mask c b).regs.zeroing = c.regs.zeroing := by
  unfold restBank
  split
  · exact ⟨rfl, rfl⟩
  · exact ⟨powerOff_seq c b, powerOff_zeroing c b⟩

theorem powerTo_eq (c : Core) (mask : BitVec 16) :
    powerTo c mask = setBankPwr ((List.range 16).foldl (restBank mask) c) mask := rfl

/-- Setting the banks of the next program leaves the sequencer, and zeroing goes on where it does. -/
theorem powerTo_frame (c : Core) (mask : BitVec 16) :
    (powerTo c mask).seq = c.seq ∧ (powerTo c mask).regs.zeroing = c.regs.zeroing := by
  have hrest : ((List.range 16).foldl (restBank mask) c).seq = c.seq ∧
      ((List.range 16).foldl (restBank mask) c).regs.zeroing = c.regs.zeroing :=
    List.foldlRecOn (motive := fun d : Core => d.seq = c.seq ∧ d.regs.zeroing = c.regs.zeroing) _ _ ⟨rfl, rfl⟩
      fun d hd b _ => ⟨(restBank_frame mask d b).1.trans hd.1, (restBank_frame mask d b).2.trans hd.2⟩
  obtain ⟨-, -, -, hseq, -⟩ := setBankPwr_frame ((List.range 16).foldl (restBank mask) c) mask
  rw [powerTo_eq, hseq, setBankPwr_zeroing]
  exact hrest

/-- Writing the arguments changes the arguments and nothing else. -/
theorem foldl_setArg_frame (as : List (Word × Nat)) (c : Core) :
    ∃ m : SMap Word, as.foldl (fun d a => setArg d (a.2 + 1) a.1) c = { c with seq := { c.seq with args := m } } := by
  induction as generalizing c with
  | nil => exact ⟨c.seq.args, rfl⟩
  | cons a as ih => exact ih (setArg c (a.2 + 1) a.1)

theorem go_of_idle {c : Core} (hidle : c.seq.state = .idle) (hz : c.regs.zeroing = false) (entry : Nat) :
    (go c entry).seq.state = .running ∧ (go c entry).seq.pc = entry := by
  rw [go, if_neg (by simp [hidle, hz])]
  exact ⟨rfl, rfl⟩

/-- A core ready for GO: idle, with the banks of its placement and the arguments of its step (R190, R235, R463). -/
def armed (c : Core) (banks : BitVec 16) (args : List Word) : Core :=
  args.zipIdx.foldl (fun d a => setArg d (a.2 + 1) a.1)
    (powerTo { c with seq := { c.seq with state := .idle } } (banks ||| (if c.run.restored then c.regs.bankPwr else 0)))

theorem armed_frame (c : Core) (banks : BitVec 16) (args : List Word) :
    (armed c banks args).seq.state = .idle ∧ (armed c banks args).regs.zeroing = c.regs.zeroing := by
  obtain ⟨hseq, hzero⟩ := powerTo_frame { c with seq := { c.seq with state := .idle } }
    (banks ||| (if c.run.restored then c.regs.bankPwr else 0))
  obtain ⟨m, hm⟩ := foldl_setArg_frame args.zipIdx
    (powerTo { c with seq := { c.seq with state := .idle } } (banks ||| (if c.run.restored then c.regs.bankPwr else 0)))
  rw [armed, hm]
  exact ⟨congrArg SeqRegs.state hseq, hzero⟩

/-- What a dispatch makes of its core: GO at the entry of the step, under the number of the dispatch. -/
def dispatched (c : Core) (banks : BitVec 16) (args : List Word) (pc no : Nat) : Core :=
  let g := go (armed c banks args) pc
  { g with run := { g.run with dispatch := no, restored := false } }

/-- A core that is not being zeroed runs its dispatch from the entry. -/
theorem dispatched_runs {c : Core} (hz : c.regs.zeroing = false) (banks : BitVec 16) (args : List Word) (pc no : Nat) :
    (dispatched c banks args pc no).seq.state = .running ∧ (dispatched c banks args pc no).seq.pc = pc := by
  obtain ⟨hidle, hzero⟩ := armed_frame c banks args
  exact go_of_idle hidle (hzero.trans hz) pc

end Cu

/-! ### One dispatch to one core (R152, R190, R235, R391) -/

/-- The banks that a plan gives to the placement of a position. -/
def Plan.banksAt (img : List Byte) (pos : Nat × Nat × Nat) : Nat := match Plan.placeOf img pos with
  | none => 0
  | some r => Plan.pBanks img r

/-- The record of a dispatch, with the next number of its logical core (R391). -/
def Partition.nextRecord (y : Partition) (c : CmdRef) (img : List Byte) (i : StepInst) (args : List Word)
    (pos : Nat × Nat × Nat) : DispatchRec :=
  { no := SMap.get 0 y.nextDispatch (lposOf pos), pos := pos, block := c.block, cmd := c.id,
    entryPc := Plan.sPc img i.entry i.step, args := args, ended := false, inst := i.no, granule := i.granule }

/-- A partition after a dispatch: the number of the logical core has risen, and the record stands last. -/
def Partition.noteDispatch (y : Partition) (d : DispatchRec) : Partition :=
  { y with
    nextDispatch := SMap.set 0 y.nextDispatch (lposOf d.pos) (d.no + 1)
    awaitFirst := false
    dispatches := y.dispatches ++ [d] }

/-- The core of a dispatch after it. -/
def State.coreAfter (s : State) (y : Partition) (img : List Byte) (d : DispatchRec) : Core :=
  Cu.dispatched (s.core (s.keyAt y d.pos)) (BitVec.ofNat 16 (Plan.banksAt img d.pos)) d.args d.entryPc d.no

section DispatchTo
variable {s : State} {p : Nat} {y : Partition} (hy : s.part p = some y) (c : CmdRef) (img : List Byte) (i : StepInst)
  (args : List Word) (pos : Nat × Nat × Nat)
include hy

theorem State.dispatchTo_eq :
    s.dispatchTo c p img i args pos =
      (s.setCore (s.keyAt y pos) (s.coreAfter y img (y.nextRecord c img i args pos))).setPart p
        (some (y.noteDispatch (y.nextRecord c img i args pos))) := by
  have hpart : ∀ f, (s.updCore (s.keyAt y pos) f).part p = some y := fun _ => hy
  simp only [State.dispatchTo, hy, State.updPart, hpart]
  rfl

theorem State.core_dispatchTo_self (hz : (s.core (s.keyAt y pos)).regs.zeroing = false) :
    (s.dispatchTo c p img i args pos).core (s.keyAt y pos) = s.coreAfter y img (y.nextRecord c img i args pos) := by
  rw [State.dispatchTo_eq hy]
  refine SMap.get_set_self_of_ne Core.reset s.cores _ fun hreset => ?_
  have hrun : (s.coreAfter y img (y.nextRecord c img i args pos)).seq.state = .running := (Cu.dispatched_runs hz _ _ _ _).1
  rw [hreset] at hrun
  exact absurd hrun (by decide)

theorem State.core_dispatchTo_ne {a : Nat} (ha : a ≠ s.keyAt y pos) :
    (s.dispatchTo c p img i args pos).core a = s.core a := by
  rw [State.dispatchTo_eq hy]
  exact SMap.get_set_ne Core.reset s.cores _ ha

theorem State.part_dispatchTo :
    (s.dispatchTo c p img i args pos).part p = some (y.noteDispatch (y.nextRecord c img i args pos)) := by
  rw [State.dispatchTo_eq hy]
  exact SMap.get_set_self_of_ne none s.parts p (Option.some_ne_none _)
end DispatchTo

/-! ### The execution commands at their point (R243, R445 to R449) -/

theorem exec_opRun_of_atPoint {s : State} {c : CmdRef} {k : Cmd} (h : AtPoint s c k 0x0301) :
    exec (.opRun c) s = .next (s.unlessLost c (s.opRun c k (k.home c) k.ctxField).settle) :=
  congrArg Host.Outcome.next (State.gate_of_atPoint h rfl fun t k p h => t.opRun c k p h)

theorem exec_opRoll_of_atPoint {s : State} {c : CmdRef} {k : Cmd} (h : AtPoint s c k 0x0302) :
    exec (.opRoll c) s = .next (s.unlessLost c (s.opRoll c k (k.home c) k.ctxField).settle) :=
  congrArg Host.Outcome.next (State.gate_of_atPoint h rfl fun t k p h => t.opRoll c k p h)

theorem exec_opTrainStep_of_atPoint {s : State} {c : CmdRef} {k : Cmd} (h : AtPoint s c k 0x0304) :
    exec (.opTrainStep c) s = .next (s.unlessLost c (s.trainStep c k (k.home c) k.ctxField).settle) :=
  congrArg Host.Outcome.next (State.gate_of_atPoint h rfl fun t k p h => t.trainStep c k p h)

section Checked
variable {s : State} {k : Cmd} {p h : Nat} {x : Context} (hx : s.ctx p h = some x)
include hx

section Fault
variable {f : Fin} (hf : k.execCheck x = .inl f) (c : CmdRef)
include hf

theorem State.opRun_of_fault : s.opRun c k p h = s.endCmd c f := by simp only [State.opRun, hx, hf]
theorem State.opRoll_of_fault : s.opRoll c k p h = s.endCmd c f := by simp only [State.opRoll, hx, hf]
theorem State.trainStep_of_fault : s.trainStep c k p h = s.endCmd c f := by simp only [State.trainStep, hx, hf]
end Fault

variable {pl : PlanInst} {e : Nat} (hpass : k.execCheck x = .inr (pl, e)) (c : CmdRef)
include hpass

theorem State.trainStep_of_pass : s.trainStep c k p h =
    s.beginExec c (ExecRun.start (stepInsts pl.image (k.rounded pl.image) e 0 (some 0)) [] none 1) := by
  simp only [State.trainStep, hx, hpass]
end Checked

/-! ### OP_RUN (R246, R264, R447) -/

theorem State.claim_of_some {α : Type} {s : State} {try_ : State → Option α} {a : α} (ha : try_ s = some a) (c : CmdRef)
    (p h prio : Nat) : s.claim c p h prio try_ = .got a := by
  simp only [State.claim, State.allocate, ha]

/-- A run whose pages are met marks its sequences BUSY and holds its steps. -/
theorem State.runSeqs_of_prepared {s t : State} {k : Cmd} {p h : Nat} {toks : List (List Word)} {bs : List SeqBind}
    (hlive : s.liveShort p h (k.seqBinds.map fun b => b.1) 0 = false) (hprep : s.prepareRun p h k toks = some (bs, t)) (c : CmdRef)
    (pl : PlanInst) (e : Nat) :
    let todo := stepInsts pl.image (k.rounded pl.image) e 0 (if (k.seqBinds.map fun b => b.1).isEmpty then none else some 0)
    s.runSeqs c k p h pl e toks =
      ((k.seqBinds.map fun b => b.1).foldl (fun u q => u.updSeq p h q fun z => { z with status := .busy }) t).beginExec c
        (ExecRun.start todo bs none (granuleCount todo)) := by
  intro todo
  simp only [State.runSeqs, hlive, Bool.false_eq_true, if_false, State.claim_of_some (try_ := fun u => u.prepareRun p h k toks) hprep]
  rfl

theorem State.liveShort_nil (s : State) (p h : Nat) : s.liveShort p h [] 0 = false := by
  unfold State.liveShort
  split <;> simp

theorem Cmd.seqBinds_of_none {k : Cmd} (hn : k.p 0x42 2 = 0) : k.seqBinds = [] := by rw [Cmd.seqBinds, hn]; rfl

theorem Cmd.seqBinds_of_one {k : Cmd} (hn : k.p 0x42 2 = 1) : k.seqBinds = [(k.p 0x80 4, k.p 0x84 4, k.p 0x88 6)] := by
  rw [Cmd.seqBinds, hn]; rfl

section OpRun
variable {s t u : State} {k : Cmd} {p h : Nat} {x : Context} {pl : PlanInst} {e : Nat} {bs : List SeqBind}
  (hx : s.ctx p h = some x) (hpass : k.execCheck x = .inr (pl, e)) (c : CmdRef)
include hx hpass

/-- Without sequences nothing is read, and the command's granules are those of its entry. -/
theorem State.opRun_of_no_sequence (hn : k.p 0x42 2 = 0) (htensor : k.p 0x40 2 = 0xFFFF) (hprep : s.prepareRun p h k [] = some (bs, t)) :
    let todo := stepInsts pl.image (k.rounded pl.image) e 0 none
    s.opRun c k p h = t.beginExec c (ExecRun.start todo bs none (granuleCount todo)) := by
  have hbinds := Cmd.seqBinds_of_none hn
  have hrun := State.runSeqs_of_prepared (by rw [hbinds]; exact s.liveShort_nil p h) hprep c pl e
  simp only [hbinds] at hrun
  simpa [State.opRun, hx, hpass, hbinds, htensor, State.readTokens] using hrun

/-- With one sequence, that exists, is not BUSY and has room for its tokens, they are read first and the command is one granule. -/
theorem State.opRun_of_one_sequence {q : Sequence} {toks : List (List Word)} (hn : k.p 0x42 2 = 1) (hbound : (k.bound (k.p 0x40 2)).isSome)
    (hrole : Plan.tRole pl.image (k.p 0x40 2) = 6) (hroom : 16 ≤ Plan.elements pl.image (k.rounded pl.image) (k.p 0x40 2))
    (hlook : k.noLookup = false) (hq : s.seq p h (k.p 0x80 4) = some q) (hidle : q.status ≠ .busy)
    (hlen : q.length + k.p 0x84 4 ≤ 2 ^ 32) (hread : s.readTokens (k.who c.block) k.seqBinds = .ok toks t)
    (hlive : t.liveShort p h [k.p 0x80 4] 0 = false) (hprep : t.prepareRun p h k toks = some (bs, u)) :
    let todo := stepInsts pl.image (k.rounded pl.image) e 0 (some 0)
    s.opRun c k p h = (u.updSeq p h (k.p 0x80 4) fun z => { z with status := .busy }).beginExec c
      (ExecRun.start todo bs none (granuleCount todo)) := by
  have hbinds := Cmd.seqBinds_of_one hn
  obtain ⟨a, ha⟩ := Option.isSome_iff_exists.mp hbound
  have hrun := State.runSeqs_of_prepared (by rw [hbinds]; exact hlive) hprep c pl e
  rw [hbinds] at hread hrun
  have hfits : ¬ 0x100000000 < q.length + k.p 0x84 4 := by omega
  have hchecks : s.opRun c k p h = t.runSeqs c k p h pl e toks := by
    simp [State.opRun, hx, hpass, hbinds, ha, hrole, hroom, hlook, hq, hread, hidle, hfits]
  exact hchecks.trans hrun
end OpRun

/-! ### OP_ROLL (R276, R277, R280) -/

section OpRoll
variable {s : State} {k : Cmd} {p h : Nat} {x : Context} {pl : PlanInst} {e : Nat}
  (hx : s.ctx p h = some x) (hpass : k.execCheck x = .inr (pl, e)) (c : CmdRef)
include hx hpass

theorem State.opRoll_of_roll_fault {o : Nat} (hf : k.rollFault pl.image = some o) :
    s.opRoll c k p h = s.endCmd c (Fin.with stRollParam o) := by
  simp only [State.opRoll, hx, hpass, hf]

/-- A roll without a value entry whose checks pass and whose slots are forked begins. -/
theorem State.opRoll_of_forked {u : State} {v : KvState} {q : Sequence} {run : RollRun} (hf : k.rollFault pl.image = none)
    (hv : x.kv = some v) (hq : s.seq p h k.roll.seq = some q) (hidle : q.status ≠ .busy) (hvalue : k.roll.value = false)
    {pos : Nat} (hpos : (if k.roll.pos = 0xFFFFFFFF then q.length else k.roll.pos) = pos)
    (hle : pos ≤ q.length) (hend : pos + k.roll.t * k.roll.hw ≤ 2 ^ 32) (hknown : v.stateKnown q pos = true)
    (hseqs : v.seqs.length + k.roll.f ≤ 65536) (hlive : s.liveShort p h [q.handle] k.roll.mine = false)
    (hfork : s.forkRoll k p h pos = some (run, u)) : s.opRoll c k p h = u.startRoll c k p h pl run := by
  have hlimit : ¬ (q.length < pos ∨ 2 ^ 32 < pos + k.roll.t * k.roll.hw) := by omega
  have hquota : ¬ (65536 < v.seqs.length + k.roll.f ∨ s.liveShort p h [q.handle] k.roll.mine = true) := by
    simp [hlive, hseqs]
  simp only [State.opRoll, hx, hpass, hf, hv, hq, hpos, if_neg hidle, if_neg hlimit, hknown, hvalue, if_neg hquota,
    State.claim_of_some (try_ := fun t => t.forkRoll k p h pos) hfork, Bool.not_true, Bool.not_false,
    Bool.true_or, Bool.false_eq_true, if_false]
end OpRoll

/-! ### The next step of a command (R231 to R233, R278, R598) -/

/-- What STEP_DISPATCH does for a command that runs and is not at an expert point. -/
def State.nextStep (s : State) (c : CmdRef) (k : Cmd) (p h : Nat) (x : Context) (pl : PlanInst) (e : ExecRun) : State :=
  match e.todo with
  | [] => match e.roll with
    | none => s
    | some r => if r.open_ then s else (s.beginFrame c k p h pl r).settle
  | i :: _ =>
    if !e.stepLeft.isEmpty then s.dispatchStep c k p x pl e i e.stepLeft
    else match s.openStep c k p h pl e i with
      | (s1, false) => s1.settle
      | (s1, true) => s1.dispatchStep c k p x pl e i (Plan.stepCores pl.image i.entry i.step)

theorem State.onExec_of_started {s : State} {c : CmdRef} {k : Cmd} {x : Context} {pl : PlanInst} {e : ExecRun} (hcmd : s.cmd c = some k)
    (hphase : k.phase = .started) (hx : s.ctx (k.home c) k.ctxField = some x) (he : k.exec = some e) (hpl : x.plan = some pl)
    (f : Cmd → Nat → Nat → Context → PlanInst → ExecRun → State) :
    s.onExec c f = f k (k.home c) k.ctxField x pl e := by
  simp only [State.onExec, hcmd, hx, he, hpl, if_pos hphase]

theorem exec_stepDispatch_of_runs {s : State} {c : CmdRef} {k : Cmd} {x : Context} {pl : PlanInst} {e : ExecRun} (hcmd : s.cmd c = some k)
    (hphase : k.phase = .started) (hx : s.ctx (k.home c) k.ctxField = some x) (he : k.exec = some e) (hpl : x.plan = some pl)
    (hruns : s.runsNow c k (k.home c) = true) (hpoint : e.atPoint = none) :
    exec (.stepDispatch c) s =
      .next (s.unlessLost c (s.nextStep c k (k.home c) k.ctxField x pl e)).drainInboxes := by
  show execStepDispatch c s = _
  rw [execStepDispatch, State.onExec_of_started hcmd hphase hx he hpl, if_neg (by simp [hruns, hpoint])]
  rfl

section NextStep
variable {s t : State} {c : CmdRef} {k : Cmd} {p h : Nat} {x : Context} {pl : PlanInst} {e : ExecRun} {i : StepInst}
  {is : List StepInst}

/-- A step that some cores still have to receive goes on to them. -/
theorem State.nextStep_of_left (htodo : e.todo = i :: is) (hleft : e.stepLeft ≠ []) :
    s.nextStep c k p h x pl e = s.dispatchStep c k p x pl e i e.stepLeft := by
  simp [State.nextStep, htodo, hleft]

/-- A step that opens goes to the cores of its placement. -/
theorem State.nextStep_of_opens (htodo : e.todo = i :: is) (hleft : e.stepLeft = []) (hopen : s.openStep c k p h pl e i = (t, true)) :
    s.nextStep c k p h x pl e = t.dispatchStep c k p x pl e i (Plan.stepCores pl.image i.entry i.step) := by
  simp [State.nextStep, htodo, hleft, hopen]

/-- A roll between frames begins its next one. -/
theorem State.nextStep_of_between_frames {r : RollRun} (htodo : e.todo = []) (hroll : e.roll = some r) (hopen : r.open_ = false) :
    s.nextStep c k p h x pl e = (s.beginFrame c k p h pl r).settle := by
  simp [State.nextStep, htodo, hroll, hopen]
end NextStep

/-- Settles O19: an execution command at its point ends with its status or holds its steps, STEP_DISPATCH performs the next one,
and the core of a dispatch runs it with its number. -/
theorem executionResults : Obligations.ExecutionResults := by
  refine ⟨?commands, ?steps⟩
  case commands =>
    intro s t u c k x pl e p h img hx
    refine ⟨fun f hf => ⟨fun hat => ?runEnds, fun hat => ?rollEnds, fun hat => ?trainEnds⟩, fun hpass => ⟨fun hat => ?train,
      fun hat hn htensor bs hprep => ?run,
      fun q toks hat hn _ hbound hrole hroom hlook hq hidle hlen hread hlive bs hprep => ?runSequence, fun o hat hf => ?rollFault,
      fun v q run hat hf hv hq hidle hvalue hle hend hknown hseqs hlive hfork => ?roll⟩⟩
    case runEnds => rw [exec_opRun_of_atPoint hat, State.opRun_of_fault hx hf]
    case rollEnds => rw [exec_opRoll_of_atPoint hat, State.opRoll_of_fault hx hf]
    case trainEnds => rw [exec_opTrainStep_of_atPoint hat, State.trainStep_of_fault hx hf]
    case train => rw [exec_opTrainStep_of_atPoint hat, State.trainStep_of_pass hx hpass]
    case run => rw [exec_opRun_of_atPoint hat, State.opRun_of_no_sequence hx hpass c hn htensor hprep]
    case runSequence =>
      rw [exec_opRun_of_atPoint hat,
        State.opRun_of_one_sequence hx hpass c hn hbound hrole hroom hlook hq hidle hlen hread hlive hprep]
    case rollFault => rw [exec_opRoll_of_atPoint hat, State.opRoll_of_roll_fault hx hpass c hf]
    case roll =>
      rw [exec_opRoll_of_atPoint hat,
        State.opRoll_of_forked hx hpass c hf hv hq hidle hvalue rfl hle hend hknown hseqs hlive hfork]
  case steps =>
    intro s t c k x pl e i is hcmd hphase hx he hpl hruns hpoint
    have hexec := exec_stepDispatch_of_runs hcmd hphase hx he hpl hruns hpoint
    refine ⟨fun htodo hleft => ?left, fun htodo hleft hopen => ?opens, fun r htodo hroll hopen => ?frame,
      fun p img args pos y hy hz => ?dispatch⟩
    case left => rw [hexec, State.nextStep_of_left htodo hleft]
    case opens => rw [hexec, State.nextStep_of_opens htodo hleft hopen]
    case frame => rw [hexec, State.nextStep_of_between_frames htodo hroll hopen]
    case dispatch =>
      intro d g no
      have hcore : g = s.coreAfter y img (y.nextRecord c img i args pos) := State.core_dispatchTo_self hy c img i args pos hz
      obtain ⟨hrun, hpc⟩ := Cu.dispatched_runs hz (BitVec.ofNat 16 (Plan.banksAt img pos)) args (Plan.sPc img i.entry i.step) no
      rw [hcore]
      exact ⟨hrun, hpc, rfl, ⟨_, State.part_dispatchTo hy c img i args pos, rfl, rfl, rfl⟩,
        fun a ha => State.core_dispatchTo_ne hy c img i args pos ha⟩

end Sys2Proof.Machine
end

section
/-! SUPPORT. Firmware accesses and partitions; KV states, their page lists and page tree (R255 to R270, O17, O18). -/

namespace Sys2Proof.Machine

/-! ### Firmware accesses leave the partitions alone (R334 to R338) -/

@[simp] theorem State.record_parts (s : State) (e : EventRec) : (s.record e).parts = s.parts := by
  obtain ⟨_, _, h⟩ := s.record_eq e; rw [h]

@[simp] theorem State.setLatent_parts (s : State) (stack chan cw : Nat) (e : SymErr) :
    (s.setLatent stack chan cw e).parts = s.parts := rfl

@[simp] theorem State.noteLoss_parts (s : State) (d : Nat) (w : Bool) : (s.noteLoss d w).parts = s.parts := rfl

@[simp] theorem State.noteStatus_parts (s : State) : s.noteStatus.parts = s.parts := by
  unfold State.noteStatus
  dsimp only
  split <;> simp

@[simp] theorem State.takeFrees_parts (n : Nat) (s : State) : (State.takeFrees n s).2.parts = s.parts := by
  rw [State.takeFrees_eq]

@[simp] theorem State.startSparing_parts (s : State) (stack chan : Nat) : (s.startSparing stack chan).parts = s.parts := by
  unfold State.startSparing
  dsimp only
  repeat' split
  all_goals simp

@[simp] theorem State.countCorrected_parts (s : State) (stack chan cw : Nat) (lanes : List Nat) (retried : Bool) :
    (s.countCorrected stack chan cw lanes retried).parts = s.parts := by
  unfold State.countCorrected
  dsimp only
  split <;> simp

@[simp] theorem State.uncorrectable_parts (s : State) (stack chan cw a : Nat) :
    (s.uncorrectable stack chan cw a).parts = s.parts := by
  simp [State.uncorrectable]

@[simp] theorem State.beyondCode_parts (s : State) (stack chan cw : Nat) : (s.beyondCode stack chan cw).2.parts = s.parts := by
  unfold State.beyondCode
  dsimp only
  repeat' split
  all_goals simp

@[simp] theorem State.readCodeword_parts (s : State) (stack chan cw : Nat) :
    (s.readCodeword stack chan cw).2.parts = s.parts := by
  unfold State.readCodeword
  dsimp only
  repeat' split
  all_goals simp

@[simp] theorem State.mergeCodeword_parts (s : State) (stack chan cw : Nat) (whole : Bool) :
    (s.mergeCodeword stack chan cw whole).2.parts = s.parts := by
  have hread := s.readCodeword_parts stack chan cw
  unfold State.mergeCodeword
  repeat' split
  all_goals simp_all

/-- A fold of changes that each leave the partitions alone leaves them alone. -/
theorem State.foldl_parts {α : Type} {f : State → α → State} (hf : ∀ t a, (f t a).parts = t.parts) (as : List α) (s : State) :
    (as.foldl f s).parts = s.parts :=
  List.foldlRecOn (motive := fun t : State => t.parts = s.parts) _ _ rfl fun t ht a _ => (hf t a).trans ht

@[simp] theorem State.fwMerge_parts (s : State) (a n : Nat) : (s.fwMerge a n).2.parts = s.parts := by
  refine List.foldlRecOn (motive := fun r : List Nat × State => r.2.parts = s.parts) _ _ rfl fun r hr d _ => ?_
  dsimp only
  split
  · exact hr
  · exact (State.mergeCodeword_parts ..).trans hr

@[simp] theorem State.fwWrite_parts (s : State) (a n : Nat) (f : Memory → Memory) : (s.fwWrite a n f).parts = s.parts :=
  (State.foldl_parts (fun t _ => t.noteLoss_parts _ _) _ _).trans (s.fwMerge_parts a n)

@[simp] theorem State.fwRead_parts (s : State) (a n : Nat) : (s.fwRead a n).parts = s.parts := by
  refine State.foldl_parts (fun t d => ?_) _ s
  split
  · rfl
  · next st ch k _ =>
    have hread := t.readCodeword_parts st ch k
    split <;> simp_all

@[simp] theorem State.zeroDram_parts (s : State) (a n : Nat) : (s.zeroDram a n).parts = s.parts := s.fwWrite_parts a n _

@[simp] theorem State.putDram_parts (s : State) (a : Nat) (bs : List Byte) : (s.putDram a bs).parts = s.parts :=
  s.fwWrite_parts a _ _

@[simp] theorem State.copyDram_parts (s : State) (src dst n : Nat) : (s.copyDram src dst n).parts = s.parts := by
  simp [State.copyDram]

@[simp] theorem State.dropXlat_parts (s : State) (a n : Nat) : (s.dropXlat a n).parts = s.parts := rfl

@[simp] theorem State.aside_parts (s t : State) : (s.aside t).parts = t.parts := rfl

@[simp] theorem State.zeroFrom_parts (s : State) (v : KvState) (n i : Nat) : (s.zeroFrom v n i).parts = s.parts := by
  unfold State.zeroFrom
  dsimp only
  split
  · exact State.foldl_parts (fun t q => by simp) v.pools s
  · exact (State.zeroDram_parts ..).trans (State.foldl_parts (fun t q => by simp) v.pools s)

@[simp] theorem State.copyPage_parts (s : State) (v : KvState) (src dst count : Nat) :
    (s.copyPage v src dst count).parts = s.parts := State.foldl_parts (fun t q => by simp) v.pools s

@[simp] theorem State.syncList_parts (s : State) (p c h : Nat) : (s.syncList p c h).parts = s.parts := by
  unfold State.syncList
  dsimp only
  repeat' split
  all_goals simp

@[simp] theorem State.trimPage_parts (s : State) (p c n : Nat) : (s.trimPage p c n).parts = s.parts := by
  unfold State.trimPage
  dsimp only
  repeat' split
  all_goals simp

/-! ### The KV state of a context -/

theorem State.kv_congr {s t : State} (h : t.parts = s.parts) (p c : Nat) : t.kv p c = s.kv p c := by
  simp only [State.kv, State.ctx, State.part, h]

theorem State.part_updPart_self {s : State} {p : Nat} {x : Partition} (hx : s.part p = some x) (f : Partition → Partition) :
    (s.updPart p f).part p = some (f x) := by
  rw [State.updPart, hx]
  exact SMap.get_set_self_of_ne _ _ _ (Option.some_ne_none _)

theorem State.ctx_updCtx_self {s : State} {p c : Nat} {k : Context} (hk : s.ctx p c = some k) (f : Context → Context) :
    (s.updCtx p c f).ctx p c = some (f k) := by
  obtain ⟨x, hx, hctx⟩ := Option.bind_eq_some_iff.mp hk
  rw [State.ctx, State.updCtx, State.part_updPart_self hx, Option.bind_some, hctx]
  exact SMap.get_set_self_of_ne _ _ _ (Option.some_ne_none _)

/-- The KV state of a context reads back as it was changed. -/
theorem State.kv_updKv_self {s : State} {p c : Nat} {v : KvState} (hv : s.kv p c = some v) (f : KvState → KvState) :
    (s.updKv p c f).kv p c = some (f v) := by
  obtain ⟨k, hk, hkv⟩ := Option.bind_eq_some_iff.mp hv
  rw [State.kv, State.updKv, State.ctx_updCtx_self hk, Option.bind_some, hkv]

/-- Sequences changed one by one, each with its handle, are found by the handles they had. -/
theorem KvState.seq_of_map {v w : KvState} {f : Sequence → Sequence} (hw : w.seqs = v.seqs.map f)
    (hf : ∀ q, (f q).handle = q.handle) (g : Nat) : w.seq g = (v.seq g).map f := by
  simp only [KvState.seq, hw, List.find?_map, Function.comp_def, hf]

theorem KvState.seq_handle {v : KvState} {h : Nat} {q : Sequence} (hq : v.seq h = some q) : q.handle = h := by
  simpa using List.find?_some hq

theorem KvState.seq_upd_self {v : KvState} {h : Nat} {q : Sequence} (hq : v.seq h = some q) {f : Sequence → Sequence}
    (hf : ∀ q, (f q).handle = q.handle) : (v.upd h f).seq h = some (f q) := by
  rw [KvState.seq_of_map rfl (fun z => by split <;> simp [hf]), hq]
  simp [KvState.seq_handle hq]

/-! ### The keys of pages (R260, R263, R265) -/

/-- Two tokens as one word, the first in the low half. -/
theorem append_eq_or_shiftLeft (a b : Word) : (b ++ a : Dword) = a.setWidth 64 ||| (b.setWidth 64 <<< 32) := by
  ext i hi
  simp only [BitVec.getElem_append, BitVec.getElem_or, BitVec.getElem_setWidth, BitVec.getElem_shiftLeft]
  by_cases h : i < 32
  · simp [h]
  · have hlow : a.getLsbD i = false := BitVec.getLsbD_of_ge a i (Nat.not_lt.mp h)
    simp [h, hlow, BitVec.getLsbD_eq_getElem (show i - 32 < 32 by omega)]

/-- The fold over pairs of tokens, pair i being tokens 2i and 2i + 1. -/
theorem foldTokens_eq_foldl (n : Nat) (k : Dword) (toks : List Word) (hlen : toks.length = 2 * n) :
    foldTokens k toks = (List.range n).foldl (fun h i => mix64 (h ^^^ ((toks.getD (2 * i) 0).setWidth 64 |||
      ((toks.getD (2 * i + 1) 0).setWidth 64 <<< 32)))) k := by
  induction n generalizing k toks with
  | zero => rw [List.length_eq_zero_iff.mp hlen]; rfl
  | succ n ih =>
    match toks, hlen with
    | a :: b :: ts, hlen =>
      have hts : ts.length = 2 * n := by simp only [List.length_cons] at hlen; omega
      rw [foldTokens, ih _ ts hts, List.range_succ_eq_map, List.foldl_cons, List.foldl_map, append_eq_or_shiftLeft]
      rfl

theorem KvState.parentKey_zero (v : KvState) (q : Sequence) : v.parentKey q 0 = some (rootKey q.domain) := rfl

theorem KvState.parentKey_succ {v : KvState} {q : Sequence} {n b : Nat} {x : TreeNode} (hpage : q.pages.getD b none = some n)
    (hnode : q.node = some n) (hx : v.nodeOf n = some x) : v.parentKey q (b + 1) = some x.key := by
  simp only [KvState.parentKey, Nat.add_sub_cancel, hpage, hnode, Option.bind_some, hx]
  rfl

/-- A lookup finds nothing where the tree holds no node of the key. -/
theorem KvState.lookup_of_no_key {v : KvState} {q : Sequence} {b : Nat} {toks : List Word} {pk : Dword}
    (hpk : v.parentKey q b = some pk) (hkey : ∀ x ∈ v.tree, x.key ≠ pageKey pk toks) : v.lookup q b toks = .absent := by
  have hnone : v.tree.find? (fun t => t.key == pageKey pk toks) = none := by simpa using hkey
  simp only [KvState.lookup, hpk, hnone]

/-- The node that an insertion adds for block b of a sequence (R265). -/
def KvState.newNode (v : KvState) (q : Sequence) (b own : Nat) (pk : Dword) (toks : List Word) : TreeNode :=
  { page := own, key := pageKey pk toks, parent := if b = 0 then none else q.node, tokens := toks, ckpt := decide (v.sb ≠ 0) }

/-- A full block whose key is absent from a tree with room is inserted, and its node becomes the sequence's (R265). -/
theorem State.fullBlock_of_absent {s : State} {p c h b n : Nat} {toks : List Word} {v : KvState} {q : Sequence} {pk : Dword}
    (hv : s.kv p c = some v) (hq : v.seq h = some q) (hon : q.offTree = false) (hpage : q.pages.getD b none = some n)
    (hroom : v.tree.length < v.np) (hpk : v.parentKey q b = some pk) (habsent : v.lookup q b toks = .absent) :
    s.fullBlock p c h b toks = s.updKv p c (fun w => { (w.upd h (fun x => { x with node := some n })) with
      tree := w.tree ++ [v.newNode q b n pk toks] }) := by
  simp only [State.fullBlock, hv, hq, hon, hpk, hpage, habsent, if_neg (Nat.not_le.mpr hroom)]
  rfl

/-- After an insertion the new node is the sequence's, and the parent of its next block. -/
theorem State.fullBlock_inserts {s : State} {p c h b n : Nat} {toks : List Word} {v : KvState} {q : Sequence} {pk : Dword}
    (hv : s.kv p c = some v) (hq : v.seq h = some q) (hon : q.offTree = false) (hpage : q.pages.getD b none = some n)
    (hroom : v.tree.length < v.np) (hpk : v.parentKey q b = some pk) (habsent : v.lookup q b toks = .absent)
    (hnew : ∀ x ∈ v.tree, x.page ≠ n) :
    ∃ w z y, (s.fullBlock p c h b toks).kv p c = some w ∧ w.seq h = some z ∧ z.node = some n ∧ w.nodeOf n = some y ∧
      y.key = pageKey pk toks ∧ y.tokens = toks ∧ w.parentKey z (b + 1) = some y.key := by
  rw [State.fullBlock_of_absent hv hq hon hpage hroom hpk habsent]
  let w : KvState := { v.upd h (fun x => { x with node := some n }) with tree := v.tree ++ [v.newNode q b n pk toks] }
  have hnode : w.nodeOf n = some (v.newNode q b n pk toks) := by
    have hnone : v.tree.find? (fun t => t.page == n) = none := by simpa using hnew
    simp [w, KvState.nodeOf, hnone, KvState.newNode]
  exact ⟨w, { q with node := some n }, _, State.kv_updKv_self hv _, KvState.seq_upd_self hq (fun _ => rfl), rfl, hnode, rfl, rfl,
    KvState.parentKey_succ hpage rfl hnode⟩

/-- Settles O17: the fold over pairs of tokens is the fold by index, and an insertion's node has the key that the lookup sought. -/
theorem pageKeyIsTheFold : Obligations.PageKeyIsTheFold := by
  refine ⟨fun _ => rfl, fun _ => rfl, fun pk toks hlen => foldTokens_eq_foldl 128 _ toks hlen, ?_⟩
  intro s p c h b n toks v q pk hv hq hon hpage hroom hpk hparent hnew
  have hkey : v.parentKey q b = some pk := by
    by_cases hb : b = 0
    · rw [hpk, KvState.parentKey, if_pos hb, if_pos hb]
    · obtain ⟨hsome, hprev⟩ := hparent.resolve_left hb
      obtain ⟨x, hx⟩ := Option.isSome_iff_exists.mp hsome
      rw [hpk, KvState.parentKey, if_neg hb, if_neg hb, if_pos hprev, hx]
      rfl
  have habsent : v.lookup q b toks = .absent := KvState.lookup_of_no_key hkey fun x hx => (hnew x hx).1
  exact ⟨habsent, State.fullBlock_inserts hv hq hon hpage hroom hkey habsent fun x hx => (hnew x hx).2⟩

/-! ### Page lists (R255, R258, R269) -/

/-- The page lists of a context by the handles of their sequences: what a count of references and a holder are about. -/
def KvState.lists (v : KvState) : List (Nat × List (Option Nat)) := v.seqs.map (fun q => (q.handle, q.pages))

/-- The page lists with the one of a handle replaced. -/
def setList (h : Nat) (ps : List (Option Nat)) (l : List (Nat × List (Option Nat))) : List (Nat × List (Option Nat)) :=
  l.map (fun e => if e.1 = h then (h, ps) else e)

/-- The page list of a handle. -/
def listOf (l : List (Nat × List (Option Nat))) (g : Nat) : Option (List (Option Nat)) := (l.find? (fun e => e.1 == g)).map Prod.snd

/-- The references that page lists hold to a page set. -/
def refsIn (l : List (Nat × List (Option Nat))) (n : Nat) : Nat := (l.map (fun e => e.2.count (some n))).sum

theorem KvState.refs_eq_refsIn (v : KvState) (n : Nat) : v.refs n = refsIn v.lists n := by
  simp only [KvState.refs, refsIn, KvState.lists, List.map_map, Function.comp_def, List.count, List.countP_eq_length_filter]

theorem KvState.pages_eq_listOf (v : KvState) (g : Nat) : (v.seq g).map (fun q => q.pages) = listOf v.lists g := by
  simp only [KvState.seq, listOf, KvState.lists, List.find?_map, Option.map_map, Function.comp_def]

theorem listOf_setList (g h : Nat) (ps : List (Option Nat)) (l : List (Nat × List (Option Nat))) :
    listOf (setList h ps l) g = (listOf l g).map (fun qs => if g = h then ps else qs) := by
  have hsame : ((fun e : Nat × List (Option Nat) => e.1 == g) ∘ fun e => if e.1 = h then (h, ps) else e) = fun e => e.1 == g := by
    funext e
    by_cases heq : e.1 = h <;> simp [heq]
  rw [listOf, setList, List.find?_map, hsame, listOf, Option.map_map, Option.map_map]
  refine Option.map_congr fun e he => ?_
  obtain rfl : e.1 = g := by simpa using List.find?_some he
  exact apply_ite Prod.snd _ _ _

theorem setList_of_not_mem {l : List (Nat × List (Option Nat))} {h : Nat} (hnot : h ∉ l.map Prod.fst) (ps : List (Option Nat)) :
    setList h ps l = l := by
  refine (List.map_congr_left fun e he => ?_).trans l.map_id
  exact if_neg fun heq => hnot (List.mem_map.mpr ⟨e, he, heq⟩)

/-- A page set that nothing references is referenced, once a list is replaced, as often as the new list names it. -/
theorem refsIn_setList_le {l : List (Nat × List (Option Nat))} {n : Nat} (hnodup : (l.map Prod.fst).Nodup) (hfree : refsIn l n = 0)
    (h : Nat) (ps : List (Option Nat)) : refsIn (setList h ps l) n ≤ ps.count (some n) := by
  induction l with
  | nil => exact Nat.zero_le _
  | cons e l ih =>
    simp only [refsIn, List.map_cons, List.sum_cons, Nat.add_eq_zero_iff] at hfree
    obtain ⟨hhead, htail⟩ := hfree
    obtain ⟨hnot, hnodup⟩ := List.nodup_cons.mp hnodup
    by_cases heq : e.1 = h
    · have hrest := setList_of_not_mem (heq ▸ hnot) ps
      show refsIn ((if e.1 = h then (h, ps) else e) :: setList h ps l) n ≤ _
      rw [if_pos heq, hrest]
      simp [refsIn, htail]
    · show refsIn ((if e.1 = h then (h, ps) else e) :: setList h ps l) n ≤ _
      rw [if_neg heq]
      have := ih hnodup htail
      simp only [refsIn, List.map_cons, List.sum_cons, hhead, Nat.zero_add] at this ⊢
      exact this

theorem count_le_refsIn {l : List (Nat × List (Option Nat))} {h : Nat} {ps : List (Option Nat)} (hps : listOf l h = some ps)
    (n : Nat) : ps.count (some n) ≤ refsIn l n := by
  obtain ⟨e, he, rfl⟩ := Option.map_eq_some_iff.mp hps
  exact List.le_sum_of_mem (List.mem_map.mpr ⟨e, List.mem_of_find?_eq_some he, rfl⟩)

/-- A page list with room for block b, as the writer of the block has it. -/
def withRoom (ps : List (Option Nat)) (b : Nat) : List (Option Nat) := ps ++ List.replicate (b + 1 - ps.length) none

theorem withRoom_getD (ps : List (Option Nat)) (b : Nat) : (withRoom ps b).getD b none = ps.getD b none := by
  by_cases h : b < ps.length
  · exact List.getD_append _ _ _ _ h
  · rw [withRoom, List.getD_append_right _ _ _ _ (Nat.not_lt.mp h), List.getD_eq_default _ _ (Nat.not_lt.mp h)]
    rw [List.getD_eq_getElem?_getD, List.getElem?_replicate]
    split <;> rfl

theorem lt_length_withRoom (ps : List (Option Nat)) (b : Nat) : b < (withRoom ps b).length := by
  simp only [withRoom, List.length_append, List.length_replicate]
  omega

theorem count_withRoom (ps : List (Option Nat)) (b n : Nat) : (withRoom ps b).count (some n) = ps.count (some n) := by
  simp [withRoom, List.count_append, List.count_replicate]

/-- Naming a page set in one more entry adds at most one reference. -/
theorem count_set_le (ps : List (Option Nat)) (b n : Nat) (m : Option Nat) : (ps.set b m).count (some n) ≤ ps.count (some n) + 1 := by
  by_cases h : b < ps.length
  · rw [List.count_set h]
    split <;> split <;> omega
  · rw [List.set_eq_of_length_le (Nat.not_lt.mp h)]
    exact Nat.le_succ _

/-! ### What keeps page lists, and what replaces one -/

/-- Changing sequences in their other fields keeps the page lists. -/
theorem KvState.lists_of_map {v w : KvState} {f : Sequence → Sequence} (hw : w.seqs = v.seqs.map f)
    (hf : ∀ q, (f q).handle = q.handle ∧ (f q).pages = q.pages) : w.lists = v.lists := by
  simp only [KvState.lists, hw, List.map_map, Function.comp_def, hf]

theorem KvState.lists_upd_of_same (v : KvState) (h : Nat) {f : Sequence → Sequence}
    (hf : ∀ q, (f q).handle = q.handle ∧ (f q).pages = q.pages) : (v.upd h f).lists = v.lists :=
  KvState.lists_of_map rfl fun q => by split <;> simp [hf]

theorem KvState.lists_upd_pages (v : KvState) (h : Nat) (ps : List (Option Nat)) :
    (v.upd h (fun x => { x with pages := ps })).lists = setList h ps v.lists := by
  simp only [KvState.lists, KvState.upd, setList, List.map_map]
  refine List.map_congr_left fun q _ => ?_
  by_cases heq : q.handle = h <;> simp [heq]

theorem KvState.lists_sweep (v : KvState) (ns : List Nat) : (v.sweep ns).lists = v.lists :=
  KvState.lists_of_map rfl fun q => by split <;> exact ⟨rfl, rfl⟩

/-- Room in the list area changes where a list stands, and neither its entries nor the free page sets. -/
theorem KvState.ensureList_keeps {v w : KvState} {h n : Nat} (hw : v.ensureList h n = some w) :
    w.lists = v.lists ∧ w.freePages = v.freePages := by
  have hmove {f : Sequence → Sequence} (hw : v.upd h f = w) (hf : ∀ q, (f q).handle = q.handle ∧ (f q).pages = q.pages) :
      w.lists = v.lists ∧ w.freePages = v.freePages := hw ▸ ⟨v.lists_upd_of_same h hf, rfl⟩
  have hstay (hw : v = w) : w.lists = v.lists ∧ w.freePages = v.freePages := hw ▸ ⟨rfl, rfl⟩
  unfold KvState.ensureList at hw
  split at hw
  case h_1 => cases hw
  case h_2 q _ =>
    dsimp only at hw
    split at hw
    case h_1 =>
      split at hw
      case isTrue => exact hstay (Option.some.inj hw)
      case isFalse =>
        split at hw
        case h_1 off _ => exact hmove (Option.some.inj hw) fun _ => ⟨rfl, rfl⟩
        case h_2 =>
          obtain ⟨vb, -, hw⟩ := Option.map_eq_some_iff.mp hw
          exact hmove hw fun _ => ⟨rfl, rfl⟩
    case h_2 =>
      split at hw
      case isTrue => exact hstay (Option.some.inj hw)
      case isFalse =>
        obtain ⟨vb, -, hw⟩ := Option.map_eq_some_iff.mp hw
        exact hmove hw fun _ => ⟨rfl, rfl⟩

/-! ### Making a block writable (R258, R269) -/

theorem State.kv_syncList (s : State) (p c h : Nat) : (s.syncList p c h).kv p c = s.kv p c := State.kv_congr (s.syncList_parts p c h) p c

theorem State.kv_dropRefs {s : State} {p c : Nat} {v : KvState} (hv : s.kv p c = some v) (ns : List Nat) :
    (s.dropRefs p c ns).kv p c = some (v.sweep ns) :=
  (State.kv_congr (State.foldl_parts (fun t n => t.trimPage_parts p c n) _ _) p c).trans (State.kv_updKv_self hv _)

/-- The lowest free page set is taken, and the lists stay. -/
theorem KvState.takePage_keeps {v w : KvState} {n : Nat} (hw : v.takePage = some (n, w)) : n ∈ v.freePages ∧ w.lists = v.lists := by
  unfold KvState.takePage at hw
  split at hw
  case h_1 => cases hw
  case h_2 m ns hfree =>
    obtain ⟨rfl, rfl⟩ := Prod.mk.inj (Option.some.inj hw)
    exact ⟨hfree ▸ List.mem_cons_self, rfl⟩

/-- What making block b of a sequence writable does to the page lists (R258, R269): the block takes a free page set, where it has
none or its writer copies it; else every list stays. -/
theorem State.writable_lists {s t : State} {p c h b : Nat} {copy : Bool} {v : KvState} (hv : s.kv p c = some v)
    (ht : s.writable p c h b copy = some t) :
    ∃ w ps, t.kv p c = some w ∧ listOf v.lists h = some ps ∧
      ((∃ m ∈ v.freePages, w.lists = setList h ((withRoom ps b).set b (some m)) v.lists) ∨
        (∃ n, copy = false ∧ ps.getD b none = some n ∧ w.lists = v.lists)) := by
  simp only [State.writable, hv] at ht
  split at ht
  case h_1 => cases ht
  case h_2 u hroom =>
    obtain ⟨hlists, hfree⟩ := KvState.ensureList_keeps hroom
    split at ht
    case h_1 => cases ht
    case h_2 q hq =>
      have hps : listOf v.lists h = some q.pages := by rw [← hlists, ← KvState.pages_eq_listOf, hq]; rfl
      have htaken {n : Nat} {u1 : KvState} (htake : u.takePage = some (n, u1)) :
          n ∈ v.freePages ∧ (u1.upd h (fun x => { x with pages := (withRoom q.pages b).set b (some n) })).lists =
            setList h ((withRoom q.pages b).set b (some n)) v.lists := by
        obtain ⟨hn, hsame⟩ := KvState.takePage_keeps htake
        exact ⟨hfree ▸ hn, by rw [KvState.lists_upd_pages, hsame, hlists]⟩
      split at ht
      case h_1 =>
        split at ht
        case h_1 => cases ht
        case h_2 n u1 htake =>
          obtain ⟨hn, hset⟩ := htaken htake
          obtain rfl := Option.some.inj ht
          exact ⟨_, _, (State.kv_syncList ..).trans (State.kv_updKv_self hv _), hps, .inl ⟨n, hn, hset⟩⟩
      case h_2 n hn =>
        split at ht
        case isTrue =>
          split at ht
          case h_1 => cases ht
          case h_2 m u1 htake =>
            obtain ⟨hm, hset⟩ := htaken htake
            obtain rfl := Option.some.inj ht
            have hcopied : (s.copyPage u n m (q.length - 256 * b)).kv p c = some v :=
              (State.kv_congr (State.copyPage_parts ..) p c).trans hv
            exact ⟨_, _, (State.kv_syncList ..).trans (State.kv_dropRefs (State.kv_updKv_self hcopied _) _), hps,
              .inl ⟨m, hm, (KvState.lists_sweep _ _).trans hset⟩⟩
        case isFalse hcopy =>
          obtain rfl := Option.some.inj ht
          refine ⟨u, _, ?_, hps, .inr ⟨n, by simpa using hcopy, (withRoom_getD q.pages b).symm.trans hn, hlists⟩⟩
          have hkv := (State.kv_syncList (s.updKv p c (fun _ => u)) p c h).trans (State.kv_updKv_self hv _)
          split
          · exact (State.kv_congr (State.zeroFrom_parts ..) p c).trans hkv
          · exact hkv

/-- A writer that does not copy its page set is its only holder or its keeper (R269). -/
theorem KvState.own_of_not_copies {v : KvState} {writers : List Nat} {h b n : Nat} {ps : List (Option Nat)}
    (hps : listOf v.lists h = some ps) (hn : ps.getD b none = some n) (hcopy : v.copies writers h b = false) :
    v.refs n ≤ 1 ∨ v.keeps writers n h = true := by
  rw [← KvState.pages_eq_listOf] at hps
  obtain ⟨q, hq, rfl⟩ := Option.map_eq_some_iff.mp hps
  simp only [KvState.copies, hq, Option.bind_some, hn, Bool.and_eq_false_iff, decide_eq_false_iff_not, Nat.not_lt,
    Bool.not_eq_false'] at hcopy
  exact hcopy

/-- Settles O18: a page set that a block takes was free, so that the new list alone names it; one that stays has no copying
writer. -/
theorem writtenPageSetsAreOwn : Obligations.WrittenPageSetsAreOwn := by
  intro s t p c h b writers v hv hnodup hfree ht
  obtain ⟨w, ps, hw, hps, hcase⟩ := State.writable_lists hv ht
  have hkeys : (v.lists.map Prod.fst).Nodup := by simpa [KvState.lists, Function.comp_def] using hnodup
  have hfound {qs : List (Option Nat)} (hqs : listOf w.lists h = some qs) : ∃ q, w.seq h = some q ∧ q.pages = qs :=
    Option.map_eq_some_iff.mp ((w.pages_eq_listOf h).trans hqs)
  rcases hcase with ⟨m, hm, hlists⟩ | ⟨n, hcopy, hn, hlists⟩
  · obtain ⟨q, hq, hpages⟩ := hfound (qs := (withRoom ps b).set b (some m)) (by rw [hlists, listOf_setList, hps, Option.map_some, if_pos rfl])
    have hunused : refsIn v.lists m = 0 := (v.refs_eq_refsIn m).symm.trans (hfree m hm)
    refine ⟨w, q, m, hw, hq, ?_, .inl ?_, fun g hg => ?_⟩
    · rw [hpages, List.getD_eq_getElem?_getD, List.getElem?_set_self (lt_length_withRoom ps b)]
      rfl
    · have hother : ps.count (some m) = 0 := Nat.eq_zero_of_le_zero (hunused ▸ count_le_refsIn hps m)
      calc w.refs m = refsIn w.lists m := w.refs_eq_refsIn m
        _ ≤ ((withRoom ps b).set b (some m)).count (some m) := hlists ▸ refsIn_setList_le hkeys hunused h _
        _ ≤ (withRoom ps b).count (some m) + 1 := count_set_le _ b m _
        _ = 1 := by rw [count_withRoom, hother]
    · rw [KvState.pages_eq_listOf, KvState.pages_eq_listOf, hlists, listOf_setList]
      simp only [if_neg hg, Option.map_id']
  · obtain ⟨q, hq, rfl⟩ := hfound (hlists.symm ▸ hps)
    refine ⟨w, q, n, hw, hq, hn, ?_, fun g _ => ?_⟩
    · rw [w.refs_eq_refsIn, hlists, ← v.refs_eq_refsIn]
      exact KvState.own_of_not_copies hps hn hcopy
    · rw [KvState.pages_eq_listOf, KvState.pages_eq_listOf, hlists]

end Sys2Proof.Machine
end

section
/-! SUPPORT. Sequence commands at the gate: creating, releasing, thawing and forking (R246, R258, R268 to R279, O16). -/

namespace Sys2Proof.Machine

/-! ### The commands at their point (R433 to R437) -/

section AtPoint
variable {s : State} {c : CmdRef} {k : Cmd}

theorem exec_opSeqRelease_of_atPoint (h : AtPoint s c k 0x0306) :
    exec (.opSeqRelease c) s = .next (s.unlessLost c (s.seqRelease c k (k.home c) k.ctxField).settle) :=
  congrArg Host.Outcome.next (State.gate_of_atPoint h rfl fun t k p h => t.seqRelease c k p h)

theorem exec_opSeqThaw_of_atPoint (h : AtPoint s c k 0x0307) :
    exec (.opSeqThaw c) s = .next (s.unlessLost c (s.seqThaw c k (k.home c) k.ctxField).settle) :=
  congrArg Host.Outcome.next (State.gate_of_atPoint h rfl fun t k p h => t.seqThaw c k p h)

theorem exec_opFork_of_atPoint (h : AtPoint s c k 0x0303) :
    exec (.opFork c) s = .next (s.unlessLost c (s.opFork c k (k.home c) k.ctxField).settle) :=
  congrArg Host.Outcome.next (State.gate_of_atPoint h rfl fun t k p h => t.opFork c k p h)

/-- A sequence that can be added is created, and its handle is the command's count (R246, R304). -/
theorem exec_opSeqCreate_of_added {t : State} {v : KvState} {n : Nat} (h : AtPoint s c k 0x0305)
    (hv : s.kv (k.home c) k.ctxField = some v) (hprio : k.p 0 8 < 8)
    (hadd : s.addSeq (k.home c) k.ctxField (Sequence.fresh (k.p 0 1) (BitVec.ofNat 64 (k.p 8 8))) = some (n, t)) :
    exec (.opSeqCreate c) s = .next (s.unlessLost c (t.endCmd c { Fin.ok with c0 := n }).settle) := by
  show execOpSeqCreate c s = _
  rw [execOpSeqCreate, State.gate_of_atPoint (always := false) h rfl]
  simp only [hv, if_neg (Nat.not_le.mpr hprio), hadd]
end AtPoint

section Sequence
variable {s : State} {k : Cmd} {p h : Nat} {q : Sequence} (hq : s.seq p h (k.p 0 4) = some q)
include hq

/-! ### OP_SEQ_RELEASE (R258, R279) -/

theorem State.seqRelease_of_busy (hbusy : q.status = .busy) (c : CmdRef) : s.seqRelease c k p h = s := by
  simp only [State.seqRelease, hq, if_pos hbusy]

theorem State.seqRelease_of_idle (hidle : q.status ≠ .busy) (c : CmdRef) :
    s.seqRelease c k p h = (s.releaseSeq p h q.handle).endCmd c Fin.ok := by
  simp only [State.seqRelease, hq, if_neg hidle]

/-! ### OP_SEQ_THAW (R275) -/

theorem State.seqThaw_of_resident (hidle : q.status ≠ .busy) (hswap : q.swap = none) (c : CmdRef) :
    s.seqThaw c k p h = s.endCmd c Fin.ok := by
  simp only [State.seqThaw, hq, if_neg hidle, hswap, Option.isNone_none, if_true]

theorem State.seqThaw_of_thawed {t : State} (hidle : q.status ≠ .busy) (hswap : q.swap ≠ none)
    (hlive : s.liveShort p h [q.handle] 0 = false) (ht : s.thaw p h q.handle = some t) (c : CmdRef) :
    s.seqThaw c k p h = t.endCmd c { Fin.ok with c0 := 1 } := by
  have hsome : ¬ q.swap.isNone = true := by simpa using hswap
  simp only [State.seqThaw, hq, if_neg hidle, if_neg hsome, hlive, Bool.false_eq_true, if_false,
    State.claim_of_some (try_ := fun u => u.thaw p h q.handle) ht]

/-! ### OP_FORK (R268 to R271, R306, R307) -/

section Fork
variable {v : KvState} (hv : s.kv p h = some v) (hA : k.p 0xA 6 = 0) (h16 : k.p 0x16 2 = 0) (hidle : q.status ≠ .busy)
include hv hA h16 hidle

/-- A fork of a resident sequence at a position whose state is known makes its children, where live blocks are not short. -/
theorem State.opFork_of_resident {pos : Nat} (hswap : q.swap = none) (hpos : (if k.p 4 4 = 0xFFFFFFFF then q.length else k.p 4 4) = pos)
    (hle : pos ≤ q.length) (hknown : v.stateKnown q pos = true) (hn : 0 < k.p 8 2) (hmax : k.p 8 2 ≤ 4096)
    (hlive : s.liveShort p h [q.handle] (if k.opf0 then k.p 8 2 - 1 else k.p 8 2) = false) (c : CmdRef) :
    s.opFork c k p h = s.forkOut s c k p h q.handle pos (k.p 8 2) := by
  have hfields : ¬ (k.p 0xA 6 ≠ 0 ∨ k.p 0x16 2 ≠ 0) := by simp [hA, h16]
  have hlimit : ¬ (4096 < k.p 8 2 ∨ q.length < pos) := by omega
  simp only [State.opFork, hv, hq, if_neg hfields, if_neg hidle, hpos, if_neg hlimit, hknown, if_neg hn.ne', hlive, hswap,
    Bool.not_true, Bool.false_eq_true, if_false, Option.isNone_none, if_true]

/-- A fork of no children at the sequence's end does nothing (R268). -/
theorem State.opFork_of_no_children (hpos : k.p 4 4 = 0xFFFFFFFF) (hn : k.p 8 2 = 0) (c : CmdRef) :
    s.opFork c k p h = s.endCmd c (Fin.bare stOkEmpty) := by
  have hfields : ¬ (k.p 0xA 6 ≠ 0 ∨ k.p 0x16 2 ≠ 0) := by simp [hA, h16]
  have hknown : v.stateKnown q q.length = true := by simp [KvState.stateKnown]
  simp [State.opFork, hv, hq, if_neg hfields, hidle, hpos, hn, hknown]
end Fork
end Sequence

/-- The children that a fork makes: with the parent released, or beside it (R268, R270). -/
def State.forkOf (s : State) (k : Cmd) (p h handle pos : Nat) : Option (List Nat × State) :=
  if k.opf0 then s.forkReleasing p h handle pos (k.p 8 2) else s.forkChildren p h handle pos (k.p 8 2)

/-- A fork whose handles can be written stands after the write. -/
theorem State.forkOut_of_written {s t u w : State} {c : CmdRef} {k : Cmd} {p h handle pos : Nat} {ks ks2 : List Nat}
    (hfork : s.forkOf k p h handle pos = some (ks, w))
    (hwrite : s.writeEng (k.who c.block) (k.p 0x10 6) (ks.flatMap (leBytes 4)) = .ok () t)
    (hagain : t.forkOf k p h handle pos = some (ks2, u)) (before : State) :
    s.forkOut before c k p h handle pos (k.p 8 2) = u.endCmd c { Fin.ok with c0 := k.p 8 2 } := by
  unfold State.forkOf at hfork hagain
  simp only [State.forkOut, hfork, hwrite, hagain]

/-! ### PAGE_SET_ZEROING_DONE (R258) -/

theorem exec_pageSetZeroingDone_of_zeroing {s : State} {a b n : Nat} {v : KvState} (hv : s.kv a b = some v) (hn : n ∈ v.zeroing) :
    exec (.pageSetZeroingDone a b n) s = .next ((s.zeroPage v n).updKv a b (fun w =>
      { w with zeroing := w.zeroing.filter (fun m => m != n), freePages := insertAsc n w.freePages })) := by
  show Host.Outcome.next (s.pageZeroed a b n) = _
  rw [State.pageZeroed, hv]
  exact congrArg _ (if_pos (by simpa using hn))

/-- Settles O16: each command at its point does what its own lemma says of the sequence it names. -/
theorem sequenceCommandResults : Obligations.SequenceCommandResults := by
  intro s t u c k v q n p h hv
  refine ⟨fun hat hprio hadd => exec_opSeqCreate_of_added hat hv hprio hadd,
    fun hq => ⟨fun hat hbusy => ?waits, fun hat hidle => ?released, fun hat hidle hswap => ?resident,
      fun hat hidle hswap hlive ht => ?thawed,
      fun hat hA h16 hidle hswap hle hknown hn hmax hlive ks ks2 w hfork hwrite hagain => ?forked,
      fun hat hA h16 hidle hpos hn => ?empty⟩, fun a b hv hn => exec_pageSetZeroingDone_of_zeroing hv hn⟩
  case waits => rw [exec_opSeqRelease_of_atPoint hat, State.seqRelease_of_busy hq hbusy]
  case released => rw [exec_opSeqRelease_of_atPoint hat, State.seqRelease_of_idle hq hidle]
  case resident => rw [exec_opSeqThaw_of_atPoint hat, State.seqThaw_of_resident hq hidle hswap]
  case thawed => rw [exec_opSeqThaw_of_atPoint hat, State.seqThaw_of_thawed hq hidle hswap hlive ht]
  case forked =>
    rw [exec_opFork_of_atPoint hat, State.opFork_of_resident hq hv hA h16 hidle hswap rfl hle hknown hn hmax hlive,
      State.forkOut_of_written hfork hwrite hagain]
  case empty => rw [exec_opFork_of_atPoint hat, State.opFork_of_no_children hq hv hA h16 hidle hpos hn]

end Sys2Proof.Machine
end

section
/-! SUPPORT. How a command ends: its record, its output, its time-out and its abort (R285, R334, R399, R428 to R440, R649, O32). -/

namespace Sys2Proof.Machine

/-! ### Fields of a byte list (R428) -/

theorem field_succ (bs : List Byte) (off w : Nat) : field bs off (w + 1) = (bs.getD off 0).toNat + 256 * field bs (off + 1) w := by
  simp only [field, List.range_succ_eq_map, List.map_cons, List.map_map, leNat, Function.comp_def, Nat.add_zero, Nat.add_assoc,
    Nat.succ_eq_add_one, Nat.add_comm 1]

theorem leBytes_length (n v : Nat) : (leBytes n v).length = n := by
  induction n generalizing v with
  | zero => rfl
  | succ n ih => rw [leBytes, List.length_cons, ih]

/-- The field of the low w bytes of a value that stands at the front. -/
theorem field_leBytes_append {n w : Nat} (hw : w ≤ n) (v : Nat) (rest : List Byte) : field (leBytes n v ++ rest) 0 w = v % 256 ^ w := by
  have hshift (b : Byte) (bs : List Byte) (m : Nat) : field (b :: bs) 1 m = field bs 0 m := by
    simp only [field, Nat.zero_add, Nat.add_comm 1, List.getD_cons_succ]
  induction w generalizing n v with
  | zero => rw [Nat.pow_zero, Nat.mod_one]; rfl
  | succ w ih =>
    obtain ⟨n, rfl⟩ : ∃ m, n = m + 1 := ⟨n - 1, by omega⟩
    rw [leBytes, List.cons_append, field_succ, hshift, ih (Nat.le_of_succ_le_succ hw), List.getD_cons_zero, BitVec.toNat_ofNat,
      show 256 ^ (w + 1) = 256 * 256 ^ w from Nat.pow_succ']
    exact Nat.mod_mul.symm

theorem field_leBytes {n w : Nat} (hw : w ≤ n) (v : Nat) : field (leBytes n v) 0 w = v % 256 ^ w := by
  simpa using field_leBytes_append hw v []

/-- A field beyond the bytes of a value is a field of what follows them. -/
theorem field_append_of_le {n off : Nat} (h : n ≤ off) (v w : Nat) (rest : List Byte) :
    field (leBytes n v ++ rest) off w = field rest (off - n) w := by
  simp only [field]
  refine congrArg leNat (List.map_congr_left fun i _ => ?_)
  rw [List.getD_append_right _ _ _ _ (by rw [leBytes_length]; omega), leBytes_length, Nat.sub_add_comm h]

/-- The fields of a completion record (R428). -/
theorem recordBytes_fields (tag status ring detail c0 c1 us head qseq : Nat) :
    let r := recordBytes tag status ring detail c0 c1 us head qseq
    r.length = 32 ∧ field r 0 4 = tag % 2 ^ 32 ∧ field r 4 2 = status % 2 ^ 16 ∧
    (status < 2 ^ 16 → field r 4 4 = status + ring % 4 * 2 ^ 17) ∧ field r 8 8 = detail % 2 ^ 64 ∧
    field r 16 4 = min c0 0xFFFFFFFF ∧ field r 20 4 = min c1 0xFFFFFFFF ∧ field r 24 4 = min us 0xFFFFFFFF ∧
    field r 28 2 = head % 2 ^ 16 ∧ field r 30 2 = qseq % 2 ^ 16 := by
  have hsaturated (v : Nat) : min v 4294967295 % 4294967296 = min v 4294967295 := Nat.mod_eq_of_lt (by omega)
  simp only [recordBytes, List.append_assoc, List.length_append, leBytes_length, field_append_of_le, field_leBytes_append, field_leBytes,
    Nat.reduceLeDiff, Nat.reduceSub, Nat.reducePow, Nat.reduceAdd, le_refl, Nat.sub_self, hsaturated, true_and, and_true]
  exact ⟨by omega, fun _ => by omega⟩

/-! ### The end of a command (R402, R428, R440, R649) -/

/-- A command after its end. -/
def State.ended (s : State) (c : CmdRef) : State := s.updCmd c (fun j => { j with phase := .ended, exec := none })

/-- The record of a command that ends with a status and a DETAIL, and with the counts of its result. -/
def State.recordOf (s : State) (c : CmdRef) (k : Cmd) (f : Fin) (status detail : Nat) : List Byte :=
  recordBytes k.tag status (if c.block ≤ 8 then k.ring else 0) detail f.c0 f.c1 (s.elapsed k) k.sqHead.toNat (k.qseq % 65536)

section EndCmd
variable {s : State} {c : CmdRef} {k : Cmd} {f : Fin} (hk : s.cmd c = some k) (hphase : k.phase ≠ .ended)
include hk hphase

/-- A status other than ST_OK stands in the record as it is. -/
theorem State.endCmd_of_status (hblock : c.block ≤ 8) (hst : f.status ≠ 0) :
    s.endCmd c f = (s.ended c).deliver c.block k.ring
      { cmd := some c.id, bytes := s.recordOf c k f f.status f.detail, noIrq := bitOf k.flags 1 } := by
  simp only [State.endCmd, hk, if_neg hphase, stOk, hst, decide_false, Bool.false_and, Bool.false_eq_true, if_false, if_pos hblock,
    State.ended, State.recordOf]

/-- A command that no recovery affected, and whose units are all written, ends with ST_OK. -/
theorem State.endCmd_of_ok (hblock : c.block ≤ 8) (hst : f.status = 0) (hrecov : k.recov.count = 0) (hflash : k.flashUnwritten = false) :
    s.endCmd c f = (s.ended c).deliver c.block k.ring
      { cmd := some c.id, bytes := s.recordOf c k f 0 f.detail, noIrq := bitOf k.flags 1 } := by
  simp only [State.endCmd, hk, if_neg hphase, stOk, hst, hrecov, hflash, Nat.lt_irrefl, decide_true, decide_false, Bool.and_false,
    Bool.false_eq_true, if_false, if_true, Nat.add_zero, if_pos hblock, State.ended, State.recordOf]

/-- A command that a recovery affected ends with ST_OK_RECOVERED, and the recovery stands in DETAIL (R649). -/
theorem State.endCmd_of_recovered (hblock : c.block ≤ 8) (hst : f.status = 0) (hrecov : 0 < k.recov.count)
    (hflash : k.flashUnwritten = false) :
    s.endCmd c f = (s.ended c).deliver c.block k.ring
      { cmd := some c.id, bytes := s.recordOf c k f 2 (f.detail + k.recov.detail), noIrq := bitOf k.flags 1 } := by
  simp only [State.endCmd, hk, if_neg hphase, stOk, stOkRecovered, hst, hrecov, hflash, decide_true, Bool.and_true,
    Bool.false_eq_true, if_false, if_true, Nat.add_zero, if_pos hblock, State.ended, State.recordOf]

/-- On MGMT and DEBUG the record is the response, and the inline output follows it. -/
theorem State.endCmd_of_response (hblock : 9 ≤ c.block) (hst : f.status ≠ 0) :
    s.endCmd c f = ((s.ended c).dropCmd c).answer (s.recordOf c k f f.status f.detail ++ f.out) := by
  have hport : ¬ c.block ≤ 8 := by omega
  simp only [State.endCmd, hk, if_neg hphase, stOk, hst, decide_false, Bool.false_and, Bool.false_eq_true, if_false, if_neg hport,
    State.ended, State.recordOf]
end EndCmd

/-! ### Lost accesses (R334) -/

theorem State.unlessLost_of_none (s : State) (c : CmdRef) {t : State} (ht : t.mem.fwLoss = none) : s.unlessLost c t = t := by
  simp only [State.unlessLost, ht]

theorem State.unlessLost_of_lost (s : State) (c : CmdRef) {t : State} {a : Nat} {whole : Bool} (ht : t.mem.fwLoss = some (a, whole)) :
    s.unlessLost c t = ((s.suffer (a, whole)).failCmd c stDataLoss a).settle := by
  simp only [State.unlessLost, ht]

/-! ### Time-outs (R285, R399, R409, R437) -/

section Limit
variable {k : Cmd} (s : State) (c : CmdRef)

/-- A command's own limit: 0xFFFF_FFFF is none. -/
theorem State.limitOf_of_timeout (h : k.timeout ≠ 0) :
    s.limitOf c k = if k.timeout = 0xFFFFFFFF then none else some k.timeout := by
  have hmax : max k.timeout 1 = k.timeout := by omega
  simp only [State.limitOf, if_pos h, hmax]

/-- Without a limit of its own a command of MGMT or DEBUG has one second. -/
theorem State.limitOf_of_response (h : k.timeout = 0) (hblock : 9 ≤ c.block) : s.limitOf c k = some 1000000 := by
  simp [State.limitOf, h, hblock]

/-- Without a limit of its own a command of a ring has its block's default, which as 0 acts as 1 µs. -/
theorem State.limitOf_of_default (h : k.timeout = 0) (hblock : c.block < 9) :
    s.limitOf c k = if (s.block c.block).defTimeout.toNat = 0xFFFFFFFF then none else some (max (s.block c.block).defTimeout.toNat 1) := by
  simp [State.limitOf, h, Nat.not_le.mpr hblock]
end Limit

section Timeout
variable {s : State} {c : CmdRef} {k : Cmd} (hk : s.cmd c = some k)
include hk

theorem exec_commandTimeout_of_no_limit (hlimit : s.limitOf c k = none) : exec (.commandTimeout c) s = .next s := by
  show execCommandTimeout c s = _
  simp [execCommandTimeout, hk, hlimit]

/-- The timer of a command that no context holds back ends it at its last commit boundary. -/
theorem exec_commandTimeout_of_limit (hphase : k.phase = .started) (hlimit : s.limitOf c k ≠ none)
    (hruns : k.scope c.block ≠ .context ∨ ∃ x, s.part (k.home c) = some x ∧ x.current = some k.ctxField) :
    exec (.commandTimeout c) s =
      .next ((s.endAtBoundary c (if s.waitsPeer c k (k.home c) then stPeerLost else stTimeout) 0).settle) := by
  show execCommandTimeout c s = _
  have hsome : (s.limitOf c k).isNone = false := Option.isNone_eq_false_iff.mpr (Option.isSome_iff_ne_none.mpr hlimit)
  rcases hruns with hscope | ⟨x, hx, hcurrent⟩
  · simp [execCommandTimeout, hk, hphase, hsome, hscope]
  · simp [execCommandTimeout, hk, hphase, hsome, hx, hcurrent]
end Timeout

/-! ### OP_CMD_ABORT (R438) -/

theorem exec_opCmdAbort_of_atPoint {s : State} {c : CmdRef} {k : Cmd} (h : AtPoint s c k 0x0109) :
    exec (.opCmdAbort c) s = .next (s.unlessLost c (s.cmdAbort c k).settle) :=
  congrArg Host.Outcome.next (State.gate_of_atPoint h rfl fun t k _ _ => t.cmdAbort c k)

theorem State.cmdAbort_of_bad_ring (s : State) (c : CmdRef) {k : Cmd} (h : 4 ≤ k.p 4 4 ∨ (k.opf0 = true ∧ k.p 4 4 ≠ 0)) :
    s.cmdAbort c k = s.endCmd c k.badBlock := by
  simp only [State.cmdAbort, if_pos h]

/-- An abort that names a ring, or with OPF0 all, ends its targets that have no record and waits for them. -/
theorem State.cmdAbort_of_ring (s : State) (c : CmdRef) {k : Cmd} (hring : k.p 4 4 < 4) (hall : k.opf0 = true → k.p 4 4 = 0) :
    let without := (s.abortTargets c k).filter (fun j => j.phase != CmdPhase.ended)
    s.cmdAbort c k = (without.foldl (fun t j => t.endAtBoundary { block := c.block, id := j.id } stAborted 0) (s.startCmd c)).updCmd c
      (fun j => { j with abortTargets := (s.abortTargets c k).map (fun t => t.id), abortCount := without.length }) := by
  have hgood : ¬ (4 ≤ k.p 4 4 ∨ (k.opf0 = true ∧ k.p 4 4 ≠ 0)) :=
    fun h => h.elim (Nat.not_le.mpr hring) fun h => h.2 (hall h.1)
  simp only [State.cmdAbort, if_neg hgood]

/-! ### SEQ_BUSY_RESUME (R279) -/

/-- A release that has waited for its sequence is tried again. -/
theorem exec_seqBusyResume_of_release {s : State} {c : CmdRef} {k : Cmd} (h : AtPoint s c k 0x0306) :
    exec (.seqBusyResume c) s = exec (.opSeqRelease c) s := by
  obtain ⟨hcmd, hop, -, hphase, -⟩ := h
  show execSeqBusyResume c s = execOpSeqRelease c s
  simp [execSeqBusyResume, hcmd, hphase, hop]

/-! ### The output of a command (R440, R452) -/

section Output
variable {s t : State} {c : CmdRef} {a : Nat} {bs : List Byte} (w : Who) (f : Fin)

theorem State.output_of_written (hblock : c.block ≤ 8) (h : s.writeEng w a bs = .ok () t) : s.output c w a bs f = (t, some f) := by
  simp only [State.output, if_pos hblock, h]

theorem State.output_of_refused {st d : Nat} (hblock : c.block ≤ 8) (h : s.writeEng w a bs = .bad st d t) :
    s.output c w a bs f = (t, some (Fin.with st d)) := by
  simp only [State.output, if_pos hblock, h]

theorem State.output_of_inline (hblock : 9 ≤ c.block) (ha : a = 0) (hlen : bs.length ≤ 4096) :
    s.output c w a bs f = (s, some { f with out := bs }) := by
  have hport : ¬ c.block ≤ 8 := by omega
  have hfits : ¬ (a ≠ 0 ∨ 4096 < bs.length) := by omega
  simp only [State.output, if_neg hport, if_neg hfits]

theorem State.output_of_bad_inline {k : Cmd} (hk : s.cmd c = some k) (hblock : 9 ≤ c.block) (hbad : a ≠ 0 ∨ 4096 < bs.length) :
    s.output c w a bs f = (s, some k.badBlock) := by
  have hport : ¬ c.block ≤ 8 := by omega
  simp only [State.output, if_neg hport, if_pos hbad, hk]
  rfl
end Output

/-- Settles O32: the record has its fields, and the end, the time-out, the abort and the output of a command each follow the lemma
of their case. -/
theorem commandEndResults : Obligations.CommandEndResults := by
  refine ⟨⟨recordBytes_fields, fun s c k f hk hphase => ?ends, fun s t c => ?lost⟩, fun s c k => ?timeouts,
    fun s c w a bs f k hk => ?outputs⟩
  case ends =>
    exact ⟨fun hb hst => State.endCmd_of_status hk hphase hb hst, fun hb hst hr hf => State.endCmd_of_ok hk hphase hb hst hr hf,
      fun hb hst hr hf => State.endCmd_of_recovered hk hphase hb hst hr hf, fun hb hst => State.endCmd_of_response hk hphase hb hst⟩
  case lost => exact ⟨fun ht => s.unlessLost_of_none c ht, fun a whole ht => s.unlessLost_of_lost c ht⟩
  case timeouts =>
    refine ⟨fun hall => ?_, fun hne hlt => ?_, fun h hb => s.limitOf_of_response c h hb, fun h hb hd => ?_, fun h hb hd => ?_,
      fun hk hlimit => exec_commandTimeout_of_no_limit hk hlimit,
      fun hk hphase hlimit hscope => exec_commandTimeout_of_limit hk hphase hlimit (.inl hscope),
      fun x hk hphase hlimit hx hcurrent => exec_commandTimeout_of_limit hk hphase hlimit (.inr ⟨x, hx, hcurrent⟩),
      fun hat hring hall => ?_, fun hat hbad => ?_, fun q hat hq hidle => ?_⟩
    · rw [s.limitOf_of_timeout c (by omega), if_pos hall]
    · rw [s.limitOf_of_timeout c hne, if_neg hlt]
    · rw [s.limitOf_of_default c h hb, hd]; rfl
    · rw [s.limitOf_of_default c h hb, hd]; rfl
    · rw [exec_opCmdAbort_of_atPoint hat, s.cmdAbort_of_ring c hring hall]; rfl
    · rw [exec_opCmdAbort_of_atPoint hat, s.cmdAbort_of_bad_ring c hbad]
    · rw [exec_seqBusyResume_of_release hat, exec_opSeqRelease_of_atPoint hat, State.seqRelease_of_idle hq hidle]
  case outputs =>
    exact ⟨fun t hb h => State.output_of_written w f hb h, fun st d t hb h => State.output_of_refused w f hb h,
      fun hb ha hlen => State.output_of_inline w f hb ha hlen, fun hb hbad => State.output_of_bad_inline w f hk hb hbad⟩

end Sys2Proof.Machine
end

section
/-! SUPPORT. The lanes that SOUT writes (R172, R296, O9). -/

namespace Sys2Proof.Machine

namespace Cu

theorem getElem_v (c : Core) (i : BitVec 4) {j : Nat} (hj : j < (v c i).length) :
    (v c i)[j] = SMap.get 0#32 c.seq.v (i.toNat * 64 + j) := by
  simp [v, SMap.getRange]

/-- A word that a write of a vector register gives reads back. -/
theorem get_setV {c : Core} (hv : SMap.wf 0#32 c.seq.v = true) (i : BitVec 4) {ws : List Word} {j : Nat} (hj : j < 64)
    (hlen : j < ws.length) : SMap.get 0#32 (setV c i ws).seq.v (i.toNat * 64 + j) = ws[j] := by
  have htake : j < (ws.take 64).length := by rw [List.length_take]; omega
  exact (SMap.get_setRange_in 0#32 (ws.take 64) hv (i.toNat * 64 + 0) htake).trans List.getElem_take

section Sout
variable {c d : Core} (hv : SMap.wf 0#32 c.seq.v = true) (hseq : d.seq = c.seq) (i k : BitVec 4) {j : Nat} (hj : j < 64)
include hv hseq hj

/-- Each lane of the register that SOUT writes is the product of the coefficient and the state value of that lane; the read of
the segments, which leaves d, changes no vector register. -/
theorem get_setV_zipWith_mul (h : Nat → Word) :
    SMap.get 0#32 (setV d i (List.zipWith Float.mul (v c k) ((List.range 64).map h))).seq.v (i.toNat * 64 + j) =
      Float.mul (SMap.get 0#32 c.seq.v (k.toNat * 64 + j)) (h j) := by
  have hvd : SMap.wf 0#32 d.seq.v = true := by rw [hseq, hv]
  have hlen : j < (List.zipWith Float.mul (v c k) ((List.range 64).map h)).length := by simpa [v, SMap.getRange] using hj
  rw [get_setV hvd i hj hlen, List.getElem_zipWith, getElem_v, List.getElem_map, List.getElem_range]
end Sout

end Cu

/-- Settles O9: SOUT ends with the products as its lemma of each form lists them, and lane j of that list reads back; the value of
a pair is the rounded sum of its two words (R71). -/
theorem stateReadIsScaled : Obligations.StateReadIsScaled := by
  intro s op j hj h hg hv c w so k hu
  refine ⟨fun hm hlt => ⟨_, exec_of_issue_done rfl h (Cu.sout_of_single hg hu hm rfl hlt rfl), ?single⟩,
    fun hm hrange heven => ⟨_, exec_of_issue_done rfl h (Cu.sout_of_pair hg hu hm rfl hrange heven rfl), ?pair⟩⟩
  case single =>
    rw [advance_v]
    exact Cu.get_setV_zipWith_mul hv (Cu.segRead_seq c so) _ _ hj _
  case pair =>
    rw [advance_v]
    exact Cu.get_setV_zipWith_mul hv (Cu.readSegs_seq c so 2) _ _ hj _

end Sys2Proof.Machine
end

section
/-! SUPPORT. Plan changes, dispatch commits, commit granules and expert points (R363, R364, R467, R469, R598, R643, O20). -/

namespace Sys2Proof.Machine

/-! ### A change of plan (R598, R612) -/

/-- The PLLs of a die move one step toward the new plan, unless they are in holdover. -/
def State.stepDie (t : State) (d : Nat) : State :=
  if (t.pll d).phase ≠ .locked then t
  else t.setDieClk d { t.dieClk d with
    colMhz := (List.range 8).map (fun j => stepMhz ((t.dieClk d).colMhz.getD j 0) ((t.dieClk d).colTarget j))
    fabMhz := stepMhz (t.dieClk d).fabMhz (t.dieClk d).fabTarget }

theorem exec_planChangeStep_of_change {s : State} {p : Nat} {y : Partition} (hy : s.part p = some y) (hchange : y.planChange ≠ none) :
    exec (.planChangeStep p) s = .next ((y.dies.foldl State.stepDie s).finishPlan p) := by
  have hsome : ¬ y.planChange.isNone = true := by simpa using hchange
  show execPlanChangeStep p s = _
  simp only [execPlanChangeStep, hy, if_neg hsome]
  rfl

/-! ### The commit of a dispatch (R170, R643) -/

/-- A dispatch leaves its core and its partition, and what it counted passes to its command. -/
def State.passQstat (s : State) (key p : Nat) (d : DispatchRec) : State :=
  ((s.updCore key (fun g => { g with run := { g.run with qstat := [], replay := ReplayRec.none } })).updPart p (fun z =>
    { z with dispatches := z.dispatches.filter (fun a => a != d) })).updExec d.ref (fun z => { z with
      qstat := z.qstat ++ (s.core key).run.qstat.map (fun a => (d.granule, a)) })

/-- What the marshals recorded of a core's dispatch is released, and with it the finished collectives that no other joined. -/
def State.releaseJoins (s : State) (key no : Nat) : State :=
  let done (j : CollJoin) : Bool := j.core == key && reqDispatch j.req == no % 2 ^ 16
  { s with span := { s.span with
    colls := (s.span.colls.map (fun r => { r with joins := r.joins.filter (fun j => !done j) })).filter (fun r =>
      !(r.finished && r.joins.isEmpty)) } }

theorem exec_dispatchCommit_of_ended {s : State} {q : CorePos} {p : Nat} {y : Partition} {d : DispatchRec} (hq : Reaches s q)
    (hd : s.dispatchOf (CorePos.key q) = some (p, y, d)) (hended : d.ended = true) :
    exec (.dispatchCommit q) s = .next ((s.passQstat (CorePos.key q) p d).releaseJoins (CorePos.key q) d.no) := by
  show execDispatchCommit q s = _
  simp only [execDispatchCommit, onCore_eq hq, hd, hended, Bool.not_true, Bool.false_eq_true, if_false]
  rfl

/-! ### The commit of a granule (R67, R247, R467, R469) -/

/-- A training step ends with the other copies of the weights in force (R469). -/
def State.swapWeights (s : State) (k : Cmd) (p h : Nat) : State :=
  if k.opcode = 0x0304 then s.updCtx p h (fun z => { z with
    weights := z.weights.map (fun a => if a.wx = 0 then a else { a with second := !a.second }) }) else s

/-- The commit that GRANULE_COMMIT performs once every dispatch of the granule has committed. -/
def State.commitGranule (s : State) (c : CmdRef) (k : Cmd) (p h : Nat) (pl : PlanInst) (e : ExecRun) : State :=
  match e.roll with
  | none => s.commitRun c k p h e
  | some run =>
    if !run.open_ then s
    else if run.valuing then s.commitValue c k p h pl k.roll run
    else s.commitTokens c k p h pl k.roll run

section Commit
variable {s t : State} {c : CmdRef} {k : Cmd} {p h : Nat} {pl : PlanInst} {e : ExecRun} {r : RollRun}

theorem State.commitGranule_of_run (hroll : e.roll = none) : s.commitGranule c k p h pl e = s.commitRun c k p h e := by
  simp only [State.commitGranule, hroll]

theorem State.commitGranule_of_tokens (hroll : e.roll = some r) (hopen : r.open_ = true) (hvaluing : r.valuing = false) :
    s.commitGranule c k p h pl e = s.commitTokens c k p h pl k.roll r := by
  simp [State.commitGranule, hroll, hopen, hvaluing]

theorem State.commitGranule_of_value (hroll : e.roll = some r) (hopen : r.open_ = true) (hvaluing : r.valuing = true) :
    s.commitGranule c k p h pl e = s.commitValue c k p h pl k.roll r := by
  simp [State.commitGranule, hroll, hopen, hvaluing]

/-- A run whose sequences commit applies its counts and weights, and reports its positions and hits. -/
theorem State.commitRun_of_committed {bs : List SeqBind} (hbs : sortBy (fun a b => decide (a.handle ≤ b.handle)) e.binds = bs)
    (hok : s.commitBinds (k.who c.block) p h bs = .ok () t) :
    s.commitRun c k p h e = (((t.applyQstat c p h k.granules).swapWeights k p h).updExec c (fun z => { z with
      binds := []
      committedPositions := (bs.map SeqBind.added).sum
      committedHits := (bs.map (fun b => b.hits.length)).sum })).afterGranule c (fun j => match j.exec with
        | none => Fin.ok
        | some z => { Fin.ok with c0 := z.committedPositions, c1 := z.committedHits }) := by
  subst hbs
  simp only [State.commitRun, hok]
  rfl
end Commit

/-! ### The request list of an expert point (R363, R364) -/

/-- The experts of a request list that are required, or that are only prefetched. -/
def requested (ws : List Word) (pre : Bool) : List Nat :=
  ((ws.filter (fun v => v.getLsbD 31 == pre)).map (fun v => v.toNat % 0x100000)).dedup

/-- What is served of a request list: the experts required, then those only prefetched. -/
def served (ws : List Word) : List Nat := requested ws false ++ (requested ws true).filter (fun v => !(requested ws false).contains v)

/-- EXPERT_POINT once the request list has been read. -/
def State.serveList (s : State) (c : CmdRef) (p h : Nat) (x : Context) (pl : PlanInst) (errs : List UnitErr) (ws : List Word) : State :=
  match badRequest (Plan.expertCount pl.image) (Plan.maxActive pl.image) ws with
  | some n => (s.failCmd c stExpertRequest n).settle
  | none =>
    let r := ((s.keepExperts c x pl).updCtx p h (fun z => { z with expertClock := z.expertClock + 1 })).serveExperts p h pl
      (requested ws false) errs (served ws)
    match r.1 with
    | some (st, u) => (r.2.2.failCmd c stDataLoss (flashLoss st u)).settle
    | none => (if r.2.1 then r.2.2.updCmd c (fun j => { j with flashUnwritten := true }) else r.2.2).updExec c (fun q => { q with
        atPoint := none })

section Experts
variable {s u : State} {c : CmdRef} {p h : Nat} {x : Context} {pl : PlanInst} {errs : List UnitErr} {ws : List Word}

theorem State.serveList_of_fault {n : Nat} (hbad : badRequest (Plan.expertCount pl.image) (Plan.maxActive pl.image) ws = some n) :
    s.serveList c p h x pl errs ws = (s.failCmd c stExpertRequest n).settle := by
  simp only [State.serveList, hbad]

/-- A list without fault whose experts are all had, from units that were written, ends the expert point. -/
theorem State.serveList_of_served (hgood : badRequest (Plan.expertCount pl.image) (Plan.maxActive pl.image) ws = none)
    (hserved : ((s.keepExperts c x pl).updCtx p h (fun z => { z with expertClock := z.expertClock + 1 })).serveExperts p h pl
      (requested ws false) errs (served ws) = (none, false, u)) :
    s.serveList c p h x pl errs ws = u.updExec c (fun q => { q with atPoint := none }) := by
  simp only [State.serveList, hgood, hserved, Bool.false_eq_true, if_false]
end Experts

/-! ### The commands of a started execution -/

section Started
variable {s : State} {c : CmdRef} {k : Cmd} {x : Context} {y : Partition} {pl : PlanInst} {e : ExecRun} (hcmd : s.cmd c = some k)
  (hphase : k.phase = .started) (hx : s.ctx (k.home c) k.ctxField = some x) (he : k.exec = some e) (hpl : x.plan = some pl)
  (hy : s.part (k.home c) = some y)
include hcmd hphase hx he hpl hy

theorem exec_granuleCommit_of_due (hcommitted : (y.ofCmd c).any (fun d => d.granule == k.granules) = false)
    (hdispatched : e.todo.any (fun i => decide (i.granule ≤ k.granules)) = false) (hpoint : e.atPoint = none) :
    exec (.granuleCommit c) s = .next (s.unlessLost c (s.commitGranule c k (k.home c) k.ctxField pl e)) := by
  show execGranuleCommit c s = _
  simp only [execGranuleCommit, State.onExec_of_started hcmd hphase hx he hpl, hy, hcommitted, hdispatched, hpoint,
    Option.isSome_none, Bool.false_eq_true, or_self, if_false]
  rfl

/-- An expert point whose dispatches are committed serves the list that it reads. -/
theorem exec_expertPoint_of_read {t : State} {no pt a : Nat} {bs : List Byte} (hpoint : e.atPoint = some (no, pt))
    (hquiet : (y.ofCmd c).any (fun d => d.inst == no) = false) (hmaps : s.mapsOut (k.home c) = false)
    (haddr : x.tensorAddr pl.image k (Plan.ptTensor pl.image pt) = some a)
    (hread : (s.readEng (k.who c.block) a 4).bind (fun n z => z.readEng (k.who c.block) (a + 4) (4 * leNat n)) = .ok bs t)
    (errs : List UnitErr) :
    exec (.expertPoint c errs) s =
      .next (s.unlessLost c (t.serveList c (k.home c) k.ctxField x pl errs (wordsAt bs))) := by
  show execExpertPoint c errs s = _
  simp only [execExpertPoint, State.onExec_of_started hcmd hphase hx he hpl, hpoint, hy, hquiet, hmaps, haddr, hread,
    Bool.false_eq_true, or_self, if_false]
  rfl
end Started

/-- Settles O20: each event is the lemma of its step; a granule commits as a run, or as the tokens or the value of a frame, and an
expert point ends at the first entry at fault or serves its list. -/
theorem commitResults : Obligations.CommitResults := by
  refine ⟨fun s t c k x pl e => ⟨fun p y hy hchange => exec_planChangeStep_of_change hy hchange, fun _ _ => rfl,
    fun q p y d hq hd hended => exec_dispatchCommit_of_ended hq hd hended,
    fun y hcmd hphase hy hx he hpl hcommitted hdispatched hpoint => ?granules⟩,
    fun s t u c errs k x y pl e no pt a bs hcmd hphase hx he hpl hpoint hy hquiet hmaps haddr hread => ?points⟩
  case granules =>
    have hexec := exec_granuleCommit_of_due hcmd hphase hx he hpl hy hcommitted hdispatched hpoint
    intro bs
    refine ⟨fun hroll hok => ?run, fun r hroll hopen hvaluing => ?tokens, fun r hroll hopen hvaluing => ?value⟩
    case run => rw [hexec, State.commitGranule_of_run hroll, State.commitRun_of_committed rfl hok]; rfl
    case tokens => rw [hexec, State.commitGranule_of_tokens hroll hopen hvaluing]
    case value => rw [hexec, State.commitGranule_of_value hroll hopen hvaluing]
  case points =>
    have hexec := exec_expertPoint_of_read hcmd hphase hx he hpl hy hpoint hquiet hmaps haddr hread errs
    intro ws pick
    refine ⟨fun n hbad => ?fault, fun hgood hserved => ?served⟩
    case fault => rw [hexec, State.serveList_of_fault hbad]
    case served => rw [hexec, State.serveList_of_served hgood hserved]

end Sys2Proof.Machine
end

section
/-! SUPPORT. Regions, OP_MEM_CLASS, OP_MEM_COPY, patrol scrub reads and the end of a sparing copy (R332 to R350, R450, O21). -/

namespace Sys2Proof.Machine

/-! ### The memory commands at their point (R433 to R437) -/

section AtPoint
variable {s : State} {c : CmdRef} {k : Cmd}

theorem exec_opRegionCreate_of_atPoint (h : AtPoint s c k 0x0401) :
    exec (.opRegionCreate c) s = .next (s.unlessLost c (s.regionCreate c k (k.home c) k.ctxField).settle) :=
  congrArg Host.Outcome.next (State.gate_of_atPoint h rfl fun t k p h => t.regionCreate c k p h)

theorem exec_opRegionDestroy_of_atPoint (h : AtPoint s c k 0x0402) :
    exec (.opRegionDestroy c) s = .next (s.unlessLost c (s.regionDestroy c k (k.home c) k.ctxField).settle) :=
  congrArg Host.Outcome.next (State.gate_of_atPoint h rfl fun t k p h => t.regionDestroy c k p h)

theorem exec_opMemCopy_of_atPoint (h : AtPoint s c k 0x0404) :
    exec (.opMemCopy c) s = .next (s.unlessLost c (s.memCopy c k).settle) :=
  congrArg Host.Outcome.next (State.gate_of_atPoint h rfl fun t k _ _ => t.memCopy c k)

/-- A class mask of four bits becomes the partition's UCAP (R350). -/
theorem exec_opMemClass_of_mask (h : AtPoint s c k 0x0403) (hmask : k.p 0 4 < 16) :
    exec (.opMemClass c) s = .next (s.unlessLost c
      ((s.updPart (k.home c) (fun y => { y with ucap := BitVec.ofNat 4 (k.p 0 4) })).endCmd c Fin.ok).settle) := by
  show execOpMemClass c s = _
  rw [execOpMemClass, State.gate_of_atPoint (always := false) h rfl]
  simp only [if_neg (Nat.not_le.mpr hmask)]
end AtPoint

/-! ### Regions (R341 to R343, R347) -/

/-- A region fits the record it is charged to: the partition's, or its context's (R342, R367). -/
def State.regionFits (s : State) (p : Nat) (r : Region) : Bool := match r.owner with
  | none => s.fitsPart p r.size
  | some o => s.fitsCtx p o r.size

section Create
variable {s : State} {k : Cmd} {p h : Nat} {x : Partition} {c : CmdRef} (hx : s.part p = some x)
  (hfields : regionFields k x (k.region c) (decide (h ≠ 0xFFFF)) = true)
  (hwindow : x.inWindow (k.region c).base (k.region c).size = true)
include hx hfields hwindow

theorem State.regionCreate_of_overlap (hover : x.overlaps (k.region c).base (k.region c).size = true) :
    s.regionCreate c k p h = s.endCmd c (Fin.bare stRegionOverlap) := by
  simp only [State.regionCreate, hx, hfields, hwindow, hover, Bool.not_true, Bool.false_eq_true, or_true, if_false, if_true]

/-- A region that passes every check of R342 stands in its descriptor, where its scrub is still to make it reachable. -/
theorem State.regionCreate_of_room {i off : Nat} (hapart : x.overlaps (k.region c).base (k.region c).size = false)
    (hfree : x.freeDescriptor = some i)
    (hroom : s.regionFits p (k.region c) = true)
    (hoff : x.lowestOffset (k.region c).backing = some off) :
    s.regionCreate c k p h = (s.startCmd c).updPart p (fun y => { y with
      regions := SMap.set none y.regions i (some { k.region c with coff := off }) }) := by
  have hfits : ¬ (!s.regionFits p (k.region c)) = true := by simp [hroom]
  simp only [State.regionCreate, hx, hfields, hwindow, hapart, hfree, Bool.not_true, Bool.false_eq_true, or_self, if_false]
  exact (if_neg hfits).trans (by rw [hoff])
end Create

/-- The scrub of a region makes it reachable and ends the command that asked for it. -/
theorem exec_allocationScrubDone_of_unready {s : State} {p i : Nat} {x : Partition} {r : Region} {d : Nat × Nat}
    (hx : s.part p = some x) (hr : SMap.get none x.regions i = some r) (hready : r.ready = false) (hby : r.by_ = some d) :
    exec (.allocationScrubDone p i) s = .next ((((s.scrubBacking x r.backing).updPart p (fun y => { y with
      regions := SMap.set none y.regions i (some { r with ready := true, by_ := none }) })).endCmd { block := d.1, id := d.2 }
        { Fin.ok with c0 := r.coff, c1 := i }).settle) := by
  show execAllocationScrubDone p i s = _
  simp only [execAllocationScrubDone, hx, hr, hready, hby, Bool.false_eq_true, if_false]
  rfl

section Destroy
variable {s : State} {k : Cmd} {p h : Nat} {x : Partition} (hx : s.part p = some x) (c : CmdRef)
include hx

theorem State.regionDestroy_of_absent (hno : SMap.get none x.regions (k.p 0 4) = none ∨ 15 < k.p 0 4) :
    s.regionDestroy c k p h = s.endCmd c (Fin.bare stRegionParam) := by
  have hnone : (if 15 < k.p 0 4 then none else SMap.get none x.regions (k.p 0 4)) = none := by
    rcases hno with habsent | hbeyond
    · rw [habsent, ite_self]
    · exact if_pos hbeyond
  simp only [State.regionDestroy, hx, hnone]

/-- A reachable region of the command's scope is given up at a boundary, scrubbed first in a confidential partition. -/
theorem State.regionDestroy_of_boundary {r : Region} (hin : k.p 0 4 ≤ 15) (hr : SMap.get none x.regions (k.p 0 4) = some r)
    (hready : r.ready = true) (hmine : if h = 0xFFFF then r.owner = none else r.owner = some h)
    (hat : s.regionBoundary c p r = true) :
    s.regionDestroy c k p h = ((if x.confidential then s.scrubBacking x r.backing else s).updPart p (fun y => { y with
      regions := SMap.set none y.regions (k.p 0 4) none })).endCmd c Fin.ok := by
  have hscope : (if h = 0xFFFF then r.owner.isNone else r.owner == some h) = true := by
    split at hmine <;> simp [*]
  simp only [State.regionDestroy, hx, if_neg (Nat.not_lt.mpr hin), hr, hscope, hready, hat, Bool.not_true, Bool.false_eq_true, or_self,
    if_false]
end Destroy

/-! ### OP_MEM_COPY (R450) -/

theorem State.memCopy_of_overlap {s : State} {k : Cmd} (c : CmdRef)
    (hover : k.p 0 6 < k.p 8 6 + k.p 0x10 8 ∧ k.p 8 6 < k.p 0 6 + k.p 0x10 8) :
    s.memCopy c k = s.endCmd c (Fin.bare stMemParam) := by
  simp only [State.memCopy, hover, and_self, decide_true, Bool.or_true, if_true]

section Copy
variable {s : State} {k : Cmd} (c : CmdRef) (h6 : k.p 6 2 = 0) (hE : k.p 0xE 2 = 0) (h18 : k.p 0x18 8 < 2)
  (hlen : k.p 0x10 8 ≤ 2 ^ 40)
include h6 hE h18 hlen

/-- Ranges that do not overlap pass the checks of the block. -/
theorem State.memCopy_of_apart (hapart : ¬ (k.p 0 6 < k.p 8 6 + k.p 0x10 8 ∧ k.p 8 6 < k.p 0 6 + k.p 0x10 8)) :
    s.memCopy c k = if k.p 0x10 8 = 0 then s.endCmd c (Fin.bare stOkEmpty)
      else s.copyGranules c (k.who c.block) (k.p 0 6) (k.p 8 6) (k.p 0x10 8)
        ((List.range ((k.p 0x10 8 + 65535) / 65536 - k.progress)).map (fun i => k.progress + i)) := by
  simp only [State.memCopy, h6, hE, bne_self_eq_false, Nat.not_le.mpr h18, Nat.not_lt.mpr hlen, hapart, decide_false, Bool.or_self,
    Bool.false_eq_true, if_false]

theorem State.memCopy_of_empty (hzero : k.p 0x10 8 = 0) : s.memCopy c k = s.endCmd c (Fin.bare stOkEmpty) := by
  rw [State.memCopy_of_apart c h6 hE h18 hlen (by omega), if_pos hzero]

/-- A copy of at most one granule that has not begun reads its source, writes its destination and ends. -/
theorem State.memCopy_of_one_granule {t u : State} {bs : List Byte} (hpos : 0 < k.p 0x10 8) (hone : k.p 0x10 8 ≤ 65536)
    (hapart : k.p 8 6 + k.p 0x10 8 ≤ k.p 0 6 ∨ k.p 0 6 + k.p 0x10 8 ≤ k.p 8 6) (hprogress : k.progress = 0)
    (hread : s.readEng (k.who c.block) (k.p 0 6) (k.p 0x10 8) = .ok bs t) (hwrite : t.writeEng (k.who c.block) (k.p 8 6) bs = .ok () u) :
    s.memCopy c k = (u.updCmd c (fun j => { j with granules := j.granules + 1, progress := j.progress + 1 })).endCmd c
      { Fin.ok with c0 := 1 } := by
  have hcount : (k.p 0x10 8 + 65535) / 65536 = 1 := by omega
  have hbytes : min 65536 (k.p 0x10 8) = k.p 0x10 8 := by omega
  rw [State.memCopy_of_apart c h6 hE h18 hlen (by omega), if_neg (by omega), hcount, hprogress]
  simp [List.range_succ, State.copyGranules, hbytes, hread, hwrite, hcount]
end Copy

/-! ### Patrol scrub reads (R332 to R334, R336 to R338) -/

/-- The symbols in error that a read of a codeword has met: they stand there no longer. -/
def State.met (s : State) (stack ch cw : Nat) (e : SymErr) : State := (s.setLatent stack ch cw e).setLatent stack ch cw SymErr.clean

section Scrub
variable {s : State} {stack ch cw : Nat}

theorem State.latentErr_setLatent_self {e : SymErr} (he : e.symbols ≠ 0) : (s.setLatent stack ch cw e).latentErr stack ch cw = e :=
  SMap.get_set_self_of_ne _ _ _ fun hclean => he (congrArg SymErr.symbols hclean)

/-- A scrub read of errors that have just arisen reads the codeword with them in it; outside the reserve no map is lost by it. -/
theorem exec_patrolScrubRead_of_errors {err : SymErr} {r : CodewordRead} {t : State} (he : err.symbols ≠ 0)
    (hread : (s.setLatent stack ch cw err).readCodeword stack ch cw = (r, t)) (hout : cw * 64 < 0x7F800000 ∨ r = .delivered) :
    exec (.patrolScrubRead stack ch cw err) s = .next t := by
  show execPatrolScrubRead stack ch cw err s = _
  have hreserve (b : Bool) (hr : r = .lost b) : inReserve cw = false := by
    rcases hout with hlow | hdelivered
    · exact decide_eq_false (Nat.not_le.mpr hlow)
    · exact nomatch hr.symm.trans hdelivered
  simp only [execPatrolScrubRead, if_neg he, hread]
  cases r with
  | delivered => rfl
  | lost b => simp [hreserve b rfl]

section Healthy
variable (hok : s.poisoned stack ch cw = false)
include hok

theorem exec_patrolScrubRead_of_clean (hclean : s.latentErr stack ch cw = SymErr.clean) (lanes : List Nat) (retry : Nat) :
    exec (.patrolScrubRead stack ch cw { symbols := 0, lanes := lanes, retry := retry }) s =
      .next (s.setLatent stack ch cw SymErr.clean) := by
  show execPatrolScrubRead stack ch cw _ s = _
  simp [execPatrolScrubRead, State.readCodeword, hok, hclean, SymErr.clean]

variable {err : SymErr}

/-- Up to three symbols are corrected, and the correction is counted and logged. -/
theorem State.readCodeword_of_corrected (hlo : 1 ≤ err.symbols) (hhi : err.symbols ≤ 3) :
    (s.setLatent stack ch cw err).readCodeword stack ch cw =
      (.delivered, (s.met stack ch cw err).countCorrected stack ch cw err.lanes false) := by
  have he : err.symbols ≠ 0 := by omega
  have hp : (s.setLatent stack ch cw err).poisoned stack ch cw = false := hok
  simp only [State.readCodeword, hp, State.latentErr_setLatent_self he, if_neg he, if_pos hhi, Bool.false_eq_true, if_false]
  rfl

section Beyond
variable (hlo : 4 ≤ err.symbols) (hhi : err.symbols ≤ 5)
include hlo hhi

/-- Four or five symbols that do not come again are delivered by the second read. -/
theorem State.readCodeword_of_transient (hretry : err.retry = 0) :
    (s.setLatent stack ch cw err).readCodeword stack ch cw =
      (.delivered, (s.met stack ch cw err).setChan stack ch { s.chan stack ch with retryOk := (s.chan stack ch).retryOk + 1 }) := by
  have he : err.symbols ≠ 0 := by omega
  have hmany : ¬ err.symbols ≤ 3 := by omega
  have hp : (s.setLatent stack ch cw err).poisoned stack ch cw = false := hok
  simp only [State.readCodeword, hp, State.latentErr_setLatent_self he, if_neg he, if_neg hmany, if_pos hhi, hretry, Bool.false_eq_true,
    if_false, if_true]
  rfl

/-- Four or five symbols of which more than three come again lose the codeword. -/
theorem State.readCodeword_of_uncorrectable (hretry : 3 < err.retry) :
    (s.setLatent stack ch cw err).readCodeword stack ch cw =
      (.lost false, (s.met stack ch cw err).uncorrectable stack ch cw ((s.addrOf stack ch cw).getD 0)) := by
  have he : err.symbols ≠ 0 := by omega
  have hmany : ¬ err.symbols ≤ 3 := by omega
  have hagain : ¬ err.retry = 0 := by omega
  have hstays : ¬ err.retry ≤ 3 := by omega
  have hp : (s.setLatent stack ch cw err).poisoned stack ch cw = false := hok
  simp only [State.readCodeword, hp, State.latentErr_setLatent_self he, if_neg he, if_neg hmany, if_pos hhi, if_neg hagain, if_neg hstays,
    Bool.false_eq_true, if_false]
  rfl
end Beyond
end Healthy

/-- A codeword already poisoned stays lost, and its read is logged. -/
theorem State.readCodeword_of_poisoned (hpoison : s.poisoned stack ch cw = true) (err : SymErr) :
    (s.setLatent stack ch cw err).readCodeword stack ch cw = (.lost true, (s.met stack ch cw err).record
      { EventRec.plain 0x0301 with unit := chanUnit stack ch, addr := (s.addrOf stack ch cw).getD 0 }) := by
  have hp : (s.setLatent stack ch cw err).poisoned stack ch cw = true := hpoison
  simp only [State.readCodeword, hp, if_true]
  rfl
end Scrub

/-! ### The end of a sparing copy (R338, R339) -/

section Sparing
variable {s : State} {stack ch : Nat}

theorem exec_sparingCopyDone_of_none (h : (s.chan stack ch).copying = none) : exec (.sparingCopyDone stack ch) s = .next s := by
  show execSparingCopyDone stack ch s = _
  simp only [execSparingCopyDone, h]

theorem exec_sparingCopyDone_of_copying {k : Nat} (h : (s.chan stack ch).copying = some k) :
    exec (.sparingCopyDone stack ch) s = .next (((((s.copyReads stack ch).setChan stack ch { (s.copyReads stack ch).chan stack ch with
      spare := some k, past := (s.chan stack ch).past ++ (s.chan stack ch).spare.toList, copying := none, retired := true
      answers := true, resets := 0 }).releaseHeld (chanKey stack ch)).record
        { EventRec.plain 0x0303 with unit := chanUnit stack ch }).noteStatus) := by
  show execSparingCopyDone stack ch s = _
  simp only [execSparingCopyDone, h]

theorem State.copyReads_of_no_latent (h : s.mem.latent = []) (stack ch : Nat) : s.copyReads stack ch = s := by
  rw [State.copyReads, h, List.foldl_nil]
end Sparing

/-- Settles O21: each command at its point, and each event, does what the lemma of its case says; a scrub read is the read of the
codeword with the errors in it, by the number of symbols. -/
theorem regionAndScrubResults : Obligations.RegionAndScrubResults := by
  refine ⟨fun s c k x i r hx => ?regions, fun s t u c k bs hat h6 hE h18 hlen => ?copies, fun s stack ch cw n lanes => ?scrubs⟩
  case regions =>
    refine ⟨fun off hat hfields hwindow hapart hfree hroom hoff => ?created, fun hat hfields hwindow hover => ?overlaps,
      fun d hr hready hby => exec_allocationScrubDone_of_unready hx hr hready hby,
      fun hat hi hin hr hready hmine hboundary => ?destroyed, fun hat hi hno => ?absent,
      fun hat hmask => exec_opMemClass_of_mask hat hmask⟩
    case created => rw [exec_opRegionCreate_of_atPoint hat, State.regionCreate_of_room hx hfields hwindow hapart hfree hroom hoff]
    case overlaps => rw [exec_opRegionCreate_of_atPoint hat, State.regionCreate_of_overlap hx hfields hwindow hover]
    case destroyed =>
      subst hi
      rw [exec_opRegionDestroy_of_atPoint hat, State.regionDestroy_of_boundary hx c hin hr hready hmine hboundary]
    case absent =>
      subst hi
      rw [exec_opRegionDestroy_of_atPoint hat, State.regionDestroy_of_absent hx c hno]
  case copies =>
    refine ⟨fun hover => ?overlap, fun hzero => ?empty, fun hpos hone hapart hprogress hread hwrite => ?granule⟩
    case overlap => rw [exec_opMemCopy_of_atPoint hat, State.memCopy_of_overlap c hover]
    case empty => rw [exec_opMemCopy_of_atPoint hat, State.memCopy_of_empty c h6 hE h18 hlen hzero]
    case granule =>
      rw [exec_opMemCopy_of_atPoint hat, State.memCopy_of_one_granule c h6 hE h18 hlen hpos hone hapart hprogress hread hwrite]
  case scrubs =>
    refine ⟨fun retry hok hclean => exec_patrolScrubRead_of_clean hok hclean lanes retry, fun retry hok hlo hhi => ?corrected,
      fun hok hlo hhi => ?transient, fun hok hlo hhi hlow => ?lost, fun err hpoison hlow he => ?poisoned,
      exec_sparingCopyDone_of_none, fun _ => exec_sparingCopyDone_of_copying, fun h => s.copyReads_of_no_latent h stack ch⟩
    case corrected =>
      exact exec_patrolScrubRead_of_errors (Nat.ne_of_gt hlo)
        (State.readCodeword_of_corrected (err := { symbols := n, lanes := lanes, retry := retry }) hok hlo hhi) (.inr rfl)
    case transient =>
      have hn : n ≠ 0 := by omega
      exact exec_patrolScrubRead_of_errors hn
        (State.readCodeword_of_transient (err := { symbols := n, lanes := lanes, retry := 0 }) hok hlo hhi rfl) (.inr rfl)
    case lost =>
      have hn : n ≠ 0 := by omega
      exact exec_patrolScrubRead_of_errors hn (State.readCodeword_of_uncorrectable
        (err := { symbols := n, lanes := lanes, retry := 4 }) hok hlo hhi (Nat.lt_succ_self 3)) (.inl hlow)
    case poisoned => exact exec_patrolScrubRead_of_errors he (State.readCodeword_of_poisoned hpoison err) (.inl hlow)

end Sys2Proof.Machine
end

section
/-! SUPPORT. The store commands, and what the flash tier does by itself: closing a stripe, checkpoints, relocation, levelling and
programming (R353 to R362, R683, O22). -/

namespace Sys2Proof.Machine

/-! ### The store commands at their point (R433 to R437) -/

/-- A command on the units of a store (R360): it ends where its checks fail, and waits where a map is out. -/
def State.onUnits (s : State) (c : CmdRef) (k : Cmd) (p h : Nat) (f : Store → State) : State :=
  match s.unitsFail k p h with
  | some g => s.endCmd c g
  | none =>
    if s.mapsOut p then s
    else match s.store k.stStore with
      | none => s
      | some t => f t

/-- The units of a write wait to be programmed, each on the pair of its turn. -/
def State.queueUnits (s : State) (c : CmdRef) (k : Cmd) (a : Store) : State :=
  (List.range k.stCount).foldl (fun y i =>
    y.updFpair (a.pairOf (k.stUnit + i)) (fun q => { q with
      jobs := q.jobs ++ [{ store := a.handle, unit := k.stUnit + i, addr := k.stAddr + unitBytes * i, block := c.block, cmd := c.id }] }))
    (s.startCmd c)

/-- The units of a trim, one after another. -/
def State.trimUnits (s : State) (c : CmdRef) (k : Cmd) (a : Store) : State :=
  (List.range k.stCount).foldl (fun y i => (y.trimUnit a (k.stUnit + i)).commitUnit c) s

section AtPoint
variable {s : State} {c : CmdRef} {k : Cmd}

theorem exec_opStoreCreate_of_atPoint (h : AtPoint s c k 0x0405) :
    exec (.opStoreCreate c) s = .next (s.unlessLost c (s.storeCreate c k (k.home c) k.ctxField).settle) :=
  congrArg Host.Outcome.next (State.gate_of_atPoint h rfl fun t k p h => t.storeCreate c k p h)

theorem exec_opStoreDestroy_of_atPoint (h : AtPoint s c k 0x0406) :
    exec (.opStoreDestroy c) s = .next (s.unlessLost c (s.storeDestroy c k (k.home c) k.ctxField).settle) :=
  congrArg Host.Outcome.next (State.gate_of_atPoint h rfl fun t k p h => t.storeDestroy c k p h)

theorem exec_opStoreAttach_of_atPoint (h : AtPoint s c k 0x0407) :
    exec (.opStoreAttach c) s = .next (s.unlessLost c (s.storeAttach c k (k.home c) k.ctxField).settle) :=
  congrArg Host.Outcome.next (State.gate_of_atPoint h rfl fun t k p h => t.storeAttach c k p h)

theorem exec_opStoreWrite_of_atPoint (h : AtPoint s c k 0x0408) : exec (.opStoreWrite c) s =
    .next (s.unlessLost c (s.onUnits c k (k.home c) k.ctxField (s.queueUnits c k)).settle) := by
  show execOpStoreWrite c s = _
  rw [execOpStoreWrite, State.gate_of_atPoint (always := false) h rfl]
  unfold State.storeWrite State.onUnits
  generalize s.unitsFail k (k.home c) k.ctxField = checks
  rfl

theorem exec_opStoreRead_of_atPoint (errs : List UnitErr) (h : AtPoint s c k 0x0409) : exec (.opStoreRead c errs) s =
    .next (s.unlessLost c (s.onUnits c k (k.home c) k.ctxField (fun a =>
      s.readUnits c k a errs ((List.range (k.stCount - k.progress)).map (fun i => k.progress + i)))).settle) := by
  show execOpStoreRead c errs s = _
  rw [execOpStoreRead, State.gate_of_atPoint (always := false) h rfl]
  unfold State.onUnits
  generalize s.unitsFail k (k.home c) k.ctxField = checks
  rfl

theorem exec_opStoreTrim_of_atPoint (h : AtPoint s c k 0x040A) : exec (.opStoreTrim c) s =
    .next (s.unlessLost c (s.onUnits c k (k.home c) k.ctxField (fun a => (s.trimUnits c k a).endCmd c Fin.ok)).settle) := by
  show execOpStoreTrim c s = _
  rw [execOpStoreTrim, State.gate_of_atPoint (always := false) h rfl]
  unfold State.onUnits
  generalize s.unitsFail k (k.home c) k.ctxField = checks
  rfl

/-- The record of every pair is the output, and a read-and-clear that succeeds clears the counts (R362). -/
theorem exec_opStoreStat_of_output {t : State} {x : Partition} {f : Fin} (h : AtPoint s c k 0x040B) (hx : s.part (k.home c) = some x)
    (hfields : k.storeFields = true) (hmaps : s.mapsOut (k.home c) = false)
    (hout : s.output c (k.who c.block) k.stAddr ((bitsSet x.pairMask.toNat 8).flatMap (fun q => (s.fpair q).record)) Fin.ok = (t, some f)) :
    exec (.opStoreStat c) s = .next (s.unlessLost c (((if k.opf0 = true ∧ f.status = stOk
      then (bitsSet x.pairMask.toNat 8).foldl (fun y q => y.updFpair q FlashPair.clearCounts) t else t).endCmd c f).settle)) := by
  show execOpStoreStat c s = _
  rw [execOpStoreStat, State.gate_of_atPoint (always := false) h rfl]
  simp only [hfields, hmaps, hx, hout, Bool.not_true, Bool.false_eq_true, if_false]
end AtPoint

/-! ### OP_STORE_CREATE, _DESTROY and _ATTACH (R355, R360, R361, R683) -/

/-- A store as it is created. -/
def Store.made (n p h units : Nat) (persistent : Bool) (pairs : List Nat) : Store :=
  { handle := n, part := some p, ctx := some h, persistent := persistent, units := units, pairs := pairs, data := [], written := [],
    keyed := true }

/-- A store is added, and the search for the next handle goes on behind its own. -/
def State.addStore (s : State) (a : Store) : State :=
  { s with flash := { s.flash with stores := s.flash.stores ++ [a], nextHandle := a.handle % 0xFFFF + 1 } }

section Stores
variable {s : State} {c : CmdRef} {k : Cmd} {p h : Nat} {z : Context} {a : Store}

theorem State.storeCreate_of_room {x : Partition} {n : Nat} (hx : s.part p = some x) (hz : s.ctx p h = some z)
    (hfields : k.storeFields = true) (hpos : 0 < k.stUnit) (hmax : k.stUnit ≤ 2 ^ 25 * (bitsSet x.pairMask.toNat 8).length)
    (hquota : s.flashCharge p (some h) + k.stUnit ≤ z.quota.flash) (hmaps : s.mapsOut p = false) (hn : s.storeHandle = some n) :
    s.storeCreate c k p h = (s.addStore (Store.made n p h k.stUnit k.stPersist (bitsSet x.pairMask.toNat 8))).endCmd c
      { Fin.ok with c0 := n } := by
  simp only [State.storeCreate, hx, hz, hfields, hpos.ne', Nat.not_lt.mpr hmax, Nat.not_lt.mpr hquota, hmaps, hn, Bool.not_true,
    Bool.false_eq_true, or_self, if_false]
  rfl

variable (ha : s.store k.stStore = some a) (hfields : k.storeFields = true)
include ha hfields

theorem State.storeDestroy_of_boundary (hpart : a.part = some p) (hctx : a.ctx = some h) (hat : s.atBoundary c p h = true)
    (hmaps : s.mapsOut p = false) :
    s.storeDestroy c k p h = (s.dropStores (fun y => y.handle == a.handle)).endCmd c Fin.ok := by
  simp only [State.storeDestroy, hfields, ha, hpart, hctx, hat, hmaps, ne_eq, not_true_eq_false, Bool.not_true, Bool.false_eq_true, or_self,
    if_false]

theorem State.storeAttach_of_attached (hz : s.ctx p h = some z) (hctx : a.ctx ≠ none) :
    s.storeAttach c k p h = s.endCmd c (Fin.bare stStoreInvalid) := by
  have hsome : a.ctx.isSome = true := Option.isSome_iff_ne_none.mpr hctx
  simp only [State.storeAttach, hz, hfields, ha, hsome, Bool.not_true, Bool.false_eq_true, true_or, or_true, if_false, if_true]

/-- A persistent store that stands by itself is attached to a context whose record has room for it (R361, R683). -/
theorem State.storeAttach_of_detached (hz : s.ctx p h = some z) (hpart : a.part = some p) (hctx : a.ctx = none)
    (hpersist : a.persistent = true) (hquota : s.flashCharge p (some h) + a.units ≤ z.quota.flash) (hmaps : s.mapsOut p = false) :
    s.storeAttach c k p h = (s.updStore a.handle (fun y => { y with ctx := some h })).endCmd c Fin.ok := by
  simp only [State.storeAttach, hz, hfields, ha, hpart, hctx, hpersist, Nat.not_lt.mpr hquota, hmaps, ne_eq, not_true_eq_false,
    Option.isSome_none, Bool.not_true, Bool.false_eq_true, or_self, if_false]
end Stores

/-! ### Commands on units (R355, R357, R360) -/

section Units
variable {s : State} {c : CmdRef} {k : Cmd} {p h : Nat} {a : Store}

theorem State.onUnits_of_fail {g : Fin} (hfail : s.unitsFail k p h = some g) (f : Store → State) :
    s.onUnits c k p h f = s.endCmd c g := by
  unfold State.onUnits
  rw [hfail]

theorem State.onUnits_of_store (ha : s.store k.stStore = some a) (hpass : s.unitsFail k p h = none) (hmaps : s.mapsOut p = false)
    (f : Store → State) : s.onUnits c k p h f = f a := by
  unfold State.onUnits
  simp only [hpass, hmaps, ha, Bool.false_eq_true, if_false]

variable {u : Nat}

/-- A unit that is not written reads as zeros (R355). -/
theorem State.readUnit_of_unwritten (hw : SMap.get false a.written u = false) (errs : List UnitErr) :
    s.readUnit a u errs = (some (List.replicate 65536 0#8, false), s) := by
  simp only [State.readUnit, hw, Bool.not_false, if_true]
  rfl

section Written
variable {m : MapEntry} {errs : List UnitErr} (hw : SMap.get false a.written u = true)
  (hm : (s.fpair (a.pairOf u)).map.find? (fun m => m.store == a.handle && m.unit == u) = some m)
include hw hm

/-- A written unit that reads well gives its bytes, and its block counts the read. -/
theorem State.readUnit_of_delivered (hout : outcomeOf errs u = none) :
    s.readUnit a u errs = (some (Memory.read a.data (65536 * u) 65536, true), s.countRead (a.pairOf u) m) := by
  simp only [State.readUnit, hw, hm, hout, Bool.not_true, Bool.false_eq_true, if_false]
  rfl

/-- A unit that neither the retries nor its stripe give, and that no write buffer holds, is lost (R352, R354, R358). -/
theorem State.readUnit_of_lost (hout : outcomeOf errs u = some .lost)
    (hheld : (((s.fpair (a.pairOf u)).chan m.chan).sb m.sb).buffers m.slot = false) :
    s.readUnit a u errs = (none, ((((s.countRead (a.pairOf u) m).updFpair (a.pairOf u) (fun q => { q with
      readRetries := satInc32 q.readRetries })).readStripe (a.pairOf u) m).updFpair (a.pairOf u) (fun q => { q with
        losses := satInc16 q.losses }))) := by
  simp only [State.readUnit, hw, hm, hout, hheld, Bool.not_true, Bool.false_eq_true, if_false]
end Written

section One
variable {t : State} {errs : List UnitErr} (hcount : k.stCount = 1) (hprogress : k.progress = 0)
include hcount hprogress

/-- A read of one unit has that one unit to make. -/
theorem unitsLeft_of_one : (List.range (k.stCount - k.progress)).map (fun i => k.progress + i) = [0] := by
  rw [hcount, hprogress]
  rfl

/-- A read whose one unit is had writes it, and notes a unit that was never written. -/
theorem State.readUnits_of_had {s1 : State} {bs : List Byte} {written : Bool}
    (hread : s.readUnit a k.stUnit errs = (some (bs, written), s1))
    (hwrite : s1.writeEng (k.who c.block) k.stAddr bs = .ok () t) :
    s.readUnits c k a errs ((List.range (k.stCount - k.progress)).map (fun i => k.progress + i)) =
      (if written then t.commitUnit c else (t.commitUnit c).updCmd c (fun j => { j with flashUnwritten := true })).endCmd c Fin.ok := by
  simp only [unitsLeft_of_one hcount hprogress, State.readUnits, Nat.add_zero, Nat.mul_zero, hread, hwrite]

theorem State.readUnits_of_lost (hread : s.readUnit a k.stUnit errs = (none, t)) :
    s.readUnits c k a errs ((List.range (k.stCount - k.progress)).map (fun i => k.progress + i)) =
      t.failCmd c stDataLoss (flashLoss a.handle k.stUnit) := by
  simp only [unitsLeft_of_one hcount hprogress, State.readUnits, Nat.add_zero, hread]
end One
end Units

/-! ### Stripes, checkpoints and relocation (R353, R354, R357) -/

section Stripe
variable {s : State} {pair ch : Nat}

theorem exec_stripeCloseTimer_of_opened {sb : Nat} (h : ((s.fpair pair).chan ch).opened = some sb) : exec (.stripeCloseTimer pair ch) s =
    .next (s.updFpair pair (fun x => x.updChan ch (fun q => q.updSb sb (fun b => { b with fill := (b.fill + 15) / 16 * 16 })))) := by
  show execStripeCloseTimer pair ch s = _
  simp only [execStripeCloseTimer, State.updFpair, h]

theorem exec_stripeCloseTimer_of_none (h : ((s.fpair pair).chan ch).opened = none) :
    exec (.stripeCloseTimer pair ch) s = .next (s.updFpair pair id) := by
  show execStripeCloseTimer pair ch s = _
  simp only [execStripeCloseTimer, State.updFpair, h, id]

theorem exec_relocationDone_of_unscheduled {sb : Nat} (bad : List Nat)
    (h : (((s.fpair pair).chan ch).sb sb).relocating = false) : exec (.relocationDone pair ch sb bad) s = .next s := by
  show execRelocationDone pair ch sb bad s = _
  simp only [execRelocationDone, h, Bool.not_false, if_true]

/-- A scheduled superblock that has been emptied is erased, and the relocation is counted. -/
theorem exec_relocationDone_of_emptied {sb : Nat} (h : (((s.fpair pair).chan ch).sb sb).relocating = true)
    (hempty : ((s.fpair pair).evacuate ch sb).valid ch sb = []) :
    exec (.relocationDone pair ch sb []) s = .next ((s.setFpair pair { (s.fpair pair).evacuate ch sb with
      disturbReloc := satInc16 ((s.fpair pair).evacuate ch sb).disturbReloc }).eraseSb pair ch sb) := by
  show execRelocationDone pair ch sb [] s = _
  simp only [execRelocationDone, h, hempty, List.isEmpty_nil, Bool.not_true, Bool.false_eq_true, if_false, if_true]
end Stripe

/-! ### Levelling (R356) -/

/-- The superblock of a channel with the lowest erase count. -/
def FlashChan.leastWorn (x : FlashChan) : Nat :=
  (List.range sbCount).foldl (fun m n => if (x.sb n).erases < (x.sb m).erases then n else m) 0

/-- The highest erase count of a channel. -/
def FlashChan.mostErases (x : FlashChan) : Nat := (List.range sbCount).foldl (fun m n => max m (x.sb n).erases) 0

theorem FlashChan.mostErases_le {x : FlashChan} {b : Nat} (h : ∀ n, (x.sb n).erases ≤ b) : x.mostErases ≤ b :=
  List.foldlRecOn (motive := fun m => m ≤ b) _ _ (Nat.zero_le b) fun _ hm n _ => Nat.max_le.mpr ⟨hm, h n⟩

/-- The slots of a superblock that take units. -/
def Superblock.dataSlots (b : Superblock) : List Nat := (List.range 4096).filter (fun q => b.dataBlocks.contains (q % 16))

/-- A pair whose channel has moved the units of one superblock into the slots of a free one, which is full. -/
def FlashPair.moveSb (x : FlashPair) (ch src dst : Nat) : FlashPair :=
  let moved : List MapEntry := ((x.valid ch src).zip ((x.chan ch).sb dst).dataSlots).map (fun e => { e.1 with sb := dst, slot := e.2 })
  moved.foldl (fun y m => y.change m.store m.unit (some m))
    (x.updChan ch (fun z => z.updSb dst (fun b => { b with use := .full, fill := 4096 })))

section Levelling
variable {s : State} {pair ch : Nat}

theorem exec_staticLevelling_of_level (h : ((s.fpair pair).chan ch).mostErases ≤ (((s.fpair pair).chan ch).sb
    ((s.fpair pair).chan ch).leastWorn).erases + 150) : exec (.staticLevelling pair ch) s = .next s :=
  congrArg Host.Outcome.next (if_pos (.inl h))

/-- Where the counts differ by more than 150, the least worn full superblock moves into the most worn free one and is erased. -/
theorem exec_staticLevelling_of_apart {low d : Nat} (hlow : ((s.fpair pair).chan ch).leastWorn = low)
    (hapart : (((s.fpair pair).chan ch).sb low).erases + 150 < ((s.fpair pair).chan ch).mostErases)
    (hfull : (((s.fpair pair).chan ch).sb low).use = .full) (hd : ((s.fpair pair).chan ch).oldest = some d)
    (hroom : ((s.fpair pair).valid ch low).length ≤ (((s.fpair pair).chan ch).sb d).dataSlots.length) :
    exec (.staticLevelling pair ch) s = .next ((s.setFpair pair ((s.fpair pair).moveSb ch low d)).eraseSb pair ch low) := by
  subst hlow
  have hworn : ¬ (((s.fpair pair).chan ch).mostErases ≤ (((s.fpair pair).chan ch).sb ((s.fpair pair).chan ch).leastWorn).erases + 150 ∨
      (((s.fpair pair).chan ch).sb ((s.fpair pair).chan ch).leastWorn).use ≠ SbUse.full) := by
    rintro (hle | huse)
    · omega
    · exact huse hfull
  refine congrArg Host.Outcome.next ((if_neg hworn).trans ?_)
  rw [hd]
  exact if_neg (Nat.not_lt.mpr hroom)
end Levelling

/-! ### Programming (R354, R356, R358) -/

section Program
variable {s t : State} {pair : Nat} {j : FlashJob} {bs : List Byte} {y : FlashPair}

theorem State.programUnit_of_placed (hplace : (s.fpair pair).place j.store j.unit = some y) :
    s.programUnit pair j bs = some ((s.setFpair pair { y with jobs := y.jobs.drop 1 }).updStore j.store (fun a => { a with
      data := Memory.write (Memory.zero a.data (65536 * j.unit) 65536) (65536 * j.unit) bs
      written := SMap.set false a.written j.unit true })) := by
  rw [State.programUnit, hplace]
  rfl

/-- The oldest waiting unit, at its turn and with its stack not paused, is read, programmed and counted. -/
theorem exec_flashWriteDone_of_placed {js : List FlashJob} {k : Cmd} (hjobs : (s.fpair pair).jobs = j :: js)
    (hk : s.cmd { block := j.block, id := j.cmd } = some k) (hturn : j.unit = k.stUnit + k.progress)
    (hpaused : s.flash.paused.contains ((s.fpair pair).next % 4 / 2) = false)
    (hread : s.readEng (k.who j.block) j.addr 65536 = .ok bs t) (hplace : (t.fpair pair).place j.store j.unit = some y) :
    exec (.flashWriteDone pair false) s = .next (((((t.setFpair pair { y with jobs := y.jobs.drop 1 }).updStore j.store (fun a => { a with
      data := Memory.write (Memory.zero a.data (65536 * j.unit) 65536) (65536 * j.unit) bs
      written := SMap.set false a.written j.unit true })).commitUnit { block := j.block, id := j.cmd }).writeDone
        { block := j.block, id := j.cmd })) := by
  show execFlashWriteDone pair false s = _
  simp only [execFlashWriteDone, hjobs, hk, hturn, hpaused, unitBytes, hread, State.programUnit_of_placed hplace, ne_eq, not_true_eq_false,
    Bool.false_eq_true, or_self, if_false]
end Program

/-- Settles O22: a store command at its point does what the lemma of its case says; a command on units does so for the store that
passed the checks, a read by how its one unit was had; and each event of the flash tier has its lemma. -/
theorem storeCommandResults : Obligations.StoreCommandResults := by
  refine ⟨fun s t c k x z a f n hx hz => ?commands, fun s t pair ch sb bad j js k bs y => ?events⟩
  case commands =>
    refine ⟨fun hat hfields hpos hmax hquota hmaps hn => ?created, fun ha hfields => ?stores, fun ha hpass hmaps => ?units,
      fun g errs hfail => ?fails, fun hat hfields hmaps hout => exec_opStoreStat_of_output hat hx hfields hmaps hout⟩
    case created => rw [exec_opStoreCreate_of_atPoint hat, State.storeCreate_of_room hx hz hfields hpos hmax hquota hmaps hn]; rfl
    case stores =>
      refine ⟨fun hat hpart hctx hboundary hmaps => ?destroyed, fun hat hpart hctx hpersist hquota hmaps => ?attached,
        fun hat hctx => ?taken⟩
      case destroyed =>
        rw [exec_opStoreDestroy_of_atPoint hat, State.storeDestroy_of_boundary ha hfields hpart hctx hboundary hmaps]
      case attached =>
        rw [exec_opStoreAttach_of_atPoint hat, State.storeAttach_of_detached ha hfields hz hpart hctx hpersist hquota hmaps]
      case taken => rw [exec_opStoreAttach_of_atPoint hat, State.storeAttach_of_attached ha hfields hz hctx]
    case units =>
      refine ⟨fun hat => ?written, fun hat => ?trimmed, fun errs hat hcount hprogress hw hwrite => ?unwritten,
        fun errs m hat hcount hprogress hw hm => ⟨fun hout hwrite => ?delivered, fun hout hheld => ?lost⟩⟩
      case written => rw [exec_opStoreWrite_of_atPoint hat, State.onUnits_of_store ha hpass hmaps]; rfl
      case trimmed => rw [exec_opStoreTrim_of_atPoint hat, State.onUnits_of_store ha hpass hmaps]; rfl
      case unwritten =>
        rw [exec_opStoreRead_of_atPoint errs hat, State.onUnits_of_store ha hpass hmaps,
          State.readUnits_of_had hcount hprogress (State.readUnit_of_unwritten hw errs) hwrite]
        rfl
      case delivered =>
        rw [exec_opStoreRead_of_atPoint errs hat, State.onUnits_of_store ha hpass hmaps,
          State.readUnits_of_had hcount hprogress (State.readUnit_of_delivered hw hm hout) hwrite]
        rfl
      case lost =>
        rw [exec_opStoreRead_of_atPoint errs hat, State.onUnits_of_store ha hpass hmaps,
          State.readUnits_of_lost hcount hprogress (State.readUnit_of_lost hw hm hout hheld)]
        rfl
    case fails =>
      refine ⟨fun hat => ?write, fun hat => ?read, fun hat => ?trim⟩
      case write => rw [exec_opStoreWrite_of_atPoint hat, State.onUnits_of_fail hfail]
      case read => rw [exec_opStoreRead_of_atPoint errs hat, State.onUnits_of_fail hfail]
      case trim => rw [exec_opStoreTrim_of_atPoint hat, State.onUnits_of_fail hfail]
  case events =>
    refine ⟨exec_stripeCloseTimer_of_opened, exec_stripeCloseTimer_of_none, rfl, exec_relocationDone_of_unscheduled bad,
      fun hscheduled hempty hbad => ?relocated, fun hall => ?level,
      fun low d hlow hapart hfull hd hroom => exec_staticLevelling_of_apart hlow hapart hfull hd hroom, fun _ _ => rfl,
      fun hjobs hk hturn hpaused hread hplace => exec_flashWriteDone_of_placed hjobs hk hturn hpaused hread hplace⟩
    case relocated =>
      subst hbad
      exact exec_relocationDone_of_emptied hscheduled hempty
    case level => exact exec_staticLevelling_of_level ((FlashChan.mostErases_le hall).trans (Nat.le_add_left 150 _))

end Sys2Proof.Machine
end

section
/-! SUPPORT. Statistics and quotas, contexts, the steps of a context switch and the limit of a drain (R366 to R368, R420, R440,
R458 to R475, R491, R514, O34). -/

namespace Sys2Proof.Machine

/-! ### Records and quotas (R366 to R368, R440, R458) -/

section AtPoint
variable {s t : State} {c : CmdRef} {k : Cmd} {f : Fin}

theorem State.finishOut_of_output {a : Nat} {bs : List Byte} {g : Fin} (h : s.output c (k.who c.block) a bs g = (t, some f)) :
    s.finishOut c k a bs g = t.endCmd c f := by
  simp only [State.finishOut, h]

theorem exec_opPartStat_of_output {x : Partition} (h : AtPoint s c k 0x0104) (hx : s.part (k.home c) = some x) (h6 : k.p 6 2 = 0)
    (hout : s.output c (k.who c.block) (k.p 0 6) x.statRecord Fin.ok = (t, some f)) :
    exec (.opPartStat c) s = .next (s.unlessLost c (t.endCmd c f).settle) := by
  show execOpPartStat c s = _
  rw [execOpPartStat, State.gate_of_atPoint (always := false) h rfl]
  simp only [h6, hx, State.finishOut_of_output hout, ne_eq, not_true_eq_false, if_false]

theorem exec_opQuotaStat_of_output (h : AtPoint s c k 0x0108) (h6 : k.p 6 2 = 0)
    (hout : s.output c (k.who c.block) (k.p 0 6)
      (if k.ctxField = 0xFFFF then s.partCharges (k.home c) else s.ctxCharges (k.home c) k.ctxField).bytes Fin.ok = (t, some f)) :
    exec (.opQuotaStat c) s = .next (s.unlessLost c (t.endCmd c f).settle) := by
  show execOpQuotaStat c s = _
  rw [execOpQuotaStat, State.gate_of_atPoint (always := false) h rfl]
  simp only [h6, State.finishOut_of_output hout, ne_eq, not_true_eq_false, if_false]

theorem exec_opQuotaSet_of_atPoint (h : AtPoint s c k 0x0107) :
    exec (.opQuotaSet c) s = .next (s.unlessLost c (s.quotaSet c k (k.home c) k.ctxField).settle) :=
  congrArg Host.Outcome.next (State.gate_of_atPoint h rfl fun t k p h => t.quotaSet c k p h)

theorem exec_opCtxCreate_of_atPoint (h : AtPoint s c k 0x0105) :
    exec (.opCtxCreate c) s = .next (s.unlessLost c (s.ctxCreate c k (k.home c)).settle) :=
  congrArg Host.Outcome.next (State.gate_of_atPoint h rfl fun t k p _ => t.ctxCreate c k p)

theorem exec_opCtxDestroy_of_atPoint (h : AtPoint s c k 0x0106) :
    exec (.opCtxDestroy c) s = .next (s.unlessLost c (s.ctxDestroy c (k.home c) k.ctxField).settle) :=
  congrArg Host.Outcome.next (State.gate_of_atPoint h rfl fun t _ p h => t.ctxDestroy c p h)
end AtPoint

section QuotaSet
variable {s : State} {c : CmdRef} {k : Cmd} {p h : Nat} {x : Partition} (hx : s.part p = some x)
include hx

section OfPartition
variable (hscope : h = 0xFFFF)
include hscope

theorem State.quotaSet_of_malformed_partition (hbad : (k.quotaAt 0).malformed true = true) :
    s.quotaSet c k p h = s.endCmd c (Fin.with stQuota 4) := by
  simp only [State.quotaSet, hx, if_pos hscope, hbad, if_true]
  rfl

theorem State.quotaSet_of_short_partition (hgood : (k.quotaAt 0).malformed true = false)
    (hshort : (k.quotaAt 0).covers (s.partCharges p) = false) : s.quotaSet c k p h = s.endCmd c (Fin.with stQuota 0) := by
  simp only [State.quotaSet, hx, if_pos hscope, hgood, hshort, Bool.and_false, Bool.not_false, Bool.false_eq_true, if_false, if_true]
  rfl

/-- A record within the limits that covers the charges is stored, unless the partition is locked. -/
theorem State.quotaSet_of_covering_partition (hgood : (k.quotaAt 0).malformed true = false)
    (hlimit : quotaLimit (k.quotaAt 0) (bitsSet x.pairMask.toNat 8).length = true) (hcovers : (k.quotaAt 0).covers (s.partCharges p) = true)
    (hlocks : x.tdiLocks = false) :
    s.quotaSet c k p h = (s.updPart p (fun y => { y with quota := k.quotaAt 0 })).endCmd c Fin.ok := by
  simp only [State.quotaSet, hx, if_pos hscope, hgood, hlimit, hcovers, hlocks, Bool.and_self, Bool.not_true, Bool.false_eq_true, if_false]
end OfPartition

/-- A context's record is stored where it covers the context's charges and the partition's record still covers its own. -/
theorem State.quotaSet_of_context (hscope : h ≠ 0xFFFF) (hgood : (k.quotaAt 0).malformed false = false) :
    let u := s.updCtx p h (fun y => { y with quota := k.quotaAt 0 })
    s.quotaSet c k p h = if (k.quotaAt 0).coversCtx (s.ctxCharges p h) = true ∧ x.quota.covers (u.partCharges p) = true
      then u.endCmd c Fin.ok else s.endCmd c (Fin.with stQuota 0) := by
  simp only [State.quotaSet, hx, if_neg hscope, hgood, Bool.and_eq_true, Bool.false_eq_true, if_false]
  rfl
end QuotaSet

/-! ### Contexts (R459, R464, R474) -/

theorem zeroOrIn_iff {v lo hi : Nat} : zeroOrIn v lo hi = true ↔ v = 0 ∨ (lo ≤ v ∧ v ≤ hi) := by
  simp [zeroOrIn]

/-- The save area of a context has 4,356 KiB for each core (R464). -/
theorem Partition.saveBytes_eq (x : Partition) : x.saveBytes = 4356 * 1024 * x.positions.length := rfl

section CtxCreate
variable {s t : State} {c : CmdRef} {k : Cmd} {p : Nat} {x : Partition} (hx : s.part p = some x)
  (hquantum : zeroOrIn (k.p 0 4) 100 10000000 = true) (hzero : (k.pBytes 4 12).all (fun b => b == 0) = true)
include hx hquantum hzero

theorem State.ctxCreate_of_full (hfull : x.maxCtx ≤ x.ctxList.length) : s.ctxCreate c k p = s.endCmd c (Fin.with stQuota 0) := by
  simp only [State.ctxCreate, hx, hquantum, hzero, hfull, Bool.and_self, Bool.not_true, Bool.false_eq_true, if_false, if_true]
  rfl

/-- A context for which the partition has a place, quota and a save area is created under the next free handle. -/
theorem State.ctxCreate_of_room {f : FwRegion} {area : Nat} (hsave : x.saveBytes = area) (hplace : x.ctxList.length < x.maxCtx)
    (hgood : (k.quotaAt 0x10).malformed false = false)
    (hdram : (s.partCharges p).dram + (k.quotaAt 0x10).dram + area ≤ x.quota.dram)
    (hflash : (s.partCharges p).flash + (k.quotaAt 0x10).flash ≤ x.quota.flash)
    (hswap : (s.partCharges p).swap + (k.quotaAt 0x10).swap ≤ x.quota.swap)
    (harea : s.placeFw p .save x.newHandle area 0x10000 = some (f, t)) :
    s.ctxCreate c k p = (t.updPart p (fun y => { y.setCtx x.newHandle (some (Context.new
      (if k.p 0 4 = 0 then y.quantumUs else k.p 0 4) (k.quotaAt 0x10) f.base)) with lastHandle := some x.newHandle })).endCmd c
        { Fin.ok with c0 := x.newHandle } := by
  subst hsave
  simp only [State.ctxCreate, hx, hquantum, hzero, Nat.not_le.mpr hplace, hgood, Quota.covers, hdram, hflash, hswap, harea, and_self,
    decide_true, Bool.and_self, Bool.not_true, Bool.false_eq_true, if_false]
end CtxCreate

@[simp] theorem State.acceptAll_cap (s : State) (cs : List CmdRef) : (s.acceptAll cs).cap = s.cap :=
  List.foldlRecOn (motive := fun t : State => t.cap = s.cap) _ _ rfl fun _ ht _ _ => (State.updCmd_cap _ _ _).trans ht

theorem State.streamsOf_eq_nil {s : State} {p : Nat} (h : ∀ n, (s.stream n).part ≠ some p) (f : Stream → Bool) :
    s.streamsOf p f = [] :=
  List.filter_eq_nil_iff.mpr fun n _ => by simp [h n]

/-- The commands of a context in destruction are accepted to drain; a partition without streams has none to drain. -/
theorem State.ctxDestroy_of_no_streams {s : State} (c : CmdRef) {p : Nat} (h : Nat) (hno : ∀ n, (s.stream n).part ≠ some p) :
    s.ctxDestroy c p h = ((s.startCmd c).acceptAll (s.ctxCmds p h)).updCtx p h (fun y => { y with
      state := .destroying, destroyedBy := some (c.block, c.id) }) := by
  have hcap : ((s.startCmd c).acceptAll (s.ctxCmds p h)).cap = s.cap := by rw [State.acceptAll_cap]; rfl
  have hnone : ∀ n, (((s.startCmd c).acceptAll (s.ctxCmds p h)).stream n).part ≠ some p := fun n => by
    rw [State.stream, hcap]
    exact hno n
  simp only [State.ctxDestroy, State.streamsOf_eq_nil hnone, List.foldl_nil]

/-! ### The steps of a switch (R461 to R466) -/

@[simp] theorem State.saveCtx_parts (s : State) (x : Partition) (k : Context) : (s.saveCtx x k).parts = s.parts :=
  State.foldl_parts (fun t e => by simp) _ s

@[simp] theorem State.eachCore_parts (s : State) (x : Partition) (f : (Nat × Nat × Nat) → Core → Core) :
    (s.eachCore x f).parts = s.parts :=
  State.foldl_parts (fun t _ => State.updCore_parts t _ _) _ s

@[simp] theorem State.clearCores_parts (s : State) (x : Partition) : (s.clearCores x).parts = s.parts := s.eachCore_parts x _

theorem State.part_congr {s t : State} (h : t.parts = s.parts) (p : Nat) : t.part p = s.part p := by
  simp only [State.part, h]

theorem State.updPart_of_part {s : State} {p : Nat} {x : Partition} (hx : s.part p = some x) (f : Partition → Partition) :
    s.updPart p f = s.setPart p (some (f x)) := by
  simp only [State.updPart, hx]

theorem Partition.ctx_setCtx_ne (x : Partition) {c d : Nat} (k : Option Context) (h : d ≠ c) : (x.setCtx c k).ctx d = x.ctx d :=
  SMap.get_set_ne none x.ctxs k h

section Switch
variable {s : State} {p o i us : Nat} {x : Partition} (hx : s.part p = some x)
include hx

theorem exec_quantumExpiry_of_current (hcurrent : x.current = some o) : exec (.quantumExpiry p) s = .next (s.decideSwitch p).settle := by
  show execQuantumExpiry p s = _
  simp only [execQuantumExpiry, hx, hcurrent, Option.isSome_some, if_true]

theorem State.decideSwitch_of_ready (hcurrent : x.current = some o) (hno : x.switch = none) (hserved : x.served = true)
    (hnext : s.nextReady p x = some i) :
    s.decideSwitch p = s.updPart p (fun y => { y with switch := some { outgoing := some o, incoming := i, phase := .decided } }) := by
  simp only [State.decideSwitch, State.switchFrom, hx, hno, hserved, hnext, hcurrent, Option.isSome_none, Bool.not_true,
    Bool.false_eq_true, or_self, if_false]

theorem State.decideSwitch_of_none_ready (hnext : s.nextReady p x = none) : s.decideSwitch p = s := by
  simp only [State.decideSwitch, State.switchFrom, hx, hnext, ite_self]

/-- At the switch point of two contexts that are not being destroyed the outgoing one is saved and none is current. -/
theorem exec_switchPoint_of_decided {k z : Context} (hw : x.switch = some { outgoing := some o, incoming := i, phase := .decided })
    (ho : x.ctx o = some k) (hi : x.ctx i = some z) (hne : o ≠ i) (hk : k.destroyedBy = none) (hz : z.destroyedBy = none)
    (hpoint : s.atSwitchPoint p x = true) :
    exec (.switchPoint p) s = .next ((s.saveCtx x k).setPart p (some
      { (x.setCtx o (some { k with state := .switching, savedValid := true })).setCtx i (some { z with state := .switching }) with
        current := none
        awaitFirst := true
        switch := some { outgoing := some o, incoming := i, phase := .saving } })) := by
  have hsaved : (s.saveCtx x k).part p = some x := (State.part_congr (s.saveCtx_parts x k) p).trans hx
  have hin (v : Option Context) : (x.setCtx o v).ctx i = some z := (x.ctx_setCtx_ne v hne.symm).trans hi
  show execSwitchPoint p s = _
  simp only [execSwitchPoint, hx, hw, ho, hpoint, ne_eq, not_true_eq_false, Bool.not_true, Bool.false_eq_true, or_self, if_false,
    State.updPart_of_part hsaved, hin, hk, hz, Option.isSome_none, Bool.or_true, Bool.or_false]

/-- Once the outgoing context is saved its cores are cleared, and it is idle. -/
theorem exec_switchSaveDone_of_saving {k : Context} (hw : x.switch = some { outgoing := some o, incoming := i, phase := .saving })
    (ho : x.ctx o = some k) (hk : k.state = .switching) :
    exec (.switchSaveDone p) s = .next ((((s.clearCores x).setPart p (some { x.setCtx o (some { k with state := .idle }) with
      switch := some { outgoing := some o, incoming := i, phase := .restoring } })).refreshCtx p).settle) := by
  have hcleared : (s.clearCores x).part p = some x := (State.part_congr (s.clearCores_parts x) p).trans hx
  show execSwitchSaveDone p s = _
  simp only [execSwitchSaveDone, hx, hw, ne_eq, not_true_eq_false, if_false, State.updPart_of_part hcleared, Option.bind_some, ho, hk,
    if_true, Option.getD_some]

/-- A switch that left a context is counted, with its time (R458). -/
def Partition.countSwitch (y : Partition) (us : Nat) : Partition :=
  let t := BitVec.ofNat 32 (min us 0xFFFFFFFF)
  { y with
    switches := satInc32 y.switches
    lastSwitchUs := t
    switchMaxUs := if y.switchMaxUs.toNat < t.toNat then t else y.switchMaxUs }

/-- The incoming context, which has no image, becomes current. -/
theorem exec_switchRestoreDone_of_no_image {z : Context} {w : SwitchRec} (hw : x.switch = some w) (hphase : w.phase = .restoring)
    (hi : x.ctx w.incoming = some z) (hz : z.savedValid = false) :
    exec (.switchRestoreDone p us) s = .next (((s.enterCtx p w.incoming).updPart p (fun y =>
      if w.outgoing.isNone then y else y.countSwitch us)).settle) := by
  show execSwitchRestoreDone p us s = _
  simp only [execSwitchRestoreDone, hx, hw, hi, hphase, hz, ne_eq, not_true_eq_false, Bool.false_eq_true, if_false, Option.isSome_none]
  rfl
end Switch

/-! ### The limit of a drain (R420, R470, R471, R474, R491, R514) -/

section Drain
variable {s : State} {p c b r n : Nat}

theorem exec_drainLimitExpiry_partition {x : Partition} (hx : s.part p = some x) (h : x.state = .draining) :
    exec (.drainLimitExpiry (.partition p)) s = .next (s.endAll (s.partCmds p)).settle := by
  show execDrainLimitExpiry (.partition p) s = _
  simp only [execDrainLimitExpiry, State.partDrainLimit, hx, if_pos h]

theorem exec_drainLimitExpiry_context {k : Context} (hk : s.ctx p c = some k) (h : k.destroyedBy ≠ none) :
    exec (.drainLimitExpiry (.context p c)) s = .next (s.endAll (s.ctxCmds p c)).settle := by
  show execDrainLimitExpiry (.context p c) s = _
  simp only [execDrainLimitExpiry, State.ctxDrainLimit, hk, Option.isSome_iff_ne_none.mpr h, if_true]

theorem exec_drainLimitExpiry_ring (h : (s.ring b r).sq.state = .draining) :
    exec (.drainLimitExpiry (.ring b r)) s = .next ((s.endAll (s.cmdsOf b (fun k => k.ring == r))).sqDrained b r).settle := by
  show execDrainLimitExpiry (.ring b r) s = _
  simp only [execDrainLimitExpiry, State.ringDrainLimit, if_pos h]

theorem exec_drainLimitExpiry_stream (h : (s.stream n).state = .draining) :
    exec (.drainLimitExpiry (.stream n)) s = .next ((s.abortFrames n).streamDrained n (!(s.stream n).frames.isEmpty)).settle := by
  show execDrainLimitExpiry (.stream n) s = _
  simp only [execDrainLimitExpiry, State.streamDrainLimit, if_pos h]

theorem exec_drainLimitExpiry_decodeArea {k : Context} (hk : s.ctx p c = some k) (h : k.dcacheBy ≠ none) :
    exec (.drainLimitExpiry (.decodeArea p c)) s =
      .next (s.endAll (s.cmdsOf (1 + p) (fun j => j.ctxField == c && decide (0 < j.staged)))).settle := by
  show execDrainLimitExpiry (.decodeArea p c) s = _
  simp only [execDrainLimitExpiry, State.decodeDrainLimit, hk, Option.isSome_iff_ne_none.mpr h, if_true]
end Drain

/-- Settles O34: each command at its point, each step of a switch and each drain does what the lemma of its case says. -/
theorem contextCommandResults : Obligations.ContextCommandResults := by
  refine ⟨fun s t c k f x => ?quotas, fun s c k x f t => ?contexts, fun s p o i us x k z hx => ?switches, fun s p c b r n => ?drains⟩
  case quotas =>
    refine ⟨fun hat hx h6 hout => exec_opPartStat_of_output hat hx h6 hout, fun hat h6 hout => exec_opQuotaStat_of_output hat h6 hout,
      fun hat hx hscope hlocks => ⟨fun hbad => ?malformed, fun hgood hlimit hcovers => ?stored, fun hgood hshort => ?short⟩,
      fun hat hx hscope hgood => ?context⟩
    case malformed => rw [exec_opQuotaSet_of_atPoint hat, State.quotaSet_of_malformed_partition hx hscope hbad]
    case stored =>
      rw [exec_opQuotaSet_of_atPoint hat, State.quotaSet_of_covering_partition hx hscope hgood hlimit hcovers hlocks]
    case short => rw [exec_opQuotaSet_of_atPoint hat, State.quotaSet_of_short_partition hx hscope hgood hshort]
    case context => rw [exec_opQuotaSet_of_atPoint hat, State.quotaSet_of_context hx hscope hgood]
  case contexts =>
    refine ⟨fun hat hx hquantum hzero hplace hgood hdram hflash hswap harea => ?created, fun hat hx hquantum hzero hfull => ?full,
      fun hat hno => ?destroyed⟩
    case created =>
      rw [exec_opCtxCreate_of_atPoint hat,
        State.ctxCreate_of_room hx (zeroOrIn_iff.mpr hquantum) hzero x.saveBytes_eq hplace hgood hdram hflash hswap harea]
    case full => rw [exec_opCtxCreate_of_atPoint hat, State.ctxCreate_of_full hx (zeroOrIn_iff.mpr (.inl hquantum)) hzero hfull]
    case destroyed => rw [exec_opCtxDestroy_of_atPoint hat, State.ctxDestroy_of_no_streams c k.ctxField hno]
  case switches =>
    refine ⟨fun hcurrent hno hserved hnext => ?decided, fun hcurrent _ hnext => ?goesOn,
      fun hw ho hi hne hk hz hpoint => exec_switchPoint_of_decided hx hw ho hi hne hk hz hpoint,
      fun hw ho hk => exec_switchSaveDone_of_saving hx hw ho hk,
      fun hw hi hz => ?entered, fun hw hi hz => ?switched⟩
    case decided => rw [exec_quantumExpiry_of_current hx hcurrent, State.decideSwitch_of_ready hx hcurrent hno hserved hnext]
    case goesOn => rw [exec_quantumExpiry_of_current hx hcurrent, State.decideSwitch_of_none_ready hx hnext]
    case entered =>
      rw [exec_switchRestoreDone_of_no_image hx hw rfl hi hz]
      simp only [Option.isNone_none, if_true]
    case switched =>
      rw [exec_switchRestoreDone_of_no_image hx hw rfl hi hz]
      simp only [Option.isNone_some, Bool.false_eq_true, if_false, Partition.countSwitch]
  case drains =>
    exact ⟨fun _ => exec_drainLimitExpiry_partition, fun _ => exec_drainLimitExpiry_context, exec_drainLimitExpiry_ring,
      exec_drainLimitExpiry_stream, fun _ => exec_drainLimitExpiry_decodeArea⟩

end Sys2Proof.Machine
end

section
/-! SUPPORT. Span ports: flits, acknowledgements, the replay buffer, lanes and training (R378 to R382, O23). -/

namespace Sys2Proof.Machine

/-! ### A flit arrives (R378, R379) -/

/-- A flit whose symbols could be corrected and whose CRC is right (R378). -/
def flitGood (flit : List Byte) (bad : Bool) : Bool :=
  !bad && field flit 206 2 == (crc16 ((List.range 206).map (fun i => flit.getD i 0))).toNat

/-- KIND of a flit (R378). -/
def flitKind (flit : List Byte) : Nat := bitsOf (field flit 0 6) 25 24

/-- A port with the corrected symbols of a flit counted. -/
def SpanPort.counted (x : SpanPort) (corrected : Nat) : SpanPort := { x with corrSymbols := satAdd32 x.corrSymbols corrected }

/-- A port that has taken the credit and the acknowledgement of a flit, and sent what they let go. -/
def SpanPort.accepted (x : SpanPort) (flit : List Byte) (corrected : Nat) : SpanPort :=
  ((x.counted corrected).take (field flit 0 6)).pump

/-- A port that counts a rejected flit and answers it with a NAK. -/
def SpanPort.rejects (x : SpanPort) (corrected : Nat) : SpanPort :=
  ({ x.counted corrected with rejected := satAdd32 (x.counted corrected).rejected 1, discarding := true } : SpanPort).sendCtl 2 []

section Flit
variable {s : State} {n : Nat} {flit : List Byte} {bad : Bool} (corrected : Nat) (hn : n < 32) (hl : (s.port n).listens = true)
include hn hl

/-- A flit that does not pass its checks is rejected, and so is the first DATA flit out of order. -/
theorem exec_flitReceive_of_rejected (h : flitGood flit bad = false ∨
    (flitKind flit = 0 ∧ field flit 0 6 % 4096 ≠ (s.port n).rxSeq.toNat ∧ (s.port n).discarding = false)) :
    exec (.flitReceive n flit bad corrected) s = .next (s.setPort n ((s.port n).rejects corrected)) := by
  show execFlitReceive n flit bad corrected s = _
  unfold flitGood flitKind at h
  simp only [execFlitReceive, Nat.not_le.mpr hn, hl, Bool.not_true, Bool.false_eq_true, or_self, if_false]
  rw [if_pos]
  · rfl
  · rcases h with hbad | ⟨hkind, hseq, hdisc⟩
    · exact .inl (by rw [hbad]; rfl)
    · exact .inr (by simp [hkind, hseq, hdisc])

variable (hgood : flitGood flit bad = true)
include hgood

/-- While the expected DATA flit is awaited, others are discarded. -/
theorem exec_flitReceive_of_discarded (hkind : flitKind flit = 0) (hseq : field flit 0 6 % 4096 ≠ (s.port n).rxSeq.toNat)
    (hdisc : (s.port n).discarding = true) :
    exec (.flitReceive n flit bad corrected) s = .next (s.setPort n ((s.port n).counted corrected)) := by
  show execFlitReceive n flit bad corrected s = _
  unfold flitGood at hgood
  unfold flitKind at hkind
  simp only [execFlitReceive, Nat.not_le.mpr hn, hl, hgood, hkind, beq_eq_false_iff_ne.mpr hseq, ne_eq, not_true_eq_false, decide_false,
    Bool.or_self, Bool.not_true, Bool.not_false, Bool.false_eq_true, false_or, or_self, if_false, if_true]
  rw [if_neg (by rw [hdisc]; decide)]
  rfl

/-- The expected DATA flit is received and its packets are performed. -/
theorem exec_flitReceive_of_data (hkind : flitKind flit = 0) (hseq : field flit 0 6 % 4096 = (s.port n).rxSeq.toNat) :
    exec (.flitReceive n flit bad corrected) s =
      .next (((s.setPort n (((s.port n).accepted flit corrected).receive ((flit.drop 6).take 200))).drainInbox n).idleFlit n
        ((s.port n).accepted flit corrected).sent.length) := by
  show execFlitReceive n flit bad corrected s = _
  unfold flitGood at hgood
  unfold flitKind at hkind
  simp only [execFlitReceive, Nat.not_le.mpr hn, hl, hgood, hkind, beq_iff_eq.mpr hseq, Bool.or_true, Bool.not_true, Bool.false_eq_true,
    false_and, or_self, if_false]
  rfl

/-- A control flit does what its kind says. -/
theorem exec_flitReceive_of_control {kind : Nat} (hkind : flitKind flit = kind) (h0 : kind ≠ 0) :
    exec (.flitReceive n flit bad corrected) s = .next (
      if kind = 2 then s.setPort n (((s.port n).accepted flit corrected).nak ((bitsOf (field flit 0 6) 23 12 + 1) % 4096))
      else if kind = 3 then
        (s.setPort n ((s.port n).accepted flit corrected)).spareRequest n (field ((flit.drop 6).take 200) 0 1)
      else s.setPort n ((s.port n).accepted flit corrected)) := by
  show execFlitReceive n flit bad corrected s = _
  unfold flitGood at hgood
  unfold flitKind at hkind
  simp only [execFlitReceive, Nat.not_le.mpr hn, hl, hgood, hkind, h0, ne_eq, not_false_eq_true, decide_true, Bool.true_or, Bool.not_true,
    Bool.false_eq_true, false_and, or_self, if_false]
  match kind, h0 with
  | 1, _ | 2, _ | 3, _ | n + 4, _ => rfl
end Flit

/-- The lane that a LINK flit names is the first byte of its payload. -/
theorem field_payload_zero (flit : List Byte) : field ((flit.drop 6).take 200) 0 1 = ((flit.drop 6).getD 0 0).toNat := by
  rw [field_succ]
  simp [field, leNat, List.getD_eq_getElem?_getD]

/-- A NAK names a flit of the replay buffer: it and every later one go again in order (R379). -/
theorem exec_nakReceive_of_held {s : State} {n seq i : Nat} (hn : n < 32) (hl : (s.port n).listens = true)
    (hi : (s.port n).replay.findIdx? (fun e => e.1 % 4096 == seq % 4096) = some i) :
    exec (.nakReceive n seq) s =
      .next (s.setPort n ({ s.port n with replay := (s.port n).replay.drop i } : SpanPort).resend.pump) := by
  show execNakReceive n seq s = _
  simp only [execNakReceive, Nat.not_le.mpr hn, hl, State.updPort, SpanPort.nak, hi, Bool.not_true, Bool.false_eq_true, or_self, if_false]

/-! ### Sending (R378, R379) -/

section Send
variable {x : SpanPort} {no : Nat} {payload : List Byte} {rest : List (Nat × List Byte)} (hw : x.waiting = (no, payload) :: rest)
include hw

theorem SpanPort.sendOne_of_blocked (h : x.listens = false ∨ x.credit = 0 ∨ 512 ≤ x.replay.length) : x.sendOne = x := by
  simp only [SpanPort.sendOne, hw, Bool.not_eq_true', if_pos h]

theorem SpanPort.sendOne_of_room (hl : x.listens = true) (hc : 0 < x.credit) (hr : x.replay.length < 512) :
    x.sendOne = { x with
      waiting := rest, credit := x.credit - 1, owed := x.owed - 2 * x.returns,
      sent := x.sent ++ [(some no, mkFlit no x.acked 0 x.returns payload)],
      replay := x.replay ++ [(no, mkFlit no x.acked 0 x.returns payload)] } := by
  simp only [SpanPort.sendOne, hw, hl, hc.ne', Nat.not_le.mpr hr, Bool.not_true, Bool.false_eq_true, or_self, if_false]
  rfl
end Send

/-! ### Lanes (R380) -/

/-- A lane that was not failing joins the failing ones. -/
theorem LaneSide.fail_of_not_failing {l : LaneSide} {lane : Nat} (h : l.failing.contains lane = false) :
    l.fail lane = { l with failing := lane :: l.failing } := by
  simp only [LaneSide.fail, h, Bool.false_eq_true, if_false]

section Lanes
variable {s : State} {n lane : Nat} (hn : n < 32) (hu : (s.port n).usable = true)
include hn hu

section Failing
variable (hin : (s.port n).rx.failing.contains lane = false)
include hin

/-- A receiver's failing lane asks for the spare where the spare is free and works. -/
theorem exec_laneFailing_of_spare (hlane : lane < 8) (hr : (s.port n).rx.retired = none) (hq : (s.port n).request = none)
    (h8 : (s.port n).rx.failing.contains 8 = false) :
    exec (.laneFailing n lane) s = .next (s.setPort n (({ s.port n with
      rx := { (s.port n).rx with failing := lane :: (s.port n).rx.failing }, request := some lane } : SpanPort).sendCtl 3 (leBytes 1 lane))) := by
  show execLaneFailing n lane s = _
  simp only [execLaneFailing, LaneSide.fail_of_not_failing hin, Nat.not_le.mpr hn, show ¬ 9 ≤ lane by omega, hu, hin, hlane.ne, hr, hq, h8,
    Option.isSome_none, Bool.not_true, Bool.or_self, Bool.false_eq_true, or_self, if_false]

/-- With the spare in use or failing, the port trains again. -/
theorem exec_laneFailing_of_no_spare (hlane : lane < 8)
    (h : ((s.port n).rx.retired.isSome = true ∨ (s.port n).request.isSome = true) ∨ (s.port n).rx.failing.contains 8 = true) :
    exec (.laneFailing n lane) s = .next ((s.setPort n { s.port n with
      rx := { (s.port n).rx with failing := lane :: (s.port n).rx.failing } }).train n) := by
  show execLaneFailing n lane s = _
  simp only [execLaneFailing, LaneSide.fail_of_not_failing hin, Nat.not_le.mpr hn, show ¬ 9 ≤ lane by omega, hu, hin, hlane.ne, Bool.or_eq_true,
    if_pos h, Bool.not_true, Bool.false_eq_true, or_self, if_false]
end Failing

/-- The spare itself fails: the port trains again only where the spare is in use. -/
theorem exec_laneFailing_eight (hin : (s.port n).rx.failing.contains 8 = false) :
    exec (.laneFailing n 8) s =
      let t := s.setPort n { s.port n with rx := { (s.port n).rx with failing := 8 :: (s.port n).rx.failing } }
      .next (if (s.port n).rx.retired.isSome = true ∨ (s.port n).request.isSome = true then t.train n else t) := by
  show execLaneFailing n 8 s = _
  simp only [execLaneFailing, LaneSide.fail_of_not_failing hin, Nat.not_le.mpr hn, show ¬ 9 ≤ 8 by omega, hu, hin, Bool.or_eq_true,
    Bool.not_true, Bool.false_eq_true, or_self, if_false, if_true]

section Request
variable (hlane : lane < 8)
include hlane

/-- The peer's answer: the receiver moves the lane it asked for to the spare. -/
theorem exec_laneSpareRequest_of_answer (hq : (s.port n).request = some lane) :
    exec (.laneSpareRequest n lane) s = .next (s.setPort n { s.port n with
      rx := (s.port n).rx.retire lane, retiredLane := lane, request := none }) := by
  show execLaneSpareRequest n lane s = _
  simp only [execLaneSpareRequest, State.spareRequest, Nat.not_le.mpr hn, Nat.not_le.mpr hlane, hu, hq, Bool.not_true, Bool.false_eq_true,
    or_self, if_false, if_true]

variable (hq : (s.port n).request ≠ some lane)
include hq

/-- The peer's request: the sender moves the lane to its spare and answers. -/
theorem exec_laneSpareRequest_of_free (hr : (s.port n).tx.retired = none) (h8 : (s.port n).tx.failing.contains 8 = false) :
    exec (.laneSpareRequest n lane) s = .next (s.setPort n (
      let y := ({ s.port n with tx := (s.port n).tx.retire lane } : SpanPort).sendCtl 3 (leBytes 1 lane)
      { y with retiredLane := y.retiredOf })) := by
  show execLaneSpareRequest n lane s = _
  simp only [execLaneSpareRequest, State.spareRequest, Nat.not_le.mpr hn, Nat.not_le.mpr hlane, hu, hq, hr, h8, reduceCtorEq, Option.isSome_none,
    Bool.not_true, Bool.false_eq_true, or_self, if_false]

/-- With the sender's spare in use for another lane the port trains again. -/
theorem exec_laneSpareRequest_of_used {l : Nat} (hr : (s.port n).tx.retired = some l) (hl : l ≠ lane) :
    exec (.laneSpareRequest n lane) s = .next ((s.updPort n (fun y => { y with tx := y.tx.fail lane })).train n) := by
  show execLaneSpareRequest n lane s = _
  simp only [execLaneSpareRequest, State.spareRequest, Nat.not_le.mpr hn, Nat.not_le.mpr hlane, hu, hq, hr, Option.some.injEq, hl,
    Option.isSome_some, Bool.not_true, Bool.false_eq_true, or_self, true_or, if_false, if_true]
end Request
end Lanes

/-! ### Training (R380 to R382) -/

/-- Lanes with which a port can go on, of those that trained: 8 where the spare makes up for the failing lanes, else 4. -/
def SpanPort.most (x : SpanPort) (lanes : Nat) : Nat := min lanes (if x.tx.full && x.rx.full then 8 else 4)

theorem SpanPort.most_eq (x : SpanPort) (lanes : Nat) :
    x.most lanes = min lanes (if x.tx.failing.length ≤ 1 ∧ x.rx.failing.length ≤ 1 then 8 else 4) := by
  simp only [SpanPort.most, LaneSide.full, Bool.and_eq_true, decide_eq_true_eq]

/-- A port as training leaves it: with the peer it found and the credit of its buffer, its replay buffer sent again. -/
def SpanPort.linked (x : SpanPort) (st : PortState) (w : Nat) (tx rx : LaneSide) (e q room : Nat) : SpanPort :=
  let y : SpanPort := { x with
    state := st, lanes := w, peerEngine := e % 4096, peerPort := q % 32, credit := room - x.replay.length, owed := 0, tx := tx, rx := rx }
  ({ y with retiredLane := y.retiredOf } : SpanPort).resend.pump

section Training
variable {s : State} {n lanes : Nat} (e q room : Nat) (hn : n < 32) (ht : (s.port n).state = .training)
include hn ht

/-- The outcome of a training by the lanes with which the port can go on. -/
theorem exec_portTrainingDone_of_training :
    exec (.portTrainingDone n lanes e q room) s = .next (
      if (s.port n).most lanes < 4 then
        (((s.setPort n { s.port n with state := .down, lanes := 0 }).portEvent n).reroute n (some stPeerLost)).updPort n SpanPort.unlink
      else if 8 ≤ (s.port n).most lanes then
        (s.setPort n ((s.port n).linked .up 8 (s.port n).tx.trained (s.port n).rx.trained e q room)).portEvent n
      else (s.setPort n ((s.port n).linked .narrow 4 (s.port n).tx (s.port n).rx e q room)).portEvent n) := by
  show execPortTrainingDone n lanes e q room s = _
  simp only [execPortTrainingDone, Nat.not_le.mpr hn, ht, ne_eq, not_true_eq_false, or_self, if_false]
  rw [← SpanPort.most]
  generalize (s.port n).most lanes = m
  split_ifs <;> rfl
end Training

/-- A port in DOWN trains again; it has no operation to move (R381). -/
theorem exec_portRetryTimer_of_down {s : State} {n : Nat} (hn : n < 32) (hd : (s.port n).state = .down) :
    exec (.portRetryTimer n) s = .next ((s.updPort n (fun y => { y with
      state := .training, lanes := 0, request := none,
      retrains := if s.start.phase = .ready then satInc16 y.retrains else y.retrains })).portEvent n) := by
  have hu : (s.port n).usable = false := by simp [SpanPort.usable, hd]
  show execPortRetryTimer n s = _
  simp only [execPortRetryTimer, hn, hd, and_self, if_true, State.train, hu, Bool.false_eq_true, if_false]

/-- Settles O23: flits by their checks, kind and number, payloads by what they wait for, lanes by the spare, and training by the
lanes with which the port can go on. -/
theorem flitResults : Obligations.FlitResults := by
  refine ⟨fun s n seq corrected i flit bad hn hl => ?flits, fun x no payload rest hw => ?sends, fun s n lane lanes e q room hn => ?links⟩
  case flits =>
    refine ⟨fun hgood hkind hseq => exec_flitReceive_of_data corrected hn hl hgood hkind hseq,
      fun hgood hkind => exec_flitReceive_of_control corrected hn hl hgood hkind (by decide),
      fun hgood hkind => exec_flitReceive_of_control corrected hn hl hgood hkind (by decide),
      fun hgood hkind => ?link,
      fun h => exec_flitReceive_of_rejected corrected hn hl h,
      fun hgood hkind hseq hdisc => exec_flitReceive_of_discarded corrected hn hl hgood hkind hseq hdisc,
      fun hi => exec_nakReceive_of_held hn hl hi⟩
    case link =>
      refine (exec_flitReceive_of_control corrected hn hl hgood hkind (by decide)).trans ?_
      rw [field_payload_zero]
      rfl
  case sends => exact ⟨SpanPort.sendOne_of_blocked hw, SpanPort.sendOne_of_room hw⟩
  case links =>
    refine ⟨fun hu hin => ⟨?spare, ?noSpare, ?spareUsed, ?spareFree⟩, fun hu hlane => ⟨?answer, ?request, ?used⟩, fun ht h8 => ?up,
      fun ht h4 h8 => ?narrow, fun ht h4 => ?down, fun hd => exec_portRetryTimer_of_down hn hd⟩
    case spare => exact exec_laneFailing_of_spare hn hu hin
    case noSpare => exact exec_laneFailing_of_no_spare hn hu hin
    case spareUsed =>
      rintro rfl h
      exact (exec_laneFailing_eight hn hu hin).trans (congrArg _ (if_pos h))
    case spareFree =>
      rintro rfl h
      exact (exec_laneFailing_eight hn hu hin).trans (congrArg _ (if_neg h))
    case answer => exact exec_laneSpareRequest_of_answer hn hu hlane
    case request => exact exec_laneSpareRequest_of_free hn hu hlane
    case used => exact fun _ hq => exec_laneSpareRequest_of_used hn hu hlane hq
    case up =>
      rw [← SpanPort.most_eq] at h8
      rw [exec_portTrainingDone_of_training e q room hn ht, if_neg (show ¬ (s.port n).most lanes < 4 by omega), if_pos h8]
      rfl
    case narrow =>
      rw [← SpanPort.most_eq] at h4 h8
      rw [exec_portTrainingDone_of_training e q room hn ht, if_neg (Nat.not_lt.mpr h4), if_neg (Nat.not_le.mpr h8)]
      rfl
    case down =>
      rw [← SpanPort.most_eq] at h4
      rw [exec_portTrainingDone_of_training e q room hn ht, if_pos h4]
      rfl

end Sys2Proof.Machine
end

section
/-! SUPPORT. An acknowledged operation that a command issued (R285, R389, O24). -/

namespace Sys2Proof.Machine

/-- An ATOMIC_ADD that belongs to command 1 of block 1, with the identity of request 0 of core 0. -/
def commandAdd : SpanOp :=
  { core := 0, cmd := some (1, 1), part := 0, lpos := 0, op := 3, lsem := 0, dispatch := 0, req := 0, engine := 7, dstPart := 0,
    window := 0, offset := 0, arg := 0, length := 8, dstOff := 0, data := [], port := 0, got := 0, acked := false, flits := [] }

/-- That operation is out, and core 0 waits for its own request 0. -/
def commandAddOut : State :=
  let w : SpanWait := { tag := 0, opId := 0, src := (0, 0), dst := (0, 0), racedSrc := false, racedDst := false }
  { State.reset with
    span := { SpanState.reset with ops := [commandAdd] }
    cores := [(0, { Core.reset with run := { CoreRun.reset with spanWaits := [w] } })] }

/-- The acknowledgement of that operation. -/
def commandAddAck : List Byte := mkPacket 8 0 0 0 0xFFE 0 7 0 0 0 0 []

/-- Requests that core 0 waits for. -/
def coreWaits (s : State) : Nat := (s.core 0).run.spanWaits.length

/-- The acknowledged operation of a command is dropped, and no core's wait with it. -/
theorem coreWaits_arrive_commandAddAck : (commandAddOut.arrive 0 commandAddAck).map coreWaits = some 1 := by decide

/-- The completion of an operation of a core takes the wait of that core away. -/
theorem coreWaits_opDone_commandAdd : coreWaits ((commandAddOut.opDone commandAdd).portDrained commandAdd.port) = 0 := by decide

/-- Refutes O24: its clause on an acknowledgement has no premise `o.cmd = none` for ATOMIC_ADD. The acknowledgement of an
operation that a command issued only drops the operation, while the clause lets the core with that identity go on. The model's
commands issue segments and WRITE alone, so the premise leaves out no operation that a core issues. -/
theorem not_spanPacketResults : ¬ Obligations.SpanPacketResults := by
  intro ⟨_, hanswers, _⟩
  obtain ⟨_, hcompletes, _⟩ := hanswers State.reset commandAddOut State.reset 0 commandAddAck commandAdd ⟨0, 0, 0⟩
  obtain ⟨hack, _⟩ := hcompletes (by decide) (by decide) (by decide) (by decide)
  have hwaits := congrArg (Option.map coreWaits) (hack (by decide) (.inl rfl))
  rw [coreWaits_arrive_commandAddAck, Option.map_some, coreWaits_opDone_commandAdd] at hwaits
  exact absurd hwaits (by decide)

end Sys2Proof.Machine
end

section
/-! SUPPORT. Collectives and the span commands: identity and ports, routes, windows, groups and port records (R383 to R401, O25). -/

namespace Sys2Proof.Machine

/-! ### Collectives (R391, R397 to R399) -/

/-- A collective at its completion: what raced with its parts is open, and the owned segments are folded. -/
def State.foldColl (s : State) (p : Nat) (g : Group) (r : CollRun) : State × CollRun :=
  let o := s.openParts g.parts r
  o.1.foldOwned p g o.2

/-- The results of a collective for the local parts that have joined it, once all are here. -/
def CollRun.results (r : CollRun) (parts : Nat) : Option (List (CollJoin × List Byte)) :=
  r.joins.mapM (fun j => (r.result parts j.idx).map (fun bs => (j, bs)))

section Collective
variable {s : State} {p gi : Nat} {x : Partition} {g : Group} {r : CollRun} (hx : s.part p = some x) (hg : x.group gi = some g)
  (hr : s.span.colls.find? (fun r => r.part == p && r.group == gi && !r.finished && decide (r.op ≠ 0)) = some r)
include hx hg hr

theorem exec_collectiveComplete_of_missing (h : r.joins.length < g.ppe) : exec (.collectiveComplete p gi) s = .next s := by
  show execCollectiveComplete p gi s = _
  simp only [execCollectiveComplete, hx, Option.bind_some, hg, hr, if_pos h]

section Joined
variable (h : g.ppe ≤ r.joins.length)
include h

/-- Every local part has joined, but a result is still missing: what could be folded is kept. -/
theorem exec_collectiveComplete_of_waiting (hres : (s.foldColl p g r).2.results g.parts = none) :
    exec (.collectiveComplete p gi) s = .next ((s.foldColl p g r).1.setColl r (s.foldColl p g r).2) := by
  simp only [State.foldColl, CollRun.results] at hres
  show execCollectiveComplete p gi s = _
  simp only [execCollectiveComplete, hx, Option.bind_some, hg, hr, if_neg (Nat.not_lt.mpr h), hres, State.foldColl]

/-- Every local part has joined and the results are here: each core that takes part receives its own. -/
theorem exec_collectiveComplete_of_results {rs : List (CollJoin × List Byte)}
    (hres : (s.foldColl p g r).2.results g.parts = some rs) :
    exec (.collectiveComplete p gi) s = .next ((rs.foldl (fun u y => u.deliverColl y.1 y.2)
      ((s.foldColl p g r).1.setColl r (s.foldColl p g r).2)).setColl (s.foldColl p g r).2
        { (s.foldColl p g r).2 with finished := true }) := by
  simp only [State.foldColl, CollRun.results] at hres
  show execCollectiveComplete p gi s = _
  simp only [execCollectiveComplete, hx, Option.bind_some, hg, hr, if_neg (Nat.not_lt.mpr h), hres, State.foldColl]
end Joined
end Collective

/-- A part whose identity was applied before is acknowledged and discarded (R391, R398). -/
theorem State.arriveColl_of_applied {u : State} {n : Nat} {k : Pkt} {g : Group} (hp : u.portPart n = some k.dstP) (hidx : k.idx ≠ 0x7FF)
    (hg : (u.part k.dstP).bind (fun y => y.group k.group) = some g) (hm : g.members[k.idx / max g.ppe 1]? = some (k.srcE, k.srcP))
    (hnew : u.span.colls.find? (fun r => (r.part == k.dstP && r.group == k.group) && r.ids.contains (k.idx, k.req)) = none)
    (hold : u.newerAt (collKey k) k = false) : u.arriveColl n k = u.duplicate n k k.arg := by
  simp only [State.arriveColl, hp, noIdx, hidx, hg, hm, hnew, hold, ne_eq, not_true_eq_false, Bool.not_false, if_false, if_true]

/-! ### OP_SPAN_CONFIG (R381, R386, R401) -/

/-- The 32 ports follow their bits of an OP_SPAN_CONFIG: they begin to train, drain, stop, or train again under another
engine number. -/
def State.configPorts (s : State) (k : Cmd) : State :=
  (List.range 32).foldl (fun (u : State) n =>
    let want := bitOf (k.p 4 4) n
    let v := u.updPort n (fun y => { y with enabled := want })
    if want = true ∧ (u.port n).enabled = false then (v.updPort n (fun y => { y with state := .training })).portEvent n
    else if want = false ∧ (u.port n).enabled = true then
      if (u.port n).usable then ((v.updPort n (fun y => { y with state := .draining })).portEvent n).portDrained n
      else (v.updPort n (fun y => { y.unlink with state := .disabled, lanes := 0 })).portEvent n
    else if want = true ∧ k.p 0 4 ≠ s.span.engineId then v.train n
    else v)
  { s with span := { s.span with engineId := k.p 0 4, timeoutUs := if k.p 8 4 = 0 then 1000 else k.p 8 4 } }

section Commands
variable {s : State} {c : CmdRef} {k : Cmd}

theorem exec_opSpanConfig_of_valid (hat : AtPoint s c k 0x0901) (hid : k.p 0 4 < 0xFFF)
    (ht : k.p 8 4 = 0 ∨ (10 ≤ k.p 8 4 ∧ k.p 8 4 ≤ 1000000)) (hzero : k.p 12 4 = 0) :
    exec (.opSpanConfig c) s = .next (s.unlessLost c ((s.configPorts k).endCmd c Fin.ok).settle) := by
  have hgood : ¬ (0xFFF ≤ k.p 0 4 ∨ (if k.p 8 4 = 0 then 1000 else k.p 8 4) < 10 ∨ 1000000 < (if k.p 8 4 = 0 then 1000 else k.p 8 4) ∨
      k.p 12 4 ≠ 0) := by
    split <;> omega
  show execOpSpanConfig c s = _
  rw [execOpSpanConfig, State.gate_of_atPoint (always := false) hat rfl]
  simp only [if_neg hgood, Bool.not_eq_true', decide_eq_true_eq]
  rfl

theorem exec_opSpanConfig_of_bad_engine (hat : AtPoint s c k 0x0901) (hid : 0xFFF ≤ k.p 0 4) :
    exec (.opSpanConfig c) s = .next (s.unlessLost c (s.endCmd c (Fin.bare stSpanParam)).settle) := by
  show execOpSpanConfig c s = _
  rw [execOpSpanConfig, State.gate_of_atPoint (always := false) hat rfl]
  simp only [hid, true_or, if_true]

/-! ### OP_SPAN_ROUTE and OP_SPAN_WINDOW (R383, R385, R386) -/

section Open
variable {x : Partition} (hx : s.part (k.home c) = some x) (hconf : x.confidential = false) (hquiet : s.partQuiet c (k.home c) = true)
include hx hconf hquiet

theorem exec_opSpanRoute_of_valid (hat : AtPoint s c k 0x0902) (hw : k.p 0 4 < 2 ^ 9) (hd : k.p 4 4 < 0xFFF)
    (hown : (bitsSet (k.p 8 4) 32).all (fun n => s.portPart n == some (k.home c)) = true) :
    exec (.opSpanRoute c) s = .next (s.unlessLost c ((s.updPart (k.home c) (fun y => { y with span := { y.span with
      routes := SMap.set none y.span.routes (k.p 0 4 % 64)
        (if bitOf (k.p 0 4) 6 then some { dest := k.p 4 4, forward := bitOf (k.p 0 4) 7, mask := k.p 8 4 } else none) } })).endCmd c
          Fin.ok).settle) := by
  show execOpSpanRoute c s = _
  rw [execOpSpanRoute, State.gate_of_atPoint (always := false) hat rfl]
  simp only [hx, hown, Nat.not_le.mpr hw, Nat.not_le.mpr hd, hconf, Partition.tdiLocks, hquiet, Bool.not_true, Bool.false_and,
    Bool.false_eq_true, false_and, or_self, if_false]

section Window
variable (hat : AtPoint s c k 0x0903) (hw : k.p 0 4 < 2 ^ 13) (hsrc : k.p 4 4 < 2 ^ 28) (hres : k.p 4 4 / 2 ^ 12 % 16 = 0)
  (hparts : k.p 8 4 < 256) (hbase : k.p 0x10 8 < 2 ^ 48) (hsize : k.p 0x18 8 < 2 ^ 48) (hround : k.p 0x18 8 % 64 = 0)
include hat hw hsrc hres hparts hbase hsize hround

/-- Kind 0 takes a window away. -/
theorem exec_opSpanWindow_of_none (hkind : bitsOf (k.p 0 4) 7 6 = 0) (htgt : k.p 12 4 < 2 ^ 11) :
    exec (.opSpanWindow c) s = .next (s.unlessLost c ((s.updPart (k.home c) (fun y => { y with span := { y.span with
      windows := SMap.set none y.span.windows (k.p 0 4 % 64) none } })).endCmd c Fin.ok).settle) := by
  have hzero : bitsOf (k.p 4 4) 15 12 = 0 := hres
  show execOpSpanWindow c s = _
  rw [execOpSpanWindow, State.gate_of_atPoint (always := false) hat rfl]
  simp only [hx, hkind, hw, hsrc, hzero, hparts, hbase, hsize, hround, htgt, hconf, Partition.tdiLocks, hquiet]
  rfl

/-- Kind 2 opens a window on the SPAD of a core of the partition. -/
theorem exec_opSpanWindow_of_spad (hkind : bitsOf (k.p 0 4) 7 6 = 2) (htgt : k.p 12 4 < 128 * x.dies.length)
    (hfit : k.p 0x10 8 + k.p 0x18 8 ≤ 0x400000) :
    exec (.opSpanWindow c) s = .next (s.unlessLost c ((s.updPart (k.home c) (fun y => { y with span := { y.span with
      windows := SMap.set none y.span.windows (k.p 0 4 % 64) (some {
        spad := true, perm := bitsOf (k.p 0 4) 10 8, bulk := bitOf (k.p 0 4) 11, srcEngine := k.p 4 4 % 4096,
        srcMask := bitsOf (k.p 4 4) 27 16, srcParts := k.p 8 1, target := k.p 12 4, base := k.p 0x10 8,
        size := k.p 0x18 8 }) } })).endCmd c Fin.ok).settle) := by
  have hzero : bitsOf (k.p 4 4) 15 12 = 0 := hres
  show execOpSpanWindow c s = _
  rw [execOpSpanWindow, State.gate_of_atPoint (always := false) hat rfl]
  simp only [hx, hkind, hw, hsrc, hzero, hparts, hbase, hsize, hround, htgt, Cu.spadBytes, hfit, hconf, Partition.tdiLocks, hquiet]
  rfl
end Window
end Open

/-! ### OP_COLL_GROUP (R396) -/

theorem bitsOf_of_lt {v lo : Nat} (h : v < 2 ^ lo) (hi : Nat) : bitsOf v hi lo = 0 := by
  rw [bitsOf, Nat.div_eq_of_lt h, Nat.zero_mod]

/-- The members that an OP_COLL_GROUP lists. -/
def Cmd.groupMembers (k : Cmd) : List (Nat × Nat) :=
  (List.range (bitsOf (k.p 0 4) 7 4)).map (fun i => (k.p (8 + 4 * i) 4 % 4096, bitsOf (k.p (8 + 4 * i) 4) 14 12))

/-- The group that an OP_COLL_GROUP defines. -/
def Cmd.newGroup (k : Cmd) : Group :=
  { ppe := bitsOf (k.p 0 4) 15 8 + 1, members := k.groupMembers, digest := Config.groupDigest (k.pBytes 0 40), mismatch := false }

/-- A group of a partition is defined, and compared with the digests that its members have sent. -/
def State.defineGroup (s : State) (p gi : Nat) (g : Group) : State :=
  s.updPart p (fun y => ({ y with span := { y.span with groups := SMap.set none y.span.groups gi (some g) } } : Partition).compareDigests gi)

theorem exec_opCollGroup_of_valid (hat : AtPoint s c k 0x0904) (hw : k.p 0 4 < 2 ^ 16) (h4 : k.p 4 4 = 0)
    (hlo : 1 ≤ bitsOf (k.p 0 4) 7 4) (hhi : bitsOf (k.p 0 4) 7 4 ≤ 8) (hres : ∀ i, i < 8 → k.p (8 + 4 * i) 4 < 2 ^ 15)
    (hids : ∀ m ∈ k.groupMembers, m.1 < 0xFFF) (hself : (k.groupMembers.filter (fun m => m.1 == s.span.engineId)).length = 1) :
    exec (.opCollGroup c) s = .next (s.unlessLost c (((k.groupMembers.filter (fun m => m.1 != s.span.engineId)).foldl
      (fun u m => u.sendDigest (k.home c) (k.p 0 4 % 16) m k.newGroup.digest)
      (s.defineGroup (k.home c) (k.p 0 4 % 16) k.newGroup)).endCmd c Fin.ok).settle) := by
  have hzeros : (List.range 8).all (fun i => bitsOf (k.p (8 + 4 * i) 4) 31 15 == 0) = true :=
    List.all_eq_true.mpr fun i hi => beq_iff_eq.mpr (bitsOf_of_lt (hres i (List.mem_range.mp hi)) 31)
  have hall : k.groupMembers.all (fun m => decide (m.1 < 0xFFF)) = true := List.all_eq_true.mpr fun m hm => decide_eq_true (hids m hm)
  have hcount : ((k.groupMembers.filter (fun m => m.1 == s.span.engineId)).length == 1) = true := beq_iff_eq.mpr hself
  have hmembers : (List.range (bitsOf (k.p 0 4) 7 4)).map (fun i => (k.p (8 + 4 * i) 4 % 4096, bitsOf (k.p (8 + 4 * i) 4) 14 12)) =
    k.groupMembers := rfl
  show execOpCollGroup c s = _
  rw [execOpCollGroup, State.gate_of_atPoint (always := false) hat rfl]
  simp only [hmembers, hw, h4, hlo, hhi, hzeros, hall, hcount]
  rfl

/-! ### OP_SPAN_STAT (R386, R400) -/

theorem and_statMask_of_lt {v : Nat} (h : v < 32) : v &&& 0x11F = v := by
  have hall : ∀ v < 32, v &&& 0x11F = v := by decide
  exact hall v h

/-- On the ports of the module itself the record of any port is the output, whoever owns it. -/
theorem exec_opSpanStat_of_output {t : State} {f : Fin} (hat : AtPoint s c k 0x0905) (hw : k.p 0 4 < 32) (h4 : k.p 4 4 = 0)
    (haddr : k.p 8 8 < 2 ^ 48) (htenant : portOf c.block ≠ 1) (hdebug : portOf c.block ≠ 3)
    (hout : s.output c { part := partOfBlock c.block, ctx := none } (k.p 8 8) (leBytes 32 (s.portRecord (k.p 0 4))) Fin.ok = (t, some f)) :
    exec (.opSpanStat c) s = .next (s.unlessLost c (t.endCmd c f).settle) := by
  have hkeep : bitOf (k.p 0 4) 8 = false := by rw [bitOf, Nat.div_eq_of_lt (by omega)]; rfl
  show execOpSpanStat c s = _
  rw [execOpSpanStat, State.gate_of_atPoint (always := false) hat rfl]
  simp only [and_statMask_of_lt hw, Nat.mod_eq_of_lt hw, h4, Nat.not_le.mpr haddr, htenant, beq_eq_false_iff_ne.mpr hdebug, hkeep, ne_eq,
    not_true_eq_false, decide_false, Bool.false_and, Bool.or_self, Bool.and_false, Bool.false_eq_true, false_and, or_self, if_false]
  cases s.portPart (k.p 0 4) <;> simp only [Bool.false_eq_true, if_false, hout]

/-- A tenant reads the ports of its own dies alone. -/
theorem exec_opSpanStat_of_foreign {p : Nat} (hp : k.home c = p) (hat : AtPoint s c k 0x0905) (htenant : portOf c.block = 1)
    (hown : s.portPart (k.p 0 4 % 32) ≠ some p) :
    exec (.opSpanStat c) s = .next (s.unlessLost c (s.endCmd c (Fin.bare stSpanParam)).settle) := by
  subst hp
  show execOpSpanStat c s = _
  rw [execOpSpanStat, State.gate_of_atPoint (always := false) hat rfl]
  simp only [htenant, hown, decide_true, ne_eq, not_false_eq_true, and_self, or_true, if_true]
end Commands

/-- Settles O25: a collective by whether its parts have joined and its results are here, and each span command at its point by
the lemma of its fields. -/
theorem spanCommandResults : Obligations.SpanCommandResults := by
  refine ⟨fun s u p gi n x g r k => ⟨fun hx hg hr => ⟨fun h => ?missing, fun h => ⟨fun hnone => ?waits, fun rs hrs => ?complete⟩⟩,
    fun hp hidx hg hm hnew hold => ?applied⟩, fun s t c k x f => ⟨?config, ?badEngine, fun hx hconf hquiet => ⟨?route, ?close, ?spad⟩,
      ?group, ?stat, ?foreign⟩⟩
  case missing => exact exec_collectiveComplete_of_missing hx hg hr h
  case waits => exact exec_collectiveComplete_of_waiting hx hg hr h hnone
  case complete => exact exec_collectiveComplete_of_results hx hg hr h hrs
  case applied => exact State.arriveColl_of_applied hp hidx hg hm hnew hold
  case config => exact exec_opSpanConfig_of_valid
  case badEngine => exact exec_opSpanConfig_of_bad_engine
  case route => exact exec_opSpanRoute_of_valid hx hconf hquiet
  case close =>
    exact fun hat hw hkind hsrc hres hparts hbase hsize hround htgt =>
      exec_opSpanWindow_of_none hx hconf hquiet hat hw hsrc hres hparts hbase hsize hround hkind htgt
  case spad =>
    exact fun hat hw hkind hsrc hres hparts hbase hsize hround htgt hfit =>
      exec_opSpanWindow_of_spad hx hconf hquiet hat hw hsrc hres hparts hbase hsize hround hkind htgt hfit
  case group => exact exec_opCollGroup_of_valid
  case stat => exact exec_opSpanStat_of_output
  case foreign => exact exec_opSpanStat_of_foreign rfl

end Sys2Proof.Machine
end

section
/-! SUPPORT. The gate of a queue command and the checks in front of it (R404, R433 to R436, R443, R444, R452, O29 to O31). -/

namespace Sys2Proof.Machine

/-! ### The gate of a command that has been copied (R404, R433, R434, R436) -/

/-- Every row that performs a queue command does so behind the gate of its opcode. -/
theorem exec_of_queueRow {i : Instr} {c : CmdRef} {op : Nat} {always : Bool} (h : queueRow i = some (c, op, always)) (s : State) :
    ∃ f, exec i s = .next (s.gate c op always f) := by
  unfold queueRow at h
  split at h <;> cases h <;> exact ⟨_, rfl⟩

section Copied
variable {s : State} {i : Instr} {c : CmdRef} {op : Nat} {always : Bool} {k : Cmd} (hrow : queueRow i = some (c, op, always))
  (hcmd : s.cmd c = some k) (hop : k.opcode = op) (hserves : s.serves c.block = true) (hphase : k.phase = .copied)
include hrow hcmd hop hserves hphase

/-- A command waits for its turn. -/
theorem exec_of_not_turn (hturn : s.mayValidate c k = false) : exec i s = .next s := by
  obtain ⟨f, hgate⟩ := exec_of_queueRow hrow s
  simp [hgate, State.gate, hcmd, hop, hserves, hphase, hturn]

theorem exec_of_denied {x : Nat} (hturn : s.mayValidate c k = true) (hv : s.validate c k = .denied x) :
    exec i s = .next ((s.deny c k x).settle) := by
  obtain ⟨f, hgate⟩ := exec_of_queueRow hrow s
  simp [hgate, State.gate, hcmd, hop, hserves, hphase, hturn, hv]

theorem exec_of_failed {f : Fin} (hturn : s.mayValidate c k = true) (hv : s.validate c k = .fail f) :
    exec i s = .next ((s.endCmd c f).settle) := by
  obtain ⟨f, hgate⟩ := exec_of_queueRow hrow s
  simp [hgate, State.gate, hcmd, hop, hserves, hphase, hturn, hv, State.finish]

/-- A command that has passed its checks waits for its context. -/
theorem exec_of_not_ready (hturn : s.mayValidate c k = true) (hv : s.validate c k = .pass)
    (hready : (s.updCmd c (fun j => { j with phase := .waiting })).ready c k always = false) :
    exec i s = .next (s.updCmd c (fun j => { j with phase := .waiting })).settle := by
  obtain ⟨f, hgate⟩ := exec_of_queueRow hrow s
  simp [hgate, State.gate, hcmd, hop, hserves, hphase, hturn, hv, hready]
end Copied

/-- Settles O29: at the gate a copied command has not its turn, or has one of the three verdicts. -/
theorem commandsAreCheckedFirst : Obligations.CommandsAreCheckedFirst :=
  fun _ _ _ _ _ _ hrow hcmd hop hserves hphase =>
    ⟨exec_of_not_turn hrow hcmd hop hserves hphase, fun hturn =>
      ⟨fun _ hv => exec_of_denied hrow hcmd hop hserves hphase hturn hv, fun _ hv => exec_of_failed hrow hcmd hop hserves hphase hturn hv,
        exec_of_not_ready hrow hcmd hop hserves hphase hturn⟩⟩

/-! ### Steps 3 to 9 of R433 in their order -/

/-- RETURNED and TERMINATED, the states from 4 up, admit only five opcodes on any port (R444). -/
theorem State.lcAdmits_of_retired {s : State} {op : Nat} (port : Nat) (hlc : 4 ≤ s.lcState)
    (hop : op ∉ [0x0701, 0x0702, 0x0703, 0x0801, 0x0803]) : s.lcAdmits op port = false := by
  have hread : op ∉ [0x0701, 0x0702, 0x0703] := fun h => hop (List.mem_append_left [0x0801, 0x0803] h)
  have hfirst : op ∉ [0x0701, 0x0702] := fun h => hread (List.mem_append_left [0x0703] h)
  have h1 : s.lcState ≠ 1 := by omega
  have h2 : s.lcState ≠ 2 := by omega
  have h3 : s.lcState ≠ 3 := by omega
  simp only [State.lcAdmits, hop, hread, hfirst, h1, h2, h3, and_false, decide_false, Bool.and_false, Bool.false_and, if_false, ite_self]

section Checks
variable {s : State} {c : CmdRef} {k : Cmd}

theorem State.validate_of_port (hport : k.portOk c.block = false) : s.validate c k = .denied 0 := by
  simp [State.validate, hport]

variable (hport : k.portOk c.block = true)
include hport

theorem State.validate_of_header {off : Nat} (hhead : k.headerFault c.block = some off) :
    s.validate c k = .fail (Fin.with stHeaderInvalid off) := by
  simp [State.validate, hport, hhead]

variable (hhead : k.headerFault c.block = none)
include hhead

theorem State.validate_of_lcState (hlc : s.lcAdmits k.opcode (portOf c.block) = false) : s.validate c k = .fail (Fin.bare stLcState) := by
  simp [State.validate, hport, hhead, hlc]

variable (hlc : s.lcAdmits k.opcode (portOf c.block) = true)
include hlc

/-- A command of the engine has no partition whose state could end it; the confidential partition that it touches refuses it. -/
theorem State.validate_of_engine_refused (hscope : k.scope c.block = .engine) (hconf : s.confRefuses k c.block = true) :
    s.validate c k = .denied 0x100000 := by
  simp [State.validate, hport, hhead, hlc, hscope, hconf]

/-- An engine command that nothing refuses is held to the length of its block. -/
theorem State.validate_of_engine (hscope : k.scope c.block = .engine) (hconf : s.confRefuses k c.block = false) :
    s.validate c k = if k.lenReq.2 then .pass else .fail (Fin.with stParamLen (k.paramLen + k.lenReq.1 % 65536 * 65536)) := by
  simp [State.validate, hport, hhead, hlc, hscope, hconf]

section OfPartition
variable {q : Nat} (hscope : k.scope c.block ≠ .engine) (hpart : k.partOf c.block = some q)
include hscope hpart

theorem State.validate_of_partCheck {f : Fin} (hcheck : s.partCheck k q = some f) : s.validate c k = .fail f := by
  simp [State.validate, hport, hhead, hlc, hscope, hpart, hcheck]

theorem State.validate_of_partition_refused (hcheck : s.partCheck k q = none) (hconf : s.confRefuses k c.block = true) :
    s.validate c k = .denied 0x100000 := by
  simp [State.validate, hport, hhead, hlc, hscope, hpart, hcheck, hconf]
end OfPartition

theorem State.validate_of_no_context {q : Nat} (hscope : k.scope c.block = .context) (hpart : k.partOf c.block = some q)
    (hcheck : s.partCheck k q = none) (hconf : s.confRefuses k c.block = false) (hctx : s.ctx q k.ctxField = none) :
    s.validate c k = .fail (Fin.bare stCtxInvalid) := by
  simp [State.validate, hport, hhead, hlc, hscope, hpart, hcheck, hconf, hctx]
end Checks

/-- Settles O30: step 5 of R433 comes after the port and the header alone, and no retired state admits the opcode. -/
theorem retiredStatesAdmitFiveOpcodes : Obligations.RetiredStatesAdmitFiveOpcodes := by
  intro s i c op always k hrow hcmd hop hserves hphase hturn hport hhead hretired hfive
  have hlc : s.lcAdmits k.opcode (portOf c.block) = false := State.lcAdmits_of_retired _ hretired (hop ▸ hfive)
  exact exec_of_failed hrow hcmd hop hserves hphase hturn (State.validate_of_lcState hport hhead hlc)

/-- Settles O31: each verdict is that of the first check that fails; a refusal by the port is counted and recorded before the
command ends. -/
theorem commandChecksInOrder : Obligations.CommandChecksInOrder := by
  intro s c k _ _ _
  refine ⟨State.validate_of_port, fun hport => ⟨fun _ => State.validate_of_header hport, fun hhead => ?verdicts⟩, fun _ => rfl⟩
  case verdicts =>
    refine ⟨State.validate_of_lcState hport hhead, fun hlc hscope hconf => State.validate_of_engine hport hhead hlc hscope hconf,
      fun q hlc hscope hpart => ?partition, fun hlc hscope hconf => State.validate_of_engine_refused hport hhead hlc hscope hconf⟩
    case partition =>
      exact ⟨fun f hcheck => State.validate_of_partCheck hport hhead hlc hscope hpart hcheck,
        fun hcheck hconf => State.validate_of_partition_refused hport hhead hlc hscope hpart hcheck hconf,
        fun hcheck hconf hctxScope hctx => State.validate_of_no_context hport hhead hlc hctxScope hpart hcheck hconf hctx⟩

end Sys2Proof.Machine
end

section
/-! SUPPORT. Rings: enabling and disabling, doorbells, packets taken and records written (R408, R412 to R434, O27). -/

namespace Sys2Proof.Machine

/-! ### A completion ring after a write (R405, R413) -/

theorem QBlock.ring_set_of_ne_reset (q : QBlock) (r : Nat) {g : Ring} (h : g ≠ Ring.reset) :
    ({ q with rings := SMap.set Ring.reset q.rings r g } : QBlock).ring r = g := SMap.get_set_self_of_ne _ _ _ h

theorem State.block_updBlock_of_ne_reset {s : State} {b : Nat} {f : QBlock → QBlock} (h : f (s.block b) ≠ QBlock.reset) :
    (s.updBlock b f).block b = f (s.block b) := SMap.get_set_self_of_ne _ _ _ h

/-- A ring pair that is not as it is at reset reads back, for its block then is not either (R405). -/
theorem State.ring_updRing_of_ne_reset {s : State} {b r : Nat} {f : Ring → Ring} (h : f (s.ring b r) ≠ Ring.reset) :
    (s.updRing b r f).ring b r = f (s.ring b r) := by
  have hring := (s.block b).ring_set_of_ne_reset r h
  rw [State.ring, State.updRing, State.block_updBlock_of_ne_reset fun hq => h (hring.symm.trans (congrArg (QBlock.ring · r) hq))]
  exact hring

theorem State.ring_updCq_of_ne_reset {s : State} {b r : Nat} {f : CqRegs → CqRegs} (h : f (s.ring b r).cq ≠ CqRegs.reset) :
    (s.updCq b r f).ring b r = { s.ring b r with cq := f (s.ring b r).cq } :=
  State.ring_updRing_of_ne_reset fun hg => h (congrArg Ring.cq hg)

/-! ### Enabling and disabling (R412, R413, R418 to R420, R432) -/

/-- The checks of R418 on the size of a ring, its bytes in host memory, and its place. -/
theorem ringFits_iff (lo elem size : Nat) (base : BitVec 48) (loc place : Bool) :
    (decide (lo ≤ size ∧ size ≤ 16) && (loc || ringBelow base elem size) && place) = true ↔
      lo ≤ size ∧ size ≤ 16 ∧ (loc = true ∨ base.toNat + elem * 2 ^ size ≤ 0xF00000000000) ∧ place = true := by
  simp only [ringBelow, Bool.and_eq_true, Bool.or_eq_true, decide_eq_true_eq, and_assoc]

/-- What R418 asks of a submission ring that is to be enabled with the size and the place that a write names. -/
abbrev State.SqFits (s : State) (b r : Nat) (v : Word) : Prop :=
  7 ≤ v.toNat / 0x10000 % 32 ∧ v.toNat / 0x10000 % 32 ≤ 16 ∧
  (v.getLsbD 30 = true ∨ (s.ring b r).sq.base.toNat + 64 * 2 ^ (v.toNat / 0x10000 % 32) ≤ 0xF00000000000) ∧
  s.ringPlace b (v.getLsbD 30) = true ∧ (s.ring b r).cq.state = .enabled

/-- The same of a completion ring. -/
abbrev State.CqFits (s : State) (b r : Nat) (v : Word) : Prop :=
  6 ≤ v.toNat / 0x10000 % 32 ∧ v.toNat / 0x10000 % 32 ≤ 16 ∧
  (v.getLsbD 30 = true ∨ (s.ring b r).cq.base.toNat + 32 * 2 ^ (v.toNat / 0x10000 % 32) ≤ 0xF00000000000) ∧
  s.ringPlace b (v.getLsbD 30) = true

section Enable
variable {s : State} {b r : Nat} {v : Word}

theorem State.sqEnable_of_on (h : (s.ring b r).sq.state ≠ .disabled) : s.sqEnable b r v = s := if_pos h

theorem State.sqEnable_of_off (h : (s.ring b r).sq.state = .disabled) :
    s.sqEnable b r v = if s.SqFits b r v then s.updSq b r (fun x => { x with
        loc := v.getLsbD 30, sizeLog2 := BitVec.ofNat 5 (v.toNat / 0x10000 % 32), cfgErr := false, state := .enabled, head := 0, tail := 0,
        expectSeq := 0 })
      else s.updSq b r (fun x => { x with cfgErr := true }) := by
  refine (if_neg (not_not.mpr h)).trans (if_congr ?_ rfl rfl)
  rw [Bool.and_eq_true, ringFits_iff, decide_eq_true_eq, State.SqFits]
  simp only [and_assoc]
  rfl

theorem State.sqDisable_of_on (h : (s.ring b r).sq.state = .enabled ∨ (s.ring b r).sq.state = .error) :
    s.sqDisable b r = ((s.updSq b r (fun x => { x with state := .draining })).sqDrained b r).settle := if_pos h

theorem State.cqEnable_of_on (h : (s.ring b r).cq.state ≠ .disabled) :
    s.cqEnable b r v = s.updCq b r (fun x => { x with irqEn := v.getLsbD 3, vector := v.extractLsb' 0 3 }) := if_pos h

theorem State.cqEnable_of_off (h : (s.ring b r).cq.state = .disabled) :
    s.cqEnable b r v = if s.CqFits b r v then s.updCq b r (fun x => { x with
        irqEn := v.getLsbD 3, vector := v.extractLsb' 0 3, loc := v.getLsbD 30, sizeLog2 := BitVec.ofNat 5 (v.toNat / 0x10000 % 32),
        cfgErr := false, state := .enabled, head := 0, tail := 0, phase := true, pendingIrq := 0, held := [] })
      else s.updCq b r (fun x => { x with cfgErr := true }) :=
  (if_neg (not_not.mpr h)).trans (if_congr (ringFits_iff ..) rfl rfl)

theorem State.cqDisable_of_sq_on (h : (s.ring b r).sq.state ≠ .disabled) : s.cqDisable b r = s := if_pos (.inl h)

theorem State.cqDisable_of_none_held (hsq : (s.ring b r).sq.state = .disabled) (hcq : (s.ring b r).cq.state ≠ .disabled)
    (hheld : (s.ring b r).cq.held = []) :
    s.cqDisable b r = (s.updCq b r (fun x => { x with state := .disabled, held := [] })).settle := by
  simp [State.cqDisable, hsq, hcq, hheld]
end Enable

/-! ### Doorbells (R33, R408, R414, R426) -/

/-- The host's grant that makes its IOMMU refuse a range replaces what was recorded of that range (R33). -/
theorem State.hostGrant_of_refused (s : State) (fn base : Nat) {size : Nat} (h : 0 < size) :
    s.hostGrant { fn := fn, swap := false, base := base, size := size, refuse := true } = { s with mem := { s.mem with
      hostRefused := (fn, base, base + size) :: s.mem.hostRefused.flatMap (fun q =>
        if q.1 = fn then (cutRefused base (base + size) q.2).map (fun z => (fn, z)) else [q]) } } := by
  simp [State.hostGrant, h]

section Doorbell
variable {s : State} {b r : Nat} {v : Word}

theorem State.sqTail_of_inside (h : v.toNat % 0x10000 < 2 ^ (s.ring b r).sq.sizeLog2.toNat) :
    s.sqTail b r v = s.updSq b r (fun x => { x with tail := BitVec.ofNat 16 (v.toNat % 0x10000) }) := by
  simp [State.sqTail, bitsOf, Nat.not_le.mpr h]

theorem State.sqTail_of_outside (h : 2 ^ (s.ring b r).sq.sizeLog2.toNat ≤ v.toNat % 0x10000) : s.sqTail b r v = s.doorbellErr b r := by
  simp [State.sqTail, bitsOf, h]

theorem State.cqHead_of_inside (h : v.toNat % 0x10000 < 2 ^ (s.ring b r).cq.sizeLog2.toNat)
    (hpass : (s.ring b r).cq.passes (v.toNat % 0x10000) = false) :
    s.cqHead b r v = s.updCq b r (fun x => { x with head := BitVec.ofNat 16 (v.toNat % 0x10000) }) := by
  simp [State.cqHead, bitsOf, Nat.not_le.mpr h, hpass]

theorem State.cqHead_of_outside
    (h : 2 ^ (s.ring b r).cq.sizeLog2.toNat ≤ v.toNat % 0x10000 ∨ (s.ring b r).cq.passes (v.toNat % 0x10000) = true) :
    s.cqHead b r v = s.doorbellErr b r := by
  simp [State.cqHead, bitsOf, h]
end Doorbell

/-! ### The registers of a ring pair of a module in service (R405) -/

section Up
variable {s : State} {b r : Nat} (hup : s.up = true) (hb : b < 9) (hr : r < 4)
include hup hb hr

theorem exec_sqEnable_of_up (v : Word) : exec (.sqEnable b r v) s = .next (s.sqEnable b r v) := congrArg _ (if_pos ⟨hup, hb, hr⟩)
theorem exec_cqEnable_of_up (v : Word) : exec (.cqEnable b r v) s = .next (s.cqEnable b r v) := congrArg _ (if_pos ⟨hup, hb, hr⟩)
theorem exec_sqDisable_of_up : exec (.sqDisable b r) s = .next (s.sqDisable b r) := congrArg _ (if_pos ⟨hup, hb, hr⟩)
theorem exec_cqDisable_of_up : exec (.cqDisable b r) s = .next (s.cqDisable b r) := congrArg _ (if_pos ⟨hup, hb, hr⟩)
theorem exec_sqTailWrite_of_up (v : Word) : exec (.sqTailWrite b r v [] []) s = .next (s.sqTail b r v) :=
  congrArg _ (if_pos ⟨hup, hb, hr⟩)
theorem exec_cqHeadWrite_of_up (v : Word) : exec (.cqHeadWrite b r v) s = .next (s.cqHead b r v) := congrArg _ (if_pos ⟨hup, hb, hr⟩)
end Up

/-! ### A packet is taken (R421, R425, R434) -/

/-- A packet of a right length and in sequence becomes a command in flight (steps 1 and 2 of R433). -/
theorem State.copyPacket_of_good {s : State} {b r n : Nat} {packet : List Byte} {k : Cmd}
    (hk : k = Cmd.copied (s.block b).nextId r packet
      (BitVec.ofNat 16 (((s.ring b r).sq.head.toNat + n) % 2 ^ (s.ring b r).sq.sizeLog2.toNat)))
    (hlen : k.paramLen ≤ 4096) (hseq : k.qseq = (s.ring b r).sq.expectSeq.toNat) :
    s.copyPacket b r packet n = (s.updSq b r (fun x => { x with head := k.sqHead, expectSeq := x.expectSeq + 1 })).updBlock b
      (fun x => { x with cmds := x.cmds ++ [k], nextId := x.nextId + 1 }) := by
  subst hk
  exact (if_neg (Nat.not_lt.mpr hlen)).trans (if_neg (not_not.mpr hseq))

/-- The turn moves on, the slots of the packet are read, and the packet is copied. -/
theorem State.fetch_of_read {s s1 s2 : State} {b r : Nat} {hdr rest : List Byte}
    (hhdr : (s.updBlock b (fun x => { x with turn := (r + 1) % 4 })).slotRead b (s.ring b r).sq (s.ring b r).sq.head.toNat = .ok hdr s1)
    (hrest : engAll (fun t i => t.slotRead b (s.ring b r).sq ((s.ring b r).sq.head.toNat + i)) s1
      ((List.range (slotsOf hdr - 1)).map (fun i => i + 1)) = .ok rest s2) :
    s.fetch b r = (s2.copyPacket b r (hdr ++ rest) (slotsOf hdr)).settle := by
  simp only [State.fetch, hhdr, hrest]

theorem exec_packetFetch_of_turn {s : State} {b r : Nat} (hup : s.up = true) (hb : b < 9) (hserves : b = 0 ∨ s.serves b = true)
    (hroom : (s.block b).cmds.length < 64) (hturn : s.turnRing b = some r) : exec (.packetFetch b r) s = .next (s.fetch b r) :=
  congrArg _ (if_pos ⟨hup, hb, hserves, hroom, hturn⟩)

/-! ### Records and interrupts (R428 to R431) -/

theorem exec_cqHeldRecordWrite_of_room {s : State} {b r : Nat} {h : HeldRec} {hs : List HeldRec}
    (hheld : (s.ring b r).cq.held = h :: hs) (hon : (s.ring b r).cq.state = .enabled) (hroom : (s.ring b r).cq.isFull = false) :
    exec (.cqHeldRecordWrite b r) s = .next (((s.updCq b r (fun x => { x with held := hs })).writeRecord b r h).settle) := by
  show execCqHeldRecordWrite b r s = _
  simp [execCqHeldRecordWrite, hheld, hon, hroom]

theorem exec_cqIrqDelayExpiry_of_pending {s : State} {b r : Nat} (hirq : (s.ring b r).cq.irqEn = true)
    (hdelay : (s.ring b r).cq.delay ≠ 0) (hpending : 0 < (s.ring b r).cq.pendingIrq) :
    exec (.cqIrqDelayExpiry b r) s = .next (s.signalCq b r) := by
  show execCqIrqDelayExpiry b r s = _
  simp only [execCqIrqDelayExpiry, hirq, bne_iff_ne.mpr hdelay, decide_eq_true hpending, Bool.and_self, if_true]

/-- A completion ring behind a written record, which counts for the interrupt unless its command asked for none (R429, R431). -/
def CqRegs.written (q : CqRegs) (h : HeldRec) : CqRegs :=
  { q.advance with pendingIrq := if h.noIrq then q.pendingIrq else q.pendingIrq + 1 }

/-- A ring without interrupts signals nothing: either its record counts for none, or the ring that counts it reads back with its
interrupts off. -/
theorem State.no_signal_of_written {s : State} {b r : Nat} {h : HeldRec} (hirq : (s.ring b r).cq.irqEn = false) :
    let q := ((s.updCq b r (fun q => q.written h)).ring b r).cq
    ¬ (q.irqEn = true ∧ (!h.noIrq) = true ∧ max q.count.toNat 1 ≤ q.pendingIrq) := by
  cases hno : h.noIrq with
  | true => simp
  | false =>
    have hcounted : (s.ring b r).cq.written h ≠ CqRegs.reset := fun hreset => by
      simpa [CqRegs.written, hno, CqRegs.reset] using congrArg CqRegs.pendingIrq hreset
    rw [State.ring_updCq_of_ne_reset hcounted]
    simp [CqRegs.written, CqRegs.advance, hirq]

/-- Host memory takes bytes that the host's IOMMU does not refuse to the ring's function (R33, R411). -/
theorem State.ringPut_of_host {s : State} {b a : Nat} {bs : List Byte}
    (hput : s.hostRefuses ((partOfBlock b).elim 0 (fun p => p + 1)) a bs.length = false) :
    s.ringPut b false a bs = some { s with mem := { s.mem with hostMem := Memory.write s.mem.hostMem a bs } } := by
  have hreq : ({ part := partOfBlock b, ctx := none } : Who).requester = (partOfBlock b).elim 0 (fun p => p + 1) := by
    unfold Who.requester
    cases partOfBlock b <;> rfl
  simp [State.ringPut, hreq, hput]

/-- A record of no command that host memory takes stands there with its phase, and the ring moves on. -/
theorem State.writeRecord_of_host {s : State} {b r : Nat} {h : HeldRec} (hloc : (s.ring b r).cq.loc = false)
    (hput : s.hostRefuses ((partOfBlock b).elim 0 (fun p => p + 1)) ((s.ring b r).cq.base.toNat + 32 * (s.ring b r).cq.tail.toNat)
      h.bytes.length = false)
    (hirq : (s.ring b r).cq.irqEn = false) (hcmd : h.cmd = none) :
    s.writeRecord b r h = ({ s with mem := { s.mem with
      hostMem := Memory.write s.mem.hostMem ((s.ring b r).cq.base.toNat + 32 * (s.ring b r).cq.tail.toNat)
        (withPhase h.bytes (s.ring b r).cq.phase) } } : State).updCq b r (fun q => q.written h) := by
  have hlen : (withPhase h.bytes (s.ring b r).cq.phase).length = h.bytes.length := List.length_set
  simp only [State.writeRecord, hloc, State.ringPut_of_host (hlen ▸ hput), hcmd]
  exact if_neg (State.no_signal_of_written hirq)

/-- Settles O27: each register of a ring pair, each doorbell and each act of the engine on a ring follows the lemma of its case. -/
theorem ringResults : Obligations.RingResults := by
  refine ⟨fun s b r v hup hb hr => ?registers, fun s b r v hup hb hr => ?doorbells, fun s b r => ?engine,
    fun s b r h hloc hput hirq hcmd => State.writeRecord_of_host hloc hput hirq hcmd⟩
  case registers =>
    rw [exec_sqEnable_of_up hup hb hr, exec_cqEnable_of_up hup hb hr, exec_sqDisable_of_up hup hb hr, exec_cqDisable_of_up hup hb hr]
    refine ⟨fun hon => ?_, fun hoff hfits => ?_, fun hoff hbad => ?_, fun hoff hfits => ?_, fun hoff hbad => ?_, fun hon => ?_,
      fun hon => ?_, fun hsq hcq hheld => ?_, fun hon => ?_⟩
    · rw [State.sqEnable_of_on hon]
    · rw [State.sqEnable_of_off hoff, if_pos hfits]
    · rw [State.sqEnable_of_off hoff, if_neg hbad]
    · rw [State.cqEnable_of_off hoff, if_pos hfits]
    · rw [State.cqEnable_of_off hoff, if_neg hbad]
    · rw [State.cqEnable_of_on hon]
    · rw [State.sqDisable_of_on hon]
    · rw [State.cqDisable_of_none_held hsq hcq hheld]
    · rw [State.cqDisable_of_sq_on hon]
  case doorbells =>
    rw [exec_sqTailWrite_of_up hup hb hr, exec_cqHeadWrite_of_up hup hb hr]
    refine ⟨fun hin => ?_, fun hout => ?_, fun w => rfl, fun fn base size hsize => ?_, fun hin hpass => ?_, fun hout => ?_, ?_⟩
    · rw [State.sqTail_of_inside hin]
    · rw [State.sqTail_of_outside hout]
      rfl
    · rw [← s.hostGrant_of_refused fn base hsize]
      rfl
    · rw [State.cqHead_of_inside hin (decide_eq_false hpass)]
    · rw [State.cqHead_of_outside (hout.imp_right decide_eq_true)]
      rfl
    · exact congrArg _ (if_pos ⟨hup, hb⟩)
  case engine =>
    refine ⟨fun hdr rest s1 s2 hup hb hserves hroom hturn hhdr hrest hlen hseq => ?_,
      fun h hs hheld hon hroom => exec_cqHeldRecordWrite_of_room hheld hon hroom,
      fun hirq hdelay hpending => exec_cqIrqDelayExpiry_of_pending hirq hdelay hpending⟩
    rw [exec_packetFetch_of_turn hup hb hserves hroom hturn, State.fetch_of_read hhdr hrest, State.copyPacket_of_good rfl hlen hseq]

end Sys2Proof.Machine
end

section
/-! SUPPORT. MCTP control, command packets and platform monitoring on MGMT (R402, R440, R573 to R576, O44). -/

namespace Sys2Proof.Machine

/-! ### Temperature sensors (R573, R575) -/

theorem sensorType_of_temperature {id : Nat} (h : id ≤ 0xB3) : sensorType id = 0 := if_pos h

/-- The IDs from 0 to 0xB3 are assigned without a gap. -/
theorem sensorIds_find?_of_temperature {id : Nat} (h : id < 0xB3) : sensorIds.find? (fun i => decide (id < i)) = some (id + 1) := by
  rw [sensorIds, List.find?_filter, List.find?_range_eq_some]
  refine ⟨?_, List.mem_range.mpr (by omega), fun j hj => ?_⟩
  · simp [sensorType_of_temperature (id := id + 1) (by omega)]
  · simp [Nat.le_of_lt_succ hj]

/-! ### Answers of a Steward that runs (R576) -/

section Running
variable {s : State} (hrun : s.stw.running = true)
include hrun

theorem State.mctpServes_of_running : s.mctpServes = true := by
  rw [State.mctpServes, hrun, Bool.true_or]

theorem State.mctp_of_running (bs : List Byte) : s.mctp bs = s.answer bs := if_pos (State.mctpServes_of_running hrun)

theorem State.pldm_of_running (bs : List Byte) : s.pldm bs = s.answer bs := if_pos hrun

/-! ### MCTP control -/

theorem exec_setEndpointId_of_set {eid : Nat} (hlo : 8 ≤ eid) (hhi : eid ≤ 254) : exec (.setEndpointId 0 eid) s =
    .next (({ s with mgmt := { s.mgmt with eid := eid } } : State).answer [0x00#8, 0x00#8, BitVec.ofNat 8 eid, 0x00#8]) := by
  show execSetEndpointId 0 eid s = _
  simp [execSetEndpointId, State.mctpServes_of_running hrun, Nat.not_lt.mpr hlo, Nat.not_lt.mpr hhi]

/-- IDs below 8 are reserved, whatever the operation. -/
theorem exec_setEndpointId_of_reserved (op : Nat) {eid : Nat} (h : eid < 8) :
    exec (.setEndpointId op eid) s = .next (s.answer [0x02#8]) := by
  show execSetEndpointId op eid s = _
  simp [execSetEndpointId, State.mctpServes_of_running hrun, h]

theorem exec_getMctpVersionSupport_of_known {ty : Nat} (h : ty = 0xFF ∨ ty = 0 ∨ ty = 1 ∨ ty = 0x7E) :
    exec (.getMctpVersionSupport ty) s = .next (s.answer [0x00#8, 0x01#8, 0xF1#8, 0xF3#8, 0xF1#8, 0x00#8]) := by
  have hknown : ty = 0xFF ∨ ty ∈ mctpTypes := by simpa [mctpTypes] using h
  show execGetMctpVersionSupport ty s = _
  rw [execGetMctpVersionSupport, if_pos hknown, State.mctp_of_running hrun]

/-! ### Command packets (R402, R440) -/

theorem exec_mgmtCommandPacket_of_running (debug : Bool) (packet : List Byte) :
    exec (.mgmtCommandPacket debug packet) s = .next (s.takePacket (if debug then 10 else 9) packet) := congrArg _ (if_pos hrun)

/-! ### Platform monitoring -/

/-- The record of a temperature sensor names the sensor that follows it. -/
theorem exec_getPdr_of_temperature {id : Nat} (h : id < 0xB3) : exec (.getPdr (id + 1)) s =
    .next (s.answer ([0x00#8] ++ leBytes 4 (id + 2) ++ leBytes 4 (id + 1) ++ leBytes 2 (id + 1) ++ leBytes 2 0)) := by
  show execGetPdr (id + 1) s = _
  simp [execGetPdr, State.pldm_of_running hrun, sensorType_of_temperature h.le, sensorIds_find?_of_temperature h, pldmOk]

theorem exec_getSensorReading_of_assigned {id : Nat} (h : sensorType id ≠ 0xF) :
    exec (.getSensorReading (id + 1)) s = .next (s.answer ([0x00#8] ++ s.sensorRecord id)) := by
  show execGetSensorReading (id + 1) s = _
  simp [execGetSensorReading, State.pldm_of_running hrun, h, pldmOk]

theorem exec_getSensorReading_of_unassigned {id : Nat} (h : sensorType id = 0xF) :
    exec (.getSensorReading (id + 1)) s = .next (s.answer [0x80#8]) := by
  show execGetSensorReading (id + 1) s = _
  simp [execGetSensorReading, State.pldm_of_running hrun, h]

/-- A poll that acknowledges nothing returns the oldest event not yet acknowledged. -/
theorem exec_poll_of_none (h : s.eventAt s.mgmt.pollSeq = none) :
    exec (.pollForPlatformEventMessage false) s = .next (s.answer [0x00#8, 0x00#8]) := by
  show execPollForPlatformEventMessage false s = _
  simp [execPollForPlatformEventMessage, hrun, h, pldmOk]

theorem exec_poll_of_event {e : EventRec} (h : s.eventAt s.mgmt.pollSeq = some e) :
    exec (.pollForPlatformEventMessage false) s = .next (s.answer ([0x00#8] ++ e.bytes)) := by
  show execPollForPlatformEventMessage false s = _
  simp [execPollForPlatformEventMessage, hrun, h, pldmOk]

/-- A poll that acknowledges an event returns the next one. -/
theorem exec_poll_of_acknowledged {e f : EventRec} (he : s.eventAt s.mgmt.pollSeq = some e) (hf : s.eventAt (e.seq + 1) = some f) :
    exec (.pollForPlatformEventMessage true) s =
      .next (({ s with mgmt := { s.mgmt with pollSeq := e.seq + 1 } } : State).answer ([0x00#8] ++ f.bytes)) := by
  have hnext : ({ s with mgmt := { s.mgmt with pollSeq := e.seq + 1 } } : State).eventAt (e.seq + 1) = some f := hf
  show execPollForPlatformEventMessage true s = _
  simp [execPollForPlatformEventMessage, hrun, he, hnext, pldmOk]
end Running

/-! ### A packet meets its port (R402, R440) -/

section Packet
variable {s : State} {b : Nat} (packet : List Byte)

/-- The port with a packet in flight, behind what it had. -/
def State.withPacket (s : State) (b : Nat) (packet : List Byte) : State :=
  s.updBlock b (fun x => { x with cmds := x.cmds ++ [Cmd.copied (s.block b).nextId 0 packet 0], nextId := x.nextId + 1 })

theorem State.takePacket_of_busy (h : (s.block b).cmds ≠ []) : s.takePacket b packet =
    (s.withPacket b packet).deny { block := b, id := (s.block b).nextId } (Cmd.copied (s.block b).nextId 0 packet 0) (2 ^ 21) := by
  simp [State.takePacket, State.withPacket, h]

variable (h : (s.block b).cmds = [])
include h

theorem State.takePacket_of_long (hlen : 4096 < (Cmd.copied (s.block b).nextId 0 packet 0).paramLen) : s.takePacket b packet =
    (s.withPacket b packet).endCmd { block := b, id := (s.block b).nextId } (Fin.with stHeaderInvalid 4) := by
  exact (if_neg (by simp [h])).trans (if_pos hlen)

theorem State.takePacket_of_fit (hlen : (Cmd.copied (s.block b).nextId 0 packet 0).paramLen ≤ 4096) :
    s.takePacket b packet = (s.withPacket b packet).settle := by
  exact (if_neg (by simp [h])).trans (if_neg (Nat.not_lt.mpr hlen))
end Packet

/-- Settles O44: the messages of each kind follow the lemma of their case; those that ask nothing of the state have one answer. -/
theorem managementPortResults : Obligations.ManagementPortResults := by
  intro s hrun
  have answered (bs : List Byte) : (.next (s.pldm bs) : Out) = .next (s.answer bs) := congrArg _ (State.pldm_of_running hrun bs)
  have controlled (bs : List Byte) : (.next (s.mctp bs) : Out) = .next (s.answer bs) := congrArg _ (State.mctp_of_running hrun bs)
  refine ⟨fun eid => exec_setEndpointId_of_set hrun, fun op eid => exec_setEndpointId_of_reserved hrun op, controlled _,
    fun ty => exec_getMctpVersionSupport_of_known hrun, controlled _, controlled _, fun debug packet => ?packets, answered _, answered _,
    answered _, answered _, answered _, fun ty cmd => answered _, answered _, fun id => exec_getPdr_of_temperature hrun,
    fun id => exec_getSensorReading_of_assigned hrun, fun id => exec_getSensorReading_of_unassigned hrun, exec_poll_of_none hrun,
    fun e => exec_poll_of_event hrun, fun e f => exec_poll_of_acknowledged hrun⟩
  case packets =>
    rw [exec_mgmtCommandPacket_of_running hrun debug packet]
    exact ⟨fun hidle hfit => congrArg _ (State.takePacket_of_fit packet hidle hfit),
      fun hidle hlong => congrArg _ (State.takePacket_of_long packet hidle hlong),
      fun hbusy => congrArg _ (State.takePacket_of_busy packet hbusy)⟩

end Sys2Proof.Machine
end

section
/-! SUPPORT. Latent streams: what OP_LSF_WRITE forms, OP_LSF_READ decodes (R526 to R531, O36). -/

namespace Sys2Proof.Machine

/-! ### Bytes, fields and packed tokens -/

theorem leNat_lt (bs : List Byte) : leNat bs < 256 ^ bs.length := by
  induction bs with
  | nil => exact Nat.one_pos
  | cons b bs ih =>
    have hb := b.isLt
    rw [leNat, List.length_cons, Nat.pow_succ']
    omega

theorem leNat_leBytes (n v : Nat) : leNat (leBytes n v) = v % 256 ^ n := by
  induction n generalizing v with
  | zero => rw [Nat.pow_zero, Nat.mod_one]; rfl
  | succ n ih => rw [leBytes, leNat, ih, BitVec.toNat_ofNat, show 256 ^ (n + 1) = 256 * 256 ^ n from Nat.pow_succ']; exact Nat.mod_mul.symm

theorem Cmd.p_lt (k : Cmd) (off w : Nat) : k.p off w < 256 ^ w :=
  (leNat_lt _).trans_eq (by rw [List.length_map, List.length_range])

/-- The value of tokens laid one after the other, each in its own bits. -/
def packValue (tokBits : Nat) (ts : List Nat) : Nat := ts.foldr (fun t v => t % 2 ^ tokBits + v * 2 ^ tokBits) 0

theorem packValue_lt (b : Nat) (ts : List Nat) : packValue b ts < 2 ^ (ts.length * b) := by
  induction ts with
  | nil => simp [packValue]
  | cons t ts ih =>
    have ht : t % 2 ^ b < 2 ^ b := Nat.mod_lt _ (Nat.two_pow_pos b)
    calc t % 2 ^ b + packValue b ts * 2 ^ b < (packValue b ts + 1) * 2 ^ b := by rw [Nat.succ_mul]; omega
      _ ≤ 2 ^ (ts.length * b) * 2 ^ b := Nat.mul_le_mul_right _ ih
      _ = 2 ^ ((t :: ts).length * b) := by rw [List.length_cons, Nat.succ_mul, Nat.pow_add]

theorem packValue_digit (b : Nat) {ts : List Nat} (hts : ∀ t ∈ ts, t < 2 ^ b) {i : Nat} (hi : i < ts.length) :
    packValue b ts / 2 ^ (i * b) % 2 ^ b = ts[i] := by
  induction ts generalizing i with
  | nil => exact absurd hi (Nat.not_lt_zero i)
  | cons t ts ih =>
    have ht : t % 2 ^ b = t := Nat.mod_eq_of_lt (hts t List.mem_cons_self)
    have hv : packValue b (t :: ts) = t + packValue b ts * 2 ^ b := by rw [← ht]; simp [packValue]
    cases i with
    | zero => rw [hv, Nat.zero_mul, Nat.pow_zero, Nat.div_one, Nat.add_mul_mod_self_right, ht, List.getElem_cons_zero]
    | succ i =>
      have hdrop : packValue b (t :: ts) / 2 ^ b = packValue b ts := by
        rw [hv, Nat.add_mul_div_right _ _ (Nat.two_pow_pos b), Nat.div_eq_of_lt (hts t List.mem_cons_self), Nat.zero_add]
      rw [Nat.succ_mul, Nat.pow_add, Nat.mul_comm, ← Nat.div_div_eq_div_mul, hdrop, List.getElem_cons_succ]
      exact ih (fun u hu => hts u (List.mem_cons_of_mem _ hu)) (Nat.lt_of_succ_lt_succ hi)

theorem packTokens_length (b : Nat) (ts : List Nat) : (packTokens b ts).length = packedLen ts.length b := leBytes_length _ _

/-- Tokens of the width unpack to themselves (R526, R529). -/
theorem unpackTokens_packTokens {b : Nat} {ts : List Nat} (hts : ∀ t ∈ ts, t < 2 ^ b) : unpackTokens ts.length b (packTokens b ts) = ts := by
  have hfits : packValue b ts < 256 ^ packedLen ts.length b := by
    refine (packValue_lt b ts).trans_le ?_
    rw [show 256 = 2 ^ 8 from rfl, ← Nat.pow_mul]
    exact Nat.pow_le_pow_right Nat.two_pos (by unfold packedLen; omega)
  have hvalue : leNat (packTokens b ts) = packValue b ts := (leNat_leBytes _ _).trans (Nat.mod_eq_of_lt hfits)
  refine List.ext_getElem (by simp [unpackTokens]) fun i h1 h2 => ?_
  simp only [unpackTokens, hvalue, List.getElem_map, List.getElem_range, packValue_digit b hts h2]

/-! ### The bitmap of a delta (R530) -/

/-- A number made of distinct powers of two has a bit where its power was taken. -/
theorem testBit_sum_powers (f : Nat → Bool) (n i : Nat) :
    ((((List.range n).filter f).map (fun b => 2 ^ b)).sum).testBit i = (decide (i < n) && f i) ∧
    (((List.range n).filter f).map (fun b => 2 ^ b)).sum < 2 ^ n := by
  induction n with
  | zero => simp
  | succ n ih =>
    obtain ⟨hbit, hlt⟩ := ih
    rw [List.range_succ, List.filter_append, List.map_append, List.sum_append]
    set S := (((List.range n).filter f).map (fun b => 2 ^ b)).sum
    by_cases hn : f n = true
    · have hadd : (([n].filter f).map (fun b => 2 ^ b)).sum = 2 ^ n := by simp [hn]
      rw [hadd, Nat.add_comm S]
      refine ⟨?_, by rw [Nat.pow_succ]; omega⟩
      rcases Nat.lt_trichotomy i n with hi | rfl | hi
      · rw [Nat.testBit_two_pow_add_gt hi, hbit]; simp [hi, Nat.lt_succ_of_lt hi]
      · rw [Nat.testBit_two_pow_add_eq, hbit]; simp [hn]
      · rw [Nat.testBit_lt_two_pow ((show 2 ^ n + S < 2 ^ (n + 1) by rw [Nat.pow_succ]; omega).trans_le (Nat.pow_le_pow_right Nat.two_pos hi))]
        simp [show ¬ i < n + 1 by omega]
    · have hadd : (([n].filter f).map (fun b => 2 ^ b)).sum = 0 := by simp [hn]
      rw [hadd, Nat.add_zero, hbit]
      refine ⟨?_, hlt.trans (Nat.pow_lt_pow_right Nat.one_lt_two n.lt_succ_self)⟩
      rcases Nat.lt_trichotomy i n with hi | rfl | hi
      · simp [hi, Nat.lt_succ_of_lt hi]
      · simp [hn]
      · simp [show ¬ i < n by omega, show ¬ i < n + 1 by omega]

/-- The bitmap of a set of positions below n. -/
def lsfBitmap (n : Nat) (ms : List Nat) : List Byte :=
  (List.range ((n + 7) / 8)).map (fun j => BitVec.ofNat 8 (((List.range 8).filter (fun b => ms.contains (8 * j + b))).map (fun b => 2 ^ b)).sum)

theorem lsfBitmap_length (n : Nat) (ms : List Nat) : (lsfBitmap n ms).length = (n + 7) / 8 := by simp [lsfBitmap]

theorem lsfBitmap_bit {n i : Nat} (hi : i < n) (ms : List Nat) : ((lsfBitmap n ms).getD (i / 8) 0).getLsbD (i % 8) = ms.contains i := by
  have hj : i / 8 < (n + 7) / 8 := by omega
  obtain ⟨hbit, -⟩ := testBit_sum_powers (fun b => ms.contains (8 * (i / 8) + b)) 8 (i % 8)
  rw [List.getD_eq_getElem _ _ (by rwa [lsfBitmap_length])]
  simp only [lsfBitmap, List.getElem_map, List.getElem_range, BitVec.getLsbD_ofNat, hbit, Nat.div_add_mod,
    show i % 8 < 8 from Nat.mod_lt _ (by omega), decide_true, Bool.true_and]

/-- Positions at which two grids differ, in raster order. -/
def lsfChanged (n : Nat) (q g : List Nat) : List Nat := (List.range n).filter (fun i => q.getD i 0 != g.getD i 0)

theorem foldl_set_length (es : List (Nat × Nat)) (q : List Nat) : (es.foldl (fun g e => g.set e.1 e.2) q).length = q.length := by
  induction es generalizing q with
  | nil => rfl
  | cons e es ih => rw [List.foldl_cons, ih, List.length_set]

/-- Positions written each with its own new value read that value; the others are kept. -/
theorem foldl_set_getD (v : Nat → Nat) (ms : List Nat) {q : List Nat} {i : Nat} (hi : i < q.length) :
    ((ms.map (fun m => (m, v m))).foldl (fun g e => g.set e.1 e.2) q).getD i 0 = if i ∈ ms then v i else q.getD i 0 := by
  induction ms generalizing q with
  | nil => rfl
  | cons m ms ih =>
    rw [List.map_cons, List.foldl_cons, ih (by rwa [List.length_set])]
    by_cases hmem : i ∈ ms
    · simp [hmem]
    · by_cases him : m = i
      · subst him; simp [hmem, hi]
      · simp [hmem, Ne.symm him, him, List.getElem?_set_ne]

/-- A grid is the one before it with the changed positions written (R530). -/
theorem foldl_set_changed {n : Nat} {q g : List Nat} (hq : q.length = n) (hg : g.length = n) :
    ((lsfChanged n q g).map (fun m => (m, g.getD m 0))).foldl (fun x e => x.set e.1 e.2) q = g := by
  refine List.ext_getElem (by rw [foldl_set_length, hq, hg]) fun i h1 h2 => ?_
  have hi : i < n := hg ▸ h2
  rw [← List.getD_eq_getElem _ 0 h1, foldl_set_getD _ _ (hq ▸ hi), ← List.getD_eq_getElem g 0 h2]
  split_ifs with hmem
  · rfl
  · by_contra hne
    exact hmem (List.mem_filter.mpr ⟨List.mem_range.mpr hi, bne_iff_ne.mpr hne⟩)

/-! ### Records and their bytes (R528) -/

/-- The header of a record. -/
def LsfRec.head (r : LsfRec) : List Byte :=
  leBytes 4 0x4C46524D ++ leBytes 4 (if r.delta then 1 else 0) ++ leBytes 4 r.index ++ leBytes 4 r.ref ++
    leBytes 4 r.payload.length ++ leBytes 4 r.crc ++ leBytes 8 r.time

/-- The bytes of a record: its header and its payload. -/
def LsfRec.bytes (r : LsfRec) : List Byte := r.head ++ r.payload

/-- The record moved to another offset. -/
def LsfRec.at_ (r : LsfRec) (off : Nat) : LsfRec := { r with off := off }

/-- The length of payload that a record's kind asks for (R528). -/
def LsfSlot.wants (x : LsfSlot) (r : LsfRec) : Nat :=
  if r.delta then (x.n + 7) / 8 + packedLen (r.marks x.n).length x.tokBits else packedLen x.n x.tokBits

/-- The fields of a record fit its header, and its payload has the length of its kind. -/
structure LsfSlot.Takes (x : LsfSlot) (r : LsfRec) : Prop where
  index : r.index < 2 ^ 32
  ref : r.ref < 2 ^ 32
  crc : r.crc < 2 ^ 32
  time : r.time < 2 ^ 64
  key : r.delta = false → r.ref = 0
  short : r.payload.length < 2 ^ 32
  length : r.payload.length = x.wants r

theorem LsfRec.head_length (r : LsfRec) : r.head.length = 32 := by simp only [LsfRec.head, List.length_append, leBytes_length]

theorem LsfRec.bytes_length (r : LsfRec) : r.bytes.length = 32 + r.payload.length := by
  rw [LsfRec.bytes, List.length_append, LsfRec.head_length]

/-- A field within the first n bytes is the same in those bytes alone. -/
theorem field_take {off w n : Nat} (h : off + w ≤ n) (bs : List Byte) : field (bs.take n) off w = field bs off w := by
  refine congrArg leNat (List.map_congr_left fun i hi => ?_)
  have hi := List.mem_range.mp hi
  simp only [List.getD_eq_getElem?_getD, List.getElem?_take, if_pos (show off + i < n by omega)]

theorem LsfRec.bytes_fields (r : LsfRec) (post : List Byte) : let h := r.bytes ++ post
    field h 0 4 = 0x4C46524D ∧ field h 4 4 = (if r.delta then 1 else 0) ∧ field h 8 4 = r.index % 2 ^ 32 ∧ field h 0xC 4 = r.ref % 2 ^ 32 ∧
    field h 0x10 4 = r.payload.length % 2 ^ 32 ∧ field h 0x14 4 = r.crc % 2 ^ 32 ∧ field h 0x18 8 = r.time % 2 ^ 64 := by
  simp only [LsfRec.bytes, LsfRec.head, List.append_assoc, field_append_of_le, field_leBytes_append, Nat.reduceLeDiff, Nat.reduceSub, Nat.reducePow,
    le_refl, Nat.sub_self, Nat.reduceMod, true_and, and_true]
  cases r.delta <;> rfl

theorem lsfRecord_bytes {x : LsfSlot} {r : LsfRec} (h : x.Takes r) (pre post : List Byte) :
    lsfRecord x (pre ++ (r.bytes ++ post)) pre.length = some (r.at_ pre.length) := by
  obtain ⟨hindex, href, hcrc, htime, hkey, hshort, hlength⟩ := h
  have hpayload : ((pre ++ (r.bytes ++ post)).drop (pre.length + 32)).take r.payload.length = r.payload := by
    rw [← List.drop_drop, List.drop_left, LsfRec.bytes, List.append_assoc, List.drop_left' r.head_length, List.take_left]
  have hlen : ((r.bytes ++ post).take 32).length = 32 := by
    rw [List.length_take, List.length_append, LsfRec.bytes_length]; omega
  obtain ⟨hmagic, hkind, hi, hr, hl, hc, ht⟩ := r.bytes_fields post
  rw [Nat.mod_eq_of_lt hindex] at hi
  rw [Nat.mod_eq_of_lt href] at hr
  rw [Nat.mod_eq_of_lt hshort] at hl
  rw [Nat.mod_eq_of_lt hcrc] at hc
  rw [Nat.mod_eq_of_lt htime] at ht
  have hdelta : (((if r.delta then 1 else 0 : Nat)) == 1) = r.delta := by cases r.delta <;> rfl
  have hrec : ({ off := pre.length, delta := r.delta, index := r.index, ref := r.ref, crc := r.crc, time := r.time, payload := r.payload } : LsfRec) =
      r.at_ pre.length := rfl
  unfold lsfRecord
  simp only [List.drop_left, field_take, Nat.reduceAdd, Nat.reduceLeDiff, hmagic, hkind, hi, hr, hl, hc, ht, hpayload, hlen, hdelta, hrec]
  refine if_pos ⟨trivial, trivial, by split <;> omega, ?_, trivial, hlength⟩
  cases hd : r.delta with
  | false => exact .inr (hkey hd)
  | true => exact .inl rfl

/-- Records at the offsets they have one behind the other. -/
def placed : Nat → List LsfRec → List LsfRec
  | _, [] => []
  | off, r :: rs => r.at_ off :: placed (off + 32 + r.payload.length) rs

theorem placed_length (off : Nat) (rs : List LsfRec) : (placed off rs).length = rs.length := by
  induction rs generalizing off with
  | nil => rfl
  | cons r rs ih => rw [placed, List.length_cons, List.length_cons, ih]

theorem LsfSlot.decodeAll_placed (x : LsfSlot) (off : Nat) (rs : List LsfRec) : x.decodeAll (placed off rs) = x.decodeAll rs := by
  induction rs generalizing x off with
  | nil => rfl
  | cons r rs ih =>
    have hfault : x.recordFault (r.at_ off) = x.recordFault r := rfl
    have hhandle : x.handle (r.at_ off) = x.handle r := rfl
    have hafter : x.after (r.at_ off) 0 (x.handle r).2 = x.after r 0 (x.handle r).2 := rfl
    simp only [placed, LsfSlot.decodeAll, hfault, hhandle, hafter, ih]

/-- Valid records that fill the data are walked, each at its offset. -/
theorem lsfWalk_bytes {x : LsfSlot} {rs : List LsfRec} (h : ∀ r ∈ rs, x.Takes r) {pre : List Byte} {fuel : Nat}
    (hfuel : rs.length < fuel) :
    lsfWalk x (pre ++ rs.flatMap LsfRec.bytes) fuel pre.length = (placed pre.length rs, none) := by
  induction rs generalizing pre fuel with
  | nil =>
    obtain ⟨fuel, rfl⟩ : ∃ m, fuel = m + 1 := ⟨fuel - 1, by simp at hfuel; omega⟩
    simp [lsfWalk, placed]
  | cons r rs ih =>
    obtain ⟨fuel, rfl⟩ : ∃ m, fuel = m + 1 := ⟨fuel - 1, by simp at hfuel; omega⟩
    have hnext := ih (fun q hq => h q (List.mem_cons_of_mem _ hq)) (pre := pre ++ r.bytes) (fuel := fuel) (by simpa using hfuel)
    rw [List.append_assoc, List.length_append, LsfRec.bytes_length, ← Nat.add_assoc] at hnext
    have hinside : ¬ (pre ++ (r.bytes ++ rs.flatMap LsfRec.bytes)).length ≤ pre.length := by
      simp only [List.length_append, LsfRec.bytes_length]; omega
    rw [List.flatMap_cons, lsfWalk, if_neg hinside, lsfRecord_bytes (h r List.mem_cons_self)]
    show (r.at_ pre.length :: _, _) = _
    have hpay : (r.at_ pre.length).payload = r.payload := rfl
    simp only [hpay, hnext, placed]

/-! ### The records of a container (R526, R531) -/

/-- The payload of a grid: all its tokens, or the bitmap of what changed and the changed tokens. -/
def lsfBody (tb n : Nat) (prev : Option (List Nat)) (g : List Nat) : List Byte :=
  match prev with
  | none => packTokens tb g
  | some q => lsfBitmap n (lsfChanged n q g) ++ packTokens tb ((lsfChanged n q g).map (fun i => g.getD i 0))

/-- The record of a grid. -/
def lsfRecOf (tb n index : Nat) (prev : Option (List Nat)) (g : List Nat) : LsfRec :=
  { off := 0, delta := prev.isSome, index := index, ref := if prev.isSome then index - 1 else 0, crc := (crc32 (lsfBody tb n prev g)).toNat,
    time := 0, payload := lsfBody tb n prev g }

theorem lsfFrame_eq (tb n index : Nat) (prev : Option (List Nat)) (g : List Nat) :
    lsfFrame tb n index prev g = (lsfRecOf tb n index prev g).bytes := by
  cases prev <;> rfl

theorem lsfRecOf_marks (tb n index : Nat) (q g : List Nat) : (lsfRecOf tb n index (some q) g).marks n = lsfChanged n q g := by
  have hbit (i : Nat) (hi : i < n) : ((lsfBody tb n (some q) g).getD (i / 8) 0).getLsbD (i % 8) = (lsfChanged n q g).contains i := by
    rw [lsfBody, List.getD_append _ _ _ _ (by rw [lsfBitmap_length]; omega), lsfBitmap_bit hi]
  refine List.filter_congr fun i hi => ?_
  have hi := List.mem_range.mp hi
  rw [show (lsfRecOf tb n index (some q) g).payload = lsfBody tb n (some q) g from rfl, hbit i hi]
  exact Bool.eq_iff_iff.mpr (by simp [lsfChanged, hi])

theorem lsfChanged_length_le (n : Nat) (q g : List Nat) : (lsfChanged n q g).length ≤ n :=
  (List.length_filter_le _ _).trans_eq List.length_range

/-- A record of a grid of the slot's size fits its header (R528). -/
theorem lsfRecOf_takes {x : LsfSlot} {index : Nat} (hn : x.n ≤ 16384) (htb : x.tokBits ≤ 32) (hindex : index < 2 ^ 32)
    (prev : Option (List Nat)) {g : List Nat} (hg : g.length = x.n) : x.Takes (lsfRecOf x.tokBits x.n index prev g) := by
  have hlength : (lsfBody x.tokBits x.n prev g).length = x.wants (lsfRecOf x.tokBits x.n index prev g) := by
    cases prev with
    | none => rw [lsfBody, packTokens_length, hg]; rfl
    | some q =>
      rw [lsfBody, List.length_append, lsfBitmap_length, packTokens_length, List.length_map]
      show _ = if true = true then _ else _
      rw [if_pos rfl, lsfRecOf_marks]
  have hpacked {m : Nat} (hm : m ≤ x.n) : packedLen m x.tokBits ≤ 65536 := by
    have := Nat.mul_le_mul (hm.trans hn) htb
    unfold packedLen; omega
  have hshort : x.wants (lsfRecOf x.tokBits x.n index prev g) ≤ 2 ^ 17 := by
    unfold LsfSlot.wants
    split
    · cases prev with
      | none => exact absurd ‹_› Bool.false_ne_true
      | some q =>
        rw [lsfRecOf_marks]
        have := hpacked (lsfChanged_length_le x.n q g)
        omega
    · have := hpacked le_rfl
      omega
  exact {
    index := hindex
    ref := by show (if prev.isSome then index - 1 else 0) < _; split <;> omega
    crc := (crc32 _).isLt
    time := by show 0 < _; omega
    key := fun hd => by show (if prev.isSome then index - 1 else 0) = 0; rw [show prev.isSome = false from hd]; rfl
    short := by show (lsfBody x.tokBits x.n prev g).length < _; rw [hlength]; omega
    length := hlength }

/-! ### Reading the records into a slot (R528 to R530) -/

/-- The slot has stored the grids of a stream up to an index: it skips nothing, its records are older, and where a grid came before,
the one before is stored. -/
structure LsfSlot.Follows (x : LsfSlot) (index : Nat) (prev : Option (List Nat)) : Prop where
  steady : x.skipping = false
  older : ∀ i, x.lastIndex = some i → i < index
  stored : ∀ e ∈ x.store, e.1 < index
  ref : ∀ q, prev = some q → 0 < index ∧ x.store.find? (fun e => e.1 == index - 1) = some (index - 1, q)

/-- A record is decoded to the grid it was made from. -/
theorem LsfSlot.handle_lsfRecOf {x : LsfSlot} {index : Nat} {prev : Option (List Nat)} (h : x.Follows index prev) {g : List Nat}
    (hg : g.length = x.n) (hprev : ∀ q, prev = some q → q.length = x.n) (htok : ∀ t ∈ g, t < 2 ^ x.tokBits) :
    x.handle (lsfRecOf x.tokBits x.n index prev g) = (0, g) := by
  cases prev with
  | none =>
    show (0, unpackTokens x.n x.tokBits (packTokens x.tokBits g)) = _
    rw [← hg, unpackTokens_packTokens htok]
  | some q =>
    obtain ⟨-, hfind⟩ := h.ref q rfl
    have hq := hprev q rfl
    have hnew : ∀ t ∈ (lsfChanged x.n q g).map (fun i => g.getD i 0), t < 2 ^ x.tokBits := by
      intro t ht
      obtain ⟨i, hi, rfl⟩ := List.mem_map.mp ht
      have hlt : i < g.length := hg ▸ List.mem_range.mp (List.mem_filter.mp hi).1
      rw [List.getD_eq_getElem _ _ hlt]
      exact htok _ (List.getElem_mem hlt)
    have hunpack := unpackTokens_packTokens hnew
    rw [List.length_map] at hunpack
    have hdrop : (lsfBody x.tokBits x.n (some q) g).drop ((x.n + 7) / 8) = packTokens x.tokBits ((lsfChanged x.n q g).map (fun i => g.getD i 0)) :=
      List.drop_left' (lsfBitmap_length _ _)
    have hzip : (lsfChanged x.n q g).zip ((lsfChanged x.n q g).map (fun i => g.getD i 0)) = (lsfChanged x.n q g).map (fun i => (i, g.getD i 0)) := by
      simpa using List.zip_map' (f := id) (g := fun i => g.getD i 0) (l := lsfChanged x.n q g)
    unfold LsfSlot.handle
    rw [show (!(lsfRecOf x.tokBits x.n index (some q) g).delta) = false from rfl, if_neg Bool.false_ne_true, h.steady, if_neg Bool.false_ne_true,
      show (lsfRecOf x.tokBits x.n index (some q) g).ref = index - 1 from rfl, hfind, lsfRecOf_marks]
    simp only [show (lsfRecOf x.tokBits x.n index (some q) g).payload = lsfBody x.tokBits x.n (some q) g from rfl, hdrop, hunpack, hzip,
      foldl_set_changed hq hg]

/-- The tokens of a grid are below the vocabulary, where there is one (R528). -/
abbrev TokensFit (tb vocab : Nat) (g : List Nat) : Prop := ∀ t ∈ g, t < 2 ^ tb ∧ (vocab ≠ 0 → t < vocab)

theorem LsfSlot.recordFault_lsfRecOf {x : LsfSlot} {index : Nat} {prev : Option (List Nat)} (h : x.Follows index prev) {g : List Nat}
    (hg : g.length = x.n) (hprev : ∀ q, prev = some q → q.length = x.n) (htok : TokensFit x.tokBits x.vocab g) :
    x.recordFault (lsfRecOf x.tokBits x.n index prev g) = none := by
  have hhandle := x.handle_lsfRecOf h hg hprev (fun t ht => (htok t ht).1)
  have hcrc : (crc32 (lsfRecOf x.tokBits x.n index prev g).payload).toNat = (lsfRecOf x.tokBits x.n index prev g).crc := rfl
  have hvocab : ¬ x.vocab = 0 → ∀ t ∈ g, t < x.vocab := fun hv t ht => (htok t ht).2 hv
  unfold LsfSlot.recordFault
  cases hlast : x.lastIndex with
  | none => simpa [hhandle, hcrc] using hvocab
  | some i =>
    have hold : ¬ (lsfRecOf x.tokBits x.n index prev g).index ≤ i := Nat.not_le.mpr (h.older i hlast)
    simpa [hhandle, hcrc, hold] using hvocab

/-- The slot that has taken a record follows the stream up to the next one. -/
theorem LsfSlot.Follows.after {x : LsfSlot} {index : Nat} {prev : Option (List Nat)} (h : x.Follows index prev) (r : LsfRec)
    (hr : r.index = index) (g : List Nat) : (x.after r 0 g).Follows (index + 1) (some g) := by
  have hkept : ∀ e ∈ (if 16 ≤ x.store.length then x.store.drop 1 else x.store), e.1 < index := by
    intro e he
    split at he
    · exact h.stored e (List.mem_of_mem_drop he)
    · exact h.stored e he
  rw [LsfSlot.after, if_pos rfl, hr]
  exact {
    steady := by rw [h.steady]; rfl
    older := by rintro i ⟨⟩; exact Nat.lt_succ_self _
    stored := fun e he => by
      rcases List.mem_append.mp he with he | he
      · exact (hkept e he).trans (Nat.lt_succ_self _)
      · rw [List.mem_singleton.mp he]; exact Nat.lt_succ_self _
    ref := by
      rintro q ⟨⟩
      refine ⟨Nat.succ_pos _, ?_⟩
      rw [List.find?_append, List.find?_eq_none.mpr fun e he => ?_]
      · simp
      · have := hkept e he
        simp only [Nat.add_sub_cancel, beq_iff_eq]
        omega }

theorem LsfSlot.Follows.of_none {x : LsfSlot} {index : Nat} {prev : Option (List Nat)} (h : x.Follows index prev) : x.Follows index none :=
  { h with ref := nofun }

/-! ### The container (R526, R531) -/

section Container
variable (k : Cmd)

/-- Positions of a grid of the command. -/
def lsfSize : Nat := k.p 4 2 * k.p 6 2

/-- The container's header. -/
def lsfHead : List Byte :=
  leBytes 4 0x3146534C ++ leBytes 2 1 ++ leBytes 2 (k.p 0 1) ++ leBytes 2 (k.p 4 2) ++ leBytes 2 (k.p 6 2) ++ leBytes 4 (k.p 0xC 4) ++
    leBytes 8 (k.p 0x28 8) ++ List.replicate 40 0#8

/-- The cleared slot that the header opens. -/
def lsfFresh : LsfSlot :=
  { tokBits := k.p 0 1, height := k.p 4 2, width := k.p 6 2, vocab := k.p 0xC 4, store := [], lastIndex := none, skipping := false, base := 0 }

/-- The grid before the one at a place of the stream. -/
def lsfBefore (grids : List (List Nat)) (j : Nat) : Option (List Nat) := if j = 0 then none else some (grids.getD (j - 1) [])

/-- What the grid at a place is written against: nothing at a key frame, or the grid before it. -/
def lsfPrev (grids : List (List Nat)) (j : Nat) : Option (List Nat) := if j % k.p 2 2 = 0 then none else some (grids.getD (j - 1) [])

/-- The records of the grids from a place on. -/
def lsfRecs (grids gs : List (List Nat)) (j : Nat) : List LsfRec :=
  (gs.zipIdx j).map (fun e => lsfRecOf (k.p 0 1) (lsfSize k) (k.p 0x24 4 + e.2) (lsfPrev k grids e.2) e.1)

theorem lsfHead_length : (lsfHead k).length = 64 := by simp only [lsfHead, List.length_append, leBytes_length, List.length_replicate]

theorem lsfRecs_length (grids gs : List (List Nat)) (j : Nat) : (lsfRecs k grids gs j).length = gs.length := by
  rw [lsfRecs, List.length_map, List.length_zipIdx]

theorem lsfContainer_eq (grids : List (List Nat)) :
    lsfContainer k grids = lsfHead k ++ (lsfRecs k grids grids 0).flatMap LsfRec.bytes := by
  rw [lsfRecs, List.flatMap_map]
  exact congrArg (lsfHead k ++ ·) (List.flatMap_congr fun e _ => lsfFrame_eq _ _ _ _ _)

variable {k} (hbad : lsfWriteBad k = none)
include hbad

/-- What the checks of OP_LSF_WRITE leave: widths, sizes, the key interval and the indices are in range. -/
theorem lsfWriteBad_none : (1 ≤ k.p 0 1 ∧ k.p 0 1 ≤ 32) ∧ gridOk (k.p 4 2) (k.p 6 2) = true ∧ k.p 0x24 4 + k.p 8 4 ≤ 2 ^ 32 := by
  simp only [lsfWriteBad] at hbad
  split_ifs at hbad with htb hone hkey hgrid
  exact ⟨by omega, by simpa using hgrid, by omega⟩

theorem lsfSize_le : lsfSize k ≤ 16384 := by
  obtain ⟨-, hgrid, -⟩ := lsfWriteBad_none hbad
  exact (of_decide_eq_true hgrid).2.2.2.2

theorem lsfHeader_head (rest : List Byte) : lsfHeader (lsfHead k ++ rest) = some (lsfFresh k) := by
  obtain ⟨htb, hgrid, -⟩ := lsfWriteBad_none hbad
  have hb : k.p 0 1 % 256 = k.p 0 1 := Nat.mod_eq_of_lt (k.p_lt 0 1)
  have hh : k.p 4 2 % 65536 = k.p 4 2 := Nat.mod_eq_of_lt (k.p_lt 4 2)
  have hw : k.p 6 2 % 65536 = k.p 6 2 := Nat.mod_eq_of_lt (k.p_lt 6 2)
  have hv : k.p 0xC 4 % 4294967296 = k.p 0xC 4 := Nat.mod_eq_of_lt (k.p_lt 0xC 4)
  have hlow : field (lsfHead k ++ rest) 0 4 = 0x3146534C ∧ field (lsfHead k ++ rest) 4 2 = 1 ∧ field (lsfHead k ++ rest) 6 1 = k.p 0 1 ∧
      field (lsfHead k ++ rest) 8 2 = k.p 4 2 ∧ field (lsfHead k ++ rest) 10 2 = k.p 6 2 ∧ field (lsfHead k ++ rest) 0xC 4 = k.p 0xC 4 := by
    simp only [lsfHead, List.append_assoc, field_append_of_le, field_leBytes_append, Nat.reduceLeDiff, Nat.reduceSub, Nat.reducePow,
      le_refl, Nat.sub_self, Nat.reduceMod, hb, hh, hw, hv, and_self]
  have hseven : field (lsfHead k ++ rest) 7 1 = 0 := by
    have hbyte : field (leBytes 2 (k.p 0 1) ++ (leBytes 2 (k.p 4 2) ++ (leBytes 2 (k.p 6 2) ++ (leBytes 4 (k.p 0xC 4) ++
        (leBytes 8 (k.p 0x28 8) ++ (List.replicate 40 0#8 ++ rest)))))) 1 1 = k.p 0 1 / 256 % 256 := rfl
    simp only [lsfHead, List.append_assoc, field_append_of_le, Nat.reduceLeDiff, Nat.reduceSub, hbyte]
    omega
  have hzero : (List.range 40).all (fun i => (lsfHead k ++ rest).getD (0x18 + i) 0 == 0#8) = true := by
    have hprefix : lsfHead k = (lsfHead k).take 24 ++ List.replicate 40 0#8 := rfl
    rw [List.all_eq_true]
    intro i hi
    have hi := List.mem_range.mp hi
    rw [hprefix, List.append_assoc, List.getD_append_right _ _ _ _ (by rw [List.length_take, lsfHead_length]; omega),
      List.length_take, lsfHead_length, Nat.min_eq_left (by omega), Nat.add_sub_cancel_left,
      List.getD_append _ _ _ _ (by rwa [List.length_replicate]), List.getD_replicate]
    · rfl
    · exact hi
  obtain ⟨hmagic, hversion, hbits, hheight, hwidth, hvocab⟩ := hlow
  unfold lsfHeader
  simp only [hmagic, hversion, hseven, hbits, hheight, hwidth, hvocab]
  exact if_pos ⟨by rw [List.length_append, lsfHead_length]; omega, trivial, trivial, trivial, htb.1, htb.2, hgrid, hzero⟩

variable {grids : List (List Nat)} (hcount : grids.length = k.p 8 4) (hsize : ∀ g ∈ grids, g.length = lsfSize k)
include hcount hsize

theorem lsfRecs_takes : ∀ r ∈ lsfRecs k grids grids 0, (lsfFresh k).Takes r := by
  obtain ⟨⟨-, htb⟩, -, hindex⟩ := lsfWriteBad_none hbad
  intro r hr
  obtain ⟨⟨g, j⟩, hmem, rfl⟩ := List.mem_map.mp hr
  obtain ⟨hj, hg⟩ := List.mem_zipIdx' hmem
  exact lsfRecOf_takes (x := lsfFresh k) (lsfSize_le hbad) htb (by show k.p 0x24 4 + j < _; omega) _ (hsize g (hg ▸ List.getElem_mem hj))

omit hcount hbad in
/-- The records from a place on decode to the grids from there on, into any slot that followed the stream up to it. -/
theorem decodeAll_lsfRecs (htok : ∀ g ∈ grids, TokensFit (k.p 0 1) (k.p 0xC 4) g) {gs : List (List Nat)} {j : Nat} {x : LsfSlot}
    (hgs : grids.drop j = gs) (hx : x.tokBits = k.p 0 1 ∧ x.n = lsfSize k ∧ x.vocab = k.p 0xC 4)
    (hfollows : x.Follows (k.p 0x24 4 + j) (lsfBefore grids j)) : x.decodeAll (lsfRecs k grids gs j) = some gs := by
  induction gs generalizing j x with
  | nil => rfl
  | cons g gs ih =>
    obtain ⟨htb, hn, hvocab⟩ := hx
    have hmem {q : List Nat} (hq : q ∈ g :: gs) : q ∈ grids := List.mem_of_mem_drop (hgs ▸ hq)
    have hj : j < grids.length := by
      by_contra hge
      rw [List.drop_eq_nil_of_le (Nat.not_lt.mp hge)] at hgs
      exact absurd hgs (List.cons_ne_nil _ _).symm
    have hprev : ∀ q, lsfPrev k grids j = some q → q.length = x.n := by
      intro q hq
      unfold lsfPrev at hq
      split at hq
      · exact absurd hq (Option.some_ne_none _).symm
      · obtain rfl := Option.some.inj hq
        rw [List.getD_eq_getElem _ _ (by omega), hn]
        exact hsize _ (List.getElem_mem _)
    have hagainst : x.Follows (k.p 0x24 4 + j) (lsfPrev k grids j) := by
      unfold lsfPrev
      split
      · exact hfollows.of_none
      · next hkey =>
        have hpos : j ≠ 0 := by rintro rfl; exact hkey (Nat.zero_mod _)
        rwa [lsfBefore, if_neg hpos] at hfollows
    have hlen : g.length = x.n := hn ▸ hsize g (hmem List.mem_cons_self)
    have hfit : TokensFit x.tokBits x.vocab g := htb ▸ hvocab ▸ htok g (hmem List.mem_cons_self)
    have hhandle := x.handle_lsfRecOf hagainst hlen hprev (fun t ht => (hfit t ht).1)
    have hfault := x.recordFault_lsfRecOf hagainst hlen hprev hfit
    have hgs' : grids.drop (j + 1) = gs := by rw [← List.tail_drop, hgs, List.tail_cons]
    have hbefore : lsfBefore grids (j + 1) = some g := by
      rw [lsfBefore, if_neg (Nat.succ_ne_zero j), Nat.add_sub_cancel, List.getD_eq_getElem _ _ hj]
      exact congrArg some (by simpa using (List.getElem_drop (xs := grids) (i := j) (j := 0) (h := by simp; omega)).symm.trans (by simp [hgs]))
    have hrest := ih (x := x.after (lsfRecOf x.tokBits x.n (k.p 0x24 4 + j) (lsfPrev k grids j) g) 0 g) hgs' ⟨htb, hn, hvocab⟩
      (by rw [hbefore]; exact hagainst.after _ rfl g)
    rw [htb, hn] at hhandle hfault hrest
    show x.decodeAll (lsfRecOf (k.p 0 1) (lsfSize k) (k.p 0x24 4 + j) (lsfPrev k grids j) g :: lsfRecs k grids gs (j + 1)) = _
    rw [LsfSlot.decodeAll, if_pos ⟨hfault, by rw [hhandle]⟩, hhandle, hrest]
    rfl

end Container

theorem lsfBadToken_none {k : Cmd} {n : Nat} {grids : List (List Nat)} (h : lsfBadToken k n grids = none) :
    ∀ g ∈ grids, TokensFit (k.p 0 1) (k.p 0xC 4) g := by
  intro g hg t ht
  obtain ⟨j, hj, rfl⟩ := List.getElem_of_mem hg
  have hnone := List.findSome?_eq_none_iff.mp h (grids[j], j) (List.mk_mem_zipIdx_iff_getElem?.mpr (List.getElem?_eq_getElem hj))
  have hlim := List.findIdx?_eq_none_iff.mp (Option.map_eq_none_iff.mp hnone) t ht
  simp only [Bool.or_eq_false_iff, decide_eq_false_iff_not, Nat.not_le, Bool.and_eq_false_iff, bne_eq_false_iff_eq] at hlim
  exact ⟨hlim.1, fun hv => hlim.2.resolve_left hv⟩

/-- Settles O36: the container is its header and its records; the records are walked one behind the other, and each finds the grid it was
written against as the last one stored. -/
theorem latentStreamsRoundTrip : Obligations.LatentStreamsRoundTrip := by
  intro k grids hbad hcount hsize htok
  have hfollows : (lsfFresh k).Follows (k.p 0x24 4 + 0) (lsfBefore grids 0) :=
    { steady := rfl, older := nofun, stored := nofun, ref := nofun }
  refine ⟨lsfFresh k, placed 64 (lsfRecs k grids grids 0), ?_, ?_, ?_, ?_⟩
  · rw [lsfContainer_eq]
    exact lsfHeader_head hbad _
  · rw [lsfContainer_eq]
    have hfuel : (lsfRecs k grids grids 0).length < (lsfHead k ++ (lsfRecs k grids grids 0).flatMap LsfRec.bytes).length + 1 := by
      have hle : (lsfRecs k grids grids 0).length ≤ ((lsfRecs k grids grids 0).flatMap LsfRec.bytes).length := by
        rw [List.length_flatMap]
        exact List.length_le_sum_of_one_le _ (by simp only [List.mem_map]; rintro _ ⟨r, -, rfl⟩; rw [LsfRec.bytes_length]; omega) |>.trans' (by simp)
      rw [List.length_append]
      omega
    have hwalk := lsfWalk_bytes (pre := lsfHead k) (lsfRecs_takes hbad hcount hsize) hfuel
    rwa [lsfHead_length] at hwalk
  · rw [placed_length, lsfRecs_length]
  · rw [LsfSlot.decodeAll_placed]
    exact decodeAll_lsfRecs hsize (lsfBadToken_none htok) rfl ⟨rfl, rfl, rfl⟩ hfollows

end Sys2Proof.Machine
end

section
/-! SUPPORT. The registers that act at once, and the Steward-only reset (R505, R507, R570, R571, R591, R608, R610, R638). -/

namespace Sys2Proof.Machine

section
variable {s : State} {v : Word} {n dt : Nat} (hup : s.up = true)
include hup

theorem exec_steppedClear_of_up : exec .steppedClear s = .next { s with tb := { s.tb with stepped := false } } :=
  congrArg Host.Outcome.next (if_pos hup)

theorem exec_evtConsWrite_of_up : exec (.evtConsWrite v) s = .next (s.evtCons v) := congrArg Host.Outcome.next (if_pos hup)

theorem exec_timebaseLoRead_of_up : exec (.timebaseLoRead dt) s = .next { s.tick dt with host := { (s.tick dt).host with
    timeHiLatch := BitVec.ofNat 32 ((s.tb.now + dt) / 2 ^ 32), reply := leBytes 4 (s.tb.now + dt) } } :=
  congrArg Host.Outcome.next (if_pos (show (s.tick dt).up = true from hup))

theorem exec_clkoutCtrlWrite_of_up : exec (.clkoutCtrlWrite n v) s = .next (s.clkoutWrite n v) := congrArg Host.Outcome.next (if_pos hup)

theorem exec_stwReset_of_up : exec .stwReset s = .next (s.stewardReset 0) := congrArg Host.Outcome.next (if_pos hup)

end

/-- A consumer index among the events that are still to be read is taken (R505). -/
theorem State.evtCons_of_le {s : State} {v : Word} (h : (v - s.stw.evtCons).toNat ≤ (BitVec.ofNat 32 s.stw.nextSeq - s.stw.evtCons).toNat) :
    s.evtCons v = { s with stw := { s.stw with evtCons := v } } := if_neg (Nat.not_lt.mpr h)

theorem State.evtCons_of_lt {s : State} {v : Word} (h : (BitVec.ofNat 32 s.stw.nextSeq - s.stw.evtCons).toNat < (v - s.stw.evtCons).toNat) :
    s.evtCons v = s := if_pos h

theorem State.clkoutWrite_of_ok {s : State} {v : Word} {n : Nat} (hsel : v.toNat / 2 ^ 28 % 8 < 4) (hdiv : v.toNat / 2 ^ 23 % 16 < 9)
    (hmul : v.toNat / 2 ^ 17 % 64 < 0x22) : s.clkoutWrite n v = if n = 0 then { s with clk := { s.clk with clkout0 := v &&& 0xFFFE0000#32 } }
      else if n = 1 then { s with clk := { s.clk with clkout1 := v &&& 0xFFFE0000#32 } } else s :=
  if_neg (show ¬ (4 ≤ v.toNat / 2 ^ 28 % 8 ∨ 9 ≤ v.toNat / 2 ^ 23 % 16 ∨ 0x22 ≤ v.toNat / 2 ^ 17 % 64) by omega)

theorem State.clkoutWrite_of_bad {s : State} {v : Word} {n : Nat}
    (h : 4 ≤ v.toNat / 2 ^ 28 % 8 ∨ 9 ≤ v.toNat / 2 ^ 23 % 16 ∨ 0x22 ≤ v.toNat / 2 ^ 17 % 64) : s.clkoutWrite n v = s := if_pos h

/-- A Steward-only reset of a running Steward stops it and ends its sessions; the commands of its own rings are gone, and those that
wait for it on the management port are copied again (R570, R591). -/
theorem State.stewardReset_of_running {s : State} {cause : Nat} (hrun : s.stw.running = true) (hres : s.stw.resetting = false) :
    s.stewardReset cause = ((({ s with
      stw := { s.stw with
        running := false, resetting := true, resets := BitVec.ofNat 8 (min (s.stw.resets.toNat + 1) 0xFF), lastCause := cause }
      sec := { s.sec with sessions := [], debugSession := none } } : State).updBlock 9 (fun q => { q with cmds := [] })).updBlock 10
        (fun q => { q with cmds := [] })).updBlock 0
        (fun q => { q with cmds := q.cmds.map (fun k => if k.phase = .waiting then { k with phase := .copied } else k) }) :=
  if_neg (by simp [hrun, hres])

/-- Settles O28: each register's write or read is one branch of its row. -/
theorem controlRegisterResults : Obligations.ControlRegisterResults := by
  refine ⟨fun s v n dt => ⟨rfl, rfl, fun hup => exec_steppedClear_of_up hup, fun hup hle => ?_, fun hup hlt => ?_,
    fun hup => exec_timebaseLoRead_of_up hup, fun hup hsel hdiv hmul => ?_, fun hup hbad => ?_, fun hup _ _ => exec_stwReset_of_up hup⟩,
    fun s cause hrun hres => ?_⟩
  · rw [exec_evtConsWrite_of_up hup, State.evtCons_of_le hle]
  · rw [exec_evtConsWrite_of_up hup, State.evtCons_of_lt hlt]
  · rw [exec_clkoutCtrlWrite_of_up hup, exec_clkoutCtrlWrite_of_up hup, State.clkoutWrite_of_ok hsel hdiv hmul,
      State.clkoutWrite_of_ok hsel hdiv hmul]
    exact ⟨rfl, rfl⟩
  · rw [exec_clkoutCtrlWrite_of_up hup, State.clkoutWrite_of_bad hbad]
  · dsimp only
    rw [State.stewardReset_of_running hrun hres]
    have hcount : (BitVec.ofNat 8 (min (s.stw.resets.toNat + 1) 0xFF)).toNat = min (s.stw.resets.toNat + 1) 255 := by
      rw [BitVec.toNat_ofNat, Nat.mod_eq_of_lt (by omega)]
    exact ⟨rfl, rfl, rfl, hcount, rfl, rfl, rfl, rfl, rfl, rfl, rfl, rfl, rfl, rfl, rfl⟩

end Sys2Proof.Machine
end

section
/-! SUPPORT. The partition commands, and what a partition serves in each of its states (R453 to R457, R470, R472, R475). -/

namespace Sys2Proof.Machine

theorem exec_opPartCreate_of_atPoint {s : State} {c : CmdRef} {k : Cmd} (h : AtPoint s c k 0x0101) :
    exec (.opPartCreate c) s = .next (s.unlessLost c (s.partCreate c k).settle) :=
  congrArg Host.Outcome.next (State.gate_of_atPoint h rfl fun t k _ _ => t.partCreate c k)

theorem exec_opPartDestroy_of_atPoint {s : State} {c : CmdRef} {k : Cmd} (h : AtPoint s c k 0x0102) :
    exec (.opPartDestroy c) s = .next (s.unlessLost c (s.partDestroy c (k.home c)).settle) :=
  congrArg Host.Outcome.next (State.gate_of_atPoint h rfl fun t _ p _ => t.partDestroy c p)

theorem exec_opPartDisable_of_atPoint {s : State} {c : CmdRef} {k : Cmd} (h : AtPoint s c k 0x0103) :
    exec (.opPartDisable c) s = .next (s.unlessLost c (s.partDisable c k (k.home c)).settle) :=
  congrArg Host.Outcome.next (State.gate_of_atPoint h rfl fun t k p _ => t.partDisable c k p)

section PartCreate
variable {s : State} {c : CmdRef} {k : Cmd} (heq : s.equinox = false) (hblk : partBlockOk k = true) (hset : pairSetOk (k.p 1 1) = true)
include heq hblk hset

/-- A partition number in use is refused (R454). -/
theorem State.partCreate_of_taken {x : Partition} (hx : s.part (k.p 0 1) = some x) :
    s.partCreate c k = s.endCmd c (Fin.with stPartConflict 1) := by
  simp [State.partCreate, heq, hblk, hset, hx]

/-- A partition is made on pairs that are free, with a conductor and a quota that its size admits, and takes over the stores that lie
on exactly its pairs without a partition (R453 to R456). -/
theorem State.partCreate_of_ok {n : Nat} {crossed : Bool} (hfree : s.part (k.p 0 1) = none) (hpairs : s.pairsTaken (k.p 1 1) = 0)
    (hcond : s.placeConductor (k.p 0 1) = some (n, crossed)) (hform : (k.quotaAt 0x20).malformed true = false)
    (hlimit : quotaLimit (k.quotaAt 0x20) (bitsSet (k.p 1 1) 8).length = true)
    (hflash : ((s.orphans (bitsSet (k.p 1 1) 8)).map Store.units).sum ≤ (k.quotaAt 0x20).flash) :
    s.partCreate c k =
      let s1 := (s.setPart (k.p 0 1) (some (Partition.new k n crossed))).updCores ((pairDies (k.p 1 1)).flatMap dieKeys)
        (fun d => Cu.zeroingDone (Cu.zeroAll d))
      let s2 := (pairDies (k.p 1 1)).foldl (fun t d => t.updDie d (fun y => { y with parked := false })) s1
      ({ s2 with flash := { s2.flash with stores := s2.flash.stores.map (fun (t : Store) =>
        if t.part = none ∧ t.pairs = bitsSet (k.p 1 1) 8 then { t with part := some (k.p 0 1) } else t) } } : State).endCmd c Fin.ok := by
  have hroom : decide ((k.quotaAt 0x20).flash < ((s.orphans (bitsSet (k.p 1 1) 8)).map Store.units).sum) = false :=
    decide_eq_false (Nat.not_lt.mpr hflash)
  simp [State.partCreate, heq, hblk, hset, hfree, hpairs, hcond, hform, hlimit, hroom]

end PartCreate

section
variable {s : State} {c : CmdRef} {k : Cmd} {p : Nat} {x : Partition} (hx : s.part p = some x)
include hx

theorem State.partDestroy_of_active (hd : x.destroyedBy = none) (hstate : x.state = .active) :
    s.partDestroy c p = ((s.startCmd c).updPart p (fun y => { y with destroyedBy := some c.id })).beginDrain p := by
  simp [State.partDestroy, hx, hd, hstate]

theorem State.partDisable_of_active (hv : k.p 0 4 = 0) (hstate : x.state = .active) :
    s.partDisable c k p = ((s.startCmd c).beginDrain p).updPart p (fun y => { y with drainedBy := some c.id }) := by
  simp [State.partDisable, hx, hv, hstate]

theorem State.partDisable_of_disabled (hv : k.p 0 4 = 1) (hstate : x.state = .disabled) (hd : x.destroyedBy = none) :
    s.partDisable c k p = (s.updPart p (fun y => { y with state := .active })).endCmd c Fin.ok := by
  simp [State.partDisable, hx, hv, hstate, hd]

/-- Only a disabled partition is enabled (R475). -/
theorem State.partDisable_of_enable_active (hv : k.p 0 4 = 1) (hstate : x.state = .active) :
    s.partDisable c k p = s.endCmd c (Fin.with stPartConflict 4) := by
  simp [State.partDisable, hx, hv, hstate]

/-- What a partition serves in each of its states (R457). -/
theorem State.partCheck_of_part (hacc : k.accepted = false) : s.partCheck k p = match x.state with
    | .active => none
    | .draining => if k.opcode = 0x0102 then none else some (Fin.with stAbortedByDisable k.granules)
    | .disabled => if k.opcode = 0x0102 ∨ k.opcode = 0x0104 ∨ (k.opcode = 0x0103 ∧ k.p 0 1 % 2 = 1) then none
        else some (Fin.with stAbortedByDisable k.granules)
    | .destroying => some (Fin.with stAbortedByDisable k.granules) := by
  simp only [State.partCheck, hx, hacc]
  cases x.state with
  | active => rfl
  | draining => simp
  | disabled => simp [bitOf, or_assoc]
  | destroying => rfl

end

/-- Settles O33: the branches of the three commands, and the check of a partition's state. -/
theorem partitionCommandResults : Obligations.PartitionCommandResults := by
  refine ⟨fun s c k x => ⟨fun n crossed hat heq hblk hset hfree hpairs hcond hform hlimit hflash => ?_, fun hat heq hblk hset hx => ?_,
    fun hat hx hd hstate => ?_, fun hat hx hv hstate => ?_, fun hat hx hv hstate hd => ?_, fun hat hx hv hstate => ?_⟩,
    fun s k p x hx hacc => ?_⟩
  · rw [exec_opPartCreate_of_atPoint hat, State.partCreate_of_ok heq hblk hset hfree hpairs hcond hform hlimit hflash]
  · rw [exec_opPartCreate_of_atPoint hat, State.partCreate_of_taken heq hblk hset hx]
  · rw [exec_opPartDestroy_of_atPoint hat, State.partDestroy_of_active hx hd hstate]
  · rw [exec_opPartDisable_of_atPoint hat, State.partDisable_of_active hx hv hstate]
  · rw [exec_opPartDisable_of_atPoint hat, State.partDisable_of_disabled hx hv hstate hd]
  · rw [exec_opPartDisable_of_atPoint hat, State.partDisable_of_enable_active hx hv hstate]
  · rw [State.partCheck_of_part hx hacc]
    refine ⟨fun h => ?_, fun h => ?_, fun h => ?_, fun h => ?_⟩ <;> rw [h]

end Sys2Proof.Machine
end

section
/-! SUPPORT. OP_DCACHE_CONFIG, OP_JPEG_DECODE, OP_LSF_READ and OP_LSF_WRITE (R514, R515, R518, R527 to R533). -/

namespace Sys2Proof.Machine

/-! ### The gate of the decode commands (R514) -/

/-- A decode command runs where its context's area does not drain. -/
theorem State.decodeGate_of_atPoint {s : State} {c : CmdRef} {k : Cmd} {op : Nat} {y : Context} (h : AtPoint s c k op)
    (hop : decide (op = 0x0106) = false) (hy : s.ctx (k.home c) k.ctxField = some y) (f : State → Cmd → Nat → Nat → State) :
    s.decodeGate c op f = s.unlessLost c (if y.dcacheBy.isSome then s else f s k (k.home c) k.ctxField).settle := by
  rw [State.decodeGate, State.gate_of_atPoint h hop, hy]

theorem State.decodeGate_of_open {s : State} {c : CmdRef} {k : Cmd} {op : Nat} {y : Context} (h : AtPoint s c k op)
    (hop : decide (op = 0x0106) = false) (hy : s.ctx (k.home c) k.ctxField = some y) (hby : y.dcacheBy = none)
    (f : State → Cmd → Nat → Nat → State) : s.decodeGate c op f = s.unlessLost c (f s k (k.home c) k.ctxField).settle := by
  rw [State.decodeGate_of_atPoint h hop hy, hby]
  rfl

/-! ### OP_DCACHE_CONFIG (R514) -/

theorem exec_opDcacheConfig_of_atPoint {s : State} {c : CmdRef} {k : Cmd} (h : AtPoint s c k 0x0502) :
    exec (.opDcacheConfig c) s = .next (s.unlessLost c (s.dcacheConfig c k (k.home c) k.ctxField).settle) :=
  congrArg Host.Outcome.next (State.gate_of_atPoint h rfl fun t k p h => t.dcacheConfig c k p h)

section DcacheConfig
variable {s : State} {c : CmdRef} {k : Cmd} {p h : Nat} {y : Context} (hy : s.ctx p h = some y) (hby : y.dcacheBy = none)
include hy hby

theorem State.dcacheConfig_of_bad {off : Nat} (hbad : dcacheBad k = some off) : s.dcacheConfig c k p h = s.endCmd c (badDecode 0 off) := by
  simp [State.dcacheConfig, hy, hby, hbad]

theorem State.dcacheConfig_of_good (hgood : dcacheBad k = none) : s.dcacheConfig c k p h =
    if bitOf (k.p 0xC 4) 0 = false ∧ s.dcacheFits p h (if k.p 8 4 = 0 then 0 else k.p 8 4 + k.p 0 6) = false then
      s.endCmd c (Fin.with stQuota 0)
    else (s.startCmd c).updCtx p h (fun z => { z with dcacheBy := some c.id }) := by
  simp [State.dcacheConfig, hy, hby, hgood]

end DcacheConfig

/-! ### OP_JPEG_DECODE of one sample (R518) -/

section Jpeg
variable {s : State} {c : CmdRef} {k : Cmd} {p h : Nat}

theorem State.jpegDecode_of_bad {no off : Nat} (hbad : jpegBad k = some (no, off)) :
    s.jpegDecode c k p h = s.endCmd c (badDecode no off) := by
  unfold State.jpegDecode
  rw [hbad]

theorem State.jpegDecode_of_empty (hgood : jpegBad k = none) (h0 : k.p 0 2 = 0) : s.jpegDecode c k p h = s.endCmd c (Fin.bare stOkEmpty) := by
  unfold State.jpegDecode
  rw [hgood]
  exact if_pos h0

theorem State.jpegDecode_of_no_area (hgood : jpegBad k = none) (h0 : k.p 0 2 ≠ 0) (harea : (s.ctx p h).bind Context.decode = none) :
    s.jpegDecode c k p h = s.endCmd c noStaging := by
  unfold State.jpegDecode
  rw [hgood]
  dsimp only
  rw [if_neg h0, harea]

/-- The cache entry that a sample's key finds. -/
abbrev Cmd.cached (k : Cmd) (a : DecodeArea) (x : Sample) : Option DcEntry :=
  if k.jpegCache then a.find (k.p 8 8) x.index k.jpegColor else none

/-- The size of the output of a sample. -/
abbrev Cmd.jpegOut (k : Cmd) (width height planes : Nat) : Nat :=
  jpegSize (if k.jpegAug then k.p 4 2 else width) (if k.jpegAug then k.p 6 2 else height) planes

variable {a : DecodeArea} {x : Sample} (hgood : jpegBad k = none) (harea : (s.ctx p h).bind Context.decode = some a) (hone : k.samples = [x])
include hgood harea hone

omit hgood harea in
theorem Cmd.count_of_samples : k.p 0 2 ≠ 0 := by
  have hlen : k.samples.length = k.p 0 2 := by simp [Cmd.samples]
  rw [← hlen, hone]
  exact Nat.one_ne_zero

/-- A sample that its cache entry serves is written from it. -/
theorem State.jpegDecode_of_hit {e : DcEntry} (hfrom : k.cached a x = some e) (hlen : e.len = x.len) (hfits : s.stage c p h 0 = .fits)
    (hsize : k.jpegOut e.width e.height e.planes.length ≤ 256 * x.units) :
    s.jpegDecode c k p h = ((s.startCmd c).updCmd c (fun j => { j with staged := 0 })).jpegWrite c k p h [(x, .hit e)] 0 0 := by
  have hroom : ¬ 256 * x.units < k.jpegOut e.width e.height e.planes.length := Nat.not_lt.mpr hsize
  have hcheck : jpegCheck k [(x, .hit e)] = none := by
    unfold Cmd.jpegOut at hroom
    cases haug : k.jpegAug <;> simp_all [jpegCheck]
  unfold State.jpegDecode
  rw [hgood]
  dsimp only
  rw [if_neg (Cmd.count_of_samples hone), harea, hone]
  simp [hfrom, hlen, hfits, State.stageAll, jpegWalks, hcheck]

section Miss
variable {bs : List Byte} {t : State} {w : Jpeg.Walk} (hfrom : k.cached a x = none) (hfits : s.stage c p h x.len = .fits)
  (hread : s.readEng (k.who c.block) x.src x.len = .ok bs t)
include hfrom hfits hread

theorem State.jpegDecode_of_walk_error {e : Jpeg.Err} (hwalk : Jpeg.walk bs.toArray = .error e) :
    s.jpegDecode c k p h = t.endCmd c (Fin.with e.status (decodeDetail x.no e.sub e.at_)) := by
  simp [State.jpegDecode, hgood, Cmd.count_of_samples hone, harea, hone, hfrom, hfits, State.stageAll, hread, jpegWalks, hwalk]

theorem State.jpegDecode_of_check_error {f : Fin} (hwalk : Jpeg.walk bs.toArray = .ok w) (hcheck : jpegCheck k [(x, .miss false w)] = some f) :
    s.jpegDecode c k p h = t.endCmd c f := by
  simp [State.jpegDecode, hgood, Cmd.count_of_samples hone, harea, hone, hfrom, hfits, State.stageAll, hread, jpegWalks, hwalk, hcheck]

/-- A sample that no cache entry serves is staged, walked and checked, and decoded where its coefficients fit the area too. -/
theorem State.jpegDecode_of_staged {f : Jpeg.Frame} (hwalk : Jpeg.walk bs.toArray = .ok w) (hframe : w.frame = some f)
    (hcheck : jpegCheck k [(x, .miss false w)] = none) (hstage : t.stage c p h (x.len + Jpeg.coeffBytes f) = .fits) :
    s.jpegDecode c k p h = ((t.startCmd c).updCmd c (fun j => { j with staged := x.len + Jpeg.coeffBytes f })).jpegWrite c k p h
      [(x, .miss false w)] 0 0 := by
  simp [State.jpegDecode, hgood, Cmd.count_of_samples hone, harea, hone, hfrom, hfits, State.stageAll, hread, jpegWalks, hwalk, hcheck, hframe,
    hstage]

end Miss

end Jpeg

section Write
variable {s t : State} {c : CmdRef} {k : Cmd} {p h : Nat} {x : Sample} {e : DcEntry} {w : Jpeg.Walk}

/-- The image of a cache entry. -/
abbrev DcEntry.image (e : DcEntry) : Jpeg.Image := { width := e.width, height := e.height, precision := e.precision, planes := e.planes }

theorem State.jpegWrite_of_lost {d : Nat} (hread : s.readEntry p h e = (some d, t)) :
    s.jpegWrite c k p h [(x, .hit e)] 0 0 = t.endCmd c (Fin.with stDataLoss d) := by
  simp [State.jpegWrite, hread, Fin.with, Fin.bare]

theorem State.jpegWrite_of_hit {u : State} (hread : s.readEntry p h e = (none, u))
    (hwrite : u.writePieces (k.who c.block) (jpegPieces k x e.image true false) = .ok () t) :
    s.jpegWrite c k p h [(x, .hit e)] 0 0 = ((t.granuleDone c).updDecode p h (fun b => b.touch e)).endCmd c { Fin.ok with c0 := 1, c1 := 1 } := by
  simp [State.jpegWrite, hread, hwrite]

theorem State.jpegWrite_of_error {e : Jpeg.Err} (hdecode : Jpeg.decode w k.jpegColor = .error e) :
    s.jpegWrite c k p h [(x, .miss false w)] 0 0 = s.endCmd c (Fin.with e.status (decodeDetail x.no e.sub e.at_)) := by
  simp [State.jpegWrite, hdecode, Fin.with, Fin.bare]

theorem State.jpegWrite_of_miss {im : Jpeg.Image} (hdecode : Jpeg.decode w k.jpegColor = .ok im)
    (hwrite : s.writePieces (k.who c.block) (jpegPieces k x im false false) = .ok () t) :
    s.jpegWrite c k p h [(x, .miss false w)] 0 0 = (if k.jpegCache then (t.granuleDone c).insertEntry p h {
        dataset := k.p 8 8, index := x.index, color := k.jpegColor, len := x.len, width := im.width, height := im.height,
        precision := im.precision, planes := im.planes, room := [] } else t.granuleDone c).endCmd c { Fin.ok with c0 := 1 } := by
  simp [State.jpegWrite, hdecode, hwrite, Fin.ok, Fin.bare]

end Write

section Check
variable {k : Cmd} {x : Sample} {w : Jpeg.Walk} {f : Jpeg.Frame} (hframe : w.frame = some f)
include hframe

theorem jpegCheck_of_little {e : Jpeg.Err} (hlittle : Jpeg.tooLittle f w = some e) :
    jpegCheck k [(x, .miss false w)] = some (Fin.with e.status (decodeDetail x.no e.sub e.at_)) := by
  simp [jpegCheck, hframe, hlittle]

theorem jpegCheck_of_room (henough : Jpeg.tooLittle f w = none) (hsize : k.jpegOut f.width f.height f.comps.length ≤ 256 * x.units) :
    jpegCheck k [(x, .miss false w)] = none := by
  have hroom : ¬ 256 * x.units < k.jpegOut f.width f.height f.comps.length := Nat.not_lt.mpr hsize
  unfold Cmd.jpegOut at hroom
  cases haug : k.jpegAug <;> simp_all [jpegCheck]

end Check

/-! ### The decode cache (R523) -/

theorem sortBy_nil {α : Type} (le : α → α → Bool) : sortBy le [] = [] := rfl

/-- An entry alone in the cache stands at its start (R523). -/
theorem DecodeArea.insert_alone {a : DecodeArea} {e : DcEntry} (hfit : e.bytes ≤ a.cacheBytes)
    (halone : (a.entries.filter (fun z => !(z.dataset == e.dataset && z.index == e.index && z.color == e.color))) = []) :
    a.insert e = { a with entries := [{ e with room := if e.bytes = 0 then [] else [(0, e.bytes)] }] } := by
  have hroom : takeRoom e.bytes (freeRanges a.cacheBytes 0 []) = if e.bytes = 0 then [] else [(0, e.bytes)] := by
    simp only [freeRanges, takeRoom, Nat.sub_zero]
    split_ifs with h0 hcap
    · rfl
    · omega
    · simp [Nat.min_eq_right hfit]
  unfold DecodeArea.insert
  rw [if_neg (Nat.not_lt.mpr hfit)]
  dsimp only
  rw [halone]
  simp only [evict, List.flatMap_nil, sortBy_nil, hroom, List.nil_append]

/-! ### OP_LSF_READ and OP_LSF_WRITE (R527 to R531) -/

section LsfRead
variable {s : State} {c : CmdRef} {k : Cmd} {p h : Nat} (hfirst : s.lsfBehind c k = false)
include hfirst

theorem State.lsfRead_of_empty (hgood : lsfReadBad k = none) (h0 : k.p 4 4 = 0) : s.lsfRead c k p h = s.endCmd c (Fin.bare stOkEmpty) := by
  simp [State.lsfRead, hfirst, hgood, h0]

theorem State.lsfRead_of_bad {off : Nat} (hbad : lsfReadBad k = some off) : s.lsfRead c k p h = s.endCmd c (badDecode 0 off) := by
  simp [State.lsfRead, hfirst, hbad]

end LsfRead

section LsfRecord
variable {x : LsfSlot} {r : LsfRec}

theorem LsfSlot.handle_of_full (hfull : r.delta = false) : x.handle r = (0, unpackTokens x.n x.tokBits r.payload) := by
  simp [LsfSlot.handle, hfull]

theorem LsfSlot.handle_of_skipping (hdelta : r.delta = true) (hskip : x.skipping = true) : x.handle r = (2, []) := by
  simp [LsfSlot.handle, hdelta, hskip]

theorem LsfSlot.handle_of_missing (hdelta : r.delta = true) (hskip : x.skipping = false)
    (hmissing : x.store.find? (fun f => f.1 == r.ref) = none) : x.handle r = (1, []) := by
  simp only [LsfSlot.handle, hdelta, hskip, hmissing]
  rfl

theorem LsfSlot.recordFault_of_crc (hcrc : (crc32 r.payload).toNat ≠ r.crc) : x.recordFault r = some 0x21 := if_pos hcrc

theorem LsfSlot.recordFault_of_order {i : Nat} (hcrc : (crc32 r.payload).toNat = r.crc) (hlast : x.lastIndex = some i) (hold : r.index ≤ i) :
    x.recordFault r = some 0x23 := by
  simp [LsfSlot.recordFault, hcrc, hlast, hold, rOrder]

variable {s t : State} {c : CmdRef} {w : Who} {p h slot dst n skipped : Nat} {bad : Option Nat} {rs : List LsfRec} {ref : Option (Nat × Nat)}
  (hslot : (s.ctx p h).bind (fun z => z.lsfSlot slot) = some x)
include hslot

theorem State.lsfRecords_of_fault {reason : Nat} (hfault : x.recordFault r = some reason) :
    s.lsfRecords c w p h slot dst bad (r :: rs) n skipped ref =
      s.endCmd c { status := stDecodeCorrupt, detail := decodeDetail n reason r.off, c0 := n, c1 := skipped, out := [] } := by
  simp [State.lsfRecords, hslot, hfault]

theorem State.lsfRecords_of_decoded (hfault : x.recordFault r = none) (hdecoded : (x.handle r).1 = 0)
    (hwrite : s.writePieces w (x.pieces r dst n 0 (x.handle r).2) = .ok () t) :
    s.lsfRecords c w p h slot dst bad (r :: rs) n skipped ref =
      ((t.setLsf p h slot (some (x.after r 0 (x.handle r).2))).granuleDone c).lsfRecords c w p h slot dst bad rs (n + 1) skipped ref := by
  simp [State.lsfRecords, hslot, hfault, hdecoded, hwrite]

end LsfRecord

section LsfWrite
variable {s : State} {c : CmdRef} {k : Cmd} {p h : Nat}

theorem State.lsfWrite_of_bad {off : Nat} (hbad : lsfWriteBad k = some off) : s.lsfWrite c k p h = s.endCmd c (badDecode 0 off) := by
  simp [State.lsfWrite, hbad]

theorem State.lsfWrite_of_empty (hgood : lsfWriteBad k = none) (h0 : k.p 8 4 = 0) : s.lsfWrite c k p h = s.endCmd c (Fin.bare stOkEmpty) := by
  simp [State.lsfWrite, hgood, h0]

/-- A grid whose tokens fit their bits and the vocabulary ends nothing (R531). -/
theorem lsfBadToken_of_fit {n : Nat} {g : List Nat} (h : ∀ v ∈ g, v < 2 ^ k.p 0 1 ∧ (k.p 0xC 4 = 0 ∨ v < k.p 0xC 4)) :
    lsfBadToken k n [g] = none := by
  have hfind : g.findIdx? (fun t => decide (2 ^ k.p 0 1 ≤ t) || (k.p 0xC 4 != 0 && decide (k.p 0xC 4 ≤ t))) = none := by
    rw [List.findIdx?_eq_none_iff]
    intro v hv
    obtain ⟨hbits, hvocab⟩ := h v hv
    simp only [Bool.or_eq_false_iff, decide_eq_false_iff_not, Bool.and_eq_false_iff, bne_eq_false_iff_eq]
    omega
  simp [lsfBadToken, hfind]

/-- One grid is staged, checked and written as a container. -/
theorem State.lsfWrite_of_one {bs : List Byte} {t u : State} (hgood : lsfWriteBad k = none) (h1 : k.p 8 4 = 1)
    (hfits : s.stage c p h (4 * (k.p 4 2 * k.p 6 2)) = .fits)
    (hread : s.readEng (k.who c.block) (k.p 0x10 6) (4 * (k.p 4 2 * k.p 6 2)) = .ok bs t)
    (hroom : 64 + (32 + (k.p 4 2 * k.p 6 2 + 7) / 8 + packedLen (k.p 4 2 * k.p 6 2) (k.p 0 1)) ≤ k.p 0x20 4)
    (htok : lsfBadToken k (k.p 4 2 * k.p 6 2) [(List.range (k.p 4 2 * k.p 6 2)).map (fun i => field bs (4 * i) 4)] = none)
    (hwrite : t.writePieces (k.who c.block)
      [(k.p 0x18 6, lsfContainer k [(List.range (k.p 4 2 * k.p 6 2)).map (fun i => field bs (4 * i) 4)])] = .ok () u) :
    s.lsfWrite c k p h = (((u.startCmd c).updCmd c (fun j => { j with staged := 4 * (k.p 4 2 * k.p 6 2) })).granuleDone c).endCmd c
      { Fin.ok with c0 := 1, c1 := (lsfContainer k [(List.range (k.p 4 2 * k.p 6 2)).map (fun i => field bs (4 * i) 4)]).length } := by
  simp [State.lsfWrite, hgood, h1, hfits, State.stageAll, hread, Nat.not_lt.mpr hroom, htok, hwrite]

end LsfWrite

/-- Settles O35: each check ends its command, and one sample, record or grid is followed to its end. -/
theorem inputDecodeResults : Obligations.InputDecodeResults := by
  refine ⟨fun s c k y p h => ⟨fun hat hy hby => ?_, fun hat hy hby => ?_, fun hat hy hby => ⟨fun off hbad => ?_, fun hgood hfit => ?_,
    fun hgood hb hfit => ?_⟩, fun no off hbad => State.jpegDecode_of_bad hbad, fun hgood h0 => State.jpegDecode_of_empty hgood h0,
    fun hgood h0 harea => State.jpegDecode_of_no_area hgood h0 harea, fun a x hgood harea hone => ⟨fun e t hfrom hlen hfits => ?_,
    fun bs t hfrom hfits hread => ⟨fun e hwalk => ?_, fun w f e hwalk hframe hlittle => ?_, fun w f hwalk hframe henough => ?_⟩⟩,
    fun e a hfit halone => DecodeArea.insert_alone hfit halone⟩,
    fun s c k p h y => ⟨fun hat hy hby => ?_, fun hat hy hby => ?_, fun hfirst hgood h0 => State.lsfRead_of_empty hfirst hgood h0,
    fun off hfirst hbad => State.lsfRead_of_bad hfirst hbad, fun x r => ⟨LsfSlot.handle_of_full, LsfSlot.handle_of_skipping,
    LsfSlot.handle_of_missing, LsfSlot.recordFault_of_crc, fun i hcrc hlast hold => LsfSlot.recordFault_of_order hcrc hlast hold⟩,
    fun w slot dst n skipped bad r rs ref x t hslot => ⟨fun reason hfault => State.lsfRecords_of_fault hslot hfault,
    fun hfault hdecoded hwrite => State.lsfRecords_of_decoded hslot hfault hdecoded hwrite⟩, fun w slot dst n skipped rf ix => ⟨?_, ?_⟩,
    fun off hbad => State.lsfWrite_of_bad hbad, fun hgood h0 => State.lsfWrite_of_empty hgood h0,
    fun bs t u hgood h1 hfits hread hroom htok hwrite => ?_⟩⟩
  · exact congrArg Host.Outcome.next (State.decodeGate_of_open hat rfl hy hby fun t k p h => t.jpegDecode c k p h)
  · refine (congrArg Host.Outcome.next (State.decodeGate_of_atPoint hat rfl hy fun t k p h => t.jpegDecode c k p h)).trans ?_
    rw [if_pos hby]
  · rw [exec_opDcacheConfig_of_atPoint hat, State.dcacheConfig_of_bad hy hby hbad]
  · rw [exec_opDcacheConfig_of_atPoint hat, State.dcacheConfig_of_good hy hby hgood, if_neg]
    rintro ⟨hb, hshort⟩
    rcases hfit with hset | hfits
    · exact absurd (hset.symm.trans hb) nofun
    · exact absurd (hfits.symm.trans hshort) nofun
  · rw [exec_opDcacheConfig_of_atPoint hat, State.dcacheConfig_of_good hy hby hgood, if_pos ⟨hb, hfit⟩]
  · intro im hsize
    refine ⟨fun d u hlost => ?_, fun u hread hwrite => ?_⟩
    · rw [State.jpegDecode_of_hit hgood harea hone hfrom hlen hfits hsize, State.jpegWrite_of_lost hlost]
    · rw [State.jpegDecode_of_hit hgood harea hone hfrom hlen hfits hsize, State.jpegWrite_of_hit hread hwrite]
  · exact State.jpegDecode_of_walk_error hgood harea hone hfrom hfits hread hwalk
  · exact State.jpegDecode_of_check_error hgood harea hone hfrom hfits hread hwalk (jpegCheck_of_little hframe hlittle)
  · intro need hsize hstage t1
    have hwritten := State.jpegDecode_of_staged hgood harea hone hfrom hfits hread hwalk hframe (jpegCheck_of_room hframe henough hsize) hstage
    refine ⟨fun e hdecode => ?_, fun im t2 hdecode hwrite => ⟨fun hcache => ?_, fun hcache => ?_⟩⟩
    · rw [hwritten, State.jpegWrite_of_error hdecode]
    · rw [hwritten, State.jpegWrite_of_miss hdecode hwrite, hcache]
      rfl
    · rw [hwritten, State.jpegWrite_of_miss hdecode hwrite, hcache]
      rfl
  · exact congrArg Host.Outcome.next (State.decodeGate_of_open hat rfl hy hby fun t k p h => t.lsfRead c k p h)
  · exact congrArg Host.Outcome.next (State.decodeGate_of_open hat rfl hy hby fun t k p h => t.lsfWrite c k p h)
  · rfl
  · intro hskipped
    exact if_neg (Nat.pos_iff_ne_zero.mp hskipped)
  · refine State.lsfWrite_of_one hgood h1 hfits hread hroom (lsfBadToken_of_fit fun v hv => ?_) hwrite
    obtain ⟨i, hi, rfl⟩ := List.mem_map.mp hv
    exact htok i (List.mem_range.mp hi)

end Sys2Proof.Machine
end

section
/-! SUPPORT. The capture commands (R482, R485, R491, R511). -/

namespace Sys2Proof.Machine

section Gates
variable {s : State} {c : CmdRef} {k : Cmd}

theorem exec_opCapAssign_of_atPoint (h : AtPoint s c k 0x0601) :
    exec (.opCapAssign c) s = .next (s.unlessLost c (s.capAssign c k (k.home c)).settle) :=
  congrArg Host.Outcome.next (State.gate_of_atPoint h rfl fun t k p _ => t.capAssign c k p)

theorem exec_opCapConfig_of_atPoint (h : AtPoint s c k 0x0602) :
    exec (.opCapConfig c) s = .next (s.unlessLost c (s.capConfig c k (k.home c) k.ctxField).settle) :=
  congrArg Host.Outcome.next (State.gate_of_atPoint h rfl fun t k p h => t.capConfig c k p h)

theorem exec_opCapStart_of_atPoint (h : AtPoint s c k 0x0603) :
    exec (.opCapStart c) s = .next (s.unlessLost c (s.capStart c k (k.home c) k.ctxField).settle) :=
  congrArg Host.Outcome.next (State.gate_of_atPoint h rfl fun t k p h => t.capStart c k p h)

theorem exec_opCapStop_of_atPoint (h : AtPoint s c k 0x0604) :
    exec (.opCapStop c) s = .next (s.unlessLost c (s.capStop c k (k.home c)).settle) :=
  congrArg Host.Outcome.next (State.gate_of_atPoint h rfl fun t k p _ => t.capStop c k p)

theorem exec_opHarvest_of_atPoint (h : AtPoint s c k 0x0605) :
    exec (.opHarvest c) s = .next (s.unlessLost c (s.harvest c k (k.home c) k.ctxField).settle) :=
  congrArg Host.Outcome.next (State.gate_of_atPoint h rfl fun t k p h => t.harvest c k p h)

end Gates

/-! ### OP_CAP_ASSIGN (R482) -/

theorem bitsSet_two_pow : ∀ v, v < 16 → bitsSet (2 ^ v) 16 = [v] := by decide

section CapAssign
variable {s : State} {c : CmdRef} {k : Cmd} {p : Nat}

theorem State.capAssign_of_bad {off : Nat} (hbad : capAssignBad k = some off) : s.capAssign c k p = s.endCmd c (Fin.with stCapParam off) := by
  simp [State.capAssign, hbad, badCap]

/-- The lane settings of a receiver. -/
abbrev Cmd.lanesOf (k : Cmd) (x : CapPort) : CapPort := { x with lanes := k.p 1 1, laneMap := k.p 4 1, pol := k.p 5 1, maxRate := k.p 8 4 }

variable (hgood : capAssignBad k = none)
include hgood

theorem State.capAssign_of_half_lost (hhalf : s.capHalf (k.p 0 1 % 2) = false) : s.capAssign c k p = s.endCmd c (Fin.with stCapState 1) := by
  simp [State.capAssign, hgood, hhalf]

variable {v : Nat} (hhalf : s.capHalf (k.p 0 1 % 2) = true) (hmask : k.p 2 2 = 2 ^ v) (hv : v < 16)
include hhalf hmask hv

section Assign
variable (hassign : bitOf (k.p 0 1) 1 = false)
include hassign

theorem State.capAssign_of_other_owner {q : Nat} (hq : (s.stream (16 * (k.p 0 1 % 2) + v)).part = some q) (hne : q ≠ p) :
    s.capAssign c k p = s.endCmd c (Fin.with stCapState 2) := by
  simp [State.capAssign, hgood, hhalf, hmask, bitsSet_two_pow v hv, hassign, hq, hne]

variable (hown : (s.stream (16 * (k.p 0 1 % 2) + v)).part = none ∨ (s.stream (16 * (k.p 0 1 % 2) + v)).part = some p)
include hown

/-- The settings of a receiver do not change while one of its streams lives (R482). -/
theorem State.capAssign_of_live (hsame : (s.capPort (k.p 0 1 % 2)).same k = false)
    (hlive : (List.range 16).all (fun u => !(s.stream (16 * (k.p 0 1 % 2) + u)).live) = false) :
    s.capAssign c k p = s.endCmd c (Fin.with stCapState 3) := by
  have hany : (List.range 16).any (fun u => (s.stream (16 * (k.p 0 1 % 2) + u)).live) = true := by
    simpa [List.all_eq_not_any_not] using hlive
  rcases hown with hown | hown <;>
    simp [State.capAssign, hgood, hhalf, hmask, bitsSet_two_pow v hv, hassign, hown, hsame, hany]

theorem State.capAssign_of_unassigned (hlive : (List.range 16).all (fun u => !(s.stream (16 * (k.p 0 1 % 2) + u)).live) = true)
    (hstate : (s.stream (16 * (k.p 0 1 % 2) + v)).state = .unassigned) :
    s.capAssign c k p = ((s.updStream (16 * (k.p 0 1 % 2) + v) (fun _ => { Stream.reset with state := .assigned, part := some p })).updCapPort
      (k.p 0 1 % 2) k.lanesOf).endCmd c Fin.ok := by
  have hany : (List.range 16).any (fun u => (s.stream (16 * (k.p 0 1 % 2) + u)).live) = false := by
    simpa [List.all_eq_not_any_not] using hlive
  rcases hown with hown | hown <;>
    simp [State.capAssign, hgood, hhalf, hmask, bitsSet_two_pow v hv, hassign, hown, hany, State.updStream, hstate]

end Assign

theorem State.capAssign_of_release (hrelease : bitOf (k.p 0 1) 1 = true) (hown : (s.stream (16 * (k.p 0 1 % 2) + v)).part = some p)
    (hstate : (s.stream (16 * (k.p 0 1 % 2) + v)).state = .assigned)
    (hlive : (List.range 16).all (fun u => !(s.stream (16 * (k.p 0 1 % 2) + u)).live) = true) :
    s.capAssign c k p = ((s.updStream (16 * (k.p 0 1 % 2) + v) (fun _ => Stream.reset)).updCapPort (k.p 0 1 % 2) k.lanesOf).endCmd c Fin.ok := by
  have hany : (List.range 16).any (fun u => (s.stream (16 * (k.p 0 1 % 2) + u)).live) = false := by
    simpa [List.all_eq_not_any_not] using hlive
  simp [State.capAssign, hgood, hhalf, hmask, bitsSet_two_pow v hv, hrelease, hown, hany, State.updStream, hstate]

end CapAssign

/-! ### OP_CAP_CONFIG (R485) -/

section CapConfig
variable {s t : State} {c : CmdRef} {k : Cmd} {p h : Nat}

theorem State.capConfig_of_bad {off : Nat} (hbad : capConfigBad k = some off) : s.capConfig c k p h = s.endCmd c (Fin.with stCapParam off) := by
  simp [State.capConfig, hbad, badCap]

variable {ps : List Byte} (hgood : capConfigBad k = none) (hnew : bitOf (k.p 0 1) 5 = false)
  (hpart : (s.stream (k.p 0 1 % 32)).part = some p) (hstate : (s.stream (k.p 0 1 % 32)).state = .assigned)
  (hset : s.capUncovered (k.who c.block) (k.p 0x10 6) 0x9000 = none)
  (hbufs : ∀ b, b < k.capCfg.nbuf → s.capUncovered (k.who c.block) (k.capCfg.outBase + b * k.capCfg.bufStride) k.capCfg.bufBytes = none)
  (hread : s.readEng (k.who c.block) (k.p 0x10 6) 0x9000 = .ok ps t)
include hgood hnew hpart hstate hset hbufs hread

omit hgood hnew hpart hstate hset hread in
theorem State.bufs_covered : (List.range k.capCfg.nbuf).findSome? (fun b =>
    s.capUncovered (k.who c.block) (k.capCfg.outBase + b * k.capCfg.bufStride) k.capCfg.bufBytes) = none := by
  simpa [List.findSome?_eq_none_iff] using hbufs

theorem State.capConfig_of_bad_set {o : Nat} (hbad : Pipe.setBad ps = some o) :
    s.capConfig c k p h = t.endCmd c (Fin.with stCapParam (o + 2 ^ 16)) := by
  simp [State.capConfig, hgood, hnew, hpart, hstate, List.findSome?_map, Function.comp_def, hset, State.bufs_covered hbufs, hread, hbad]

/-- An assigned stream with a good parameter set and room for its areas is configured. -/
theorem State.capConfig_of_good {u : State} (hok : Pipe.setBad ps = none) (hareas : t.capAreas p h (k.p 0 1 % 32) k.capCfg = some u) :
    s.capConfig c k p h = (u.updStream (k.p 0 1 % 32) (fun y => { y with
      state := .configured, cfg := k.capCfg, params := ps, paramsNext := none, gen := 0, refValid := false, ref := [], ring := [],
      lostSince := 0, frames := [] })).endCmd c Fin.ok := by
  simp [State.capConfig, hgood, hnew, hpart, hstate, List.findSome?_map, Function.comp_def, hset, State.bufs_covered hbufs, hread, hok, hareas]

end CapConfig

/-! ### OP_CAP_START, OP_CAP_STOP and OP_HARVEST (R491, R511) -/

section
variable {s t : State} {c : CmdRef} {k : Cmd} {p h : Nat}

section Streams
variable (hn : k.p 0 4 < 32)
include hn

theorem State.capStart_of_not_configured (hstate : (s.stream (k.p 0 4)).state ≠ .configured) :
    s.capStart c k p h = s.endCmd c (Fin.bare stCapState) := by
  simp [State.capStart, Nat.not_le.mpr hn, hstate]

theorem State.capStart_of_configured (hpart : (s.stream (k.p 0 4)).part = some p) (hctx : (s.stream (k.p 0 4)).ctx = some h)
    (hstate : (s.stream (k.p 0 4)).state = .configured)
    (hwrite : s.capWrites (s.stream (k.p 0 4)).who ((List.range (s.stream (k.p 0 4)).cfg.nbuf).map
      (fun b => statePiece (s.stream (k.p 0 4)).cfg b 0)) = (t, none)) :
    s.capStart c k p h = (t.updStream (k.p 0 4) (fun y => { y with
      state := .running, nextBuf := 0, frameNum := 0, refValid := false, counts := CapCounts.zero, frames := [], signalLost := false,
      stopBy := none })).endCmd c Fin.ok := by
  simp [State.capStart, Nat.not_le.mpr hn, hpart, hctx, hstate, hwrite]

theorem State.capStop_of_other_part (hpart : (s.stream (k.p 0 4)).part ≠ some p) : s.capStop c k p = s.endCmd c (Fin.bare stCapState) := by
  simp [State.capStop, Nat.not_le.mpr hn, hpart]

section
variable (hpart : (s.stream (k.p 0 4)).part = some p)
include hpart

theorem State.capStop_of_faulted (hstate : (s.stream (k.p 0 4)).state = .faulted) :
    s.capStop c k p = (s.updStream (k.p 0 4) (fun y => { y with state := .configured })).endCmd c Fin.ok := by
  simp [State.capStop, Nat.not_le.mpr hn, hpart, hstate]

theorem State.capStop_of_running (hstate : (s.stream (k.p 0 4)).state = .running) :
    s.capStop c k p = (s.startCmd c).updStream (k.p 0 4) (fun y => y.drain (some (c.block, c.id))) := by
  simp [State.capStop, Nat.not_le.mpr hn, hpart, hstate]

theorem State.capStop_of_assigned (hstate : (s.stream (k.p 0 4)).state = .assigned) : s.capStop c k p = s.endCmd c (Fin.bare stCapState) := by
  simp [State.capStop, Nat.not_le.mpr hn, hpart, hstate]

end

end Streams

theorem State.harvest_of_written (hgood : harvestBad k = none) (hpart : (s.stream (k.p 0 1)).part = some p)
    (hctx : (s.stream (k.p 0 1)).ctx = some h)
    (hwrite : s.writeList (k.who c.block) ((k.p 8 6, (s.stream (k.p 0 1)).status) :: (((s.stream (k.p 0 1)).ring.take (k.p 1 1)).zipIdx).map
      (fun e => (k.p 8 6 + 0x100 + e.2 * 8448, e.1))) = .ok () t) :
    s.harvest c k p h = (t.updStream (k.p 0 1) (fun y => { y with
      ring := y.ring.drop ((s.stream (k.p 0 1)).ring.take (k.p 1 1)).length, lostSince := 0 })).endCmd c
      { Fin.ok with c0 := ((s.stream (k.p 0 1)).ring.take (k.p 1 1)).length, c1 := (s.stream (k.p 0 1)).lostSince } := by
  simp only [State.harvest, hgood, hpart, hctx, hwrite, beq_self_eq_true, Bool.and_self, Bool.not_true, Bool.false_eq_true, if_false]

end

/-- Settles O37: the five commands pass their gate, and each branch of theirs ends as its rule says. -/
theorem captureCommandResults : Obligations.CaptureCommandResults := by
  refine fun s c k => ⟨exec_opCapAssign_of_atPoint, exec_opCapConfig_of_atPoint, exec_opCapStart_of_atPoint, exec_opCapStop_of_atPoint,
    exec_opHarvest_of_atPoint, fun p h => ⟨fun off hbad => State.capAssign_of_bad hbad, fun hgood => ⟨State.capAssign_of_half_lost hgood,
    fun v hhalf hmask hv hassign => ⟨fun q hq hne => State.capAssign_of_other_owner hgood hhalf hmask hv hassign hq hne,
    fun hown hlive hstate => State.capAssign_of_unassigned hgood hhalf hmask hv hassign hown hlive hstate,
    fun hown hsame hlive => State.capAssign_of_live hgood hhalf hmask hv hassign hown hsame hlive⟩,
    fun v hhalf hmask hv hrelease hown hstate hlive => State.capAssign_of_release hgood hhalf hmask hv hrelease hown hstate hlive⟩,
    fun off hbad => State.capConfig_of_bad hbad, fun ps t u hgood hnew hpart hstate hset hbufs hread =>
      ⟨fun o hbad => State.capConfig_of_bad_set hgood hnew hpart hstate hset hbufs hread hbad,
      fun hok hareas => State.capConfig_of_good hgood hnew hpart hstate hset hbufs hread hok hareas⟩,
    fun t hn hpart hctx hstate hwrite => State.capStart_of_configured hn hpart hctx hstate hwrite,
    fun hn => ⟨State.capStart_of_not_configured hn, State.capStop_of_other_part hn, State.capStop_of_faulted hn,
      State.capStop_of_running hn, State.capStop_of_assigned hn⟩,
    fun t hgood hpart hctx hwrite => State.harvest_of_written hgood hpart hctx hwrite⟩⟩

end Sys2Proof.Machine
end

section
/-! SUPPORT. Capture packets, frames and the time base (R480, R489, R497 to R499, R503, R508). -/

namespace Sys2Proof.Machine

/-! ### Packets of a receiver (R480, R489) -/

theorem satHalf_eq (v : Half) : satHalf v = if v = 0xFFFF#16 then 0xFFFF#16 else v + 1 := by
  unfold satHalf
  split
  · assumption
  · rfl

section Packets
variable {s : State} {port vc ty fn dt : Nat} {codes : List Nat} {bad corr backlog : Bool}

/-- The stream of a receiver's virtual channel. -/
abbrev streamOf (port vc : Nat) : Nat := 16 * port + vc

section
variable (hport : port < 2) (hvc : vc < 16) (hhalf : s.capHalf port = true)
include hport hvc hhalf

section Dead
variable (hlive : (s.stream (streamOf port vc)).live = false)
include hlive

theorem exec_csiLongPacket_of_dead : exec (.csiLongPacket port vc ty codes bad corr backlog) s = .next (s.capDiscard port corr) := by
  simp [exec, execCsiLongPacket, Nat.not_le.mpr hport, Nat.not_le.mpr hvc, hhalf, hlive]

theorem exec_csiOtherPacket_of_dead : exec (.csiOtherPacket port vc corr) s = .next (s.capDiscard port corr) := by
  simp [exec, execCsiOtherPacket, Nat.not_le.mpr hport, Nat.not_le.mpr hvc, hhalf, hlive]

theorem exec_csiFrameEnd_of_dead : exec (.csiFrameEnd port vc corr) s = .next (s.capDiscard port corr) := by
  simp [exec, execCsiFrameEnd, Nat.not_le.mpr hport, Nat.not_le.mpr hvc, hhalf, hlive]

end Dead

section Live
variable (hlive : (s.stream (streamOf port vc)).live = true)
include hlive

theorem exec_csiLongPacket_of_line (hcorr : corr = false) (hty : ty = 0x2B ∨ ty = 0x2C ∨ ty = 0x2D) :
    exec (.csiLongPacket port vc ty codes bad corr backlog) s =
      .next (s.setStream (streamOf port vc) ((s.stream (streamOf port vc)).updOpen (fun f => { f with
        lines := f.lines ++ [codes.map (fun v => v % 2 ^ capBits ty)]
        badLine := f.badLine || bad
        overrun := f.overrun || backlog
        formatErr := f.formatErr || ty != (s.stream (streamOf port vc)).cfg.dt || codes.length != (s.stream (streamOf port vc)).cfg.width ||
          decide ((s.stream (streamOf port vc)).cfg.height ≤ f.lines.length) }))) := by
  have hraw : ¬(ty ≠ 0x2B ∧ ty ≠ 0x2C ∧ ty ≠ 0x2D) := by omega
  simp [exec, execCsiLongPacket, Nat.not_le.mpr hport, Nat.not_le.mpr hvc, hhalf, hlive, hcorr, if_neg hraw, Stream.corrected]

theorem exec_csiFrameEnd_of_live (hcorr : corr = false) : exec (.csiFrameEnd port vc corr) s =
    .next (s.updStream (streamOf port vc) (fun y => y.updOpen (fun f => { f with
      ended := true, formatErr := f.formatErr || decide (f.lines.length < y.cfg.height) }))) := by
  simp [exec, execCsiFrameEnd, Nat.not_le.mpr hport, Nat.not_le.mpr hvc, hhalf, hlive, hcorr, Stream.corrected]

theorem exec_csiOtherPacket_of_corrected (hcorr : corr = true) : exec (.csiOtherPacket port vc corr) s =
    .next (s.updStream (streamOf port vc) (fun y => { y with
      counts := { y.counts with hdrCorrected := if y.counts.hdrCorrected = 0xFFFF#16 then 0xFFFF#16 else y.counts.hdrCorrected + 1 } })) := by
  simp [satHalf_eq, exec, execCsiOtherPacket, Nat.not_le.mpr hport, Nat.not_le.mpr hvc, hhalf, hlive, hcorr, Stream.corrected]

end Live
end

section FrameStart
variable (hport : port < 2) (hvc : vc < 16) (hhalf : (s.tick dt).capHalf port = true)
  (hlive : ((s.tick dt).stream (streamOf port vc)).live = true)
include hport hvc hhalf hlive

/-- A frame start on a live stream: a frame that is still open is truncated first (R489). -/
theorem exec_csiFrameStart_of_live {t : State} (ht : (s.tick dt).updStream (streamOf port vc) (fun y => y.corrected corr) = t) :
    exec (.csiFrameStart port vc fn corr dt) s =
      let u := if (t.stream (streamOf port vc)).openFrame.isSome then t.truncateOpen (streamOf port vc) else t
      .next (if (u.stream (streamOf port vc)).state = .running then u.beginCapFrame (streamOf port vc) fn else u).settle := by
  simp [exec, execCsiFrameStart, Nat.not_le.mpr hport, Nat.not_le.mpr hvc, hhalf, hlive, ht]

end FrameStart
end Packets

/-! ### Frames (R497 to R499, R503) -/

section Frames
variable {s t u : State} {n fn dt : Nat} {f : CapFrame} {fs : List CapFrame} {bs : List Byte}

theorem State.beginCapFrame_of_free (hread : s.readEng (s.stream n).who ((s.stream n).cfg.buf (s.stream n).nextBuf) 4 = .ok bs t)
    (hfree : leNat bs = 0)
    (hwrite : t.capWrites (s.stream n).who [((s.stream n).cfg.buf (s.stream n).nextBuf, leBytes 4 1)] = (u, none)) :
    s.beginCapFrame n fn = u.setStream n { s.stream n with
      params := (s.stream n).paramsNext.getD (s.stream n).params, paramsNext := none, genInUse := (s.stream n).gen
      frameNum := (s.stream n).frameNum + 1, signalLost := false, nextBuf := ((s.stream n).nextBuf + 1) % (s.stream n).cfg.nbuf
      counts := { (s.stream n).counts with started := satInc32 (s.stream n).counts.started }
      frames := (s.stream n).frames ++ [{
        num := (s.stream n).frameNum, csiFn := BitVec.ofNat 16 fn, paramGen := (s.stream n).gen, sofTime := s.tb.now
        buf := some (s.stream n).nextBuf, params := (s.stream n).paramsNext.getD (s.stream n).params, lines := [], badLine := false
        formatErr := false, truncated := false, overrun := false, aborted := false, ended := false, spoiled := false }] } := by
  simp [State.beginCapFrame, hread, hfree, statePiece, hwrite]

theorem State.beginCapFrame_of_held (hread : s.readEng (s.stream n).who ((s.stream n).cfg.buf (s.stream n).nextBuf) 4 = .ok bs t)
    (hheld : leNat bs ≠ 0) :
    s.beginCapFrame n fn = t.setStream n { s.stream n with
      params := (s.stream n).paramsNext.getD (s.stream n).params, paramsNext := none, genInUse := (s.stream n).gen
      frameNum := (s.stream n).frameNum + 1, signalLost := false, nextBuf := (s.stream n).nextBuf
      counts := { (s.stream n).counts with started := satInc32 (s.stream n).counts.started }
      frames := (s.stream n).frames ++ [{
        num := (s.stream n).frameNum, csiFn := BitVec.ofNat 16 fn, paramGen := (s.stream n).gen, sofTime := s.tb.now
        buf := none, params := (s.stream n).paramsNext.getD (s.stream n).params, lines := [], badLine := false
        formatErr := false, truncated := false, overrun := false, aborted := false, ended := false, spoiled := false }] } := by
  simp [State.beginCapFrame, hread, hheld]

theorem exec_frameTimeout_of_not_running (hstate : (s.stream n).state ≠ .running) : exec (.frameTimeout n) s = .next s := by
  simp [exec, execFrameTimeout, hstate]

theorem exec_frameTimeout_of_no_frame (hstate : (s.stream n).state = .running) (hopen : (s.stream n).openFrame = none) :
    exec (.frameTimeout n) s = .next ((s.setStream n { s.stream n with signalLost := true }).record
      { EventRec.plain 0x0603 with part := (s.stream n).part.getD 0xF }) := by
  simp [exec, execFrameTimeout, hstate, hopen]

theorem exec_frameTimeout_of_open (hstate : (s.stream n).state = .running) (hopen : (s.stream n).openFrame.isSome = true) :
    exec (.frameTimeout n) s = .next (s.truncateOpen n).settle := by
  simp [exec, execFrameTimeout, hstate, hopen]

section Exit
variable (hframes : ((s.tick dt).stream n).frames = f :: fs) (hlive : ((s.tick dt).stream n).live = true)
include hframes hlive

theorem exec_pipelineExit_of_open (hended : f.ended = false) : exec (.pipelineExit n dt) s = .next (s.tick dt) := by
  simp [exec, execPipelineExit, hframes, hlive, hended]

theorem exec_pipelineExit_of_last (hended : f.ended = true) (hlast : (((s.tick dt).exitFrame n f).stream n).frames = []) :
    exec (.pipelineExit n dt) s = .next ((s.tick dt).exitFrame n f).settle := by
  simp [exec, execPipelineExit, hframes, hlive, hended, hlast, State.leaveDropped]

end Exit

theorem State.exitFrame_of_bad (hbad : f.badLine = true ∨ f.formatErr = true) (hbuf : f.buf = none) :
    t.exitFrame n f = t.updStream n (fun y => y.leave f (f.outcome false) false 0 []) := by
  simp [State.exitFrame, hbad, State.dropHead, hbuf]

end Frames

section Records
variable {x : Stream} {f : CapFrame} {o exit_ : Nat} {tmp : Bool} {st : List Byte}

theorem Stream.leave_of_room (hroom : x.ring.length < x.cfg.statDepth) :
    x.leave f o tmp exit_ st = { x with
      frames := x.frames.drop 1, ring := x.ring ++ [capRecord f o tmp exit_ st], counts := x.counts.count o } := by
  simp [Stream.leave, Nat.not_le.mpr hroom]

theorem Stream.leave_of_full (hfull : x.cfg.statDepth ≤ x.ring.length) :
    (x.leave f o tmp exit_ st).ring = x.ring.drop 1 ++ [capRecord f o tmp exit_ st] ∧
      (x.leave f o tmp exit_ st).lostSince = x.lostSince + 1 := by
  simp [Stream.leave, hfull]

end Records

/-! ### The time base (R508) -/

section TimeBase
variable {s : State} {b : TimeState} {dt : Nat}

theorem exec_tsyncEdge_of_off (hen : (s.tick dt).tb.ctrlEn = false) : exec (.tsyncEdge dt) s = .next (s.tick dt) := by
  simp [exec, execTsyncEdge, hen]

theorem exec_tsyncEdge_of_on (hen : (s.tick dt).tb.ctrlEn = true) :
    exec (.tsyncEdge dt) s = .next { s.tick dt with tb := (s.tick dt).tb.edge } := by
  simp [exec, execTsyncEdge, hen]

theorem exec_tsyncLost_of_off (hen : (s.tick dt).tb.ctrlEn = false) : exec (.tsyncLost dt) s = .next (s.tick dt) := by
  simp [exec, execTsyncLost, hen]

theorem exec_tsyncLost_of_on (hen : (s.tick dt).tb.ctrlEn = true) (hlost : (s.tick dt).tb.lost = false) :
    exec (.tsyncLost dt) s = .next (({ s.tick dt with tb := { (s.tick dt).tb with lost := true } } : State).event 0x0602) := by
  simp [exec, execTsyncLost, hen, hlost]

theorem TimeState.periodNs_of_ne_zero (hp : b.periodMs ≠ 0) : b.periodNs = b.periodMs.toNat * 1000000 := by
  rw [TimeState.periodNs, if_neg hp]

/-- The whole number of periods nearest to the time, in ns. -/
def TimeState.nearest (b : TimeState) : Nat := (2 * b.now + b.periodNs) / (2 * b.periodNs) * b.periodNs

/-- How far the time is from the nearest whole number of periods. -/
def TimeState.err (b : TimeState) : Int := (b.now : Int) - b.nearest

/-- The time base with the flags of an edge. -/
def TimeState.flagged (b : TimeState) : TimeState :=
  { b with locked := decide (b.err.natAbs ≤ 1000), lost := false, lastErr := satErr b.err }

theorem TimeState.flagged_now : b.flagged.now = b.now := by
  rw [TimeState.flagged]

theorem TimeState.edge_eq : b.edge = if b.err.natAbs ≤ 1000000 then { b.flagged with rate := rateFor b.err b.periodNs }
    else if b.err < 0 then { b.flagged with now := b.nearest, stepped := true }
    else { b.flagged with rate := -200000 } := rfl

theorem TimeState.edge_flags : b.edge.lost = false ∧ b.edge.locked = decide (b.err.natAbs ≤ 1000) ∧ b.edge.lastErr = satErr b.err := by
  rw [TimeState.edge_eq]
  split
  · exact ⟨rfl, rfl, rfl⟩
  · split
    · exact ⟨rfl, rfl, rfl⟩
    · exact ⟨rfl, rfl, rfl⟩

theorem TimeState.edge_of_near (hnear : b.err.natAbs ≤ 1000000) : b.edge.now = b.now ∧ b.edge.rate = rateFor b.err b.periodNs := by
  simp only [TimeState.edge_eq, if_pos hnear, TimeState.flagged_now, and_self]

theorem far_of_lt {e : Int} (h : 1000000 < e) : ¬e.natAbs ≤ 1000000 ∧ ¬e < 0 := by omega

theorem far_of_lt_neg {e : Int} (h : e < -1000000) : ¬e.natAbs ≤ 1000000 ∧ e < 0 :=
  ⟨Int.natAbs_neg e ▸ (far_of_lt (lt_neg.mp h)).1, h.trans (by decide)⟩

theorem TimeState.edge_of_behind (hbehind : b.err < -1000000) : b.edge.now = b.nearest ∧ b.edge.stepped = true := by
  obtain ⟨hfar, hneg⟩ := far_of_lt_neg hbehind
  simp only [TimeState.edge_eq, if_neg hfar, if_pos hneg, and_self]

theorem TimeState.edge_of_ahead (hahead : 1000000 < b.err) : b.edge.now = b.now ∧ b.edge.rate = -200000 := by
  obtain ⟨hfar, hpos⟩ := far_of_lt hahead
  simp only [TimeState.edge_eq, if_neg hfar, if_neg hpos, TimeState.flagged_now, and_self]

/-- What an edge does to a time base whose period is in use as it stands (R508). -/
theorem TimeState.edge_results (hp : b.periodMs ≠ 0) : let p := b.periodMs.toNat * 1000000
    let m := (2 * b.now + p) / (2 * p) * p
    let e : Int := (b.now : Int) - m
    b.edge.lost = false ∧ b.edge.locked = decide (e.natAbs ≤ 1000) ∧ b.edge.lastErr = BitVec.ofInt 24 (max (-8388608) (min 8388607 e)) ∧
    (e.natAbs ≤ 1000000 → b.edge.now = b.now ∧ b.edge.rate = max (-200000) (min 200000 (-(e * 1000000000) / p))) ∧
    (e < -1000000 → b.edge.now = m ∧ b.edge.stepped = true) ∧
    (1000000 < e → b.edge.now = b.now ∧ b.edge.rate = -200000) := by
  rw [← TimeState.periodNs_of_ne_zero hp]
  obtain ⟨hlost, hlocked, herr⟩ := b.edge_flags
  exact ⟨hlost, hlocked, herr, TimeState.edge_of_near, TimeState.edge_of_behind, TimeState.edge_of_ahead⟩

end TimeBase

/-- Settles O38: each packet, frame and edge goes through one branch of its command. -/
theorem captureEventResults : Obligations.CaptureEventResults := by
  refine ⟨fun s port vc fn ty dt codes bad corr backlog hport hvc hhalf => ⟨fun hdead => ⟨exec_csiLongPacket_of_dead hport hvc hhalf hdead,
      exec_csiOtherPacket_of_dead hport hvc hhalf hdead, exec_csiFrameEnd_of_dead hport hvc hhalf hdead⟩,
    exec_csiLongPacket_of_line hport hvc hhalf, exec_csiFrameEnd_of_live hport hvc hhalf, exec_csiOtherPacket_of_corrected hport hvc hhalf,
    fun hhalf hlive hopen => ⟨fun hrun => ?_, fun hrun => ?_⟩, fun hhalf hlive hopen hrun => ?_⟩,
    fun s n fn => ⟨fun bs t u => State.beginCapFrame_of_free, fun bs t => State.beginCapFrame_of_held⟩,
    fun s n => ⟨exec_frameTimeout_of_not_running, exec_frameTimeout_of_no_frame, exec_frameTimeout_of_open⟩,
    fun s n dt f fs hframes hlive => ⟨exec_pipelineExit_of_open hframes hlive,
      fun hended _ hlast => exec_pipelineExit_of_last hframes hlive hended hlast, State.exitFrame_of_bad⟩,
    fun x f o exit_ tmp st => ⟨fun hroom => ?_, Stream.leave_of_full⟩,
    fun s dt => ⟨fun hen => ⟨exec_tsyncEdge_of_off hen, exec_tsyncLost_of_off hen⟩, exec_tsyncEdge_of_on, exec_tsyncLost_of_on⟩,
    fun b => TimeState.edge_results⟩
  · simp only [exec_csiFrameStart_of_live hport hvc hhalf hlive rfl, hopen, hrun, Option.isSome_none, Bool.false_eq_true, if_false, if_true]
  · simp only [exec_csiFrameStart_of_live hport hvc hhalf hlive rfl, hopen, hrun, Option.isSome_none, Bool.false_eq_true, if_false]
  · simp only [exec_csiFrameStart_of_live hport hvc hhalf hlive rfl, hopen, hrun, if_true]
  · rw [Stream.leave_of_room hroom]
    exact ⟨rfl, rfl, rfl, rfl⟩

end Sys2Proof.Machine
end

section
/-! SUPPORT. Authorized commands, life-cycle transitions and erasure (R541 to R546). -/

namespace Sys2Proof.Machine

/-! ### The trailer of an authorized command (R541) -/

section Trailer
variable {s : State} {k : Cmd} {off : Nat} {permits : Nat → Bool}

theorem State.trailerFault_of_not_permitted (hpermits : permits (k.p (off + 8) 8) = false) : s.trailerFault k off permits = some 7 := by
  simp [State.trailerFault, hpermits]

section Permitted
variable (hpermits : permits (k.p (off + 8) 8) = true)
include hpermits

theorem State.trailerFault_of_other_key
    (hkey : s.signerHash (k.p (off + 8) 8) ≠ some (beNat (Config.sha384 (k.pBytes (off + 0x10) 48 ++ k.pBytes (off + 0x40) 48)))) :
    s.trailerFault k off permits = some 2 := by
  simp [State.trailerFault, hpermits, hkey]

section Keyed
variable (hkey : s.signerHash (k.p (off + 8) 8) = some (beNat (Config.sha384 (k.pBytes (off + 0x10) 48 ++ k.pBytes (off + 0x40) 48))))
include hkey

theorem State.trailerFault_of_no_point
    (hpoint : ¬Config.onP384 (beNat (k.pBytes (off + 0x10) 48)) (beNat (k.pBytes (off + 0x40) 48)) = true) :
    s.trailerFault k off permits = some 4 := by
  simp [State.trailerFault, hpermits, hkey, Bool.not_eq_true _ ▸ hpoint]

variable (hpoint : Config.onP384 (beNat (k.pBytes (off + 0x10) 48)) (beNat (k.pBytes (off + 0x40) 48)) = true)
include hpoint

theorem State.trailerFault_of_stale (hstale : ¬s.sec.lastAuthSeq < k.p off 8) : s.trailerFault k off permits = some 3 := by
  simp [State.trailerFault, hpermits, hkey, hpoint, Nat.not_lt.mp hstale]

variable (hfresh : s.sec.lastAuthSeq < k.p off 8)
include hfresh

/-- What the signature of a trailer covers and whether it holds. -/
abbrev Cmd.signedBy (k : Cmd) (off : Nat) : Bool :=
  Config.ecdsaVerify (beNat (k.pBytes (off + 0x10) 48)) (beNat (k.pBytes (off + 0x40) 48)) (beNat (k.pBytes (off + 0x70) 48))
    (beNat (k.pBytes (off + 0xA0) 48)) (Config.sha384 (leBytes 2 k.opcode ++ leBytes 8 Config.serial.toNat ++ k.pBytes 0 (off + 0x70)))

theorem State.trailerFault_of_signature :
    s.trailerFault k off permits = if k.signedBy off then none else some 1 := by
  simp only [State.trailerFault, hpermits, hkey, hpoint, Nat.not_le.mpr hfresh, Bool.not_true, Bool.false_eq_true, ne_eq, not_true_eq_false,
    if_false]
  change (if (!k.signedBy off) = true then some 1 else none) = _
  cases k.signedBy off with
  | false => rfl
  | true => rfl

end Keyed
end Permitted
end Trailer

theorem State.signerHash_of_owner {s : State} {i : Nat} (hi : i < 4) :
    s.signerHash i = if s.sec.fuses.ownerRevoke.getLsbD i then none else SMap.get none s.sec.fuses.owner i := by
  rw [State.signerHash, if_neg (by omega)]

/-! ### Life-cycle transitions (R543, R545) -/

theorem exec_opLcAdvance_of_atPoint {s : State} {c : CmdRef} {k : Cmd} {bad : Option Nat} (h : AtPoint s c k 0x0801) :
    exec (.opLcAdvance c bad) s = .next (s.unlessLost c ((s.lcAdvance c k bad).settle)) :=
  congrArg Host.Outcome.next (State.gate_of_atPoint h rfl fun t k _ _ => t.lcAdvance c k bad)

theorem exec_opKeyProvision_of_atPoint {s : State} {c : CmdRef} {k : Cmd} {fb : Bool} (h : AtPoint s c k 0x0802) :
    exec (.opKeyProvision c fb) s = .next (s.unlessLost c ((s.keyProvision c k fb).settle)) :=
  congrArg Host.Outcome.next (State.gate_of_atPoint h rfl fun t k _ _ => t.keyProvision c k fb)

/-- The state of a life-cycle command whose fuses are being blown: the bits of its target are set and no debug session is left. -/
abbrev State.lcBlown (s : State) (c : CmdRef) (k : Cmd) : State :=
  { (s.startCmd c).storeAuthSeq k 0x10 with sec := { ((s.startCmd c).storeAuthSeq k 0x10).sec with
    fuses := { ((s.startCmd c).storeAuthSeq k 0x10).sec.fuses with
      lc := ((s.startCmd c).storeAuthSeq k 0x10).sec.fuses.lc ||| lcBits (k.p 0 1) }
    debugSession := none } }

section LcAdvance
variable {s : State} {c : CmdRef} {k : Cmd} {bad : Option Nat} {owner erase : Bool}
  (hothers : s.othersRun c = false) (htrial : s.anyTrial = false) (hto : k.p 0 1 < 16) (hzero : k.zeros 1 15 = true)
include hothers htrial hto hzero

theorem State.lcAdvance_of_no_move (hmove : lcMove s.lcState (k.p 0 1) = none) :
    s.lcAdvance c k bad = s.endCmd c (Fin.with stLcTransition 1) := by
  simp [State.lcAdvance, hothers, htrial, Nat.not_le.mpr hto, hzero, hmove]

section Move
variable (hmove : lcMove s.lcState (k.p 0 1) = some (owner, erase))
include hmove

theorem State.lcAdvance_of_partition (hscrub : erase = true ∨ k.p 0 1 = 3) (hpart : s.parts.any (fun e => e.2.isSome) = true) :
    s.lcAdvance c k bad = s.endCmd c (Fin.with stLcTransition 2) := by
  simp only [State.lcAdvance, hothers, htrial, Nat.not_le.mpr hto, hzero, hmove, Bool.false_eq_true, or_self, if_false, Bool.not_true, hpart, and_true]
  rw [if_pos hscrub]

variable (hpart : s.parts.any (fun e => e.2.isSome) = false)
include hpart

theorem State.lcAdvance_of_fault {r : Nat} (hfault : s.trailerFault k 0x10 (if owner then byOwner else byEcfer) = some r) :
    s.lcAdvance c k bad = s.endCmd c (Fin.with stAuthRequired r) := by
  simp only [State.lcAdvance, hothers, htrial, Nat.not_le.mpr hto, hzero, hmove, Bool.false_eq_true, or_self, if_false, Bool.not_true, hpart,
    and_false, hfault, authFin]

variable (hfault : s.trailerFault k 0x10 (if owner then byOwner else byEcfer) = none)
include hfault

/-- An authorized transition: its life-cycle fuse fails, a fuse of the erasure fails, or it takes place (R543, R545). -/
theorem State.lcAdvance_of_authorized : s.lcAdvance c k bad =
    if bad = some 0 then (((s.startCmd c).storeAuthSeq k 0x10).event 0x0803).endCmd c (Fin.with stLcTransition 3)
    else ((bad.map (fun n => n - 1)).filter (fun n => erase && (s.lcBlown c k).sec.fuses.lacks n)).elim
      (let t := if erase then (s.lcBlown c k).killKeys.dropKeys else s.lcBlown c k
       let u := (((if erase = true ∨ k.p 0 1 = 3 then t.scrubAll else t).event 0x0801).endCmd c Fin.ok)
       if erase then u.startErase else u)
      (fun n => ((((s.lcBlown c k).stopErase n).event 0x0801).event 0x0803).endCmd c (Fin.with stLcTransition 3)) := by
  simp only [State.lcAdvance, hothers, htrial, Nat.not_le.mpr hto, hzero, hmove, Bool.false_eq_true, or_self, if_false, Bool.not_true, hpart,
    and_false, hfault]
  cases (bad.map (fun n => n - 1)).filter (fun n => erase && (s.lcBlown c k).sec.fuses.lacks n) <;> rfl

theorem State.lcAdvance_of_lc_fuse_bad (hbad : bad = some 0) :
    s.lcAdvance c k bad = (((s.startCmd c).storeAuthSeq k 0x10).event 0x0803).endCmd c (Fin.with stLcTransition 3) := by
  rw [State.lcAdvance_of_authorized hothers htrial hto hzero hmove hpart hfault, if_pos hbad]

theorem State.lcAdvance_of_plain (hbad : bad = none) (herase : erase = false) (hto3 : k.p 0 1 ≠ 3) :
    s.lcAdvance c k bad = ((s.lcBlown c k).event 0x0801).endCmd c Fin.ok := by
  rw [State.lcAdvance_of_authorized hothers htrial hto hzero hmove hpart hfault, hbad, herase]
  simp [hto3]

theorem State.lcAdvance_of_owned (hbad : bad = none) (herase : erase = false) (hto3 : k.p 0 1 = 3) :
    s.lcAdvance c k bad = ((s.lcBlown c k).scrubAll.event 0x0801).endCmd c Fin.ok := by
  rw [State.lcAdvance_of_authorized hothers htrial hto hzero hmove hpart hfault, hbad, herase]
  simp [hto3]

theorem State.lcAdvance_of_erase (hbad : bad = none) (herase : erase = true) :
    s.lcAdvance c k bad = (((s.lcBlown c k).killKeys.dropKeys.scrubAll.event 0x0801).endCmd c Fin.ok).startErase := by
  rw [State.lcAdvance_of_authorized hothers htrial hto hzero hmove hpart hfault, hbad, herase]
  simp

theorem State.lcAdvance_of_key_fuse_bad {n : Nat} (hbad : bad = some (n + 1)) (herase : erase = true)
    (hlacks : (s.lcBlown c k).sec.fuses.lacks n = true) :
    s.lcAdvance c k bad = ((((s.lcBlown c k).stopErase n).event 0x0801).event 0x0803).endCmd c (Fin.with stLcTransition 3) := by
  rw [State.lcAdvance_of_authorized hothers htrial hto hzero hmove hpart hfault, hbad, herase, if_neg nofun]
  simp only [Option.map_some, Nat.add_sub_cancel, Option.filter_some, Bool.true_and, hlacks, if_true, Option.elim_some]

end Move
end LcAdvance

/-- The bits of a target are those of it and of every lower state (R543). -/
theorem lcBits_getLsbD : ∀ t, 1 ≤ t → t ≤ 5 → ∀ i, i < 4 → (lcBits t).getLsbD i = decide (i + 1 < t) := by
  intro t hlo hhi i hi
  interval_cases t <;> interval_cases i <;> rfl

/-! ### Erasure (R544, R546) -/

theorem State.updCores_mem {f : Core → Core} (ks : List Nat) (s : State) : (s.updCores ks f).mem = s.mem := by
  induction ks generalizing s with
  | nil => rfl
  | cons k ks ih => exact ih (s.updCore k f)

theorem State.updCores_stw {f : Core → Core} (ks : List Nat) (s : State) : (s.updCores ks f).stw = s.stw := by
  induction ks generalizing s with
  | nil => rfl
  | cons k ks ih => exact ih (s.updCore k f)

@[simp] theorem State.scrubAll_dram (s : State) : s.scrubAll.mem.dram = [] := congrArg MemState.dram (State.updCores_mem ..)

@[simp] theorem State.scrubAll_ring (s : State) : s.scrubAll.stw.ring = [] := congrArg Steward.ring (State.updCores_stw ..)

theorem State.dropKeys_stores (s : State) : s.dropKeys.flash.stores = [] :=
  List.filter_eq_nil_iff.mpr fun _ _ => Bool.false_ne_true

theorem exec_flashEraseDone_of_idle {s : State} (hpending : s.sec.erasePending = false) : exec .flashEraseDone s = .next s := by
  simp [exec, execFlashEraseDone, hpending]

theorem exec_flashEraseDone_of_pending {s : State} (hpending : s.sec.erasePending = true) :
    ∃ t : State, exec .flashEraseDone s = .next (t.event 0x0802) ∧ t.sec.erasePending = false ∧
      t.flash.erasing = false ∧ (∀ e ∈ t.flash.pairs, e.2.map = [] ∧ e.2.jobs = []) ∧ t.stw = s.stw ∧ t.sec.fuses = s.sec.fuses := by
  have hnot : ¬(!s.sec.erasePending) = true := by simp [hpending]
  refine ⟨_, congrArg Host.Outcome.next (if_neg hnot), rfl, rfl, fun e he => ?_, rfl, rfl⟩
  obtain ⟨i, -, rfl⟩ := List.mem_map.mp he
  exact ⟨rfl, rfl⟩

/-! ### Owner keys (R546) -/

section KeyProvision
variable {s : State} {c : CmdRef} {k : Cmd} {fb : Bool} (hothers : s.othersRun c = false) (hslot : k.p 0 1 < 4) (hzero : k.zeros 1 15 = true)
include hothers hslot hzero

/-- A write of an owner slot: the slot is taken, the trailer is at fault, or its fuses are blown. -/
theorem State.keyProvision_of_write : s.keyProvision c k fb =
    if s.slotOk (k.p 0 1) false = false then s.endCmd c (Fin.with stAuthRequired 6)
    else
      let first := s.lcState == 2 && !(List.range 4).any s.ownerSet
      let t := if first then s.startCmd c else (s.startCmd c).storeAuthSeq k 0x40
      (if first then (if k.zeros 0x40 208 then none else some 7) else s.trailerFault k 0x40 byOwner).elim
        (if fb then (t.event 0x0803).endCmd c (Fin.with stLcTransition 3)
         else ({ t with sec := { t.sec with fuses := { t.sec.fuses with
           owner := SMap.set none t.sec.fuses.owner (k.p 0 1) (some (beNat (k.pBytes 0x10 48))) } } } : State).endCmd c Fin.ok)
        (fun r => s.endCmd c (Fin.with stAuthRequired r)) := by
  have hmod : k.p 0 1 % 4 = k.p 0 1 := Nat.mod_eq_of_lt hslot
  have hrevoke : bitOf (k.p 0 1) 2 = false := by simp [bitOf, Nat.div_eq_of_lt hslot]
  have hrange : ¬8 ≤ k.p 0 1 := by omega
  simp only [State.keyProvision, hothers, hmod, hrevoke, hrange, hzero, authFin, Bool.not_false, Bool.true_and, Bool.false_and, Bool.not_true,
    Bool.false_eq_true, or_self, if_false, Bool.not_eq_true']
  split
  · rfl
  · split <;> rename_i hfault <;> rw [hfault] <;> rfl

theorem State.keyProvision_of_taken (htaken : s.slotOk (k.p 0 1) false = false) :
    s.keyProvision c k fb = s.endCmd c (Fin.with stAuthRequired 6) := by
  rw [State.keyProvision_of_write hothers hslot hzero, if_pos htaken]

variable (hfree : s.slotOk (k.p 0 1) false = true) (hfuse : fb = false)
include hfree hfuse

theorem State.keyProvision_of_first (hlc : s.lcState = 2) (hnone : (List.range 4).any s.ownerSet = false) (htrailer : k.zeros 0x40 208 = true) :
    s.keyProvision c k fb = ({ s.startCmd c with sec := { (s.startCmd c).sec with fuses := { (s.startCmd c).sec.fuses with
      owner := SMap.set none (s.startCmd c).sec.fuses.owner (k.p 0 1) (some (beNat (k.pBytes 0x10 48))) } } } : State).endCmd c Fin.ok := by
  rw [State.keyProvision_of_write hothers hslot hzero, if_neg (by simp [hfree])]
  simp [hlc, hnone, htrailer, hfuse]

theorem State.keyProvision_of_owner (hlc : s.lcState = 3) (hfault : s.trailerFault k 0x40 byOwner = none) :
    s.keyProvision c k fb = ({ (s.startCmd c).storeAuthSeq k 0x40 with sec := { ((s.startCmd c).storeAuthSeq k 0x40).sec with
      fuses := { ((s.startCmd c).storeAuthSeq k 0x40).sec.fuses with
        owner := SMap.set none ((s.startCmd c).storeAuthSeq k 0x40).sec.fuses.owner (k.p 0 1) (some (beNat (k.pBytes 0x10 48))) } } } : State).endCmd
          c Fin.ok := by
  rw [State.keyProvision_of_write hothers hslot hzero, if_neg (by simp [hfree])]
  simp [hlc, hfault, hfuse]

end KeyProvision

/-- Settles O39: the trailer is checked in its order, and each command takes one branch. -/
theorem authorizedCommandResults : Obligations.AuthorizedCommandResults := by
  refine fun s c k bad fb => ⟨fun off permits => ⟨State.trailerFault_of_not_permitted, State.trailerFault_of_other_key,
      State.trailerFault_of_no_point, State.trailerFault_of_stale, fun hpermits hkey hpoint hfresh hsigned => ?_,
      fun hpermits hkey hpoint hfresh hsigned => ?_⟩, fun i hi => State.signerHash_of_owner hi, exec_opLcAdvance_of_atPoint,
    exec_opKeyProvision_of_atPoint, fun hothers htrial hto hzero => ⟨State.lcAdvance_of_no_move hothers htrial hto hzero,
      fun owner erase hmove => ⟨State.lcAdvance_of_partition hothers htrial hto hzero hmove,
      fun hpart => ⟨fun r => State.lcAdvance_of_fault hothers htrial hto hzero hmove hpart,
      fun hfault => ⟨State.lcAdvance_of_lc_fuse_bad hothers htrial hto hzero hmove hpart hfault,
        State.lcAdvance_of_plain hothers htrial hto hzero hmove hpart hfault,
        State.lcAdvance_of_owned hothers htrial hto hzero hmove hpart hfault,
        State.lcAdvance_of_erase hothers htrial hto hzero hmove hpart hfault,
        fun n => State.lcAdvance_of_key_fuse_bad hothers htrial hto hzero hmove hpart hfault⟩⟩⟩⟩,
    lcBits_getLsbD, ⟨rfl, rfl, rfl, rfl, s.dropKeys_stores, s.scrubAll_dram, s.scrubAll_ring⟩,
    fun slot hothers hslot hlt hzero => ?_, exec_flashEraseDone_of_idle, exec_flashEraseDone_of_pending⟩
  · rw [State.trailerFault_of_signature hpermits hkey hpoint hfresh, if_neg hsigned]
  · rw [State.trailerFault_of_signature hpermits hkey hpoint hfresh, if_pos hsigned]
  · subst hslot
    exact ⟨State.keyProvision_of_taken hothers hlt hzero,
      fun hfree hlc hnone htrailer hfuse => State.keyProvision_of_first hothers hlt hzero hfree hfuse hlc hnone htrailer,
      fun hfree hlc hfault hfuse => State.keyProvision_of_owner hothers hlt hzero hfree hfuse hlc hfault⟩

end Sys2Proof.Machine
end

section
/-! SUPPORT. Debug sessions, plan keys, confidential partitions and the test port (R538, R547, R549, R553, R700). -/

namespace Sys2Proof.Machine

section Gates
variable {s : State} {c : CmdRef} {k : Cmd}

theorem exec_opDebugUnlock_of_atPoint {nonce : List Byte} (h : AtPoint s c k 0x0803) :
    exec (.opDebugUnlock c nonce) s = .next (s.unlessLost c (s.debugUnlock c k nonce).settle) :=
  congrArg Host.Outcome.next (State.gate_of_atPoint h rfl fun t k _ _ => t.debugUnlock c k nonce)

theorem exec_opConfidential_of_atPoint (h : AtPoint s c k 0x0804) :
    exec (.opConfidential c) s = .next (s.unlessLost c (s.confCmd c k (k.home c)).settle) :=
  congrArg Host.Outcome.next (State.gate_of_atPoint h rfl fun t k p _ => t.confCmd c k p)

theorem exec_opPlanKey_of_atPoint (h : AtPoint s c k 0x0805) :
    exec (.opPlanKey c) s = .next (s.unlessLost c (s.planKey c k (k.home c)).settle) :=
  congrArg Host.Outcome.next (State.gate_of_atPoint h rfl fun t k p _ => t.planKey c k p)

end Gates

/-! ### Debug sessions (R547) -/

/-- The challenge that a request of a level is given. -/
abbrev State.newChallenge (s : State) (nonce : List Byte) (level : Nat) : DebugChallenge :=
  { nonce := (nonce ++ List.replicate 32 0#8).take 32, level := level, lcState := s.lcState, issuedAt := s.tb.now }

section Debug
variable {s : State} {c : CmdRef} {k : Cmd} {nonce : List Byte} (hzero : k.zeros 1 15 = true)
include hzero

section Request
variable {level : Nat} (hv : k.p 0 1 = level * 16) (hlo : 1 ≤ level) (hhi : level ≤ 4) (hrest : k.zeros 0x10 192 = true)
include hv hlo hhi hrest

theorem State.debugUnlock_of_request : s.debugUnlock c k nonce =
    if s.lcState = 1 then s.endCmd c Fin.ok
    else ({ s with sec := { s.sec with challenge := some (s.newChallenge nonce level) } } : State).endCmd c
      { Fin.ok with out := (s.newChallenge nonce level).bytes } := by
  have hphase : level * 16 % 4 = 0 := by omega
  have hreserved : level * 16 / 4 % 4 = 0 := by omega
  have hlevel : level * 16 / 16 = level := by omega
  have hok : ¬(level = 0 ∨ 4 < level) := by omega
  simp only [State.debugUnlock, hzero, hrest, hv, hphase, hreserved, hlevel, hok, Bool.not_true, Bool.false_eq_true, ne_eq, not_true_eq_false,
    and_false, or_self, if_false, if_true, OfNat.zero_ne_ofNat]

end Request

variable (hlc : s.lcState ≠ 1)
include hlc

section Response
variable (hv : k.p 0 1 = 1)
include hv

theorem State.debugUnlock_of_no_challenge (hnone : s.sec.challenge = none) :
    s.debugUnlock c k nonce = ({ s with sec := { s.sec with challenge := none } } : State).endCmd c (Fin.with stAuthRequired 5) := by
  simp [State.debugUnlock, hzero, hv, hlc, hnone, authFin]

variable {d : DebugChallenge} (hsome : s.sec.challenge = some d)
include hsome

theorem State.debugUnlock_of_old (hold : d.issuedAt + 60000000000 < s.tb.now) :
    s.debugUnlock c k nonce = ({ s with sec := { s.sec with challenge := none } } : State).endCmd c (Fin.with stAuthRequired 5) := by
  have hns : challengeNs = 60000000000 := by norm_num [challengeNs]
  simp [State.debugUnlock, hzero, hv, hlc, hsome, hns, hold, authFin]

variable (hnew : s.tb.now ≤ d.issuedAt + 60000000000)
include hnew

theorem State.debugUnlock_of_other_key (hkey : Config.sha384 (k.pBytes 0x10 48 ++ k.pBytes 0x40 48) ≠ Config.edkHash) :
    s.debugUnlock c k nonce = ({ s with sec := { s.sec with challenge := none } } : State).endCmd c (Fin.with stAuthRequired 2) := by
  have hns : challengeNs = 60000000000 := by norm_num [challengeNs]
  simp [State.debugUnlock, hzero, hv, hlc, hsome, hns, Nat.not_lt.mpr hnew, hkey, authFin]

theorem State.debugUnlock_of_signed (hkey : Config.sha384 (k.pBytes 0x10 48 ++ k.pBytes 0x40 48) = Config.edkHash)
    (hsigned : Config.ecdsaVerify (beNat (k.pBytes 0x10 48)) (beNat (k.pBytes 0x40 48)) (beNat (k.pBytes 0x70 48))
      (beNat (k.pBytes 0xA0 48)) (Config.sha384 d.bytes) = true) :
    s.debugUnlock c k nonce = ({ s with sec := { s.sec with
      challenge := none, debugSession := some (d.level, s.tb.now) } } : State).endCmd c Fin.ok := by
  have hns : challengeNs = 60000000000 := by norm_num [challengeNs]
  simp [State.debugUnlock, hzero, hv, hlc, hsome, hns, Nat.not_lt.mpr hnew, hkey, hsigned]

end Response

theorem State.debugUnlock_of_end (hv : k.p 0 1 = 2) (hrest : k.zeros 0x10 192 = true) :
    s.debugUnlock c k nonce = ({ s with sec := { s.sec with debugSession := none } } : State).endCmd c Fin.ok := by
  simp [State.debugUnlock, hzero, hv, hlc, hrest]

end Debug

/-! ### Confidential partitions (R549) -/

section Conf
variable {s : State} {c : CmdRef} {k : Cmd} {p : Nat} {x : Partition} (hx : s.part p = some x)
include hx

theorem State.confCmd_of_bad (hv : 2 ≤ k.p 0 4) : s.confCmd c k p = s.endCmd c (Fin.with stAuthRequired 7) := by
  simp [State.confCmd, hx, hv, authFin]

theorem State.confCmd_of_filled (hv : k.p 0 4 < 2) (hempty : s.partEmpty p x = false) :
    s.confCmd c k p = s.endCmd c (Fin.with stPartConflict 5) := by
  simp [State.confCmd, hx, Nat.not_le.mpr hv, hempty]

variable (hsriov : s.host.sriov = true) (hempty : s.partEmpty p x = true)
include hsriov hempty

theorem State.confCmd_of_locked (hv : k.p 0 4 = 0) (hlocks : x.tdiLocks = true) :
    s.confCmd c k p = s.endCmd c (Fin.with stPartConflict 6) := by
  simp [State.confCmd, hx, hv, hsriov, hempty, hlocks]

theorem State.confCmd_of_clear (hv : k.p 0 4 = 0) (hlocks : x.tdiLocks = false) :
    s.confCmd c k p = (s.updPart p (fun y => { y with confidential := false })).endCmd c Fin.ok := by
  simp [State.confCmd, hx, hv, hsriov, hempty, hlocks]

theorem State.confCmd_of_set (hv : k.p 0 4 = 1) :
    s.confCmd c k p = ((s.unlockPart p x).updPart p (fun y => { y with confidential := true })).endCmd c Fin.ok := by
  simp [State.confCmd, hx, hv, hsriov, hempty]

end Conf

/-! ### Plan keys (R553) -/

section PlanKey
variable {s : State} {c : CmdRef} {k : Cmd} {p slot : Nat} {x : Partition} (hx : s.part p = some x) (hslot : slot < 4) (hzero : k.zeros 1 7 = true)
include hx hslot hzero

section Write
variable (hv : k.p 0 1 = slot)
include hv

theorem State.planKey_of_no_point (hpoint : Config.onP384 (beNat (k.pBytes 0x10 48)) (beNat (k.pBytes 0x40 48)) = false) :
    s.planKey c k p = s.endCmd c (Fin.with stAuthRequired 4) := by
  have hwrite : bitOf slot 2 = false := by simp [bitOf, Nat.div_eq_of_lt hslot]
  simp [State.planKey, hx, hv, hzero, hwrite, show ¬8 ≤ slot by omega, hpoint, authFin]

variable (hpoint : Config.onP384 (beNat (k.pBytes 0x10 48)) (beNat (k.pBytes 0x40 48)) = true)
include hpoint

theorem State.planKey_of_held (hheld : (SMap.get none x.sec.keys slot).isSome = true) :
    s.planKey c k p = s.endCmd c (Fin.with stAuthRequired 6) := by
  have hwrite : bitOf slot 2 = false := by simp [bitOf, Nat.div_eq_of_lt hslot]
  simp [State.planKey, hx, hv, hzero, hwrite, show ¬8 ≤ slot by omega, hpoint, Nat.mod_eq_of_lt hslot, hheld, authFin]

theorem State.planKey_of_free (hfree : SMap.get none x.sec.keys slot = none) (hlocks : x.tdiLocks = false)
    (hid : ∀ e ∈ x.sec.keys, ∀ q, e.2 = some q → q.keyId ≠ k.p 8 8) :
    s.planKey c k p = (s.updPart p (fun y => { y with sec := { y.sec with
      keys := SMap.set none y.sec.keys slot (some { keyId := k.p 8 8, x := beNat (k.pBytes 0x10 48), y := beNat (k.pBytes 0x40 48) }) } })).endCmd
        c Fin.ok := by
  have hwrite : bitOf slot 2 = false := by simp [bitOf, Nat.div_eq_of_lt hslot]
  have hother : (x.sec.keys.any fun e => match e.2 with
      | none => false
      | some q => e.1 != slot && q.keyId == k.p 8 8) = false := by
    refine List.any_eq_false.mpr fun e he => ?_
    obtain ⟨i, o⟩ := e
    cases o with
    | none => exact Bool.false_ne_true
    | some q => simp [hid _ he q rfl]
  simp only [State.planKey, hx, hv, hzero, hwrite, show ¬8 ≤ slot by omega, hpoint, Nat.mod_eq_of_lt hslot, hfree, hlocks, Bool.not_true,
    Bool.not_false, Bool.false_and, Bool.and_false, Bool.false_eq_true, or_self, if_false, Option.isSome_none, Bool.false_or]
  rw [if_neg]
  exact Bool.not_eq_true _ ▸ hother

end Write

section Remove
variable (hv : k.p 0 1 = slot + 4) (hrest : k.zeros 8 104 = true)
include hv hrest

theorem State.planKey_of_no_key (hfree : SMap.get none x.sec.keys slot = none) : s.planKey c k p = s.endCmd c (Fin.with stAuthRequired 6) := by
  have hremove : bitOf (slot + 4) 2 = true := by simp [bitOf]; omega
  have hmod : (slot + 4) % 4 = slot := by omega
  simp [State.planKey, hx, hv, hzero, hrest, hremove, hmod, show ¬8 ≤ slot + 4 by omega, hfree, authFin]

theorem State.planKey_of_key (hheld : (SMap.get none x.sec.keys slot).isSome = true) (hlocks : x.tdiLocks = false) :
    s.planKey c k p = (s.updPart p (fun y => { y with sec := { y.sec with keys := SMap.set none y.sec.keys slot none } })).endCmd c Fin.ok := by
  have hremove : bitOf (slot + 4) 2 = true := by simp [bitOf]; omega
  have hmod : (slot + 4) % 4 = slot := by omega
  have hsome : (SMap.get none x.sec.keys slot).isNone = false := by rw [← Option.not_isSome, hheld, Bool.not_true]
  simp [State.planKey, hx, hv, hzero, hrest, hremove, hmod, show ¬8 ≤ slot + 4 by omega, hsome, hlocks]

end Remove
end PlanKey

/-! ### The test port (R700) -/

section Jtag
variable {s : State} (haux : s.start.auxGood = true)
include haux

/-- An instruction of the test port: what the life cycle does not grant selects BYPASS. -/
theorem exec_jtagInstruction {ir : JtagIr} {n : Nat} (hn : (if s.jtagGrants ir then jtagCode ir else 0) = n) :
    exec (.jtagInstruction ir) s = .next (if n = 1 then ({ s with mgmt := { s.mgmt with jtagIr := n } } : State).answer (leBytes 4 0x25A097C7)
      else { s with mgmt := { s.mgmt with jtagIr := n } }) := by
  simp only [exec, execJtagInstruction, haux, hn, Bool.not_true, Bool.false_eq_true, if_false]

omit haux in
theorem State.jtagGrants_extest : s.jtagGrants .extest =
    (s.lcState == 1 || s.lcState == 4 || ((s.lcState == 2 || s.lcState == 3) && !s.parts.any (fun e => e.2.isSome))) := rfl

theorem exec_jtagInstruction_extest_of_closed (hlc : s.lcState = 5) :
    exec (.jtagInstruction .extest) s = .next { s with mgmt := { s.mgmt with jtagIr := 0 } } :=
  have hgrants : s.jtagGrants .extest = false := by simp [State.jtagGrants_extest, hlc]
  exec_jtagInstruction haux (if_neg (by simp [hgrants]))

theorem exec_jtagInstruction_extest_of_open (hlc : s.lcState = 1 ∨ s.lcState = 4) :
    exec (.jtagInstruction .extest) s = .next { s with mgmt := { s.mgmt with jtagIr := 3 } } := by
  have hgrants : s.jtagGrants .extest = true := by
    rw [State.jtagGrants_extest]
    obtain hlc | hlc := hlc
    · simp [hlc]
    · simp [hlc]
  exact exec_jtagInstruction haux (if_pos hgrants)

end Jtag

/-- Settles O40: each command of the family takes one branch, and the port follows the life cycle. -/
theorem debugAndKeyResults : Obligations.DebugAndKeyResults := by
  refine fun s c k nonce p x => ⟨exec_opDebugUnlock_of_atPoint, exec_opConfidential_of_atPoint, exec_opPlanKey_of_atPoint,
    fun level hv hlo hhi hzero hrest => ⟨fun hlc => ?_, fun hlc => ?_⟩,
    fun d hv hzero hlc hsome => ⟨State.debugUnlock_of_old hzero hlc hv hsome, State.debugUnlock_of_other_key hzero hlc hv hsome,
      State.debugUnlock_of_signed hzero hlc hv hsome⟩,
    fun hv hzero hlc => State.debugUnlock_of_no_challenge hzero hlc hv, fun hv hzero hrest hlc => State.debugUnlock_of_end hzero hlc hv hrest,
    rfl, rfl, fun hx => ⟨State.confCmd_of_bad hx, State.confCmd_of_filled hx,
      fun hv hsriov hempty => State.confCmd_of_locked hx hsriov hempty hv, fun hv hsriov hempty => State.confCmd_of_clear hx hsriov hempty hv,
      fun hv hsriov hempty => State.confCmd_of_set hx hsriov hempty hv⟩,
    fun slot hx hv hslot hzero => ⟨State.planKey_of_no_point hx hslot hzero hv, State.planKey_of_held hx hslot hzero hv,
      State.planKey_of_free hx hslot hzero hv⟩,
    fun slot hx hv hslot hzero hrest => ⟨State.planKey_of_no_key hx hslot hzero hv hrest, State.planKey_of_key hx hslot hzero hv hrest⟩,
    fun haux => ⟨exec_jtagInstruction haux rfl, exec_jtagInstruction haux rfl, exec_jtagInstruction_extest_of_closed haux,
      exec_jtagInstruction_extest_of_open haux⟩, rfl⟩
  · rw [State.debugUnlock_of_request hzero hv hlo hhi hrest, if_pos hlc]
  · rw [State.debugUnlock_of_request hzero hv hlo hhi hrest, if_neg hlc]

end Sys2Proof.Machine
end

section
/-! SUPPORT. SPDM sessions, IDE streams and device interfaces (R555 to R560). -/

namespace Sys2Proof.Machine

section Spdm
variable {s : State} {ok : Bool} {yes : State → State} (hrun : s.stw.running = true) (hlink : s.host.linkUp = true)
include hrun hlink

/-- A request to a Steward that runs, over a link that is up: an answer, or the error reply. -/
theorem State.respond_of_up : s.respond ok yes = if ok then yes s else s.answer [0x7F#8] := by
  simp only [State.respond, State.spdmServes, hrun, hlink, Bool.and_self, Bool.not_true, Bool.false_eq_true, if_false, errReply]

theorem State.respond_of_ok (hok : ok = true) : s.respond ok yes = yes s := by
  rw [State.respond_of_up hrun hlink, if_pos hok]

theorem State.respond_of_refused (hok : ok = false) : s.respond ok yes = s.answer [0x7F#8] := by
  rw [State.respond_of_up hrun hlink, hok, if_neg Bool.false_ne_true]

/-! ### Sessions (R555 to R557) -/

theorem exec_keyExchange_of_room (halgs : s.sec.spdmAlgs = true) (hroom : s.sec.sessions.length < 4) :
    exec (.keyExchange 0) s = .next (({ s with sec := { s.sec with
      sessions := s.sec.sessions ++ [{ id := s.sec.nextSession, phase := .handshake, epoch := 0 }]
      nextSession := s.sec.nextSession + 1 } } : State).answer (leBytes 4 s.sec.nextSession)) :=
  congrArg Host.Outcome.next (State.respond_of_ok hrun hlink (by simp [halgs, hroom]))

theorem exec_keyExchange_of_full (hfull : 4 ≤ s.sec.sessions.length) : exec (.keyExchange 0) s = .next (s.answer [0x7F#8]) :=
  congrArg Host.Outcome.next (State.respond_of_refused hrun hlink (by simp [Nat.not_lt.mpr hfull]))

/-- The requests of a connection whose algorithms are agreed (R555, R556). -/
theorem exec_of_spdmAlgs (halgs : s.sec.spdmAlgs = true) :
    exec .getDigests s = .next (s.answer (Config.sha384 s.chain)) ∧
      (∀ off n, exec (.getCertificate 0 off n) s = .next (s.answer ((s.chain.drop off).take n))) ∧
      (∀ nonce, exec (.challenge 0 nonce) s = .next (s.answer (Config.aliasSign s.stwDigest nonce))) ∧
      (∀ i m, s.measurement i = some m → exec (.getMeasurements i) s = .next (s.answer m)) ∧
      (∀ i, s.measurement i = none → exec (.getMeasurements i) s = .next (s.answer [0x7F#8])) := by
  refine ⟨congrArg Host.Outcome.next (State.respond_of_ok hrun hlink halgs),
    fun off n => congrArg Host.Outcome.next (State.respond_of_ok hrun hlink (by simp [halgs])),
    fun nonce => congrArg Host.Outcome.next (State.respond_of_ok hrun hlink (by simp [halgs])), fun i m hm => ?_,
    fun i hm => congrArg Host.Outcome.next (State.respond_of_refused hrun hlink (by simp [hm]))⟩
  refine (congrArg Host.Outcome.next (State.respond_of_ok hrun hlink (by simp [halgs, hm]))).trans ?_
  rw [hm]
  rfl

section Session
variable {id : Nat}

theorem exec_finish_of_handshake {verified : Bool} (hsession : s.session id .handshake = true) : exec (.finish id verified) s = .next (
    if verified then (s.setSessions (s.sec.sessions.map (fun x => if x.id = id then { x with phase := .secured } else x))).answer (leBytes 4 id)
    else (s.setSessions (s.sec.sessions.filter (fun x => x.id != id))).answer [0x7F#8]) :=
  congrArg Host.Outcome.next (State.respond_of_ok hrun hlink hsession)

theorem exec_heartbeat_of_not_secured (hsession : s.session id .secured = false) : exec (.heartbeat id) s = .next (s.answer [0x7F#8]) :=
  congrArg Host.Outcome.next (State.respond_of_refused hrun hlink hsession)

section Secured
variable (hsession : s.session id .secured = true)
include hsession

/-! ### IDE streams (R558) -/

theorem exec_ideKmKeyProg_of_secured {n i : Nat} (hn : n ≤ 8) (hi : i ≤ 1) : exec (.ideKmKeyProg id n i) s =
    .next ((s.setIde n (if i = 0 then { s.ideStream n with keyed0 := true } else { s.ideStream n with keyed1 := true })).answer []) :=
  congrArg Host.Outcome.next (State.respond_of_ok hrun hlink (by simp [hsession, hn, hi]))

theorem exec_kSetGo_of_keyed {n i : Nat} (hn : n ≤ 8) (hkeyed : (if i = 0 then (s.ideStream n).keyed0 else i == 1 && (s.ideStream n).keyed1) = true) :
    exec (.kSetGo id n i) s = .next ((s.setIde n { s.ideStream n with active := some i }).answer []) :=
  congrArg Host.Outcome.next (State.respond_of_ok hrun hlink (by simp only [hsession, hn, hkeyed, decide_true, Bool.and_self]))

omit hsession in
theorem exec_kSetGo_of_not_keyed {n i : Nat} (hkeyed : (if i = 0 then (s.ideStream n).keyed0 else i == 1 && (s.ideStream n).keyed1) = false) :
    exec (.kSetGo id n i) s = .next (s.answer [0x7F#8]) :=
  congrArg Host.Outcome.next (State.respond_of_refused hrun hlink (by simp only [hkeyed, Bool.and_false]))

/-! ### Device interfaces (R559, R560) -/

section Tdisp
variable {p : Nat} {x : Partition} {pass : Partition → Bool} {act : State → Partition → State} (hx : s.part p = some x)
include hx

theorem State.tdisp_of_confidential (hconf : x.confidential = true) :
    s.tdisp id p pass act = if pass x then act s x else s.answer [0x7F#8] := by
  simp only [State.tdisp, hx, hsession, hconf, Bool.and_self, Bool.true_and, State.respond_of_up hrun hlink]

omit hsession in
theorem State.tdisp_of_not_confidential (hconf : x.confidential = false) : s.tdisp id p pass act = s.answer [0x7F#8] := by
  simp only [State.tdisp, hx, hconf, Bool.and_false, Bool.false_and, State.respond_of_up hrun hlink, Bool.false_eq_true, if_false]

variable (hconf : x.confidential = true)
include hconf

/-- The requests to an interface of a confidential partition inside a secured session. -/
theorem exec_of_interface :
    (∀ n, x.sec.tdi = .unlocked → 1 ≤ n → n ≤ 8 → s.ideSecure n = true →
      exec (.lockInterfaceRequest id p n) s = .next ((s.setTdi p .locked (some n)).answer [])) ∧
    (∀ n, x.sec.tdi ≠ .unlocked ∨ s.ideSecure n = false → exec (.lockInterfaceRequest id p n) s = .next (s.answer [0x7F#8])) ∧
    (x.sec.tdi = .locked → exec (.startInterfaceRequest id p) s = .next ((s.setTdi p .run x.sec.ideStream).answer [])) ∧
    (x.sec.tdi ≠ .locked → exec (.startInterfaceRequest id p) s = .next (s.answer [0x7F#8])) ∧
    (exec (.getDeviceInterfaceState id p) s = .next (s.answer (leBytes 1 x.sec.tdi.code))) ∧
    (x.sec.tdi = .locked ∨ x.sec.tdi = .run → exec (.getDeviceInterfaceReport id p) s = .next (s.answer (s.tdiReport p))) ∧
    (exec (.stopInterfaceRequest id p) s = .next (((((((s.endTenant p none).emptyPart p).unlockPart p x).setTdi p .unlocked none).answer
      []).settle))) := by
  have passes {pass : Partition → Bool} {act : State → Partition → State} (h : pass x = true) : s.tdisp id p pass act = act s x :=
    (State.tdisp_of_confidential hrun hlink hsession hx hconf).trans (if_pos h)
  have refused {pass : Partition → Bool} {act : State → Partition → State} (h : pass x = false) : s.tdisp id p pass act = s.answer [0x7F#8] :=
    (State.tdisp_of_confidential hrun hlink hsession hx hconf).trans (if_neg (Bool.eq_false_iff.mp h))
  refine ⟨fun n htdi hlo hhi hide => congrArg Host.Outcome.next (passes (by simp [htdi, hlo, hhi, hide])),
    fun n hbad => congrArg Host.Outcome.next (refused ?_), fun htdi => congrArg Host.Outcome.next (passes (by simp [htdi])),
    fun htdi => congrArg Host.Outcome.next (refused (by simp [htdi])), congrArg Host.Outcome.next (passes rfl),
    fun htdi => congrArg Host.Outcome.next (passes (by simpa using htdi)), congrArg Host.Outcome.next (passes rfl)⟩
  obtain htdi | hide := hbad
  · simp [htdi]
  · simp [hide]

end Tdisp
end Secured

theorem State.tdisp_of_not_secured {p : Nat} {pass : Partition → Bool} {act : State → Partition → State} (hsession : s.session id .secured = false) :
    s.tdisp id p pass act = s.answer [0x7F#8] := by
  cases hx : s.part p with
  | none => simp only [State.tdisp, hx, State.respond_of_up hrun hlink, Bool.false_eq_true, if_false]
  | some x => simp only [State.tdisp, hx, hsession, Bool.false_and, State.respond_of_up hrun hlink, Bool.false_eq_true, if_false]

end Session
end Spdm

/-- Settles O41: each request is answered, or refused outside its state. -/
theorem attestationResults : Obligations.AttestationResults := by
  refine fun s hrun hlink => ⟨congrArg Host.Outcome.next (State.respond_of_ok hrun hlink rfl),
    fun v hversion hv => congrArg Host.Outcome.next (State.respond_of_ok hrun hlink (by simpa [hversion] using hv)),
    fun hcaps => congrArg Host.Outcome.next (State.respond_of_ok hrun hlink (by simp [hcaps])),
    fun halgs => ⟨congrArg Host.Outcome.next (State.respond_of_refused hrun hlink halgs),
      congrArg Host.Outcome.next (State.respond_of_refused hrun hlink (by simp [halgs]))⟩,
    fun halgs => ?_, fun id hsession => ⟨exec_finish_of_handshake hrun hlink hsession, exec_finish_of_handshake hrun hlink hsession⟩,
    fun id hsession => ⟨congrArg Host.Outcome.next (State.respond_of_ok hrun hlink hsession),
      congrArg Host.Outcome.next (State.respond_of_ok hrun hlink hsession),
      congrArg Host.Outcome.next (State.respond_of_ok hrun hlink hsession),
      fun n hn => ⟨exec_ideKmKeyProg_of_secured hrun hlink hsession hn (by decide), exec_ideKmKeyProg_of_secured hrun hlink hsession hn (by decide),
        exec_kSetGo_of_keyed (i := 0) hrun hlink hsession hn, exec_kSetGo_of_keyed (i := 1) hrun hlink hsession hn,
        exec_kSetGo_of_not_keyed (i := 1) hrun hlink⟩,
      congrArg Host.Outcome.next (State.respond_of_ok hrun hlink hsession),
      congrArg Host.Outcome.next (State.respond_of_ok hrun hlink hsession),
      fun p x hx hconf => exec_of_interface hrun hlink hsession hx hconf,
      fun p x n hx hconf => congrArg Host.Outcome.next (State.tdisp_of_not_confidential hrun hlink hx hconf)⟩,
    fun id p n hsession => ⟨congrArg Host.Outcome.next (State.tdisp_of_not_secured hrun hlink hsession),
      exec_heartbeat_of_not_secured hrun hlink hsession⟩,
    fun n hn hactive => congrArg Host.Outcome.next (if_pos ⟨hn, hactive⟩), fun n hnone => congrArg Host.Outcome.next (if_neg (by simp [hnone]))⟩
  obtain ⟨hdigests, hcert, hchallenge, hmeasure, hnone⟩ := exec_of_spdmAlgs hrun hlink halgs
  exact ⟨hdigests, hcert, hchallenge, hmeasure, hnone, exec_keyExchange_of_room hrun hlink halgs, exec_keyExchange_of_full hrun hlink⟩

end Sys2Proof.Machine
end

section
/-! SUPPORT. The Steward's commands, its event ring and log, and its restarts (R566, R575, R577 to R583, R590, R591). -/

namespace Sys2Proof.Machine

/-! ### OP_INVENTORY, OP_SENSOR_READ and OP_EVENT_READ (R566, R575, R583) -/

section Commands
variable {s t : State} {c : CmdRef} {k : Cmd} {f : Fin}

/-- What OP_INVENTORY does once its turn has come. -/
def State.inventoryCmd (s : State) (c : CmdRef) (k : Cmd) : State :=
  if k.p 6 2 ≠ 0 then s.endCmd c k.badBlock
  else s.finishOut c k (k.p 0 6) (s.inventory ((partOfBlock c.block).bind s.part)) Fin.ok

theorem exec_opInventory_of_atPoint (h : AtPoint s c k 0x0701) :
    exec (.opInventory c) s = .next (s.unlessLost c (s.inventoryCmd c k).settle) :=
  congrArg Host.Outcome.next (State.gate_of_atPoint h rfl fun t k _ _ => t.inventoryCmd c k)

theorem exec_opSensorRead_of_atPoint (h : AtPoint s c k 0x0702) :
    exec (.opSensorRead c) s = .next (s.unlessLost c (s.sensorRead c k).settle) :=
  congrArg Host.Outcome.next (State.gate_of_atPoint h rfl fun t k _ _ => t.sensorRead c k)

theorem exec_opEventRead_of_atPoint (h : AtPoint s c k 0x0703) :
    exec (.opEventRead c) s = .next (s.unlessLost c (s.eventRead c k).settle) :=
  congrArg Host.Outcome.next (State.gate_of_atPoint h rfl fun t k _ _ => t.eventRead c k)

theorem State.sensorRead_of_bad (hbad : 2 ≤ k.p 4 4 ∨ k.p 0xE 2 ≠ 0 ∨ k.p 2 2 = 0 ∨ 256 < k.p 2 2) :
    s.sensorRead c k = s.endCmd c k.badBlock := if_pos hbad

section Sensors
variable (hflags : k.p 4 4 ≤ 1) (hzero : k.p 0xE 2 = 0) (hlo : 1 ≤ k.p 2 2) (hhi : k.p 2 2 ≤ 256)
  (hout : s.output c (k.who c.block) (k.p 8 6) (((List.range (k.p 2 2)).map (fun i => (k.p 0 2 + i) % 0x10000)).flatMap s.sensorRecord)
    { Fin.ok with c0 := k.p 2 2 } = (t, some f))
include hflags hzero hlo hhi hout

theorem State.sensorRead_of_output : s.sensorRead c k =
    (if k.p 4 4 = 1 ∧ f.status = stOk then t.clearMax ((List.range (k.p 2 2)).map (fun i => (k.p 0 2 + i) % 0x10000)) else t).endCmd c f := by
  have hgood : ¬(2 ≤ k.p 4 4 ∨ k.p 0xE 2 ≠ 0 ∨ k.p 2 2 = 0 ∨ 256 < k.p 2 2) := by omega
  simp only [State.sensorRead, if_neg hgood, hout]

end Sensors

/-- An acknowledging read of one event from the ring (R583). -/
theorem State.eventRead_of_ack (hn : k.p 8 2 = 1) (hflags : k.p 0xA 2 = 2) (hzero : k.p 0xC 4 = 0) (hzero' : k.p 0x16 2 = 0) (hblock : c.block = 0)
    {e : EventRec} {es : List EventRec} (hring : s.stw.ring.filter (fun e => decide (k.p 0 8 ≤ e.seq)) = e :: es)
    (hout : s.output c (k.who c.block) (k.p 0x10 6) (e.bytes ++ []) { Fin.ok with c0 := 1, c1 := e.seq - k.p 0 8 } = (t, some f))
    (hok : f.status = stOk) :
    s.eventRead c k = ({ t with stw := { t.stw with evtCons := BitVec.ofNat 32 (e.seq + 1) } } : State).endCmd c f := by
  have hlog : bitOf 2 0 = false := rfl
  have hack : bitOf 2 1 = true := rfl
  have hevents : (s.eventsFrom false (k.p 0 8)).take 1 = [(e.seq, e.bytes)] := by simp [State.eventsFrom, hring]
  rw [hblock] at hout
  simp [State.eventRead, hn, hflags, hzero, hzero', hblock, hlog, hack, hevents] at hout ⊢
  simp [hout, hok]

end Commands

/-! ### Sensor records (R566) -/

section Records
variable {s : State} {id : Nat}

theorem State.sensorRecord_of_absent (hty : sensorType id = 0xF) : s.sensorRecord id = leBytes 2 id ++ [0x0F#8] ++ List.replicate 13 0#8 :=
  if_pos hty

theorem State.sensorRecord_of_shown (hty : sensorType id ≠ 0xF) (hshown : s.withheld id = false) (hdie : powerDie id = none) :
    s.sensorRecord id = leBytes 2 id ++ leBytes 2 (sensorType id + (s.sensor id).state.code * 16) ++ leBytes 4 (s.sensor id).value.toNat ++
      leBytes 4 ((s.sensor id).max.getD 0#32).toNat ++ leBytes 4 (min ((s.tb.now - (s.sensor id).at_) / 1000) 0xFFFFFFFF) := by
  simp only [State.sensorRecord, if_neg hty, hshown, Bool.false_eq_true, if_false, hdie]

end Records

/-! ### The log (R581, R582) -/

section Log
variable {s : State} {e : EventRec} {es : List EventRec}

/-- The entry that the log holds for an event. -/
def State.logEntry (s : State) (e : EventRec) : LogEntry :=
  { ev := e, boot := s.stw.bootCount, mac := Config.logMac ({ ev := e, boot := s.stw.bootCount, mac := 0 } : LogEntry).body }

theorem exec_logWrite_of_queued (hrun : s.stw.running = true) (hqueue : s.stw.logQueue = e :: es) :
    exec .logWrite s = .next { s with stw := { s.stw with
      logQueue := es, log := (s.stw.log ++ [s.logEntry e]).drop ((s.stw.log ++ [s.logEntry e]).length - 524288) } } := by
  show execLogWrite s = _
  simp only [execLogWrite, hqueue, hrun, Bool.not_true, Bool.false_eq_true, if_false]
  rfl

theorem exec_logWrite_of_empty (hqueue : s.stw.logQueue = []) : exec .logWrite s = .next s := by
  show execLogWrite s = _
  simp only [execLogWrite, hqueue]

end Log

/-! ### Restarts (R579, R590, R591) -/

section Restarts
variable {s : State} {pass : Bool} {dt : Nat}

theorem exec_lockstepMismatch_of_stopped (hrun : s.stw.running = false) : exec (.lockstepMismatch pass) s = .next s := by
  simp [exec, execLockstepMismatch, hrun]

theorem exec_stewardWatchdog (s : State) : exec .stewardWatchdog s = .next (if s.stw.running then s.trialRevert.stewardReset 4 else s) := rfl

theorem dayNs_eq : dayNs = 86400000000000 := by norm_num [dayNs, secondNs]

theorem exec_lockstepMismatch_of_first (hrun : s.stw.running = true) (hpair : s.stewardSingle = false)
    (hfew : (s.stw.mismatches.filter (fun t => decide (s.tb.now ≤ t + 86400000000000))).length < 2) :
    exec (.lockstepMismatch pass) s = .next (({ s.trialRevert with stw := { s.trialRevert.stw with
      mismatches := s.tb.now :: s.stw.mismatches.filter (fun t => decide (s.tb.now ≤ t + 86400000000000)) } } : State).stewardReset 2) := by
  have hthird : ¬3 ≤ (s.tb.now :: s.stw.mismatches.filter (fun t => decide (s.tb.now ≤ t + 86400000000000))).length := by
    rw [List.length_cons]
    omega
  simp only [exec, execLockstepMismatch, hrun, hpair, dayNs_eq, hthird, decide_false, Bool.not_true, Bool.false_eq_true, or_self, if_false, false_and]

theorem exec_stewardRestartDone_of_idle (hreset : s.stw.resetting = false) : exec (.stewardRestartDone dt) s = .next (s.tick dt) :=
  congrArg Host.Outcome.next (if_pos (by simpa using hreset))

theorem State.seqRestart_seqBound (s : State) : s.seqRestart.stw.seqBound = s.stw.seqBound + 131072 :=
  Nat.add_assoc s.stw.seqBound 65536 65536

end Restarts

/-! ### Entering an event (R577 to R581) -/

section Enter
variable {s : State} {e : EventRec}

/-- Which events of the log's queue are kept when one more is entered: NOTICE and above while there is room, and always ERROR and above. -/
def Steward.queued (x : Steward) (e : EventRec) : List EventRec :=
  if e.sev < 1 then x.logQueue else if x.logQueue.length < 1024 ∨ 3 ≤ e.sev then x.logQueue ++ [e] else x.logQueue

theorem State.enterEvent_of_quiet (hirq : s.stw.irqEn = false) (hbound : s.stw.nextSeq ≠ s.stw.seqBound) :
    s.enterEvent e = { s with stw := { s.stw with
      nextSeq := s.stw.nextSeq + 1
      ring := s.stw.ring.filter (fun x => x.seq % 4096 != s.stw.nextSeq % 4096) ++ [{ e with seq := s.stw.nextSeq, time := s.tb.now }]
      evtLost := if (s.stw.ring.filter (fun x => x.seq % 4096 == s.stw.nextSeq % 4096)).any (fun x => seqAtOrAbove x.seq s.stw.evtCons) = true ∧
        s.stw.evtLost ≠ 0xFFFF#16 then s.stw.evtLost + 1 else s.stw.evtLost
      logQueue := s.stw.queued { e with seq := s.stw.nextSeq, time := s.tb.now } } } := by
  simp only [State.enterEvent, hirq, Bool.false_eq_true, false_and, if_false, if_neg hbound]
  rfl

theorem Steward.queued_of_info {x : Steward} (hsev : e.sev = 0) : x.queued e = x.logQueue := if_pos (by omega)

theorem Steward.queued_of_notice {x : Steward} (hsev : 1 ≤ e.sev) (hroom : x.logQueue.length < 1024 ∨ 3 ≤ e.sev) :
    x.queued e = x.logQueue ++ [e] := by
  rw [Steward.queued, if_neg (Nat.not_lt.mpr hsev), if_pos hroom]

end Enter

/-- Settles O42: each command and each restart takes one branch, and an event is entered at the next number. -/
theorem stewardResults : Obligations.StewardResults := by
  refine ⟨fun s c k pass dt => ⟨fun h hzero => ?_, fun h hbad => ?_, exec_opSensorRead_of_atPoint, exec_opEventRead_of_atPoint,
      ⟨State.sensorRead_of_bad, fun hflags hzero hlo hhi t f hout => ?_, fun hflags hzero hlo hhi t f hout hok => ?_⟩,
      fun id _ => ⟨State.sensorRecord_of_absent, State.sensorRecord_of_shown⟩,
      fun hn hflags hzero hzero' hblock e es t f => State.eventRead_of_ack hn hflags hzero hzero' hblock,
      fun e es hrun hqueue => ⟨s.logEntry e, exec_logWrite_of_queued hrun hqueue, rfl, rfl, rfl⟩, exec_logWrite_of_empty,
      fun hrun => ⟨exec_lockstepMismatch_of_stopped hrun, ?_⟩, fun hrun => ?_, exec_lockstepMismatch_of_first,
      exec_stewardRestartDone_of_idle, ⟨rfl, s.seqRestart_seqBound⟩, fun hreset => congrArg Host.Outcome.next (if_neg (by simpa using hreset))⟩,
    fun s e _ hbound hirq => ⟨_, State.enterEvent_of_quiet hirq hbound, rfl, rfl, rfl, fun hsev => Steward.queued_of_info hsev, fun hsev hroom => Steward.queued_of_notice hsev hroom, rfl⟩⟩
  · rw [exec_opInventory_of_atPoint h, State.inventoryCmd, if_neg (not_not_intro hzero)]
  · rw [exec_opInventory_of_atPoint h, State.inventoryCmd, if_pos hbad]
  · rw [State.sensorRead_of_output (by omega) hzero hlo hhi hout, if_neg (by omega)]
  · rw [State.sensorRead_of_output (by omega) hzero hlo hhi hout, if_pos ⟨hflags, hok⟩]
  · rw [exec_stewardWatchdog, hrun, if_neg Bool.false_ne_true]
  · rw [exec_stewardWatchdog, if_pos hrun]

end Sys2Proof.Machine
end

section
/-! SUPPORT. Staging, activation, commit and revert of firmware (R585 to R590, R592). -/

namespace Sys2Proof.Machine

section Gates
variable {s : State} {c : CmdRef} {k : Cmd}

theorem exec_opFwStage_of_atPoint {bad : Bool} (h : AtPoint s c k 0x0704) :
    exec (.opFwStage c bad) s = .next (s.unlessLost c (s.fwStage c k bad).settle) :=
  congrArg Host.Outcome.next (State.gate_of_atPoint h rfl fun t k _ _ => t.fwStage c k bad)

theorem exec_opFwActivate_of_atPoint (h : AtPoint s c k 0x0705) :
    exec (.opFwActivate c) s = .next (s.unlessLost c (s.fwActivate c k).settle) :=
  congrArg Host.Outcome.next (State.gate_of_atPoint h rfl fun t k _ _ => t.fwActivate c k)

end Gates

/-! ### OP_FW_STAGE (R585) -/

section Image
variable {s : State} {img : List Byte} {kind size : Nat}

theorem State.imgFault_of_header (hheader : imgHeaderOk img kind size = false) : s.imgFault img kind size = some (stFwState, 7) := by
  simp [State.imgFault, hheader]

theorem State.imgFault_of_signature (hheader : imgHeaderOk img kind size = true) (hsigned : imgSigned img size = false) :
    s.imgFault img kind size = some (stImageAuthFail, 0xFFF) := by
  simp [State.imgFault, hheader, hsigned]

theorem State.imgFault_of_rollback (hheader : imgHeaderOk img kind size = true) (hsigned : imgSigned img size = true)
    (hsvn : imgSvn img < s.fusedSvn kind) :
    s.imgFault img kind size = some (stFwRollback, s.fusedSvn kind % 256 + imgSvn img * 2 ^ 8) := by
  simp [State.imgFault, hheader, hsigned, hsvn]

theorem State.imgFault_of_good (hheader : imgHeaderOk img kind size = true) (hsigned : imgSigned img size = true)
    (hsvn : s.fusedSvn kind ≤ imgSvn img) : s.imgFault img kind size = none := by
  simp [State.imgFault, hheader, hsigned, Nat.not_lt.mpr hsvn]

end Image

section Stage
variable {s t : State} {c : CmdRef} {k : Cmd} {bad : Bool} {img : List Byte}

theorem State.fwStage_of_bad (hbad : k.p 6 2 ≠ 0 ∨ 3 ≤ k.p 0xC 4 ∨ imgSizeOk (k.p 8 4) = false) :
    s.fwStage c k bad = s.endCmd c (Fin.with stFwState 7) :=
  if_pos (by simpa using hbad)

variable (hzero : k.p 6 2 = 0) (hkind : k.p 0xC 4 < 3) (hsize : imgSizeOk (k.p 8 4) = true)
include hzero hkind hsize

theorem State.fwStage_of_trial (htrial : s.anyTrial = true) : s.fwStage c k bad = s.endCmd c (Fin.with stFwState 3) := by
  simp [State.fwStage, hzero, Nat.not_le.mpr hkind, hsize, htrial]

section Read
variable (hchange : s.fw.change = none) (htrial : s.anyTrial = false) (hidle : s.mgmt.upd = .idle)
  (hread : s.readEng (k.who c.block) (k.p 0 6) (k.p 8 4) = .ok img t)
include hchange htrial hidle hread

theorem State.fwStage_of_fault {st d : Nat} (hfault : t.imgFault img (k.p 0xC 4) (k.p 8 4) = some (st, d)) :
    s.fwStage c k bad = t.endCmd c (Fin.with st d) := by
  simp [State.fwStage, hzero, Nat.not_le.mpr hkind, hsize, hchange, htrial, hidle, hread, hfault]

theorem State.fwStage_of_good (hgood : t.imgFault img (k.p 0xC 4) (k.p 8 4) = none) : s.fwStage c k bad =
    if bad then t.endCmd c (Fin.with stFwState 8)
    else ((t.updFwKind (k.p 0xC 4) (fun x => x.program img)).event 0x0901).endCmd c Fin.ok := by
  simp [State.fwStage, hzero, Nat.not_le.mpr hkind, hsize, hchange, htrial, hidle, hread, hgood, State.stageImage]

end Read
end Stage

/-- The image goes to the slot that is not committed. -/
theorem FwKindState.program_eq (x : FwKindState) (img : List Byte) : (x.program img).phase = .staged ∧ (x.program img).otherImg = img ∧
    (x.program img).committedImg = x.committedImg ∧ (x.program img).committedB = x.committedB := by
  cases hb : x.committedB with
  | false => simp [FwKindState.program, FwKindState.otherImg, FwKindState.committedImg, hb]
  | true => simp [FwKindState.program, FwKindState.otherImg, FwKindState.committedImg, hb]

/-! ### OP_FW_ACTIVATE (R586, R587) -/

section Activate
variable {s : State} {c : CmdRef} {k : Cmd} {kind act : Nat}

/-- An activation of a kind with no change under way: its three acts. -/
theorem State.fwActivate_of_no_change (hkind : kind < 3) (hact : act < 3) (hv : k.p 0 4 = kind + 4 * act) (hchange : s.fw.change = none) :
    s.fwActivate c k =
      if act = 0 then
        if (s.fwKind kind).phase ≠ .staged then s.endCmd c (Fin.with stFwState 1)
        else if s.anyTrial then s.endCmd c (Fin.with stFwState 3)
        else if kind = 1 ∧ !s.halvesSpared then s.endCmd c (Fin.with stFwState 4)
        else ((s.startCmd c).startChange kind false false (some c.id)).fwAdvance fwRounds
      else if (s.fwKind kind).phase ≠ .trial then s.endCmd c (Fin.with stFwState 2)
      else if act = 1 then (s.fwCommit kind).endCmd c Fin.ok
      else ((s.startCmd c).startChange kind true false (some c.id)).fwAdvance fwRounds := by
  have hmod : (kind + 4 * act) % 4 = kind := by omega
  have hdiv : (kind + 4 * act) / 4 % 4 = act := by omega
  have hok : ¬(16 ≤ kind + 4 * act ∨ kind = 3 ∨ act = 3) := by omega
  simp only [State.fwActivate, hv, hmod, hdiv, if_neg hok, hchange, Option.isSome_none, Bool.false_eq_true, or_false, if_false]

end Activate

theorem State.fusedSvn_blowSvn {s : State} {kind v : Nat} : (s.blowSvn kind v).fusedSvn kind = max (s.fusedSvn kind) v := by
  simp only [State.fusedSvn, State.blowSvn]
  split
  · rfl
  · split
    · rfl
    · rfl

/-! ### Trials, faults and the rounds of a change (R588 to R590, R592) -/

section Trial
variable {s : State} {kind : Nat}

theorem exec_fwTrialTimer_of_trial (hkind : kind < 3) (htrial : (s.fwKind kind).phase = .trial) (hpldm : (s.fwKind kind).byPldm = true)
    (hchange : s.fw.change = none) (hrun : s.stw.running = true) : exec (.fwTrialTimer kind) s = .next (s.fwCommit kind) :=
  congrArg Host.Outcome.next (if_pos ⟨hkind, htrial, hpldm, hchange, hrun⟩)

theorem exec_fwTrialTimer_of_not_pldm (hpldm : (s.fwKind kind).byPldm = false) : exec (.fwTrialTimer kind) s = .next s :=
  congrArg Host.Outcome.next (if_neg (by simp [hpldm]))

theorem exec_firmwareFault_of_not_pldm (hpldm : (s.fwKind kind).byPldm = false) : exec (.firmwareFault kind) s = .next s :=
  congrArg Host.Outcome.next (if_neg (by simp [hpldm]))

theorem exec_firmwareFault_of_trial (hkind : kind = 1 ∨ kind = 2) (htrial : (s.fwKind kind).phase = .trial)
    (hpldm : (s.fwKind kind).byPldm = true) (hchange : s.fw.change = none) (hrun : s.stw.running = true) :
    exec (.firmwareFault kind) s = .next ((s.startChange kind true true none).fwAdvance fwRounds).settle := by
  refine congrArg Host.Outcome.next ((if_pos ⟨hkind, htrial, hpldm, hrun⟩).trans ?_)
  rw [hchange]

end Trial

section Rounds
variable {s : State} {f : FwChange}

theorem State.changeOf_of_kind {kind : Nat} (hchange : s.fw.change = some f) (hkind : f.kind = kind) : s.changeOf kind = some f := by
  simp [State.changeOf, hchange, hkind]

theorem State.changeOf_of_none {kind : Nat} (hchange : s.fw.change = none) : s.changeOf kind = none := by
  simp [State.changeOf, hchange]

theorem exec_conductorLoaded_of_idle {n : Nat} (hload : (s.conductor n).loading = false) : exec (.conductorLoaded n) s = .next s := by
  simp [exec, execConductorLoaded, hload]

theorem exec_conductorLoaded_of_change {n : Nat} (hload : (s.conductor n).loading = true) (hchange : s.fw.change = some f) (hkind : f.kind = 1) :
    exec (.conductorLoaded n) s = .next (s.setConductor n { s.conductor n with loading := false, newFw := !f.revert }).fwSettle := by
  simp [exec, execConductorLoaded, hload, State.changeOf_of_kind hchange hkind]

theorem exec_equinoxHandover_of_first {p n : Nat} {ps : List Nat} {x : Partition} (hchange : s.fw.change = some f) (hkind : f.kind = 1)
    (htodo : f.todo = p :: ps) (hpart : s.part p = some x) (hserved : x.served = true)
    (hready : s.readyCore (coreHalf x.conductor) (!f.revert) = some n) :
    exec (.equinoxHandover p) s = .next ((((s.updPart p (fun y => { y with conductor := n })).setSpare (coreHalf x.conductor) x.conductor).setTodo f
      (f.todo.filter (fun q => q != p))).fwSettle) := by
  simp [exec, execEquinoxHandover, State.changeOf_of_kind hchange hkind, htodo, hpart, hserved, hready]

theorem exec_marshalActivation_of_first {d : Nat} {ds : List Nat} (hchange : s.fw.change = some f) (hkind : f.kind = 2) (htodo : f.todo = d :: ds) :
    exec (.marshalActivation d) s = .next (((s.updDie d (fun y => { y with newFw := !f.revert })).setTodo f ds).fwSettle) := by
  simp [exec, execMarshalActivation, State.changeOf_of_kind hchange hkind, htodo]

theorem exec_equinoxHandover_of_no_change {p : Nat} (hchange : s.fw.change = none) : exec (.equinoxHandover p) s = .next s := by
  simp [exec, execEquinoxHandover, State.changeOf_of_none hchange]

theorem exec_marshalActivation_of_no_change {d : Nat} (hchange : s.fw.change = none) : exec (.marshalActivation d) s = .next s := by
  simp [exec, execMarshalActivation, State.changeOf_of_none hchange]

end Rounds

/-- Settles O43: each command, and each round of a change, takes one branch. -/
theorem firmwareResults : Obligations.FirmwareResults := by
  refine fun s c k bad => ⟨exec_opFwStage_of_atPoint, exec_opFwActivate_of_atPoint,
    ⟨State.fwStage_of_bad, fun hzero hkind hsize => ⟨State.fwStage_of_trial hzero hkind hsize, fun hchange htrial hidle img t hread =>
      have fault {st d : Nat} := State.fwStage_of_fault (bad := bad) (st := st) (d := d) hzero hkind hsize hchange htrial hidle hread
      have good := State.fwStage_of_good (bad := bad) hzero hkind hsize hchange htrial hidle hread
      ⟨fun hheader => fault (State.imgFault_of_header hheader), fun hheader hsigned => fault (State.imgFault_of_signature hheader hsigned),
      fun hheader hsigned hsvn => fault (State.imgFault_of_rollback hheader hsigned hsvn), fun hheader hsigned hsvn =>
        ⟨fun hbad => (good (State.imgFault_of_good hheader hsigned hsvn)).trans (if_pos hbad),
        fun hbad => (good (State.imgFault_of_good hheader hsigned hsvn)).trans (if_neg (Bool.eq_false_iff.mp hbad))⟩⟩⟩⟩,
    FwKindState.program_eq, fun kind hkind hchange => ?_, fun kind _ => State.fusedSvn_blowSvn, fun kind => exec_fwTrialTimer_of_trial,
    fun kind hpldm => ⟨exec_fwTrialTimer_of_not_pldm hpldm, exec_firmwareFault_of_not_pldm hpldm⟩, fun kind => exec_firmwareFault_of_trial,
    fun n f => exec_conductorLoaded_of_change, fun n => exec_conductorLoaded_of_idle, fun f p ps x n => exec_equinoxHandover_of_first,
    fun f d ds => exec_marshalActivation_of_first,
    fun hchange p d => ⟨exec_equinoxHandover_of_no_change hchange, exec_marshalActivation_of_no_change hchange⟩⟩
  have start (hv : k.p 0 4 = kind) := State.fwActivate_of_no_change (c := c) (act := 0) hkind (by omega) hv hchange
  have commit (hv : k.p 0 4 = kind + 4) := State.fwActivate_of_no_change (c := c) (act := 1) hkind (by omega) hv hchange
  have revert (hv : k.p 0 4 = kind + 8) := State.fwActivate_of_no_change (c := c) (act := 2) hkind (by omega) hv hchange
  refine ⟨fun hv hphase => ?_, fun hv hphase htrial => ?_, fun hv hone hphase htrial hspare => ?_, fun hv hone hphase htrial => ?_,
    fun hv hphase => ?_, fun hv hphase => ?_, fun hv hphase => ?_⟩
  · simp [start hv, hphase]
  · simp [start hv, hphase, htrial]
  · subst hone
    simp [start hv, hphase, htrial, hspare]
  · simp [start hv, hphase, htrial, hone]
  · simp [commit hv, hphase]
  · simp [commit hv, hphase]
  · simp [revert hv, hphase]

end Sys2Proof.Machine
end

section
/-! SUPPORT. A firmware update over PLDM (R576, R585, R586). -/

namespace Sys2Proof.Machine

theorem State.event_mgmt (s : State) (code : Nat) : (s.event code).mgmt = s.mgmt := by
  obtain ⟨_, _, hevent⟩ := s.record_eq (EventRec.plain code)
  rw [State.event, hevent]

/-- The management state is not part of what staging changes. -/
theorem State.stageImage_mgmt (s : State) (kind : Nat) (img : List Byte) : (s.stageImage kind img).mgmt = s.mgmt := State.event_mgmt ..

section Pldm
variable {s : State} (hrun : s.stw.running = true)
include hrun

/-- A message of an update that is under way. -/
theorem State.inUpdate_of_busy {ok : Bool} {yes : State → State} (hidle : s.mgmt.upd ≠ .idle) (hok : ok = true) : s.inUpdate ok yes = yes s := by
  simp only [State.inUpdate, hrun, Bool.not_true, Bool.false_eq_true, if_false, if_neg hidle, hok, if_true]

theorem exec_getFirmwareParameters_of_running :
    ∃ bs, exec .getFirmwareParameters s = .next (s.answer ([0x00#8, 0x03#8] ++ bs)) ∧ bs.length = 30 := by
  refine ⟨_, congrArg Host.Outcome.next (State.pldm_of_running hrun _), ?_⟩
  simp [List.length_flatMap, leBytes_length]

/-! ### Requests of the update agent -/

theorem exec_requestUpdate_of_idle (hidle : s.mgmt.upd = .idle) (hchange : s.fw.change = none) (htrial : s.anyTrial = false) :
    exec .requestUpdate s = .next ((s.setMgmt { s.mgmt with
      upd := .learn, table := [], comp := none, compSize := 0, data := [], applied := [] }).answer [0x00#8]) := by
  simp [exec, execRequestUpdate, hrun, hidle, hchange, htrial, pldmOk]

theorem exec_requestUpdate_of_busy (hbusy : s.mgmt.upd ≠ .idle ∨ s.anyTrial = true) : exec .requestUpdate s = .next (s.answer [0x81#8]) := by
  have hrefused : s.mgmt.upd ≠ .idle ∨ s.fw.change.isSome = true ∨ s.anyTrial = true := hbusy.imp_right .inr
  simp only [exec, execRequestUpdate, hrun, Bool.not_true, Bool.false_eq_true, if_false, if_pos hrefused, pldmAlready]

omit hrun in
theorem State.compOk_of_range {comp : Nat} (hphase : s.start.phase ≠ .recovery) (hcomp : 1 ≤ comp ∧ comp ≤ 3) : s.compOk comp = true := by
  rw [State.compOk, if_neg hphase, decide_eq_true hcomp]

theorem exec_passComponentTable_of_learn {cs : List Nat} (hlearn : s.mgmt.upd = .learn) (hphase : s.start.phase ≠ .recovery)
    (hcs : ∀ x ∈ cs, 1 ≤ x ∧ x ≤ 3) : exec (.passComponentTable cs) s =
      .next ((s.setMgmt { s.mgmt with upd := .ready, table := cs }).answer ([0x00#8] ++ cs.map (fun _ => 0x00#8))) := by
  have hok : ∀ x ∈ cs, s.compOk x = true := fun x hx => State.compOk_of_range hphase (hcs x hx)
  have hcodes : cs.map (fun c => if s.compOk c then 0x00#8 else 0x01#8) = cs.map (fun _ => 0x00#8) :=
    List.map_congr_left fun x hx => if_pos (hok x hx)
  refine congrArg Host.Outcome.next ((State.inUpdate_of_busy hrun (by simp [hlearn]) (by simp [hlearn])).trans ?_)
  rw [List.filter_eq_self.mpr hok, hcodes]
  rfl

theorem exec_updateComponent_of_ready {comp size : Nat} (hready : s.mgmt.upd = .ready) (hcomp : comp ∈ s.mgmt.table) (hsize : imgSizeOk size = true) :
    exec (.updateComponent comp size) s = .next ((s.setMgmt { s.mgmt with
      upd := .download, comp := some comp, compSize := size, data := [], verifyCode := 0, applyCode := 0 }).answer [0x00#8, 0x00#8]) :=
  congrArg Host.Outcome.next ((State.inUpdate_of_busy hrun (by simp [hready]) (by simp [hready])).trans (if_pos (by simp [hcomp, hsize])))

theorem exec_updateComponent_of_idle {comp size : Nat} (hidle : s.mgmt.upd = .idle) :
    exec (.updateComponent comp size) s = .next (s.answer [0x80#8]) := by
  simp [exec, execUpdateComponent, State.inUpdate, hrun, hidle, pldmNotInUpdate]

theorem exec_activateFirmware_of_ready (hready : s.mgmt.upd = .ready) : exec .activateFirmware s = .next (
    if s.mgmt.applied.isEmpty then s.answer [0x85#8]
    else (((s.answer [0x00#8]).setMgmt { s.mgmt with upd := .activate }).fwAdvance fwRounds).settle) :=
  congrArg Host.Outcome.next (State.inUpdate_of_busy hrun (by simp [hready]) (by simp [hready]))

theorem exec_cancelUpdateComponent_of_busy (hbusy : s.mgmt.upd = .download ∨ s.mgmt.upd = .verify ∨ s.mgmt.upd = .apply) :
    exec .cancelUpdateComponent s = .next ((s.setMgmt { s.mgmt with upd := .ready, comp := none, compSize := 0, data := [] }).answer [0x00#8]) := by
  refine congrArg Host.Outcome.next (State.inUpdate_of_busy hrun ?_ ?_)
  · rintro hidle
    simp [hidle] at hbusy
  · simpa [MgmtState.busy, or_assoc] using hbusy

theorem exec_cancelUpdate_of_busy (hidle : s.mgmt.upd ≠ .idle) (hactivate : s.mgmt.upd ≠ .activate) :
    exec .cancelUpdate s = .next ((s.setMgmt { s.mgmt with
      upd := .idle, table := [], comp := none, compSize := 0, data := [], applied := [] }).answer [0x00#8]) :=
  congrArg Host.Outcome.next (State.inUpdate_of_busy hrun hidle (by simpa using hactivate))

/-! ### Messages of the device -/

theorem exec_requestFirmwareDataResponse_of_next {bs : List Byte} (hdown : s.mgmt.upd = .download)
    (hlen : s.mgmt.data.length + bs.length ≤ s.mgmt.compSize) :
    exec (.requestFirmwareDataResponse s.mgmt.data.length bs) s = .next (s.setMgmt { s.mgmt with data := s.mgmt.data ++ bs }) := by
  have htake : (s.mgmt.data ++ bs).take s.mgmt.compSize = s.mgmt.data ++ bs := List.take_of_length_le (by rwa [List.length_append])
  refine congrArg Host.Outcome.next ((if_pos ⟨hrun, hdown, rfl⟩).trans ?_)
  rw [htake]

omit hrun in
theorem exec_requestFirmwareDataResponse_of_other {off : Nat} {bs : List Byte} (hoff : off ≠ s.mgmt.data.length) :
    exec (.requestFirmwareDataResponse off bs) s = .next s :=
  congrArg Host.Outcome.next (if_neg fun hall => hoff hall.2.2)

theorem exec_transferComplete_of_whole (hdown : s.mgmt.upd = .download) (hlen : s.mgmt.data.length = s.mgmt.compSize) :
    exec (.transferComplete 0) s = .next ((s.setMgmt { s.mgmt with upd := .verify }).answer [0x00#8]) :=
  congrArg Host.Outcome.next ((if_pos ⟨hrun, hdown⟩).trans ((if_pos rfl).trans (if_pos hlen)))

section Component
variable {comp : Nat} (hcomp : s.mgmt.comp = some comp)
include hcomp

theorem exec_verifyComplete_of_good (hverify : s.mgmt.upd = .verify) (hgood : s.imgFault s.mgmt.data (comp - 1) s.mgmt.compSize = none) :
    exec .verifyComplete s = .next ((s.setMgmt { s.mgmt with upd := .apply, verifyCode := 0 }).answer [0x00#8]) := by
  simp [exec, execVerifyComplete, hcomp, hrun, hverify, hgood]

theorem exec_verifyComplete_of_fault {st d : Nat} (hverify : s.mgmt.upd = .verify)
    (hfault : s.imgFault s.mgmt.data (comp - 1) s.mgmt.compSize = some (st, d)) :
    exec .verifyComplete s = .next ((s.setMgmt { s.mgmt with verifyCode := st }).answer [0x01#8]) := by
  simp [exec, execVerifyComplete, hcomp, hrun, hverify, hfault]

theorem exec_applyComplete_of_slot_bad (happly : s.mgmt.upd = .apply) :
    exec (.applyComplete true) s = .next ((s.setMgmt { s.mgmt with applyCode := stFwState }).answer [0x01#8]) := by
  simp [exec, execApplyComplete, hcomp, hrun, happly]

theorem exec_applyComplete_of_good (happly : s.mgmt.upd = .apply) :
    exec (.applyComplete false) s = .next ((((s.updFwKind (comp - 1) (fun x => x.program s.mgmt.data)).event 0x0901).setMgmt { s.mgmt with
      upd := .ready, comp := none, data := [], applyCode := 0,
      applied := s.mgmt.applied.filter (fun k => k != comp - 1) ++ [comp - 1] }).answer [0x00#8]) := by
  simp only [exec, execApplyComplete, hcomp, hrun, happly, and_self, if_true, Bool.false_eq_true, if_false, State.stageImage_mgmt]
  rfl

end Component
end Pldm

/-- Settles O45: each message is taken in its phase of the update, and refused or ignored outside it. -/
theorem pldmUpdateResults : Obligations.PldmUpdateResults := by
  refine fun s hrun => ⟨congrArg Host.Outcome.next (State.pldm_of_running hrun _), exec_getFirmwareParameters_of_running hrun,
    exec_requestUpdate_of_idle hrun, exec_requestUpdate_of_busy hrun, fun cs => exec_passComponentTable_of_learn hrun,
    fun comp size => exec_updateComponent_of_ready hrun, fun comp size => exec_updateComponent_of_idle hrun,
    fun bs => exec_requestFirmwareDataResponse_of_next hrun, fun off bs => exec_requestFirmwareDataResponse_of_other,
    exec_transferComplete_of_whole hrun, fun comp hcomp hverify => ⟨exec_verifyComplete_of_good hrun hcomp hverify,
      fun st d => exec_verifyComplete_of_fault hrun hcomp hverify⟩,
    fun comp hcomp happly => ⟨exec_applyComplete_of_slot_bad hrun hcomp happly, exec_applyComplete_of_good hrun hcomp happly⟩,
    fun hready happlied => ?_, fun hready happlied => ?_, congrArg Host.Outcome.next (State.pldm_of_running hrun _),
    exec_cancelUpdateComponent_of_busy hrun, exec_cancelUpdate_of_busy hrun⟩
  · rw [exec_activateFirmware_of_ready hrun hready, if_neg (by simpa using happlied)]
  · rw [exec_activateFirmware_of_ready hrun hready, if_pos (by simpa using happlied)]

end Sys2Proof.Machine
end

section
/-! SUPPORT. References, coasting and the clock registers (R600 to R604, R609). -/

namespace Sys2Proof.Machine

/-! ### Writing an entry twice -/

theorem SMap.put_put {α : Type} (m : SMap α) (a : Nat) (x y : α) : SMap.put (SMap.put m a x) a y = SMap.put m a y := by
  induction m with
  | nil => simp [SMap.put]
  | cons e m ih =>
    obtain ⟨k, v⟩ := e
    by_cases hlt : a < k
    · simp [SMap.put, hlt]
    · by_cases heq : a = k
      · simp [SMap.put, heq]
      · simp [SMap.put, hlt, heq, ih]

theorem SMap.set_set_of_ne {α : Type} [DecidableEq α] (d : α) (m : SMap α) (a : Nat) {x y : α} (hx : x ≠ d) (hy : y ≠ d) :
    SMap.set d (SMap.set d m a x) a y = SMap.set d m a y := by
  rw [SMap.set, if_neg hy, SMap.set, if_neg hx, SMap.set, if_neg hy, SMap.put_put]

/-! ### What an event leaves alone -/

@[simp] theorem State.record_clk (s : State) (e : EventRec) : (s.record e).clk = s.clk := by
  obtain ⟨_, _, hrecord⟩ := s.record_eq e
  rw [hrecord]

@[simp] theorem State.record_tb (s : State) (e : EventRec) : (s.record e).tb = s.tb := by
  obtain ⟨_, _, hrecord⟩ := s.record_eq e
  rw [hrecord]

/-! ### A reference that fails (R600, R601) -/

section Failure
variable {s : State} {n : Nat} {b : Bool}

/-- A counter of reference failures, which stops at its largest value. -/
abbrev upFails (x : BitVec 6) : BitVec 6 := if x = 0x3F#6 then x else x + 1

/-- A PLL whose reference has failed: the counters are those of the module PLL (R609). -/
def PllUnit.failed (u : PllUnit) (n : Nat) (b : Bool) : PllUnit :=
  if n ≠ 16 then u.setRef b false
  else if b then { u.setRef b false with bFails := upFails u.bFails }
  else { u.setRef b false with aFails := upFails u.aFails }

theorem PllUnit.failed_eq (u : PllUnit) (n : Nat) : u.failed n b =
    if b then { u with refB := false, bFails := if n = 16 then upFails u.bFails else u.bFails }
    else { u with refA := false, aFails := if n = 16 then upFails u.aFails else u.aFails } := by
  by_cases hn : n = 16
  · cases b with
    | false => simp only [PllUnit.failed, PllUnit.setRef, hn, ne_eq, not_true_eq_false, Bool.false_eq_true, if_false, if_true]
    | true => simp only [PllUnit.failed, PllUnit.setRef, hn, ne_eq, not_true_eq_false, if_false, if_true]
  · cases b with
    | false => simp only [PllUnit.failed, PllUnit.setRef, hn, ne_eq, not_false_eq_true, Bool.false_eq_true, if_false, if_true]
    | true => simp only [PllUnit.failed, PllUnit.setRef, hn, ne_eq, not_false_eq_true, if_false, if_true]

theorem PllUnit.failed_sel (u : PllUnit) (n : Nat) : (u.failed n b).sel = u.sel := by
  rw [PllUnit.failed_eq]
  split
  · rfl
  · rfl

theorem PllUnit.failed_phase (u : PllUnit) (n : Nat) : (u.failed n b).phase = u.phase := by
  rw [PllUnit.failed_eq]
  split
  · rfl
  · rfl

/-- The reference that is not in use is as good as it was. -/
theorem PllUnit.failed_otherGood {u : PllUnit} (n : Nat) (hsel : u.sel = b) : (u.failed n b).otherGood = if b then u.refA else u.refB := by
  rw [PllUnit.otherGood, PllUnit.failed_sel, hsel, PllUnit.failed_eq]
  cases b with
  | false => rfl
  | true => rfl

variable (hn : n < 24) (hrails : s.start.railsUp = true) (hgood : (if b then (s.pll n).refB else (s.pll n).refA) = true)
include hn hrails hgood

theorem exec_refFailure_of_good : exec (.refFailure n b) s = .next (
    if (s.pll n).sel ≠ b ∨ (s.pll n).phase = .entering ∨ (s.pll n).phase = .coasting then s.setPll n ((s.pll n).failed n b)
    else if ((s.pll n).failed n b).otherGood then
      (s.setPll n ((s.pll n).failed n b)).setPll n { (s.pll n).failed n b with
        sel := !((s.pll n).failed n b).sel, phase := if ((s.pll n).failed n b).phase = .exiting then .exiting else .holdover }
    else if n = 23 then ((s.setPll n ((s.pll n).failed n b)).setPll 23 { (s.pll n).failed n b with phase := .holdover }).spanPllDown
    else (s.setPll n ((s.pll n).failed n b)).enterCoast n 1) := by
  show execRefFailure n b s = _
  unfold execRefFailure
  dsimp only
  rw [if_neg (by simp [Nat.not_le.mpr hn, hrails, hgood])]
  cases b with
  | false => rfl
  | true => rfl

theorem exec_refFailure_of_other (hsel : (s.pll n).sel ≠ b) : exec (.refFailure n b) s = .next (s.setPll n ((s.pll n).failed n b)) := by
  rw [exec_refFailure_of_good hn hrails hgood, if_pos (.inl hsel)]

omit hn hrails hgood in
theorem State.setPll_setPll_of_ne_reset {u v : PllUnit} (hu : u ≠ PllUnit.reset) (hv : v ≠ PllUnit.reset) :
    (s.setPll n u).setPll n v = s.setPll n v := by
  simp only [State.setPll, SMap.set_set_of_ne _ _ _ hu hv]

omit hn hrails hgood in
theorem PllUnit.ne_reset_of_otherGood {u : PllUnit} (hother : u.otherGood = true) : u ≠ PllUnit.reset := by
  rintro rfl
  exact absurd hother (by decide)

section InUse
variable (hsel : (s.pll n).sel = b) (hphase : (s.pll n).phase = .locked)
include hsel hphase

theorem exec_refFailure_of_in_use : exec (.refFailure n b) s = .next (
    if (if b then (s.pll n).refA else (s.pll n).refB) then
      (s.setPll n ((s.pll n).failed n b)).setPll n { (s.pll n).failed n b with sel := !b, phase := .holdover }
    else if n = 23 then ((s.setPll n ((s.pll n).failed n b)).setPll 23 { (s.pll n).failed n b with phase := .holdover }).spanPllDown
    else (s.setPll n ((s.pll n).failed n b)).enterCoast n 1) := by
  rw [exec_refFailure_of_good hn hrails hgood, if_neg (by simp [hsel, hphase]), PllUnit.failed_otherGood n hsel]
  simp only [PllUnit.failed_sel, PllUnit.failed_phase, hsel, hphase, reduceCtorEq, if_false]

end InUse
end Failure

/-! ### A reference that is good again, and the steps of a coast (R602, R603) -/

section Steps
variable {s : State} {n : Nat} {b : Bool} (hn : n < 24)
include hn

section Good
variable (hrails : s.start.railsUp = true) (hbad : (if b then (s.pll n).refB else (s.pll n).refA) = false)
include hrails hbad

theorem exec_refGood_of_lost (hlost : (s.pll n).lockLost = true) : exec (.refGood n b) s = .next (s.setPll n ((s.pll n).setRef b true)) := by
  simp [exec, execRefGood, Nat.not_le.mpr hn, hrails, hbad, hlost]

theorem exec_refGood_of_locked (hlost : (s.pll n).lockLost = false) (hphase : (s.pll n).phase = .locked) :
    exec (.refGood n b) s = .next (s.setPll n ((s.pll n).setRef b true)) := by
  simp [exec, execRefGood, Nat.not_le.mpr hn, hrails, hbad, hlost, hphase]

theorem exec_refGood_of_coasting (hlost : (s.pll n).lockLost = false) (hphase : (s.pll n).phase = .coasting) (hsteps : 0 < s.coastSteps n) :
    exec (.refGood n b) s = .next (s.setPll n { (s.pll n).setRef b true with sel := b, steps := s.coastSteps n, phase := .exiting }) := by
  simp [exec, execRefGood, Nat.not_le.mpr hn, hrails, hbad, hlost, hphase, Nat.ne_of_gt hsteps]

end Good

theorem exec_switchoverLock_of_holdover (hphase : (s.pll n).phase = .holdover) (hgood : (if (s.pll n).sel then (s.pll n).refB else (s.pll n).refA) = true) :
    exec (.switchoverLock n) s = .next (s.setPll n { s.pll n with phase := .locked }) :=
  congrArg Host.Outcome.next (if_pos ⟨hn, hphase, hgood⟩)

theorem exec_coastStep_of_entering (hphase : (s.pll n).phase = .entering) : exec (.coastStep n) s = .next (s.setPll n { s.pll n with
    steps := (s.pll n).steps + 1, phase := if s.coastSteps n ≤ (s.pll n).steps + 1 then .coasting else .entering }) := by
  simp [exec, execCoastStep, Nat.not_le.mpr hn, hphase]

theorem exec_coastStep_of_exiting (hphase : (s.pll n).phase = .exiting) : exec (.coastStep n) s = .next (s.setPll n { s.pll n with
    steps := (s.pll n).steps - 1, phase := if (s.pll n).steps - 1 = 0 then .locked else .exiting
    cause := if (s.pll n).steps - 1 = 0 then 0 else (s.pll n).cause }) := by
  simp [exec, execCoastStep, Nat.not_le.mpr hn, hphase]

theorem exec_coastStep_of_far (hphase : (s.pll n).phase = .exiting) (hsteps : 2 ≤ (s.pll n).steps) :
    exec (.coastStep n) s = .next (s.setPll n { s.pll n with steps := (s.pll n).steps - 1 }) := by
  have hleft : (s.pll n).steps - 1 ≠ 0 := by omega
  rw [exec_coastStep_of_exiting hn hphase, if_neg hleft, if_neg hleft, ← hphase]

theorem exec_coastStep_of_last (hphase : (s.pll n).phase = .exiting) (hsteps : (s.pll n).steps = 1) :
    exec (.coastStep n) s = .next (s.setPll n { s.pll n with steps := 0, phase := .locked, cause := 0 }) := by
  rw [exec_coastStep_of_exiting hn hphase, hsteps]
  rfl

end Steps

/-! ### Coasting (R601, R604) -/

section Coast
variable {s : State} {n cause : Nat}

theorem exec_pllLockLoss_of_good (hn : n < 16) (hrails : s.start.railsUp = true) (hlost : (s.pll n).lockLost = false)
    (hgood : (if (s.pll n).sel then (s.pll n).refB else (s.pll n).refA) = true) :
    exec (.pllLockLoss n) s = .next ((s.setPll n { s.pll n with lockLost := true }).enterCoast n 2) := by
  have hsel : (s.pll n).selGood = true := hgood
  simp [exec, execPllLockLoss, Nat.not_le.mpr hn, hrails, hlost, hsel]

theorem PllUnit.coastingAny_of_locked {u : PllUnit} (hphase : u.phase = .locked) : u.coastingAny = false := by
  rw [PllUnit.coastingAny, hphase]

theorem State.endPlanChange_of_settled (hchanging : (s.dieClk n).changing = false) : s.endPlanChange n = s := by
  rw [State.endPlanChange, hchanging]
  rfl

theorem State.enterCoast_of_locked (hphase : (s.pll n).phase = .locked) (hsteps : 0 < s.coastSteps n) (hn : n ≠ 16)
    (hchanging : (s.dieClk n).changing = false) :
    s.enterCoast n cause = (s.setPll n { s.pll n with phase := .entering, steps := 0, cause := cause }).record
      { EventRec.plain 0x0601 with unit := if n < 16 then n * 2 ^ 28 else 0 } := by
  simp only [State.enterCoast, PllUnit.coastingAny_of_locked hphase, State.endPlanChange_of_settled hchanging, Bool.false_eq_true, if_false,
    ite_self, if_neg (Nat.not_le.mpr hsteps), if_neg hn]

theorem State.coastSteps_module (s : State) : s.coastSteps 16 = 17 := by
  rw [State.coastSteps, if_neg (by decide)]
  decide

theorem State.pll_setPll_of_ne_reset (s : State) (n : Nat) {u : PllUnit} (hu : u ≠ PllUnit.reset) : (s.setPll n u).pll n = u :=
  SMap.get_set_self_of_ne _ _ _ hu

theorem State.enterCoast_module (hphase : (s.pll 16).phase = .locked) :
    ((s.enterCoast 16 cause).pll 16).phase = .entering ∧ (s.enterCoast 16 cause).tb.locked = false := by
  have hsteps : ¬s.coastSteps 16 ≤ 0 := by
    rw [State.coastSteps_module]
    decide
  have hne : ({ s.pll 16 with phase := .entering, steps := 0, cause := cause } : PllUnit) ≠ PllUnit.reset := fun h =>
    nomatch congrArg PllUnit.phase h
  simp only [State.enterCoast, PllUnit.coastingAny_of_locked hphase, Nat.lt_irrefl, if_false, hsteps, if_true, Bool.false_eq_true]
  refine ⟨?_, by rw [State.record_tb]⟩
  have hpll := congrArg PllUnit.phase (s.pll_setPll_of_ne_reset 16 hne)
  rwa [State.pll, State.record_clk]

end Coast

/-- Settles O46: each of the clock commands takes one branch. -/
theorem clockResults : Obligations.ClockResults := by
  intro s n b hn hrails
  refine ⟨exec_refFailure_of_other hn hrails, fun hgood hsel hphase hother => ?_, fun hgood hsel hphase hother hspan => ?_,
    fun hgood hsel hphase hother hspan => ?_, exec_refGood_of_locked hn hrails, exec_refGood_of_coasting hn hrails,
    exec_refGood_of_lost hn hrails, exec_switchoverLock_of_holdover hn, exec_coastStep_of_entering hn, exec_coastStep_of_far hn,
    exec_coastStep_of_last hn, fun hdie => exec_pllLockLoss_of_good hdie hrails,
    fun cause hphase hsteps hmodule => State.enterCoast_of_locked hphase hsteps hmodule, fun cause hphase hmodule => ?_⟩
  · rw [exec_refFailure_of_in_use hn hrails hgood hsel hphase, if_pos hother]
    refine congrArg Host.Outcome.next (State.setPll_setPll_of_ne_reset ?_ fun hreset => nomatch congrArg PllUnit.phase hreset)
    exact PllUnit.ne_reset_of_otherGood ((PllUnit.failed_otherGood n hsel).trans hother)
  · rw [exec_refFailure_of_in_use hn hrails hgood hsel hphase, if_neg (Bool.eq_false_iff.mp hother), if_neg hspan]
    rfl
  · subst hspan
    rw [exec_refFailure_of_in_use hn hrails hgood hsel hphase, if_neg (Bool.eq_false_iff.mp hother), if_pos rfl]
    rfl
  · subst hmodule
    exact ⟨_, rfl, State.enterCoast_module hphase⟩

end Sys2Proof.Machine
end

section
/-! SUPPORT. Sensor readings, and how dies are throttled and released (R574, R618, R619, R630). -/

namespace Sys2Proof.Machine

/-! ### Limits of a die sensor (R574) -/

theorem fx_lt_fx {a b : Nat} (hab : a < b) : fx a < fx b :=
  mul_lt_mul_of_pos_right (Int.ofNat_lt.mpr hab) (by positivity)

theorem fx_sub_fx {a b : Nat} (hab : b ≤ a) : fx a - fx b = fx (a - b) := by
  rw [fx, fx, fx, ← sub_mul, Nat.cast_sub hab]

/-- An upper limit of a temperature, with its 3 degrees of hysteresis. -/
theorem aboveLimit_temp (there : Bool) (v : Int) {t : Nat} (ht : 3 ≤ t) :
    aboveLimit true there v t = true ↔ fx t ≤ v ∨ (there = true ∧ fx (t - 3) < v) := by
  have hlt : fx (t - 3) < fx t := fx_lt_fx (by omega)
  cases there with
  | false => simp [aboveLimit]
  | true =>
    simp only [aboveLimit, if_true, decide_eq_true_eq, fx_sub_fx ht, true_and]
    exact ⟨.inr, fun h => h.elim (hlt.trans_le ·) id⟩

theorem SensorState.two_le_rank {old : SensorState} : decide (2 ≤ old.rank) = true ↔ old = .critical := by
  cases old <;> decide

theorem SensorState.one_le_rank {old : SensorState} : decide (1 ≤ old.rank) = true ↔ old = .critical ∨ old = .warning := by
  cases old <;> decide

theorem judge_of_die {id : Nat} (old : SensorState) (v : Int) (hid : id < 0x0090) : judge id old v =
    if fx 105 ≤ v ∨ (old = .critical ∧ fx 102 < v) then .critical
    else if fx 95 ≤ v ∨ ((old = .critical ∨ old = .warning) ∧ fx 92 < v) then .warning else .normal := by
  have hty : (sensorType id == 0) = true := by simp [sensorType, show id ≤ 0xB3 by omega]
  have hlow : (id == 0x0100) = false := by simp; omega
  have hcrit := aboveLimit_temp (decide (2 ≤ old.rank)) v (t := 105) (by decide)
  have hwarn := aboveLimit_temp (decide (1 ≤ old.rank)) v (t := 95) (by decide)
  rw [SensorState.two_le_rank] at hcrit
  rw [SensorState.one_le_rank] at hwarn
  simp only [judge, upperLimits, hid, if_true, hty, hlow, Bool.false_and, Bool.or_false, hcrit, hwarn]

/-! ### A reading (R574, R619) -/

theorem State.record_sensors (s : State) (e : EventRec) : (s.record e).stw.sensors = s.stw.sensors := by
  unfold State.record State.enterEvent
  dsimp only
  split
  · split
    · rfl
    · rfl
  · rfl

theorem State.noteStatus_sensors (s : State) : s.noteStatus.stw.sensors = s.stw.sensors := by
  unfold State.noteStatus
  dsimp only
  split
  · rfl
  · rfl

theorem State.crossings_sensors (s : State) (id : Nat) (val : Word) (old new : SensorState) :
    (s.crossings id val old new).stw.sensors = s.stw.sensors := by
  unfold State.crossings
  dsimp only
  split
  · split
    · rw [State.record_sensors, State.record_sensors]
    · rw [State.record_sensors]
  · split
    · rw [State.record_sensors]
    · rfl

theorem State.flashPause_sensors (s : State) (id : Nat) (v : Int) : (s.flashPause id v).stw.sensors = s.stw.sensors := by
  unfold State.flashPause
  split
  · rfl
  · rfl

theorem State.sensor_setSensor_of_ne_reset (s : State) (id : Nat) {x : Sensor} (hx : x ≠ Sensor.reset) : (s.setSensor id x).sensor id = x :=
  SMap.get_set_self_of_ne _ _ _ hx

/-- A sensor that has failed, which keeps its largest value (R574). -/
def Sensor.failedAt (x : Sensor) (now n : Nat) : Sensor := { x with value := Float.nan32, at_ := now, state := .failed, outliers := n }

theorem State.powerSample_sensor {s : State} {id : Nat} {w : Word} {i : Nat} : (s.powerSample id w).sensor i = s.sensor i := by
  unfold State.powerSample
  split
  · rfl
  · rfl

section Sample
variable {s : State} {id : Nat} {val : Word} {v : Int} (hstate : (s.sensor id).state ≠ .failed) (hval : fxOf val = some v)
include hstate hval

theorem State.sample_of_good (hnear : s.outlier id v = false) (hid : id ≠ 0x0104) : (s.sample id val false).sensor id =
    { value := val
      max := some (match (s.sensor id).max with
        | none => val
        | some m => if (fxOf m).getD 0 < v then val else m)
      at_ := s.tb.now, state := judge id (s.sensor id).state v, outliers := 0
      recent := if (powerDie id).isSome then (val :: (s.sensor id).recent).take 10000 else [] } := by
  simp only [State.sample, if_neg hstate, hval, hnear, Bool.false_eq_true, if_false, State.judged, if_neg hid]
  change SMap.get Sensor.reset (State.noteStatus (State.crossings _ _ _ _ _)).stw.sensors id = _
  rw [State.noteStatus_sensors, State.crossings_sensors, State.flashPause_sensors]
  exact State.sensor_setSensor_of_ne_reset _ _ fun hreset => nomatch congrArg Sensor.max hreset

omit hstate hval in
theorem State.failReading_sensor {x : Sensor} (hx : x.state = .failed) :
    (((s.setSensor id x).powerSample id Float.nan32).event 0x0703).noteStatus.sensor id = x := by
  change SMap.get Sensor.reset (State.noteStatus (State.record _ _)).stw.sensors id = _
  rw [State.noteStatus_sensors, State.record_sensors]
  refine State.powerSample_sensor.trans (State.sensor_setSensor_of_ne_reset _ _ ?_)
  rintro rfl
  exact absurd hx (by decide)

theorem State.sample_of_outside : ((s.sample id val true).sensor id).value = 0x7FC00000#32 ∧ ((s.sample id val true).sensor id).state = .failed := by
  simp only [State.sample, if_neg hstate, hval, Bool.true_or, State.failReading_sensor]
  exact ⟨rfl, trivial⟩

/-- The tenth reading in a row that is far from both neighbours (R619). -/
theorem State.sample_of_outlier (hfar : s.outlier id v = true) (hcount : 9 ≤ (s.sensor id).outliers) :
    ((s.sample id val false).sensor id).value = 0x7FC00000#32 ∧ ((s.sample id val false).sensor id).state = .failed := by
  have hten : decide (10 ≤ (s.sensor id).outliers + 1) = true := decide_eq_true (by omega)
  simp only [State.sample, if_neg hstate, hval, hfar, if_true, hten, Bool.or_true, State.failReading_sensor]
  exact ⟨rfl, trivial⟩

end Sample

/-! ### Throttle steps (R618, R630) -/

section Fold
variable {P : State → Prop} {st : State → Nat → State} {F : Nat → Nat → Nat}

/-- A fold that handles each die once handles each die's steps on its own. -/
theorem State.thrSteps_foldl (hkeep : ∀ t k, P t → P (st t k))
    (hstep : ∀ t k d, P t → (st t k).thrSteps d = if d = k then F d (t.thrSteps d) else t.thrSteps d) {ks : List Nat} (hks : ks.Nodup)
    {s : State} (hs : P s) (d : Nat) : (ks.foldl st s).thrSteps d = if d ∈ ks then F d (s.thrSteps d) else s.thrSteps d := by
  induction ks generalizing s with
  | nil => simp
  | cons k ks ih =>
    obtain ⟨hk, hks⟩ := List.nodup_cons.mp hks
    rw [List.foldl_cons, ih hks (hkeep s k hs), hstep s k d hs]
    by_cases hd : d = k
    · subst hd
      simp [hk]
    · simp [hd]

/-- What changes nothing but the steps of the dies. -/
def OnlySteps (s t : State) : Prop := t = { s with pwr := { s.pwr with steps := t.pwr.steps } }

theorem OnlySteps.refl (s : State) : OnlySteps s s := rfl

theorem OnlySteps.updSteps {s t : State} (h : OnlySteps s t) (d : Nat) (f : Nat → Nat) : OnlySteps s (t.updSteps d f) := by
  rw [OnlySteps, h]
  rfl

theorem OnlySteps.foldl (hstep : ∀ s t k, OnlySteps s t → OnlySteps s (st t k)) {s t : State} (h : OnlySteps s t) (ks : List Nat) :
    OnlySteps s (ks.foldl st t) := by
  induction ks generalizing t with
  | nil => exact h
  | cons k ks ih => exact ih (hstep s t k h)

end Fold

theorem SMap.risingFrom_set {α : Type} [DecidableEq α] (d : α) {m : SMap α} (a : Nat) (x : α) (hm : SMap.risingFrom 0 m = true) :
    SMap.risingFrom 0 (SMap.set d m a x) = true := by
  unfold SMap.set
  split
  · exact SMap.risingFrom_erase a hm
  · exact SMap.risingFrom_put x hm (Nat.zero_le a)

theorem State.thrSteps_updSteps_of_ne {s : State} {d k : Nat} (f : Nat → Nat) (h : d ≠ k) : (s.updSteps k f).thrSteps d = s.thrSteps d :=
  SMap.get_set_ne _ _ _ h

theorem State.thrSteps_updSteps_self {s : State} {d : Nat} {f : Nat → Nat} (hf : f (s.thrSteps d) ≠ 0) :
    (s.updSteps d f).thrSteps d = f (s.thrSteps d) := SMap.get_set_self_of_ne _ _ _ hf

theorem State.thrSteps_updSteps_of_rising {s : State} {d : Nat} {f : Nat → Nat} (hs : SMap.risingFrom 0 s.pwr.steps = true) :
    (s.updSteps d f).thrSteps d = f (s.thrSteps d) := SMap.get_set_self _ hs _ _

section Throttle
variable {s : State} (hrails : s.start.railsUp = true)
include hrails

/-- One step more for every die that is to be throttled, up to the last step. -/
theorem exec_throttleStep_of_railsUp (hk : s.pwr.sol.k = 0) (htail : s.pwr.sol.tail = false) : exec .throttleStep s = .next (
    (List.range 16).foldl (fun t d => if s.throttleAll || s.dieCritical d then t.updSteps d (fun n => min (n + 1) 27) else t) s) := by
  have hsol : s.setSol { s.pwr.sol with tail := s.pwr.sol.tail && !s.envOk } = s := by
    rw [htail, Bool.false_and, ← htail]
    rfl
  show execThrottleStep s = _
  unfold execThrottleStep
  rw [if_neg (by simp [hrails, hk])]
  simp only [hsol]
  rw [htail]
  simp only [Bool.false_and, Bool.or_false]

theorem exec_throttleRecovery_of_railsUp : exec .throttleRecovery s = .next (if s.recovers then
    (List.range 16).foldl (fun t d => if 0 < t.thrSteps d then t.updSteps d (fun n => n - 1) else t) s else s) := by
  cases hrec : s.recovers with
  | false => simp [exec, execThrottleRecovery, hrails, hrec]
  | true => simp [exec, execThrottleRecovery, hrails, hrec]

end Throttle

theorem State.thrSteps_throttled (s : State) (g : Nat → Bool) (d : Nat) :
    ((List.range 16).foldl (fun t d => if g d then t.updSteps d (fun n => min (n + 1) 27) else t) s).thrSteps d =
      if d < 16 ∧ g d = true then min (s.thrSteps d + 1) 27 else s.thrSteps d := by
  rw [State.thrSteps_foldl (P := fun _ => True) (F := fun d n => if g d then min (n + 1) 27 else n) (fun _ _ _ => trivial) ?_ List.nodup_range trivial]
  · simp only [List.mem_range]
    by_cases hd : d < 16
    · simp [hd]
    · simp [hd]
  · intro t k e _
    by_cases he : e = k
    · subst he
      rw [if_pos rfl]
      split
      · exact State.thrSteps_updSteps_self (by omega)
      · rfl
    · rw [if_neg he]
      split
      · exact State.thrSteps_updSteps_of_ne _ he
      · rfl

theorem State.thrSteps_recovered {s : State} (hs : SMap.risingFrom 0 s.pwr.steps = true) (d : Nat) :
    ((List.range 16).foldl (fun t d => if 0 < t.thrSteps d then t.updSteps d (fun n => n - 1) else t) s).thrSteps d =
      if d < 16 then s.thrSteps d - 1 else s.thrSteps d := by
  rw [State.thrSteps_foldl (P := fun t => SMap.risingFrom 0 t.pwr.steps = true) (F := fun _ n => n - 1) ?_ ?_ List.nodup_range hs]
  · simp only [List.mem_range]
  · intro t k ht
    split
    · exact SMap.risingFrom_set 0 k _ ht
    · exact ht
  · intro t k e ht
    by_cases he : e = k
    · subst he
      rw [if_pos rfl]
      split
      · exact State.thrSteps_updSteps_of_rising ht
      · omega
    · rw [if_neg he]
      split
      · exact State.thrSteps_updSteps_of_ne _ he
      · rfl

/-- Settles O47: a reading goes to its sensor, and the throttle commands fold over the dies. -/
theorem sensorAndThrottleResults : Obligations.SensorAndThrottleResults := by
  refine ⟨fun s id val outside dt haux hty => ⟨fun htrigger => ?_, fun c htrigger => ?_⟩, fun s id val v hstate hval =>
      ⟨fun hnear hid => ?_, State.sample_of_outside hstate hval, State.sample_of_outlier hstate hval⟩,
    fun id old v hid => judge_of_die old v hid, fun s hrails hk htail => ⟨_, exec_throttleStep_of_railsUp hrails hk htail, ?_, fun d => ?_⟩,
    fun s hrails => ⟨fun hrec => ?_, fun hrec hs => ⟨_, (exec_throttleRecovery_of_railsUp hrails).trans (congrArg _ (if_pos hrec)), ?_,
      State.thrSteps_recovered hs⟩⟩⟩
  · simp [exec, execSensorSample, haux, hty, htrigger]
  · simp [exec, execSensorSample, haux, hty, htrigger]
  · rw [State.sample_of_good hstate hval hnear hid]
    exact ⟨rfl, rfl, rfl, rfl⟩
  · refine OnlySteps.foldl (fun u t k ht => ?_) (OnlySteps.refl s) _
    split
    · exact ht.updSteps ..
    · exact ht
  · rw [State.thrSteps_throttled s fun d => s.throttleAll || s.dieCritical d]
    simp only [State.throttleAll, Bool.or_eq_true, or_assoc]
  · rw [exec_throttleRecovery_of_railsUp hrails, hrec, if_neg Bool.false_ne_true]
  · refine OnlySteps.foldl (fun u t k ht => ?_) (OnlySteps.refl s) _
    split
    · exact ht.updSteps ..
    · exact ht

end Sys2Proof.Machine
end

section
/-! SUPPORT. SOLSTICE: ramps, levels, triggers and the boost budget (R620 to R628). -/

namespace Sys2Proof.Machine

/-! ### Steps of a ramp and of a step-down (R620 to R622) -/

section Steps
variable {s : State} {dt : Nat}

theorem exec_solsticeRampStep_of_ramp (hstate : (s.tick dt).pwr.sol.state = .ramp) (hk : (s.tick dt).pwr.sol.k < (s.tick dt).pwr.sol.level)
    (hpaused : (s.tick dt).rampPaused = false) :
    exec (.solsticeRampStep dt) s = .next (((s.tick dt).setSol { (s.tick dt).pwr.sol with
      k := (s.tick dt).pwr.sol.k + 1, highest := (s.tick dt).pwr.sol.k + 1 }).rampDone) := by
  have hramping : ((s.tick dt).pwr.sol.state == .ramp || ((s.tick dt).pwr.sol.state == .draining && (s.tick dt).pwr.sol.request.isSome)) = true := by
    rw [hstate]
    rfl
  exact congrArg Host.Outcome.next (if_neg (by rw [hramping, hpaused]; simpa using hk))

theorem exec_solsticeRampStep_of_level (hk : (s.tick dt).pwr.sol.level ≤ (s.tick dt).pwr.sol.k) :
    exec (.solsticeRampStep dt) s = .next (s.tick dt) :=
  congrArg Host.Outcome.next (if_pos (.inr (.inl hk)))

theorem State.fallOne_of_high (hk : 2 ≤ s.pwr.sol.k) : s.fallOne = s.setSol { s.pwr.sol with k := s.pwr.sol.k - 1 } :=
  if_neg (by omega)

theorem State.fallOne_of_low (hk : s.pwr.sol.k ≤ 1) : s.fallOne = (s.setSol { s.pwr.sol with k := 0 }).endEpisode := if_pos hk

theorem exec_stepdownStep_of_stepdown (hstate : (s.tick dt).pwr.sol.state = .stepdown) :
    exec (.stepdownStep dt) s = .next (s.tick dt).fallOne :=
  congrArg Host.Outcome.next (if_pos (.inl hstate))

/-- The end of an episode that nobody waits for. -/
theorem State.endEpisode_of_no_cancels (hcancels : s.pwr.sol.cancels = []) : s.endEpisode =
    (({ s with pwr := { s.pwr with bins := addBin s.pwr.bins 0 ((s.pwr.sol.chargedNs + 999999) / 1000000 * 1000000) } } : State).setSol
      { s.pwr.sol with
        state := .off, k := 0, dies := [], reservedMs := 0, hard := false, cancels := [], endedAt := some s.tb.now,
        tail := !s.envOk }).writeBins := by
  simp only [State.endEpisode, hcancels, List.foldl_nil]

theorem exec_stepdownStep_of_last (hstate : (s.tick dt).pwr.sol.state = .stepdown) (hk : (s.tick dt).pwr.sol.k = 1)
    (hcancels : (s.tick dt).pwr.sol.cancels = []) :
    ∃ u, exec (.stepdownStep dt) s = .next u ∧ u.pwr.sol.state = .off ∧
      u.pwr.sol.k = 0 ∧ u.pwr.sol.reservedMs = 0 ∧ u.pwr.sol.endedAt = some (s.tick dt).tb.now ∧ u.pwr.binsFlash = u.pwr.bins ∧
      u.pwr.bins = addBin (s.tick dt).pwr.bins 0 (((s.tick dt).pwr.sol.chargedNs + 999999) / 1000000 * 1000000) := by
  refine ⟨_, exec_stepdownStep_of_stepdown hstate, ?_⟩
  have hnone : ((s.tick dt).setSol { (s.tick dt).pwr.sol with k := 0 }).pwr.sol.cancels = [] := hcancels
  rw [State.fallOne_of_low (Nat.le_of_eq hk), State.endEpisode_of_no_cancels hnone]
  exact ⟨rfl, rfl, rfl, rfl, rfl, rfl⟩

end Steps

/-! ### Wear bins and triggers (R623, R625, R627) -/

section Triggers
variable {s : State} {dt : Nat}

theorem exec_wearBinWrite_of_running {newHour : Bool} (hrun : (s.tick dt).stw.running = true) : exec (.wearBinWrite dt newHour) s =
    .next ({ s.tick dt with pwr := { (s.tick dt).pwr with
      bins := if newHour then ((0, 0) :: (s.tick dt).pwr.bins).take 720 else (s.tick dt).pwr.bins } } : State).writeBins :=
  congrArg Host.Outcome.next (if_neg (by rw [hrun]; decide))

section Expiry
variable (hstate : s.pwr.sol.state = .active)
include hstate

theorem exec_solsticeDurationExpiry_of_longest (hlong : 19900000000 ≤ s.pwr.sol.chargedNs) :
    exec .solsticeDurationExpiry s = .next (s.beginStepdown 4) := by
  refine congrArg Host.Outcome.next ((if_neg ?_).trans (if_pos hlong))
  rw [hstate]
  decide

theorem exec_solsticeDurationExpiry_of_request (hshort : s.pwr.sol.chargedNs < 19900000000)
    (hmax : s.pwr.sol.maxMs * 1000000 ≤ s.pwr.sol.activeNs) : exec .solsticeDurationExpiry s = .next (s.beginStepdown 7) := by
  refine congrArg Host.Outcome.next ((if_neg ?_).trans ((if_neg (Nat.not_le.mpr hshort)).trans (if_pos ⟨hstate, hmax⟩)))
  rw [hstate]
  decide

end Expiry

@[simp] theorem State.record_pwr (s : State) (e : EventRec) : (s.record e).pwr = s.pwr := by
  obtain ⟨_, _, hrecord⟩ := s.record_eq e
  rw [hrecord]

/-- A trigger while active falls by one step at once. -/
theorem State.beginStepdown_of_active {c : Nat} (hrequest : s.pwr.sol.request = none) (hk : 2 ≤ s.pwr.sol.k) (hstate : s.pwr.sol.state = .active) :
    (s.beginStepdown c).pwr.sol = { s.pwr.sol with state := .stepdown, lastEnd := c, hard := decide (c = 3), k := s.pwr.sol.k - 1 } := by
  have hend : s.endRequest = s := by rw [State.endRequest, hrequest]
  simp only [State.beginStepdown, hend, hstate, reduceCtorEq, if_false]
  rw [State.fallOne_of_high]
  · rw [State.record_pwr]
    rfl
  · rw [State.record_pwr]
    exact hk

end Triggers

/-! ### OP_BOOST (R624, R626) -/

theorem exec_opBoost_of_atPoint {s : State} {c : CmdRef} {k : Cmd} (h : AtPoint s c k 0x0706) :
    exec (.opBoost c) s = .next (s.unlessLost c (s.boost c k).settle) :=
  congrArg Host.Outcome.next (State.gate_of_atPoint h rfl fun t k _ _ => t.boost c k)

theorem bitsSet_one : bitsSet 1 8 = [0] := by decide

section Boost
variable {s : State} {c : CmdRef} {k : Cmd}

theorem State.boost_of_bad (hbad : boostFieldsOk k = false) : s.boost c k = s.endCmd c (Fin.with stBoostDenied 1) := by
  simp [State.boost, hbad]

variable (hfields : boostFieldsOk k = true)
include hfields

theorem State.boost_of_busy (hact : k.p 0 1 = 0) (hstate : s.pwr.sol.state ≠ .off) : s.boost c k = s.endCmd c (Fin.with stBoostDenied 2) := by
  simp [State.boost, hfields, hact, hstate]

theorem State.boost_cancel_of_off (hact : k.p 0 1 = 1) (hstate : s.pwr.sol.state = .off) : s.boost c k = s.endCmd c Fin.ok := by
  simp [State.boost, hfields, hact, hstate]

theorem State.boost_cancel_of_ramp (hact : k.p 0 1 = 1) (hstate : s.pwr.sol.state = .ramp) : s.boost c k =
    (s.startCmd c).setSol { s.pwr.sol with state := .draining, cancels := s.pwr.sol.cancels ++ [(c.block, c.id, 0)] } := by
  simp [State.boost, hfields, hact, hstate]

section Start
variable {x : Partition} (hact : k.p 0 1 = 0) (hstate : s.pwr.sol.state = .off) (hmask : k.p 2 1 = 1) (hpart : s.part 0 = some x)
  (hcoast : x.dies.all (fun d => (s.pll d).coastingAny) = false)
include hact hstate hmask hpart hcoast

/-- A request for the dies of partition 0 whose clocks do not all coast: the checks that are left, or the start of the ramp. -/
theorem State.boost_of_part : s.boost c k = s.boostUnfit.elim
    (if s.wearLeft < (if k.p 4 4 = 0 then 20000 else k.p 4 4) then s.endCmd c (Fin.with stBoostWearLimit (s.wearLeft % 2 ^ 32))
     else ((s.startCmd c).setSol { s.pwr.sol with
       state := .ramp, k := 1, level := k.p 1 1, dies := x.dies, maxMs := if k.p 4 4 = 0 then 20000 else k.p 4 4, highest := 1
       reservedMs := if k.p 4 4 = 0 then 20000 else k.p 4 4, remainBefore := s.wearLeft, chargedNs := 0, activeNs := 0, hard := false
       request := some (c.block, c.id), cancels := [], tail := false }).rampDone)
    (fun i => s.endCmd c (Fin.with stBoostDenied (4 + i * 2 ^ 16))) := by
  simp only [State.boost, hfields, hact, hstate, hmask, Nat.zero_ne_one, Nat.one_ne_zero, ne_eq, not_true_eq_false, Bool.not_true,
    Bool.false_eq_true, if_false]
  simp only [bitsSet_one, List.flatMap_cons, List.flatMap_nil, List.append_nil, List.any_cons, List.any_nil, hpart, hcoast,
    Option.isNone_some, Bool.or_self, Bool.false_eq_true, or_self, if_false]
  cases s.boostUnfit with
  | none => rw [Option.elim_none]
  | some i => rw [Option.elim_some]

theorem State.boost_of_wear (hfit : s.boostUnfit = none) (hleft : s.wearLeft < if k.p 4 4 = 0 then 20000 else k.p 4 4) :
    s.boost c k = s.endCmd c (Fin.with stBoostWearLimit (s.wearLeft % 2 ^ 32)) := by
  rw [State.boost_of_part hfields hact hstate hmask hpart hcoast, hfit, Option.elim_none, if_pos hleft]

theorem State.boost_of_fit (hfit : s.boostUnfit = none) (hleft : (if k.p 4 4 = 0 then 20000 else k.p 4 4) ≤ s.wearLeft) (hlevel : 2 ≤ k.p 1 1) :
    s.boost c k = (s.startCmd c).setSol { s.pwr.sol with
      state := .ramp, k := 1, level := k.p 1 1, dies := x.dies, maxMs := if k.p 4 4 = 0 then 20000 else k.p 4 4, highest := 1
      reservedMs := if k.p 4 4 = 0 then 20000 else k.p 4 4, remainBefore := s.wearLeft, chargedNs := 0, activeNs := 0, hard := false
      request := some (c.block, c.id), cancels := [], tail := false } := by
  rw [State.boost_of_part hfields hact hstate hmask hpart hcoast, hfit, Option.elim_none, if_neg (Nat.not_lt.mpr hleft)]
  exact if_pos hlevel

end Start
end Boost

theorem exec_drainLimitExpiry_boost {s : State} {c : Nat × Nat} (hstate : s.pwr.sol.state = .draining) (hrequest : s.pwr.sol.request = some c) :
    exec (.drainLimitExpiry .boost) s = .next (((s.setSol { s.pwr.sol with
      request := none, cancels := s.pwr.sol.cancels.map (fun q => (q.1, q.2.1, q.2.2 + 1)) }).endAtBoundary
        { block := c.1, id := c.2 } stAbortedByDisable 0).beginStepdown 1) := by
  show Host.Outcome.next s.boostDrainLimit = _
  simp only [State.boostDrainLimit, hrequest, hstate, ne_eq, not_true_eq_false, if_false]

/-- Settles O48: each step, trigger and request takes one branch. -/
theorem solsticeResults : Obligations.SolsticeResults := by
  refine fun s dt => ⟨exec_solsticeRampStep_of_ramp, fun _ => exec_solsticeRampStep_of_level, fun hstate hk => ?_, fun hstate hk hcancels => exec_stepdownStep_of_last hstate hk hcancels,
    fun hrun => exec_wearBinWrite_of_running hrun, fun hrun => exec_wearBinWrite_of_running hrun, exec_solsticeDurationExpiry_of_longest,
    exec_solsticeDurationExpiry_of_request, fun c hrequest hk hstate => ⟨_, rfl, ?_⟩, fun c k => exec_opBoost_of_atPoint,
    fun c k => ⟨State.boost_of_bad, State.boost_of_busy, State.boost_cancel_of_off, State.boost_cancel_of_ramp,
      fun x hfields hact hstate hmask hpart hcoast => ⟨fun i hunfit => ?_, fun hfit =>
        ⟨State.boost_of_wear hfields hact hstate hmask hpart hcoast hfit, fun hleft hlevel =>
          ⟨_, State.boost_of_fit hfields hact hstate hmask hpart hcoast hfit hleft hlevel, ?_⟩⟩⟩⟩,
    fun c => exec_drainLimitExpiry_boost⟩
  · rw [exec_stepdownStep_of_stepdown hstate, State.fallOne_of_high hk]
  · rw [State.beginStepdown_of_active hrequest hk hstate]
    exact ⟨rfl, rfl, rfl⟩
  · rw [State.boost_of_part hfields hact hstate hmask hpart hcoast, hunfit, Option.elim_some]
  · simp only [State.setSol, and_self]

end Sys2Proof.Machine
end

section
/-! SUPPORT. Recovery of core faults and the self-test (R645, R649, R651, R652, R662). -/

namespace Sys2Proof.Machine

/-! ### A replay in place takes no time (R652) -/

@[simp] theorem State.drainAround_tb (s : State) (k : Nat) : (s.drainAround k).tb = s.tb := by
  unfold State.drainAround
  refine List.foldlRecOn (motive := fun t : State => t.tb = s.tb) _ _ (s.updCore_tb k _) fun t ht p _ => ?_
  split
  · exact ht
  · exact ht

@[simp] theorem State.discarded_tb (s : State) (k : Nat) (d : Option DispatchRec) : (s.discarded k d).tb = s.tb := by
  cases d with
  | none => rfl
  | some r => rfl

@[simp] theorem State.replayHere_tb (s : State) (k : Nat) : (s.replayHere k).tb = s.tb := by simp [State.replayHere]

/-- The cores of `faults` are replayed where they are. -/
theorem replayAll_tb (s : State) (d : Nat) (faults : List (Nat × Nat)) :
    (faults.foldl (fun u e => u.replayHere ((d * 8 + e.1) * 32 + e.2)) s).tb = s.tb :=
  List.foldlRecOn (motive := fun t : State => t.tb = s.tb) _ _ rfl fun t ht _ _ => (t.replayHere_tb _).trans ht

/-! ### CORE_FAULT_RECOVERY (R645, R649, R652) -/

/-- The cores that CORE_FAULT_RECOVERY names are in the map and have stopped. -/
def FaultsStopped (s : State) (d : Nat) (faults : List (Nat × Nat)) : Prop :=
  ∀ e ∈ faults, (e.1 < 8 ∧ e.2 < 17) ∧ (s.core ((d * 8 + e.1) * 32 + e.2)).run.frozen = true ∧ (logRow (s.gap d e.1) e.2).isSome = true

section Recovery
variable {s : State} {d : Nat} {faults : List (Nat × Nat)} {sourceBad : Bool}

theorem FaultsStopped.all (h : FaultsStopped s d faults) : faults.all (fun e => decide (e.1 < 8 ∧ e.2 < 17) &&
    (s.core ((d * 8 + e.1) * 32 + e.2)).run.frozen && (logRow (s.gap d e.1) e.2).isSome) = true := by
  refine List.all_eq_true.mpr fun e he => ?_
  obtain ⟨hpos, hfrozen, hrow⟩ := h e he
  rw [hfrozen, hrow, decide_eq_true hpos]
  rfl

theorem logRow_isSome {gap f : Nat} (h : f ≠ gap) : (logRow gap f).isSome = true := by
  unfold logRow
  rw [if_neg h]
  split
  · rfl
  · rfl

theorem exec_coreFaultRecovery_of_running {e : Nat × Nat} (hrun : (s.core ((d * 8 + e.1) * 32 + e.2)).run.frozen = false) :
    exec (.coreFaultRecovery d [e] sourceBad) s = .next s :=
  congrArg Host.Outcome.next (if_pos (by simp [hrun]))

variable (hd : d < 16) (hmarshal : (s.die d).marshalDead = false)
include hd hmarshal

/-- The command's checks pass: the faults are one of a shared cause, or are recovered one by one. -/
theorem coreFaultRecovery_checked (hne : faults ≠ []) (hnodup : faults.Nodup) (hstopped : FaultsStopped s d faults) :
    ¬(16 ≤ d ∨ (s.die d).marshalDead = true ∨ faults.isEmpty = true ∨
      (!faults.all (fun e => decide (e.1 < 8 ∧ e.2 < 17) && (s.core ((d * 8 + e.1) * 32 + e.2)).run.frozen &&
        (logRow (s.gap d e.1) e.2).isSome)) = true ∨ (!decide faults.Nodup) = true) := by
  rw [hstopped.all, hmarshal, decide_eq_true hnodup, List.isEmpty_eq_false_iff.mpr hne]
  simp [hd]

theorem exec_coreFaultRecovery_of_shared (hlen : 4 ≤ faults.length) (hnodup : faults.Nodup) (hstopped : FaultsStopped s d faults)
    (hshared : (s.die d).lastShared = none) :
    exec (.coreFaultRecovery d faults sourceBad) s = .next (s.sharedCause d faults).settle := by
  have hne : faults ≠ [] := List.ne_nil_of_length_pos (by omega)
  refine congrArg Host.Outcome.next ((if_neg (coreFaultRecovery_checked hd hmarshal hne hnodup hstopped)).trans (if_pos ⟨hlen, ?_⟩))
  rw [hshared]

theorem exec_coreFaultRecovery_of_one {e : Nat × Nat} (hstopped : FaultsStopped s d [e]) (hvisible : (s.recoverCore d sourceBad e).2 = false) :
    exec (.coreFaultRecovery d [e] sourceBad) s =
      .next ((((s.recoverCore d sourceBad e).1.resetTested d).noteShort d).noteStatus.settle) := by
  refine congrArg Host.Outcome.next ((if_neg (coreFaultRecovery_checked hd hmarshal (List.cons_ne_nil _ _) (List.nodup_singleton e)
    hstopped)).trans ((if_neg fun h => absurd h.1 (Nat.not_le.mpr (by simp))).trans ?_))
  simp only [List.foldl_cons, List.foldl_nil, hvisible, Bool.or_false, Bool.false_eq_true, if_false]

end Recovery

/-- A fault with a working spare that hits no neighbour moves its column's rows, and counts once. -/
theorem State.recoverCore_of_spare {s : State} {d c f : Nat} (hworks : s.gapWorks d c = true)
    (hhits : s.hitBy ((d * 8 + c) * 32 + f) = []) : s.recoverCore d false (c, f) =
      (((((s.relocate d c f (s.core ((d * 8 + c) * 32 + f)).run.replay.wdog).mapOut d c f).countRecovery.coreEvent 0x0201 d c f).coreEvent
        0x0202 d c f), false) := by
  simp only [State.recoverCore, hworks, hhits, Bool.not_true, Bool.false_eq_true, if_false, List.foldl_nil]

/-! ### SELF_TEST_DONE and GAP_TEST_TIMER (R651, R662) -/

section SelfTest
variable {s : State} {q : CorePos} {pass : Bool}

theorem exec_selfTestDone_of_not_testing (htesting : (s.die q.die).testing.contains (q.col, q.row) = false) :
    exec (.selfTestDone q pass) s = .next s :=
  congrArg Host.Outcome.next (if_pos (.inr (by rw [htesting]; rfl)))

theorem selfTestDone_checked (hpos : posOk q = true) (htesting : (s.die q.die).testing.contains (q.col, q.row) = true) :
    ¬((!posOk q) = true ∨ (!(s.die q.die).testing.contains (q.col, q.row)) = true) := by
  rw [hpos, htesting]
  decide

theorem exec_gapTestTimer_of_rails {d : Nat} (hd : d < 16) (hrails : s.start.railsUp = true) (hmarshal : (s.die d).marshalDead = false) :
    exec (.gapTestTimer d) s = .next ((s.updDie d (fun x => { x with
      testing := x.testing ++ ((List.range 8).filter (fun c => s.gapWorks d c)).map (fun c => (c, s.gap d c)) })).resetTested d) :=
  congrArg Host.Outcome.next (if_neg (by rw [hrails, hmarshal]; simp [hd]))

end SelfTest

/-- Settles O50: one fault with a working spare, a shared cause, and the self-test. -/
theorem coreFaultResults : Obligations.CoreFaultResults := by
  refine ⟨fun s d c f faults hd hmarshal => ⟨fun hc hf hfrozen ⟨r, hr⟩ hworks hhits => ?_, fun _ _ hrun =>
    exec_coreFaultRecovery_of_running hrun, fun hlen hnodup hshared hfaults => ?_⟩, fun s q hpos =>
    ⟨fun htesting _ => exec_selfTestDone_of_not_testing htesting, fun pass htesting =>
      congrArg Host.Outcome.next (if_neg (selfTestDone_checked hpos htesting)), fun hrails hmarshal =>
      exec_gapTestTimer_of_rails (of_decide_eq_true hpos).1 hrails hmarshal⟩⟩
  · have hrecover := s.recoverCore_of_spare hworks hhits
    have hstopped : FaultsStopped s d [(c, f)] := fun e he => by
      rw [List.mem_singleton.mp he]
      exact ⟨⟨hc, hf⟩, hfrozen, by rw [hr]; rfl⟩
    rw [exec_coreFaultRecovery_of_one hd hmarshal hstopped (by rw [hrecover]), hrecover]
  · have hstopped : FaultsStopped s d faults := fun e he =>
      ⟨⟨(hfaults e he).1, (hfaults e he).2.1⟩, (hfaults e he).2.2.1, logRow_isSome (hfaults e he).2.2.2⟩
    show _ = Host.Outcome.next _
    rw [exec_coreFaultRecovery_of_shared hd hmarshal hlen hnodup hstopped hshared, replayAll_tb]
    rfl

end Sys2Proof.Machine
end

section
/-! SUPPORT. Coalesced reports of a suspected unit, and the recovery of a DRAM channel (R655, R657 to R659). -/

namespace Sys2Proof.Machine

/-! ### Reports and coalescing entries (R657 to R659) -/

section Coalescing
variable {s : State} {r : Report}

theorem exec_faultReport_of_steward (hreporter : r.reporter = none) : exec (.faultReport r) s = .next (s.stewardReport (Report.event r 1 0)) := by
  show Host.Outcome.next (s.report r) = _
  unfold State.report
  rw [hreporter]

section OfColumn
variable {d c : Nat} (hreporter : r.reporter = some (d, c)) (hd : d < 16) (hc : c < 8)
include hreporter hd hc

theorem exec_faultReport_of_same (hsame : (s.die d).coal.any (fun e => e.code == r.code && e.unit == r.unit) = true) :
    exec (.faultReport r) s = .next (s.updDie d (fun x => { x with coal := x.coal.map (fun e =>
      if e.code == r.code && e.unit == r.unit then { e with count := e.count + 1, reporters := e.reporters ||| reporterBits d [c] }
      else e) })) := by
  show Host.Outcome.next (s.report r) = _
  unfold State.report
  rw [hreporter]
  exact congrArg Host.Outcome.next ((if_neg (by omega)).trans (if_pos hsame))

theorem exec_faultReport_of_room (hsame : (s.die d).coal.any (fun e => e.code == r.code && e.unit == r.unit) = false)
    (hroom : (s.die d).coal.length < 16) :
    exec (.faultReport r) s = .next ((s.updDie d (fun x => { x with coal := x.coal ++ [({
      code := r.code, unit := r.unit, count := 0, reporters := 0, sev := r.sev % 5, part := r.part % 16,
      detail := r.detail } : CoalEntry)] })).stewardReport (Report.event r 1 (reporterBits d [c]))) := by
  show Host.Outcome.next (s.report r) = _
  unfold State.report
  rw [hreporter]
  refine congrArg Host.Outcome.next ((if_neg (by omega)).trans ((if_neg (Bool.not_eq_true _ ▸ hsame)).trans ?_))
  exact congrArg (State.stewardReport · _) (if_pos hroom)

end OfColumn

section Close
variable {d code unit : Nat}

theorem exec_marshalCoalesceClose_of_found {q : CoalEntry} (hfound : (s.die d).coal.find? (fun e => e.code == code && e.unit == unit) = some q) :
    exec (.marshalCoalesceClose d code unit) s = .next (
      if q.count = 0 then s.updDie d (fun x => { x with coal := x.coal.filter (fun z => z != q) })
      else (s.updDie d (fun x => { x with coal := x.coal.filter (fun z => z != q) })).stewardReport { EventRec.plain q.code with
        sev := q.sev, unit := q.unit, part := q.part, detail := q.detail, count := q.count, reporters := q.reporters }) := by
  show execMarshalCoalesceClose d code unit s = _
  unfold execMarshalCoalesceClose
  rw [hfound]

theorem exec_stewardCoalesceClose_of_found {w : StwCoal}
    (hfound : s.stw.coal.find? (fun e => e.first.code == code && e.first.unit == unit) = some w) (hrun : s.stw.running = true) :
    exec (.stewardCoalesceClose code unit) s =
      .next (({ s with stw := { s.stw with coal := s.stw.coal.filter (fun z => z != w) } } : State).record { w.first with
        count := w.count, reporters := w.reporters }) := by
  show execStewardCoalesceClose code unit s = _
  unfold execStewardCoalesceClose
  rw [hfound]
  exact congrArg Host.Outcome.next (if_neg (by rw [hrun]; decide))

end Close
end Coalescing

/-! ### A DRAM channel that does not answer (R655) -/

section Deadline
variable {s : State} {q : CorePos} {eng stack ch : Nat} (hreach : Reaches s q) (heng : eng < 2) (hstack : stack < 6) (hch : ch < 32)
  (hqueue : ((s.core (CorePos.key q)).dma eng).queue ≠ []) (hheld : ((s.core (CorePos.key q)).dma eng).held = none)
include hreach heng hstack hch hqueue hheld

theorem exec_dmaDeadlineExpiry_of_first (hfirst : ((s.core (CorePos.key q)).dma eng).expiries = 0) :
    exec (.dmaDeadlineExpiry q eng stack ch) s =
      .next (s.updCore (CorePos.key q) (fun c => c.updDma eng (fun d => { d with expiries := 1 }))) := by
  refine congrArg Host.Outcome.next ((if_neg (by omega)).trans ((onCore_eq hreach _).trans ((if_neg ?_).trans (if_pos hfirst))))
  simp [hqueue, hheld]

theorem exec_dmaDeadlineExpiry_of_second (hagain : ((s.core (CorePos.key q)).dma eng).expiries ≠ 0) :
    exec (.dmaDeadlineExpiry q eng stack ch) s =
      .next (((s.updCore (CorePos.key q) (fun c => c.updDma eng (fun d => { d with
          expiries := 2, held := some (chanKey stack ch) }))).setChan stack ch { s.chan stack ch with answers := false }).report
        { code := 0x0305, unit := chanUnit stack ch, reporter := some (q.die, q.col), sev := 2, part := (s.partOfDie q.die).getD 0xF,
          detail := 0 }) := by
  refine congrArg Host.Outcome.next ((if_neg (by omega)).trans ((onCore_eq hreach _).trans ((if_neg ?_).trans (if_neg hagain))))
  simp [hqueue, hheld]

end Deadline

section Reset
variable {s : State} {stack ch : Nat} (hresetting : (s.chan stack ch).resetting = true) (hrun : s.stw.running = true)
include hresetting hrun

/-- The reset of a channel that is being reset, while the Steward runs. -/
theorem exec_channelResetDone_of_resetting {answers : Bool} : exec (.channelResetDone stack ch answers) s = .next (
    if answers then
      ((s.record { EventRec.plain 0x0306 with unit := chanUnit stack ch }).setChan stack ch { s.chan stack ch with
        resetting := false, answers := true, resets := 0 }).releaseHeld (chanKey stack ch)
    else if 1 ≤ (s.chan stack ch).resets then
      ((s.record { EventRec.plain 0x0306 with unit := chanUnit stack ch }).setChan stack ch { s.chan stack ch with
        resetting := false, resets := (s.chan stack ch).resets + 1 }).startSparing stack ch
    else (s.record { EventRec.plain 0x0306 with unit := chanUnit stack ch }).setChan stack ch { s.chan stack ch with
      resetting := true, resets := (s.chan stack ch).resets + 1 }) :=
  congrArg Host.Outcome.next (if_neg (by rw [hresetting, hrun]; decide))

theorem exec_channelResetDone_of_silent_first (hfirst : (s.chan stack ch).resets = 0) : exec (.channelResetDone stack ch false) s =
    .next ((s.record { EventRec.plain 0x0306 with unit := chanUnit stack ch }).setChan stack ch { s.chan stack ch with
      resetting := true, resets := 1 }) := by
  rw [exec_channelResetDone_of_resetting hresetting hrun, hfirst]
  rfl

theorem exec_channelResetDone_of_silent_again (hagain : 1 ≤ (s.chan stack ch).resets) : exec (.channelResetDone stack ch false) s =
    .next (((s.record { EventRec.plain 0x0306 with unit := chanUnit stack ch }).setChan stack ch { s.chan stack ch with
      resetting := false, resets := (s.chan stack ch).resets + 1 }).startSparing stack ch) :=
  (exec_channelResetDone_of_resetting hresetting hrun).trans (congrArg Host.Outcome.next (if_pos hagain))

end Reset

/-- Settles O51: each report, closing entry, expiry and reset takes one branch. -/
theorem coalescingResults : Obligations.CoalescingResults :=
  ⟨fun _ _ _ _ _ _ _ _ => ⟨exec_faultReport_of_steward, exec_faultReport_of_same, exec_faultReport_of_room, fun hfound =>
      ⟨fun hcount => (exec_marshalCoalesceClose_of_found hfound).trans (congrArg Host.Outcome.next (if_pos hcount)),
        fun hcount => (exec_marshalCoalesceClose_of_found hfound).trans (congrArg Host.Outcome.next (if_neg (Nat.ne_of_gt hcount)))⟩,
      exec_stewardCoalesceClose_of_found⟩,
    fun _ _ _ _ _ hpos heng hstack hch hfrozen =>
      ⟨exec_dmaDeadlineExpiry_of_first ⟨hpos, hfrozen⟩ heng hstack hch, exec_dmaDeadlineExpiry_of_second ⟨hpos, hfrozen⟩ heng hstack hch,
        fun hresetting hrun => ⟨exec_channelResetDone_of_resetting hresetting hrun, exec_channelResetDone_of_silent_first hresetting hrun,
          exec_channelResetDone_of_silent_again hresetting hrun⟩⟩⟩

end Sys2Proof.Machine
end

section
/-! SUPPORT. What a reset loses and keeps (R681). -/

namespace Sys2Proof.Machine

/-! ### Maps rewritten entry by entry -/

theorem SMap.get_map {α β : Type} (f : α → β) (d : α) (m : SMap α) (k : Nat) :
    SMap.get (f d) (m.map fun e => (e.1, f e.2)) k = f (SMap.get d m k) := by
  induction m with
  | nil => rfl
  | cons e m ih => simp only [List.map_cons, SMap.get, ih, apply_ite f]

theorem SMap.get_filterMap {α : Type} (d : α) (p : Nat → Bool) (v : Nat → α) (l : List Nat) (n : Nat) :
    SMap.get d (l.filterMap fun i => if p i then some (i, v i) else none) n = if n ∈ l ∧ p n then v n else d := by
  induction l with
  | nil => simp [SMap.get]
  | cons a l ih =>
    by_cases hp : p a
    · simp only [List.filterMap_cons, hp, if_true, SMap.get, ih]
      by_cases ha : a = n
      · subst ha
        simp [hp]
      · simp [ha, Ne.symm ha]
    · simp only [List.filterMap_cons, hp, if_false, Bool.false_eq_true, ih]
      by_cases ha : n = a
      · subst ha
        simp [hp]
      · simp [ha]

/-! ### Scrubbing allocations -/

/-- Only memory and the dies' caches differ. -/
def OnlyScrubbed (s t : State) : Prop := t = { s with mem := t.mem, dies := t.dies } ∧ ∀ d, (t.die d).retired = (s.die d).retired

section Scrubbed
variable {s t u : State}

theorem OnlyScrubbed.refl (s : State) : OnlyScrubbed s s := ⟨rfl, fun _ => rfl⟩

theorem OnlyScrubbed.trans (h : OnlyScrubbed s t) (hu : OnlyScrubbed t u) : OnlyScrubbed s u := by
  obtain ⟨heq, hret⟩ := h
  obtain ⟨heq', hret'⟩ := hu
  refine ⟨?_, fun d => (hret' d).trans (hret d)⟩
  rw [heq] at heq'
  exact heq'

/-- The page translations that stay in a die's cache. -/
def Die.keepXlat (keep : Xlat → Bool) (x : Die) : Die := { x with xlat := x.xlat.filter keep }

theorem State.scrubBacking_onlyScrubbed (s : State) (x : Partition) (b : Backing) : OnlyScrubbed s (s.scrubBacking x b) := by
  have hdie (d : Nat) : (s.scrubBacking x b).die d =
      (s.die d).keepXlat fun e => !decide (b.base ≤ e.addr ∧ e.addr < b.base + b.size) := (SMap.get_map (Die.keepXlat fun e => !decide (b.base ≤ e.addr ∧ e.addr < b.base + b.size)) Die.reset s.dies d :)
  exact ⟨rfl, fun d => (congrArg Die.retired (hdie d) :)⟩

theorem OnlyScrubbed.foldl {α : Type} {f : State → α → State} (hf : ∀ t a, OnlyScrubbed t (f t a)) (l : List α) (s : State) :
    OnlyScrubbed s (l.foldl f s) :=
  List.foldlRecOn (motive := fun t => OnlyScrubbed s t) l f (OnlyScrubbed.refl s) fun t ht a _ => ht.trans (hf t a)

theorem State.scrubFw_onlyScrubbed (s : State) : OnlyScrubbed s s.scrubFw := by
  refine OnlyScrubbed.foldl (fun t p => ?_) _ s
  split
  · exact OnlyScrubbed.refl t
  · exact OnlyScrubbed.foldl (fun u _ => u.scrubBacking_onlyScrubbed _ _) _ t

/-- The state whose stores a reset orphans. -/
theorem scrubbedFw_onlyScrubbed (s : State) (warm : Bool) : OnlyScrubbed s (if warm then s.scrubFw else s) := by
  cases warm with
  | false => exact OnlyScrubbed.refl s
  | true => exact s.scrubFw_onlyScrubbed

end Scrubbed

/-! ### What the engine loses -/

section Engine
variable (s : State) (warm : Bool)

@[simp] theorem State.loseEngine_start : (s.loseEngine warm).start = s.start :=
  (congrArg (fun t : State => t.start) (scrubbedFw_onlyScrubbed s warm).1 :)

@[simp] theorem State.loseEngine_stw : (s.loseEngine warm).stw = s.stw :=
  (congrArg (fun t : State => t.stw) (scrubbedFw_onlyScrubbed s warm).1 :)

theorem State.loseEngine_fw : (s.loseEngine warm).fw = { s.fw with change := none } :=
  (congrArg (fun t : State => { t.fw with change := none }) (scrubbedFw_onlyScrubbed s warm).1 :)

theorem State.loseEngine_sec : (s.loseEngine warm).sec = { SecState.reset with
    fuses := s.sec.fuses, lastAuthSeq := s.sec.lastAuthSeq, erasePending := s.sec.erasePending, eraseDue := s.sec.eraseDue,
    nextSession := s.sec.nextSession } :=
  (congrArg (fun t : State => ({ SecState.reset with
    fuses := t.sec.fuses, lastAuthSeq := t.sec.lastAuthSeq, erasePending := t.sec.erasePending, eraseDue := t.sec.eraseDue,
    nextSession := t.sec.nextSession } : SecState)) (scrubbedFw_onlyScrubbed s warm).1 :)

theorem State.loseEngine_fuses : (s.loseEngine warm).sec.fuses = s.sec.fuses := (congrArg SecState.fuses (s.loseEngine_sec warm) :)

theorem State.loseEngine_running : (s.loseEngine warm).stw.running = s.stw.running := (congrArg Steward.running (s.loseEngine_stw warm) :)

theorem State.loseEngine_pwr : (s.loseEngine warm).pwr = s.pwr.restart :=
  (congrArg (fun t : State => t.pwr.restart) (scrubbedFw_onlyScrubbed s warm).1 :)

theorem State.loseEngine_tb : (s.loseEngine warm).tb = if warm then
    { TimeState.reset with now := s.tb.now, ctrlEn := s.tb.ctrlEn, periodMs := s.tb.periodMs } else { TimeState.reset with now := s.tb.now } :=
  (congrArg (fun t : State => if warm then
    { TimeState.reset with now := t.tb.now, ctrlEn := t.tb.ctrlEn, periodMs := t.tb.periodMs } else { TimeState.reset with now := t.tb.now })
    (scrubbedFw_onlyScrubbed s warm).1 :)

theorem State.loseEngine_engineId : (s.loseEngine warm).span.engineId = s.span.engineId :=
  (congrArg (fun t : State => t.span.engineId) (scrubbedFw_onlyScrubbed s warm).1 :)

theorem State.loseEngine_clkout0 : (s.loseEngine true).clk.clkout0 = s.clk.clkout0 :=
  (congrArg (fun t : State => t.clk.clkout0) s.scrubFw_onlyScrubbed.1 :)

theorem State.loseEngine_clkout1 : (s.loseEngine true).clk.clkout1 = s.clk.clkout1 :=
  (congrArg (fun t : State => t.clk.clkout1) s.scrubFw_onlyScrubbed.1 :)

theorem State.loseEngine_retired (d : Nat) : ((s.loseEngine warm).die d).retired = (s.die d).retired :=
  (congrArg Die.retired (SMap.get_map Die.restart Die.reset (if warm then s.scrubFw else s).dies d)).trans ((scrubbedFw_onlyScrubbed s warm).2 d)

/-- The DOWN port that a reset leaves of an enabled one. -/
def SpanPort.downEnabled : SpanPort := { SpanPort.reset with enabled := true, state := .down }

theorem State.loseEngine_port {n : Nat} (hn : n < 32) : ((s.loseEngine warm).port n).enabled = (s.port n).enabled := by
  have hports : (if warm then s.scrubFw else s).port n = s.port n := (congrArg (State.port · n) (scrubbedFw_onlyScrubbed s warm).1 :)
  have hget : (s.loseEngine warm).port n = if n ∈ List.range 32 ∧ ((if warm then s.scrubFw else s).port n).enabled then
      SpanPort.downEnabled else SpanPort.reset :=
    SMap.get_filterMap SpanPort.reset (fun i => ((if warm then s.scrubFw else s).port i).enabled) (fun _ => SpanPort.downEnabled) (List.range 32) n
  rw [hget, hports]
  cases henabled : (s.port n).enabled with
  | false => simp [SpanPort.reset]
  | true => simp [hn, SpanPort.downEnabled]

theorem State.loseEngine_stores : ∀ x ∈ (s.loseEngine warm).flash.stores, x.persistent = true ∧ x.part = none ∧ x.ctx = none := by
  intro x hx
  obtain ⟨y, hy, hyx⟩ := List.mem_map.mp hx
  rw [← hyx]
  exact ⟨by simpa using (List.mem_filter.mp hy).2, rfl, rfl⟩

end Engine

theorem PwrState.restart_bins {p : PwrState} (hoff : p.sol.state = .off) : p.restart.bins = p.bins :=
  (congrArg PwrState.bins (if_pos hoff : p.cutOff = p) :)

theorem PwrState.cutOff_trip (p : PwrState) : p.cutOff.tripped = p.tripped ∧ p.cutOff.tripSensor = p.tripSensor := by
  unfold PwrState.cutOff
  split
  · exact ⟨rfl, rfl⟩
  · exact ⟨rfl, rfl⟩

/-! ### What the Steward loses -/

theorem FwKindState.revert_slots (x : FwKindState) :
    x.revert.slotA = x.slotA ∧ x.revert.slotB = x.slotB ∧ x.revert.phase ≠ .trial := by
  unfold FwKindState.revert
  split
  · exact ⟨rfl, rfl, fun h => nomatch h⟩
  next hphase => exact ⟨rfl, rfl, hphase⟩

theorem State.lose_fwKind (s : State) (warm : Bool) (k : Nat) : (s.lose warm).fwKind k = (s.fwKind k).revert := by
  have hfw := s.loseEngine_fw warm
  have hkind : (s.lose warm).fwKind k = ((s.loseEngine warm).fwKind k).revert :=
    SMap.get_map FwKindState.revert FwKindState.reset (s.loseEngine warm).fw.kinds k
  rw [hkind]
  exact congrArg FwKindState.revert (congrArg (fun f : FwState => SMap.get FwKindState.reset f.kinds k) hfw :)

@[simp] theorem State.lose_start (s : State) (warm : Bool) : (s.lose warm).start = s.start := s.loseEngine_start warm

@[simp] theorem State.lose_parts (s : State) (warm : Bool) : (s.lose warm).parts = [] := rfl

theorem State.lose_stw (s : State) (warm : Bool) : (s.lose warm).stw = { Steward.reset with
    resets := if warm then s.stw.resets else 0
    nextSeq := s.stw.nextSeq
    seqBound := s.stw.seqBound
    ring := if warm then s.stw.ring else []
    log := s.stw.log
    bootCount := s.stw.bootCount } := by
  rw [State.lose, State.loseSteward, State.loseEngine_stw]

theorem State.lose_fuses (s : State) (warm : Bool) : (s.lose warm).sec.fuses = s.sec.fuses := s.loseEngine_fuses warm

theorem State.lose_bootCount (s : State) (warm : Bool) : (s.lose warm).stw.bootCount = s.stw.bootCount :=
  (congrArg Steward.bootCount (s.lose_stw warm) :)

theorem State.lose_pwr (s : State) (warm : Bool) : (s.lose warm).pwr = s.pwr.restart := s.loseEngine_pwr warm

end Sys2Proof.Machine
end

section
/-! SUPPORT. The supplies and the boot (R668 to R673). -/

namespace Sys2Proof.Machine

/-! ### The auxiliary supply and the hub ROM (R668 to R670) -/

section Aux
variable {s : State} {spi : List Byte}

theorem exec_v3p3AuxGood_of_good (haux : s.start.auxGood = true) : exec (.v3p3AuxGood spi) s = .next s :=
  congrArg Host.Outcome.next (if_pos haux)

theorem exec_v3p3AuxLost_of_lost (haux : s.start.auxGood = false) : exec .v3p3AuxLost s = .next s :=
  congrArg Host.Outcome.next (if_pos (by rw [haux]; rfl))

theorem exec_v3p3AuxGood_of_lost (haux : s.start.auxGood = false) : ∃ t : State, exec (.v3p3AuxGood spi) s = .next (t.bootSteward spi) ∧
    t.start.auxGood = true ∧ t.pwr.tripped = false ∧ t.pwr.thermtripLow = false ∧ t.stw.bootCount = s.stw.bootCount + 1 ∧
    t.start.cause = 0 := by
  refine ⟨_, congrArg Host.Outcome.next (if_neg (by rw [haux]; decide)), rfl, rfl, rfl, ?_, rfl⟩
  exact congrArg (· + 1) (s.lose_bootCount false)

theorem exec_v3p3AuxLost_of_good (haux : s.start.auxGood = true) : ∃ t : State, exec .v3p3AuxLost s = .next t ∧ t.start.auxGood = false ∧
    t.start.phase = .off ∧ t.stw.running = false ∧ t.parts = [] ∧ t.cores = [] ∧ t.pwr.tripped = false ∧ t.sec.fuses = s.sec.fuses ∧
    t.pwr.bins = t.pwr.binsFlash :=
  ⟨_, congrArg Host.Outcome.next (if_neg (by rw [haux]; decide)), rfl, rfl, rfl, rfl, rfl, rfl,
    s.lose_fuses false, rfl⟩

section Boot
variable (hfirst : s.bootable (s.fwKind 0).committedImg = false)
include hfirst

theorem State.bootSteward_of_other (hother : s.bootable (s.fwKind 0).otherImg = true) : s.bootSteward spi =
    ((s.updFwKind 0 (fun y => { y with committedB := !y.committedB, phase := .committed, byPldm := false })).runSteward .aux true).event 0x0904 := by
  simp only [State.bootSteward, hfirst, hother, Bool.false_eq_true, if_false, if_true]

variable (hother : s.bootable (s.fwKind 0).otherImg = false)
include hother

theorem State.bootSteward_of_spi (hspi : s.bootable spi = true) : s.bootSteward spi = (s.runSteward .recovery false).event 0x0908 := by
  simp only [State.bootSteward, hfirst, hother, hspi, Bool.false_eq_true, if_false, if_true]

theorem State.bootSteward_of_none (hspi : s.bootable spi = false) :
    s.bootSteward spi = { s with start := { s.start with phase := .romRetry } } := by
  simp only [State.bootSteward, hfirst, hother, hspi, Bool.false_eq_true, if_false]

end Boot
end Aux

theorem State.record_running (s : State) (e : EventRec) : (s.record e).stw.running = s.stw.running := by
  unfold State.record State.enterEvent
  dsimp only
  split
  · split
    · rfl
    · rfl
  · rfl

section LogStart
variable (s : State)

theorem State.logStart_running : s.logStart.stw.running = s.stw.running := State.record_running _ _

theorem State.logStart_start : s.logStart.start = { s.start with
    tripSeen := s.pwr.tripped, eraseResumed := s.sec.erasePending || s.sec.eraseDue } := State.record_start _ _

@[simp] theorem State.logStart_parts : s.logStart.parts = s.parts := State.record_parts _ _

@[simp] theorem State.logStart_sec : s.logStart.sec = s.sec := State.record_sec _ _

@[simp] theorem State.record_cores (e : EventRec) : (s.record e).cores = s.cores := by
  obtain ⟨_, _, hrecord⟩ := s.record_eq e
  rw [hrecord]

@[simp] theorem State.logStart_cores : s.logStart.cores = s.cores := State.record_cores _ _

end LogStart

theorem State.runSteward_facts (s : State) (phase : BootPhase) (alt : Bool) : (s.runSteward phase alt).stw.running = true ∧
    (s.runSteward phase alt).start.phase = phase ∧ (s.runSteward phase alt).start.altSlot = alt ∧
    (s.runSteward phase alt).start.tripSeen = s.pwr.tripped := by
  unfold State.runSteward
  refine ⟨State.logStart_running _, ?_⟩
  rw [State.logStart_start]
  exact ⟨rfl, rfl, rfl⟩

/-! ### PWR_EN and VIN48 (R545, R668, R671 to R673) -/

/-- PWR_EN is asserted and VIN48 awaited. -/
def State.awaitVin (s : State) : State := { s with start := { s.start with phase := .waitVin, pwrEn := true, attempts := 0 } }

section Supply
variable {s : State} {fuse : Bool}

theorem exec_pwrEnAssert_of_aux (hphase : s.start.phase = .aux) (hrun : s.stw.running = true) (htripped : s.pwr.tripped = false) :
    exec (.pwrEnAssert fuse) s = .next (s.resumeErase fuse).awaitVin :=
  congrArg Host.Outcome.next (if_neg (by rw [hphase, hrun, htripped]; simp))

theorem exec_pwrEnAssert_of_hot (htripped : s.pwr.tripped = true) (hhot : s.cooled = false) : exec (.pwrEnAssert fuse) s = .next s :=
  congrArg Host.Outcome.next (if_pos (.inr (.inr (by rw [htripped, hhot]; rfl))))

theorem exec_pwrEnAssert_of_phase (hphase : s.start.phase ≠ .aux) : exec (.pwrEnAssert fuse) s = .next s :=
  congrArg Host.Outcome.next (if_pos (.inl hphase))

theorem State.resumeErase_of_not_due (hdue : s.sec.eraseDue = false) : s.resumeErase fuse = s := if_pos (by rw [hdue]; rfl)

theorem State.resumeErase_of_due (hdue : s.sec.eraseDue = true) : s.resumeErase fuse =
    if fuse then ({ s with start := { s.start with fuseFailed := true } } : State).event 0x0803 else s.killKeys.dropKeys :=
  if_neg (by rw [hdue]; decide)

theorem exec_vin48Good_of_wait {refA refB : Bool} {failed : List CorePos} {cores : List Nat} (hen : s.start.pwrEn = true)
    (hphase : s.start.phase = .waitVin) : exec (.vin48Good refA refB failed cores) s = .next ((({ s with
      start := { s.start with vin48 := true, railsUp := true, phase := .dram } } : State).lockPlls refA refB).selfTests failed cores) :=
  (if_neg (by rw [hen]; decide)).trans (if_pos hphase)

theorem exec_vin48Good_of_deasserted {refA refB : Bool} {failed : List CorePos} {cores : List Nat} (hen : s.start.pwrEn = false) :
    exec (.vin48Good refA refB failed cores) s = .fault .supplyOutOfOrder := if_pos (by rw [hen]; rfl)

theorem exec_vin48StartTimeout_of_wait (hphase : s.start.phase = .waitVin) : exec .vin48StartTimeout s = .next (({ s with
    start := { s.start with
      phase := if s.start.attempts < 3 then .waitRetry else .gaveUp, pwrEn := false, vin48 := false
      attempts := s.start.attempts + 1 } } : State).event 0x0705) :=
  congrArg Host.Outcome.next (if_neg (not_not_intro hphase))

theorem exec_vin48Retry_of_wait (hphase : s.start.phase = .waitRetry) :
    exec .vin48Retry s = .next { s with start := { s.start with phase := .waitVin, pwrEn := true } } :=
  congrArg Host.Outcome.next (if_neg (not_not_intro hphase))

/-- VIN48 lost while the module is not held in reset: the engine is lost, and the Steward starts its log again. -/
theorem exec_vin48Lost_of_rails (hrails : s.start.railsUp = true) (hphase : s.start.phase ≠ .held) :
    ∃ u : State, exec .vin48Lost s = .next u.countBoot.logStart ∧ u.start.phase = .aux ∧ u.start.pwrEn = false ∧ u.start.railsUp = false ∧
      u.start.cause = 3 ∧ u.stw.running = s.stw.running ∧ u.parts = [] ∧ u.cores = [] ∧ u.sec.fuses = s.sec.fuses := by
  have hheld : (s.loseEngine false).start.phase ≠ .held := by rwa [State.loseEngine_start]
  exact ⟨_, congrArg Host.Outcome.next ((if_neg (by rw [hrails]; decide)).trans (if_neg hheld)), if_neg hheld, rfl, rfl, rfl,
    s.loseEngine_running false, rfl, rfl, s.loseEngine_fuses false⟩

end Supply

/-- Settles O53: each supply event takes one branch of the boot. -/
theorem supplyAndBootResults : Obligations.SupplyAndBootResults := by
  refine fun s spi a b fuse failed cores => ⟨exec_v3p3AuxGood_of_good, exec_v3p3AuxGood_of_lost, exec_v3p3AuxLost_of_lost,
    exec_v3p3AuxLost_of_good, fun hphase => congrArg Host.Outcome.next (if_pos hphase), ⟨fun hboot => if_pos hboot,
      State.bootSteward_of_other, State.bootSteward_of_spi, State.bootSteward_of_none⟩, s.runSteward_facts .aux a,
    fun hphase hrun htripped => ⟨fun hdue => ?_, fun hdue => ⟨?_, ?_⟩⟩, exec_pwrEnAssert_of_hot, exec_pwrEnAssert_of_phase,
    exec_vin48Good_of_wait, exec_vin48Good_of_deasserted, exec_vin48StartTimeout_of_wait, exec_vin48Retry_of_wait,
    fun hrails hrun hready => ?_⟩
  · rw [exec_pwrEnAssert_of_aux hphase hrun htripped, State.resumeErase_of_not_due hdue]
    rfl
  · rw [exec_pwrEnAssert_of_aux hphase hrun htripped, State.resumeErase_of_due hdue]
    rfl
  · rw [exec_pwrEnAssert_of_aux hphase hrun htripped, State.resumeErase_of_due hdue]
    rfl
  · obtain ⟨u, hexec, hphase, hen, hdown, hcause, hrunning, hparts, hcores, hfuses⟩ :=
      exec_vin48Lost_of_rails hrails (by rw [hready]; decide)
    refine ⟨_, hexec, ?_⟩
    rw [State.logStart_start, State.logStart_running, State.logStart_parts, State.logStart_cores, State.logStart_sec]
    exact ⟨hphase, hen, hdown, hcause, hrunning.trans hrun, hparts, hcores, hfuses⟩

end Sys2Proof.Machine
end

section
/-! SUPPORT. Which event resets what (R632 to R634, R680 to R684, R689). -/

namespace Sys2Proof.Machine

/-! ### What a cold and a warm reset keep and lose (R681) -/

section Lose
variable (s : State) (warm : Bool)

theorem State.lose_sec_kept : (s.lose warm).sec.lastAuthSeq = s.sec.lastAuthSeq ∧ (s.lose warm).sec.erasePending = s.sec.erasePending ∧
    (s.lose warm).sec.eraseDue = s.sec.eraseDue := by
  have hsec : (s.lose warm).sec = _ := s.loseEngine_sec warm
  rw [hsec]
  exact ⟨rfl, rfl, rfl⟩

theorem State.lose_sec_dropped : (s.lose warm).sec.sessions = [] ∧ (s.lose warm).sec.ide = [] ∧
    (s.lose warm).sec.debugSession = none ∧ (s.lose warm).sec.challenge = none := ⟨rfl, rfl, rfl, rfl⟩

theorem State.lose_trip : (s.lose warm).pwr.tripped = s.pwr.tripped ∧ (s.lose warm).pwr.tripSensor = s.pwr.tripSensor := by
  rw [State.lose_pwr]
  exact s.pwr.cutOff_trip

theorem State.lose_bins (hoff : s.pwr.sol.state = .off) : (s.lose warm).pwr.bins = s.pwr.bins := by
  rw [State.lose_pwr]
  exact PwrState.restart_bins hoff

theorem State.lose_warm : (s.lose true).stw.ring = s.stw.ring ∧ (s.lose true).tb.now = s.tb.now ∧
    (s.lose true).clk.clkout0 = s.clk.clkout0 ∧ (s.lose true).clk.clkout1 = s.clk.clkout1 ∧
    (s.lose true).tb.ctrlEn = s.tb.ctrlEn ∧ (s.lose true).tb.periodMs = s.tb.periodMs := by
  have htb : (s.lose true).tb = _ := s.loseEngine_tb true
  rw [State.lose_stw, htb]
  exact ⟨rfl, rfl, s.loseEngine_clkout0, s.loseEngine_clkout1, rfl, rfl⟩

theorem State.lose_cold : (s.lose false).stw.ring = [] ∧ (s.lose false).mem.dram = [] ∧ (s.lose false).clk = ClkState.reset ∧
    (s.lose false).tb.ctrlEn = false := ⟨rfl, rfl, rfl, rfl⟩

theorem State.lose_slots (k : Nat) : ((s.lose warm).fwKind k).slotA = (s.fwKind k).slotA ∧
    ((s.lose warm).fwKind k).slotB = (s.fwKind k).slotB ∧ ((s.lose warm).fwKind k).phase ≠ .trial := by
  rw [State.lose_fwKind]
  exact (s.fwKind k).revert_slots

end Lose

/-! ### SYS_RESET_N and PCIE_PERST_N (R680, R682) -/

section Pins
variable {s : State} {us : Nat}

theorem exec_sysResetNAssert_of_high (hhigh : s.start.sysResetLow = false) (haux : s.start.auxGood = true) (hphase : s.start.phase ≠ .tripped) :
    exec .sysResetNAssert s = .next ({ s with start := { s.start with sysResetLow := true } } : State).assertReset :=
  congrArg Host.Outcome.next ((if_neg (by rw [hhigh]; decide)).trans (if_neg (by rw [haux]; simpa using hphase)))

theorem exec_sysResetNAssert_of_tripped (hhigh : s.start.sysResetLow = false) (hphase : s.start.phase = .tripped) :
    exec .sysResetNAssert s = .next { s with start := { s.start with sysResetLow := true } } :=
  congrArg Host.Outcome.next ((if_neg (by rw [hhigh]; decide)).trans (if_pos (.inr hphase)))

theorem exec_sysResetNRelease_of_short (hus : us < 10) :
    exec (.sysResetNRelease us) s = .next { s with start := { s.start with sysResetLow := false } } :=
  congrArg Host.Outcome.next (if_pos (.inl hus))

section Long
variable (haux : s.start.auxGood = true)
include haux

theorem exec_sysResetNRelease_of_warm (hphase : s.start.phase = .held) (hlow : 10 ≤ us) (hhigh : us < 1000000) :
    exec (.sysResetNRelease us) s = .next { s with start := { s.start with sysResetLow := false, pendingReset := some (false, 4) } } := by
  refine congrArg Host.Outcome.next ((if_neg (by rw [haux]; simpa using hlow)).trans ((if_neg (Nat.not_le.mpr hhigh)).trans
    ((if_neg (by rw [hphase]; decide)).trans ?_)))
  rw [if_pos hphase]

theorem exec_sysResetNRelease_of_cold (hphase : s.start.phase = .held ∨ s.start.phase = .tripped) (hlong : 1000000 ≤ us) :
    exec (.sysResetNRelease us) s = .next { s with start := { s.start with sysResetLow := false, pendingReset := some (true, 1) } } := by
  have hus : ¬us < 10 := Nat.not_lt.mpr (Nat.le_trans (by decide) hlong)
  refine congrArg Host.Outcome.next ((if_neg (by rw [haux]; simpa using hus)).trans ((if_pos hlong).trans ?_))
  rw [if_pos hphase.symm]

end Long

theorem exec_sysResetNRelease_of_tripped (hphase : s.start.phase = .tripped) (hshort : us < 1000000) :
    exec (.sysResetNRelease us) s = .next { s with start := { s.start with sysResetLow := false } } := by
  by_cases hshorter : us < 10 ∨ (!s.start.auxGood) = true
  · exact congrArg Host.Outcome.next (if_pos hshorter)
  · exact congrArg Host.Outcome.next ((if_neg hshorter).trans ((if_neg (Nat.not_le.mpr hshort)).trans (if_pos hphase)))

theorem State.assertReset_facts (s : State) : s.assertReset.start.phase = .held ∧ s.assertReset.parts = [] ∧
    s.assertReset.start.pwrEn = s.start.pwrEn ∧ s.assertReset.start.railsUp = s.start.railsUp ∧ s.assertReset.stw.running = false :=
  ⟨rfl, rfl, (congrArg StartState.pwrEn (s.lose_start true) :), (congrArg StartState.railsUp (s.lose_start true) :), rfl⟩

theorem exec_pciePerstNFall_of_ready (hperst : s.start.perstHigh = true) (hphase : s.start.phase = .ready) : ∃ t : State,
    exec .pciePerstNFall s = .next t ∧ t.start.pendingReset = some (false, 5) ∧ t.start.phase = .held ∧ t.start.perstHigh = false ∧
      t.start.perstWait = true ∧ t.host.linkUp = false ∧ t.parts = [] :=
  ⟨_, congrArg Host.Outcome.next (if_pos ⟨hperst, hphase⟩), rfl, rfl, (congrArg StartState.perstHigh (State.lose_start _ true) :), rfl, rfl, rfl⟩

theorem exec_pciePerstNFall_of_held (hperst : s.start.perstHigh = true) (hphase : s.start.phase = .held) : exec .pciePerstNFall s =
    .next { s with
      start := { s.start with perstHigh := false, perstWait := true }, host := { s.host with linkUp := false, linkWidth := 0 } } := by
  refine congrArg Host.Outcome.next ((if_neg ?_).trans (if_pos ⟨hperst, hphase⟩))
  rw [hphase]
  simp

theorem exec_pciePerstNFall_of_idle (hidle : s.start.phase ≠ .ready ∧ s.start.phase ≠ .held ∨ s.start.perstHigh = false) :
    exec .pciePerstNFall s = .next { s with
      start := { s.start with perstHigh := false }, host := { s.host with linkUp := false, linkWidth := 0 } } := by
  refine congrArg Host.Outcome.next ((if_neg ?_).trans (if_neg ?_))
  · rintro ⟨hperst, hphase⟩
    simp [hperst, hphase] at hidle
  · rintro ⟨hperst, hphase⟩
    simp [hperst, hphase] at hidle

end Pins

/-! ### WARM_RESET and COLD_RESET (R681, R682) -/

section Pending
variable {s : State} {spi : List Byte} {dt : Nat} {refA refB fuse : Bool} {failed : List CorePos} {cores : List Nat}

theorem exec_warmReset_of_none (hpending : s.start.pendingReset = none) : exec (.warmReset spi dt refA refB failed cores fuse) s = .next s := by
  show execWarmReset spi dt refA refB failed cores fuse s = _
  unfold execWarmReset
  rw [hpending]

theorem exec_coldReset_of_none (hpending : s.start.pendingReset = none) : exec (.coldReset spi) s = .next s := by
  show execColdReset spi s = _
  unfold execColdReset
  rw [hpending]

theorem exec_warmReset_of_perstWait (hwait : s.start.perstWait = true) : exec (.warmReset spi dt refA refB failed cores fuse) s = .next s := by
  refine congrArg Host.Outcome.next ?_
  split
  · exact if_pos (.inr (.inr hwait))
  · rfl

section Begun
variable {cause : Nat} (haux : s.start.auxGood = true) (hhigh : s.start.sysResetLow = false)
include haux hhigh

theorem exec_warmReset_of_pending (hpending : s.start.pendingReset = some (false, cause)) (hwait : s.start.perstWait = false)
    (hphase : (({ (s.tick dt).lose true with start := ((s.tick dt).lose true).start.again true cause } : State).bootSteward spi).start.phase = .aux)
    (hrails : (({ (s.tick dt).lose true with start := ((s.tick dt).lose true).start.again true cause } : State).bootSteward spi).start.railsUp = true) :
    exec (.warmReset spi dt refA refB failed cores fuse) s = .next
      (((({ (s.tick dt).lose true with start := ((s.tick dt).lose true).start.again true cause } : State).bootSteward spi).resumeErase fuse).bringUp
        refA refB failed cores) := by
  show execWarmReset spi dt refA refB failed cores fuse s = _
  unfold execWarmReset
  rw [hpending]
  exact congrArg Host.Outcome.next ((if_neg (by rw [haux, hhigh, hwait]; decide)).trans ((if_neg (not_not_intro hphase)).trans (if_pos hrails)))

theorem exec_coldReset_of_pending (hpending : s.start.pendingReset = some (true, cause)) : ∃ t : State,
    exec (.coldReset spi) s = .next (t.bootSteward spi) ∧ t.start.pwrEn = false ∧ t.start.railsUp = false ∧ t.start.cause = cause ∧
      t.start.pendingReset = none ∧ t.pwr.thermtripLow = false ∧ t.pwr.tripped = s.pwr.tripped ∧ t.parts = [] ∧
      t.stw.bootCount = s.stw.bootCount + 1 := by
  show ∃ t : State, execColdReset spi s = .next (t.bootSteward spi) ∧ _
  unfold execColdReset
  rw [hpending]
  exact ⟨_, congrArg Host.Outcome.next (if_neg (by rw [haux, hhigh]; decide)), rfl, rfl, rfl, rfl, rfl, (s.lose_trip false).1, rfl,
    congrArg (· + 1) (s.lose_bootCount false)⟩

end Begun
end Pending

/-! ### The trip comparators (R632 to R634) -/

@[simp] theorem State.record_blocks (s : State) (e : EventRec) : (s.record e).blocks = s.blocks := by
  obtain ⟨_, _, hrecord⟩ := s.record_eq e
  rw [hrecord]

section Trip
variable {s : State} {sensor : Nat}

theorem exec_tripComparator_of_none (hvalue : tripValue sensor = none) : exec (.tripComparator sensor) s = .next s :=
  congrArg Host.Outcome.next (if_pos (.inr (.inl (by rw [hvalue]; rfl))))

theorem exec_tripComparator_of_trip (haux : s.start.auxGood = true) (hvalue : (tripValue sensor).isSome = true)
    (hphase : s.start.phase ≠ .tripped) : ∃ t : State, exec (.tripComparator sensor) s = .next t ∧ t.start.phase = .tripped ∧
      t.start.pwrEn = false ∧ t.start.railsUp = false ∧ t.pwr.tripped = true ∧ t.pwr.thermtripLow = true ∧
      (s.pwr.tripped = false → t.pwr.tripSensor = BitVec.ofNat 16 sensor) ∧ t.parts = [] ∧ t.blocks = [] ∧ t.cores = [] := by
  have hlive : ¬((!s.start.auxGood) = true ∨ (tripValue sensor).isNone = true ∨ s.start.phase = .tripped) := by
    rw [haux, Option.isNone_eq_false_iff.mpr hvalue]
    simpa using hphase
  refine ⟨_, congrArg Host.Outcome.next (if_neg hlive), ?_⟩
  have htrip : (s.loseEngine false).pwr.tripped = s.pwr.tripped := (s.lose_trip false).1
  simp only [State.record_start, State.record_pwr, State.record_parts, State.record_blocks, State.record_cores, true_and]
  refine ⟨fun hfirst => if_neg ?_, rfl, rfl, rfl⟩
  rw [htrip, hfirst]
  decide

end Trip

/-! ### OP_RESET (R684, R689) -/

theorem exec_opReset_of_atPoint {s : State} {c : CmdRef} {k : Cmd} (h : AtPoint s c k 0x0707) :
    exec (.opReset c) s = .next (s.unlessLost c (s.opReset c k (k.home c)).settle) :=
  congrArg Host.Outcome.next (State.gate_of_atPoint h rfl fun t k p _ => t.opReset c k p)

section OpReset
variable {s : State} {c : CmdRef} {k : Cmd} {p : Nat}

theorem State.opReset_of_reserved (hlevel : 4 ≤ k.p 0 4) : s.opReset c k p = s.endCmd c (Fin.with stHeaderInvalid 0x16) := if_pos hlevel

theorem State.opReset_cold (hlevel : k.p 0 4 = 0) : s.opReset c k p = { s.endCmd c Fin.ok with
    start := { (s.endCmd c Fin.ok).start with pendingReset := some (true, 2) } } := by
  simp [State.opReset, hlevel]

theorem State.opReset_warm (hlevel : k.p 0 4 = 1) : s.opReset c k p = { s.endCmd c Fin.ok with
    start := { (s.endCmd c Fin.ok).start with pendingReset := some (false, 6) } } := by
  simp [State.opReset, hlevel]

theorem State.opReset_steward (hlevel : k.p 0 4 = 3) : s.opReset c k p = (s.startCmd c).stewardReset 1 := by
  simp [State.opReset, hlevel]

theorem State.opReset_partition (hlevel : k.p 0 4 = 2) : s.opReset c k p = ((s.startCmd c).resetPart p).endCmd c { Fin.ok with
    c0 := ((s.partCmds p).filter (fun r => !s.cmdDone r)).length } := by
  simp [State.opReset, hlevel]

end OpReset

/-- Settles O55: what a reset keeps, and which event resets what. -/
theorem resetResults : Obligations.ResetResults := by
  refine ⟨fun s warm => ⟨s.lose_fuses warm, (s.lose_sec_kept warm).1, (s.lose_sec_kept warm).2.1, (s.lose_sec_kept warm).2.2,
      (congrArg Steward.log (s.lose_stw warm) :), (congrArg Steward.seqBound (s.lose_stw warm) :), s.loseEngine_engineId warm,
      (s.lose_trip warm).1, (s.lose_trip warm).2, s.lose_bins warm, rfl, rfl, rfl, rfl, rfl, rfl, rfl, rfl, rfl, rfl,
      s.loseEngine_stores warm, s.loseEngine_retired warm, fun _ => s.loseEngine_port warm, fun h => ?_, fun h => ?_, s.lose_slots warm⟩,
    fun s us sensor spi dt a b fuse failed cores => ⟨exec_sysResetNAssert_of_high, exec_sysResetNAssert_of_tripped,
      exec_sysResetNRelease_of_short, fun hphase hlow hhigh haux => exec_sysResetNRelease_of_warm haux hphase hlow hhigh,
      fun hphase hlong haux => exec_sysResetNRelease_of_cold haux hphase hlong, exec_sysResetNRelease_of_tripped,
      exec_pciePerstNFall_of_ready, exec_pciePerstNFall_of_held, exec_pciePerstNFall_of_idle, rfl, s.assertReset_facts,
      fun hpending => ⟨exec_warmReset_of_none hpending, exec_coldReset_of_none hpending⟩,
      fun _ hpending haux hhigh hwait => exec_warmReset_of_pending haux hhigh hpending hwait, exec_warmReset_of_perstWait,
      fun _ hpending haux hhigh => exec_coldReset_of_pending haux hhigh hpending, exec_tripComparator_of_trip, exec_tripComparator_of_none,
      fun c k h => ?_⟩⟩
  · rw [h]
    exact s.lose_warm
  · rw [h]
    exact s.lose_cold
  · rw [exec_opReset_of_atPoint h]
    exact ⟨fun hlevel => by rw [State.opReset_of_reserved hlevel], fun hlevel => by rw [State.opReset_cold hlevel],
      fun hlevel => by rw [State.opReset_warm hlevel], fun hlevel => by rw [State.opReset_steward hlevel],
      fun hlevel => by rw [State.opReset_partition hlevel]⟩

end Sys2Proof.Machine
end

section
/-! SUPPORT. What every step keeps: fuses, the numbering of events and the invariant, along the parts of a step (R534, R543, R544, R579). -/

namespace Sys2Proof.Machine

/-! ### The relation between the states before and after a part of a step -/

theorem FusesKept.refl (s : State) : FusesKept s s := ⟨fun _ _ => id, fun _ _ => id, id, fun _ _ => id, le_rfl, le_rfl, le_rfl⟩

theorem FusesKept.of_eq {s t : State} (e : t.sec.fuses = s.sec.fuses) : FusesKept s t := by
  obtain ⟨hlc, hrevoke, hmedia, howner, hsvn⟩ := FusesKept.refl s
  exact ⟨by rwa [e], by rwa [e], by rwa [e], by rwa [e], by rwa [e]⟩

theorem FusesKept.trans {s t u : State} (h : FusesKept s t) (k : FusesKept t u) : FusesKept s u where
  lc i hi := k.lc i hi ∘ h.lc i hi
  revoke i hi := k.revoke i hi ∘ h.revoke i hi
  media := k.media ∘ h.media
  owner i x := k.owner i x ∘ h.owner i x
  svn := ⟨h.svn.1.trans k.svn.1, h.svn.2.1.trans k.svn.2.1, h.svn.2.2.trans k.svn.2.2⟩

/-- No fuse is cleared, no event number within the bound falls or leaves it, and a good state stays good. -/
structure Keeps (s t : State) : Prop where
  fuses : FusesKept s t
  seq : s.stw.nextSeq ≤ s.stw.seqBound → s.stw.nextSeq ≤ t.stw.nextSeq ∧ t.stw.nextSeq ≤ t.stw.seqBound
  good : GoodState s → GoodState t

/-- What the invariants speak of. -/
def State.kept (s : State) : Fuses × Bool × Nat × Nat × SMap Nat :=
  (s.sec.fuses, s.sec.eraseDue, s.stw.nextSeq, s.stw.seqBound, s.pwr.steps)

namespace Keeps

theorem refl (s : State) : Keeps s s := ⟨FusesKept.refl s, fun h => ⟨le_rfl, h⟩, id⟩

section
variable {s t u : State} {α β γ : Type}

theorem trans (h : Keeps s t) (k : Keeps t u) : Keeps s u where
  fuses := h.fuses.trans k.fuses
  seq hs := ⟨(h.seq hs).1.trans (k.seq (h.seq hs).2).1, (k.seq (h.seq hs).2).2⟩
  good := k.good ∘ h.good

/-- A change of anything else keeps them. -/
theorem frame (h : Keeps s t) (e : u.kept = t.kept) : Keeps s u := by
  simp only [State.kept, Prod.mk.injEq] at e
  obtain ⟨hf, hd, hn, hb, hp⟩ := e
  have hlc : u.lcState = t.lcState := by rw [State.lcState, State.lcState, hf]
  refine h.trans ⟨⟨?_, ?_, ?_, ?_, ?_⟩, ?_, fun g => ⟨?_, ?_, ?_, ?_, ?_⟩⟩
  all_goals simp only [hf, hd, hn, hb, hp, hlc]
  · exact fun _ _ => id
  · exact fun _ _ => id
  · exact id
  · exact fun _ _ => id
  · exact ⟨le_rfl, le_rfl, le_rfl⟩
  · exact fun hs => ⟨le_rfl, hs⟩
  · exact g.lcNoGap
  · exact g.killedLate
  · exact g.dueLate
  · exact g.seqBound
  · exact g.stepsRise

theorem ite {p : Prop} [Decidable p] (h : Keeps s t) (k : Keeps s u) : Keeps s (if p then t else u) := by
  split
  · exact h
  · exact k

theorem foldl {f : State → α → State} {l : List α} (hf : ∀ u x, Keeps s u → Keeps s (f u x)) (h : Keeps s t) : Keeps s (l.foldl f t) := by
  induction l generalizing t with
  | nil => exact h
  | cons x l ih => exact ih (hf t x h)

/-- A fold over a state and what it collects on the way. -/
theorem foldlOn {g : β → State} {f : β → α → β} {l : List α} {b : β} (hf : ∀ b x, Keeps s (g b) → Keeps s (g (f b x)))
    (h : Keeps s (g b)) : Keeps s (g (l.foldl f b)) := by
  induction l generalizing b with
  | nil => exact h
  | cons x l ih => exact ih (hf b x h)

theorem bind {o : Option α} {f : α → Option β} {g : α → State} {k : β → State} (ho : ∀ a ∈ o, Keeps s (g a))
    (hf : ∀ a, Keeps s (g a) → ∀ b ∈ f a, Keeps s (k b)) : ∀ b ∈ o.bind f, Keeps s (k b) := fun b hb => by
  obtain ⟨a, ha, hab⟩ := Option.mem_bind_iff.mp hb
  exact hf a (ho a ha) b hab

theorem map {o : Option α} {f : α → β} {g : α → State} {k : β → State} (ho : ∀ a ∈ o, Keeps s (g a))
    (hf : ∀ a, Keeps s (g a) → Keeps s (k (f a))) : ∀ b ∈ o.map f, Keeps s (k b) := fun b hb => by
  obtain ⟨a, ha, rfl⟩ := Option.mem_map.mp hb
  exact hf a (ho a ha)

/-- A part of a step under a lookup. -/
theorem under {o : Option α} {f : α → Option β} {k : β → State} (hf : ∀ a, ∀ b ∈ f a, Keeps s (k b)) : ∀ b ∈ o.bind f, Keeps s (k b) :=
  fun b hb => by
    obtain ⟨a, -, hab⟩ := Option.mem_bind_iff.mp hb
    exact hf a b hab

theorem underMap {o : Option α} {f : α → β} {k : β → State} (hf : ∀ a, Keeps s (k (f a))) : ∀ b ∈ o.map f, Keeps s (k b) :=
  fun b hb => by
    obtain ⟨a, -, rfl⟩ := Option.mem_map.mp hb
    exact hf a

/-- Where a part of a step has no result there is nothing to keep. -/
theorem nothing (f : α → State) : ∀ a ∈ (Option.none : Option α), Keeps s (f a) := nofun

theorem just {f : α → State} {a : α} (h : Keeps s (f a)) : ∀ b ∈ Option.some a, Keeps s (f b) := by
  rintro b ⟨⟩
  exact h

theorem foldlM {g : β → State} {f : β → α → Option β} {l : List α} {b : β} (hf : ∀ b x, Keeps s (g b) → ∀ c ∈ f b x, Keeps s (g c))
    (h : Keeps s (g b)) : ∀ c ∈ l.foldlM f b, Keeps s (g c) := by
  induction l generalizing b with
  | nil => exact just h
  | cons x l ih => exact bind (hf b x h) fun c hc => ih hc

theorem of {o : Option State} (h : ∀ x ∈ o, Keeps s x) (e : o = Option.some u := by with_reducible assumption) : Keeps s u := h _ e

theorem ofSnd {o : Option (α × State)} {a : α} (h : ∀ x ∈ o, Keeps s x.2) (e : o = Option.some (a, u) := by with_reducible assumption) : Keeps s u := h _ e

theorem ofFst {o : Option (State × α)} {a : α} (h : ∀ x ∈ o, Keeps s x.1) (e : o = Option.some (u, a) := by with_reducible assumption) : Keeps s u := h _ e

theorem ofSnd2 {o : Option (α × β × State)} {a : α} {b : β} (h : ∀ x ∈ o, Keeps s x.2.2) (e : o = Option.some (a, b, u) := by with_reducible assumption) : Keeps s u := h _ e

theorem fst {p : State × α} {a : α} (h : Keeps s p.1) (e : p = (u, a) := by with_reducible assumption) : Keeps s u := by rwa [e] at h

theorem fst2 {p : State × α × β} {a : α} {b : β} (h : Keeps s p.1) (e : p = (u, a, b) := by with_reducible assumption) : Keeps s u := by rwa [e] at h

theorem snd {p : α × State} {a : α} (h : Keeps s p.2) (e : p = (a, u) := by with_reducible assumption) : Keeps s u := by rwa [e] at h

theorem snd2 {p : α × β × State} {a : α} {b : β} (h : Keeps s p.2.2) (e : p = (a, b, u) := by with_reducible assumption) : Keeps s u := by rwa [e] at h

end
end Keeps

/-! ### Changes that keep them -/

/-- A change beside what the invariants speak of. Its fields are named one by one, so that the state before it is read off the change. -/
theorem Keeps.beside {s : State}
  {start start' : StartState} {host host' : HostRegs} {blocks blocks' : SMap QBlock} {mem mem' : MemState}
  {parts parts' : SMap (Option Partition)} {cores cores' : SMap Core} {dies dies' : SMap Die} {hub hub' : HubState}
  {flash flash' : FlashState} {span span' : SpanState} {cap cap' : CapState} {sec sec' : SecState} {stw stw' : Steward}
  {fw fw' : FwState} {clk clk' : ClkState} {pwr pwr' : PwrState} {mgmt mgmt' : MgmtState} {tb tb' : TimeState} {freeCtr freeCtr' : Nat}
  {pending pending' : List Instr}
    (h : Keeps s ⟨start, host, blocks, mem, parts, cores, dies, hub, flash, span, cap, sec, stw, fw, clk, pwr, mgmt, tb, freeCtr, pending⟩)
    (hf : sec'.fuses = sec.fuses := by rfl) (hd : sec'.eraseDue = sec.eraseDue := by rfl) (hn : stw'.nextSeq = stw.nextSeq := by rfl)
    (hb : stw'.seqBound = stw.seqBound := by rfl) (hp : pwr'.steps = pwr.steps := by rfl) :
    Keeps s ⟨start', host', blocks', mem', parts', cores', dies', hub', flash', span', cap', sec', stw', fw', clk', pwr', mgmt', tb', freeCtr', pending'⟩ :=
  h.frame (by simp only [State.kept, hf, hd, hn, hb, hp])

/-- A state that keeps the fuses, the erasure that is due and the numbering, and whose throttle map is in rising order. -/
theorem Keeps.restart {s t u : State} (h : Keeps s t) (hf : u.sec.fuses = t.sec.fuses) (hd : u.sec.eraseDue = t.sec.eraseDue)
    (hn : u.stw.nextSeq = t.stw.nextSeq) (hb : u.stw.seqBound = t.stw.seqBound) (hp : SMap.risingFrom 0 u.pwr.steps = true) : Keeps s u := by
  have hlc : u.lcState = t.lcState := by rw [State.lcState, State.lcState, hf]
  refine h.trans ⟨FusesKept.of_eq hf, fun hs => ?_, fun g => ⟨?_, ?_, ?_, ?_, hp⟩⟩
  all_goals simp only [hf, hd, hn, hb, hlc]
  · exact ⟨le_rfl, hs⟩
  · exact g.lcNoGap
  · exact g.killedLate
  · exact g.dueLate
  · exact g.seqBound

section Change
variable {s t : State} (h : Keeps s t)
include h

/-- The numbering of events goes on within its bound. -/
theorem Keeps.number {v : Steward}
    (hv : t.stw.nextSeq ≤ t.stw.seqBound → t.stw.nextSeq ≤ v.nextSeq ∧ v.nextSeq ≤ v.seqBound) : Keeps s { t with stw := v } :=
  h.trans {
    fuses := FusesKept.of_eq rfl
    seq := hv
    good := fun g => { g with seqBound := (hv g.seqBound).2 } }

/-- The throttle map changes and stays in rising order. -/
theorem Keeps.throttle {v : PwrState} (hv : SMap.risingFrom 0 t.pwr.steps = true → SMap.risingFrom 0 v.steps = true) :
    Keeps s { t with pwr := v } :=
  h.trans {
    fuses := FusesKept.of_eq rfl
    seq := fun hs => ⟨le_rfl, hs⟩
    good := fun g => { g with stepsRise := hv g.stepsRise } }

/-- The fuses change: none is cleared, the life-cycle bits stay without a gap, and the media root dies, or an erasure falls due, only
after FIELD. -/
theorem Keeps.fuse {v : SecState} (hk : FusesKept t { t with sec := v }) (hlc : t.lcState ≤ lcCode v.fuses.lc)
    (hgap : GoodState t → ∀ i, i < 3 → v.fuses.lc.getLsbD (i + 1) = true → v.fuses.lc.getLsbD i = true)
    (hkill : GoodState t → v.fuses.mediaKill = true → t.sec.fuses.mediaKill = true ∨ 4 ≤ lcCode v.fuses.lc)
    (hdue : GoodState t → v.eraseDue = true → t.sec.eraseDue = true ∨ 4 ≤ lcCode v.fuses.lc) : Keeps s { t with sec := v } :=
  h.trans {
    fuses := hk
    seq := fun hs => ⟨le_rfl, hs⟩
    good := fun g => {
      lcNoGap := hgap g
      killedLate := fun hm => (hkill g hm).elim (fun ht => (g.killedLate ht).trans hlc) id
      dueLate := fun hd => (hdue g hd).elim (fun ht => (g.dueLate ht).trans hlc) id
      seqBound := g.seqBound
      stepsRise := g.stepsRise } }

end Change

/-! ### Events, throttle steps and fuses -/

section Primitive
variable {s t : State} (h : Keeps s t)
include h

/-- An event takes the next number, and a bound that is reached rises (R579). -/
theorem Keeps.enterEvent {e} : Keeps s (t.enterEvent e) := by
  unfold State.enterEvent
  dsimp only
  have hnumber : t.stw.nextSeq ≤ t.stw.seqBound → t.stw.nextSeq ≤ t.stw.nextSeq + 1 ∧
      t.stw.nextSeq + 1 ≤ if t.stw.nextSeq = t.stw.seqBound then t.stw.seqBound + 65536 else t.stw.seqBound := by
    intro hs
    split <;> omega
  exact .ite (h.number hnumber).beside (h.number hnumber)

theorem Keeps.seqRestart : Keeps s t.seqRestart := h.number fun hs => ⟨by dsimp only; omega, by dsimp only; omega⟩

theorem Keeps.updSteps {d f} : Keeps s (t.updSteps d f) := h.throttle (SMap.risingFrom_set 0 d _)

/-- A security version only rises (R587). -/
theorem Keeps.blowSvn {kind v} : Keeps s (t.blowSvn kind v) := by
  have rises {fs : Fuses} (hlc : fs.lc = t.sec.fuses.lc) (hrevoke : fs.ownerRevoke = t.sec.fuses.ownerRevoke)
      (hmedia : fs.mediaKill = t.sec.fuses.mediaKill) (howner : fs.owner = t.sec.fuses.owner)
      (hsvn : t.sec.fuses.svnSteward ≤ fs.svnSteward ∧ t.sec.fuses.svnConductor ≤ fs.svnConductor ∧ t.sec.fuses.svnMarshal ≤ fs.svnMarshal) :
      Keeps s { t with sec := { t.sec with fuses := fs } } := by
    refine h.fuse ⟨?_, ?_, ?_, ?_, hsvn⟩ ?_ (fun g => ?_) (fun g => ?_) (fun g => .inl)
    all_goals simp only [hlc, hrevoke, hmedia, howner]
    · exact fun _ _ => id
    · exact fun _ _ => id
    · exact id
    · exact fun _ _ => id
    · exact le_rfl
    · exact g.lcNoGap
    · exact .inl
  unfold State.blowSvn
  dsimp only
  split_ifs
  · exact rises rfl rfl rfl rfl ⟨le_max_left _ _, le_rfl, le_rfl⟩
  · exact rises rfl rfl rfl rfl ⟨le_rfl, le_max_left _ _, le_rfl⟩
  · exact rises rfl rfl rfl rfl ⟨le_rfl, le_rfl, le_max_left _ _⟩

/-- The keys die after FIELD only (R544). -/
theorem Keeps.killKeys (hlate : GoodState t → 4 ≤ t.lcState) : Keeps s t.killKeys :=
  h.fuse ⟨fun _ _ => id, fun i hi _ => (by decide : ∀ i, i < 4 → (0xF#4).getLsbD i = true) i hi, fun _ => rfl, fun _ _ => id, le_rfl, le_rfl, le_rfl⟩
    le_rfl (fun g => g.lcNoGap) (fun g _ => .inr (hlate g)) (fun _ => .inl)

/-- An erasure stops, and is due, after FIELD only (R545). -/
theorem Keeps.stopErase {n} (hlate : GoodState t → 4 ≤ t.lcState) : Keeps s (t.stopErase n) :=
  h.fuse ⟨fun _ _ => id, fun i _ hr => by simp only [BitVec.getLsbD_or, hr, Bool.true_or],
    fun hm => by simp only [hm, Bool.true_or], fun _ _ => id, le_rfl, le_rfl, le_rfl⟩
    le_rfl (fun g => g.lcNoGap) (fun g _ => .inr (hlate g)) (fun g _ => .inr (hlate g))

theorem Keeps.startErase : Keeps s t.startErase := by
  have hdue : Keeps s { t with sec := { t.sec with erasePending := true, eraseDue := false } } :=
    h.fuse (FusesKept.of_eq rfl) le_rfl (fun g => g.lcNoGap) (fun _ => .inl) (fun _ hd => absurd hd Bool.false_ne_true)
  exact hdue.frame rfl

omit h in
/-- The bits of a target state and of every lower one leave no gap, and the state they give is at least the target and the state before. -/
theorem lcCode_or_lcBits : ∀ (lc : BitVec 4) (to_ : Nat), to_ < 6 → lcCode lc ≤ lcCode (lc ||| lcBits to_) ∧
    to_ ≤ lcCode (lc ||| lcBits to_) ∧
    ((∀ i, i < 3 → lc.getLsbD (i + 1) = true → lc.getLsbD i = true) →
      ∀ i, i < 3 → (lc ||| lcBits to_).getLsbD (i + 1) = true → (lc ||| lcBits to_).getLsbD i = true) := by
  decide

/-- A life-cycle transition (R543). -/
theorem Keeps.advanceLc {to_ : Nat} (hto : to_ < 6) {d} :
    Keeps s { t with sec := { t.sec with fuses := { t.sec.fuses with lc := t.sec.fuses.lc ||| lcBits to_ }, debugSession := d } } := by
  obtain ⟨hrises, -, hgap⟩ := lcCode_or_lcBits t.sec.fuses.lc to_ hto
  exact h.fuse ⟨fun i _ hl => by simp only [BitVec.getLsbD_or, hl, Bool.true_or], fun _ _ => id, id, fun _ _ => id, le_rfl, le_rfl, le_rfl⟩
    hrises (fun g => hgap g.lcNoGap) (fun _ => .inl) (fun _ => .inl)

end Primitive

/-- The target of a permitted transition, which comes after FIELD where it erases (R542). -/
theorem lcMove_target {from_ to_ : Nat} {owner erase : Bool} (h : lcMove from_ to_ = some (owner, erase)) :
    to_ < 6 ∧ (erase = true → 4 ≤ to_) := by
  unfold lcMove at h
  split_ifs at h
  all_goals
    simp only [Option.some.injEq, Prod.mk.injEq] at h
    obtain ⟨-, rfl⟩ := h
    constructor
    · omega
    · intro he
      cases he <;> omega

/-- The state that an access of an engine leaves, where it is over. -/
def Eng.Keeps {α : Type} (s : State) : Eng α → Prop
  | .wait => True
  | .ok _ u => Machine.Keeps s u
  | .bad _ _ u => Machine.Keeps s u

section
variable {α : Type} {s u : State} {r : Eng α}

theorem Eng.Keeps.ok {v : α} (h : r.Keeps s) (e : r = .ok v u := by with_reducible assumption) : Machine.Keeps s u := by rwa [e] at h

theorem Eng.Keeps.bad {st d : Nat} (h : r.Keeps s) (e : r = .bad st d u := by with_reducible assumption) : Machine.Keeps s u := by rwa [e] at h

end

theorem Eng.Keeps.bind {α β : Type} {s : State} {r : Eng α} {f : α → State → Eng β} (h : r.Keeps s)
    (hf : ∀ v u, Machine.Keeps s u → (f v u).Keeps s) : (r.bind f).Keeps s := by
  cases r with
  | wait => exact trivial
  | ok v u => exact hf v u h
  | bad st d u => exact h

/-- A command's outcome is a next state, and the step to it keeps what every step keeps. -/
inductive Steps (s : State) : Out → Prop
  | next {t : State} (h : Keeps s t) : Steps s (.next t)

theorem Steps.exists_next {s : State} {o : Out} : Steps s o → ∃ t, o = .next t ∧ Keeps s t
  | .next h => ⟨_, rfl, h⟩

end Sys2Proof.Machine
end

section
/-! SUPPORT. Each function of the model that gives a state keeps what every step keeps, and each command steps to such a state. The lemmas stand in the order of the definitions, and each follows from those of the functions that its own is made of. -/

namespace Sys2Proof.Machine

variable {s t u : State}

/-! ### Ops -/

theorem Keeps.takeFree (h : Keeps s t) : Keeps s t.takeFree.2 := h.frame rfl

theorem Keeps.takeFrees {n} (h : Keeps s t) : Keeps s (t.takeFrees n).2 := by
  induction n generalizing t with
  | zero => exact h
  | succ n ih => exact ih h.takeFree

theorem Keeps.setPll {n u'} (h : Keeps s t) : Keeps s (t.setPll n u') := h.frame rfl

theorem Keeps.tick {dt} (h : Keeps s t) : Keeps s (t.tick dt) := h.frame rfl

theorem Keeps.setCore {k c} (h : Keeps s t) : Keeps s (t.setCore k c) := h.frame rfl

theorem Keeps.updCore {k f} (h : Keeps s t) : Keeps s (t.updCore k f) := h.setCore

theorem Keeps.setDie {d x} (h : Keeps s t) : Keeps s (t.setDie d x) := h.frame rfl

theorem Keeps.updDie {d f} (h : Keeps s t) : Keeps s (t.updDie d f) := h.setDie

theorem Keeps.setPart {p x} (h : Keeps s t) : Keeps s (t.setPart p x) := h.frame rfl

theorem Keeps.updPart {p f} (h : Keeps s t) : Keeps s (t.updPart p f) := by
  unfold State.updPart
  split
  · exact h
  · exact h.setPart

theorem Keeps.updCtx {p c f} (h : Keeps s t) : Keeps s (t.updCtx p c f) := h.updPart

theorem Keeps.updKv {p c f} (h : Keeps s t) : Keeps s (t.updKv p c f) := h.updCtx

theorem Keeps.updCores {ks f} (h : Keeps s t) : Keeps s (t.updCores ks f) := Keeps.foldl (fun _ _ hu => hu.updCore) h

theorem Keeps.sendMsix {fn entry} (h : Keeps s t) : Keeps s (t.sendMsix fn entry) := h.frame rfl

theorem Keeps.record {e} (h : Keeps s t) : Keeps s (t.record e) := .ite h.enterEvent (h.frame rfl)

theorem Keeps.event {code} (h : Keeps s t) : Keeps s (t.event code) := h.record

theorem Keeps.noteStatus (h : Keeps s t) : Keeps s t.noteStatus := .ite (Keeps.sendMsix (h.frame rfl)) (h.frame rfl)

theorem Keeps.answer {bs} (h : Keeps s t) : Keeps s (t.answer bs) := h.frame rfl

/-! ### Dram -/

theorem Keeps.setChan {stack chan c} (h : Keeps s t) : Keeps s (t.setChan stack chan c) := h.frame rfl

theorem Keeps.setPoison {stack chan codeword b} (h : Keeps s t) : Keeps s (t.setPoison stack chan codeword b) := h.frame rfl

theorem Keeps.setLatent {stack chan codeword e} (h : Keeps s t) : Keeps s (t.setLatent stack chan codeword e) := h.frame rfl

theorem Keeps.strike {errs} (h : Keeps s t) : Keeps s (t.strike errs) := by
  unfold State.strike
  refine Keeps.foldl (fun u x hu => ?_) h
  split
  · exact hu
  · exact hu.setLatent

theorem Keeps.startSparing {stack chan} (h : Keeps s t) : Keeps s (t.startSparing stack chan) := by
  unfold State.startSparing
  dsimp only
  split
  · exact h
  · split
    · exact h.setChan
    · split
      · exact h.setChan.noteStatus
      · exact h.record

theorem Keeps.startChanReset {stack chan} (h : Keeps s t) : Keeps s (t.startChanReset stack chan) := .ite h h.setChan

theorem Keeps.countCorrected {stack chan codeword lanes retried} (h : Keeps s t) : Keeps s (t.countCorrected stack chan codeword
    lanes retried) :=
  .ite h.setChan.startSparing h.setChan

theorem Keeps.uncorrectable {stack chan codeword addr} (h : Keeps s t) : Keeps s (t.uncorrectable stack chan codeword addr) :=
  h.setPoison.record.record.startSparing

theorem Keeps.beyondCode {stack chan codeword} (h : Keeps s t) : Keeps s (t.beyondCode stack chan codeword).2 := by
  unfold State.beyondCode
  dsimp only
  split
  · exact h.takeFree.uncorrectable
  · split
    · exact h.takeFree
    · exact h.takeFree.takeFrees.frame rfl

theorem Keeps.readCodeword {stack chan codeword} (h : Keeps s t) : Keeps s (t.readCodeword stack chan codeword).2 := by
  unfold State.readCodeword
  dsimp only
  split
  · exact h.setLatent.record
  · split
    · exact h.setLatent
    · split
      · exact h.setLatent.countCorrected
      · split
        · split
          · exact h.setLatent.setChan
          · split
            · exact h.setLatent.countCorrected
            · exact h.setLatent.uncorrectable
        · exact h.setLatent.beyondCode

theorem Keeps.mergeCodeword {stack chan codeword whole} (h : Keeps s t) : Keeps s (t.mergeCodeword stack chan codeword whole).2 :=
    by
  unfold State.mergeCodeword
  dsimp only
  split
  · exact h.setPoison.setLatent
  · split
    · exact h
    · split
      · exact h.record
      · split
        · next heq => exact h.readCodeword.snd heq
        · next heq => exact (h.readCodeword.snd heq).record

theorem Keeps.fwMerge {a n} (h : Keeps s t) : Keeps s (t.fwMerge a n).2 := by
  refine .foldlOn (g := Prod.snd) (fun r d hr => ?_) h
  split
  · exact hr
  · exact hr.mergeCodeword

theorem Keeps.noteLoss {detail write} (h : Keeps s t) : Keeps s (t.noteLoss detail write) := h.frame rfl

theorem Keeps.takeLoss (h : Keeps s t) : Keeps s t.takeLoss.2 := h.frame rfl

theorem Keeps.suffer {loss} (h : Keeps s t) : Keeps s (t.suffer loss) := by
  unfold State.suffer
  dsimp only
  split
  · exact h
  · exact .ite h.record h.setLatent.uncorrectable

theorem Keeps.fwWrite {a n f} (h : Keeps s t) : Keeps s (t.fwWrite a n f) :=
  (Keeps.foldl (fun _ _ hu => hu.noteLoss) h.fwMerge).frame rfl

theorem Keeps.aside (h : Keeps s u) : Keeps s (t.aside u) := h.frame rfl

theorem Keeps.zeroDram {a n} (h : Keeps s t) : Keeps s (t.zeroDram a n) := h.fwWrite

theorem Keeps.putDram {a bs} (h : Keeps s t) : Keeps s (t.putDram a bs) := h.fwWrite

theorem Keeps.fillRanges {as bs} (h : Keeps s t) : Keeps s (t.fillRanges as bs) := by
  induction as generalizing t bs with
  | nil => exact h
  | cons a as ih => exact ih h.putDram

theorem Keeps.fwRead {a n} (h : Keeps s t) : Keeps s (t.fwRead a n) := by
  unfold State.fwRead
  refine Keeps.foldl (fun u x hu => ?_) h
  split
  · exact hu
  · split
    · next heq => exact hu.readCodeword.snd heq
    · next heq => exact (hu.readCodeword.snd heq).noteLoss

theorem Keeps.copyDram {src dst n} (h : Keeps s t) : Keeps s (t.copyDram src dst n) := by
  unfold State.copyDram
  exact h.fwRead.fwWrite

/-! ### Access -/

theorem Keeps.checkRead {w cws} (h : Keeps s t) : (t.checkRead w cws).Keeps s := by
  induction cws generalizing t with
  | nil => exact h
  | cons cw cws ih =>
    unfold State.checkRead
    split
    · exact h
    · split
      · next heq => exact ih (h.readCodeword.snd heq)
      · next heq => exact h.readCodeword.snd heq

theorem Keeps.readEng {w a n} (h : Keeps s t) : (t.readEng w a n).Keeps s := by
  unfold State.readEng
  split
  · exact h
  · split
    · split
      · exact h
      · split
        · next heq => exact h.checkRead.ok heq
        · next heq => exact h.checkRead.bad heq
        · exact trivial
    · split
      · exact h
      · exact trivial
      · exact h
      · split
        · exact h.setCore
    · split
      · exact h
      · exact h
    · exact h

theorem Keeps.writeCodeword {w a bs loss} (h : Keeps s t) : Keeps s (t.writeCodeword w a bs loss).1 := by
  unfold State.writeCodeword
  dsimp only
  split
  · exact h
  · split
    · next heq => exact (h.mergeCodeword.snd heq).frame rfl
    · next heq => exact h.mergeCodeword.snd heq

theorem Keeps.writeDram {w n a bs loss} (h : Keeps s t) : Keeps s (t.writeDram w n a bs loss).1 := by
  induction n generalizing t a bs loss with
  | zero => exact h
  | succ n ih =>
    unfold State.writeDram
    split
    · exact h
    · exact ih h.writeCodeword

theorem Keeps.spoil {a n} (h : Keeps s t) : Keeps s (t.spoil a n) := h.frame rfl

theorem Keeps.writeEng {w a bs} (h : Keeps s t) : (t.writeEng w a bs).Keeps s := by
  unfold State.writeEng
  dsimp only
  split
  · exact h
  · split
    · split
      · exact h
      · split
        · next heq => exact (h.writeDram.fst heq).spoil
        · next heq => exact (h.writeDram.fst heq).spoil
    · split
      · exact h
      · exact trivial
      · exact h
      · exact h.updCore
    · split
      · exact h
      · exact h.frame rfl
    · exact h

theorem Keeps.dropXlat {a n} (h : Keeps s t) : Keeps s (t.dropXlat a n) := h.frame rfl

theorem Keeps.scrubBacking {x b} (h : Keeps s t) : Keeps s (t.scrubBacking x b) :=
  (h.dropXlat : Keeps s (t.dropXlat b.base b.size)).frame rfl

theorem Keeps.placeFw {p kind owner size align} (h : Keeps s t) : ∀ a ∈ t.placeFw p kind owner size align, Keeps s a.2 := by
  unfold State.placeFw
  dsimp only
  split
  · exact Keeps.nothing _
  · split
    · exact Keeps.nothing _
    · split
      · exact Keeps.nothing _
      · exact Keeps.just h.updPart.scrubBacking

theorem Keeps.dropFw {p c} (h : Keeps s t) : Keeps s (t.dropFw p c) := h.updPart

/-! ### Queue -/

theorem Keeps.setBlock {b q} (h : Keeps s t) : Keeps s (t.setBlock b q) := h.frame rfl

theorem Keeps.updBlock {b f} (h : Keeps s t) : Keeps s (t.updBlock b f) := h.setBlock

theorem Keeps.updRing {b r f} (h : Keeps s t) : Keeps s (t.updRing b r f) := h.updBlock

theorem Keeps.updSq {b r f} (h : Keeps s t) : Keeps s (t.updSq b r f) := h.updRing

theorem Keeps.updCq {b r f} (h : Keeps s t) : Keeps s (t.updCq b r f) := h.updRing

theorem Keeps.updCmd {c f} (h : Keeps s t) : Keeps s (t.updCmd c f) := h.updBlock

theorem Keeps.dropCmd {c} (h : Keeps s t) : Keeps s (t.dropCmd c) := h.updBlock

theorem Keeps.signalCq {b r} (h : Keeps s t) : Keeps s (t.signalCq b r) := h.updCq.sendMsix

theorem Keeps.ringPut {b loc addr bs} (h : Keeps s t) : ∀ a ∈ t.ringPut b loc addr bs, Keeps s a := by
  unfold State.ringPut
  dsimp only
  split
  · split
    · next heq => exact Keeps.just (h.writeEng.ok heq)
    · exact Keeps.nothing _
    · exact Keeps.nothing _
  · split
    · exact Keeps.nothing _
    · exact Keeps.just (h.frame rfl)

theorem Keeps.sqDrained {b r} (h : Keeps s t) : Keeps s (t.sqDrained b r) := .ite h.updSq h

theorem Keeps.writeRecord {b r h'} (h : Keeps s t) : Keeps s (t.writeRecord b r h') := by
  unfold State.writeRecord
  dsimp only
  split
  · split
    · exact h.updCq.record
    · exact h.updCq.record.dropCmd.sqDrained
  · next hput =>
    have hring := Keeps.of h.ringPut hput
    split
    · exact .ite hring.updCq.signalCq hring.updCq
    · exact (Keeps.dropCmd (.ite hring.updCq.signalCq hring.updCq)).sqDrained

theorem Keeps.deliver {b r h'} (h : Keeps s t) : Keeps s (t.deliver b r h') := .ite h.updCq h.writeRecord

theorem Keeps.noteRecovery {c f} (h : Keeps s t) : Keeps s (t.noteRecovery c f) := h.updCmd

theorem Keeps.endCmd {c f} (h : Keeps s t) : Keeps s (t.endCmd c f) := by
  unfold State.endCmd
  dsimp only
  split
  · exact h
  · exact .ite h (.ite h.updCmd.deliver h.updCmd.dropCmd.answer)

theorem Keeps.deny {c k extra} (h : Keeps s t) : Keeps s (t.deny c k extra) := h.updBlock.record.endCmd

theorem Keeps.startCmd {c} (h : Keeps s t) : Keeps s (t.startCmd c) := h.updCmd

theorem Keeps.output {c w addr bs f} (h : Keeps s t) : Keeps s (t.output c w addr bs f).1 := by
  unfold State.output
  dsimp only
  split
  · split
    · next heq => exact h.writeEng.ok heq
    · next heq => exact h.writeEng.bad heq
    · exact h
  · split
    · exact h
    · exact h

/-! ### Kv -/

theorem Keeps.updSeq {p c h' f} (h : Keeps s t) : Keeps s (t.updSeq p c h' f) := h.updKv

theorem Keeps.zeroPage {v n} (h : Keeps s t) : Keeps s (t.zeroPage v n) :=
  .ite (Keeps.foldl (fun _ _ hu => hu.zeroDram) h) ((Keeps.foldl (fun _ _ hu => hu.zeroDram) h).zeroDram)

theorem Keeps.zeroFrom {v n i} (h : Keeps s t) : Keeps s (t.zeroFrom v n i) :=
  .ite (Keeps.foldl (fun _ _ hu => hu.zeroDram.zeroDram) h) ((Keeps.foldl (fun _ _ hu => hu.zeroDram.zeroDram) h).zeroDram)

theorem Keeps.syncList {p c h'} (h : Keeps s t) : Keeps s (t.syncList p c h') := by
  unfold State.syncList
  dsimp only
  split
  · exact h
  · split
    · exact h
    · split
      · exact h.putDram
      · exact h.dropXlat.putDram

theorem Keeps.pageZeroed {p c n} (h : Keeps s t) : Keeps s (t.pageZeroed p c n) := by
  unfold State.pageZeroed
  split
  · exact h
  · exact .ite h.zeroPage.updKv h

theorem Keeps.trimPage {p c n} (h : Keeps s t) : Keeps s (t.trimPage p c n) := by
  unfold State.trimPage
  dsimp only
  split
  · exact h
  · split
    · exact .ite h.zeroFrom.aside h
    · exact h

theorem Keeps.dropRefs {p c ns} (h : Keeps s t) : Keeps s (t.dropRefs p c ns) := Keeps.foldl (fun _ _ hu => hu.trimPage) h.updKv

theorem Keeps.releaseSeq {p c h'} (h : Keeps s t) : Keeps s (t.releaseSeq p c h') := by
  unfold State.releaseSeq
  dsimp only
  split
  · exact h
  · split
    · exact h
    · refine (Keeps.updKv ?_).dropRefs
      split
      · exact h
      · exact h.zeroDram

theorem Keeps.pick {α : Type} {xs : List α} (h : Keeps s t) : Keeps s (t.pick xs).2 := h.takeFree

theorem Keeps.addSeq {p c q} (h : Keeps s t) : ∀ a ∈ t.addSeq p c q, Keeps s a.2 := by
  unfold State.addSeq
  dsimp only
  split
  · exact Keeps.nothing _
  · split
    · exact Keeps.nothing _
    · split
      · exact Keeps.just h.takeFree.updKv
      · split
        · exact Keeps.nothing _
        · next heq => exact Keeps.just (h.pick.snd heq).takeFree.updKv

theorem Keeps.lookups {p c x n toks b} (h : Keeps s t) : Keeps s (t.lookups p c x n toks b).2 := by
  induction n generalizing t toks b with
  | zero => exact h
  | succ n ih =>
    unfold State.lookups
    split
    · exact h
    · split
      · exact h
      · split
        · exact h
        · dsimp only
          split
          · split
            · exact h.updKv
            · exact ih h.updKv.syncList
          · exact h.updKv
          · exact h.updKv

theorem Keeps.fullBlock {p c h' b toks} (h : Keeps s t) : Keeps s (t.fullBlock p c h' b toks) := by
  unfold State.fullBlock
  dsimp only
  split
  · exact h
  · split
    · exact h
    · split
      · exact h
      · split
        · exact h.updKv
        · exact h
        · split
          · exact h.updKv.dropRefs.syncList
          · exact .ite h.updKv h.updKv
          · exact h.updKv

theorem Keeps.fullBlocks {p c x n b toks} (h : Keeps s t) : Keeps s (t.fullBlocks p c x n b toks) := by
  induction n generalizing t b toks with
  | zero => exact h
  | succ n ih => exact .ite h (ih h.fullBlock)

theorem Keeps.commitSeq {p c h' toks skip} (h : Keeps s t) : Keeps s (t.commitSeq p c h' toks skip) := by
  unfold State.commitSeq
  dsimp only
  split
  · exact h
  · exact h.updSeq.updKv.fullBlocks

theorem Keeps.copyPage {v src dst count} (h : Keeps s t) : Keeps s (t.copyPage v src dst count) :=
  Keeps.foldl (fun _ _ hu => hu.copyDram.copyDram) h

theorem Keeps.writable {p c h' b copy} (h : Keeps s t) : ∀ a ∈ t.writable p c h' b copy, Keeps s a := by
  unfold State.writable
  dsimp only
  split
  · exact Keeps.nothing _
  · split
    · exact Keeps.nothing _
    · split
      · exact Keeps.nothing _
      · split
        · split
          · exact Keeps.nothing _
          · exact Keeps.just h.updKv.syncList
        · split
          · split
            · exact Keeps.nothing _
            · exact Keeps.just h.copyPage.updKv.dropRefs.syncList
          · exact Keeps.just (.ite h.updKv.syncList.zeroFrom h.updKv.syncList)

theorem Keeps.writeEach {p c es} (h : Keeps s t) : ∀ a ∈ t.writeEach p c es, Keeps s a := by
  induction es generalizing t with
  | nil => exact .just h
  | cons e es ih => exact .bind h.writable fun _ ha => ih ha

theorem Keeps.writables {p c ws bs} (h : Keeps s t) : ∀ a ∈ t.writables p c ws bs, Keeps s a.1 := .map h.writeEach fun _ ha => ha

theorem Keeps.zeroTail {p c h'} (h : Keeps s t) : Keeps s (t.zeroTail p c h') := by
  unfold State.zeroTail
  split
  · exact h
  · split
    · exact h
    · refine Keeps.foldl (fun u x hu => ?_) h
      split
      · exact hu
      · exact .ite hu.zeroFrom hu

theorem Keeps.rollbackSeq {p c h' hits oldNode} (h : Keeps s t) : Keeps s (t.rollbackSeq p c h' hits oldNode) := by
  unfold State.rollbackSeq
  dsimp only
  split
  · exact h
  · split
    · exact h
    · exact h.updKv.dropRefs.syncList.zeroTail

theorem Keeps.forkChild {p c h' pos} (h : Keeps s t) : ∀ a ∈ t.forkChild p c h' pos, Keeps s a.2 := by
  unfold State.forkChild
  dsimp only
  split
  · exact .nothing _
  · split
    · exact .nothing _
    · split
      · exact .nothing _
      · next k u e =>
        have hu : Keeps s u := Keeps.ofSnd h.addSeq e
        split
        · exact .nothing _
        · split
          · exact .nothing _
          · refine .just (f := Prod.snd) ?_
            dsimp only
            split
            · exact Keeps.copyDram (Keeps.syncList (Keeps.updKv hu))
            · exact Keeps.syncList (Keeps.updKv hu)

theorem Keeps.forkChildren {p c q pos n} (h : Keeps s t) : ∀ a ∈ t.forkChildren p c q pos n, Keeps s a.2 := by
  induction n generalizing t with
  | zero => exact .just h
  | succ n ih =>
    unfold State.forkChildren
    split
    · exact .nothing _
    · next hchild => exact .map (ih (.ofSnd h.forkChild hchild)) fun _ ha => ha

theorem Keeps.setKeeper {p c h' pos} (h : Keeps s t) : Keeps s (t.setKeeper p c h' pos) := by
  unfold State.setKeeper
  split
  · exact h
  · split
    · exact h
    · exact .ite h h.updKv

theorem Keeps.forkReleasing {p c h' pos n} (h : Keeps s t) : ∀ a ∈ t.forkReleasing p c h' pos n, Keeps s a.2 := by
  unfold State.forkReleasing
  dsimp only
  split
  · exact Keeps.nothing _
  · split
    · exact Keeps.nothing _
    · split
      · exact Keeps.nothing _
      · next ks u e =>
        have hu : Keeps s u := Keeps.ofSnd h.forkChildren e
        refine .just (f := Prod.snd) ?_
        dsimp only
        generalize hs3 : State.dropRefs _ p c _ = v
        have hv : Keeps s v := by
          rw [← hs3]
          exact Keeps.dropRefs (Keeps.updKv hu.takeFree)
        generalize hs5 : State.syncList _ p c _ = w
        have hw : Keeps s w := by
          rw [← hs5]
          refine Keeps.syncList ?_
          split
          · exact .ite hv hv.copyDram
          · exact hv.zeroDram
          · exact hv
        refine .ite (.ite hw.setKeeper hw) ?_
        refine .ite ?_ hw
        split
        · exact hw
        · exact hw.zeroFrom.setKeeper

theorem Keeps.swapOut {p c h'} (h : Keeps s t) : ∀ a ∈ t.swapOut p c h', Keeps s a := by
  unfold State.swapOut
  dsimp only
  split
  · exact Keeps.nothing _
  · split
    · exact Keeps.nothing _
    · split
      · exact Keeps.nothing _
      · split
        · exact Keeps.nothing _
        · refine Keeps.just ?_
          refine (Keeps.updKv ?_).syncList
          split
          · exact Keeps.foldl (fun _ _ hu => hu.fwRead) h
          · exact (Keeps.foldl (fun _ _ hu => hu.fwRead) h).zeroDram

theorem Keeps.restorePage {v n img} (h : Keeps s t) : Keeps s (t.restorePage v n img) := Keeps.foldl (fun _ _ hu => hu.fwWrite) h

theorem Keeps.restorePages {p c q pages} (h : Keeps s t) : ∀ a ∈ t.restorePages p c q pages, Keeps s a := by
  induction pages generalizing t with
  | nil => exact .just h
  | cons e pages ih =>
    unfold State.restorePages
    split
    · exact .nothing _
    · split
      · exact .nothing _
      · exact ih h.restorePage.updKv

theorem Keeps.thaw {p c h'} (h : Keeps s t) : ∀ a ∈ t.thaw p c h', Keeps s a := by
  unfold State.thaw
  dsimp only
  split
  · exact Keeps.nothing _
  · split
    · exact Keeps.nothing _
    · split
      · exact Keeps.just h
      · split
        · exact Keeps.nothing _
        · split
          · exact Keeps.nothing _
          · next u e =>
            have hu : Keeps s u := h.restorePages _ e
            refine Keeps.just (Keeps.syncList (Keeps.updKv ?_))
            split
            · split
              · exact hu
              · exact hu.pick
            · split
              · exact hu.fwWrite
              · exact hu.pick.fwWrite

theorem Keeps.swapVictims {p c hs} (h : Keeps s t) : Keeps s (t.swapVictims p c hs).2 := by
  induction hs generalizing t with
  | nil => exact h
  | cons q hs ih =>
    unfold State.swapVictims
    split
    · exact ih h
    · split
      · exact ih h.record
      · next hu _ =>
        have hout : Keeps s _ := Keeps.of h.swapOut hu
        split
        · exact hout
        · exact ih hout

/-- What an allocation leaves behind keeps what every step keeps, and what it got was there without any eviction. -/
structure AllocKeeps {α : Type} (s t : State) (f : State → Option α) (r : Alloc α × State) : Prop where
  left : Keeps s r.2
  short (u : State) (hr : r.1 = .short u) : Keeps s u
  got (a : α) (hr : r.1 = .got a) : f t = some a

theorem Keeps.allocate {α : Type} {p c prio} {f : State → Option α} (h : Keeps s t) : AllocKeeps s t f (t.allocate p c prio f) := by
  unfold State.allocate
  split
  · next a e => exact ⟨h, fun _ hx => (nomatch hx), fun b hb => by rw [← Alloc.got.inj hb]; exact e⟩
  · split
    · exact ⟨h, fun u hu => Alloc.short.inj hu ▸ h, fun _ hx => nomatch hx⟩
    · split
      · exact ⟨h, fun _ hx => (nomatch hx), fun _ hx => nomatch hx⟩
      · split
        · next u e => exact ⟨h.swapVictims.snd e, fun _ hx => (nomatch hx), fun _ hx => nomatch hx⟩
        · next u e =>
          have hu : Keeps s u := h.swapVictims.snd e
          exact ⟨hu, fun v hv => Alloc.short.inj hv ▸ hu, fun _ hx => nomatch hx⟩

/-! ### Part -/

theorem Keeps.eachCore {x f} (h : Keeps s t) : Keeps s (t.eachCore x f) := Keeps.foldl (fun _ _ hu => hu.updCore) h

theorem Keeps.setDieClk {d k} (h : Keeps s t) : Keeps s (t.setDieClk d k) := h.frame rfl

theorem Keeps.finishPlan {p} (h : Keeps s t) : Keeps s (t.finishPlan p) := by
  unfold State.finishPlan
  dsimp only
  split
  · exact h
  · exact .ite ((Keeps.foldl (fun _ _ hu => Keeps.foldl (fun _ _ hu => hu.updCore) hu.setDieClk) h).updPart) h

theorem Keeps.writeFast {d} (h : Keeps s t) : Keeps s (t.writeFast d) := Keeps.foldl (fun _ _ hu => hu.updCore) h

theorem Keeps.arriveAtOnce {d} (h : Keeps s t) : Keeps s (t.arriveAtOnce d) := by
  unfold State.arriveAtOnce
  exact h.setDieClk.writeFast

theorem Keeps.requestPlan {p k img} (h : Keeps s t) : Keeps s (t.requestPlan p k img) := by
  unfold State.requestPlan
  dsimp only
  split
  · exact h
  · exact ((Keeps.foldl (fun _ _ hu => .ite hu.setDieClk.arriveAtOnce (Keeps.foldl (fun _ _ hu => hu.updCore) hu.setDieClk))
        h).updPart).finishPlan

theorem Keeps.setupCores {p c} (h : Keeps s t) : Keeps s (t.setupCores p c) := by
  unfold State.setupCores
  dsimp only
  split
  · exact h
  · split
    · exact h.eachCore
    · exact h.eachCore.updPart

theorem Keeps.saveCtx {x k} (h : Keeps s t) : Keeps s (t.saveCtx x k) := Keeps.foldl (fun _ _ hu => hu.updCore.putDram) h

theorem Keeps.readImages {x k} (h : Keeps s t) : Keeps s (t.readImages x k).2 :=
  (Keeps.foldl (fun _ _ hu => hu.fwRead.fwRead) h).takeLoss

theorem Keeps.restoreCtx {x k} (h : Keeps s t) : Keeps s (t.restoreCtx x k) := Keeps.foldl (fun _ _ hu => hu.updCore) h

theorem Keeps.clearCores {x} (h : Keeps s t) : Keeps s (t.clearCores x) := h.eachCore

theorem Keeps.enterCtx {p c} (h : Keeps s t) : Keeps s (t.enterCtx p c) := by
  unfold State.enterCtx
  dsimp only
  split
  · exact h
  · split
    · exact h
    · exact (Keeps.updPart (.ite h.clearCores.restoreCtx h.clearCores)).setupCores

theorem Keeps.acceptAll {cs} (h : Keeps s t) : Keeps s (t.acceptAll cs) := Keeps.foldl (fun _ _ hu => hu.updCmd) h

theorem Keeps.stopDispatches {p f} (h : Keeps s t) : Keeps s (t.stopDispatches p f) := by
  unfold State.stopDispatches
  dsimp only
  split
  · exact h
  · exact ((Keeps.foldl (fun _ _ hu => hu.updCore) h).beside).updPart

theorem Keeps.dropGather {p gi} (h : Keeps s t) : Keeps s (t.dropGather p gi) := h.frame rfl

theorem Keeps.dropSurvivors {p group} (h : Keeps s t) : Keeps s (t.dropSurvivors p group) := h.frame rfl

theorem Keeps.leavePeers {p group} (h : Keeps s t) : Keeps s (t.leavePeers p group) := by
  cases group with
  | none => exact h
  | some g => exact (h.dropSurvivors : Keeps s (t.dropSurvivors p g)).frame rfl

theorem Keeps.restoreExperts {p c us} (h : Keeps s t) : Keeps s (t.restoreExperts p c us) := by
  unfold State.restoreExperts
  split
  · exact h
  · exact Keeps.foldl (fun _ _ hu => hu.fwWrite) h.updCtx

theorem Keeps.undoExec {p c e} (h : Keeps s t) : Keeps s (t.undoExec p c e) := by
  unfold State.undoExec
  dsimp only
  refine Keeps.aside ?_
  split
  · exact Keeps.foldl (fun _ _ hu => hu.rollbackSeq) h.leavePeers.restoreExperts
  · split
    · exact Keeps.foldl (fun _ _ hu => hu.releaseSeq) (Keeps.foldl (fun _ _ hu => hu.rollbackSeq) h.leavePeers.restoreExperts)
    · exact .ite (((Keeps.foldl (fun _ _ hu => hu.releaseSeq) (Keeps.foldl (fun _ _ hu => hu.rollbackSeq)
          h.leavePeers.restoreExperts)).updSeq).zeroTail) (Keeps.foldl (fun _ _ hu => hu.releaseSeq) (Keeps.foldl (fun _ _ hu =>
          hu.rollbackSeq) h.leavePeers.restoreExperts))

theorem Keeps.dropWork {c p} (h : Keeps s t) : Keeps s (t.dropWork c p) := Keeps.updPart (Keeps.dropFw (Keeps.updPart (h.frame rfl)))

theorem Keeps.endAtBoundary {c status extra} (h : Keeps s t) : Keeps s (t.endAtBoundary c status extra) := by
  unfold State.endAtBoundary
  dsimp only
  split
  · exact h
  · split
    · exact h
    · refine Keeps.endCmd ?_
      split
      · refine (Keeps.dropWork ?_).updPart
        split
        · exact h.stopDispatches
        · exact h.stopDispatches.undoExec
      · refine Keeps.dropWork ?_
        split
        · exact h.stopDispatches
        · exact h.stopDispatches.undoExec

theorem Keeps.failCmd {c status detail} (h : Keeps s t) : Keeps s (t.failCmd c status detail) := by
  unfold State.failCmd
  dsimp only
  split
  · exact h
  · split
    · exact h
    · refine (Keeps.dropWork ?_).endCmd
      split
      · exact h.stopDispatches
      · exact h.stopDispatches.undoExec

theorem Keeps.endTenant {p skip} (h : Keeps s t) : Keeps s (t.endTenant p skip) :=
  Keeps.foldl (fun _ _ hu => .ite hu hu.endAtBoundary) h

theorem Keeps.tdiError {p skip} (h : Keeps s t) : Keeps s (t.tdiError p skip) := h.updPart.endTenant

theorem Keeps.refuseLocked {c p} (h : Keeps s t) : Keeps s (t.refuseLocked c p) := h.tdiError.endCmd

theorem Keeps.setStream {n x} (h : Keeps s t) : Keeps s (t.setStream n x) := h.frame rfl

theorem Keeps.updStream {n f} (h : Keeps s t) : Keeps s (t.updStream n f) := h.setStream

theorem Keeps.streamDrained {n aborted} (h : Keeps s t) : Keeps s (t.streamDrained n aborted) := by
  unfold State.streamDrained
  dsimp only
  split
  · split
    · exact h.setStream
    · exact h.setStream.endCmd
  · exact h

theorem Keeps.dropStores {f} (h : Keeps s t) : Keeps s (t.dropStores f) := h.frame rfl

theorem Keeps.releaseCtx {p c} (h : Keeps s t) : Keeps s (t.releaseCtx p c) := by
  unfold State.releaseCtx
  dsimp only
  split
  · exact h
  · generalize hs0 : t.dropStores _ = u
    have hu : Keeps s u := hs0 ▸ h.dropStores
    generalize hs3 : List.foldl _ _ (List.filter _ _) = v
    have hv : Keeps s v := by
      rw [← hs3]
      exact Keeps.foldl (fun _ _ hw => hw.scrubBacking) (Keeps.foldl (fun _ _ hw => hw.updStream) (hu.frame rfl))
    generalize hs5 : State.stopDispatches _ _ _ = w
    have hw : Keeps s w := by
      rw [← hs5]
      exact Keeps.stopDispatches (.ite (Keeps.foldl (fun _ _ hx => hx.scrubBacking) hv) hv)
    exact Keeps.updPart (.ite hw.clearCores.eachCore hw)

theorem Keeps.releasePart {p} (h : Keeps s t) : Keeps s (t.releasePart p) := by
  unfold State.releasePart
  dsimp only
  split
  · exact h
  · exact ((Keeps.foldl (fun _ _ hu => hu.updDie) ((Keeps.foldl (fun _ _ hu => hu.updStream) ((Keeps.foldl (fun _ _ hu =>
        hu.releaseCtx) h).dropStores)).updCores)).beside).setPart

theorem Keeps.drained {p} (h : Keeps s t) : Keeps s (t.drained p) := by
  unfold State.drained
  dsimp only
  split
  · exact h
  · split
    · split
      · exact h.updPart
      · exact h.updPart.endCmd
    · refine ((Keeps.updPart ?_).releasePart).endCmd
      split
      · exact h.updPart
      · exact h.updPart.endCmd

theorem Keeps.switchFrom {p gone} (h : Keeps s t) : Keeps s (t.switchFrom p gone) := by
  unfold State.switchFrom
  dsimp only
  split
  · exact h
  · split
    · exact h
    · split
      · exact h
      · split
        · exact h.updPart
        · split
          · exact h
          · exact .ite h.updPart h.enterCtx

theorem Keeps.decideSwitch {p} (h : Keeps s t) : Keeps s (t.decideSwitch p) := h.switchFrom

theorem Keeps.refreshCtx {p} (h : Keeps s t) : Keeps s (t.refreshCtx p) := h.updPart

theorem Keeps.setConductor {n x} (h : Keeps s t) : Keeps s (t.setConductor n x) := h.frame rfl

theorem Keeps.setSpare {b n} (h : Keeps s t) : Keeps s (t.setSpare b n) := h.frame rfl

theorem Keeps.serveWaiting (h : Keeps s t) : Keeps s t.serveWaiting := by
  unfold State.serveWaiting
  refine Keeps.foldl (fun u x hu => ?_) h
  split
  · exact hu
  · split
    · exact hu
    · split
      · exact hu
      · exact hu.updPart

theorem Keeps.denyUnlisted {b} (h : Keeps s t) : Keeps s (t.denyUnlisted b) := by
  unfold State.denyUnlisted
  dsimp only
  split
  · exact h
  · refine Keeps.foldl (fun u x hu => ?_) h
    split
    · exact hu
    · exact .ite hu.deny hu

theorem Keeps.finishAborts {b} (h : Keeps s t) : Keeps s (t.finishAborts b) := Keeps.foldl (fun _ _ hu => .ite hu hu.endCmd) h

theorem Keeps.applyDcache {p c id} (h : Keeps s t) : Keeps s (t.applyDcache p c id) := by
  unfold State.applyDcache
  dsimp only
  split
  · exact h.updCtx
  · refine .ite h.updCtx.endCmd (.ite h.dropFw.updCtx.endCmd ?_)
    split
    · exact h.updCtx.endCmd
    · next k _ _ b u hplace =>
      have hu : Keeps s u := Keeps.ofSnd h.dropFw.updCtx.placeFw hplace
      have hcache : ∀ a ∈ (if k.p 0 6 = 0 then some (0, u) else (u.placeFw p .decode c (k.p 0 6) 0x10000).map (fun z => (z.1.base,
          z.2))),
          Keeps s a.2 := by
        split
        · exact .just (f := Prod.snd) hu
        · exact .map hu.placeFw fun _ ha => ha
      split
      · exact h.updCtx.endCmd
      · next hc => exact (hcache _ hc).updCtx.endCmd

theorem Keeps.settleCtx {p c} (h : Keeps s t) : Keeps s (t.settleCtx p c) := by
  unfold State.settleCtx
  dsimp only
  split
  · exact h
  · split
    · split
      · exact h
      · exact .ite h h.applyDcache
    · split
      · exact .ite h h.releaseCtx.endCmd
      · exact .ite (.ite h h.applyDcache) ((Keeps.releaseCtx (.ite h h.applyDcache)).endCmd)

theorem Keeps.settlePart {p} (h : Keeps s t) : Keeps s (t.settlePart p) := by
  unfold State.settlePart
  dsimp only
  split
  · exact h
  · split
    · refine Keeps.refreshCtx ?_
      split
      · exact Keeps.foldl (fun _ _ hu => hu.settleCtx) h
      · exact .ite ((Keeps.foldl (fun _ _ hu => hu.settleCtx) h).drained) (Keeps.foldl (fun _ _ hu => hu.settleCtx) h)
    · split
      · refine Keeps.refreshCtx ?_
        split
        · exact Keeps.foldl (fun _ _ hu => hu.settleCtx) h
        · exact .ite ((Keeps.foldl (fun _ _ hu => hu.settleCtx) h).drained) (Keeps.foldl (fun _ _ hu => hu.settleCtx) h)
      · split
        · refine (Keeps.refreshCtx ?_).switchFrom
          split
          · exact Keeps.foldl (fun _ _ hu => hu.settleCtx) h
          · exact .ite ((Keeps.foldl (fun _ _ hu => hu.settleCtx) h).drained) (Keeps.foldl (fun _ _ hu => hu.settleCtx) h)
        · split
          · exact .ite ((Keeps.foldl (fun _ _ hu => hu.settleCtx) h).refreshCtx) (((Keeps.foldl (fun _ _ hu => hu.settleCtx)
                h).refreshCtx).decideSwitch)
          · exact .ite (Keeps.refreshCtx (.ite ((Keeps.foldl (fun _ _ hu => hu.settleCtx) h).drained) (Keeps.foldl (fun _ _ hu =>
                hu.settleCtx) h))) ((Keeps.refreshCtx (.ite ((Keeps.foldl (fun _ _ hu => hu.settleCtx) h).drained) (Keeps.foldl
                (fun _ _ hu => hu.settleCtx) h))).decideSwitch)

theorem Keeps.settleOnce (h : Keeps s t) : Keeps s t.settleOnce :=
  (Keeps.foldl (fun _ _ hu => hu.settlePart) (Keeps.foldl (fun _ _ hu => hu.streamDrained) (Keeps.foldl (fun _ _ hu =>
      hu.denyUnlisted.finishAborts) h))).serveWaiting

theorem Keeps.settle (h : Keeps s t) : Keeps s t.settle := h.settleOnce.settleOnce

theorem Keeps.finish {c f} (h : Keeps s t) : Keeps s (t.finish c f) := h.endCmd.settle

theorem Keeps.teardown {p loss extra} (h : Keeps s t) : Keeps s (t.teardown p loss extra) := by
  unfold State.teardown
  dsimp only
  split
  · exact h
  · split
    · exact h
    · refine (((((((Keeps.foldl (fun u x hu => ?_)
          h.stopDispatches).eachCore).updPart).updCtx).setupCores).record).refreshCtx).decideSwitch
      split
      · exact hu.endAtBoundary
      · exact hu.failCmd

theorem Keeps.unlessLost {c} (h : Keeps s t) (hu : Keeps s u) : Keeps s (t.unlessLost c u) := by
  unfold State.unlessLost
  split
  · exact hu
  · exact h.suffer.failCmd.settle

/-- A queue command keeps what its work keeps (R433 to R437). -/
theorem Keeps.gate {c op b f} (h : Keeps s t) (hf : ∀ u k p x, Keeps s u → Keeps s (f u k p x)) : Keeps s (t.gate c op b f) := by
  have run {v : State} {cmd : Cmd} (hv : Keeps s v) : Keeps s (v.unlessLost c (f v cmd ((cmd.partOf c.block).getD 8)
      cmd.ctxField).settle) :=
    hv.unlessLost (hf _ _ _ _ hv).settle
  unfold State.gate
  dsimp only
  split
  · exact h
  · refine .ite h ?_
    split
    · exact h
    · exact h
    · refine .ite h ?_
      split
      · exact h.deny.settle
      · exact h.finish
      · exact .ite (run h.updCmd) h.updCmd.settle
    · exact .ite (run h) h

/-! ### Dma -/

theorem Keeps.programFault {k pc code unit arg} (h : Keeps s t) : Keeps s (t.programFault k pc code unit arg) := by
  unfold State.programFault
  dsimp only
  split
  · exact h.updCore
  · exact h.updCore.failCmd.settle

theorem Keeps.onCore {p f} (h : Keeps s t) (hf : ∀ k, Keeps s (f k)) : Keeps s (t.onCore p f) := .ite (hf _) h

theorem Keeps.engAll {α β : Type} {f : State → α → Eng (List β)} {xs : List α} (h : Keeps s t) (hf : ∀ u x, Keeps s u → (f u
    x).Keeps s) :
    (engAll f t xs).Keeps s := by
  induction xs generalizing t with
  | nil => exact h
  | cons x xs ih => exact (hf t x h).bind fun _ _ hu => (ih hu).bind fun _ _ hw => hw

theorem Keeps.freeBytes {n} (h : Keeps s t) : Keeps s (t.freeBytes n).2 := h.takeFrees

theorem Keeps.spadOut {key off n} (h : Keeps s t) : Keeps s (t.spadOut key off n).2 := h.setCore

theorem Keeps.checkFw {x f cws} (h : Keeps s t) : (t.checkFw x f cws).Keeps s := by
  induction cws generalizing t with
  | nil => exact h
  | cons cw cws ih =>
    unfold State.checkFw
    dsimp only
    split
    · next heq => exact ih (h.readCodeword.snd heq)
    · next heq => exact h.readCodeword.snd heq

theorem Keeps.dmaRead {w a n} (h : Keeps s t) : (t.dmaRead w a n).Keeps s := by
  unfold State.dmaRead
  split
  · exact h.checkFw.bind fun _ _ hu => hu
  · exact h.readEng

theorem Keeps.sendOut {w key off dest n} (h : Keeps s t) : (t.sendOut w key off dest n).Keeps s :=
  h.spadOut.freeBytes.writeEng.bind fun _ _ hu => hu

theorem Keeps.moveXfer {w key base toExt x} (h : Keeps s t) : (t.moveXfer w key base toExt x).Keeps s := by
  unfold State.moveXfer
  split
  · split
    · exact h
    · exact h.sendOut
  · exact h.dmaRead.bind fun _ _ hu => hu

theorem Keeps.moveTile {w d base} (h : Keeps s t) : (t.moveTile w d base).Keeps s := by
  have column {u : State} (hu : Keeps s u) {a n} : ((u.dmaRead w a n).bind (fun bs t1 => .ok [bs] t1)).Keeps s :=
    hu.dmaRead.bind fun _ _ hv => hv
  unfold State.moveTile
  dsimp only
  exact (h.engAll fun _ _ hu => column hu).bind fun _ _ hcols => (hcols.engAll fun _ _ hu => column hu).bind fun _ _ hscales =>
      hscales

theorem Keeps.walkRead {w x a} (h : Keeps s t) : (t.walkRead w x a).Keeps s := by
  unfold State.walkRead
  split
  · exact h.checkFw.bind fun _ _ hu => hu
  · exact h.readEng.bind fun _ _ hu => hu

theorem Keeps.putXlat {cap es e} (h : Keeps s t) : Keeps s (t.putXlat cap es e).2 := by
  unfold State.putXlat
  dsimp only
  split
  · exact h
  · exact h.takeFree

theorem Keeps.fillDie {die e} (h : Keeps s t) : Keeps s (t.fillDie die e) := by
  unfold State.fillDie
  exact h.putXlat.updDie

theorem Keeps.fillStack {stack e} (h : Keeps s t) : Keeps s (t.fillStack stack e) := h.putXlat.frame rfl

theorem Keeps.translate {w die x a} (h : Keeps s t) : (t.translate w die x a).Keeps s := by
  unfold State.translate
  dsimp only
  split
  · exact h
  · exact h.fillDie
  · exact h.walkRead.bind fun _ _ hu => hu.fillStack.fillDie

theorem Keeps.pageRef {w die x v e} (h : Keeps s t) : (t.pageRef w die x v e).Keeps s := by
  unfold State.pageRef
  dsimp only
  split
  · exact h
  · split
    · exact h
    · split
      · exact h.translate.bind fun _ _ hu => hu
      · exact h

theorem Keeps.pageGroup {w die x v d blocks} (h : Keeps s t) : (t.pageGroup w die x v d blocks).Keeps s :=
  h.engAll fun _ _ hu => hu.walkRead.bind fun _ _ hv => hv.pageRef.bind fun _ _ hw => hw

theorem Keeps.movePos {w key base d refs p} (h : Keeps s t) : (t.movePos w key base d refs p).Keeps s := by
  unfold State.movePos
  dsimp only
  split
  · split_ifs
    · exact h
    · exact h.sendOut
    · exact h.dmaRead.bind fun _ _ hu => hu
  · split_ifs
    · exact h
    · exact h
  · exact h
  · exact h

theorem Keeps.movePages {w x key base d} (h : Keeps s t) : (t.movePages w x key base d).Keeps s := by
  unfold State.movePages
  dsimp only
  split
  · exact h
  · exact h.engAll fun _ _ hu => hu.pageGroup.bind fun _ _ hv => hv.engAll fun _ _ hw => hw.movePos

theorem Keeps.moveDesc {w x key d} (h : Keeps s t) : (t.moveDesc w x key d).Keeps s := by
  unfold State.moveDesc
  split
  · exact h
  · split
    · exact h
    · split
      · exact h.moveTile
      · split
        · exact h.movePages
        · exact h.engAll fun _ _ hu => hu.moveXfer

theorem Keeps.openRange {key a} (h : Keeps s t) : Keeps s (t.openRange key a) := by
  unfold State.openRange
  exact h.freeBytes.updCore

theorem Keeps.dmaFailed {key eng status detail} (h : Keeps s t) : Keeps s (t.dmaFailed key eng status detail) := by
  unfold State.dmaFailed
  dsimp only
  split
  · exact h.updCore
  · exact h.updCore.failCmd.settle

theorem Keeps.eccMet {e} (h : Keeps s t) : Keeps s (t.eccMet e) := .ite h.updCore h

theorem Keeps.dmaBad {key eng pc status detail} (h : Keeps s t) : Keeps s (t.dmaBad key eng pc status detail) :=
  .ite h.updCore.programFault (.ite h.programFault h.dmaFailed)

theorem Keeps.dmaMove {key eng w x d} (h : Keeps s t) : Keeps s (t.dmaMove key eng w x d) := by
  unfold State.dmaMove
  dsimp only
  split
  · exact h
  · next heq => exact Keeps.dmaBad (.ite h (h.moveDesc.bad heq))
  · next heq => exact (Keeps.foldl (fun _ _ hu => hu.openRange) (h.moveDesc.ok heq)).updCore

theorem Keeps.dmaStart {key eng ecc} (h : Keeps s t) : Keeps s (t.dmaStart key eng ecc) := by
  unfold State.dmaStart
  dsimp only
  split
  · split
    · exact h
    · split
      · exact h.programFault
      · exact h
      · split
        · exact h
        · exact .ite (Keeps.foldl (fun _ _ hu => hu.eccMet) h) ((Keeps.foldl (fun _ _ hu => hu.eccMet) h).dmaMove)
  · exact h

theorem execDmaDescriptorStart_steps {core eng errs ecc} : Steps s (execDmaDescriptorStart core eng errs ecc s) :=
  have h : Keeps s s := .refl s
  .next (.ite (h.strike.onCore fun _ => h.strike.dmaStart) h.strike)

theorem Keeps.settleRace {raced off bs} (h : Keeps s t) : Keeps s (t.settleRace raced off bs).2 := by
  unfold State.settleRace
  dsimp only
  split
  · exact h
  · exact h.freeBytes

theorem Keeps.settleArrivals {raced xs} (h : Keeps s t) : Keeps s (t.settleArrivals raced xs).2 := by
  induction xs generalizing t with
  | nil => exact h
  | cons a xs ih => exact ih h.settleRace

theorem Keeps.deliverAll {w raced ds} (h : Keeps s t) : (t.deliverAll w raced ds).Keeps s := by
  induction ds generalizing t with
  | nil => exact h
  | cons d ds ih => exact h.settleRace.writeEng.bind fun _ _ hu => ih hu

theorem Keeps.dmaFinish {key eng w d rest} (h : Keeps s t) : Keeps s (t.dmaFinish key eng w d rest) := by
  unfold State.dmaFinish
  dsimp only
  split
  · exact h
  · next heq => exact (h.deliverAll.bad heq).dmaBad
  · next heq => exact (h.deliverAll.ok heq).settleArrivals.updCore

theorem execDmaComplete_steps {core eng} : Steps s (execDmaComplete core eng s) := by
  have h : Keeps s s := .refl s
  unfold execDmaComplete
  dsimp only
  refine .next ?_
  split
  · refine h.onCore (fun k => ?_)
    split
    · exact .ite h.dmaFinish h
    · exact h
  · exact h

theorem Keeps.releaseHeld {key} (h : Keeps s t) : Keeps s (t.releaseHeld key) :=
  Keeps.foldl (fun _ _ hu => hu.noteRecovery) h.updCores

/-! ### Quota -/

theorem Keeps.finishOut {c k addr bs f} (h : Keeps s t) : Keeps s (t.finishOut c k addr bs f) := by
  unfold State.finishOut
  split
  · next heq => exact (h.output.fst heq).endCmd
  · next heq => exact h.output.fst heq

theorem Keeps.quotaSet {c k p h'} (h : Keeps s t) : Keeps s (t.quotaSet c k p h') := by
  unfold State.quotaSet
  dsimp only
  split
  · exact h
  · exact .ite (.ite h.endCmd (.ite h.endCmd (.ite h.refuseLocked h.updPart.endCmd))) (.ite h.endCmd (.ite h.updCtx.endCmd
        h.endCmd))

theorem execOpQuotaSet_steps {c} : Steps s (execOpQuotaSet c s) :=
  have h : Keeps s s := .refl s
  .next (h.gate fun _ _ _ _ hu => hu.quotaSet)

theorem execOpQuotaStat_steps {c} : Steps s (execOpQuotaStat c s) :=
  have h : Keeps s s := .refl s
  .next (h.gate fun _ _ _ _ hu => .ite hu.endCmd hu.finishOut)

/-! ### Capture -/

theorem Keeps.updCapPort {n f} (h : Keeps s t) : Keeps s (t.updCapPort n f) := h.frame rfl

theorem Keeps.capAssign {c k p} (h : Keeps s t) : Keeps s (t.capAssign c k p) := by
  unfold State.capAssign
  dsimp only
  split
  · exact h.endCmd
  · exact .ite h.endCmd (.ite h.endCmd (.ite h.endCmd (((Keeps.foldl (fun _ _ hu => hu.updStream) h).updCapPort).endCmd)))

theorem execOpCapAssign_steps {c} : Steps s (execOpCapAssign c s) :=
  have h : Keeps s s := .refl s
  .next (h.gate fun _ _ _ _ hu => hu.capAssign)

theorem Keeps.capAreas {p x n cfg} (h : Keeps s t) : ∀ a ∈ t.capAreas p x n cfg, Keeps s a := by
  have placed {u : State} (hu : Keeps s u) {size : Nat} : ∀ a ∈ (u.placeFw p .capture n size 0x10000).map Prod.snd, Keeps s a :=
    .map (k := id) hu.placeFw fun _ ha => ha
  unfold State.capAreas
  dsimp only
  split
  · exact .nothing _
  · refine .bind (g := id) ?_ fun _ hu => placed hu
    split
    · exact .just (f := id) h.dropFw.updStream
    · exact placed h.dropFw.updStream

theorem Keeps.capConfig {c k p h'} (h : Keeps s t) : Keeps s (t.capConfig c k p h') := by
  unfold State.capConfig
  dsimp only
  split
  · exact h.endCmd
  · split
    · split
      · exact h.endCmd
      · split
        · exact h.endCmd
        · split
          · exact h
          · next heq => exact (h.readEng.bad heq).endCmd
          · next heq =>
            have hok := h.readEng.ok heq
            split
            · exact hok.endCmd
            · exact hok.updStream.endCmd
    · split
      · exact h.endCmd
      · split
        · exact h.endCmd
        · split
          · exact h
          · next heq => exact (h.readEng.bad heq).endCmd
          · next heq =>
            have hok := h.readEng.ok heq
            split
            · exact hok.endCmd
            · split
              · exact hok.endCmd
              · next heq => exact ((Keeps.of hok.capAreas heq).updStream).endCmd

theorem execOpCapConfig_steps {c} : Steps s (execOpCapConfig c s) :=
  have h : Keeps s s := .refl s
  .next (h.gate fun _ _ _ _ hu => hu.capConfig)

theorem Keeps.capWrites {w xs} (h : Keeps s t) : Keeps s (t.capWrites w xs).1 := by
  induction xs generalizing t with
  | nil => exact h
  | cons x xs ih =>
    unfold State.capWrites
    split
    · next heq =>
      have hok := h.writeEng.ok heq
      exact ih (hok.frame rfl)
    · exact h
    · next heq =>
      have hbad := h.writeEng.bad heq
      split
      · exact ih (hbad.frame rfl)
      · exact hbad

theorem Keeps.capStart {c k p h'} (h : Keeps s t) : Keeps s (t.capStart c k p h') := by
  unfold State.capStart
  dsimp only
  split
  · exact h.endCmd
  · split
    · exact h.endCmd
    · split
      · next heq => exact (h.capWrites.fst heq).endCmd
      · next heq => exact (h.capWrites.fst heq).updStream.endCmd

theorem execOpCapStart_steps {c} : Steps s (execOpCapStart c s) :=
  have h : Keeps s s := .refl s
  .next (h.gate fun _ _ _ _ hu => hu.capStart)

theorem Keeps.capStop {c k p} (h : Keeps s t) : Keeps s (t.capStop c k p) := by
  unfold State.capStop
  dsimp only
  split
  · exact h.endCmd
  · split
    · exact h.endCmd
    · split
      · exact h.updStream.endCmd
      · exact h.startCmd.updStream
      · exact h.endCmd
      · exact h.endCmd
      · exact h.endCmd
      · exact h.endCmd

theorem execOpCapStop_steps {c} : Steps s (execOpCapStop c s) :=
  have h : Keeps s s := .refl s
  .next (h.gate fun _ _ _ _ hu => hu.capStop)

theorem Keeps.freeBuf {x b} (h : Keeps s t) : Keeps s (t.freeBuf x b).1 := h.takeFrees.capWrites

theorem Keeps.dropHead {n f o temporal exit_ stats} (h : Keeps s t) : Keeps s (t.dropHead n f o temporal exit_ stats) := by
  unfold State.dropHead
  dsimp only
  refine Keeps.updStream ?_
  split
  · exact h
  · exact h.freeBuf

theorem Keeps.leaveDropped {n k} (h : Keeps s t) : Keeps s (t.leaveDropped n k) := by
  induction k generalizing t with
  | zero => exact h
  | succ k ih =>
    unfold State.leaveDropped
    split
    · exact h
    · exact .ite (ih h.dropHead) h

theorem Keeps.abortFrames {n} (h : Keeps s t) : Keeps s (t.abortFrames n) := h.setStream.leaveDropped

theorem Keeps.faultStream {n} (h : Keeps s t) : Keeps s (t.faultStream n) := by
  unfold State.faultStream
  dsimp only
  split
  · exact h.abortFrames.updStream
  · exact h.abortFrames.updStream.updStream.endCmd

theorem Keeps.capRefused {n a} (h : Keeps s t) : Keeps s (t.capRefused n a) := h.faultStream.record

theorem Keeps.capDiscard {port corrected} (h : Keeps s t) : Keeps s (t.capDiscard port corrected) := h.updCapPort

theorem Keeps.truncateOpen {n} (h : Keeps s t) : Keeps s (t.truncateOpen n) := h.setStream.leaveDropped

theorem Keeps.beginCapFrame {n fn} (h : Keeps s t) : Keeps s (t.beginCapFrame n fn) := by
  unfold State.beginCapFrame
  dsimp only
  split
  · exact h.setStream
  · next heq =>
    have hnext := h.readEng.bad heq
    exact .ite hnext.setStream hnext.setStream.capRefused
  · next hread =>
    have hok := h.readEng.ok hread
    split
    · exact hok.setStream
    · split
      · next hlines => exact (hok.capWrites.fst hlines).setStream
      · next hlines => exact (hok.capWrites.fst hlines).setStream.capRefused

theorem execCsiFrameStart_steps {port vc fn corrected dt} : Steps s (execCsiFrameStart port vc fn corrected dt s) :=
  have h : Keeps s s := .refl s
  .next (.ite h.tick (.ite h.tick.capDiscard (Keeps.settle (.ite (Keeps.beginCapFrame (.ite h.tick.updStream.truncateOpen
      h.tick.updStream)) (.ite h.tick.updStream.truncateOpen h.tick.updStream)))))

theorem execCsiLongPacket_steps {port vc dt codes crcBad corrected backlog} : Steps s (execCsiLongPacket port vc dt codes crcBad
    corrected backlog s) :=
  have h : Keeps s s := .refl s
  .next (.ite h (.ite h.capDiscard (.ite h.setStream h.setStream)))

theorem execCsiOtherPacket_steps {port vc corrected} : Steps s (execCsiOtherPacket port vc corrected s) :=
  have h : Keeps s s := .refl s
  .next (.ite h (.ite h.capDiscard h.updStream))

theorem execCsiFrameEnd_steps {port vc corrected} : Steps s (execCsiFrameEnd port vc corrected s) :=
  have h : Keeps s s := .refl s
  .next (.ite h (.ite h.capDiscard h.updStream))

theorem execFrameTimeout_steps {stream} : Steps s (execFrameTimeout stream s) :=
  have h : Keeps s s := .refl s
  .next (.ite h (.ite h.truncateOpen.settle h.setStream.record))

theorem Keeps.spoiledFrame {planes} (h : Keeps s t) : Keeps s (t.spoiledFrame planes).2.2 := by
  have hplanes : Keeps s (planes.foldl (fun (a : List (List Byte) × State) p =>
      (a.1 ++ [(a.2.freeBytes p.length).1], (a.2.freeBytes p.length).2)) ([], t)).2 :=
    .foldlOn (g := Prod.snd) (b := ([], t)) (fun _ _ ha => Keeps.freeBytes ha) h
  exact hplanes.freeBytes

theorem Keeps.exitFrame {n f} (h : Keeps s t) : Keeps s (t.exitFrame n f) := by
  unfold State.exitFrame
  dsimp only
  refine .ite h.dropHead ?_
  have hs : Keeps s { t with freeCtr := t.freeCtr +
      (Pipe.statistics t.freeCtr (t.stream n).cfg (Pipe.run (t.stream n).cfg f.params f.lines (if (t.stream n).refValid then
        some ((rowsOf (t.stream n).cfg.width (t.stream n).cfg.height (t.stream n).ref).toArray) else none))).2 } := h.frame rfl
  split
  · exact Keeps.dropHead (.ite hs.updStream hs)
  · refine .ite (Keeps.dropHead (.ite hs.updStream hs)) ?_
    generalize hq : (if f.spoiled = true then State.spoiledFrame _ _ else _) = q
    have hmade : Keeps s q.2.2 := by
      rw [← hq]
      split
      · exact hs.spoiledFrame
      · exact hs
    split
    · next heq => exact (hmade.capWrites.fst heq).capRefused
    · next heq =>
      have hplanes := hmade.capWrites.fst heq
      refine .ite (Keeps.dropHead (.ite hplanes.updStream hplanes)) ?_
      split
      · next heq => exact (hplanes.capWrites.fst heq).capRefused
      · next heq =>
        have hstate := hplanes.capWrites.fst heq
        exact Keeps.updStream (.ite hstate.updStream hstate)

theorem execPipelineExit_steps {stream dt} : Steps s (execPipelineExit stream dt s) := by
  have h : Keeps s s := .refl s
  unfold execPipelineExit
  dsimp only
  refine .next ?_
  split
  · exact h.tick
  · exact .ite h.tick h.tick.exitFrame.leaveDropped.settle

theorem Keeps.writeList {w xs} (h : Keeps s t) : (t.writeList w xs).Keeps s := by
  induction xs generalizing t with
  | nil => exact h
  | cons x xs ih =>
    unfold State.writeList
    split
    · exact trivial
    · next heq => exact h.writeEng.bad heq
    · next heq => exact ih (h.writeEng.ok heq)

theorem Keeps.harvest {c k p h'} (h : Keeps s t) : Keeps s (t.harvest c k p h') := by
  unfold State.harvest
  dsimp only
  split
  · exact h.endCmd
  · split
    · exact h.endCmd
    · split
      · exact h
      · next heq => exact (h.writeList.bad heq).endCmd
      · next heq => exact (h.writeList.ok heq).updStream.endCmd

theorem execOpHarvest_steps {c} : Steps s (execOpHarvest c s) :=
  have h : Keeps s s := .refl s
  .next (h.gate fun _ _ _ _ hu => hu.harvest)

theorem execTsyncEdge_steps {dt} : Steps s (execTsyncEdge dt s) :=
  have h : Keeps s s := .refl s
  .next (.ite h.tick.beside h.tick)

theorem execTsyncLost_steps {dt} : Steps s (execTsyncLost dt s) :=
  have h : Keeps s s := .refl s
  .next (.ite (Keeps.event (h.tick.frame rfl)) h.tick)

/-! ### Span -/

theorem Keeps.setPort {n x} (h : Keeps s t) : Keeps s (t.setPort n x) := h.frame rfl

theorem Keeps.updPort {n f} (h : Keeps s t) : Keeps s (t.updPort n f) := h.setPort

theorem Keeps.portEvent {n} (h : Keeps s t) : Keeps s (t.portEvent n) := h.record

theorem Keeps.pushPacket {n pkt} (h : Keeps s t) : Keeps s (t.pushPacket n pkt) := h.updPort

theorem Keeps.pushTracked {n pkt} (h : Keeps s t) : Keeps s (t.pushTracked n pkt).1 := h.pushPacket

theorem Keeps.launch {o} (h : Keeps s t) : Keeps s (t.launch o) := by
  have hsent := Keeps.foldlOn (s := s) (g := Prod.fst) (l := o.packets t.span.engineId) (b := (t, o.flits))
    (f := fun (a : State × List OpFlit) pkt => ((a.1.pushTracked o.port pkt).1, a.2 ++ (a.1.pushTracked o.port pkt).2))
    (fun _ _ ha => ha.pushTracked) h
  exact hsent.frame rfl

theorem Keeps.dropOp {o} (h : Keeps s t) : Keeps s (t.dropOp o) := h.frame rfl

theorem Keeps.opFailed {o status detail} (h : Keeps s t) : Keeps s (t.opFailed o status detail) := by
  unfold State.opFailed
  dsimp only
  split
  · exact h.dropOp
  · exact .ite h.dropOp.endAtBoundary.settle h.dropOp.failCmd.settle

theorem Keeps.blur {o} (h : Keeps s t) : Keeps s (t.blur o) := Keeps.foldl (fun _ _ hu => hu.freeBytes.updPort) h

theorem Keeps.openSpan {k id dst} (h : Keeps s t) : Keeps s (t.openSpan k id dst) := by
  unfold State.openSpan
  exact h.freeBytes.updCore

theorem Keeps.opDone {o} (h : Keeps s t) : Keeps s (t.opDone o) := by
  unfold State.opDone
  dsimp only
  split
  · exact Keeps.updCore (.ite (Keeps.openSpan (.ite h.dropOp.blur h.dropOp)) (.ite h.dropOp.blur h.dropOp))
  · exact h.dropOp

theorem Keeps.reroute {n status} (h : Keeps s t) : Keeps s (t.reroute n status) := by
  unfold State.reroute
  refine Keeps.foldl (fun u x hu => ?_) h
  split
  · exact hu.dropOp.launch
  · exact hu.opFailed
  · exact hu

theorem Keeps.portDrained {n} (h : Keeps s t) : Keeps s (t.portDrained n) := .ite h.updPort.portEvent h

theorem Keeps.portDrainLimit {n} (h : Keeps s t) : Keeps s (t.portDrainLimit n) := .ite h h.reroute.portDrained

theorem Keeps.train {n} (h : Keeps s t) : Keeps s (t.train n) := .ite h.updPort.portEvent.reroute h.updPort.portEvent

theorem execLaneFailing_steps {port lane} : Steps s (execLaneFailing port lane s) :=
  have h : Keeps s s := .refl s
  .next (.ite h (.ite (.ite h.setPort.train h.setPort) (.ite h.setPort.train h.setPort)))

theorem Keeps.spareRequest {n lane} (h : Keeps s t) : Keeps s (t.spareRequest n lane) :=
  .ite h (.ite h.setPort (.ite h (.ite h.updPort.train h.setPort)))

theorem execLaneSpareRequest_steps {port lane} : Steps s (execLaneSpareRequest port lane s) :=
  have h : Keeps s s := .refl s
  .next (.ite h h.spareRequest)

theorem execPortTrainingDone_steps {port lanes peerEngine peerPort room} : Steps s (execPortTrainingDone port lanes peerEngine
    peerPort room s) :=
  have h : Keeps s s := .refl s
  .next (.ite h (.ite h.setPort.portEvent.reroute.updPort h.setPort.portEvent))

theorem execPortRetryTimer_steps {port} : Steps s (execPortRetryTimer port s) :=
  have h : Keeps s s := .refl s
  .next (.ite h.train h)

theorem Keeps.reply {n k op status arg payload} (h : Keeps s t) : Keeps s (t.reply n k op status arg payload) := h.pushPacket

theorem Keeps.countDenied {n code detail} (h : Keeps s t) : Keeps s (t.countDenied n code detail) := h.updPort.record

theorem Keeps.refuse {n k status} (h : Keeps s t) : Keeps s (t.refuse n k status) := h.countDenied.reply

theorem Keeps.duplicate {n k arg} (h : Keeps s t) : Keeps s (t.duplicate n k arg) := h.updPort.reply

theorem Keeps.appliedAt {key k} (h : Keeps s t) : Keeps s (t.appliedAt key k) := .ite (h.frame rfl) h

theorem Keeps.notify {k key} (h : Keeps s t) : Keeps s (t.notify k key) := by
  unfold State.notify
  split
  · exact .ite h.updCore h
  · exact h

theorem Keeps.performOp {n k who a key} (h : Keeps s t) : ∀ b ∈ t.performOp n k who a key, Keeps s b := by
  have done {r : Eng Unit} {op : Nat} {pay : List Byte} (hr : r.Keeps s) :
      ∀ b ∈ (match r with
        | .wait => none
        | .bad st _ t => some (t.reply n k 0xA (errStatus st) 0 [])
        | .ok _ t => some (((t.appliedAt (srcKey k) k).notify k (if op = 8 then key else none)).reply n k op 0 0 pay) : Option
            State),
        Keeps s b := by
    cases r with
    | wait => exact .nothing _
    | bad st d u => exact .just (Keeps.reply hr)
    | ok v u => exact .just (Keeps.appliedAt hr).notify.reply
  unfold State.performOp
  dsimp only
  split
  · split
    · exact .nothing _
    · next heq => exact .just (h.readEng.bad heq).reply
    · next hread => exact done (r := .ok () _) (op := 9) (h.readEng.ok hread)
  · split
    · exact .just h.duplicate
    · split
      · exact done (op := 8) h.writeEng
      · exact done (op := 8) (h.readEng.bind fun _ _ hu => hu.writeEng)

theorem Keeps.arriveOp {n k} (h : Keeps s t) : ∀ a ∈ t.arriveOp n k, Keeps s a := by
  unfold State.arriveOp
  split
  · exact Keeps.just h.refuse
  · split
    · exact Keeps.just h.refuse
    · split
      · exact Keeps.just h.refuse
      · split
        · exact Keeps.just h.refuse
        · split
          · exact Keeps.just h.refuse
          · split
            · exact Keeps.just h.refuse
            · split
              · exact Keeps.nothing _
              · split
                · exact Keeps.just h.refuse
                · exact h.performOp

theorem Keeps.forward {n k pkt} (h : Keeps s t) : Keeps s (t.forward n k pkt) := by
  unfold State.forward
  dsimp only
  split
  · exact h.reply
  · split
    · exact h.reply
    · split
      · exact h.updPort.pushPacket
      · exact h.reply

theorem Keeps.storeDigest {k} (h : Keeps s t) : Keeps s (t.storeDigest k) := h.updPart

theorem Keeps.sendSeg {o g gi rank idx seg bs} (h : Keeps s t) : Keeps s (t.sendSeg o g gi rank idx seg bs).1 := by
  unfold State.sendSeg
  split
  · exact h
  · split
    · exact h
    · exact h.launch

theorem Keeps.contribute {o g gi r j src} (h : Keeps s t) : Keeps s (t.contribute o g gi r j src).1 :=
  .foldlOn (g := Prod.fst) (fun acc _ ha => Keeps.foldlOn (g := Prod.fst) (b := (acc.1, acc.2.2)) (fun _ _ hb => Keeps.sendSeg hb)
      ha) h

theorem Keeps.setColl {old new} (h : Keeps s t) : Keeps s (t.setColl old new) := h.frame rfl

theorem Keeps.deliverColl {j bs} (h : Keeps s t) : Keeps s (t.deliverColl j bs) := by
  unfold State.deliverColl
  dsimp only
  split
  · exact h
  · exact Keeps.updCore (.ite ((Keeps.foldl (fun _ _ hu => hu.dropOp) (.ite (Keeps.foldl (fun _ _ hu => hu.blur) h) h)).openSpan)
        ((Keeps.foldl (fun _ _ hu => hu.dropOp) (.ite (Keeps.foldl (fun _ _ hu => hu.blur) h) h)).updCore))

theorem Keeps.openParts {parts r} (h : Keeps s t) : Keeps s (t.openParts parts r).1 := by
  refine .foldlOn (g := Prod.fst) (fun a j ha => .foldlOn (g := Prod.fst) (fun b sg hb => ?_) ha) h
  split
  · exact hb
  · exact Keeps.freeBytes hb

theorem Keeps.foldOwned {p g r} (h : Keeps s t) : Keeps s (t.foldOwned p g r).1 := by
  unfold State.foldOwned
  dsimp only
  split
  · split
    · exact h
    · refine Keeps.foldl (fun u q hu => ?_) h
      split
      · exact hu
      · exact Keeps.foldl (fun _ _ hv => hv.sendSeg) hu
  · exact h

theorem execCollectiveComplete_steps {part group} : Steps s (execCollectiveComplete part group s) := by
  have h : Keeps s s := .refl s
  unfold execCollectiveComplete
  dsimp only
  refine .next ?_
  split
  · exact h
  · split
    · exact h
    · split
      · exact h
      · split
        · exact h.openParts.foldOwned.setColl
        · exact (Keeps.foldl (fun _ _ hu => hu.deliverColl) h.openParts.foldOwned.setColl).setColl

theorem Keeps.takeSeg {n k r slot} (h : Keeps s t) : Keeps s (t.takeSeg n k r slot) := .ite h.setColl.reply h.duplicate

theorem Keeps.arriveColl {n k} (h : Keeps s t) : Keeps s (t.arriveColl n k) := by
  unfold State.arriveColl
  dsimp only
  split
  · exact h.refuse
  · split
    · exact h.storeDigest
    · split
      · exact h.refuse
      · split
        · exact h.refuse
        · split
          · exact h.takeSeg
          · split
            · exact h.duplicate
            · split
              · exact h
              · split
                · exact h.appliedAt.setColl.takeSeg
                · exact Keeps.takeSeg (h.appliedAt.frame rfl)

theorem Keeps.arriveSurvivor {n k} (h : Keeps s t) : Keeps s (t.arriveSurvivor n k) := by
  unfold State.arriveSurvivor
  dsimp only
  split
  · split
    · exact h.refuse
    · split
      · exact .ite (Keeps.reply (h.frame rfl)) h
      · exact .ite (Keeps.reply (h.frame rfl)) h.duplicate
  · split
    · exact h.refuse
    · split
      · exact .ite (Keeps.reply (h.frame rfl)) h
      · exact .ite (Keeps.reply (h.frame rfl)) h.duplicate

theorem Keeps.answered {k} (h : Keeps s t) : Keeps s (t.answered k) := by
  unfold State.answered
  dsimp only
  split
  · exact h
  · exact .ite h.opFailed (.ite (.ite ((Keeps.beside (.ite h.updCore h)).portDrained) (.ite ((Keeps.dropOp (.ite h.updCore
        h)).portDrained) ((Keeps.opDone (.ite h.updCore h)).portDrained))) (Keeps.beside (.ite h.updCore h)))

theorem Keeps.strayOp {n k} (h : Keeps s t) : Keeps s (t.strayOp n k) := h.countDenied

theorem Keeps.arrive {n pkt} (h : Keeps s t) : ∀ a ∈ t.arrive n pkt, Keeps s a := by
  unfold State.arrive
  dsimp only
  split
  · exact Keeps.just h
  · split
    · exact Keeps.just h.strayOp
    · split
      · exact Keeps.just h.forward
      · split
        · exact Keeps.just h.arriveSurvivor
        · split
          · exact h.arriveOp
          · split
            · exact Keeps.just h.answered
            · split
              · exact Keeps.just h.answered
              · exact Keeps.just h.arriveColl

theorem Keeps.drainInbox {n} (h : Keeps s t) : Keeps s (t.drainInbox n) := by
  unfold State.drainInbox
  split
  · exact h
  · refine Keeps.updPort (.foldlOn (g := Prod.fst) (fun r pkt hr => ?_) ?_)
    · split
      · exact hr
      · split
        · next harrive => exact Keeps.of (Keeps.arrive hr) harrive
        · exact hr
    · dsimp only
      exact h.updPort

theorem Keeps.drainInboxes (h : Keeps s t) : Keeps s t.drainInboxes := Keeps.foldl (fun _ _ hu => hu.drainInbox) h

theorem Keeps.packetIn {n pkt} (h : Keeps s t) : Keeps s (t.packetIn n pkt) := .ite h h.updPort.drainInbox

theorem Keeps.idleFlit {n before} (h : Keeps s t) : Keeps s (t.idleFlit n before) := .ite h.updPort h

theorem execFlitReceive_steps {port flit uncorrectable corrected} : Steps s (execFlitReceive port flit uncorrectable corrected s)
    := by
  have h : Keeps s s := .refl s
  unfold execFlitReceive
  dsimp only
  refine .next ?_
  split
  · exact h
  · split
    · exact h.setPort
    · split
      · exact h.setPort
      · split
        · exact h.setPort.drainInbox.idleFlit
        · exact h.setPort
        · exact h.setPort.spareRequest
        · exact h.setPort

theorem execNakReceive_steps {port seq} : Steps s (execNakReceive port seq s) :=
  have h : Keeps s s := .refl s
  .next (.ite h h.updPort)

theorem execSpanPacketArrival_steps {port pkt} : Steps s (execSpanPacketArrival port pkt s) :=
  have h : Keeps s s := .refl s
  .next h.packetIn

theorem execSpanLocalCompletion_steps {port pkt} : Steps s (execSpanLocalCompletion port pkt s) :=
  have h : Keeps s s := .refl s
  .next (.ite h.packetIn h)

theorem execSpanTimeout_steps {core req} : Steps s (execSpanTimeout core req s) := by
  have h : Keeps s s := .refl s
  unfold execSpanTimeout
  dsimp only
  refine .next ?_
  split
  · exact h
  · exact Keeps.foldl (fun _ _ hu => hu.dropOp) h.opFailed

theorem Keeps.spanParam {k} (h : Keeps s t) : Keeps s (t.spanParam k) := by
  unfold State.spanParam
  split
  · exact h
  · exact h.failCmd.settle

theorem Keeps.beginSpan {k tag src dst} (h : Keeps s t) : Keeps s (t.beginSpan k tag src dst).2 := h.setCore.openSpan

theorem Keeps.issueOp {k p lpos tag bs} (h : Keeps s t) : Keeps s (t.issueOp k p lpos tag bs) := by
  unfold State.issueOp
  dsimp only
  split
  · exact h.beginSpan.opFailed
  · exact h.beginSpan.launch

theorem Keeps.collLost {k extra} (h : Keeps s t) : Keeps s (t.collLost k extra) := by
  unfold State.collLost
  split
  · exact h
  · exact h.endAtBoundary.settle

theorem Keeps.issueColl {k p lpos tag g bs} (h : Keeps s t) : Keeps s (t.issueColl k p lpos tag g bs) := by
  unfold State.issueColl
  extract_lets o w0 gi id idx base fresh recv rd s1 join mine again open_ span
  have hs1 : Keeps s s1 := h.beginSpan
  clear_value s1 open_
  refine .ite hs1.collLost ?_
  cases open_ with
  | none =>
    dsimp only
    generalize hc : State.contribute _ _ _ _ _ _ _ = q
    have hq : Keeps s q.1 := hc ▸ (Keeps.contribute (hs1.frame rfl))
    refine .ite hq.setColl.collLost ?_
    split
    · exact hq.setColl.deliverColl
    · exact hq.setColl
  | some r =>
    dsimp only
    generalize hc : State.contribute _ _ _ _ _ _ _ = q
    have hq : Keeps s q.1 := hc ▸ hs1.setColl.contribute
    refine .ite hq.setColl.collLost ?_
    split
    · exact hq.setColl.deliverColl
    · exact hq.setColl

theorem Keeps.spanIssue {k tag off} (h : Keeps s t) : ∀ a ∈ t.spanIssue k tag off, Keeps s a := by
  unfold State.spanIssue
  dsimp only
  split
  · exact Keeps.just h
  · split
    · exact Keeps.just h.spanParam
    · split
      · exact Keeps.nothing _
      · exact Keeps.nothing _
      · split
        · exact Keeps.just h.setCore.spanParam
        · split
          · exact Keeps.just h.setCore.issueOp
          · split
            · exact Keeps.just h.setCore.spanParam
            · exact Keeps.just h.setCore.issueColl

theorem execOpSpanConfig_steps {c} : Steps s (execOpSpanConfig c s) :=
  have h : Keeps s s := .refl s
  .next (h.gate fun _ _ _ _ hu => .ite hu.endCmd ((Keeps.foldl (fun _ _ hu => .ite hu.updPort.updPort.portEvent (.ite (.ite
      hu.updPort.updPort.portEvent.portDrained hu.updPort.updPort.portEvent) (.ite hu.updPort.train hu.updPort)))
      hu.beside).endCmd))

theorem execOpSpanRoute_steps {c} : Steps s (execOpSpanRoute c s) := by
  have h : Keeps s s := .refl s
  unfold execOpSpanRoute
  dsimp only
  refine .next ?_
  refine h.gate (fun s k p _ hu => ?_)
  split
  · exact hu
  · exact .ite hu.endCmd (.ite hu.refuseLocked (.ite hu hu.updPart.endCmd))

theorem execOpSpanWindow_steps {c} : Steps s (execOpSpanWindow c s) := by
  have h : Keeps s s := .refl s
  unfold execOpSpanWindow
  dsimp only
  refine .next ?_
  refine h.gate (fun s k p _ hu => ?_)
  split
  · exact hu
  · exact .ite hu.endCmd (.ite hu.refuseLocked (.ite hu hu.updPart.endCmd))

theorem Keeps.sendDigest {p gi m d} (h : Keeps s t) : Keeps s (t.sendDigest p gi m d) := by
  unfold State.sendDigest
  split
  · exact h
  · exact h.pushPacket

theorem execOpCollGroup_steps {c} : Steps s (execOpCollGroup c s) :=
  have h : Keeps s s := .refl s
  .next (h.gate fun _ _ _ _ hu => .ite hu.endCmd ((Keeps.foldl (fun _ _ hu => hu.sendDigest) hu.updPart).endCmd))

theorem execOpSpanStat_steps {c} : Steps s (execOpSpanStat c s) := by
  have h : Keeps s s := .refl s
  unfold execOpSpanStat
  dsimp only
  refine .next ?_
  refine h.gate (fun s k p _ hu => ?_)
  split
  · exact hu.endCmd
  · split
    · exact hu
    · exact Keeps.endCmd (.ite hu.output.updPort hu.output)

/-! ### Clocks -/

theorem Keeps.endPlanChange {d} (h : Keeps s t) : Keeps s (t.endPlanChange d) := by
  unfold State.endPlanChange
  dsimp only
  split
  · exact h
  · split
    · exact h.arriveAtOnce
    · split
      · exact h.arriveAtOnce
      · exact .ite h.arriveAtOnce.finishPlan h.arriveAtOnce

theorem Keeps.spanPllDown (h : Keeps s t) : Keeps s t.spanPllDown :=
  Keeps.foldl (fun _ _ hu => .ite hu (.ite hu.updPort.portEvent.reroute hu.updPort.portEvent)) h

theorem Keeps.enterCoast {n cause} (h : Keeps s t) : Keeps s (t.enterCoast n cause) := by
  have hplan : Keeps s (if n < 16 then t.endPlanChange n else t) := .ite h.endPlanChange h
  have hlock {u : State} (hu : Keeps s u) : Keeps s (if n = 16 then { u with tb := { u.tb with locked := false } } else u) := .ite
      (hu.frame rfl) hu
  exact .ite (hlock hplan.setPll) (hlock hplan.setPll).record

theorem execRefFailure_steps {pll refB} : Steps s (execRefFailure pll refB s) :=
  have h : Keeps s s := .refl s
  .next (.ite h (.ite h.setPll (.ite h.setPll.setPll (.ite h.setPll.setPll.spanPllDown h.setPll.enterCoast))))

theorem execRefGood_steps {pll refB} : Steps s (execRefGood pll refB s) := by
  have h : Keeps s s := .refl s
  unfold execRefGood
  dsimp only
  refine .next ?_
  split
  · split
    · exact h
    · split
      · exact h.setPll
      · split
        · exact h.setPll
        · exact h.setPll
        · exact .ite h.setPll (Keeps.foldl (fun _ _ hu => .ite hu.train hu) h.setPll)
        · exact h.setPll
        · exact h.setPll
  · split
    · exact h
    · split
      · exact h.setPll
      · split
        · exact h.setPll
        · exact h.setPll
        · exact .ite h.setPll (Keeps.foldl (fun _ _ hu => .ite hu.train hu) h.setPll)
        · exact h.setPll
        · exact h.setPll

theorem execSwitchoverLock_steps {pll} : Steps s (execSwitchoverLock pll s) :=
  have h : Keeps s s := .refl s
  .next (.ite h.setPll h)

theorem execCoastStep_steps {pll} : Steps s (execCoastStep pll s) := by
  have h : Keeps s s := .refl s
  unfold execCoastStep
  dsimp only
  refine .next ?_
  split
  · exact h
  · split
    · exact h.setPll
    · exact h.setPll
    · exact h
    · exact h
    · exact h

theorem execPllLockLoss_steps {die} : Steps s (execPllLockLoss die s) :=
  have h : Keeps s s := .refl s
  .next (.ite h h.setPll.enterCoast)

/-! ### CoreUnit -/

theorem Keeps.settleRes {k pc r} (h : Keeps s t) : Keeps s (t.settleRes k pc r) := by
  unfold State.settleRes
  split
  · exact h.setCore
  · exact h
  · exact h.programFault

theorem Keeps.issueWith {op waits f} (h : Keeps s t) (hf : ∀ u k, Keeps s u → Keeps s (f u k)) : Keeps s (t.issueWith op waits f)
    := by
  refine h.onCore fun k => ?_
  refine .ite h (.ite h.programFault ?_)
  split
  · exact hf t k h
  · exact hf _ k h.setCore
  · exact h.setCore
  · exact h.setCore

theorem Keeps.issue {op f} (h : Keeps s t) : Keeps s (t.issue op f) := h.issueWith fun _ _ hu => hu.settleRes

theorem execTNop_steps {op} : Steps s (execTNop op s) :=
  have h : Keeps s s := .refl s
  .next h.issue

theorem Keeps.endReport {k} (h : Keeps s t) : Keeps s (t.endReport k) := by
  unfold State.endReport
  split
  · exact h
  · exact h.updPart

theorem execTEnd_steps {op} : Steps s (execTEnd op s) := by
  have h : Keeps s s := .refl s
  unfold execTEnd
  refine .next ?_
  refine h.issueWith (fun t k hu => ?_)
  split
  · exact hu.setCore.endReport
  · exact hu.settleRes

theorem execTJmp_steps {op} : Steps s (execTJmp op s) :=
  have h : Keeps s s := .refl s
  .next h.issue

theorem execTBr_steps {op} : Steps s (execTBr op s) :=
  have h : Keeps s s := .refl s
  .next h.issue

theorem execTLoop_steps {op} : Steps s (execTLoop op s) :=
  have h : Keeps s s := .refl s
  .next h.issue

theorem execTTrap_steps {op} : Steps s (execTTrap op s) :=
  have h : Keeps s s := .refl s
  .next h.issue

theorem execTMovi_steps {op} : Steps s (execTMovi op s) :=
  have h : Keeps s s := .refl s
  .next h.issue

theorem execTAdd_steps {op} : Steps s (execTAdd op s) :=
  have h : Keeps s s := .refl s
  .next h.issue

theorem execTAddi_steps {op} : Steps s (execTAddi op s) :=
  have h : Keeps s s := .refl s
  .next h.issue

theorem execTSub_steps {op} : Steps s (execTSub op s) :=
  have h : Keeps s s := .refl s
  .next h.issue

theorem execTMul_steps {op} : Steps s (execTMul op s) :=
  have h : Keeps s s := .refl s
  .next h.issue

theorem execTAnd_steps {op} : Steps s (execTAnd op s) :=
  have h : Keeps s s := .refl s
  .next h.issue

theorem execTOr_steps {op} : Steps s (execTOr op s) :=
  have h : Keeps s s := .refl s
  .next h.issue

theorem execTShl_steps {op} : Steps s (execTShl op s) :=
  have h : Keeps s s := .refl s
  .next h.issue

theorem execTShr_steps {op} : Steps s (execTShr op s) :=
  have h : Keeps s s := .refl s
  .next h.issue

theorem execTLdx_steps {op} : Steps s (execTLdx op s) :=
  have h : Keeps s s := .refl s
  .next h.issue

theorem execTStx_steps {op} : Steps s (execTStx op s) :=
  have h : Keeps s s := .refl s
  .next h.issue

theorem execTRdc_steps {op} : Steps s (execTRdc op s) :=
  have h : Keeps s s := .refl s
  .next (h.issueWith fun _ _ hu => .ite hu.takeFree.settleRes hu.settleRes)

theorem execTLds_steps {op} : Steps s (execTLds op s) :=
  have h : Keeps s s := .refl s
  .next h.issue

theorem execLoadReady_steps {core} : Steps s (execLoadReady core s) :=
  have h : Keeps s s := .refl s
  .next (h.onCore fun _ => h.updCore)

theorem execTSwp_steps {op} : Steps s (execTSwp op s) :=
  have h : Keeps s s := .refl s
  .next h.issue

theorem execTPass_steps {op} : Steps s (execTPass op s) :=
  have h : Keeps s s := .refl s
  .next h.issue

theorem execTTpass_steps {op} : Steps s (execTTpass op s) :=
  have h : Keeps s s := .refl s
  .next h.issue

theorem execPassComplete_steps {core chk} : Steps s (execPassComplete core chk s) :=
  have h : Keeps s s := .refl s
  .next (h.onCore fun _ => h.updCore)

theorem execArrayRampDown_steps {core} : Steps s (execArrayRampDown core s) :=
  have h : Keeps s s := .refl s
  .next (h.onCore fun _ => h.updCore)

theorem execArrayGated_steps {core} : Steps s (execArrayGated core s) :=
  have h : Keeps s s := .refl s
  .next (h.onCore fun _ => h.updCore)

theorem execTFlush_steps {op} : Steps s (execTFlush op s) :=
  have h : Keeps s s := .refl s
  .next h.issue

theorem execTAclr_steps {op} : Steps s (execTAclr op s) :=
  have h : Keeps s s := .refl s
  .next h.issue

theorem execTVld_steps {op} : Steps s (execTVld op s) :=
  have h : Keeps s s := .refl s
  .next h.issue

theorem execTVst_steps {op} : Steps s (execTVst op s) :=
  have h : Keeps s s := .refl s
  .next h.issue

theorem execGbIdleFlush_steps {core line} : Steps s (execGbIdleFlush core line s) :=
  have h : Keeps s s := .refl s
  .next (h.onCore fun _ => h.updCore)

theorem execTVlda_steps {op} : Steps s (execTVlda op s) :=
  have h : Keeps s s := .refl s
  .next h.issue

theorem execTVsta_steps {op} : Steps s (execTVsta op s) :=
  have h : Keeps s s := .refl s
  .next h.issue

theorem execTVadd_steps {op} : Steps s (execTVadd op s) :=
  have h : Keeps s s := .refl s
  .next h.issue

theorem execTVsub_steps {op} : Steps s (execTVsub op s) :=
  have h : Keeps s s := .refl s
  .next h.issue

theorem execTVmul_steps {op} : Steps s (execTVmul op s) :=
  have h : Keeps s s := .refl s
  .next h.issue

theorem execTVfma_steps {op} : Steps s (execTVfma op s) :=
  have h : Keeps s s := .refl s
  .next h.issue

theorem execTVmax_steps {op} : Steps s (execTVmax op s) :=
  have h : Keeps s s := .refl s
  .next h.issue

theorem execTVmin_steps {op} : Steps s (execTVmin op s) :=
  have h : Keeps s s := .refl s
  .next h.issue

theorem execTVcvt_steps {op} : Steps s (execTVcvt op s) :=
  have h : Keeps s s := .refl s
  .next h.issue

theorem execTVsplit_steps {op} : Steps s (execTVsplit op s) :=
  have h : Keeps s s := .refl s
  .next h.issue

theorem execTVred_steps {op} : Steps s (execTVred op s) :=
  have h : Keeps s s := .refl s
  .next h.issue

theorem execTQnt_steps {op} : Steps s (execTQnt op s) :=
  have h : Keeps s s := .refl s
  .next h.issue

theorem execTSfn_steps {op} : Steps s (execTSfn op s) :=
  have h : Keeps s s := .refl s
  .next h.issue

theorem execTStbl_steps {op} : Steps s (execTStbl op s) :=
  have h : Keeps s s := .refl s
  .next h.issue

theorem execTSmp_steps {op} : Steps s (execTSmp op s) :=
  have h : Keeps s s := .refl s
  .next h.issue

theorem execTSrow_steps {op} : Steps s (execTSrow op s) :=
  have h : Keeps s s := .refl s
  .next h.issue

theorem execTSsmx_steps {op} : Steps s (execTSsmx op s) :=
  have h : Keeps s s := .refl s
  .next h.issue

theorem execTStld_steps {op} : Steps s (execTStld op s) :=
  have h : Keeps s s := .refl s
  .next h.issue

theorem execTStst_steps {op} : Steps s (execTStst op s) :=
  have h : Keeps s s := .refl s
  .next h.issue

theorem execTSstep_steps {op} : Steps s (execTSstep op s) :=
  have h : Keeps s s := .refl s
  .next h.issue

theorem execTSout_steps {op} : Steps s (execTSout op s) :=
  have h : Keeps s s := .refl s
  .next h.issue

theorem execTDmaq_steps {op} : Steps s (execTDmaq op s) := by
  have h : Keeps s s := .refl s
  unfold execTDmaq
  dsimp only
  refine .next ?_
  refine h.issueWith (fun t k hu => ?_)
  split
  · exact .ite hu.settleRes.updCore hu.settleRes
  · exact hu.settleRes
  · exact hu.settleRes

theorem Keeps.pump {k port} (h : Keeps s t) : Keeps s (t.pump k port) := by
  unfold State.pump
  dsimp only
  split
  · exact h
  · exact h.setCore.updCore

theorem execTNbx_steps {op} : Steps s (execTNbx op s) := by
  have h : Keeps s s := .refl s
  unfold execTNbx
  dsimp only
  refine .next ?_
  refine h.issueWith (fun t k hu => ?_)
  split
  · exact hu.setCore.pump
  · exact hu.settleRes

theorem execNbBeatArrival_steps {core port parityBad} : Steps s (execNbBeatArrival core port parityBad s) := by
  have h : Keeps s s := .refl s
  unfold execNbBeatArrival
  dsimp only
  refine .next ?_
  split
  · exact h
  · split
    · exact h
    · split
      · split
        · exact h.setCore
        · exact h.setCore.updCore
      · split
        · exact h
        · split
          · split
            · split
              · exact h.takeFrees.updCore
              · exact h.updCore
            · split
              · exact h.takeFrees.updCore
              · exact h.updCore
          · split
            · split
              · exact h.takeFrees.updCore.pump
              · exact h.updCore.pump
            · split
              · exact h.takeFrees.updCore.pump
              · exact h.updCore.pump

theorem execTWait_steps {op} : Steps s (execTWait op s) :=
  have h : Keeps s s := .refl s
  .next (h.issueWith fun _ _ hu => hu.settleRes)

theorem execTCset_steps {op} : Steps s (execTCset op s) :=
  have h : Keeps s s := .refl s
  .next h.issue

theorem execTFence_steps {op} : Steps s (execTFence op s) :=
  have h : Keeps s s := .refl s
  .next h.issue

theorem execTBar_steps {op} : Steps s (execTBar op s) :=
  have h : Keeps s s := .refl s
  .next (h.issueWith fun _ _ hu => hu.settleRes)

theorem Keeps.release {g k} (h : Keeps s t) : Keeps s (t.release g k) := .ite h.settleRes h

theorem execBarRelease_steps {part group} : Steps s (execBarRelease part group s) := by
  have h : Keeps s s := .refl s
  unfold execBarRelease
  dsimp only
  refine .next ?_
  split
  · exact h
  · split
    · exact h
    · exact Keeps.foldl (fun _ _ hu => hu.release) h

theorem execTEvt_steps {op} : Steps s (execTEvt op s) := by
  have h : Keeps s s := .refl s
  unfold execTEvt
  dsimp only
  refine .next ?_
  refine h.issueWith (fun t k hu => ?_)
  split
  · exact hu.programFault
  · split
    · split
      · exact hu
      · next hissue => exact .ite (Keeps.of hu.spanIssue hissue) ((Keeps.of hu.spanIssue hissue).settleRes)
    · split
      · exact hu.settleRes
      · split
        · exact hu.setDie.settleRes
        · exact hu.updDie

theorem Keeps.returnHung {key} (h : Keeps s t) : Keeps s (t.returnHung key) := by
  unfold State.returnHung
  dsimp only
  split
  · exact h
  · exact h.updDie

theorem execWatchdogExpiry_steps {core} : Steps s (execWatchdogExpiry core s) :=
  have h : Keeps s s := .refl s
  .next (h.onCore fun _ => .ite h (.ite h.programFault.returnHung h.setCore))

theorem execClrRbw_steps {core} : Steps s (execClrRbw core s) :=
  have h : Keeps s s := .refl s
  .next (.ite h.updCore h)

theorem execClrWritten_steps {core} : Steps s (execClrWritten core s) :=
  have h : Keeps s s := .refl s
  .next (.ite h.updCore h)

theorem execZeroAll_steps {core} : Steps s (execZeroAll core s) :=
  have h : Keeps s s := .refl s
  .next (.ite h.updCore h)

theorem execZeroingDone_steps {core} : Steps s (execZeroingDone core s) :=
  have h : Keeps s s := .refl s
  .next (.ite h.updCore h)

theorem execClrStat_steps {core} : Steps s (execClrStat core s) :=
  have h : Keeps s s := .refl s
  .next (.ite h.updCore h)

theorem execClrCheck_steps {core} : Steps s (execClrCheck core s) :=
  have h : Keeps s s := .refl s
  .next (.ite h.updCore h)

theorem execGo_steps {core val} : Steps s (execGo core val s) :=
  have h : Keeps s s := .refl s
  .next (h.onCore fun _ => .ite h.updCore h)

theorem execBankPwrWrite_steps {core val} : Steps s (execBankPwrWrite core val s) :=
  have h : Keeps s s := .refl s
  .next (.ite h.updCore h)

theorem execBankWakeEnd_steps {core bank} : Steps s (execBankWakeEnd core bank s) :=
  have h : Keeps s s := .refl s
  .next (.ite h.updCore h)

theorem execBankScrubEnd_steps {core bank} : Steps s (execBankScrubEnd core bank s) :=
  have h : Keeps s s := .refl s
  .next (.ite h.updCore.drainInboxes h)

theorem execBankPowerOff_steps {core bank} : Steps s (execBankPowerOff core bank s) :=
  have h : Keeps s s := .refl s
  .next (.ite h.updCore h)

theorem execCoreReset_steps {core} : Steps s (execCoreReset core s) :=
  have h : Keeps s s := .refl s
  .next (.ite h (.ite h.updCore (.ite h.updCore h)))

/-! ### HostRegs -/

theorem execBar0BadAccess_steps {write len} : Steps s (execBar0BadAccess write len s) :=
  have h : Keeps s s := .refl s
  .next (.ite h.event h.event.answer)

theorem Keeps.mirrorHit {part} (h : Keeps s t) : Keeps s (t.mirrorHit part) := .ite h.record h

theorem execMirrorWrite_steps {part} : Steps s (execMirrorWrite part s) :=
  have h : Keeps s s := .refl s
  .next h.mirrorHit

theorem Keeps.sqEnable {b r val} (h : Keeps s t) : Keeps s (t.sqEnable b r val) := .ite h (.ite h.updSq h.updSq)

theorem Keeps.sqDisable {b r} (h : Keeps s t) : Keeps s (t.sqDisable b r) := .ite h.updSq.sqDrained.settle h

theorem Keeps.cqEnable {b r val} (h : Keeps s t) : Keeps s (t.cqEnable b r val) := .ite h.updCq (.ite h.updCq h.updCq)

theorem Keeps.cqDisable {b r} (h : Keeps s t) : Keeps s (t.cqDisable b r) := by
  unfold State.cqDisable
  dsimp only
  split
  · exact h
  · refine ((Keeps.foldl (fun u x hu => ?_) h).updCq).settle
    split
    · exact hu
    · exact hu.dropCmd

theorem execSqEnable_steps {blk ring val} : Steps s (execSqEnable blk ring val s) :=
  have h : Keeps s s := .refl s
  .next (.ite h.sqEnable h)

theorem execSqDisable_steps {blk ring} : Steps s (execSqDisable blk ring s) :=
  have h : Keeps s s := .refl s
  .next (.ite h.sqDisable h)

theorem execCqEnable_steps {blk ring val} : Steps s (execCqEnable blk ring val s) :=
  have h : Keeps s s := .refl s
  .next (.ite h.cqEnable h)

theorem execCqDisable_steps {blk ring} : Steps s (execCqDisable blk ring s) :=
  have h : Keeps s s := .refl s
  .next (.ite h.cqDisable h)

theorem Keeps.doorbellErr {b r} (h : Keeps s t) : Keeps s (t.doorbellErr b r) := h.updSq

theorem Keeps.sqTail {b r val} (h : Keeps s t) : Keeps s (t.sqTail b r val) := .ite h.doorbellErr h.updSq

theorem Keeps.cqHead {b r val} (h : Keeps s t) : Keeps s (t.cqHead b r val) := .ite h.doorbellErr h.updCq

theorem Keeps.hostStores {ws} (h : Keeps s t) : Keeps s (t.hostStores ws) := Keeps.foldl (fun _ _ hu => (hu.frame rfl)) h

theorem Keeps.hostGrant {g} (h : Keeps s t) : Keeps s (t.hostGrant g) := .ite (h.frame rfl) (h.frame rfl)

theorem execSqTailWrite_steps {blk ring val mem iommu} : Steps s (execSqTailWrite blk ring val mem iommu s) :=
  have h : Keeps s s := .refl s
  .next (.ite ((Keeps.foldl (fun _ _ hu => hu.hostGrant) h.hostStores).sqTail) (Keeps.foldl (fun _ _ hu => hu.hostGrant)
      h.hostStores))

theorem execCqHeadWrite_steps {blk ring val} : Steps s (execCqHeadWrite blk ring val s) :=
  have h : Keeps s s := .refl s
  .next (.ite h.cqHead h)

theorem Keeps.clrCounts {b} (h : Keeps s t) : Keeps s (t.clrCounts b) := Keeps.foldl (fun _ _ hu => hu.updSq) h.updBlock

theorem execClrCounts_steps {blk} : Steps s (execClrCounts blk s) :=
  have h : Keeps s s := .refl s
  .next (.ite h.clrCounts h)

theorem Keeps.stewardReset {cause} (h : Keeps s t) : Keeps s (t.stewardReset cause) := .ite h (Keeps.updBlock (Keeps.updBlock (Keeps.updBlock (h.frame rfl))))

theorem execStwReset_steps : Steps s (execStwReset s) :=
  have h : Keeps s s := .refl s
  .next (.ite h.stewardReset h)

theorem Keeps.clrLost (h : Keeps s t) : Keeps s t.clrLost := h.frame rfl

theorem execClrLost_steps : Steps s (execClrLost s) :=
  have h : Keeps s s := .refl s
  .next h.clrLost

theorem Keeps.evtCons {val} (h : Keeps s t) : Keeps s (t.evtCons val) := .ite h (h.frame rfl)

theorem execEvtConsWrite_steps {val} : Steps s (execEvtConsWrite val s) :=
  have h : Keeps s s := .refl s
  .next (.ite h.evtCons h)

theorem execTimebaseLoRead_steps {dt} : Steps s (execTimebaseLoRead dt s) :=
  have h : Keeps s s := .refl s
  .next (.ite (Keeps.answer (h.tick.frame rfl)) h.tick.answer)

theorem Keeps.clrStepped (h : Keeps s t) : Keeps s t.clrStepped := h.frame rfl

theorem execSteppedClear_steps : Steps s (execSteppedClear s) :=
  have h : Keeps s s := .refl s
  .next (.ite h.clrStepped h)

theorem Keeps.clrTripped (h : Keeps s t) : Keeps s t.clrTripped := h.frame rfl

theorem execTrippedClear_steps : Steps s (execTrippedClear s) :=
  have h : Keeps s s := .refl s
  .next h.clrTripped

theorem Keeps.clkoutWrite {n val} (h : Keeps s t) : Keeps s (t.clkoutWrite n val) := .ite h (.ite (h.frame rfl) (.ite (h.frame rfl) h))

theorem execClkoutCtrlWrite_steps {n val} : Steps s (execClkoutCtrlWrite n val s) :=
  have h : Keeps s s := .refl s
  .next (.ite h.clkoutWrite h)

theorem Keeps.ringWrite {b r o val} (h : Keeps s t) : Keeps s (t.ringWrite b r o val) :=
  .ite (.ite h.updSq h) (.ite (.ite h.updSq h) (.ite (.ite h.sqEnable (.ite h.updSq h.sqDisable)) (.ite h.sqTail (.ite (.ite
      h.updCq h) (.ite (.ite h.updCq h) (.ite (.ite h.cqEnable (.ite h.updCq.updCq (.ite h.updCq.cqDisable h))) (.ite h.cqHead
      (.ite h.updCq h))))))))

theorem Keeps.blockWrite {b o val} (h : Keeps s t) : Keeps s (t.blockWrite b o val) :=
  .ite (.ite h.clrCounts h) (.ite h.updBlock (.ite h.ringWrite h))

theorem Keeps.stwCtrl {val} (h : Keeps s t) : Keeps s (t.stwCtrl val) :=
  .ite (Keeps.stewardReset (.ite h.clrLost h)) (.ite h.clrLost h)

theorem Keeps.msixWrite {fn o val} (h : Keeps s t) : Keeps s (t.msixWrite fn o val) := h.frame rfl

theorem Keeps.pfWrite {o val} (h : Keeps s t) : Keeps s (t.pfWrite o val) :=
  .ite (h.frame rfl) (.ite (h.frame rfl) (.ite (.ite h.clrStepped h) (.ite h.clkoutWrite (.ite h.clkoutWrite (.ite h.evtCons (.ite (h.frame rfl)
      (.ite h.blockWrite (.ite (.ite h.mirrorHit h.blockWrite) (.ite h.msixWrite h)))))))))

theorem Keeps.bar0Write {fn o val} (h : Keeps s t) : Keeps s (t.bar0Write fn o val) :=
  .ite h.stwCtrl (.ite (.ite h.clrTripped h) (.ite h (.ite h.pfWrite (.ite h.blockWrite (.ite h.msixWrite h)))))

theorem execRegWrite_steps {at_ val} : Steps s (execRegWrite at_ val s) := by
  have h : Keeps s s := .refl s
  unfold execRegWrite
  dsimp only
  refine .next ?_
  split
  · exact .ite h.bar0Write h
  · exact .ite h.updCore h
  · exact .ite h.record h

theorem Keeps.logRefusal {p a} (h : Keeps s t) : Keeps s (t.logRefusal p a) := h.record

theorem Keeps.apRead {a n} (h : Keeps s t) : Keeps s (t.apRead a n).2 := by
  unfold State.apRead
  split
  · exact h
  · exact .ite h.logRefusal h
  · split
    · next heq => exact h.takeFrees.snd heq
  · split
    · next heq => exact h.readCodeword.snd heq
    · next heq => exact h.readCodeword.snd heq

theorem Keeps.apReads {ps} (h : Keeps s t) : Keeps s (t.apReads ps).2 := by
  induction ps generalizing t with
  | nil => exact h
  | cons p ps ih => exact ih h.apRead

theorem execApertureRead_steps {off len errs} : Steps s (execApertureRead off len errs s) := by
  have h : Keeps s s := .refl s
  unfold execApertureRead
  refine .next ?_
  split
  · exact h
  · split
    · next heq => exact (h.strike.apReads.snd heq).answer

theorem Keeps.apWrite {a bs} (h : Keeps s t) : Keeps s (t.apWrite a bs) := by
  unfold State.apWrite
  dsimp only
  split
  · exact h
  · exact h
  · exact .ite h.logRefusal h
  · split
    · next heq => exact Keeps.spoil ((h.mergeCodeword.snd heq).frame rfl)
    · next heq => exact h.mergeCodeword.snd heq

theorem execApertureWrite_steps {off data} : Steps s (execApertureWrite off data s) :=
  have h : Keeps s s := .refl s
  .next (.ite h (Keeps.foldl (fun _ _ hu => hu.apWrite) h))

theorem Keeps.slotRead {b q i} (h : Keeps s t) : (t.slotRead b q i).Keeps s := by
  unfold State.slotRead
  dsimp only
  split
  · split
    · exact h
    · exact h.readEng
  · split
    · exact h
    · exact h

theorem Keeps.fetchFault {b r status detail} (h : Keeps s t) : Keeps s (t.fetchFault b r status detail) := h.updSq.deliver

theorem Keeps.copyPacket {b r packet slots} (h : Keeps s t) : Keeps s (t.copyPacket b r packet slots) :=
  .ite h.updSq.updBlock.updSq.endCmd (.ite h.updSq.updBlock.updSq.endCmd h.updSq.updBlock)

theorem Keeps.fetch {b r} (h : Keeps s t) : Keeps s (t.fetch b r) := by
  have all {u : State} (hu : Keeps s u) {q head is} :
      (Machine.engAll (fun (t : State) i => t.slotRead b q (head + i)) u is).Keeps s := hu.engAll fun _ _ hv => hv.slotRead
  unfold State.fetch
  dsimp only
  split
  · exact h
  · next heq => exact (h.updBlock.slotRead.bad heq).fetchFault.settle
  · next heq =>
    have hok := h.updBlock.slotRead.ok heq
    split
    · exact h
    · next hall => exact ((all hok).bad hall).fetchFault.settle
    · next hall => exact ((all hok).ok hall).copyPacket.settle

theorem execPacketFetch_steps {blk ring} : Steps s (execPacketFetch blk ring s) :=
  have h : Keeps s s := .refl s
  .next (.ite h.fetch h)

theorem execCqHeldRecordWrite_steps {blk ring} : Steps s (execCqHeldRecordWrite blk ring s) := by
  have h : Keeps s s := .refl s
  unfold execCqHeldRecordWrite
  dsimp only
  refine .next ?_
  split
  · exact h
  · exact .ite h h.updCq.writeRecord.settle

theorem execCqIrqDelayExpiry_steps {blk ring} : Steps s (execCqIrqDelayExpiry blk ring s) :=
  have h : Keeps s s := .refl s
  .next (.ite h.signalCq h)

/-! ### Sensors -/

theorem Keeps.setSensor {id x} (h : Keeps s t) : Keeps s (t.setSensor id x) := h.frame rfl

/-! ### Power -/

theorem Keeps.setSol {o} (h : Keeps s t) : Keeps s (t.setSol o) := h.frame rfl

theorem execThrottleStep_steps : Steps s (execThrottleStep s) :=
  have h : Keeps s s := .refl s
  .next (.ite h (Keeps.foldl (fun _ _ hu => .ite hu.updSteps hu) h.setSol))

theorem execThrottleRecovery_steps : Steps s (execThrottleRecovery s) :=
  have h : Keeps s s := .refl s
  .next (.ite h (Keeps.foldl (fun _ _ hu => .ite hu.updSteps hu) h))

theorem Keeps.writeBins (h : Keeps s t) : Keeps s t.writeBins := h.frame rfl

theorem execWearBinWrite_steps {dt newHour} : Steps s (execWearBinWrite dt newHour s) :=
  have htick : Keeps s (s.tick dt) := (Keeps.refl s).tick
  .next (.ite htick (Keeps.writeBins (htick.frame rfl)))

theorem Keeps.endEpisode (h : Keeps s t) : Keeps s t.endEpisode := Keeps.foldl (fun _ _ hu => hu.finish) (Keeps.writeBins (Keeps.setSol (h.frame rfl)))

theorem Keeps.fallOne (h : Keeps s t) : Keeps s t.fallOne := .ite h.setSol.endEpisode h.setSol

theorem Keeps.endRequest (h : Keeps s t) : Keeps s t.endRequest := by
  unfold State.endRequest
  dsimp only
  split
  · exact h
  · exact h.setSol.finish

theorem Keeps.beginStepdown {cause} (h : Keeps s t) : Keeps s (t.beginStepdown cause) := h.endRequest.setSol.record.fallOne

theorem Keeps.rampDone (h : Keeps s t) : Keeps s t.rampDone := .ite h (.ite h.endRequest.setSol h.beginStepdown)

theorem execSolsticeRampStep_steps {dt} : Steps s (execSolsticeRampStep dt s) :=
  have h : Keeps s s := .refl s
  .next (.ite h.tick h.tick.setSol.rampDone)

theorem execStepdownStep_steps {dt} : Steps s (execStepdownStep dt s) :=
  have h : Keeps s s := .refl s
  .next (.ite h.tick.fallOne h.tick)

theorem execSolsticeDurationExpiry_steps : Steps s (execSolsticeDurationExpiry s) :=
  have h : Keeps s s := .refl s
  .next (.ite h (.ite h.beginStepdown (.ite h.beginStepdown h)))

theorem Keeps.boost {c k} (h : Keeps s t) : Keeps s (t.boost c k) := by
  unfold State.boost
  dsimp only
  split
  · exact h.endCmd
  · split
    · exact .ite h.endCmd (.ite h.startCmd.setSol.beginStepdown h.startCmd.setSol)
    · split
      · exact h.endCmd
      · split
        · split
          · exact h.endCmd
          · split
            · exact h.endCmd
            · exact .ite h.endCmd h.startCmd.setSol.rampDone
        · split
          · exact h.endCmd
          · split
            · exact h.endCmd
            · exact .ite h.endCmd h.startCmd.setSol.rampDone

theorem execOpBoost_steps {c} : Steps s (execOpBoost c s) :=
  have h : Keeps s s := .refl s
  .next (h.gate fun _ _ _ _ hu => hu.boost)

theorem Keeps.boostDrainLimit (h : Keeps s t) : Keeps s t.boostDrainLimit := by
  unfold State.boostDrainLimit
  dsimp only
  split
  · exact h
  · exact .ite h h.setSol.endAtBoundary.beginStepdown

theorem Keeps.crossings {id val old new} (h : Keeps s t) : Keeps s (t.crossings id val old new) :=
  .ite (Keeps.record (.ite h.record h)) (.ite h.record h)

theorem Keeps.flashPause {id v} (h : Keeps s t) : Keeps s (t.flashPause id v) := .ite h (h.frame rfl)

theorem Keeps.powerSample {id w} (h : Keeps s t) : Keeps s (t.powerSample id w) := .ite (h.frame rfl) h

theorem Keeps.sample {id val outside} (h : Keeps s t) : Keeps s (t.sample id val outside) := by
  unfold State.sample
  dsimp only
  split
  · exact h.setSensor.powerSample
  · split
    · exact h.powerSample.setSensor.flashPause.crossings.noteStatus
    · exact h.setSensor.powerSample.event.noteStatus

theorem execSensorSample_steps {sensor val outside dt} : Steps s (execSensorSample sensor val outside dt s) := by
  have h : Keeps s s := .refl s
  unfold execSensorSample
  dsimp only
  refine .next ?_
  split
  · exact h.tick
  · split
    · exact h.tick.sample
    · exact h.tick.sample.beginStepdown

/-! ### Drains -/

theorem Keeps.endAll {cs} (h : Keeps s t) : Keeps s (t.endAll cs) := Keeps.foldl (fun _ _ hu => hu.endAtBoundary) h

theorem Keeps.partDrainLimit {p} (h : Keeps s t) : Keeps s (t.partDrainLimit p) := by
  unfold State.partDrainLimit
  split
  · exact h
  · exact .ite h.endAll h

theorem Keeps.ctxDrainLimit {p c} (h : Keeps s t) : Keeps s (t.ctxDrainLimit p c) := by
  unfold State.ctxDrainLimit
  split
  · exact h
  · exact .ite h.endAll h

theorem Keeps.ringDrainLimit {b r} (h : Keeps s t) : Keeps s (t.ringDrainLimit b r) := .ite h.endAll.sqDrained h

theorem Keeps.streamDrainLimit {n} (h : Keeps s t) : Keeps s (t.streamDrainLimit n) := .ite h.abortFrames.streamDrained h

theorem Keeps.decodeDrainLimit {p c} (h : Keeps s t) : Keeps s (t.decodeDrainLimit p c) := by
  unfold State.decodeDrainLimit
  split
  · exact h
  · exact .ite h.endAll h

theorem execDrainLimitExpiry_steps {u'} : Steps s (execDrainLimitExpiry u' s) := by
  have h : Keeps s s := .refl s
  unfold execDrainLimitExpiry
  refine .next ?_
  split
  · exact h.partDrainLimit.settle
  · exact h.ctxDrainLimit.settle
  · exact h.ringDrainLimit.settle
  · exact h.streamDrainLimit.settle
  · exact h.decodeDrainLimit.settle
  · exact h.boostDrainLimit
  · exact h.portDrainLimit.settle

/-! ### Flash -/

theorem Keeps.setFpair {k x} (h : Keeps s t) : Keeps s (t.setFpair k x) := h.frame rfl

theorem Keeps.updFpair {k f} (h : Keeps s t) : Keeps s (t.updFpair k f) := h.setFpair

theorem Keeps.updStore {h' f} (h : Keeps s t) : Keeps s (t.updStore h' f) := h.frame rfl

theorem Keeps.chanWear {k c} (h : Keeps s t) : Keeps s (t.chanWear k c) :=
  .ite ((Keeps.updFpair (.ite ((Keeps.updFpair (.ite h.updFpair.record.noteStatus h)).record) (.ite h.updFpair.record.noteStatus
      h))).record) (.ite ((Keeps.updFpair (.ite h.updFpair.record.noteStatus h)).record) (.ite h.updFpair.record.noteStatus h))

theorem Keeps.retireBlocks {k c n bs} (h : Keeps s t) : Keeps s (t.retireBlocks k c n bs) := h.updFpair.chanWear

theorem Keeps.eraseSb {k c n} (h : Keeps s t) : Keeps s (t.eraseSb k c n) := h.updFpair.chanWear

theorem Keeps.commitUnit {c} (h : Keeps s t) : Keeps s (t.commitUnit c) := h.updCmd

theorem Keeps.storeCreate {c k p h'} (h : Keeps s t) : Keeps s (t.storeCreate c k p h') := by
  unfold State.storeCreate
  dsimp only
  split
  · split
    · exact h.endCmd
    · split
      · exact h.endCmd
      · split
        · exact h
        · split
          · exact h.endCmd
          · exact Keeps.endCmd (h.frame rfl)
  · exact h

theorem execOpStoreCreate_steps {c} : Steps s (execOpStoreCreate c s) :=
  have h : Keeps s s := .refl s
  .next (h.gate fun _ _ _ _ hu => hu.storeCreate)

theorem Keeps.storeDestroy {c k p h'} (h : Keeps s t) : Keeps s (t.storeDestroy c k p h') := by
  unfold State.storeDestroy
  split
  · exact h.endCmd
  · split
    · exact h.endCmd
    · exact .ite h.endCmd (.ite h h.dropStores.endCmd)

theorem execOpStoreDestroy_steps {c} : Steps s (execOpStoreDestroy c s) :=
  have h : Keeps s s := .refl s
  .next (h.gate fun _ _ _ _ hu => hu.storeDestroy)

theorem Keeps.storeAttach {c k p h'} (h : Keeps s t) : Keeps s (t.storeAttach c k p h') := by
  unfold State.storeAttach
  split
  · exact h
  · split
    · exact h.endCmd
    · split
      · exact h.endCmd
      · exact .ite h.endCmd (.ite h.endCmd (.ite h h.updStore.endCmd))

theorem execOpStoreAttach_steps {c} : Steps s (execOpStoreAttach c s) :=
  have h : Keeps s s := .refl s
  .next (h.gate fun _ _ _ _ hu => hu.storeAttach)

theorem Keeps.storeWrite {c k p h'} (h : Keeps s t) : Keeps s (t.storeWrite c k p h') := by
  unfold State.storeWrite
  dsimp only
  split
  · exact h.endCmd
  · split
    · exact h
    · split
      · exact h
      · exact Keeps.foldl (fun _ _ hu => hu.updFpair) h.startCmd

theorem execOpStoreWrite_steps {c} : Steps s (execOpStoreWrite c s) :=
  have h : Keeps s s := .refl s
  .next (h.gate fun _ _ _ _ hu => hu.storeWrite)

theorem Keeps.programFailed {k} (h : Keeps s t) : Keeps s (t.programFailed k) := by
  unfold State.programFailed
  dsimp only
  split
  · exact h
  · split
    · exact h
    · exact h.setFpair.retireBlocks

theorem Keeps.programUnit {k j bs} (h : Keeps s t) : ∀ a ∈ t.programUnit k j bs, Keeps s a :=
  .underMap (k := id) fun _ => h.setFpair.updStore

theorem Keeps.writeDone {c} (h : Keeps s t) : Keeps s (t.writeDone c) := by
  unfold State.writeDone
  split
  · exact h
  · exact .ite h.finish h

theorem execFlashWriteDone_steps {pair programBad} : Steps s (execFlashWriteDone pair programBad s) := by
  have hs : Keeps s (if programBad then s.programFailed pair else s) := .ite (Keeps.refl s).programFailed (Keeps.refl s)
  unfold execFlashWriteDone
  dsimp only
  refine .next ?_
  split
  · exact Keeps.refl s
  · split
    · exact (Keeps.refl s).updFpair
    · refine .ite (Keeps.refl s) ?_
      split
      · exact Keeps.refl s
      · next heq => exact (hs.readEng.bad heq).failCmd.settle
      · next heq =>
        have hok := hs.readEng.ok heq
        split
        · exact hok.failCmd.settle
        · next heq => exact (Keeps.of hok.programUnit heq).commitUnit.writeDone

theorem execStripeCloseTimer_steps {pair chan} : Steps s (execStripeCloseTimer pair chan s) :=
  have h : Keeps s s := .refl s
  .next h.updFpair

theorem execMapCheckpoint_steps {pair} : Steps s (execMapCheckpoint pair s) :=
  have h : Keeps s s := .refl s
  .next h.updFpair

theorem Keeps.countRead {k m} (h : Keeps s t) : Keeps s (t.countRead k m) := h.updFpair

theorem Keeps.readStripe {k m} (h : Keeps s t) : Keeps s (t.readStripe k m) := Keeps.foldl (fun _ _ hu => hu.countRead) h

theorem Keeps.rebuildUnit {k m} (h : Keeps s t) : Keeps s (t.rebuildUnit k m) :=
  .ite h.updFpair.record.retireBlocks h.updFpair.record

theorem Keeps.readUnit {t' u' errs} (h : Keeps s t) : Keeps s (t.readUnit t' u' errs).2 := by
  unfold State.readUnit
  dsimp only
  split
  · exact h
  · split
    · exact h
    · split
      · exact h.countRead
      · dsimp only
        exact h.countRead.updFpair
      · dsimp only
        exact .ite (Keeps.updFpair h.countRead) (Keeps.updFpair h.countRead).readStripe.rebuildUnit
      · split
        · dsimp only
          exact h.countRead.updFpair
        · dsimp only
          exact (Keeps.updFpair h.countRead).readStripe.updFpair

theorem Keeps.readUnits {c k st errs is} (h : Keeps s t) : Keeps s (t.readUnits c k st errs is) := by
  induction is generalizing t with
  | nil => exact h.endCmd
  | cons i is ih =>
    unfold State.readUnits
    dsimp only
    split
    · next heq => exact (h.readUnit.snd heq).failCmd
    · next hread =>
      have hu := h.readUnit.snd hread
      split
      · exact h
      · next hwrite => exact (hu.writeEng.bad hwrite).failCmd
      · next hwrite =>
        have hw := hu.writeEng.ok hwrite
        exact ih (.ite hw.commitUnit hw.commitUnit.updCmd)

theorem execOpStoreRead_steps {c errs} : Steps s (execOpStoreRead c errs s) := by
  unfold execOpStoreRead
  refine .next ?_
  refine (Keeps.refl _).gate (fun s1 k p h hu => ?_)
  split
  · exact hu.endCmd
  · split
    · exact hu
    · split
      · exact hu
      · exact hu.readUnits

theorem Keeps.trimUnit {t' u'} (h : Keeps s t) : Keeps s (t.trimUnit t' u') := by
  unfold State.trimUnit
  exact h.updStore.updFpair

theorem execOpStoreTrim_steps {c} : Steps s (execOpStoreTrim c s) := by
  unfold execOpStoreTrim
  refine .next ?_
  refine (Keeps.refl _).gate (fun s1 k p h hu => ?_)
  split
  · exact hu.endCmd
  · split
    · exact hu
    · split
      · exact hu
      · exact (Keeps.foldl (fun _ _ hu => hu.trimUnit.commitUnit) hu).endCmd

theorem execOpStoreStat_steps {c} : Steps s (execOpStoreStat c s) := by
  have h : Keeps s s := .refl s
  unfold execOpStoreStat
  dsimp only
  refine .next ?_
  refine h.gate (fun t k p _ hu => ?_)
  split
  · exact hu.endCmd
  · split
    · exact hu
    · split
      · exact hu
      · split
        · next heq => exact hu.output.fst heq
        · next heq =>
          have hnext := hu.output.fst heq
          exact Keeps.endCmd (.ite (Keeps.foldl (fun _ _ hu => hu.updFpair) hnext) hnext)

theorem execRelocationDone_steps {pair chan sb badBlocks} : Steps s (execRelocationDone pair chan sb badBlocks s) :=
  have h : Keeps s s := .refl s
  .next (.ite h (.ite h (.ite h.setFpair.eraseSb h.setFpair.eraseSb.retireBlocks)))

theorem execStaticLevelling_steps {pair chan} : Steps s (execStaticLevelling pair chan s) := by
  have h : Keeps s s := .refl s
  unfold execStaticLevelling
  dsimp only
  refine .next ?_
  split
  · exact h
  · split
    · exact h
    · exact .ite h h.setFpair.eraseSb

/-! ### PlanCmds -/

theorem Keeps.placeSome {p kind owner size align} (h : Keeps s t) : ∀ a ∈ t.placeSome p kind owner size align, Keeps s a.2 := by
  unfold State.placeSome
  split
  · exact .just h
  · exact .map h.placeFw fun _ ha => ha

/-- A function that places a plan's structures keeps what every step keeps. -/
structure PlacesKeeping (f : State → Nat → Nat → List Byte → Nat → Option (KvState × State)) : Prop where
  keeps (s t : State) (p h' : Nat) (img : List Byte) (quota : Nat) (h : Keeps s t) : ∀ a ∈ f t p h' img quota, Keeps s a.2

/-- The page count that the definition matches on is made a variable before anything is applied to it: the kernel would evaluate it,
down from 2^27 one by one. -/
theorem placesKeeping_placeKv : PlacesKeeping State.placeKv := by
  delta State.placeKv
  obtain ⟨count, hcount⟩ : ∃ count, Plan.np? = count := ⟨_, rfl⟩
  rw [hcount]
  constructor
  intro s t p h' img quota h
  dsimp only
  split
  · exact .nothing _
  · split
    · exact .nothing _
    · next hlive =>
      have hkeepsLive := h.placeSome _ hlive
      split
      · exact .nothing _
      · next hctl =>
        have hkeepsCtl := Keeps.placeSome hkeepsLive _ hctl
        split
        · exact .nothing _
        · next hpool => exact .just (f := Prod.snd) (Keeps.placeSome hkeepsCtl _ hpool)

theorem Keeps.placeKv {p h' img quota} (h : Keeps s t) : ∀ a ∈ t.placeKv p h' img quota, Keeps s a.2 :=
  placesKeeping_placeKv.keeps s t p h' img quota h

theorem Keeps.installPlan {p x pl} (h : Keeps s t) : ∀ a ∈ t.installPlan p x pl, Keeps s a := by
  unfold State.installPlan
  dsimp only
  split
  · exact .nothing _
  · split
    · exact .nothing _
    · split
      · exact .nothing _
      · split
        · exact .nothing _
        · refine .map (Keeps.ofSnd (Keeps.ofSnd h.dropFw.placeSome).placeSome).placeKv fun r hr => ?_
          split
          · exact hr.updCtx
          · exact .ite hr.updCtx.setupCores hr.updCtx

theorem Keeps.planStaged {c p h' x base img} (h : Keeps s t) : Keeps s (t.planStaged c p h' x base img) := by
  unfold State.planStaged
  dsimp only
  split
  · exact h.dropFw.endCmd
  · split
    · exact h.dropFw.endCmd
    · exact h.startCmd.updCtx

theorem Keeps.planLoad {c k p h'} (h : Keeps s t) : Keeps s (t.planLoad c k p h') := by
  unfold State.planLoad
  dsimp only
  split
  · exact h.endCmd
  · split
    · exact h.endCmd
    · split
      · next hplace _ =>
        have hplaced := Keeps.ofSnd h.placeFw hplace
        split
        · exact h
        · next hread => exact ((hplaced.readEng.bad hread).dropFw).endCmd
        · next hread => exact ((hplaced.readEng.ok hread).putDram).planStaged
      · exact h.endCmd

theorem execOpPlanLoad_steps {c} : Steps s (execOpPlanLoad c s) :=
  have h : Keeps s s := .refl s
  .next (h.gate fun _ _ _ _ hu => hu.planLoad)

theorem execPlanInstall_steps {part ctx} : Steps s (execPlanInstall part ctx s) := by
  have h : Keeps s s := .refl s
  unfold execPlanInstall
  dsimp only
  refine .next ?_
  split
  · exact h
  · split
    · split
      · exact h
      · split
        · next heq => exact (Keeps.of h.installPlan heq).finish
        · exact h.dropFw.updCtx.finish
    · exact h

theorem Keeps.fwAt {p kind owner base size} (h : Keeps s t) : ∀ a ∈ t.fwAt p kind owner base size, Keeps s a := by
  unfold State.fwAt
  split
  · exact .nothing _
  · exact .map (g := fun _ => t) (fun _ _ => h) fun _ hu => hu.updPart.scrubBacking

theorem Keeps.placeWeights {p x img} (h : Keeps s t) : ∀ a ∈ t.placeWeights p x img, Keeps s a.2.2 := by
  unfold State.placeWeights
  dsimp only
  split
  · exact .just h
  · split
    · exact .map h.placeFw fun _ ha => ha
    · split
      · exact .nothing _
      · split
        · exact .nothing _
        · next heq => exact .map (Keeps.of h.fwAt heq).fwAt fun _ ha => ha

theorem Keeps.copyTensors {w data base wx offs es} (h : Keeps s t) : (t.copyTensors w data base wx offs es).Keeps s := by
  induction es generalizing t with
  | nil => exact h
  | cons e es ih =>
    unfold State.copyTensors
    dsimp only
    split
    · exact trivial
    · next heq => exact h.readEng.bad heq
    · next u hread =>
      have hu : Keeps s u := h.readEng.ok hread
      split
      · exact trivial
      · next hrest =>
        refine Eng.Keeps.bad ?_ hrest
        exact ih (.ite hu.putDram hu.putDram.putDram)
      · next hrest =>
        refine Eng.Keeps.ok ?_ hrest
        exact ih (.ite hu.putDram hu.putDram.putDram)

theorem Keeps.weightData {c k p h' img es} (h : Keeps s t) : Keeps s (t.weightData c k p h' img es) := by
  unfold State.weightData
  dsimp only
  split
  · split
    · exact h.endCmd
    · split
      · exact h.endCmd
      · next hplace =>
        have hplaced := Keeps.ofSnd2 h.placeWeights hplace
        split
        · exact h
        · next hcopy => exact ((hplaced.copyTensors.bad hcopy).dropFw).endCmd
        · next hcopy => exact ((hplaced.copyTensors.ok hcopy).dropFw).endCmd
        · next hcopy => exact (((hplaced.copyTensors.ok hcopy).dropFw).updCtx).endCmd
  · split
    · exact h.endCmd
    · split
      · exact h.endCmd
      · next hplace =>
        have hplaced := Keeps.ofSnd2 h.placeWeights hplace
        split
        · exact h
        · next hcopy => exact ((hplaced.copyTensors.bad hcopy).dropFw).endCmd
        · next hcopy => exact ((hplaced.copyTensors.ok hcopy).dropFw).endCmd
        · next hcopy => exact (((hplaced.copyTensors.ok hcopy).dropFw).updCtx).endCmd

theorem Keeps.weightLoad {c k p h'} (h : Keeps s t) : Keeps s (t.weightLoad c k p h') := by
  unfold State.weightLoad
  dsimp only
  split
  · split
    · exact h.endCmd
    · split
      · exact h
      · split
        · exact h.endCmd
        · split
          · exact h
          · next heq => exact (h.readEng.bad heq).endCmd
          · next heq =>
            have hnext := h.readEng.ok heq
            exact .ite hnext.endCmd (.ite hnext.endCmd (.ite hnext.endCmd hnext.weightData))
  · exact h.endCmd

theorem execOpWeightLoad_steps {c} : Steps s (execOpWeightLoad c s) :=
  have h : Keeps s s := .refl s
  .next (h.gate fun _ _ _ _ hu => hu.weightLoad)

theorem Keeps.fetchExpert {p x e slot errs} (h : Keeps s t) : Keeps s (t.fetchExpert p x e slot errs).2.2 := by
  unfold State.fetchExpert
  dsimp only
  split
  · exact h
  · split
    · split
      · exact h
      · refine Keeps.putDram (.foldlOn (g := fun r : Option (Nat × Nat) × Bool × State => r.2.2) (fun r i hr => ?_) h)
        split
        · exact hr
        · split
          · next heq => exact hr.readUnit.snd heq
          · next heq => exact (hr.readUnit.snd heq).putDram
    · exact h

theorem Keeps.poolBind {c k p x errs} (h : Keeps s t) : Keeps s (t.poolBind c k p x errs) := by
  unfold State.poolBind
  dsimp only
  split
  · exact h
  · split
    · exact h.endCmd
    · refine .ite h.endCmd (.ite h.endCmd ?_)
      split
      · exact h.endCmd
      · refine .ite h.endCmd (.ite h.endCmd (.ite h ?_))
        generalize hr : (List.foldl _ _ _ : Option (Nat × Nat) × Bool × State) = r
        have hfetched : Keeps s r.2.2 := by
          rw [← hr]
          refine .foldlOn (g := fun a : Option (Nat × Nat) × Bool × State => a.2.2) (fun a e ha => ?_)
            (Keeps.updCtx (Keeps.foldl (fun _ _ hu => hu.putDram) h))
          split
          · exact ha
          · exact .ite ha.fetchExpert ha.fetchExpert.updCtx
        split
        · exact hfetched.endCmd
        · exact Keeps.endCmd (.ite hfetched.updCmd hfetched)

theorem execOpPoolBind_steps {c errs} : Steps s (execOpPoolBind c errs s) :=
  have h : Keeps s s := .refl s
  .next (h.gate fun _ _ _ _ hu => hu.poolBind)

theorem execOpTensorStat_steps {c} : Steps s (execOpTensorStat c s) := by
  unfold execOpTensorStat
  dsimp only
  refine .next ?_
  refine (Keeps.refl _).gate (fun s1 k p h hu => ?_)
  split
  · exact hu
  · split
    · exact hu.endCmd
    · split
      · exact hu.endCmd
      · split
        · exact hu.endCmd
        · split
          · next heq => exact hu.output.fst heq
          · next heq =>
            have hnext := hu.output.fst heq
            exact Keeps.endCmd (.ite hnext.updCtx hnext)

theorem execOpKvStat_steps {c} : Steps s (execOpKvStat c s) := by
  unfold execOpKvStat
  refine .next ?_
  refine (Keeps.refl _).gate (fun s1 k p h hu => ?_)
  split
  · exact hu.endCmd
  · split
    · exact hu.endCmd
    · split
      · next heq => exact hu.output.fst heq
      · next heq =>
        have hnext := hu.output.fst heq
        exact Keeps.endCmd (.ite hnext.updKv hnext)

theorem Keeps.preempt {p k} (h : Keeps s t) : Keeps s (t.preempt p k) := .ite h.endAtBoundary h.updCmd

/-- The three ends of a claim: the command waits or fails in a state that keeps what every step keeps, or the claim got what was there. -/
structure ClaimKeeps {α : Type} (s t : State) (f : State → Option α) (r : Claim α) : Prop where
  wait (u : State) (hr : r = .wait u) : Keeps s u
  quota (u : State) (hr : r = .quota u) : Keeps s u
  got (a : α) (hr : r = .got a) : f t = some a

theorem Keeps.claim {α : Type} {c p x prio} {f : State → Option α} (h : Keeps s t) : ClaimKeeps s t f (t.claim c p x prio f) := by
  obtain ⟨hleft, hshort, hgot⟩ := h.allocate (p := p) (c := x) (prio := prio) (f := f)
  unfold State.claim
  split
  · next a u e =>
    rw [e] at hgot
    exact ⟨fun _ hx => (nomatch hx), fun _ hx => (nomatch hx), fun b hb => hgot b (by rw [Claim.got.inj hb])⟩
  · next u e =>
    rw [e] at hleft
    exact ⟨fun v hv => Claim.wait.inj hv ▸ hleft, fun _ hx => (nomatch hx), fun _ hx => nomatch hx⟩
  · next u v e =>
    rw [e] at hshort
    have hu : Keeps s u := hshort u rfl
    split
    · exact ⟨fun _ hx => (nomatch hx), fun w hw => Claim.quota.inj hw ▸ hu, fun _ hx => nomatch hx⟩
    · exact ⟨fun w hw => Claim.wait.inj hw ▸ .ite hu hu.preempt, fun _ hx => (nomatch hx), fun _ hx => nomatch hx⟩

theorem execOpSeqCreate_steps {c} : Steps s (execOpSeqCreate c s) := by
  unfold execOpSeqCreate
  dsimp only
  refine .next ?_
  refine (Keeps.refl _).gate (fun s1 k p h hu => ?_)
  split
  · exact hu.endCmd
  · split
    · exact hu.endCmd
    · split
      · exact hu.endCmd
      · next heq => exact (Keeps.ofSnd hu.addSeq heq).endCmd

theorem Keeps.seqRelease {c k p h'} (h : Keeps s t) : Keeps s (t.seqRelease c k p h') := by
  unfold State.seqRelease
  split
  · exact h.endCmd
  · exact .ite h h.releaseSeq.endCmd

theorem execOpSeqRelease_steps {c} : Steps s (execOpSeqRelease c s) :=
  have h : Keeps s s := .refl s
  .next (h.gate fun _ _ _ _ hu => hu.seqRelease)

theorem Keeps.seqThaw {c k p x} (h : Keeps s t) : Keeps s (t.seqThaw c k p x) := by
  unfold State.seqThaw
  split
  · exact h.endCmd
  · refine .ite h (.ite h.endCmd (.ite h.endCmd ?_))
    split
    · next heq => exact (h.thaw _ (h.claim.got _ heq)).endCmd
    · next heq => exact h.claim.wait _ heq
    · next heq => exact (h.claim.quota _ heq).endCmd

theorem execOpSeqThaw_steps {c} : Steps s (execOpSeqThaw c s) :=
  have h : Keeps s s := .refl s
  .next (h.gate fun _ _ _ _ hu => hu.seqThaw)

theorem Keeps.forkOut (h : Keeps s t) (hu : Keeps s u) {c k p x q pos n} : Keeps s (t.forkOut u c k p x q pos n) := by
  have fork {v : State} (hv : Keeps s v) :
      ∀ a ∈ (if k.opf0 = true then v.forkReleasing p x q pos n else v.forkChildren p x q pos n), Keeps s a.2 := by
    split
    · exact hv.forkReleasing
    · exact hv.forkChildren
  unfold State.forkOut
  dsimp only
  split
  · exact hu.endCmd
  · split
    · exact hu
    · exact hu.endCmd
    · next heq =>
      have hw := h.writeEng.ok heq
      split
      · exact hu.endCmd
      · next heq => exact (fork hw _ heq).endCmd

theorem Keeps.opFork {c k p x} (h : Keeps s t) : Keeps s (t.opFork c k p x) := by
  unfold State.opFork
  dsimp only
  split
  · refine .ite h.endCmd (.ite h (.ite h.endCmd (.ite h.endCmd (.ite h.endCmd (.ite h.endCmd (.ite (h.forkOut h) ?_))))))
    split
    · next heq => exact (h.thaw _ (h.claim.got _ heq)).forkOut h
    · next heq => exact h.claim.wait _ heq
    · next heq => exact (h.claim.quota _ heq).endCmd
  · exact h.endCmd

theorem execOpFork_steps {c} : Steps s (execOpFork c s) :=
  have h : Keeps s s := .refl s
  .next (h.gate fun _ _ _ _ hu => hu.opFork)

theorem execPageSetZeroingDone_steps {part ctx page} : Steps s (execPageSetZeroingDone part ctx page s) :=
  have h : Keeps s s := .refl s
  .next h.pageZeroed

/-! ### Exec -/

theorem Keeps.beginExec {c e} (h : Keeps s t) : Keeps s (t.beginExec c e) := h.startCmd.updCmd

theorem Keeps.readTokens {w bs} (h : Keeps s t) : (t.readTokens w bs).Keeps s := by
  induction bs generalizing t with
  | nil => exact h
  | cons b bs ih =>
    unfold State.readTokens
    split
    · exact trivial
    · next heq => exact h.readEng.bad heq
    · next heq =>
      have hrest := ih (h.readEng.ok heq)
      split
      · exact trivial
      · next heq => exact hrest.bad heq
      · next heq => exact hrest.ok heq

theorem Keeps.thawAll {p x qs} (h : Keeps s t) : ∀ a ∈ t.thawAll p x qs, Keeps s a := by
  induction qs generalizing t with
  | nil => exact .just h
  | cons q qs ih =>
    unfold State.thawAll
    split
    · exact .nothing _
    · next heq => exact ih (Keeps.of h.thaw heq)

theorem Keeps.bindLookup {p h' b toks look} (h : Keeps s t) : Keeps s (t.bindLookup p h' b toks look).2 := by
  unfold State.bindLookup
  dsimp only
  split
  · exact h
  · split
    · exact h
    · exact h.lookups

theorem Keeps.bindLookups {p x look bs} (h : Keeps s t) : Keeps s (t.bindLookups p x look bs).2 := by
  induction bs generalizing t with
  | nil => exact h
  | cons b bs ih => exact ih h.bindLookup

theorem Keeps.prepareRun {p x k toks} (h : Keeps s t) : ∀ a ∈ t.prepareRun p x k toks, Keeps s a.2 := by
  unfold State.prepareRun
  split
  · exact .nothing _
  · next heq => exact .map (Keeps.of h.thawAll heq).bindLookups.writables fun _ ha => ha

theorem Keeps.runSeqs {c k p x pl e toks} (h : Keeps s t) : Keeps s (t.runSeqs c k p x pl e toks) := by
  unfold State.runSeqs
  dsimp only
  split
  · exact h.endCmd
  · split
    · next hwait => exact h.claim.wait _ hwait
    · next hquota => exact (h.claim.quota _ hquota).endCmd
    · next hgot =>
      have hs := h.prepareRun _ (h.claim.got _ hgot)
      exact (Keeps.foldl (fun _ _ hu => hu.updSeq) hs).beginExec

theorem Keeps.opRun {c k p h'} (h : Keeps s t) : Keeps s (t.opRun c k p h') := by
  unfold State.opRun
  dsimp only
  split
  · exact h
  · split
    · exact h.endCmd
    · split
      · exact h.endCmd
      · split
        · exact h.endCmd
        · split
          · split
            · exact h.endCmd
            · split
              · exact h
              · split
                · exact h.runSeqs
                · split
                  · exact h
                  · next heq => exact (h.readTokens.bad heq).endCmd
                  · next heq => exact (h.readTokens.ok heq).runSeqs
          · split
            · exact h.endCmd
            · split
              · exact h
              · split
                · exact h.runSeqs
                · split
                  · exact h
                  · next heq => exact (h.readTokens.bad heq).endCmd
                  · next heq => exact (h.readTokens.ok heq).runSeqs

theorem execOpRun_steps {c} : Steps s (execOpRun c s) :=
  have h : Keeps s s := .refl s
  .next (h.gate fun _ _ _ _ hu => hu.opRun)

theorem Keeps.trainStep {c k p h'} (h : Keeps s t) : Keeps s (t.trainStep c k p h') := by
  unfold State.trainStep
  split
  · exact h
  · split
    · exact h.endCmd
    · exact h.beginExec

theorem execOpTrainStep_steps {c} : Steps s (execOpTrainStep c s) :=
  have h : Keeps s s := .refl s
  .next (h.gate fun _ _ _ _ hu => hu.trainStep)

theorem Keeps.updExec {c f} (h : Keeps s t) : Keeps s (t.updExec c f) := h.updCmd

theorem Keeps.beginFrame {c k p x pl run} (h : Keeps s t) : Keeps s (t.beginFrame c k p x pl run) := by
  unfold State.beginFrame
  dsimp only
  split
  · next heq => exact h.claim.wait _ heq
  · next heq => exact (h.claim.quota _ heq).failCmd
  · next heq =>
    have hs := h.writables _ (h.claim.got _ heq)
    split
    · split
      · exact h
      · next heq => exact (hs.writeEng.bad heq).failCmd
      · next heq => exact (hs.writeEng.ok heq).updExec
    · exact hs

theorem Keeps.forkRoll {k p x pos} (h : Keeps s t) : ∀ a ∈ t.forkRoll k p x pos, Keeps s a.2 := by
  refine .bind (g := id) h.thaw fun u hu => .under fun q => ?_
  dsimp only
  split
  · exact .nothing _
  · next ks v e =>
    have hv : Keeps s v := Keeps.ofSnd (Keeps.forkChildren (t := u) hu) e
    refine .just ?_
    dsimp only
    generalize hs2 : List.foldl _ v ks = w
    have hw : Keeps s w := by
      rw [← hs2]
      exact Keeps.foldl (fun _ _ hx => hx.updSeq) hv
    have hparent {q} : Keeps s (if k.roll.keepParent = true then w else
        w.updSeq p x q (fun z => { z with status := .busy, dormant := true })) := .ite hw hw.updSeq
    split
    · exact hparent
    · exact .ite hparent.setKeeper hparent

theorem Keeps.startRoll {c k p h' pl run} (h : Keeps s t) : Keeps s (t.startRoll c k p h' pl run) := h.beginExec.beginFrame

theorem Keeps.opRoll {c k p x} (h : Keeps s t) : Keeps s (t.opRoll c k p x) := by
  unfold State.opRoll
  dsimp only
  split
  · exact h
  · split
    · exact h.endCmd
    · split
      · exact h.endCmd
      · split
        · refine .ite h (.ite h.endCmd (.ite h.endCmd (.ite h.endCmd (.ite h.endCmd ?_))))
          split
          · next hwait => exact h.claim.wait _ hwait
          · next hquota => exact (h.claim.quota _ hquota).endCmd
          · next hgot => exact (h.forkRoll _ (h.claim.got _ hgot)).startRoll
        · exact h.endCmd

theorem execOpRoll_steps {c} : Steps s (execOpRoll c s) :=
  have h : Keeps s s := .refl s
  .next (h.gate fun _ _ _ _ hu => hu.opRoll)

theorem Keeps.argWord {x pl k idx arg} (h : Keeps s t) : Keeps s (t.argWord x pl k idx arg).2 := by
  unfold State.argWord
  dsimp only
  split
  · exact h
  · exact h
  · exact h
  · split
    · exact h.takeFree
    · exact h
  · split
    · exact h.takeFree
    · exact h
  · exact h
  · exact h
  · exact h
  · exact h

theorem Keeps.argWords {x pl k idx as} (h : Keeps s t) : Keeps s (t.argWords x pl k idx as).2 := by
  induction as generalizing t with
  | nil => exact h
  | cons a as ih => exact ih h.argWord

theorem Keeps.dispatchTo {c p img i args pos} (h : Keeps s t) : Keeps s (t.dispatchTo c p img i args pos) := by
  unfold State.dispatchTo
  dsimp only
  split
  · exact h
  · exact h.updCore.updPart

theorem Keeps.dispatchStep {c k p x pl e i left} (h : Keeps s t) : Keeps s (t.dispatchStep c k p x pl e i left) := by
  unfold State.dispatchStep
  dsimp only
  split
  · exact h
  · exact .ite ((Keeps.foldl (fun _ _ hu => hu.dispatchTo) h.argWords).updExec) ((Keeps.foldl (fun _ _ hu => hu.dispatchTo)
        h.argWords).updExec)

theorem Keeps.openStep {c k p h' pl e i} (h : Keeps s t) : Keeps s (t.openStep c k p h' pl e i).1 := by
  unfold State.openStep
  dsimp only
  split
  · exact h
  · split
    · exact h
    · split
      · exact h.endAtBoundary
      · split
        · exact h
        · split
          · exact .ite h.requestPlan h
          · split
            · split
              · exact h
              · split
                · exact h
                · next heq => exact (h.writeEng.bad heq).failCmd
                · next heq => exact h.writeEng.ok heq
            · exact h

theorem Keeps.onExec {c f} (h : Keeps s t) (hf : ∀ k p x y pl e, Keeps s (f k p x y pl e)) : Keeps s (t.onExec c f) := by
  unfold State.onExec
  dsimp only
  split
  · exact h
  · split
    · split
      · exact h
      · exact .ite (hf _ _ _ _ _ _) h
    · exact h

theorem execStepDispatch_steps {c} : Steps s (execStepDispatch c s) := by
  unfold execStepDispatch
  refine .next ?_
  refine ((Keeps.refl _).unlessLost ((Keeps.refl _).onExec (fun k p h x pl e => ?_))).drainInboxes
  split
  · exact (Keeps.refl _)
  · split
    · split
      · exact (Keeps.refl _)
      · exact .ite (Keeps.refl _) (((Keeps.refl _).beginFrame).settle)
    · split
      · exact (Keeps.refl _).dispatchStep
      · split
        · next hopen => exact ((Keeps.refl _).openStep.fst hopen).settle
        · next hopen => exact ((Keeps.refl _).openStep.fst hopen).dispatchStep

theorem execPlanChangeStep_steps {part} : Steps s (execPlanChangeStep part s) := by
  have h : Keeps s s := .refl s
  unfold execPlanChangeStep
  dsimp only
  refine .next ?_
  split
  · exact h
  · exact .ite h ((Keeps.foldl (fun _ _ hu => .ite hu hu.setDieClk) h).finishPlan)

theorem execDispatchCommit_steps {core} : Steps s (execDispatchCommit core s) := by
  unfold execDispatchCommit
  refine .next ((Keeps.refl _).onCore fun k => ?_)
  split
  · exact Keeps.refl _
  · refine .ite (Keeps.refl _) ?_
    dsimp only
    generalize hs3 : State.updExec _ _ _ = u
    have hu : Keeps s u := by
      rw [← hs3]
      exact (Keeps.refl s).updCore.updPart.updExec
    exact hu.frame rfl

theorem Keeps.applyQstat {c p h' g} (h : Keeps s t) : Keeps s (t.applyQstat c p h' g) :=
  h.onExec fun _ _ _ _ _ _ => Keeps.updExec (.foldlOn (g := Prod.fst) (fun _ _ ha => Keeps.updCtx ha) h)

theorem Keeps.commitBinds {w p x bs} (h : Keeps s t) : (t.commitBinds w p x bs).Keeps s := by
  induction bs generalizing t with
  | nil => exact h
  | cons b bs ih =>
    unfold State.commitBinds
    have hcommit {u : State} (hu : Keeps s u) {toks : List Word} :
        (((u.commitSeq p x b.handle toks b.skip).updSeq p x b.handle (fun q => { q with status := .idle })).commitBinds w p x
            bs).Keeps s :=
      ih hu.commitSeq.updSeq
    dsimp only
    by_cases hown : b.tokens.length = b.added
    · simp only [hown, if_true]
      exact hcommit h
    · simp only [hown, if_false]
      have hread := h.readEng (w := w) (a := b.tokAddr) (n := 4 * b.added)
      cases e : t.readEng w b.tokAddr (4 * b.added) with
      | wait => exact trivial
      | bad st d u => exact hread.bad e
      | ok v u => exact hcommit (hread.ok e)

theorem Keeps.nextGranule {c} (h : Keeps s t) : Keeps s (t.nextGranule c) := h.updCmd

theorem Keeps.afterGranule {c fin} (h : Keeps s t) : Keeps s (t.afterGranule c fin) := by
  unfold State.afterGranule
  dsimp only
  split
  · exact h.nextGranule
  · split
    · exact h.nextGranule
    · exact .ite h.nextGranule.finish (.ite h.nextGranule.endAtBoundary.settle h.nextGranule)

theorem Keeps.commitRun {c k p h' e} (h : Keeps s t) : Keeps s (t.commitRun c k p h' e) := by
  unfold State.commitRun
  dsimp only
  split
  · exact h
  · next heq => exact (h.commitBinds.bad heq).failCmd.settle
  · next heq =>
    have hnext := h.commitBinds.ok heq
    exact (Keeps.updExec (.ite hnext.applyQstat.updCtx hnext.applyQstat)).afterGranule

theorem Keeps.sendScores {c p gi g bs} (h : Keeps s t) : Keeps s (t.sendScores c p gi g bs).1 := by
  unfold State.sendScores
  dsimp only
  generalize hs0 : t.updPart p _ = u
  have hu : Keeps s u := by
    rw [← hs0]
    exact h.updPart
  split
  · exact hu.setColl.contribute.setColl
  · exact Keeps.setColl (Keeps.contribute (hu.frame rfl))

theorem Keeps.sendSurvivor {c p gen rank g gi engine bs} (h : Keeps s t) : ∀ a ∈ t.sendSurvivor c p gen rank g gi engine bs, Keeps
    s a :=
  .under (k := id) fun _ => .underMap (k := id) fun _ => h.launch

theorem Keeps.ship {c p h' r run} (h : Keeps s t) : ∀ a ∈ t.ship c p h' r run, Keeps s a := by
  refine .foldlM (g := id) (fun u x hu => ?_) h
  split
  · exact (Keeps.foldl (fun _ _ hv => hv.fwRead) hu).sendSurvivor
  · exact .nothing _

theorem Keeps.stripSlot {p h' n keep} (h : Keeps s t) : Keeps s (t.stripSlot p h' n keep) := by
  unfold State.stripSlot
  dsimp only
  split
  · exact h
  · exact h.updKv.dropRefs.syncList

theorem Keeps.prune {p h' r run} (h : Keeps s t) : Keeps s (t.prune p h' r run).1 :=
  .foldlOn (g := Prod.fst) (fun a x ha => by
    dsimp only
    split
    · exact ha
    · split
      · exact Keeps.stripSlot ha
      · exact Keeps.releaseSeq ha) h

theorem Keeps.addPages {p x q n} (h : Keeps s t) : ∀ a ∈ t.addPages p x q n, Keeps s a := by
  induction n generalizing t with
  | zero => exact .just (f := id) h
  | succ n ih => exact .under (k := id) fun _ => .under (k := id) fun _ => ih h.updKv

theorem Keeps.receiveInto {p x n pos bs} (h : Keeps s t) : ∀ a ∈ t.receiveInto p x n pos bs, Keeps s a :=
  .under (k := id) fun _ => .under (k := id) fun _ => .under (k := id) fun _ => .bind (g := id) h.updKv.addPages fun _ hu =>
    .under (k := id) fun _ => .underMap (k := id) fun _ => Keeps.syncList (Keeps.fillRanges hu)

theorem Keeps.historySeq {p x like keep} (h : Keeps s t) : ∀ a ∈ t.historySeq p x like keep, Keeps s a.2 :=
  .under fun _ => .bind h.addSeq fun _ ha => .underMap fun _ => ha.updKv

theorem Keeps.receiveAll {p x r run stripped} (h : Keeps s t) : ∀ a ∈ t.receiveAll p x r run stripped, Keeps s a.1 := by
  refine .foldlM (g := Prod.fst) (fun a y ha => ?_) h
  dsimp only
  refine .bind (g := Prod.snd) ?_ fun v hv => .map (g := id) (Keeps.receiveInto hv) fun _ hw => hw
  split
  · exact .just ha
  · exact Keeps.historySeq ha

theorem Keeps.refork {p x r run} (h : Keeps s t) : ∀ a ∈ t.refork p x r run, Keeps s a.1 := by
  refine .bind (g := Prod.fst) h.receiveAll fun v hv => .foldlM (g := Prod.fst) (fun a k ha => ?_) hv
  dsimp only
  split
  · exact .just ha
  · split
    · exact .just (Keeps.releaseSeq ha)
    · exact .under fun _ => .map (Keeps.forkReleasing ha) fun _ hf => Keeps.foldl (fun _ _ hu => hu.updSeq) hf

theorem Keeps.finalBlock {r run} (h : Keeps s t) : Keeps s (t.finalBlock r run).2 := by
  unfold State.finalBlock
  dsimp only
  split
  · exact h.takeFrees.takeFrees
  · exact h

theorem Keeps.endRoll {c k p h' r run} (h : Keeps s t) : Keeps s (t.endRoll c k p h' r run) := by
  unfold State.endRoll
  dsimp only
  split
  · exact h
  · next heq => exact (h.finalBlock.writeEng.bad heq).failCmd.settle
  · exact ((Keeps.nextGranule (.ite (Keeps.foldl (fun _ _ hu => .ite hu.updSeq hu.releaseSeq) h.finalBlock.writeEng.ok)
        ((Keeps.foldl (fun _ _ hu => .ite hu.updSeq hu.releaseSeq) h.finalBlock.writeEng.ok).releaseSeq))).applyQstat).finish

theorem Keeps.commitFrame {c k p h' pl r run} (h : Keeps s t) : Keeps s (t.commitFrame c k p h' pl r run) := by
  unfold State.commitFrame
  dsimp only
  split
  · exact h.endRoll
  · split
    · exact h.applyQstat.updExec.nextGranule.endAtBoundary.settle
    · split
      · exact h.applyQstat.updExec.nextGranule
      · exact .ite h.applyQstat.updExec.nextGranule.beginFrame.settle h.applyQstat.updExec.nextGranule

theorem Keeps.reforkRound {c k p x pl r run} (h : Keeps s t) : Keeps s (t.reforkRound c k p x pl r run) := by
  unfold State.reforkRound
  dsimp only
  refine .ite h ?_
  split
  · next heq => exact h.claim.wait _ heq
  · next heq => exact (h.claim.quota _ heq).failCmd
  · next heq =>
    have hs := h.refork _ (h.claim.got _ heq)
    split
    · exact h
    · next heq => exact (hs.writeEng.bad heq).failCmd.settle
    · next heq => exact (hs.writeEng.ok heq).dropSurvivors.commitFrame

theorem Keeps.scored {c k p h' pl r run scores} (h : Keeps s t) : Keeps s (t.scored c k p h' pl r run scores) := by
  unfold State.scored
  dsimp only
  split
  · split
    · exact h.endAtBoundary.settle
    · next heq => exact (((Keeps.of h.ship heq).prune).updExec).reforkRound
  · exact h.commitFrame

theorem Keeps.readScores {w a n} (h : Keeps s t) : (t.readScores w a n).Keeps s :=
  (h.engAll fun _ _ hu => hu.readEng).bind fun _ _ hu => hu

theorem Keeps.commitValue {c k p h' pl r run} (h : Keeps s t) : Keeps s (t.commitValue c k p h' pl r run) := by
  unfold State.commitValue
  split
  · exact h.reforkRound
  · split
    · exact h
    · split
      · exact h
      · next heq => exact (h.readScores.bad heq).failCmd.settle
      · next heq =>
        have hok := h.readScores.ok heq
        split
        · next heq _ => exact (h.readScores.ok heq).scored
        · split
          · exact hok
          · split
            · exact hok.dropGather.scored
            · split
              · exact hok
              · split
                · next heq => exact hok.sendScores.fst heq
                · next heq => exact (hok.sendScores.fst heq).endAtBoundary.settle

theorem Keeps.frameTokens {w r run is} (h : Keeps s t) : (t.frameTokens w r run is).Keeps s := by
  induction is generalizing t with
  | nil => exact h
  | cons i is ih =>
    unfold State.frameTokens
    split
    · exact trivial
    · next heq => exact h.readEng.bad heq
    · next heq =>
      have hrest := ih (h.readEng.ok heq)
      split
      · exact trivial
      · next heq => exact hrest.bad heq
      · next heq => exact hrest.ok heq

theorem Keeps.commitTokens {c k p h' pl r run} (h : Keeps s t) : Keeps s (t.commitTokens c k p h' pl r run) := by
  unfold State.commitTokens
  dsimp only
  split
  · exact h
  · next heq => exact (h.frameTokens.bad heq).failCmd.settle
  · generalize hc : List.foldl _ _ _ = v
    have hv : Keeps s v := by
      rw [← hc]
      exact Keeps.foldl (fun _ _ hu => hu.commitSeq) h.frameTokens.ok
    refine .ite hv.commitFrame ?_
    split
    · next a e _ _ =>
      have hfill : (Machine.engAll (fun (t : State) i => (t.writeEng (k.who c.block) (a + 64 * i + 0x20) (leBytes 4
          Float.nan32.toNat)).bind
            (fun _ u => .ok ([] : List Unit) u)) v (List.range r.mine)).Keeps s :=
        hv.engAll fun _ _ hu => hu.writeEng.bind fun _ _ hw => hw
      split
      · exact h
      · next heq => exact (hfill.bad heq).failCmd.settle
      · next heq => exact (hfill.ok heq).updExec
    · exact hv

theorem execGranuleCommit_steps {c} : Steps s (execGranuleCommit c s) := by
  unfold execGranuleCommit
  dsimp only
  refine .next ?_
  refine (Keeps.refl _).unlessLost ((Keeps.refl _).onExec (fun k p h _ pl e => ?_))
  split
  · split
    · exact (Keeps.refl _)
    · split
      · exact (Keeps.refl _).commitRun
      · exact .ite (Keeps.refl _) (.ite ((Keeps.refl _).commitValue) ((Keeps.refl _).commitTokens))
  · split
    · exact (Keeps.refl _)
    · split
      · exact (Keeps.refl _).commitRun
      · exact .ite (Keeps.refl _) (.ite ((Keeps.refl _).commitValue) ((Keeps.refl _).commitTokens))

theorem Keeps.serveExpert {p h' pl required x errs} (h : Keeps s t) : Keeps s (t.serveExpert p h' pl required x errs).2.2 := by
  unfold State.serveExpert
  dsimp only
  split
  · exact h
  · split
    · exact h.updCtx
    · split
      · exact h
      · split
        · exact .ite h.fetchExpert h.fetchExpert.updCtx
        · exact .ite h.putDram.updCtx.fetchExpert h.putDram.updCtx.fetchExpert.updCtx

theorem Keeps.serveExperts {p h' pl required errs xs} (h : Keeps s t) : Keeps s (t.serveExperts p h' pl required errs xs).2.2 := by
  induction xs generalizing t with
  | nil => exact h
  | cons x xs ih =>
    unfold State.serveExperts
    dsimp only
    split
    · exact h.serveExpert
    · exact ih h.serveExpert

theorem Keeps.keepExperts {c x pl} (h : Keeps s t) : Keeps s (t.keepExperts c x pl) := h.updExec

theorem execExpertPoint_steps {c errs} : Steps s (execExpertPoint c errs s) := by
  unfold execExpertPoint
  refine .next ((Keeps.refl s).unlessLost ((Keeps.refl s).onExec fun k p h x pl e => ?_))
  split
  · exact Keeps.refl s
  · refine .ite (Keeps.refl s) ?_
    split
    · exact (Keeps.refl s).updExec
    · next a _ =>
      have hread : ((s.readEng (k.who c.block) a 4).bind (fun n t => t.readEng (k.who c.block) (a + 4) (4 * leNat n))).Keeps s :=
        (Keeps.refl s).readEng.bind fun _ _ hu => hu.readEng
      dsimp only
      split
      · exact Keeps.refl s
      · next heq => exact (hread.bad heq).failCmd.settle
      · next u _ =>
        have hu : Keeps s u := hread.ok
        split
        · exact hu.failCmd.settle
        · generalize hr : State.serveExperts _ _ _ _ _ _ _ = r
          have hserved : Keeps s r.2.2 := by
            rw [← hr]
            exact hu.keepExperts.updCtx.serveExperts
          split
          · exact hserved.failCmd.settle
          · exact Keeps.updExec (.ite hserved.updCmd hserved)

theorem execSeqBusyResume_steps {c} : Steps s (execSeqBusyResume c s) := by
  have h : Keeps s s := .refl s
  unfold execSeqBusyResume
  split
  · exact .next h
  · split
    · exact .next h
    · split
      · exact execOpRun_steps
      · exact execOpRoll_steps
      · exact execOpFork_steps
      · exact execOpSeqRelease_steps
      · exact execOpSeqThaw_steps
      · exact .next h

theorem execCommandTimeout_steps {c} : Steps s (execCommandTimeout c s) := by
  have h : Keeps s s := .refl s
  unfold execCommandTimeout
  dsimp only
  refine .next ?_
  split
  · exact h
  · exact .ite h h.endAtBoundary.settle

/-! ### PartCmds -/

theorem Keeps.partCreate {c k} (h : Keeps s t) : Keeps s (t.partCreate c k) := by
  unfold State.partCreate
  dsimp only
  split
  · exact h
  · split
    · exact h.endCmd
    · split
      · exact h.endCmd
      · split
        · exact h.endCmd
        · split
          · exact h.endCmd
          · split
            · exact h.endCmd
            · exact .ite h.endCmd (.ite h.endCmd (((Keeps.foldl (fun _ _ hu => hu.updDie) h.setPart.updCores).beside).endCmd))

theorem execOpPartCreate_steps {c} : Steps s (execOpPartCreate c s) :=
  have h : Keeps s s := .refl s
  .next (h.gate fun _ _ _ _ hu => hu.partCreate)

theorem Keeps.beginDrain {p} (h : Keeps s t) : Keeps s (t.beginDrain p) :=
  (Keeps.foldl (fun _ _ hu => hu.updStream) h.acceptAll).updPart

theorem Keeps.partDestroy {c p} (h : Keeps s t) : Keeps s (t.partDestroy c p) := by
  unfold State.partDestroy
  dsimp only
  split
  · exact h
  · exact .ite h.endCmd (.ite h.startCmd.updPart.beginDrain h.startCmd.updPart)

theorem execOpPartDestroy_steps {c} : Steps s (execOpPartDestroy c s) :=
  have h : Keeps s s := .refl s
  .next (h.gate fun _ _ _ _ hu => hu.partDestroy)

theorem Keeps.partDisable {c k p} (h : Keeps s t) : Keeps s (t.partDisable c k p) := by
  unfold State.partDisable
  dsimp only
  split
  · exact h
  · exact .ite h.endCmd (.ite h.startCmd.beginDrain.updPart (.ite h.updPart.endCmd h.endCmd))

theorem execOpPartDisable_steps {c} : Steps s (execOpPartDisable c s) :=
  have h : Keeps s s := .refl s
  .next (h.gate fun _ _ _ _ hu => hu.partDisable)

theorem execOpPartStat_steps {c} : Steps s (execOpPartStat c s) := by
  have h : Keeps s s := .refl s
  unfold execOpPartStat
  refine .next ?_
  refine h.gate (fun t k p _ hu => ?_)
  split
  · exact hu.endCmd
  · split
    · exact hu
    · exact hu.finishOut

theorem Keeps.ctxCreate {c k p} (h : Keeps s t) : Keeps s (t.ctxCreate c k p) := by
  unfold State.ctxCreate
  dsimp only
  split
  · exact h
  · split
    · exact h.endCmd
    · split
      · exact h.endCmd
      · split
        · exact h.endCmd
        · split
          · exact h.endCmd
          · split
            · exact h.endCmd
            · next heq => exact ((Keeps.ofSnd h.placeFw heq).updPart).endCmd

theorem execOpCtxCreate_steps {c} : Steps s (execOpCtxCreate c s) :=
  have h : Keeps s s := .refl s
  .next (h.gate fun _ _ _ _ hu => hu.ctxCreate)

theorem Keeps.ctxDestroy {c p h'} (h : Keeps s t) : Keeps s (t.ctxDestroy c p h') :=
  (Keeps.foldl (fun _ _ hu => hu.updStream) h.startCmd.acceptAll).updCtx

theorem execOpCtxDestroy_steps {c} : Steps s (execOpCtxDestroy c s) :=
  have h : Keeps s s := .refl s
  .next (h.gate fun _ _ _ _ hu => hu.ctxDestroy)

theorem Keeps.cmdAbort {c k} (h : Keeps s t) : Keeps s (t.cmdAbort c k) := by
  unfold State.cmdAbort
  exact .ite h.endCmd ((Keeps.foldl (fun _ _ hu => hu.endAtBoundary) h.startCmd).updCmd)

theorem execOpCmdAbort_steps {c} : Steps s (execOpCmdAbort c s) :=
  have h : Keeps s s := .refl s
  .next (h.gate fun _ _ _ _ hu => hu.cmdAbort)

theorem execQuantumExpiry_steps {part} : Steps s (execQuantumExpiry part s) := by
  have h : Keeps s s := .refl s
  unfold execQuantumExpiry
  refine .next ?_
  split
  · exact h
  · exact .ite h.decideSwitch.settle h

theorem execSwitchPoint_steps {part} : Steps s (execSwitchPoint part s) := by
  have h : Keeps s s := .refl s
  unfold execSwitchPoint
  dsimp only
  refine .next ?_
  split
  · exact h
  · split
    · exact h
    · split
      · exact h
      · split
        · exact h
        · exact .ite h h.saveCtx.updPart

theorem execSwitchSaveDone_steps {part} : Steps s (execSwitchSaveDone part s) := by
  have h : Keeps s s := .refl s
  unfold execSwitchSaveDone
  dsimp only
  refine .next ?_
  split
  · exact h
  · split
    · exact h
    · exact .ite h h.clearCores.updPart.refreshCtx.settle

theorem execSwitchRestoreDone_steps {part us} : Steps s (execSwitchRestoreDone part us s) := by
  have h : Keeps s s := .refl s
  unfold execSwitchRestoreDone
  dsimp only
  refine .next ?_
  split
  · exact h
  · split
    · exact h
    · split
      · exact h
      · split
        · exact h
        · split
          · refine ((Keeps.enterCtx ?_).updPart).settle
            split
            · exact .ite h.readImages.updCtx h.readImages
            · exact .ite h.updCtx h
          · refine (((Keeps.enterCtx ?_).updPart).teardown).settle
            split
            · exact .ite h.readImages.updCtx h.readImages
            · exact .ite h.updCtx h

/-! ### Firmware -/

theorem Keeps.updFwKind {k f} (h : Keeps s t) : Keeps s (t.updFwKind k f) := h.frame rfl

theorem Keeps.stageImage {kind img} (h : Keeps s t) : Keeps s (t.stageImage kind img) := h.updFwKind.event

theorem Keeps.signalFw (h : Keeps s t) : Keeps s t.signalFw := .ite h.sendMsix h

theorem Keeps.fwStage {c k slotBad} (h : Keeps s t) : Keeps s (t.fwStage c k slotBad) := by
  unfold State.fwStage
  dsimp only
  split
  · exact h.endCmd
  · split
    · exact h.endCmd
    · split
      · exact h
      · next heq => exact (h.readEng.bad heq).endCmd
      · next heq =>
        have hok := h.readEng.ok heq
        split
        · exact hok.endCmd
        · exact .ite hok.endCmd hok.stageImage.endCmd

theorem execOpFwStage_steps {c slotBad} : Steps s (execOpFwStage c slotBad s) :=
  have h : Keeps s s := .refl s
  .next (h.gate fun _ _ _ _ hu => hu.fwStage)

theorem Keeps.loadFree {newFw} (h : Keeps s t) : Keeps s (t.loadFree newFw) := Keeps.foldl (fun _ _ hu => hu.setConductor) h

theorem Keeps.startChange {kind revert byPldm cmd} (h : Keeps s t) : Keeps s (t.startChange kind revert byPldm cmd) :=
  .ite (Keeps.stewardReset (.ite ((Keeps.beside (.ite h h.updFwKind)).updFwKind) (Keeps.beside (.ite h h.updFwKind)))) (.ite
      ((Keeps.beside (.ite h h.updFwKind)).loadFree) (Keeps.beside (.ite h h.updFwKind)))

theorem Keeps.endChange {f} (h : Keeps s t) : Keeps s (t.endChange f) := by
  have hs : Keeps s (t.updFwKind f.kind (fun x => if f.revert then { x with phase := .staged } else { x with trialAt := t.tb.now
      })) := h.updFwKind
  unfold State.endChange
  dsimp only
  split
  · exact Keeps.signalFw (Keeps.event (hs.frame rfl))
  · exact Keeps.signalFw (Keeps.endCmd (Keeps.event (hs.frame rfl)))

theorem Keeps.fwAdvance {n} (h : Keeps s t) : Keeps s (t.fwAdvance n) := by
  induction n generalizing t with
  | zero => exact h
  | succ n ih =>
    unfold State.fwAdvance
    split
    · exact .ite (ih h.endChange) h
    · refine .ite h ?_
      split
      · exact h.frame rfl
      · next k _ =>
        have hdone : Keeps s { t with mgmt := { t.mgmt with applied := t.mgmt.applied.filter (fun x => x != k) } } := h.frame rfl
        exact .ite (ih hdone) (ih hdone.startChange)

theorem Keeps.fwCommit {kind} (h : Keeps s t) : Keeps s (t.fwCommit kind) :=
  (Keeps.event (.ite (Keeps.foldl (fun _ _ hu => hu.setConductor) h.blowSvn.updFwKind) (.ite (Keeps.foldl (fun _ _ hu =>
      hu.updDie) h.blowSvn.updFwKind) h.blowSvn.updFwKind))).signalFw

theorem Keeps.fwActivate {c k} (h : Keeps s t) : Keeps s (t.fwActivate c k) := by
  unfold State.fwActivate
  exact .ite h.endCmd (.ite h (.ite (.ite h.endCmd (.ite h.endCmd (.ite h.endCmd h.startCmd.startChange.fwAdvance))) (.ite h.endCmd
      (.ite h.fwCommit.endCmd h.startCmd.startChange.fwAdvance))))

theorem execOpFwActivate_steps {c} : Steps s (execOpFwActivate c s) :=
  have h : Keeps s s := .refl s
  .next (h.gate fun _ _ _ _ hu => hu.fwActivate)

theorem Keeps.setTodo {f todo} (h : Keeps s t) : Keeps s (t.setTodo f todo) := h.frame rfl

theorem Keeps.fwSettle (h : Keeps s t) : Keeps s t.fwSettle := by
  unfold State.fwSettle
  dsimp only
  refine (Keeps.fwAdvance ?_).settle
  split
  · exact h
  · exact h.setTodo.loadFree

theorem execConductorLoaded_steps {core} : Steps s (execConductorLoaded core s) :=
  have h : Keeps s s := .refl s
  .next (.ite h h.setConductor.fwSettle)

theorem execEquinoxHandover_steps {part} : Steps s (execEquinoxHandover part s) := by
  have h : Keeps s s := .refl s
  unfold execEquinoxHandover
  dsimp only
  refine .next ?_
  split
  · exact h
  · split
    · exact h
    · split
      · exact h.fwSettle
      · split
        · exact h.setTodo.fwSettle
        · split
          · exact h
          · split
            · exact h
            · exact h.updPart.setSpare.setTodo.fwSettle

theorem execMarshalActivation_steps {die} : Steps s (execMarshalActivation die s) := by
  have h : Keeps s s := .refl s
  unfold execMarshalActivation
  refine .next ?_
  split
  · exact h
  · exact .ite h h.updDie.setTodo.fwSettle

theorem Keeps.equinoxAbort (h : Keeps s t) : Keeps s t.equinoxAbort := by
  unfold State.equinoxAbort
  dsimp only
  split
  · exact h
  · split
    · exact h.frame rfl
    · exact Keeps.signalFw (Keeps.endCmd (h.frame rfl))

theorem execFwTrialTimer_steps {kind} : Steps s (execFwTrialTimer kind s) :=
  have h : Keeps s s := .refl s
  .next (.ite h.fwCommit h)

theorem execFirmwareFault_steps {kind} : Steps s (execFirmwareFault kind s) := by
  have h : Keeps s s := .refl s
  unfold execFirmwareFault
  dsimp only
  refine .next ?_
  split
  · split
    · exact h.startChange.fwAdvance.settle
    · exact .ite h.startChange.fwAdvance.settle h
  · exact h

theorem Keeps.trialRevert (h : Keeps s t) : Keeps s t.trialRevert := .ite h.updFwKind.event.signalFw h

/-! ### Security -/

theorem Keeps.storeAuthSeq {k off} (h : Keeps s t) : Keeps s (t.storeAuthSeq k off) := h.beside

theorem Keeps.scrubAll (h : Keeps s t) : Keeps s t.scrubAll := Keeps.updCores (h.frame rfl)

theorem Keeps.dropKeys (h : Keeps s t) : Keeps s t.dropKeys := (h.dropStores : Keeps s (t.dropStores (fun _ => true))).frame rfl

theorem execFlashEraseDone_steps : Steps s (execFlashEraseDone s) :=
  have h : Keeps s s := .refl s
  .next (.ite h (Keeps.event (h.frame rfl)))

/-- A transition blows life-cycle bits without a gap, and one that erases comes after FIELD (R543, R544). -/
theorem Keeps.lcAdvance {c k bad} (h : Keeps s t) : Keeps s (t.lcAdvance c k bad) := by
  unfold State.lcAdvance
  dsimp only
  refine .ite h (.ite h.endCmd ?_)
  split
  · exact h.endCmd
  · next owner erase hmove =>
    refine .ite h.endCmd ?_
    split
    · exact h.endCmd
    · obtain ⟨hto, hlate⟩ := lcMove_target hmove
      have hauth : Keeps s ((t.startCmd c).storeAuthSeq k 0x10) := h.startCmd.storeAuthSeq
      have hadv := hauth.advanceLc hto (d := none)
      have hfield (he : erase = true) : k.p 0 1 ≤ lcCode (((t.startCmd c).storeAuthSeq k 0x10).sec.fuses.lc ||| lcBits (k.p 0 1)) :=
        (lcCode_or_lcBits _ _ hto).2.1
      refine .ite hauth.event.endCmd ?_
      split
      · next hstop =>
        have he : erase = true := by
          rw [Option.filter_eq_some_iff] at hstop
          exact (Bool.and_eq_true_iff.mp hstop.2).1
        exact (hadv.stopErase fun _ => (hlate he).trans (hfield he)).event.event.endCmd
      · cases erase with
        | true =>
          have hkill := (hadv.killKeys fun _ => (hlate rfl).trans (hfield rfl)).dropKeys
          simp only [if_true, true_or]
          exact hkill.scrubAll.event.endCmd.startErase
        | false =>
          simp only [Bool.false_eq_true, if_false, false_or]
          exact Keeps.endCmd (Keeps.event (.ite hadv.scrubAll hadv))

theorem execOpLcAdvance_steps {c bad} : Steps s (execOpLcAdvance c bad s) :=
  have h : Keeps s s := .refl s
  .next (h.gate fun _ _ _ _ hu => hu.lcAdvance)

/-- A slot is programmed only where it was not, and a revoke bit is only blown (R546). -/
theorem Keeps.keyProvision {c k fuseBad} (h : Keeps s t) : Keeps s (t.keyProvision c k fuseBad) := by
  have hrevoke {u : State} (hu : Keeps s u) {b : BitVec 4} :
      Keeps s { u with sec := { u.sec with fuses := { u.sec.fuses with ownerRevoke := u.sec.fuses.ownerRevoke ||| b } } } :=
    hu.fuse ⟨fun _ _ => id, fun i _ hr => by simp only [BitVec.getLsbD_or, hr, Bool.true_or], id, fun _ _ => id, le_rfl, le_rfl,
        le_rfl⟩
      le_rfl (fun g => g.lcNoGap) (fun _ => .inl) (fun _ => .inl)
  have hown {u : State} (hu : Keeps s u) {slot x : Nat} (hfree : SMap.get none u.sec.fuses.owner slot = none) :
      Keeps s { u with sec := { u.sec with fuses := { u.sec.fuses with owner := SMap.set none u.sec.fuses.owner slot (some x) } }
          } := by
    refine hu.fuse ⟨fun _ _ => id, fun _ _ => id, id, fun i y hy => ?_, le_rfl, le_rfl, le_rfl⟩
      le_rfl (fun g => g.lcNoGap) (fun _ => .inl) (fun _ => .inl)
    have hne : i ≠ slot := by
      rintro rfl
      exact absurd (hfree.symm.trans hy) (Option.some_ne_none y).symm
    show SMap.get none (SMap.set none u.sec.fuses.owner slot (some x)) i = some y
    rw [SMap.get_set_ne _ _ _ hne]
    exact hy
  unfold State.keyProvision
  dsimp only
  refine .ite h (.ite h.endCmd ?_)
  split
  · exact h.endCmd
  · next hslot =>
    split
    · exact h.endCmd
    · have hstored : Keeps s (if (!bitOf (k.p 0 1) 2 && t.lcState == 2 && !(List.range 4).any t.ownerSet) = true then t.startCmd c
          else (t.startCmd c).storeAuthSeq k 0x40) ∧
          (if (!bitOf (k.p 0 1) 2 && t.lcState == 2 && !(List.range 4).any t.ownerSet) = true then t.startCmd c
          else (t.startCmd c).storeAuthSeq k 0x40).sec.fuses = t.sec.fuses :=
        ⟨.ite h.startCmd h.startCmd.storeAuthSeq, by split <;> simp only [State.startCmd, State.storeAuthSeq, State.updCmd_sec]⟩
      generalize (if (!bitOf (k.p 0 1) 2 && t.lcState == 2 && !(List.range 4).any t.ownerSet) = true then t.startCmd c
          else (t.startCmd c).storeAuthSeq k 0x40) = v at hstored ⊢
      obtain ⟨hauth, hfuses⟩ := hstored
      refine .ite hauth.event.endCmd (Keeps.endCmd ?_)
      split
      · exact hrevoke hauth
      · next hnew =>
        refine hown hauth ?_
        have hfree : t.ownerSet (k.p 0 1 % 4) = false := by
          by_contra hset
          exact hslot (by simp [State.slotOk, hnew, hset])
        rw [hfuses]
        simpa [State.ownerSet] using hfree

theorem execOpKeyProvision_steps {c fuseBad} : Steps s (execOpKeyProvision c fuseBad s) :=
  have h : Keeps s s := .refl s
  .next (h.gate fun _ _ _ _ hu => hu.keyProvision)

theorem Keeps.debugUnlock {c k nonce} (h : Keeps s t) : Keeps s (t.debugUnlock c k nonce) := by
  unfold State.debugUnlock
  dsimp only
  split
  · exact h.endCmd
  · split
    · exact h.endCmd
    · split
      · exact Keeps.endCmd (h.frame rfl)
      · split
        · split
          · exact Keeps.endCmd (h.frame rfl)
          · exact .ite (Keeps.endCmd (h.frame rfl)) (.ite (Keeps.endCmd (h.frame rfl)) (.ite (Keeps.endCmd (h.frame rfl)) (Keeps.endCmd (h.frame rfl))))
        · exact Keeps.endCmd (h.frame rfl)

theorem execOpDebugUnlock_steps {c nonce} : Steps s (execOpDebugUnlock c nonce s) :=
  have h : Keeps s s := .refl s
  .next (h.gate fun _ _ _ _ hu => hu.debugUnlock)

theorem execDebugSessionExpiry_steps : Steps s (execDebugSessionExpiry s) :=
  have h : Keeps s s := .refl s
  .next (h.frame rfl)

theorem execChallengeExpiry_steps : Steps s (execChallengeExpiry s) :=
  have h : Keeps s s := .refl s
  .next (h.frame rfl)

theorem Keeps.unlockPart {p x} (h : Keeps s t) : Keeps s (t.unlockPart p x) :=
  (Keeps.foldl (fun _ _ hu => hu.scrubBacking) h.updCores).updPart

theorem Keeps.confCmd {c k p} (h : Keeps s t) : Keeps s (t.confCmd c k p) := by
  unfold State.confCmd
  dsimp only
  split
  · exact h
  · exact .ite h.endCmd (.ite h.endCmd (.ite (.ite h.endCmd h.updPart.endCmd) h.unlockPart.updPart.endCmd))

theorem execOpConfidential_steps {c} : Steps s (execOpConfidential c s) :=
  have h : Keeps s s := .refl s
  .next (h.gate fun _ _ _ _ hu => hu.confCmd)

theorem Keeps.planKey {c k p} (h : Keeps s t) : Keeps s (t.planKey c k p) := by
  unfold State.planKey
  dsimp only
  split
  · exact h
  · exact .ite h.endCmd (.ite h.endCmd (.ite h.endCmd (.ite h.refuseLocked (.ite h.updPart.endCmd h.updPart.endCmd))))

theorem execOpPlanKey_steps {c} : Steps s (execOpPlanKey c s) :=
  have h : Keeps s s := .refl s
  .next (h.gate fun _ _ _ _ hu => hu.planKey)

theorem Keeps.respond {ok yes} (h : Keeps s t) (hyes : ∀ u, Keeps s u → Keeps s (yes u)) : Keeps s (t.respond ok yes) :=
  .ite h (.ite (hyes t h) h.answer)

theorem execSpdmGetVersion_steps : Steps s (execSpdmGetVersion s) :=
  have h : Keeps s s := .refl s
  .next (h.respond fun _ hu => (Keeps.answer (hu.frame rfl)))

theorem execSpdmGetCapabilities_steps {version} : Steps s (execSpdmGetCapabilities version s) :=
  have h : Keeps s s := .refl s
  .next (h.respond fun _ hu => (Keeps.answer (hu.frame rfl)))

theorem execNegotiateAlgorithms_steps {offersAll} : Steps s (execNegotiateAlgorithms offersAll s) :=
  have h : Keeps s s := .refl s
  .next (h.respond fun _ hu => (Keeps.answer (hu.frame rfl)))

theorem execGetDigests_steps : Steps s (execGetDigests s) :=
  have h : Keeps s s := .refl s
  .next (h.respond fun _ hu => hu.answer)

theorem execGetCertificate_steps {slot off len} : Steps s (execGetCertificate slot off len s) :=
  have h : Keeps s s := .refl s
  .next (h.respond fun _ hu => hu.answer)

theorem execChallenge_steps {slot nonce} : Steps s (execChallenge slot nonce s) :=
  have h : Keeps s s := .refl s
  .next (h.respond fun _ hu => hu.answer)

theorem execGetMeasurements_steps {index} : Steps s (execGetMeasurements index s) :=
  have h : Keeps s s := .refl s
  .next (h.respond fun _ hu => hu.answer)

theorem Keeps.setSessions {l} (h : Keeps s t) : Keeps s (t.setSessions l) := h.frame rfl

theorem execKeyExchange_steps {slot} : Steps s (execKeyExchange slot s) := by
  have h : Keeps s s := .refl s
  refine .next (h.respond fun u hu => ?_)
  dsimp only
  generalize hv : u.setSessions _ = v
  have hs : Keeps s v := hv ▸ hu.setSessions
  exact Keeps.answer (hs.frame rfl)

theorem execFinish_steps {session verified} : Steps s (execFinish session verified s) :=
  have h : Keeps s s := .refl s
  .next (h.respond fun _ hu => .ite hu.setSessions.answer hu.setSessions.answer)

theorem execHeartbeat_steps {session} : Steps s (execHeartbeat session s) :=
  have h : Keeps s s := .refl s
  .next (h.respond fun _ hu => hu.answer)

theorem execKeyUpdate_steps {session} : Steps s (execKeyUpdate session s) :=
  have h : Keeps s s := .refl s
  .next (h.respond fun _ hu => hu.setSessions.answer)

theorem execEndSession_steps {session} : Steps s (execEndSession session s) :=
  have h : Keeps s s := .refl s
  .next (h.respond fun _ hu => hu.setSessions.answer)

theorem Keeps.setIde {n x} (h : Keeps s t) : Keeps s (t.setIde n x) := h.frame rfl

theorem execIdeKmKeyProg_steps {session stream set} : Steps s (execIdeKmKeyProg session stream set s) :=
  have h : Keeps s s := .refl s
  .next (h.respond fun _ hu => hu.setIde.answer)

theorem execKSetGo_steps {session stream set} : Steps s (execKSetGo session stream set s) :=
  have h : Keeps s s := .refl s
  .next (h.respond fun _ hu => hu.setIde.answer)

theorem Keeps.streamDown {n} (h : Keeps s t) : Keeps s (t.streamDown n) := by
  unfold State.streamDown
  refine Keeps.foldl (fun u x hu => ?_) h.setIde
  split
  · exact hu
  · exact .ite hu.tdiError hu

theorem Keeps.dropIde (h : Keeps s t) : Keeps s t.dropIde := (Keeps.foldl (fun _ _ hu => hu.streamDown) h).settle

theorem execIdeIntegrityFailure_steps {stream} : Steps s (execIdeIntegrityFailure stream s) :=
  have h : Keeps s s := .refl s
  .next (.ite h.streamDown.settle h)

theorem Keeps.tdisp {session part ok yes} (h : Keeps s t) (hyes : ∀ u x, Keeps s u → Keeps s (yes u x)) :
    Keeps s (t.tdisp session part ok yes) := by
  unfold State.tdisp
  split
  · exact h.respond fun _ hu => hu
  · exact h.respond fun u hu => hyes u _ hu

theorem execTdispGetVersion_steps {session} : Steps s (execTdispGetVersion session s) :=
  have h : Keeps s s := .refl s
  .next (h.respond fun _ hu => hu.answer)

theorem execTdispGetCapabilities_steps {session} : Steps s (execTdispGetCapabilities session s) :=
  have h : Keeps s s := .refl s
  .next (h.respond fun _ hu => hu.answer)

theorem Keeps.setTdi {p t' stream} (h : Keeps s t) : Keeps s (t.setTdi p t' stream) := h.updPart

theorem execLockInterfaceRequest_steps {session part stream} : Steps s (execLockInterfaceRequest session part stream s) :=
  have h : Keeps s s := .refl s
  .next (h.tdisp fun _ _ hu => hu.setTdi.answer)

theorem execGetDeviceInterfaceReport_steps {session part} : Steps s (execGetDeviceInterfaceReport session part s) :=
  have h : Keeps s s := .refl s
  .next (h.tdisp fun _ _ hu => hu.answer)

theorem execGetDeviceInterfaceState_steps {session part} : Steps s (execGetDeviceInterfaceState session part s) :=
  have h : Keeps s s := .refl s
  .next (h.tdisp fun _ _ hu => hu.answer)

theorem execStartInterfaceRequest_steps {session part} : Steps s (execStartInterfaceRequest session part s) :=
  have h : Keeps s s := .refl s
  .next (h.tdisp fun _ _ hu => hu.setTdi.answer)

theorem Keeps.emptyPart {p} (h : Keeps s t) : Keeps s (t.emptyPart p) := by
  unfold State.emptyPart
  dsimp only
  split
  · exact h
  · split
    · exact (Keeps.foldl (fun _ _ hu => hu.releaseCtx) h).dropStores
    · exact (Keeps.foldl (fun _ _ hu => hu.scrubBacking) ((Keeps.foldl (fun _ _ hu => hu.releaseCtx) h).dropStores)).updPart

theorem execStopInterfaceRequest_steps {session part} : Steps s (execStopInterfaceRequest session part s) :=
  have h : Keeps s s := .refl s
  .next (h.tdisp fun _ _ hu => hu.endTenant.emptyPart.unlockPart.setTdi.answer.settle)

theorem execJtagInstruction_steps {ir} : Steps s (execJtagInstruction ir s) :=
  have h : Keeps s s := .refl s
  .next (.ite h (.ite (Keeps.answer (h.frame rfl)) (h.frame rfl)))

theorem execJtagTrst_steps : Steps s (execJtagTrst s) :=
  have h : Keeps s s := .refl s
  .next (h.frame rfl)

/-! ### Faults -/

theorem Keeps.noteShort {d} (h : Keeps s t) : Keeps s (t.noteShort d) := by
  unfold State.noteShort
  exact h.updDie

theorem Keeps.writeSel {d c} (h : Keeps s t) : Keeps s (t.writeSel d c) :=
  Keeps.foldl (fun _ _ hu => Keeps.foldl (fun _ _ hu => hu.updCore) hu) h

theorem Keeps.coreEvent {code d c f} (h : Keeps s t) : Keeps s (t.coreEvent code d c f) := h.record

theorem Keeps.drainAround {k} (h : Keeps s t) : Keeps s (t.drainAround k) := by
  unfold State.drainAround
  dsimp only
  refine Keeps.foldl (fun u x hu => ?_) h.updCore
  split
  · exact hu
  · exact hu.updCore

theorem Keeps.discarded {k d} (h : Keeps s t) : Keeps s (t.discarded k d) := by
  unfold State.discarded
  dsimp only
  split
  · exact h
  · exact Keeps.noteRecovery (h.frame rfl)

theorem Keeps.replayHere {k} (h : Keeps s t) : Keeps s (t.replayHere k) := by
  unfold State.replayHere
  exact h.drainAround.discarded.updCore

theorem Keeps.relocate {d c f wdog} (h : Keeps s t) : Keeps s (t.relocate d c f wdog) :=
  (Keeps.foldl (fun _ _ hu => hu.discarded) (((Keeps.foldl (fun _ _ hu => hu.setCore) (Keeps.foldl (fun _ _ hu => hu.drainAround)
      h)).updDie).setCore)).writeSel

theorem Keeps.mapOut {d c f} (h : Keeps s t) : Keeps s (t.mapOut d c f) := .ite h.updDie.coreEvent.coreEvent h.updDie

theorem Keeps.countRecovery (h : Keeps s t) : Keeps s t.countRecovery := h.frame rfl

theorem Keeps.recoverCore {d sourceBad e} (h : Keeps s t) : Keeps s (t.recoverCore d sourceBad e).1 := by
  unfold State.recoverCore
  dsimp only
  split
  · dsimp only
    exact h.updDie
  · generalize hs2 : List.foldl _ _ _ = u
    have hu : Keeps s u := by
      rw [← hs2]
      exact Keeps.foldl (fun _ _ hv => .ite hv.replayHere hv) h.relocate.mapOut
    split
    · dsimp only
      exact hu.coreEvent
    · dsimp only
      exact hu.countRecovery.coreEvent.coreEvent

theorem Keeps.visible {d} (h : Keeps s t) : Keeps s (t.visible d) := by
  unfold State.visible
  dsimp only
  split
  · exact h.noteShort
  · exact h.noteShort.teardown

theorem Keeps.resetTested {d} (h : Keeps s t) : Keeps s (t.resetTested d) := Keeps.foldl (fun _ _ hu => hu.updCore.writeSel) h

theorem Keeps.setupTested {d c f} (h : Keeps s t) : Keeps s (t.setupTested d c f) := by
  unfold State.setupTested
  dsimp only
  split
  · split
    · exact h
    · exact h.updCore
  · exact h

theorem Keeps.sharedCause {d faults} (h : Keeps s t) : Keeps s (t.sharedCause d faults) :=
  (((Keeps.foldl (fun _ _ hu => hu.replayHere) h).updDie).countRecovery).record

theorem execCoreFaultRecovery_steps {die faults sourceBad} : Steps s (execCoreFaultRecovery die faults sourceBad s) := by
  unfold execCoreFaultRecovery
  dsimp only
  refine .next (.ite (Keeps.refl s) (.ite (Keeps.refl s).sharedCause.settle ?_))
  generalize hr : (List.foldl _ _ _ : State × Bool) = r
  have hrec : Keeps s r.1 := by
    rw [← hr]
    exact Keeps.foldlOn (g := Prod.fst) (fun _ _ ha => Keeps.recoverCore ha) (Keeps.refl s)
  exact (Keeps.resetTested (.ite hrec.visible hrec)).noteShort.noteStatus.settle

theorem Keeps.regap {d c} (h : Keeps s t) : Keeps s (t.regap d c) := by
  unfold State.regap
  dsimp only
  split
  · exact .ite h.relocate h
  · exact h

theorem execSelfTestDone_steps {core pass} : Steps s (execSelfTestDone core pass s) :=
  have h : Keeps s s := .refl s
  .next (.ite h ((Keeps.noteShort (.ite h.updDie.coreEvent.setupTested.regap.coreEvent
      h.updDie.coreEvent.setupTested.regap)).noteStatus))

theorem execGapTestTimer_steps {die} : Steps s (execGapTestTimer die s) :=
  have h : Keeps s s := .refl s
  .next (.ite h h.updDie.resetTested)

theorem Keeps.startAction {e} (h : Keeps s t) : Keeps s (t.startAction e) := .ite h.startChanReset h

theorem Keeps.stewardReport {e} (h : Keeps s t) : Keeps s (t.stewardReport e) :=
  .ite (h.frame rfl) (.ite (Keeps.startAction (h.frame rfl)) h.record.startAction)

theorem Keeps.report {r} (h : Keeps s t) : Keeps s (t.report r) := by
  unfold State.report
  dsimp only
  split
  · exact h.stewardReport
  · exact .ite h (.ite h.updDie (Keeps.stewardReport (.ite h.updDie h)))

theorem execFaultReport_steps {r} : Steps s (execFaultReport r s) :=
  have h : Keeps s s := .refl s
  .next h.report

theorem execMarshalCoalesceClose_steps {die code unit} : Steps s (execMarshalCoalesceClose die code unit s) := by
  have h : Keeps s s := .refl s
  unfold execMarshalCoalesceClose
  dsimp only
  refine .next ?_
  split
  · exact h
  · exact .ite h.updDie h.updDie.stewardReport

theorem execStewardCoalesceClose_steps {code unit} : Steps s (execStewardCoalesceClose code unit s) := by
  have h : Keeps s s := .refl s
  unfold execStewardCoalesceClose
  dsimp only
  refine .next ?_
  split
  · exact h
  · exact .ite h (Keeps.record (h.frame rfl))

theorem execDmaDeadlineExpiry_steps {core eng stack chan} : Steps s (execDmaDeadlineExpiry core eng stack chan s) :=
  have h : Keeps s s := .refl s
  .next (.ite h (h.onCore fun _ => .ite h (.ite h.updCore h.updCore.setChan.report)))

theorem execChannelResetDone_steps {stack chan answers} : Steps s (execChannelResetDone stack chan answers s) :=
  have h : Keeps s s := .refl s
  .next (.ite h (.ite h.record.setChan.releaseHeld (.ite h.record.setChan.startSparing h.record.setChan)))

theorem execLinkRetryExcess_steps {die link bridge} : Steps s (execLinkRetryExcess die link bridge s) :=
  have h : Keeps s s := .refl s
  .next (.ite h (.ite h.updDie.event h.updDie))

theorem Keeps.noteCmds {p f} (h : Keeps s t) : Keeps s (t.noteCmds p f) := Keeps.foldl (fun _ _ hu => hu.noteRecovery) h

theorem execMarshalRestart_steps {die testPass} : Steps s (execMarshalRestart die testPass s) := by
  have h : Keeps s s := .refl s
  unfold execMarshalRestart
  dsimp only
  refine .next ?_
  split
  · exact h
  · split
    · exact .ite h h.updDie.noteShort
    · split
      · exact h.updDie
      · exact Keeps.foldl (fun _ _ hu => hu.noteRecovery) h.updDie

theorem Keeps.takeOver {p n} (h : Keeps s t) : Keeps s (t.takeOver p n) := by
  unfold State.takeOver
  dsimp only
  split
  · exact h.setConductor.updPart
  · exact .ite h.setConductor.updPart.setTodo h.setConductor.updPart

theorem Keeps.equinoxCheck (h : Keeps s t) : Keeps s t.equinoxCheck := by
  unfold State.equinoxCheck
  dsimp only
  split
  · exact h
  · exact .ite h.equinoxAbort h

theorem execConductorTakeover_steps {core testPass} : Steps s (execConductorTakeover core testPass s) := by
  have h : Keeps s s := .refl s
  unfold execConductorTakeover
  dsimp only
  refine .next ?_
  split
  · exact h
  · split
    · exact h.setConductor.equinoxCheck.settle
    · split
      · exact (Keeps.equinoxCheck (.ite h.noteCmds.takeOver.setConductor.setSpare h.noteCmds.takeOver.setConductor)).settle
      · exact (Keeps.equinoxCheck (.ite h.updPart.teardown.setConductor.setSpare h.updPart.teardown.setConductor)).settle

theorem execHubHalfLoss_steps {half} : Steps s (execHubHalfLoss half s) := by
  have h : Keeps s s := .refl s
  unfold execHubHalfLoss
  dsimp only
  refine .next ?_
  split
  · exact h
  · refine ((((Keeps.foldl (fun u x hu => ?_) (Keeps.foldl (fun _ _ hu => hu.updPart) (((Keeps.foldl (fun _ _ hu => hu.updPart)
        (Keeps.foldl (fun _ _ hu => .ite hu.faultStream hu)
        h.beside)).equinoxAbort).serveWaiting))).dropIde).event).noteStatus).settle
    split
    · exact hu
    · exact .ite hu.noteCmds hu.teardown

theorem execHubHalfRestored_steps {half} : Steps s (execHubHalfRestored half s) :=
  have h : Keeps s s := .refl s
  .next (.ite h (Keeps.settle (Keeps.event (h.frame rfl))))

/-! ### InputDecode -/

theorem Keeps.dcacheConfig {c k p h'} (h : Keeps s t) : Keeps s (t.dcacheConfig c k p h') := by
  unfold State.dcacheConfig
  dsimp only
  split
  · exact h
  · split
    · exact h
    · split
      · exact h.endCmd
      · exact .ite h.endCmd h.startCmd.updCtx

theorem execOpDcacheConfig_steps {c} : Steps s (execOpDcacheConfig c s) :=
  have h : Keeps s s := .refl s
  .next (h.gate fun _ _ _ _ hu => hu.dcacheConfig)

theorem Keeps.stageAll {w xs} (h : Keeps s t) : (t.stageAll w xs).Keeps s := by
  induction xs generalizing t with
  | nil => exact h
  | cons x xs ih =>
    unfold State.stageAll
    split
    · exact trivial
    · next heq => exact h.readEng.bad heq
    · next heq =>
      have hrest := ih (h.readEng.ok heq)
      split
      · exact trivial
      · next heq => exact hrest.bad heq
      · next heq => exact hrest.ok heq

theorem Keeps.writePieces {w xs} (h : Keeps s t) : (t.writePieces w xs).Keeps s := by
  induction xs generalizing t with
  | nil => exact h
  | cons x xs ih =>
    unfold State.writePieces
    split
    · exact h
    · split
      · exact trivial
      · next heq => exact h.writeEng.bad heq
      · next heq => exact ih (h.writeEng.ok heq)

theorem Keeps.granuleDone {c} (h : Keeps s t) : Keeps s (t.granuleDone c) := h.updCmd

theorem Keeps.updDecode {p h' f} (h : Keeps s t) : Keeps s (t.updDecode p h' f) := h.updCtx

theorem Keeps.readEntry {p h' e} (h : Keeps s t) : Keeps s (t.readEntry p h' e).2 := by
  unfold State.readEntry
  dsimp only
  split
  · exact h
  · split
    · exact (Keeps.foldl (fun _ _ hu => hu.fwRead) h).takeLoss
    · exact ((Keeps.foldl (fun _ _ hu => hu.fwRead) h).takeLoss).updDecode

theorem Keeps.insertEntry {p h' e} (h : Keeps s t) : Keeps s (t.insertEntry p h' e) := by
  unfold State.insertEntry
  dsimp only
  split
  · exact h.updDecode
  · split
    · exact h.updDecode
    · exact .ite h.updDecode h.updDecode.fillRanges.aside

theorem Keeps.jpegWrite {c k p x xs done hits} (h : Keeps s t) : Keeps s (t.jpegWrite c k p x xs done hits) := by
  induction xs generalizing t done hits with
  | nil => exact h.endCmd
  | cons e xs ih =>
    obtain ⟨y, src⟩ := e
    unfold State.jpegWrite
    dsimp only
    cases src with
    | hit e =>
      dsimp only
      split
      · exact h.endCmd
      · next heq => exact (h.readEntry.snd heq).endCmd
      · next heq =>
        have hread := h.readEntry.snd heq
        split
        · exact h
        · next heq => exact (hread.writePieces.bad heq).endCmd
        · next heq => exact ih (hread.writePieces.ok heq).granuleDone.updDecode
    | miss conflict w =>
      dsimp only
      split
      · exact h.endCmd
      · nomatch ‹(none, t) = (some _, _)›
      · next e =>
        obtain ⟨-, rfl⟩ := Prod.mk.inj e
        split
        · exact h
        · next heq => exact (h.writePieces.bad heq).endCmd
        · next heq =>
          have hnext := h.writePieces.ok heq
          exact ih (.ite hnext.granuleDone.insertEntry hnext.granuleDone)

theorem Keeps.jpegDecode {c k p h'} (h : Keeps s t) : Keeps s (t.jpegDecode c k p h') := by
  unfold State.jpegDecode
  dsimp only
  split
  · exact h.endCmd
  · split
    · exact h.endCmd
    · split
      · exact h.endCmd
      · split
        · exact h.endCmd
        · exact h
        · split
          · exact h
          · next heq => exact (h.stageAll.bad heq).endCmd
          · next heq =>
            have hok := h.stageAll.ok heq
            split
            · exact hok.endCmd
            · split
              · exact hok.endCmd
              · split
                · exact hok.endCmd
                · exact h
                · exact hok.startCmd.updCmd.jpegWrite

theorem Keeps.decodeGate {c op f} (h : Keeps s t) (hf : ∀ u k p x, Keeps s u → Keeps s (f u k p x)) : Keeps s (t.decodeGate c op
    f) := by
  refine h.gate fun u k p x hu => ?_
  split
  · exact hu
  · exact .ite hu (hf _ _ _ _ hu)

theorem execOpJpegDecode_steps {c} : Steps s (execOpJpegDecode c s) :=
  have h : Keeps s s := .refl s
  .next (h.decodeGate fun _ _ _ _ hu => hu.jpegDecode)

theorem Keeps.setLsf {p h' i x} (h : Keeps s t) : Keeps s (t.setLsf p h' i x) := h.updCtx

theorem Keeps.clearLsf {p h' i} (h : Keeps s t) : Keeps s (t.clearLsf p h' i) := by
  unfold State.clearLsf
  split
  · exact h
  · exact h.dropFw.setLsf

theorem Keeps.lsfRecords {c w p x slot dst bad rs k skipped ref} (h : Keeps s t) :
    Keeps s (t.lsfRecords c w p x slot dst bad rs k skipped ref) := by
  induction rs generalizing t k skipped ref with
  | nil =>
    unfold State.lsfRecords
    dsimp only
    split
    · exact h.endCmd
    · exact .ite h.endCmd h.endCmd
  | cons r rs ih =>
    unfold State.lsfRecords
    dsimp only
    split
    · exact h
    · split
      · exact h.endCmd
      · split
        · exact h
        · next heq => exact (h.writePieces.bad heq).endCmd
        · next heq => exact ih (h.writePieces.ok heq).setLsf.granuleDone

theorem Keeps.lsfOpen {p x slot fresh hdr} (h : Keeps s t) (e : t.lsfOpen p x slot fresh hdr = .ok u) : Keeps s u := by
  unfold State.lsfOpen at e
  dsimp only at e
  split at e
  · exact Except.ok.inj e ▸ h
  · split at e
    · exact Except.ok.inj e ▸ h.clearLsf
    · split at e
      · nomatch e
      · split at e
        · nomatch e
        · next hplace => exact Except.ok.inj e ▸ (Keeps.ofSnd h.clearLsf.placeFw hplace).setLsf

theorem Keeps.lsfRead {c k p x} (h : Keeps s t) : Keeps s (t.lsfRead c k p x) := by
  unfold State.lsfRead
  dsimp only
  refine .ite h ?_
  split
  · exact h.endCmd
  · refine .ite h.endCmd ?_
    split
    · exact h.endCmd
    · exact h
    · split
      · exact h
      · next heq => exact (h.readEng.bad heq).endCmd
      · next heq =>
        have hread := h.readEng.ok heq
        refine .ite hread.endCmd ?_
        split
        · exact hread.endCmd
        · next heq =>
          have hopen := hread.lsfOpen heq
          exact .ite hopen.startCmd.updCmd.endCmd hopen.startCmd.updCmd.lsfRecords

theorem execOpLsfRead_steps {c} : Steps s (execOpLsfRead c s) :=
  have h : Keeps s s := .refl s
  .next (h.decodeGate fun _ _ _ _ hu => hu.lsfRead)

theorem Keeps.lsfWrite {c k p h'} (h : Keeps s t) : Keeps s (t.lsfWrite c k p h') := by
  unfold State.lsfWrite
  dsimp only
  split
  · exact h.endCmd
  · split
    · exact h.endCmd
    · split
      · exact h.endCmd
      · exact h
      · split
        · exact h
        · next heq => exact (h.stageAll.bad heq).endCmd
        · next heq =>
          have hok := h.stageAll.ok heq
          split
          · next heq _ => exact (h.stageAll.ok heq).endCmd
          · split
            · exact hok.endCmd
            · split
              · exact h
              · next heq => exact (hok.writePieces.bad heq).endCmd
              · next heq => exact (hok.writePieces.ok heq).startCmd.updCmd.granuleDone.endCmd

theorem execOpLsfWrite_steps {c} : Steps s (execOpLsfWrite c s) :=
  have h : Keeps s s := .refl s
  .next (h.decodeGate fun _ _ _ _ hu => hu.lsfWrite)

/-! ### MemCmds -/

theorem Keeps.regionCreate {c k p h'} (h : Keeps s t) : Keeps s (t.regionCreate c k p h') := by
  unfold State.regionCreate
  dsimp only
  split
  · exact h
  · split
    · exact h.endCmd
    · split
      · exact h.endCmd
      · split
        · exact h.endCmd
        · split
          · split
            · exact h.endCmd
            · split
              · exact h.endCmd
              · exact h.startCmd.updPart
          · split
            · exact h.endCmd
            · split
              · exact h.endCmd
              · exact h.startCmd.updPart

theorem execOpRegionCreate_steps {c} : Steps s (execOpRegionCreate c s) :=
  have h : Keeps s s := .refl s
  .next (h.gate fun _ _ _ _ hu => hu.regionCreate)

theorem execAllocationScrubDone_steps {part region} : Steps s (execAllocationScrubDone part region s) := by
  have h : Keeps s s := .refl s
  unfold execAllocationScrubDone
  dsimp only
  refine .next ?_
  split
  · exact h
  · split
    · exact h
    · split
      · exact h
      · split
        · exact h.scrubBacking.updPart
        · exact h.scrubBacking.updPart.finish

theorem Keeps.regionDestroy {c k p h'} (h : Keeps s t) : Keeps s (t.regionDestroy c k p h') := by
  unfold State.regionDestroy
  dsimp only
  split
  · exact h
  · split
    · exact h.endCmd
    · exact .ite h.endCmd (.ite h ((Keeps.updPart (.ite h.scrubBacking h)).endCmd))

theorem execOpRegionDestroy_steps {c} : Steps s (execOpRegionDestroy c s) :=
  have h : Keeps s s := .refl s
  .next (h.gate fun _ _ _ _ hu => hu.regionDestroy)

theorem execOpMemClass_steps {c} : Steps s (execOpMemClass c s) :=
  have h : Keeps s s := .refl s
  .next (h.gate fun _ _ _ _ hu => .ite hu.endCmd hu.updPart.endCmd)

theorem Keeps.copyGranules {c w src dst len is} (h : Keeps s t) : Keeps s (t.copyGranules c w src dst len is) := by
  induction is generalizing t with
  | nil => exact h.endCmd
  | cons i is ih =>
    unfold State.copyGranules
    dsimp only
    split
    · exact h
    · next heq => exact (h.readEng.bad heq).failCmd
    · next heq =>
      have hok := h.readEng.ok heq
      split
      · exact h
      · next heq => exact (hok.writeEng.bad heq).failCmd
      · next heq => exact ih (hok.writeEng.ok heq).updCmd

theorem Keeps.memCopy {c k} (h : Keeps s t) : Keeps s (t.memCopy c k) := .ite h.endCmd (.ite h.endCmd h.copyGranules)

theorem execOpMemCopy_steps {c} : Steps s (execOpMemCopy c s) :=
  have h : Keeps s s := .refl s
  .next (h.gate fun _ _ _ _ hu => hu.memCopy)

theorem Keeps.reserveLost {chan} (h : Keeps s t) : Keeps s (t.reserveLost chan) := .ite (h.takeFree.frame rfl) h.takeFree

theorem execPatrolScrubRead_steps {stack chan codeword err} : Steps s (execPatrolScrubRead stack chan codeword err s) := by
  have hs : Keeps s (if err.symbols = 0 then s else s.setLatent stack chan codeword err) := .ite (Keeps.refl s) (Keeps.refl
      s).setLatent
  unfold execPatrolScrubRead
  dsimp only
  refine .next ?_
  split
  · next heq => exact hs.readCodeword.snd heq
  · next heq =>
    have hnext := hs.readCodeword.snd heq
    exact .ite hnext.reserveLost hnext

theorem Keeps.copyReads {stack chan} (h : Keeps s t) : Keeps s (t.copyReads stack chan) :=
  Keeps.foldl (fun _ _ hu => .ite hu.readCodeword hu) h

theorem execSparingCopyDone_steps {stack chan} : Steps s (execSparingCopyDone stack chan s) := by
  have h : Keeps s s := .refl s
  unfold execSparingCopyDone
  dsimp only
  refine .next ?_
  split
  · exact h
  · exact h.copyReads.setChan.releaseHeld.record.noteStatus

/-! ### StewardCmds -/

theorem execLogWrite_steps : Steps s (execLogWrite s) := by
  have h : Keeps s s := .refl s
  unfold execLogWrite
  dsimp only
  refine .next ?_
  split
  · exact h
  · exact .ite h (h.frame rfl)

theorem execOpInventory_steps {c} : Steps s (execOpInventory c s) :=
  have h : Keeps s s := .refl s
  .next (h.gate fun _ _ _ _ hu => .ite hu.endCmd hu.finishOut)

theorem Keeps.clearMax {ids} (h : Keeps s t) : Keeps s (t.clearMax ids) := Keeps.foldl (fun _ _ hu => hu.setSensor) h

theorem Keeps.sensorRead {c k} (h : Keeps s t) : Keeps s (t.sensorRead c k) := by
  unfold State.sensorRead
  dsimp only
  split
  · exact h.endCmd
  · split
    · next heq => exact h.output.fst heq
    · next heq =>
      have hnext := h.output.fst heq
      exact Keeps.endCmd (.ite hnext.clearMax hnext)

theorem execOpSensorRead_steps {c} : Steps s (execOpSensorRead c s) :=
  have h : Keeps s s := .refl s
  .next (h.gate fun _ _ _ _ hu => hu.sensorRead)

theorem Keeps.eventRead {c k} (h : Keeps s t) : Keeps s (t.eventRead c k) := by
  unfold State.eventRead
  dsimp only
  split
  · exact h.endCmd
  · split
    · next heq => exact h.output.fst heq
    · next heq =>
      have hout := h.output.fst heq
      refine Keeps.endCmd ?_
      split
      · exact hout.frame rfl
      · exact hout

theorem execOpEventRead_steps {c} : Steps s (execOpEventRead c s) :=
  have h : Keeps s s := .refl s
  .next (h.gate fun _ _ _ _ hu => hu.eventRead)

theorem execLockstepMismatch_steps {testPass} : Steps s (execLockstepMismatch testPass s) := by
  unfold execLockstepMismatch
  dsimp only
  refine .next (.ite (Keeps.refl s) ?_)
  have hrevert : Keeps s s.trialRevert := (Keeps.refl s).trialRevert
  have hreset {m : List Nat} : Keeps s (State.stewardReset { s.trialRevert with stw := { s.trialRevert.stw with mismatches := m }
      } 2) :=
    Keeps.stewardReset (hrevert.frame rfl)
  exact .ite (Keeps.noteStatus (Keeps.record (hreset.frame rfl))) hreset

theorem execStewardWatchdog_steps : Steps s (execStewardWatchdog s) :=
  have h : Keeps s s := .refl s
  .next (.ite h.trialRevert.stewardReset h)

theorem Keeps.enterWaiting (h : Keeps s t) : Keeps s t.enterWaiting := Keeps.foldl (fun _ _ hu => hu.enterEvent) (h.frame rfl)

theorem Keeps.startWaitingSparing (h : Keeps s t) : Keeps s t.startWaitingSparing :=
  Keeps.foldl (fun _ _ hu => .ite hu.startSparing hu) h

theorem Keeps.startWaitingResets (h : Keeps s t) : Keeps s t.startWaitingResets :=
  Keeps.foldl (fun _ _ hu => .ite hu hu.startChanReset) h

theorem Keeps.endStewardResets (h : Keeps s t) : Keeps s t.endStewardResets := Keeps.foldl (fun _ _ hu => hu.endCmd) h

theorem Keeps.recoveryReboot (h : Keeps s t) : Keeps s t.recoveryReboot :=
  .ite h (.ite (h.frame rfl) (.ite (Keeps.event (Keeps.updFwKind (h.frame rfl))) h))

theorem execStewardRestartDone_steps {dt} : Steps s (execStewardRestartDone dt s) := by
  unfold execStewardRestartDone
  dsimp only
  have htick : Keeps s (s.tick dt) := (Keeps.refl s).tick
  refine .next (.ite htick (Keeps.settle (Keeps.noteStatus (Keeps.fwAdvance (Keeps.endStewardResets (Keeps.startWaitingResets
    (Keeps.startWaitingSparing (Keeps.recoveryReboot (Keeps.enterWaiting ?_)))))))))
  generalize hrec : State.record _ _ = u
  have hu : Keeps s u := by
    rw [← hrec]
    exact Keeps.record (Keeps.beside (Keeps.seqRestart (htick.frame rfl)))
  have hevent : Keeps s (if (s.tick dt).stw.lastCause = 2 then u.event 0x0906 else u) := .ite hu.event hu
  exact hevent.frame rfl

/-! ### Mgmt -/

theorem Keeps.mctp {bs} (h : Keeps s t) : Keeps s (t.mctp bs) := .ite h.answer h

theorem execSetEndpointId_steps {op eid} : Steps s (execSetEndpointId op eid s) :=
  have h : Keeps s s := .refl s
  .next (.ite h (.ite h.answer (Keeps.answer (h.frame rfl))))

theorem execGetEndpointId_steps : Steps s (execGetEndpointId s) :=
  have h : Keeps s s := .refl s
  .next h.mctp

theorem execGetMctpVersionSupport_steps {ty} : Steps s (execGetMctpVersionSupport ty s) :=
  have h : Keeps s s := .refl s
  .next h.mctp

theorem execGetMessageTypeSupport_steps : Steps s (execGetMessageTypeSupport s) :=
  have h : Keeps s s := .refl s
  .next h.mctp

theorem Keeps.takePacket {b packet} (h : Keeps s t) : Keeps s (t.takePacket b packet) :=
  .ite h.updBlock.deny (.ite h.updBlock.endCmd h.updBlock.settle)

theorem execMgmtCommandPacket_steps {debug packet} : Steps s (execMgmtCommandPacket debug packet s) :=
  have h : Keeps s s := .refl s
  .next (.ite h.takePacket h)

theorem Keeps.pldm {bs} (h : Keeps s t) : Keeps s (t.pldm bs) := .ite h.answer h

theorem execGetTid_steps : Steps s (execGetTid s) :=
  have h : Keeps s s := .refl s
  .next h.pldm

theorem execGetPldmVersion_steps {ty} : Steps s (execGetPldmVersion ty s) :=
  have h : Keeps s s := .refl s
  .next h.pldm

theorem execGetPldmTypes_steps : Steps s (execGetPldmTypes s) :=
  have h : Keeps s s := .refl s
  .next h.pldm

theorem execGetPldmCommands_steps {ty} : Steps s (execGetPldmCommands ty s) :=
  have h : Keeps s s := .refl s
  .next h.pldm

theorem execPldmUnsupported_steps {x0 x1} : Steps s (execPldmUnsupported x0 x1 s) :=
  have h : Keeps s s := .refl s
  .next h.pldm

theorem execGetPdrRepositoryInfo_steps : Steps s (execGetPdrRepositoryInfo s) :=
  have h : Keeps s s := .refl s
  .next h.pldm

theorem execGetPdr_steps {record} : Steps s (execGetPdr record s) :=
  have h : Keeps s s := .refl s
  .next h.pldm

theorem execGetSensorReading_steps {sensor} : Steps s (execGetSensorReading sensor s) :=
  have h : Keeps s s := .refl s
  .next h.pldm

theorem execPollForPlatformEventMessage_steps {ack} : Steps s (execPollForPlatformEventMessage ack s) := by
  have h : Keeps s s := .refl s
  unfold execPollForPlatformEventMessage
  dsimp only
  refine .next ?_
  split
  · exact h
  · refine Keeps.answer ?_
    split
    · exact h.frame rfl
    · exact h

theorem Keeps.setMgmt {m} (h : Keeps s t) : Keeps s (t.setMgmt m) := h.frame rfl

theorem execQueryDeviceIdentifiers_steps : Steps s (execQueryDeviceIdentifiers s) :=
  have h : Keeps s s := .refl s
  .next h.pldm

theorem execGetFirmwareParameters_steps : Steps s (execGetFirmwareParameters s) :=
  have h : Keeps s s := .refl s
  .next h.pldm

theorem execRequestUpdate_steps : Steps s (execRequestUpdate s) :=
  have h : Keeps s s := .refl s
  .next (.ite h (.ite h.answer h.setMgmt.answer))

theorem Keeps.inUpdate {ok yes} (h : Keeps s t) (hyes : ∀ u, Keeps s u → Keeps s (yes u)) : Keeps s (t.inUpdate ok yes) :=
  .ite h (.ite h.answer (.ite (hyes t h) h.answer))

theorem execPassComponentTable_steps {comps} : Steps s (execPassComponentTable comps s) :=
  have h : Keeps s s := .refl s
  .next (h.inUpdate fun _ hu => hu.setMgmt.answer)

theorem execUpdateComponent_steps {comp size} : Steps s (execUpdateComponent comp size s) :=
  have h : Keeps s s := .refl s
  .next (h.inUpdate fun _ hu => .ite hu.setMgmt.answer hu.answer)

theorem execRequestFirmwareDataResponse_steps {off data} : Steps s (execRequestFirmwareDataResponse off data s) :=
  have h : Keeps s s := .refl s
  .next (.ite h.setMgmt h)

theorem execTransferComplete_steps {result} : Steps s (execTransferComplete result s) :=
  have h : Keeps s s := .refl s
  .next (.ite (.ite (.ite h.setMgmt.answer h) h.answer) h)

theorem execVerifyComplete_steps : Steps s (execVerifyComplete s) := by
  have h : Keeps s s := .refl s
  unfold execVerifyComplete
  dsimp only
  refine .next ?_
  split
  · exact h
  · split
    · split
      · exact h.setMgmt.answer
      · exact h.setMgmt.answer
    · exact h

theorem execApplyComplete_steps {slotBad} : Steps s (execApplyComplete slotBad s) := by
  have h : Keeps s s := .refl s
  unfold execApplyComplete
  dsimp only
  refine .next ?_
  split
  · exact h
  · exact .ite (.ite h.setMgmt.answer h.stageImage.setMgmt.answer) h

theorem execActivateFirmware_steps : Steps s (execActivateFirmware s) :=
  have h : Keeps s s := .refl s
  .next (h.inUpdate fun _ hu => .ite hu.answer hu.answer.setMgmt.fwAdvance.settle)

theorem execGetStatus_steps : Steps s (execGetStatus s) :=
  have h : Keeps s s := .refl s
  .next h.pldm

theorem execCancelUpdateComponent_steps : Steps s (execCancelUpdateComponent s) :=
  have h : Keeps s s := .refl s
  .next (h.inUpdate fun _ hu => hu.setMgmt.answer)

theorem execCancelUpdate_steps : Steps s (execCancelUpdate s) :=
  have h : Keeps s s := .refl s
  .next (h.inUpdate fun _ hu => hu.setMgmt.answer)

/-! ### Startup -/

theorem Keeps.orphanStores (h : Keeps s t) : Keeps s t.orphanStores :=
  (h.dropStores : Keeps s (t.dropStores (fun t => !t.persistent))).beside

theorem Keeps.scrubFw (h : Keeps s t) : Keeps s t.scrubFw := by
  unfold State.scrubFw
  refine Keeps.foldl (fun u x hu => ?_) h
  split
  · exact hu
  · exact Keeps.foldl (fun _ _ hu => hu.scrubBacking) hu

theorem Keeps.loseEngine {warm} (h : Keeps s t) : Keeps s (t.loseEngine warm) :=
  have horphan : Keeps s (if warm then t.scrubFw else t).orphanStores := Keeps.orphanStores (.ite h.scrubFw h)
  horphan.restart rfl rfl rfl rfl rfl

theorem Keeps.loseSteward {warm} (h : Keeps s t) : Keeps s (t.loseSteward warm) := h.frame rfl

theorem Keeps.lose {warm} (h : Keeps s t) : Keeps s (t.lose warm) := h.loseEngine.loseSteward

theorem Keeps.countBoot (h : Keeps s t) : Keeps s t.countBoot := h.frame rfl

theorem Keeps.logStart (h : Keeps s t) : Keeps s t.logStart := Keeps.record (h.seqRestart.frame rfl)

theorem Keeps.runSteward {phase alt} (h : Keeps s t) : Keeps s (t.runSteward phase alt) := by
  unfold State.runSteward
  exact Keeps.logStart (h.frame rfl)

theorem Keeps.bootSteward {spi} (h : Keeps s t) : Keeps s (t.bootSteward spi) :=
  .ite h.runSteward (.ite h.updFwKind.runSteward.event (.ite h.runSteward.event (h.frame rfl)))

theorem execV3p3AuxGood_steps {spi} : Steps s (execV3p3AuxGood spi s) :=
  have h : Keeps s s := .refl s
  .next (.ite h (Keeps.bootSteward (Keeps.countBoot (h.lose.frame rfl))))

theorem execV3p3AuxLost_steps : Steps s (execV3p3AuxLost s) :=
  have hlose : Keeps s (s.lose false) := (Keeps.refl s).lose
  .next (.ite (Keeps.refl s) (hlose.restart rfl rfl rfl rfl rfl))

theorem execRomBootRetry_steps {spi} : Steps s (execRomBootRetry spi s) :=
  have h : Keeps s s := .refl s
  .next (.ite h.bootSteward h)

theorem Keeps.resumeErase {fuseBad} (h : Keeps s t) : Keeps s (t.resumeErase fuseBad) := by
  unfold State.resumeErase
  split
  · exact h
  · next hdue => exact .ite (Keeps.event (h.frame rfl)) (h.killKeys fun g => g.dueLate (by simpa using hdue)).dropKeys

theorem execPwrEnAssert_steps {fuseBad} : Steps s (execPwrEnAssert fuseBad s) :=
  have h : Keeps s s := .refl s
  .next (.ite h (h.resumeErase.frame rfl))

theorem execVin48StartTimeout_steps : Steps s (execVin48StartTimeout s) :=
  have h : Keeps s s := .refl s
  .next (.ite h (Keeps.event (h.frame rfl)))

theorem execVin48Retry_steps : Steps s (execVin48Retry s) :=
  have h : Keeps s s := .refl s
  .next (.ite h (h.frame rfl))

theorem Keeps.retireAtStart {q} (h : Keeps s t) : Keeps s (t.retireAtStart q) :=
  have hs : Keeps s (t.updDie q.die (fun x => { x with retired := x.retired ++ [(q.col, q.row)] })) := h.updDie
  .ite h (Keeps.coreEvent (hs.frame rfl))

theorem Keeps.placeGaps {d} (h : Keeps s t) : Keeps s (t.placeGaps d) :=
  (Keeps.foldl (fun _ _ hu => .ite hu hu.writeSel) h.updDie).noteShort

theorem Keeps.testConductors {bad} (h : Keeps s t) : Keeps s (t.testConductors bad) :=
  (Keeps.foldl (fun _ _ hu => hu.setConductor) h).frame rfl

theorem Keeps.selfTests {failed conductors} (h : Keeps s t) : Keeps s (t.selfTests failed conductors) :=
  (Keeps.foldl (fun _ _ hu => .ite hu.coreEvent hu) (Keeps.foldl (fun _ _ hu => hu.placeGaps) (Keeps.foldl (fun _ _ hu =>
      hu.retireAtStart) h.beside.testConductors))).noteStatus

theorem Keeps.lockPlls {refA refB} (h : Keeps s t) : Keeps s (t.lockPlls refA refB) :=
  Keeps.foldl (fun _ _ hu => .ite hu.setPll (.ite hu.setPll hu.setPll.enterCoast.setPll)) h

theorem Keeps.bringUp {refA refB failed conductors} (h : Keeps s t) : Keeps s (t.bringUp refA refB failed conductors) :=
  Keeps.selfTests (Keeps.lockPlls (h.frame rfl))

/-- VIN48 is applied in its order (R668). -/
theorem execVin48Good_steps {refA refB failed conductors} (hpwr : s.start.pwrEn = true) :
    Steps s (execVin48Good refA refB failed conductors s) := by
  unfold execVin48Good
  rw [hpwr]
  split
  · next hno => exact absurd hno (by decide)
  · split
    · exact .next (Keeps.refl s).bringUp
    · exact .next (Keeps.refl s)

theorem execVin48Lost_steps : Steps s (execVin48Lost s) :=
  have h : Keeps s s := .refl s
  .next (.ite h (.ite (h.loseEngine.frame rfl) (Keeps.logStart (Keeps.countBoot (h.loseEngine.frame rfl)))))

theorem Keeps.reserveGone {c} (h : Keeps s t) : Keeps s (t.reserveGone c) := .ite (.ite (h.takeFree.frame rfl) h.takeFree) h

theorem Keeps.trainFailed {e} (h : Keeps s t) : Keeps s (t.trainFailed e) := by
  have hlost {u : State} (hu : Keeps s u) {poison : MemState → List (Nat × Nat)} : Keeps s u := hu
  unfold State.trainFailed
  dsimp only
  split
  · exact h
  · split
    · split
      · exact h
      · split
        · next k _ =>
          have hs : Keeps s (t.setChan e.1 e.2 { t.chan e.1 e.2 with spare := some k, retired := true }) := h.setChan
          exact Keeps.record (Keeps.reserveGone (hs.frame rfl))
        · exact h.setChan
    · have hspare : Keeps s (t.setChan e.1 e.2 { t.chan e.1 e.2 with unusable := true }) := h.setChan
      split
      · exact hspare
      · next c _ =>
        split
        · next k _ =>
          have hs : Keeps s ((t.setChan e.1 e.2 { t.chan e.1 e.2 with unusable := true }).setChan e.1 c
              { (t.setChan e.1 e.2 { t.chan e.1 e.2 with unusable := true }).chan e.1 c with spare := some k, retired := true })
                  := hspare.setChan
          exact Keeps.record (Keeps.reserveGone (hs.frame rfl))
        · exact hspare.setChan

theorem execDramTrained_steps {failed} : Steps s (execDramTrained failed s) :=
  have h : Keeps s s := .refl s
  .next (.ite h (Keeps.noteStatus (.ite ((Keeps.scrubAll (.ite ((Keeps.foldl (fun _ _ hu => hu.trainFailed) h).beside)
      (Keeps.foldl (fun _ _ hu => .ite hu.train hu) ((Keeps.foldl (fun _ _ hu => hu.trainFailed) h).beside)))).startErase) (.ite
      ((Keeps.foldl (fun _ _ hu => hu.trainFailed) h).beside) (Keeps.foldl (fun _ _ hu => .ite hu.train hu) ((Keeps.foldl (fun _ _
      hu => hu.trainFailed) h).beside))))))

theorem Keeps.mapsPresent (h : Keeps s t) : Keeps s t.mapsPresent := h.frame rfl

theorem execFlashMapRebuilt_steps {rebuilt} : Steps s (execFlashMapRebuilt rebuilt s) :=
  have h : Keeps s s := .refl s
  .next (.ite (.ite (Keeps.event (Keeps.mapsPresent (h.frame rfl))) (Keeps.mapsPresent (h.frame rfl))) (.ite (Keeps.settle (.ite h.mapsPresent.event h)) h))

theorem execReadySet_steps {ms} : Steps s (execReadySet ms s) :=
  have h : Keeps s s := .refl s
  .next (.ite h (h.frame rfl))

theorem Keeps.assertReset (h : Keeps s t) : Keeps s t.assertReset := h.lose.frame rfl

theorem execSysResetNAssert_steps : Steps s (execSysResetNAssert s) :=
  have h : Keeps s s := .refl s
  .next (.ite h (.ite (h.frame rfl) (Keeps.assertReset (h.frame rfl))))

theorem execSysResetNRelease_steps {lowUs} : Steps s (execSysResetNRelease lowUs s) :=
  have h : Keeps s s := .refl s
  .next (.ite (h.frame rfl) (.ite (Keeps.beside (.ite h.beside h.beside.assertReset)) (.ite (h.frame rfl)
      (Keeps.beside (.ite h.beside h.beside.assertReset)))))

theorem Keeps.portDown (h : Keeps s t) : Keeps s t.portDown := h.frame rfl

theorem execPciePerstNFall_steps : Steps s (execPciePerstNFall s) :=
  have h : Keeps s s := .refl s
  .next (.ite h.beside.portDown.assertReset.beside (.ite h.beside.portDown.beside h.beside.portDown))

theorem execPciePerstNRise_steps : Steps s (execPciePerstNRise s) :=
  have h : Keeps s s := .refl s
  .next (h.frame rfl)

theorem execWarmReset_steps {spi dt refA refB failed conductors fuseBad} : Steps s (execWarmReset spi dt refA refB failed
    conductors fuseBad s) := by
  have h : Keeps s s := .refl s
  unfold execWarmReset
  dsimp only
  refine .next ?_
  split
  · exact .ite h (.ite h.tick.lose.beside.bootSteward.beside (.ite h.tick.lose.beside.bootSteward.resumeErase.bringUp
        h.tick.lose.beside.bootSteward.beside))
  · exact h

theorem execColdReset_steps {spi} : Steps s (execColdReset spi s) := by
  have h : Keeps s s := .refl s
  unfold execColdReset
  dsimp only
  refine .next ?_
  split
  · exact .ite h (Keeps.bootSteward (Keeps.countBoot (h.lose.frame rfl)))
  · exact h

theorem execTripComparator_steps {sensor} : Steps s (execTripComparator sensor s) :=
  have h : Keeps s s := .refl s
  .next (.ite h (Keeps.record (h.loseEngine.frame rfl)))

theorem Keeps.resetPart {p} (h : Keeps s t) : Keeps s (t.resetPart p) := by
  unfold State.resetPart
  dsimp only
  split
  · exact h
  · exact ((Keeps.updCores (.ite ((Keeps.foldl (fun _ _ hu => hu.updStream) (((Keeps.foldl (fun _ _ hu => hu.releaseCtx)
        (Keeps.foldl (fun _ _ hu => hu.endAtBoundary) h.updPart)).dropStores).setBlock)).setConductor) (Keeps.foldl (fun _ _ hu =>
        hu.updStream) (((Keeps.foldl (fun _ _ hu => hu.releaseCtx) (Keeps.foldl (fun _ _ hu => hu.endAtBoundary)
        h.updPart)).dropStores).setBlock)))).beside).updPart

theorem Keeps.opReset {c k p} (h : Keeps s t) : Keeps s (t.opReset c k p) := by
  unfold State.opReset
  exact .ite h.endCmd (.ite (h.endCmd.frame rfl) (.ite (h.endCmd.frame rfl) (.ite h.startCmd.stewardReset h.startCmd.resetPart.endCmd)))

theorem execOpReset_steps {c} : Steps s (execOpReset c s) :=
  have h : Keeps s s := .refl s
  .next (h.gate fun _ _ _ _ hu => hu.opReset)

theorem execHostPortL0_steps {wide} : Steps s (execHostPortL0 wide s) :=
  have h : Keeps s s := .refl s
  .next (.ite h (h.frame rfl))

theorem execHostLinkDown_steps : Steps s (execHostLinkDown s) :=
  have h : Keeps s s := .refl s
  .next (.ite h.portDown.dropIde h)

theorem execSriovEnable_steps {on} : Steps s (execSriovEnable on s) :=
  have h : Keeps s s := .refl s
  .next (.ite (h.frame rfl) h)

theorem Keeps.setI3c {addr} (h : Keeps s t) : Keeps s (t.setI3c addr) := h.frame rfl

theorem execI3cSetdasa_steps {static addr} : Steps s (execI3cSetdasa static addr s) :=
  have h : Keeps s s := .refl s
  .next (.ite h.setI3c h)

theorem execI3cEntdaa_steps {addr} : Steps s (execI3cEntdaa addr s) :=
  have h : Keeps s s := .refl s
  .next (.ite h.setI3c h)

end Sys2Proof.Machine
end

section
/-! SUPPORT. What every step keeps, over the whole table of commands (R534, R543, R544, R579, R668). -/

namespace Sys2Proof.Machine

/-- Every command steps to a state that keeps what every step keeps, but VIN48 applied while PWR_EN is deasserted. -/
theorem exec_steps {i : Instr} {s : State} (h : ∀ a b q cores, i = .vin48Good a b q cores → s.start.pwrEn = true) : Steps s (exec i s) := by
  cases i with
  | bar0BadAccess => exact execBar0BadAccess_steps
  | mirrorWrite => exact execMirrorWrite_steps
  | regWrite => exact execRegWrite_steps
  | sqTailWrite => exact execSqTailWrite_steps
  | cqHeadWrite => exact execCqHeadWrite_steps
  | sqEnable => exact execSqEnable_steps
  | sqDisable => exact execSqDisable_steps
  | cqEnable => exact execCqEnable_steps
  | cqDisable => exact execCqDisable_steps
  | clrCounts => exact execClrCounts_steps
  | stwReset => exact execStwReset_steps
  | clrLost => exact execClrLost_steps
  | evtConsWrite => exact execEvtConsWrite_steps
  | timebaseLoRead => exact execTimebaseLoRead_steps
  | steppedClear => exact execSteppedClear_steps
  | trippedClear => exact execTrippedClear_steps
  | clkoutCtrlWrite => exact execClkoutCtrlWrite_steps
  | apertureRead => exact execApertureRead_steps
  | apertureWrite => exact execApertureWrite_steps
  | clrRbw => exact execClrRbw_steps
  | clrWritten => exact execClrWritten_steps
  | zeroAll => exact execZeroAll_steps
  | zeroingDone => exact execZeroingDone_steps
  | clrStat => exact execClrStat_steps
  | clrCheck => exact execClrCheck_steps
  | go => exact execGo_steps
  | bankPwrWrite => exact execBankPwrWrite_steps
  | bankWakeEnd => exact execBankWakeEnd_steps
  | bankScrubEnd => exact execBankScrubEnd_steps
  | bankPowerOff => exact execBankPowerOff_steps
  | packetFetch => exact execPacketFetch_steps
  | cqHeldRecordWrite => exact execCqHeldRecordWrite_steps
  | cqIrqDelayExpiry => exact execCqIrqDelayExpiry_steps
  | commandTimeout => exact execCommandTimeout_steps
  | seqBusyResume => exact execSeqBusyResume_steps
  | opPartCreate => exact execOpPartCreate_steps
  | opPartDestroy => exact execOpPartDestroy_steps
  | opPartDisable => exact execOpPartDisable_steps
  | opPartStat => exact execOpPartStat_steps
  | opCtxCreate => exact execOpCtxCreate_steps
  | opCtxDestroy => exact execOpCtxDestroy_steps
  | opQuotaSet => exact execOpQuotaSet_steps
  | opQuotaStat => exact execOpQuotaStat_steps
  | opCmdAbort => exact execOpCmdAbort_steps
  | opPlanLoad => exact execOpPlanLoad_steps
  | planInstall => exact execPlanInstall_steps
  | opWeightLoad => exact execOpWeightLoad_steps
  | opPoolBind => exact execOpPoolBind_steps
  | opTensorStat => exact execOpTensorStat_steps
  | opRun => exact execOpRun_steps
  | opRoll => exact execOpRoll_steps
  | opFork => exact execOpFork_steps
  | opTrainStep => exact execOpTrainStep_steps
  | opSeqCreate => exact execOpSeqCreate_steps
  | opSeqRelease => exact execOpSeqRelease_steps
  | opSeqThaw => exact execOpSeqThaw_steps
  | opKvStat => exact execOpKvStat_steps
  | opRegionCreate => exact execOpRegionCreate_steps
  | opRegionDestroy => exact execOpRegionDestroy_steps
  | opMemClass => exact execOpMemClass_steps
  | opMemCopy => exact execOpMemCopy_steps
  | opStoreCreate => exact execOpStoreCreate_steps
  | opStoreDestroy => exact execOpStoreDestroy_steps
  | opStoreAttach => exact execOpStoreAttach_steps
  | opStoreWrite => exact execOpStoreWrite_steps
  | opStoreRead => exact execOpStoreRead_steps
  | opStoreTrim => exact execOpStoreTrim_steps
  | opStoreStat => exact execOpStoreStat_steps
  | opJpegDecode => exact execOpJpegDecode_steps
  | opDcacheConfig => exact execOpDcacheConfig_steps
  | opLsfRead => exact execOpLsfRead_steps
  | opLsfWrite => exact execOpLsfWrite_steps
  | opCapAssign => exact execOpCapAssign_steps
  | opCapConfig => exact execOpCapConfig_steps
  | opCapStart => exact execOpCapStart_steps
  | opCapStop => exact execOpCapStop_steps
  | opHarvest => exact execOpHarvest_steps
  | opInventory => exact execOpInventory_steps
  | opSensorRead => exact execOpSensorRead_steps
  | opEventRead => exact execOpEventRead_steps
  | opFwStage => exact execOpFwStage_steps
  | opFwActivate => exact execOpFwActivate_steps
  | opBoost => exact execOpBoost_steps
  | opReset => exact execOpReset_steps
  | opLcAdvance => exact execOpLcAdvance_steps
  | opKeyProvision => exact execOpKeyProvision_steps
  | opDebugUnlock => exact execOpDebugUnlock_steps
  | opConfidential => exact execOpConfidential_steps
  | opPlanKey => exact execOpPlanKey_steps
  | opSpanConfig => exact execOpSpanConfig_steps
  | opSpanRoute => exact execOpSpanRoute_steps
  | opSpanWindow => exact execOpSpanWindow_steps
  | opCollGroup => exact execOpCollGroup_steps
  | opSpanStat => exact execOpSpanStat_steps
  | stepDispatch => exact execStepDispatch_steps
  | planChangeStep => exact execPlanChangeStep_steps
  | dispatchCommit => exact execDispatchCommit_steps
  | granuleCommit => exact execGranuleCommit_steps
  | expertPoint => exact execExpertPoint_steps
  | quantumExpiry => exact execQuantumExpiry_steps
  | switchPoint => exact execSwitchPoint_steps
  | switchSaveDone => exact execSwitchSaveDone_steps
  | switchRestoreDone => exact execSwitchRestoreDone_steps
  | drainLimitExpiry => exact execDrainLimitExpiry_steps
  | tNop => exact execTNop_steps
  | tEnd => exact execTEnd_steps
  | tJmp => exact execTJmp_steps
  | tBr => exact execTBr_steps
  | tLoop => exact execTLoop_steps
  | tTrap => exact execTTrap_steps
  | tMovi => exact execTMovi_steps
  | tAdd => exact execTAdd_steps
  | tAddi => exact execTAddi_steps
  | tSub => exact execTSub_steps
  | tMul => exact execTMul_steps
  | tAnd => exact execTAnd_steps
  | tOr => exact execTOr_steps
  | tShl => exact execTShl_steps
  | tShr => exact execTShr_steps
  | tLdx => exact execTLdx_steps
  | tStx => exact execTStx_steps
  | tRdc => exact execTRdc_steps
  | tLds => exact execTLds_steps
  | loadReady => exact execLoadReady_steps
  | tSwp => exact execTSwp_steps
  | tPass => exact execTPass_steps
  | tTpass => exact execTTpass_steps
  | passComplete => exact execPassComplete_steps
  | arrayRampDown => exact execArrayRampDown_steps
  | arrayGated => exact execArrayGated_steps
  | tFlush => exact execTFlush_steps
  | tAclr => exact execTAclr_steps
  | tVld => exact execTVld_steps
  | tVst => exact execTVst_steps
  | gbIdleFlush => exact execGbIdleFlush_steps
  | tVlda => exact execTVlda_steps
  | tVsta => exact execTVsta_steps
  | tVadd => exact execTVadd_steps
  | tVsub => exact execTVsub_steps
  | tVmul => exact execTVmul_steps
  | tVfma => exact execTVfma_steps
  | tVmax => exact execTVmax_steps
  | tVmin => exact execTVmin_steps
  | tVcvt => exact execTVcvt_steps
  | tVsplit => exact execTVsplit_steps
  | tVred => exact execTVred_steps
  | tQnt => exact execTQnt_steps
  | tSfn => exact execTSfn_steps
  | tStbl => exact execTStbl_steps
  | tSmp => exact execTSmp_steps
  | tSrow => exact execTSrow_steps
  | tSsmx => exact execTSsmx_steps
  | tStld => exact execTStld_steps
  | tStst => exact execTStst_steps
  | tSstep => exact execTSstep_steps
  | tSout => exact execTSout_steps
  | tDmaq => exact execTDmaq_steps
  | dmaDescriptorStart => exact execDmaDescriptorStart_steps
  | dmaComplete => exact execDmaComplete_steps
  | dmaDeadlineExpiry => exact execDmaDeadlineExpiry_steps
  | tNbx => exact execTNbx_steps
  | nbBeatArrival => exact execNbBeatArrival_steps
  | tWait => exact execTWait_steps
  | tCset => exact execTCset_steps
  | tFence => exact execTFence_steps
  | tBar => exact execTBar_steps
  | barRelease => exact execBarRelease_steps
  | tEvt => exact execTEvt_steps
  | watchdogExpiry => exact execWatchdogExpiry_steps
  | coreFaultRecovery => exact execCoreFaultRecovery_steps
  | selfTestDone => exact execSelfTestDone_steps
  | gapTestTimer => exact execGapTestTimer_steps
  | coreReset => exact execCoreReset_steps
  | marshalCoalesceClose => exact execMarshalCoalesceClose_steps
  | faultReport => exact execFaultReport_steps
  | stewardCoalesceClose => exact execStewardCoalesceClose_steps
  | conductorTakeover => exact execConductorTakeover_steps
  | marshalRestart => exact execMarshalRestart_steps
  | hubHalfLoss => exact execHubHalfLoss_steps
  | hubHalfRestored => exact execHubHalfRestored_steps
  | linkRetryExcess => exact execLinkRetryExcess_steps
  | patrolScrubRead => exact execPatrolScrubRead_steps
  | sparingCopyDone => exact execSparingCopyDone_steps
  | allocationScrubDone => exact execAllocationScrubDone_steps
  | flashWriteDone => exact execFlashWriteDone_steps
  | stripeCloseTimer => exact execStripeCloseTimer_steps
  | mapCheckpoint => exact execMapCheckpoint_steps
  | relocationDone => exact execRelocationDone_steps
  | staticLevelling pair chan => exact execStaticLevelling_steps (pair := pair) (chan := chan)
  | flitReceive => exact execFlitReceive_steps
  | nakReceive => exact execNakReceive_steps
  | laneFailing => exact execLaneFailing_steps
  | laneSpareRequest => exact execLaneSpareRequest_steps
  | portTrainingDone => exact execPortTrainingDone_steps
  | portRetryTimer => exact execPortRetryTimer_steps
  | spanPacketArrival => exact execSpanPacketArrival_steps
  | spanLocalCompletion => exact execSpanLocalCompletion_steps
  | collectiveComplete => exact execCollectiveComplete_steps
  | spanTimeout => exact execSpanTimeout_steps
  | csiFrameStart => exact execCsiFrameStart_steps
  | csiLongPacket => exact execCsiLongPacket_steps
  | csiOtherPacket => exact execCsiOtherPacket_steps
  | csiFrameEnd => exact execCsiFrameEnd_steps
  | frameTimeout => exact execFrameTimeout_steps
  | pipelineExit => exact execPipelineExit_steps
  | tsyncEdge => exact execTsyncEdge_steps
  | tsyncLost => exact execTsyncLost_steps
  | refFailure => exact execRefFailure_steps
  | refGood => exact execRefGood_steps
  | switchoverLock => exact execSwitchoverLock_steps
  | coastStep => exact execCoastStep_steps
  | pllLockLoss => exact execPllLockLoss_steps
  | sensorSample => exact execSensorSample_steps
  | throttleStep => exact execThrottleStep_steps
  | throttleRecovery => exact execThrottleRecovery_steps
  | solsticeRampStep => exact execSolsticeRampStep_steps
  | stepdownStep => exact execStepdownStep_steps
  | wearBinWrite => exact execWearBinWrite_steps
  | tripComparator => exact execTripComparator_steps
  | lockstepMismatch => exact execLockstepMismatch_steps
  | stewardWatchdog => exact execStewardWatchdog_steps
  | stewardRestartDone => exact execStewardRestartDone_steps
  | logWrite => exact execLogWrite_steps
  | fwTrialTimer => exact execFwTrialTimer_steps
  | conductorLoaded => exact execConductorLoaded_steps
  | equinoxHandover => exact execEquinoxHandover_steps
  | marshalActivation => exact execMarshalActivation_steps
  | setEndpointId => exact execSetEndpointId_steps
  | getEndpointId => exact execGetEndpointId_steps
  | getMctpVersionSupport => exact execGetMctpVersionSupport_steps
  | getMessageTypeSupport => exact execGetMessageTypeSupport_steps
  | mgmtCommandPacket => exact execMgmtCommandPacket_steps
  | getTid => exact execGetTid_steps
  | getPldmVersion => exact execGetPldmVersion_steps
  | getPldmTypes => exact execGetPldmTypes_steps
  | getPldmCommands => exact execGetPldmCommands_steps
  | getPdrRepositoryInfo => exact execGetPdrRepositoryInfo_steps
  | getPdr => exact execGetPdr_steps
  | getSensorReading => exact execGetSensorReading_steps
  | pollForPlatformEventMessage => exact execPollForPlatformEventMessage_steps
  | pldmUnsupported ty cmd => exact execPldmUnsupported_steps (x0 := ty) (x1 := cmd)
  | queryDeviceIdentifiers => exact execQueryDeviceIdentifiers_steps
  | getFirmwareParameters => exact execGetFirmwareParameters_steps
  | requestUpdate => exact execRequestUpdate_steps
  | passComponentTable => exact execPassComponentTable_steps
  | updateComponent => exact execUpdateComponent_steps
  | requestFirmwareDataResponse => exact execRequestFirmwareDataResponse_steps
  | transferComplete => exact execTransferComplete_steps
  | verifyComplete => exact execVerifyComplete_steps
  | applyComplete => exact execApplyComplete_steps
  | activateFirmware => exact execActivateFirmware_steps
  | getStatus => exact execGetStatus_steps
  | cancelUpdateComponent => exact execCancelUpdateComponent_steps
  | cancelUpdate => exact execCancelUpdate_steps
  | spdmGetVersion => exact execSpdmGetVersion_steps
  | spdmGetCapabilities => exact execSpdmGetCapabilities_steps
  | negotiateAlgorithms => exact execNegotiateAlgorithms_steps
  | getDigests => exact execGetDigests_steps
  | getCertificate => exact execGetCertificate_steps
  | challenge => exact execChallenge_steps
  | getMeasurements => exact execGetMeasurements_steps
  | keyExchange => exact execKeyExchange_steps
  | finish => exact execFinish_steps
  | heartbeat => exact execHeartbeat_steps
  | keyUpdate => exact execKeyUpdate_steps
  | endSession => exact execEndSession_steps
  | ideKmKeyProg => exact execIdeKmKeyProg_steps
  | kSetGo => exact execKSetGo_steps
  | tdispGetVersion => exact execTdispGetVersion_steps
  | tdispGetCapabilities => exact execTdispGetCapabilities_steps
  | lockInterfaceRequest => exact execLockInterfaceRequest_steps
  | getDeviceInterfaceReport => exact execGetDeviceInterfaceReport_steps
  | getDeviceInterfaceState => exact execGetDeviceInterfaceState_steps
  | startInterfaceRequest => exact execStartInterfaceRequest_steps
  | stopInterfaceRequest => exact execStopInterfaceRequest_steps
  | ideIntegrityFailure => exact execIdeIntegrityFailure_steps
  | debugSessionExpiry => exact execDebugSessionExpiry_steps
  | challengeExpiry => exact execChallengeExpiry_steps
  | jtagInstruction => exact execJtagInstruction_steps
  | jtagTrst => exact execJtagTrst_steps
  | flashEraseDone => exact execFlashEraseDone_steps
  | v3p3AuxGood => exact execV3p3AuxGood_steps
  | v3p3AuxLost => exact execV3p3AuxLost_steps
  | romBootRetry => exact execRomBootRetry_steps
  | pwrEnAssert => exact execPwrEnAssert_steps
  | vin48Good refA refB failed conductors => exact execVin48Good_steps (h refA refB failed conductors rfl)
  | vin48StartTimeout => exact execVin48StartTimeout_steps
  | vin48Retry => exact execVin48Retry_steps
  | vin48Lost => exact execVin48Lost_steps
  | dramTrained => exact execDramTrained_steps
  | flashMapRebuilt => exact execFlashMapRebuilt_steps
  | readySet => exact execReadySet_steps
  | sysResetNRelease => exact execSysResetNRelease_steps
  | pciePerstNFall => exact execPciePerstNFall_steps
  | pciePerstNRise => exact execPciePerstNRise_steps
  | warmReset => exact execWarmReset_steps
  | coldReset => exact execColdReset_steps
  | i3cSetdasa => exact execI3cSetdasa_steps
  | i3cEntdaa => exact execI3cEntdaa_steps
  | sysResetNAssert => exact execSysResetNAssert_steps
  | hostPortL0 => exact execHostPortL0_steps
  | hostLinkDown => exact execHostLinkDown_steps
  | sriovEnable => exact execSriovEnable_steps
  | pageSetZeroingDone => exact execPageSetZeroingDone_steps
  | channelResetDone => exact execChannelResetDone_steps
  | solsticeDurationExpiry => exact execSolsticeDurationExpiry_steps
  | firmwareFault => exact execFirmwareFault_steps

/-- VIN48 applied while PWR_EN is deasserted has no next state: its effect is undefined (R668). -/
theorem exec_vin48Good_of_pwrEn_false {s : State} (h : s.start.pwrEn = false) (a b : Bool) (q : List CorePos) (cores : List Nat) :
    exec (.vin48Good a b q cores) s = .fault .supplyOutOfOrder := by
  show execVin48Good a b q cores s = _
  unfold execVin48Good
  rw [h]
  rfl

/-- A command steps to a state that keeps what every step keeps, or it is VIN48 out of its order. -/
theorem exec_steps_or_supply (i : Instr) (s : State) : Steps s (exec i s) ∨
    (exec i s = .fault .supplyOutOfOrder ∧ s.start.pwrEn = false ∧ ∃ a b q cores, i = .vin48Good a b q cores) := by
  cases hp : s.start.pwrEn with
  | true => exact .inl (exec_steps fun _ _ _ _ _ => hp)
  | false =>
    by_cases hi : ∃ a b q cores, i = .vin48Good a b q cores
    · obtain ⟨a, b, q, cores, rfl⟩ := hi
      exact .inr ⟨exec_vin48Good_of_pwrEn_false hp a b q cores, rfl, a, b, q, cores, rfl⟩
    · exact .inl (exec_steps fun a b q cores hvin => absurd ⟨a, b, q, cores, hvin⟩ hi)

/-- A step to a next state keeps what every step keeps. -/
theorem keeps_of_step {s t : State} (h : step s = .next t) : Keeps s t := by
  unfold step at h
  split at h
  · obtain rfl := Host.Outcome.next.inj h
    exact .refl _
  · next c rest _ =>
    have hrest : Keeps s (s.withPending rest) := (Keeps.refl s).frame rfl
    obtain hsteps | ⟨hstop, -⟩ := exec_steps_or_supply c (s.withPending rest)
    · obtain ⟨u, hu, hkeeps⟩ := hsteps.exists_next
      obtain rfl := Host.Outcome.next.inj (hu.symm.trans h)
      exact hrest.trans hkeeps
    · exact absurd (hstop.symm.trans h) nofun

/-- Settles O56: no part of any command clears a fuse. -/
theorem fusesAreNeverCleared : Obligations.FusesAreNeverCleared := fun _ _ h => (keeps_of_step h).fuses

/-- Settles O57: each event takes the next number, and a restart goes on above the recorded bound. -/
theorem eventNumbersNeverRepeat : Obligations.EventNumbersNeverRepeat := fun _ _ hseq h => (keeps_of_step h).seq hseq

/-- Settles O58: each clause is kept along the parts of every command. -/
theorem goodStateIsKept : Obligations.GoodStateIsKept := fun _ _ hgood h => (keeps_of_step h).good hgood

/-- Settles O59: every command but one steps to a next state. -/
theorem onlySupplyOrderStops : Obligations.OnlySupplyOrderStops := by
  intro i s
  obtain hsteps | ⟨hstop, hpwr, hvin⟩ := exec_steps_or_supply i s
  · obtain ⟨t, ht, -⟩ := hsteps.exists_next
    rw [ht]
    exact ⟨nofun, nofun⟩
  · rw [hstop]
    exact ⟨fun f hf => ⟨(Host.Outcome.fault.inj hf).symm, hpwr, hvin⟩, nofun⟩

/-- Settles O1: the front command runs on the rest of the queue. -/
theorem stepRunsFrontCommand : Obligations.StepRunsFrontCommand := fun _ _ _ => ⟨rfl, rfl⟩

end Sys2Proof.Machine
end
